-- ==== Sys2Proof/Word.lean ====
section
/-!
DEFINITION. The word types of the P9X and their plainest arithmetic.
-/

namespace Sys2Proof

/-- A byte. -/
abbrev Byte := BitVec 8
/-- A 64-bit word, the width of every scalar register (Table 01-1). -/
abbrev Word := BitVec 64
/-- One instruction word (R75). -/
abbrev IWord := BitVec 32
/-- One vector register, 4,096 bits (Table 01-1). -/
abbrev VReg := BitVec 4096
/-- One mask register, 1,024 bits (Table 01-1). -/
abbrev KReg := BitVec 1024

/-- A word from a natural number, modulo 2^64. -/
abbrev w64 (n : Nat) : Word := BitVec.ofNat 64 n

/-- Bits `hi` down to `lo` of a natural number. -/
def bitsOf (n hi lo : Nat) : Nat := (n >>> lo) % 2 ^ (hi + 1 - lo)

/-- Bit `i` of a natural number, as 0 or 1. -/
def bit1 (n i : Nat) : Nat := (n >>> i) % 2

/-- Round `n` up to a multiple of `m`. -/
def ceilDiv (n m : Nat) : Nat := (n + m - 1) / m

end Sys2Proof
end

