-- ==== Sys2Proof/Machine/Types.lean ====
section
/-!
DEFINITION. The vector element types (Table 05-6): width, lanes, and the classes of R136 and Table 08-1.
-/

namespace Sys2Proof.Machine

/-- A type code of Table 05-6, width3 : fm2. -/
abbrev TypeCode := BitVec 5

/-- Whether the code is an integer type. -/
def tIsInt (t : TypeCode) : Bool := decide (t.toNat < 12)
/-- Whether an integer type is signed (an `.s` type). -/
def tSigned (t : TypeCode) : Bool := tIsInt t && decide (t.toNat % 2 = 0)
/-- The class WIDE of R136. -/
def tIsWide (t : TypeCode) : Bool := decide (12 ≤ t.toNat ∧ t.toNat < 16)
/-- The class NARROW of R136. -/
def tIsNarrow (t : TypeCode) : Bool := decide (16 ≤ t.toNat ∧ t.toNat < 28)
/-- Every type that is not reserved (R86). -/
def tAny (t : TypeCode) : Bool := decide (t.toNat < 28)

/-- The element width of a type (R135). -/
def tWidth (t : TypeCode) : Nat :=
  match t.toNat with
  | 0 | 1 => 4
  | 2 | 3 => 6
  | 4 | 5 => 8
  | 6 | 7 => 16
  | 8 | 9 => 32
  | 10 | 11 => 64
  | 12 | 13 => 16
  | 14 => 32
  | 15 => 64
  | n => if n < 20 then 8 else if n < 24 then 6 else 4

/-- The lane count of an element width (R135). -/
def lanesOf (w : Nat) : Nat := if w = 6 then 640 else 4096 / w

/-- The lane count of a type (R135). -/
def tLanes (t : TypeCode) : Nat := lanesOf (tWidth t)

/-- The format register a NARROW type names (R86). -/
def tFm (t : TypeCode) : Nat := t.toNat % 4

/-- INT, WIDE and NARROW, which are all the types (Table 08-1). -/
def admArith (t : TypeCode) : Bool := tAny t
/-- INT8+ (R136). -/
def admInt8 (t : TypeCode) : Bool := tIsInt t && decide (8 ≤ tWidth t)
/-- INT (R136). -/
def admInt (t : TypeCode) : Bool := tIsInt t
/-- The types of VDOT (Table 08-1). -/
def admDot (t : TypeCode) : Bool := decide (t.toNat < 8) || decide (t.toNat = 12) || decide (t.toNat = 13) || tIsNarrow t
/-- The types of VPLANE (Table 08-1). -/
def admPlane (t : TypeCode) : Bool := decide (t.toNat < 4) || decide (20 ≤ t.toNat ∧ t.toNat < 28)
/-- The types of VQNT and VDQNT (Table 08-1). -/
def admQuant (t : TypeCode) : Bool := decide (t.toNat = 1) || decide (t.toNat = 5)
/-- The types of the special functions (Table 08-1). -/
def admSpecial (t : TypeCode) : Bool := decide (12 ≤ t.toNat ∧ t.toNat < 15)
/-- The types of the strided forms (Table 08-1). -/
def admStride (t : TypeCode) : Bool := admInt8 t || tIsWide t || decide (16 ≤ t.toNat ∧ t.toNat < 20)
/-- The types of gather and scatter (Table 08-1): width 16, 32 or 64. -/
def admGather (t : TypeCode) : Bool := decide (6 ≤ t.toNat ∧ t.toNat < 16)

end Sys2Proof.Machine
end

