-- ==== Sys2Proof/Syntax.lean ====
section
/-!
DEFINITION. The instructions and steps of the P9X: one constructor per row of the opcode table, with its operands.

The 173 instruction words come first, in the table's order, then the 140 steps of the part's other agents.
A step's arguments say which unit it happens at, and, for an event of the outside world, what the outside brings.
-/

namespace Sys2Proof

/-- A scalar destination field, 5+C (R76, R78): a register or a channel. -/
inductive Dst where
  | x (n : BitVec 5)
  | ch (n : BitVec 5)
  deriving DecidableEq, Repr

/-- A scalar source field, 5+C+PK (R76, R78): a register, a popped channel or a peeked channel. -/
inductive Src where
  | x (n : BitVec 5)
  | ch (n : BitVec 5) (peek : Bool)
  deriving DecidableEq, Repr

/-- A vector-kind destination field of format V, 4+C. -/
inductive VDst where
  | v (n : BitVec 4)
  | ch (n : BitVec 4)
  deriving DecidableEq, Repr

/-- A vector-kind source field of format V, 4+C+PK. -/
inductive VSrc where
  | v (n : BitVec 4)
  | ch (n : BitVec 4) (peek : Bool)
  deriving DecidableEq, Repr

/-- A scalar-kind destination field of format V (R78): x0 to x15 or a channel. -/
inductive XDst where
  | x (n : BitVec 4)
  | ch (n : BitVec 4)
  deriving DecidableEq, Repr

/-- A scalar-kind source field of format V (R78): x0 to x15 or a channel. -/
inductive XSrc where
  | x (n : BitVec 4)
  | ch (n : BitVec 4) (peek : Bool)
  deriving DecidableEq, Repr

/-- One row of the opcode table each. -/
inductive Instr where
  -- Scalar register forms, major OP (R95, R96).
  | add (d : Dst) (a b : Src)
  | sub (d : Dst) (a b : Src)
  | and (d : Dst) (a b : Src)
  | or (d : Dst) (a b : Src)
  | xor (d : Dst) (a b : Src)
  | andn (d : Dst) (a b : Src)
  | sll (d : Dst) (a b : Src)
  | srl (d : Dst) (a b : Src)
  | sra (d : Dst) (a b : Src)
  | rol (d : Dst) (a b : Src)
  | slt (d : Dst) (a b : Src)
  | sltu (d : Dst) (a b : Src)
  | min (d : Dst) (a b : Src)
  | max (d : Dst) (a b : Src)
  | minu (d : Dst) (a b : Src)
  | maxu (d : Dst) (a b : Src)
  | mul (d : Dst) (a b : Src)
  | mulh (d : Dst) (a b : Src)
  | mulhu (d : Dst) (a b : Src)
  | div (d : Dst) (a b : Src)
  | divu (d : Dst) (a b : Src)
  | rem (d : Dst) (a b : Src)
  | remu (d : Dst) (a b : Src)
  | clz (d : Dst) (a : Src)
  | ctz (d : Dst) (a : Src)
  | popc (d : Dst) (a : Src)
  | bext (d : Dst) (a b : Src)
  | bdep (d : Dst) (a b : Src)
  -- Immediate forms (R98 to R101).
  | addi (d : Dst) (a : Src) (i : BitVec 13)
  | andi (d : Dst) (a : Src) (i : BitVec 13)
  | ori (d : Dst) (a : Src) (i : BitVec 13)
  | xori (d : Dst) (a : Src) (i : BitVec 13)
  | slli (d : Dst) (a : Src) (n : BitVec 6)
  | srli (d : Dst) (a : Src) (n : BitVec 6)
  | srai (d : Dst) (a : Src) (n : BitVec 6)
  | slti (d : Dst) (a : Src) (i : BitVec 13)
  | sltiu (d : Dst) (a : Src) (i : BitVec 13)
  | lui (d : BitVec 5) (i : BitVec 20)
  | auipc (d : BitVec 5) (i : BitVec 20)
  -- Control forms (R102 to R104).
  | beq (a b : BitVec 5) (o : BitVec 13)
  | bne (a b : BitVec 5) (o : BitVec 13)
  | blt (a b : BitVec 5) (o : BitVec 13)
  | bge (a b : BitVec 5) (o : BitVec 13)
  | bltu (a b : BitVec 5) (o : BitVec 13)
  | bgeu (a b : BitVec 5) (o : BitVec 13)
  | jal (d : BitVec 5) (o : BitVec 20)
  | jalr (d a : BitVec 5) (i : BitVec 13)
  -- Loads and stores (R112, R113).
  | ld (d : Dst) (a : BitVec 5) (w : BitVec 2) (o : BitVec 9)
  | ldu (d : Dst) (a : BitVec 5) (w : BitVec 2) (o : BitVec 9)
  | lda (d : Dst) (a : BitVec 5) (w : BitVec 2) (o : BitVec 9)
  | st (d : Src) (a : BitVec 5) (w : BitVec 2) (o : BitVec 9)
  | stl (d : Src) (a : BitVec 5) (w : BitVec 2) (o : BitVec 9)
  -- Atomics (R121, R122); w is true for the doubleword.
  | amoAdd (d a b : BitVec 5) (w : Bool)
  | amoAnd (d a b : BitVec 5) (w : Bool)
  | amoOr (d a b : BitVec 5) (w : Bool)
  | amoXor (d a b : BitVec 5) (w : Bool)
  | amoMin (d a b : BitVec 5) (w : Bool)
  | amoMax (d a b : BitVec 5) (w : Bool)
  | amoMinu (d a b : BitVec 5) (w : Bool)
  | amoMaxu (d a b : BitVec 5) (w : Bool)
  | amoSwap (d a b : BitVec 5) (w : Bool)
  | cas (d a b : BitVec 5) (w : Bool)
  -- Synchronisation (R124, R128).
  | fence (sc : Bool) (c : BitVec 3)
  | wait (d a b : BitVec 5) (w : Bool)
  | notify (d a : BitVec 5) (all : Bool)
  -- Matrix forms (R173 to R190).
  | mma (c : BitVec 2) (a b : BitVec 4) (g h : BitVec 3) (m : BitVec 5)
  | mzero (c : BitVec 2)
  | mwait (c : BitVec 2)
  | mtest
  | mlda (t : BitVec 4) (n : Bool) (a b : BitVec 5)
  | msta (t : BitVec 4) (n : Bool) (a b : BitVec 5)
  | mshape (n : BitVec 3) (a : BitVec 5)
  | mfmt (a : BitVec 5)
  | msave (a : BitVec 5)
  | mrstr (a : BitVec 5)
  -- Tile forms (R196).
  | rdef (n : BitVec 4) (a b : BitVec 5)
  | rpop (n : BitVec 4)
  | rpush (n : BitVec 4)
  | texp (a b : BitVec 5)
  | ttag (d a b : BitVec 5)
  | twait (d a b : BitVec 5)
  -- Engine forms (R204).
  | xcopy (a : BitVec 5)
  | xsub (a : BitVec 5)
  | xunsub (a : BitVec 5)
  | xdrain (a : BitVec 5)
  | xstat (d a : BitVec 5)
  -- Meeting forms (R215).
  | meet (d a b : BitVec 5)
  | part
  | peer (d n : BitVec 5) (now : Bool)
  | peerv (d n : BitVec 4)
  | rollNone (d a b : BitVec 5)
  | rollAdd (d a b : BitVec 5)
  | rollMin (d a b : BitVec 5)
  | rollMax (d a b : BitVec 5)
  | rollUmin (d a b : BitVec 5)
  | rollUmax (d a b : BitVec 5)
  | rollAnd (d a b : BitVec 5)
  | rollOr (d a b : BitVec 5)
  | rollXor (d a b : BitVec 5)
  -- Task and stream forms (R215).
  | launch (d a b : BitVec 5)
  | tend
  | yield (d : BitVec 5)
  | sbind (a : BitVec 5)
  | chbind (n a : BitVec 5)
  | emit (a b : BitVec 5)
  | wmk (a b : BitVec 5)
  | publ (a : BitVec 5)
  | acct (d a : BitVec 5)
  -- System forms (R215).
  | csrr (d : BitVec 5) (c : BitVec 13)
  | csrw (d a : BitVec 5) (c : BitVec 13)
  | csrs (d a : BitVec 5) (c : BitVec 13)
  | csrc (d a : BitVec 5) (c : BitVec 13)
  | scall (i : BitVec 20)
  | tret
  | uiret
  | sleep (i : BitVec 20)
  | brk (i : BitVec 20)
  -- Element-wise vector forms (R143 to R146); t is the type code of Table 05-6, k the mask register.
  | vadd (d : VDst) (a b : VSrc) (t : BitVec 5) (k : BitVec 3)
  | vaddSat (d : VDst) (a b : VSrc) (t : BitVec 5) (k : BitVec 3)
  | vsub (d : VDst) (a b : VSrc) (t : BitVec 5) (k : BitVec 3)
  | vsubSat (d : VDst) (a b : VSrc) (t : BitVec 5) (k : BitVec 3)
  | vmul (d : VDst) (a b : VSrc) (t : BitVec 5) (k : BitVec 3)
  | vmulSat (d : VDst) (a b : VSrc) (t : BitVec 5) (k : BitVec 3)
  | vfma (d : BitVec 4) (a b : VSrc) (t : BitVec 5) (k : BitVec 3)
  | vfms (d : BitVec 4) (a b : VSrc) (t : BitVec 5) (k : BitVec 3)
  | vmulh (d : VDst) (a b : VSrc) (t : BitVec 5) (k : BitVec 3)
  | vabs (d : VDst) (a : VSrc) (m : Bool) (t : BitVec 5) (k : BitVec 3)
  | vmin (d : VDst) (a b : VSrc) (t : BitVec 5) (k : BitVec 3)
  | vmax (d : VDst) (a b : VSrc) (t : BitVec 5) (k : BitVec 3)
  | vneg (d : VDst) (a : VSrc) (m : Bool) (t : BitVec 5) (k : BitVec 3)
  | vmov (d : VDst) (a : VSrc) (t : BitVec 5) (k : BitVec 3)
  | vand (d : VDst) (a b : VSrc) (t : BitVec 5) (k : BitVec 3)
  | vor (d : VDst) (a b : VSrc) (t : BitVec 5) (k : BitVec 3)
  | vxor (d : VDst) (a b : VSrc) (t : BitVec 5) (k : BitVec 3)
  | vshr (d : VDst) (a b : VSrc) (t : BitVec 5) (k : BitVec 3)
  | vshl (d : VDst) (a b : VSrc) (t : BitVec 5) (k : BitVec 3)
  | vshlSat (d : VDst) (a b : VSrc) (t : BitVec 5) (k : BitVec 3)
  | vshra (d : VDst) (a b : VSrc) (t : BitVec 5) (k : BitVec 3)
  | vsel (d : VDst) (a b : VSrc) (t : BitVec 5) (k : BitVec 3)
  | vcmpEq (d : BitVec 3) (a b : VSrc) (t : BitVec 5) (k : BitVec 3)
  | vcmpNe (d : BitVec 3) (a b : VSrc) (t : BitVec 5) (k : BitVec 3)
  | vcmpLt (d : BitVec 3) (a b : VSrc) (t : BitVec 5) (k : BitVec 3)
  | vcmpLe (d : BitVec 3) (a b : VSrc) (t : BitVec 5) (k : BitVec 3)
  | vbcast (d : VDst) (a : XSrc) (t : BitVec 5) (k : BitVec 3)
  | vred (d : VDst) (a : VSrc) (o : BitVec 3) (t : BitVec 5) (k : BitVec 3)
  | vcvt (d : VDst) (a : VSrc) (m : BitVec 6) (t : BitVec 5) (k : BitVec 3)
  | vcvtSr (d : VDst) (a : VSrc) (m : BitVec 6) (t : BitVec 5) (k : BitVec 3)
  | vperm (d : VDst) (a b : VSrc) (t : BitVec 5) (k : BitVec 3)
  | vslide (d : VDst) (a : VSrc) (b : XSrc) (t : BitVec 5) (k : BitVec 3)
  | vzip (d : VDst) (a b : VSrc) (t : BitVec 5) (k : BitVec 3)
  | vunzip (d : VDst) (a b : VSrc) (t : BitVec 5) (k : BitVec 3)
  -- Narrow-format and special-function forms (R152 to R156).
  | vdot (d : BitVec 4) (a b : VSrc) (t : BitVec 5) (k : BitVec 3)
  | vplane (d : VDst) (a : VSrc) (p : BitVec 3) (h u : Bool) (t : BitVec 5) (k : BitVec 3)
  | vqnt (d : VDst) (a : VSrc) (b : XSrc) (t : BitVec 5) (k : BitVec 3)
  | vdqnt (d : VDst) (a : VSrc) (b : XSrc) (t : BitVec 5) (k : BitVec 3)
  | vrcp (d : VDst) (a : VSrc) (t : BitVec 5) (k : BitVec 3)
  | vrsq (d : VDst) (a : VSrc) (t : BitVec 5) (k : BitVec 3)
  | vex2 (d : VDst) (a : VSrc) (t : BitVec 5) (k : BitVec 3)
  | vlg2 (d : VDst) (a : VSrc) (t : BitVec 5) (k : BitVec 3)
  | vsin (d : VDst) (a : VSrc) (t : BitVec 5) (k : BitVec 3)
  | vtanh (d : VDst) (a : VSrc) (t : BitVec 5) (k : BitVec 3)
  -- Vector memory forms (R157, R158).
  | vld (d : VDst) (a : BitVec 4) (t : BitVec 5) (k : BitVec 3)
  | vst (d a : BitVec 4) (t : BitVec 5) (k : BitVec 3)
  | vlds (d : VDst) (a : BitVec 4) (b : XSrc) (t : BitVec 5) (k : BitVec 3)
  | vsts (d a : BitVec 4) (b : XSrc) (t : BitVec 5) (k : BitVec 3)
  | vgthr (d : VDst) (a : BitVec 4) (b : VSrc) (t : BitVec 5) (k : BitVec 3)
  | vsctr (d a : BitVec 4) (b : VSrc) (t : BitVec 5) (k : BitVec 3)
  -- Mask forms, format registers and repeat frames (R161 to R163).
  | kand (d a b : BitVec 3)
  | kor (d a b : BitVec 3)
  | knot (d a : BitVec 3)
  | kpopc (d : XDst) (a : BitVec 3)
  | setfmt (n : BitVec 2) (a : XSrc)
  | repf (l : BitVec 4) (a b : XSrc)
  -- Steps of the sequencer, the arbiters and the matrix array. sid names a context slot, ci a core, cl a cluster.
  | frameReplayPerformance (sid : Nat)
  | sequencerBind (ci : Nat)
  | laneGroupGrant (cl : Nat)
  | vectorSlotGrant (cl : Nat)
  | scalarSlotGrant (cl : Nat)
  | engineSlotGrant (cl : Nat)
  | matrixGrant (cl : Nat)
  | mmaStep (ci : Nat)
  | portRetire (ci : Nat)
  | selfTestProduct (cl : Nat) (mismatch : Bool) (fails : BitVec 8)
  | periodicSelfTestDue (cl : Nat)
  | subarrayRetest (cl : Nat) (n : BitVec 3) (fails : Bool)
  -- Steps of fetch, translation, the restante buffer and the home slices. id names a request.
  | icacheFill (sid : Nat)
  | globalLoadReturn (sid : Nat)
  | translationRequest (sid : Nat)
  | translationWalkComplete (sid : Nat)
  | restanteRelease (id : Nat)
  | releaseTranslationReturn (id : Nat)
  | sliceRequestAccept (id : Nat)
  | farCopyInvalidation (n : Nat)
  | scMarkerReturn (sid m : Nat)
  | atomicAnswerReturn (id : Nat)
  | storeAcknowledge (id : Nat)
  | hostWindowWriteAck (id : Nat)
  | deferredTrap (sid : Nat)
  | userLevelInterrupt (sid : Nat)
  -- Steps of the transfer and stream engines.
  | engineCompletionEntry (ci xid : Nat)
  | xcopyStart (ci xid : Nat)
  | xcopyRow (ci xid : Nat)
  | tagCredit (n : Nat)
  | subscriptionSetup (n : Nat)
  | loaderTileSend (n : Nat)
  | tileFirstByteArrival (n ci : Nat)
  | bufferFreeSignal (ci ring tag : Nat)
  | unsubscribeAtLoader (id : Nat)
  | drainStart (n : Nat)
  | storerTakeTile (n : Nat)
  | storerTilePerformed (n : Nat)
  | streamEngineEntry (ci e : Nat)
  | streamEngineComplete (ci e : Nat)
  -- Queues and commands. q names a queue, n the position of the command in it.
  | commandFetch (q : Nat)
  | completionRecordWrite (q : Nat)
  | launchCommand (q n : Nat)
  | bindStream (q n : Nat)
  | sourceMark (q n : Nat)
  | preempt (q n : Nat)
  | resume (q n : Nat)
  | fenceCommand (q n : Nat)
  | register (q n : Nat)
  | partCreate (q n : Nat)
  | partDestroy (q n : Nat)
  | partReset (q n : Nat)
  | assign (q n : Nat)
  | partResetFreeze (p : Nat)
  | partResetComplete (p : Nat)
  | negativeAcknowledge (n : Nat)
  -- Dispatch and placement. p names a partition.
  | launchDispatch (p : Nat)
  | launchAging (p lid : Nat)
  | gangPlacement (p lid : Nat)
  | placementToken (p : Nat)
  | stealRequest (n : Nat)
  | stealAnswer (n : Nat)
  | stealRetry (cl lid : Nat)
  | poolPlacement (cl : Nat)
  | taskFirstCycle (sid : Nat)
  | launchCompletion (p lid : Nat)
  -- Meetings. n names a message under way.
  | meetNoticeArrival (n : Nat)
  | pairRetry (cl : Nat)
  | departureOrder (n : Nat)
  | envelopeArrival (n : Nat)
  | returnLuggageArrival (n : Nat)
  | meetWithdrawal (sid : Nat)
  | withdrawalArrival (n : Nat)
  | directoryAnswerArrival (n : Nat)
  | rollArrival (n : Nat)
  | rollRelease (n : Nat)
  | taintHorizon (sid : Nat)
  | waitTimeout (sid : Nat)
  | twaitTimeout (sid : Nat)
  | sleepTimeout (sid : Nat)
  | debugRelease (sid : Nat)
  | contextSave (sid : Nat)
  | contextRestore (n : Nat)
  -- Recovery and accounts.
  | checkpoint
  | undoFree (cl : Nat)
  | strikeDetection (cl : Nat)
  | rollbackRestoreComplete (cl : Nat)
  | accountRecordWrite (ci : Nat)
  | acctRidxRead (ci : Nat)
  -- The stream unit. p names the partition, n the stream.
  | streamRecordArrival (p n : Nat)
  | watermarkMark (p n : Nat)
  | sourceIdle (p n src : Nat)
  | windowLaunch (p n : Nat)
  | amendLaunch (p n w : Nat)
  | recordPortRefill (sid : Nat)
  | publication (p n : Nat)
  -- Links. m names a module and a direction.
  | flitSend (m : Nat)
  | flitArrival (m : Nat) (crcOk : Bool)
  | flitReplay (m : Nat)
  | flitAcknowledge (m : Nat)
  | laneFailure (m : Nat)
  | retrainComplete (m : Nat) (ok : Bool)
  | replayReissue (m lo hi : Nat)
  | remoteRequestArrival (n : Nat)
  | remoteResponseArrival (n : Nat)
  -- The host and the device registers.
  | hostWrite (aperture : Bool) (addr : Nat) (data : Word)
  | hostRead (aperture : Bool) (addr : Nat)
  | qpidxWrite (q : Nat) (v : Word)
  | queueEnable (q : Nat) (en : Bool)
  | cqridxWrite (q : Nat) (v : Word)
  | xlinv (p : Nat) (v : Word)
  | errorRecordClear (p die n : Nat)
  | rtctlWrite (slice : Nat) (v : Word)
  | clshareWrite (cl : Nat) (v : Word)
  | featctlGo
  | deviceRegisterWrite (p off : Nat) (v : Word)
  -- Start and package reset (R382 to R389).
  | monitorVerify (sigOk : Bool) (version : BitVec 32)
  | hbmTraining (ok : Bool)
  | linkTraining (dieOk hostOk : Bool)
  | clusterSelfTest (failed : List Nat)
  | serviceFirmwareStart (sigOk : Bool) (version : BitVec 32)
  | startFailed (reason : BitVec 16)
  | stageTimeout
  | monitorImageLoad (sigOk : Bool) (version : BitVec 32)
  | attestation (nonce : BitVec 256)
  | powerOn
  | hostReset
  | monitorReset
  | watchdog
  | thermal
  | supply
  | infraUncorrected
  -- Faults of fetch and encoding (R90, R91), and the remaining steps.
  | illegalInstruction (w : IWord)
  | fetchFault (code : BitVec 16)
  | launchIdAnswer (sid : Nat)
  | visitorSlotFree (sid : Nat)
  | responseAcknowledgement (n : Nat)
  | hbmEccError (addr : Nat) (corrected : Bool) (syndrome : Word)
  | sramEccCorrection (engine : BitVec 4) (die : Nat) (parts : List Nat) (syndrome : Word)
  | sliceUncorrectedError (slice : Nat)
  deriving DecidableEq, Repr

end Sys2Proof
end

