-- ==== Sys2Proof/WellFormed.lean ====
section
/-!
DEFINITION. Which instructions are words of the P9X: the checks of R84 to R88, R90 and R183 on operand values.

`decode` refuses a word whose fields give an instruction that fails here, and that word traps (R90).
A step of another agent has no word, and its operands need no check.
-/

namespace Sys2Proof

open Machine

/-- A channel destination takes no mask (R88). -/
def VDst.maskOk (d : VDst) (k : BitVec 3) : Bool :=
  match d with
  | .v _ => true
  | .ch _ => decide (k = 0)

/-- The operand checks of R84 to R90 on an instruction. -/
def wellFormed : Instr → Bool
  | .ldu _ _ w _ => decide (w ≠ 3)
  | .fence _ c => decide (c.toNat ≤ 4)
  | .mma c _ _ _ _ _ => decide (c.toNat < 2)
  | .mzero c => decide (c.toNat ≠ 2)
  | .mwait c => decide (c.toNat ≠ 2)
  | .mlda t _ _ _ => decide (t.toNat < 3)
  | .msta t _ _ _ => decide (t.toNat < 7)
  | .vadd d _ _ t k => d.maskOk k && admArith t
  | .vaddSat d _ _ t k => d.maskOk k && admArith t
  | .vsub d _ _ t k => d.maskOk k && admArith t
  | .vsubSat d _ _ t k => d.maskOk k && admArith t
  | .vmul d _ _ t k => d.maskOk k && admArith t
  | .vmulSat d _ _ t k => d.maskOk k && admArith t
  | .vfma _ _ _ t _ => admArith t
  | .vfms _ _ _ t _ => admArith t
  | .vmulh d _ _ t k => d.maskOk k && admInt8 t
  | .vabs d _ m t k => d.maskOk k && admArith t && (!m || tIsInt t)
  | .vmin d _ _ t k => d.maskOk k && admArith t
  | .vmax d _ _ t k => d.maskOk k && admArith t
  | .vneg d _ m t k => d.maskOk k && admArith t && (!m || tIsInt t)
  | .vmov d _ t k => d.maskOk k && tAny t
  | .vand d _ _ t k => d.maskOk k && tAny t
  | .vor d _ _ t k => d.maskOk k && tAny t
  | .vxor d _ _ t k => d.maskOk k && tAny t
  | .vshr d _ _ t k => d.maskOk k && admInt t
  | .vshl d _ _ t k => d.maskOk k && admInt t
  | .vshlSat d _ _ t k => d.maskOk k && admInt t
  | .vshra d _ _ t k => d.maskOk k && admInt t
  | .vsel d _ _ t k => d.maskOk k && tAny t
  | .vcmpEq _ _ _ t _ => admArith t
  | .vcmpNe _ _ _ t _ => admArith t
  | .vcmpLt _ _ _ t _ => admArith t
  | .vcmpLe _ _ _ t _ => admArith t
  | .vbcast d _ t k => d.maskOk k && tAny t
  | .vred d _ o t k => d.maskOk k && admArith t && decide (o.toNat < 6) && (decide (o.toNat < 3) || tIsInt t)
  | .vcvt d _ m t k => d.maskOk k && tAny t && tAny (m.extractLsb' 0 5)
  | .vcvtSr d _ m t k => d.maskOk k && tAny t && tAny (m.extractLsb' 0 5) && !tIsInt (m.extractLsb' 0 5)
  | .vperm d _ _ t k => d.maskOk k && tAny t
  | .vslide d _ _ t k => d.maskOk k && tAny t
  | .vzip d _ _ t k => d.maskOk k && tAny t
  | .vunzip d _ _ t k => d.maskOk k && tAny t
  | .vdot _ _ _ t _ => admDot t
  | .vplane d _ p _ u t k =>
    d.maskOk k && admPlane t && decide (p.toNat < tWidth t) && (u || decide (p.toNat + 1 = tWidth t))
  | .vqnt d _ _ t k => d.maskOk k && admQuant t
  | .vdqnt d _ _ t k => d.maskOk k && admQuant t
  | .vrcp d _ t k => d.maskOk k && admSpecial t
  | .vrsq d _ t k => d.maskOk k && admSpecial t
  | .vex2 d _ t k => d.maskOk k && admSpecial t
  | .vlg2 d _ t k => d.maskOk k && admSpecial t
  | .vsin d _ t k => d.maskOk k && admSpecial t
  | .vtanh d _ t k => d.maskOk k && admSpecial t
  | .vld d _ t k => d.maskOk k && tAny t
  | .vst _ _ t _ => tAny t
  | .vlds d _ _ t k => d.maskOk k && admStride t
  | .vsts _ _ _ t _ => admStride t
  | .vgthr d _ _ t k => d.maskOk k && admGather t
  | .vsctr _ _ _ t _ => admGather t
  | _ => true

end Sys2Proof
end

