-- ==== Sys2Proof/Decode.lean ====
section
/-!
DEFINITION. Decoding and encoding of instruction words (R75 to R90).

`decode` reads a word as Table 05-1 places its fields; it answers none for every word of R89 and R90. `encode` writes the word
of an instruction from the same tables. The steps of other agents have no word.
-/

namespace Sys2Proof

/-! Fields. -/

/-- The field of `n` bits whose lowest bit is bit `lo`. -/
def fld (w : IWord) (lo n : Nat) : BitVec n := w.extractLsb' lo n

/-- A 5+C destination field (R78). -/
def dstOf (f : BitVec 6) : Dst := if f.getLsbD 5 then .ch (f.extractLsb' 0 5) else .x (f.extractLsb' 0 5)
/-- A 4+C vector destination field (R78). -/
def vdstOf (f : BitVec 5) : VDst := if f.getLsbD 4 then .ch (f.extractLsb' 0 4) else .v (f.extractLsb' 0 4)
/-- A 4+C scalar destination field of format V (R78). -/
def xdstOf (f : BitVec 5) : XDst := if f.getLsbD 4 then .ch (f.extractLsb' 0 4) else .x (f.extractLsb' 0 4)
/-- A 5+C+PK source field; C = 0 with PK = 1 is reserved (R78, R90 item 4). -/
def srcOf (f : BitVec 7) : Option Src :=
  if f.getLsbD 6 then some (.ch (f.extractLsb' 0 5) (f.getLsbD 5))
  else if f.getLsbD 5 then none else some (.x (f.extractLsb' 0 5))
/-- A 4+C+PK vector source field (R78). -/
def vsrcOf (f : BitVec 6) : Option VSrc :=
  if f.getLsbD 5 then some (.ch (f.extractLsb' 0 4) (f.getLsbD 4))
  else if f.getLsbD 4 then none else some (.v (f.extractLsb' 0 4))
/-- A 4+C+PK scalar source field of format V (R78). -/
def xsrcOf (f : BitVec 6) : Option XSrc :=
  if f.getLsbD 5 then some (.ch (f.extractLsb' 0 4) (f.getLsbD 4))
  else if f.getLsbD 4 then none else some (.x (f.extractLsb' 0 4))
/-- The low `n` bits of a field whose `m` higher bits must be zero (R90 items 3 and 5). -/
def low (n m : Nat) (f : BitVec (m + n)) : Option (BitVec n) :=
  if f.extractLsb' n m = 0 then some (f.extractLsb' 0 n) else none
/-- `i`, where the condition holds. -/
def onlyIf (c : Bool) (i : Instr) : Option Instr := if c then some i else none

/-! Formats. The constructor comes first, and the fields are read from bit 31 down. -/

/-- Format A with rd, rs1 and rs2 that may be channels (major OP). -/
def decA3 (k : Dst → Src → Src → Instr) (w : IWord) : Option Instr :=
  (srcOf (fld w 13 7)).bind fun a => (srcOf (fld w 6 7)).bind fun b => some (k (dstOf (fld w 20 6)) a b)
/-- Format A, unary: rs2 is zero (R83). -/
def decA2 (k : Dst → Src → Instr) (w : IWord) : Option Instr :=
  (srcOf (fld w 13 7)).bind fun a => onlyIf (fld w 6 7 == 0) (k (dstOf (fld w 20 6)) a)
/-- Format I with channels. -/
def decI (k : Dst → Src → BitVec 13 → Instr) (w : IWord) : Option Instr :=
  (srcOf (fld w 13 7)).bind fun a => some (k (dstOf (fld w 20 6)) a (fld w 0 13))
/-- SHIFTI (Table 05-4). -/
def decShift (k : Dst → Src → BitVec 6 → Instr) (w : IWord) : Option Instr :=
  (srcOf (fld w 13 7)).bind fun a => some (k (dstOf (fld w 20 6)) a (fld w 0 6))
/-- Formats U and J: rd is a register. -/
def decU (k : BitVec 5 → BitVec 20 → Instr) (w : IWord) : Option Instr :=
  (low 5 1 (fld w 20 6)).bind fun d => some (k d (fld w 0 20))
/-- Format B. -/
def decB (k : BitVec 5 → BitVec 5 → BitVec 13 → Instr) (w : IWord) : Option Instr :=
  some (k (fld w 18 5) (fld w 13 5) (fld w 0 13))
/-- Formats I and S with register operands. -/
def decS (k : BitVec 5 → BitVec 5 → BitVec 13 → Instr) (w : IWord) : Option Instr :=
  (low 5 1 (fld w 20 6)).bind fun d => (low 5 2 (fld w 13 7)).bind fun a => some (k d a (fld w 0 13))
/-- CSRR: rs1 is zero. -/
def decS1 (k : BitVec 5 → BitVec 13 → Instr) (w : IWord) : Option Instr :=
  (low 5 1 (fld w 20 6)).bind fun d => onlyIf (fld w 13 7 == 0) (k d (fld w 0 13))
/-- LOAD: the PK bit of rdt is zero (Table 05-4). -/
def decL (k : Dst → BitVec 5 → BitVec 2 → BitVec 9 → Instr) (w : IWord) : Option Instr :=
  onlyIf (fld w 24 1 == 0) (k (dstOf (fld w 25 1 ++ fld w 19 5)) (fld w 14 5) (fld w 12 2) (fld w 0 9))
/-- STORE. -/
def decSt (k : Src → BitVec 5 → BitVec 2 → BitVec 9 → Instr) (w : IWord) : Option Instr :=
  (srcOf (fld w 19 7)).bind fun d => some (k d (fld w 14 5) (fld w 12 2) (fld w 0 9))
/-- Format A with three registers. -/
def decR3 (k : BitVec 5 → BitVec 5 → BitVec 5 → Instr) (w : IWord) : Option Instr :=
  (low 5 1 (fld w 20 6)).bind fun d => (low 5 2 (fld w 13 7)).bind fun a => (low 5 2 (fld w 6 7)).bind fun b => some (k d a b)
/-- Format A with rd and rs1. -/
def decRda (k : BitVec 5 → BitVec 5 → Instr) (w : IWord) : Option Instr :=
  (low 5 1 (fld w 20 6)).bind fun d => (low 5 2 (fld w 13 7)).bind fun a => onlyIf (fld w 6 7 == 0) (k d a)
/-- Format A with rs1 and rs2. -/
def decRab (k : BitVec 5 → BitVec 5 → Instr) (w : IWord) : Option Instr :=
  (low 5 2 (fld w 13 7)).bind fun a => (low 5 2 (fld w 6 7)).bind fun b => onlyIf (fld w 20 6 == 0) (k a b)
/-- Format A with rs1. -/
def decRa (k : BitVec 5 → Instr) (w : IWord) : Option Instr :=
  (low 5 2 (fld w 13 7)).bind fun a => onlyIf (fld w 20 6 == 0 && fld w 6 7 == 0) (k a)
/-- Format A with rd. -/
def decRd (k : BitVec 5 → Instr) (w : IWord) : Option Instr :=
  (low 5 1 (fld w 20 6)).bind fun d => onlyIf (fld w 6 14 == 0) (k d)
/-- Format A with no operand. -/
def decR0 (i : Instr) (w : IWord) : Option Instr := onlyIf (fld w 6 20 == 0) i
/-- A ring number in rd and two registers. -/
def decRing (k : BitVec 4 → BitVec 5 → BitVec 5 → Instr) (w : IWord) : Option Instr :=
  (low 4 2 (fld w 20 6)).bind fun n => (low 5 2 (fld w 13 7)).bind fun a => (low 5 2 (fld w 6 7)).bind fun b => some (k n a b)
/-- A ring number in rd alone. -/
def decRing0 (k : BitVec 4 → Instr) (w : IWord) : Option Instr :=
  (low 4 2 (fld w 20 6)).bind fun n => onlyIf (fld w 6 14 == 0) (k n)
/-- Format V: vd, vs1, vs2, all of vector kind. -/
def decV3 (k : VDst → VSrc → VSrc → BitVec 5 → BitVec 3 → Instr) (w : IWord) : Option Instr :=
  (vsrcOf (fld w 15 6)).bind fun a => (vsrcOf (fld w 9 6)).bind fun b =>
    some (k (vdstOf (fld w 21 5)) a b (fld w 4 5) (fld w 1 3))
/-- Format V with vd of kind V*. -/
def decVs3 (k : BitVec 4 → VSrc → VSrc → BitVec 5 → BitVec 3 → Instr) (w : IWord) : Option Instr :=
  (low 4 1 (fld w 21 5)).bind fun d => (vsrcOf (fld w 15 6)).bind fun a => (vsrcOf (fld w 9 6)).bind fun b =>
    some (k d a b (fld w 4 5) (fld w 1 3))
/-- Format V with vd of mask kind. -/
def decVk3 (k : BitVec 3 → VSrc → VSrc → BitVec 5 → BitVec 3 → Instr) (w : IWord) : Option Instr :=
  (low 3 2 (fld w 21 5)).bind fun d => (vsrcOf (fld w 15 6)).bind fun a => (vsrcOf (fld w 9 6)).bind fun b =>
    some (k d a b (fld w 4 5) (fld w 1 3))
/-- Format V with an M field of 6 bits. -/
def decVm (k : VDst → VSrc → BitVec 6 → BitVec 5 → BitVec 3 → Instr) (w : IWord) : Option Instr :=
  (vsrcOf (fld w 15 6)).bind fun a => some (k (vdstOf (fld w 21 5)) a (fld w 9 6) (fld w 4 5) (fld w 1 3))
/-- Format V with an M field whose bit 0 alone may be set (VABS, VNEG). -/
def decVm1 (k : VDst → VSrc → Bool → BitVec 5 → BitVec 3 → Instr) (w : IWord) : Option Instr :=
  (vsrcOf (fld w 15 6)).bind fun a =>
    onlyIf (fld w 10 5 == 0) (k (vdstOf (fld w 21 5)) a (fld w 9 1 == 1) (fld w 4 5) (fld w 1 3))
/-- Format V with an M field of zeros. -/
def decVm0 (k : VDst → VSrc → BitVec 5 → BitVec 3 → Instr) (w : IWord) : Option Instr :=
  (vsrcOf (fld w 15 6)).bind fun a => onlyIf (fld w 9 6 == 0) (k (vdstOf (fld w 21 5)) a (fld w 4 5) (fld w 1 3))
/-- Format V with a scalar second source. -/
def decVx (k : VDst → VSrc → XSrc → BitVec 5 → BitVec 3 → Instr) (w : IWord) : Option Instr :=
  (vsrcOf (fld w 15 6)).bind fun a => (xsrcOf (fld w 9 6)).bind fun b =>
    some (k (vdstOf (fld w 21 5)) a b (fld w 4 5) (fld w 1 3))
/-- A vector load: the base is a register (R88); `g` reads the second source. -/
def decVl {α : Type} (g : BitVec 6 → Option α) (k : VDst → BitVec 4 → α → BitVec 5 → BitVec 3 → Instr) (w : IWord) :
    Option Instr :=
  (low 4 2 (fld w 15 6)).bind fun a => (g (fld w 9 6)).bind fun b =>
    some (k (vdstOf (fld w 21 5)) a b (fld w 4 5) (fld w 1 3))
/-- A vector store: vd is a vector source register, the base a register (R88). -/
def decVst {α : Type} (g : BitVec 6 → Option α) (k : BitVec 4 → BitVec 4 → α → BitVec 5 → BitVec 3 → Instr) (w : IWord) :
    Option Instr :=
  (low 4 1 (fld w 21 5)).bind fun d => (low 4 2 (fld w 15 6)).bind fun a => (g (fld w 9 6)).bind fun b =>
    some (k d a b (fld w 4 5) (fld w 1 3))
/-- An unused second source: zero. -/
def noSrc (f : BitVec 6) : Option Unit := if f = 0 then some () else none

/-! The major map (Tables 05-2 to 05-7). -/

/-- The register forms of major OP (Table 05-3). -/
def decOp (w : IWord) : Option Instr :=
  match (fld w 0 6).toNat with
  | 0 => decA3 .add w
  | 1 => decA3 .sub w
  | 2 => decA3 .and w
  | 3 => decA3 .or w
  | 4 => decA3 .xor w
  | 5 => decA3 .andn w
  | 6 => decA3 .sll w
  | 7 => decA3 .srl w
  | 8 => decA3 .sra w
  | 9 => decA3 .rol w
  | 10 => decA3 .slt w
  | 11 => decA3 .sltu w
  | 12 => decA3 .min w
  | 13 => decA3 .max w
  | 14 => decA3 .minu w
  | 15 => decA3 .maxu w
  | 16 => decA3 .mul w
  | 17 => decA3 .mulh w
  | 18 => decA3 .mulhu w
  | 19 => decA3 .div w
  | 20 => decA3 .divu w
  | 21 => decA3 .rem w
  | 22 => decA3 .remu w
  | 23 => decA2 .clz w
  | 24 => decA2 .ctz w
  | 25 => decA2 .popc w
  | 26 => decA3 .bext w
  | 27 => decA3 .bdep w
  | _ => none

/-- SHIFTI: imm13[12:8] is zero (Table 05-4). -/
def decShiftI (w : IWord) : Option Instr :=
  match (fld w 6 7).toNat with
  | 0 => decShift .slli w
  | 1 => decShift .srli w
  | 2 => decShift .srai w
  | _ => none

/-- BRANCH, by cond3 (Table 05-4). -/
def decBranch (w : IWord) : Option Instr :=
  match (fld w 23 3).toNat with
  | 0 => decB .beq w
  | 1 => decB .bne w
  | 4 => decB .blt w
  | 5 => decB .bge w
  | 6 => decB .bltu w
  | 7 => decB .bgeu w
  | _ => none

/-- LOAD, by ord3 (Table 05-4). -/
def decLoad (w : IWord) : Option Instr :=
  match (fld w 9 3).toNat with
  | 0 => decL .ld w
  | 2 => decL .ldu w
  | 4 => decL .lda w
  | _ => none

/-- STORE, by ord3 (Table 05-4). -/
def decStore (w : IWord) : Option Instr :=
  match (fld w 9 3).toNat with
  | 0 => decSt .st w
  | 4 => decSt .stl w
  | _ => none

/-- AMO: func6[5] is the width, func6[4] is zero (Table 05-5). -/
def decAmo (w : IWord) : Option Instr :=
  let d := fld w 5 1 == 1
  match (fld w 0 5).toNat with
  | 0 => decR3 (fun x a b => .amoAdd x a b d) w
  | 1 => decR3 (fun x a b => .amoAnd x a b d) w
  | 2 => decR3 (fun x a b => .amoOr x a b d) w
  | 3 => decR3 (fun x a b => .amoXor x a b d) w
  | 4 => decR3 (fun x a b => .amoMin x a b d) w
  | 5 => decR3 (fun x a b => .amoMax x a b d) w
  | 6 => decR3 (fun x a b => .amoMinu x a b d) w
  | 7 => decR3 (fun x a b => .amoMaxu x a b d) w
  | 8 => decR3 (fun x a b => .amoSwap x a b d) w
  | 9 => decR3 (fun x a b => .cas x a b d) w
  | _ => none

/-- SYNC (Table 05-5). -/
def decSync (w : IWord) : Option Instr :=
  match (fld w 4 2).toNat with
  | 0 => onlyIf (fld w 6 20 == 0) (.fence (fld w 3 1 == 1) (fld w 0 3))
  | 1 => if fld w 1 3 = 0 then decR3 (fun x a b => .wait x a b (fld w 0 1 == 1)) w else none
  | 2 => if fld w 1 3 = 0 then decRda (fun x a => .notify x a (fld w 0 1 == 1)) w else none
  | _ => none

/-- MATRIX, format M (Table 05-5). -/
def decMatrix (w : IWord) : Option Instr :=
  match (fld w 0 5).toNat with
  | 0 => some (.mma (fld w 24 2) (fld w 20 4) (fld w 16 4) (fld w 13 3) (fld w 10 3) (fld w 5 5))
  | 1 => onlyIf (fld w 5 19 == 0) (.mzero (fld w 24 2))
  | 2 => onlyIf (fld w 5 19 == 0) (.mwait (fld w 24 2))
  | 3 => onlyIf (fld w 5 21 == 0) .mtest
  | _ => none

/-- MLDA and MSTA: the tile in rd[4:1], the accumulator in rd[0] (R183). -/
def decTileMove (k : BitVec 4 → Bool → BitVec 5 → BitVec 5 → Instr) (w : IWord) : Option Instr :=
  (low 5 1 (fld w 20 6)).bind fun d => (low 5 2 (fld w 13 7)).bind fun a => (low 5 2 (fld w 6 7)).bind fun b =>
    some (k (d.extractLsb' 1 4) (d.getLsbD 0) a b)

/-- MATRIXCTL (Table 05-5). -/
def decMatrixCtl (w : IWord) : Option Instr :=
  match (fld w 0 6).toNat with
  | 0 => decTileMove .mlda w
  | 1 => decTileMove .msta w
  | 2 => (low 3 3 (fld w 20 6)).bind fun n => (low 5 2 (fld w 13 7)).bind fun a => onlyIf (fld w 6 7 == 0) (.mshape n a)
  | 3 => decRa .mfmt w
  | 4 => decRa .msave w
  | 5 => decRa .mrstr w
  | _ => none

/-- TILE (Table 05-5). -/
def decTile (w : IWord) : Option Instr :=
  match (fld w 0 6).toNat with
  | 0 => decRing .rdef w
  | 1 => decRing0 .rpop w
  | 2 => decRing0 .rpush w
  | 3 => decRab .texp w
  | 4 => decR3 .ttag w
  | 5 => decR3 .twait w
  | _ => none

/-- ENGINE (Table 05-5). -/
def decEngine (w : IWord) : Option Instr :=
  match (fld w 0 6).toNat with
  | 0 => decRa .xcopy w
  | 1 => decRa .xsub w
  | 2 => decRa .xunsub w
  | 3 => decRa .xdrain w
  | 4 => decRda .xstat w
  | _ => none

/-- PEER: n in rs1[17:13], `.now` in rs2[6] (Table 11-1). -/
def decPeer (w : IWord) : Option Instr :=
  (low 5 1 (fld w 20 6)).bind fun d => (low 5 2 (fld w 13 7)).bind fun n =>
    onlyIf (fld w 7 6 == 0) (.peer d n (fld w 6 1 == 1))

/-- PEERV: vd in rd[23:20], n in rs1[16:13] (Table 11-1). -/
def decPeerv (w : IWord) : Option Instr :=
  (low 4 2 (fld w 20 6)).bind fun d => (low 4 3 (fld w 13 7)).bind fun n => onlyIf (fld w 6 7 == 0) (.peerv d n)

/-- MEETING (Table 05-5). -/
def decMeeting (w : IWord) : Option Instr :=
  match (fld w 0 6).toNat with
  | 0 => decR3 .meet w
  | 1 => decR0 .part w
  | 2 => decPeer w
  | 3 => decPeerv w
  | 16 => decR3 .rollNone w
  | 17 => decR3 .rollAdd w
  | 18 => decR3 .rollMin w
  | 19 => decR3 .rollMax w
  | 20 => decR3 .rollUmin w
  | 21 => decR3 .rollUmax w
  | 22 => decR3 .rollAnd w
  | 23 => decR3 .rollOr w
  | 24 => decR3 .rollXor w
  | _ => none

/-- TASK (Table 05-5). -/
def decTask (w : IWord) : Option Instr :=
  match (fld w 0 6).toNat with
  | 0 => decR3 .launch w
  | 1 => decR0 .tend w
  | 2 => decRd .yield w
  | 3 => decRa .sbind w
  | 4 => decRda .chbind w
  | 5 => decRab .emit w
  | 6 => decRab .wmk w
  | 7 => decRa .publ w
  | 8 => decRda .acct w
  | _ => none

/-- SYS, format N (Table 05-5). -/
def decSys (w : IWord) : Option Instr :=
  match (fld w 20 6).toNat with
  | 0 => some (.scall (fld w 0 20))
  | 1 => onlyIf (fld w 0 20 == 0) .tret
  | 2 => onlyIf (fld w 0 20 == 0) .uiret
  | 3 => some (.sleep (fld w 0 20))
  | 4 => some (.brk (fld w 0 20))
  | _ => none

/-- Mask forms, SETFMT and REPF hold zero in type5 and mask3 (R161 to R163). -/
def decNoMask (f : IWord → Option Instr) (w : IWord) : Option Instr := if fld w 1 8 = 0 then f w else none

/-- The two-source mask forms (R161). -/
def decK3 (k : BitVec 3 → BitVec 3 → BitVec 3 → Instr) (w : IWord) : Option Instr :=
  (low 3 2 (fld w 21 5)).bind fun d => (low 3 3 (fld w 15 6)).bind fun a => (low 3 3 (fld w 9 6)).bind fun b => some (k d a b)

/-- KNOT. -/
def decKnot (w : IWord) : Option Instr :=
  (low 3 2 (fld w 21 5)).bind fun d => (low 3 3 (fld w 15 6)).bind fun a => onlyIf (fld w 9 6 == 0) (.knot d a)

/-- KPOPC. -/
def decKpopc (w : IWord) : Option Instr :=
  (low 3 3 (fld w 15 6)).bind fun a => onlyIf (fld w 9 6 == 0) (.kpopc (xdstOf (fld w 21 5)) a)

/-- SETFMT. -/
def decSetfmt (w : IWord) : Option Instr :=
  (low 2 3 (fld w 21 5)).bind fun n => (xsrcOf (fld w 15 6)).bind fun a => onlyIf (fld w 9 6 == 0) (.setfmt n a)

/-- REPF. -/
def decRepf (w : IWord) : Option Instr :=
  (low 4 1 (fld w 21 5)).bind fun l => (xsrcOf (fld w 15 6)).bind fun a => (xsrcOf (fld w 9 6)).bind fun b => some (.repf l a b)

/-- VBCAST: a scalar source and no third field. -/
def decVbcast (w : IWord) : Option Instr :=
  (xsrcOf (fld w 15 6)).bind fun a => onlyIf (fld w 9 6 == 0) (.vbcast (vdstOf (fld w 21 5)) a (fld w 4 5) (fld w 1 3))

/-- VRED: M[5:3] is zero (R150). -/
def decVred (w : IWord) : Option Instr :=
  (vsrcOf (fld w 15 6)).bind fun a =>
    onlyIf (fld w 12 3 == 0) (.vred (vdstOf (fld w 21 5)) a (fld w 9 3) (fld w 4 5) (fld w 1 3))

/-- VPLANE: M[5] is zero (R155). -/
def decVplane (w : IWord) : Option Instr :=
  (vsrcOf (fld w 15 6)).bind fun a => onlyIf (fld w 14 1 == 0)
    (.vplane (vdstOf (fld w 21 5)) a (fld w 11 3) (fld w 10 1 == 1) (fld w 9 1 == 1) (fld w 4 5) (fld w 1 3))

/-- The vector majors 0x20 to 0x3B, by the sub bit (Table 05-7); `n` is 2 * (major - 0x20) + sub. -/
def decVector (n : Nat) (w : IWord) : Option Instr :=
  match n with
  | 0 => decV3 .vadd w
  | 1 => decV3 .vaddSat w
  | 2 => decV3 .vsub w
  | 3 => decV3 .vsubSat w
  | 4 => decV3 .vmul w
  | 5 => decV3 .vmulSat w
  | 6 => decVs3 .vfma w
  | 7 => decVs3 .vfms w
  | 8 => decV3 .vmulh w
  | 9 => decVm1 .vabs w
  | 10 => decV3 .vmin w
  | 11 => decV3 .vmax w
  | 12 => decVm1 .vneg w
  | 13 => decVm0 .vmov w
  | 14 => decV3 .vand w
  | 15 => decV3 .vor w
  | 16 => decV3 .vxor w
  | 17 => decV3 .vshr w
  | 18 => decV3 .vshl w
  | 19 => decV3 .vshlSat w
  | 20 => decV3 .vshra w
  | 21 => decV3 .vsel w
  | 22 => decVk3 .vcmpEq w
  | 23 => decVk3 .vcmpNe w
  | 24 => decVk3 .vcmpLt w
  | 25 => decVk3 .vcmpLe w
  | 26 => decVbcast w
  | 27 => decVred w
  | 28 => decVm .vcvt w
  | 29 => decVm .vcvtSr w
  | 30 => decV3 .vperm w
  | 31 => decVx .vslide w
  | 32 => decV3 .vzip w
  | 33 => decV3 .vunzip w
  | 34 => decVs3 .vdot w
  | 35 => decVplane w
  | 36 => decVx .vqnt w
  | 37 => decVx .vdqnt w
  | 38 => decVm0 .vrcp w
  | 39 => decVm0 .vrsq w
  | 40 => decVm0 .vex2 w
  | 41 => decVm0 .vlg2 w
  | 42 => decVm0 .vsin w
  | 43 => decVm0 .vtanh w
  | 44 => decVl noSrc (fun d a _ t k => .vld d a t k) w
  | 45 => decVst noSrc (fun d a _ t k => .vst d a t k) w
  | 46 => decVl xsrcOf .vlds w
  | 47 => decVst xsrcOf .vsts w
  | 48 => decVl vsrcOf .vgthr w
  | 49 => decVst vsrcOf .vsctr w
  | 50 => decNoMask (decK3 .kand) w
  | 51 => decNoMask (decK3 .kor) w
  | 52 => decNoMask decKnot w
  | 53 => decNoMask decKpopc w
  | 54 => decNoMask decSetfmt w
  | 55 => decNoMask decRepf w
  | _ => none

/-- The word read by its major opcode, before the checks of operand values. -/
def decodeRaw (w : IWord) : Option Instr :=
  match (fld w 26 6).toNat with
  | 1 => decOp w
  | 2 => decI .addi w
  | 3 => decI .andi w
  | 4 => decI .ori w
  | 5 => decI .xori w
  | 6 => decShiftI w
  | 7 => decI .slti w
  | 8 => decI .sltiu w
  | 9 => decU .lui w
  | 10 => decU .auipc w
  | 11 => decBranch w
  | 12 => decU .jal w
  | 13 => decS .jalr w
  | 14 => decLoad w
  | 15 => decStore w
  | 16 => decAmo w
  | 17 => decSync w
  | 18 => decMatrix w
  | 19 => decMatrixCtl w
  | 20 => decTile w
  | 21 => decEngine w
  | 22 => decMeeting w
  | 23 => decTask w
  | 24 => decS1 .csrr w
  | 25 => decS .csrw w
  | 26 => decS .csrs w
  | 27 => decS .csrc w
  | 28 => decSys w
  | m => if m < 32 then none else decVector (2 * (m - 32) + (fld w 0 1).toNat) w

/-- The instruction of a word, or none where the word is illegal (R89, R90). -/
def decode (w : IWord) : Option Instr :=
  (decodeRaw w).bind fun i => if wellFormed i then some i else none

/-! Encoding. -/

/-- A 5+C field. -/
def dstBits : Dst → BitVec 6
  | .x n => 0#1 ++ n
  | .ch n => 1#1 ++ n
/-- A 4+C field of vector kind. -/
def vdstBits : VDst → BitVec 5
  | .v n => 0#1 ++ n
  | .ch n => 1#1 ++ n
/-- A 4+C field of scalar kind. -/
def xdstBits : XDst → BitVec 5
  | .x n => 0#1 ++ n
  | .ch n => 1#1 ++ n
/-- A 5+C+PK field. -/
def srcBits : Src → BitVec 7
  | .x n => 0#2 ++ n
  | .ch n p => 1#1 ++ BitVec.ofBool p ++ n
/-- A 4+C+PK field of vector kind. -/
def vsrcBits : VSrc → BitVec 6
  | .v n => 0#2 ++ n
  | .ch n p => 1#1 ++ BitVec.ofBool p ++ n
/-- A 4+C+PK field of scalar kind. -/
def xsrcBits : XSrc → BitVec 6
  | .x n => 0#2 ++ n
  | .ch n p => 1#1 ++ BitVec.ofBool p ++ n

/-- The 5+C+PK field of a load destination: PK is zero. -/
def ldBits : Dst → BitVec 7
  | .x n => 0#2 ++ n
  | .ch n => 1#1 ++ 0#1 ++ n

/-- Format A. -/
def encA (op d : BitVec 6) (a b : BitVec 7) (f : BitVec 6) : IWord := op ++ d ++ a ++ b ++ f
/-- Formats I and S. -/
def encI (op d : BitVec 6) (a : BitVec 7) (i : BitVec 13) : IWord := op ++ d ++ a ++ i
/-- Formats U, J and N. -/
def encU (op d : BitVec 6) (i : BitVec 20) : IWord := op ++ d ++ i
/-- Format B. -/
def encB (c : BitVec 3) (a b : BitVec 5) (o : BitVec 13) : IWord := 0x0B#6 ++ c ++ a ++ b ++ o
/-- Format LS. -/
def encLS (op : BitVec 6) (d : BitVec 7) (a : BitVec 5) (w : BitVec 2) (r : BitVec 3) (o : BitVec 9) : IWord :=
  op ++ d ++ a ++ w ++ r ++ o
/-- Format M. -/
def encM (c : BitVec 2) (a b : BitVec 4) (g h : BitVec 3) (m f : BitVec 5) : IWord := 0x12#6 ++ c ++ a ++ b ++ g ++ h ++ m ++ f
/-- Format V. -/
def encV (op : BitVec 6) (d : BitVec 5) (a b : BitVec 6) (t : BitVec 5) (k : BitVec 3) (s : BitVec 1) : IWord :=
  op ++ d ++ a ++ b ++ t ++ k ++ s

/-- A register in a 5+C field. -/
def r6 (n : BitVec 5) : BitVec 6 := 0#1 ++ n
/-- A register in a 5+C+PK field. -/
def r7 (n : BitVec 5) : BitVec 7 := 0#2 ++ n

/-- The word of an instruction (Tables 05-1 to 05-7); a step of another agent has none. -/
def encode : Instr → Option IWord
  | .add d a b => some (encA 0x01 (dstBits d) (srcBits a) (srcBits b) 0x00)
  | .sub d a b => some (encA 0x01 (dstBits d) (srcBits a) (srcBits b) 0x01)
  | .and d a b => some (encA 0x01 (dstBits d) (srcBits a) (srcBits b) 0x02)
  | .or d a b => some (encA 0x01 (dstBits d) (srcBits a) (srcBits b) 0x03)
  | .xor d a b => some (encA 0x01 (dstBits d) (srcBits a) (srcBits b) 0x04)
  | .andn d a b => some (encA 0x01 (dstBits d) (srcBits a) (srcBits b) 0x05)
  | .sll d a b => some (encA 0x01 (dstBits d) (srcBits a) (srcBits b) 0x06)
  | .srl d a b => some (encA 0x01 (dstBits d) (srcBits a) (srcBits b) 0x07)
  | .sra d a b => some (encA 0x01 (dstBits d) (srcBits a) (srcBits b) 0x08)
  | .rol d a b => some (encA 0x01 (dstBits d) (srcBits a) (srcBits b) 0x09)
  | .slt d a b => some (encA 0x01 (dstBits d) (srcBits a) (srcBits b) 0x0a)
  | .sltu d a b => some (encA 0x01 (dstBits d) (srcBits a) (srcBits b) 0x0b)
  | .min d a b => some (encA 0x01 (dstBits d) (srcBits a) (srcBits b) 0x0c)
  | .max d a b => some (encA 0x01 (dstBits d) (srcBits a) (srcBits b) 0x0d)
  | .minu d a b => some (encA 0x01 (dstBits d) (srcBits a) (srcBits b) 0x0e)
  | .maxu d a b => some (encA 0x01 (dstBits d) (srcBits a) (srcBits b) 0x0f)
  | .mul d a b => some (encA 0x01 (dstBits d) (srcBits a) (srcBits b) 0x10)
  | .mulh d a b => some (encA 0x01 (dstBits d) (srcBits a) (srcBits b) 0x11)
  | .mulhu d a b => some (encA 0x01 (dstBits d) (srcBits a) (srcBits b) 0x12)
  | .div d a b => some (encA 0x01 (dstBits d) (srcBits a) (srcBits b) 0x13)
  | .divu d a b => some (encA 0x01 (dstBits d) (srcBits a) (srcBits b) 0x14)
  | .rem d a b => some (encA 0x01 (dstBits d) (srcBits a) (srcBits b) 0x15)
  | .remu d a b => some (encA 0x01 (dstBits d) (srcBits a) (srcBits b) 0x16)
  | .clz d a => some (encA 0x01 (dstBits d) (srcBits a) 0 0x17)
  | .ctz d a => some (encA 0x01 (dstBits d) (srcBits a) 0 0x18)
  | .popc d a => some (encA 0x01 (dstBits d) (srcBits a) 0 0x19)
  | .bext d a b => some (encA 0x01 (dstBits d) (srcBits a) (srcBits b) 0x1a)
  | .bdep d a b => some (encA 0x01 (dstBits d) (srcBits a) (srcBits b) 0x1b)
  | .addi d a i => some (encI 0x02 (dstBits d) (srcBits a) i)
  | .andi d a i => some (encI 0x03 (dstBits d) (srcBits a) i)
  | .ori d a i => some (encI 0x04 (dstBits d) (srcBits a) i)
  | .xori d a i => some (encI 0x05 (dstBits d) (srcBits a) i)
  | .slti d a i => some (encI 0x07 (dstBits d) (srcBits a) i)
  | .sltiu d a i => some (encI 0x08 (dstBits d) (srcBits a) i)
  | .slli d a n => some (encI 0x06 (dstBits d) (srcBits a) (0#7 ++ n))
  | .srli d a n => some (encI 0x06 (dstBits d) (srcBits a) (1#7 ++ n))
  | .srai d a n => some (encI 0x06 (dstBits d) (srcBits a) (2#7 ++ n))
  | .lui d i => some (encU 0x09 (r6 d) i)
  | .auipc d i => some (encU 0x0a (r6 d) i)
  | .jal d i => some (encU 0x0c (r6 d) i)
  | .beq a b o => some (encB 0 a b o)
  | .bne a b o => some (encB 1 a b o)
  | .blt a b o => some (encB 4 a b o)
  | .bge a b o => some (encB 5 a b o)
  | .bltu a b o => some (encB 6 a b o)
  | .bgeu a b o => some (encB 7 a b o)
  | .jalr d a i => some (encI 0x0D (r6 d) (r7 a) i)
  | .ld d a w o => some (encLS 0x0E (ldBits d) a w 0 o)
  | .ldu d a w o => some (encLS 0x0E (ldBits d) a w 2 o)
  | .lda d a w o => some (encLS 0x0E (ldBits d) a w 4 o)
  | .st d a w o => some (encLS 0x0F (srcBits d) a w 0 o)
  | .stl d a w o => some (encLS 0x0F (srcBits d) a w 4 o)
  | .amoAdd d a b w => some (encA 0x10 (r6 d) (r7 a) (r7 b) (BitVec.ofBool w ++ 0#5))
  | .amoAnd d a b w => some (encA 0x10 (r6 d) (r7 a) (r7 b) (BitVec.ofBool w ++ 1#5))
  | .amoOr d a b w => some (encA 0x10 (r6 d) (r7 a) (r7 b) (BitVec.ofBool w ++ 2#5))
  | .amoXor d a b w => some (encA 0x10 (r6 d) (r7 a) (r7 b) (BitVec.ofBool w ++ 3#5))
  | .amoMin d a b w => some (encA 0x10 (r6 d) (r7 a) (r7 b) (BitVec.ofBool w ++ 4#5))
  | .amoMax d a b w => some (encA 0x10 (r6 d) (r7 a) (r7 b) (BitVec.ofBool w ++ 5#5))
  | .amoMinu d a b w => some (encA 0x10 (r6 d) (r7 a) (r7 b) (BitVec.ofBool w ++ 6#5))
  | .amoMaxu d a b w => some (encA 0x10 (r6 d) (r7 a) (r7 b) (BitVec.ofBool w ++ 7#5))
  | .amoSwap d a b w => some (encA 0x10 (r6 d) (r7 a) (r7 b) (BitVec.ofBool w ++ 8#5))
  | .cas d a b w => some (encA 0x10 (r6 d) (r7 a) (r7 b) (BitVec.ofBool w ++ 9#5))
  | .fence s c => some (encA 0x11 0 0 0 (0#2 ++ BitVec.ofBool s ++ c))
  | .wait d a b w => some (encA 0x11 (r6 d) (r7 a) (r7 b) (1#2 ++ 0#3 ++ BitVec.ofBool w))
  | .notify d a o => some (encA 0x11 (r6 d) (r7 a) 0 (2#2 ++ 0#3 ++ BitVec.ofBool o))
  | .mma c a b g h m => some (encM c a b g h m 0)
  | .mzero c => some (encM c 0 0 0 0 0 1)
  | .mwait c => some (encM c 0 0 0 0 0 2)
  | .mtest => some (encM 0 0 0 0 0 0 3)
  | .mlda t n a b => some (encA 0x13 (0#1 ++ t ++ BitVec.ofBool n) (r7 a) (r7 b) 0)
  | .msta t n a b => some (encA 0x13 (0#1 ++ t ++ BitVec.ofBool n) (r7 a) (r7 b) 1)
  | .mshape n a => some (encA 0x13 (0#3 ++ n) (r7 a) 0 2)
  | .mfmt a => some (encA 0x13 0 (r7 a) 0 3)
  | .msave a => some (encA 0x13 0 (r7 a) 0 4)
  | .mrstr a => some (encA 0x13 0 (r7 a) 0 5)
  | .rdef n a b => some (encA 0x14 (0#2 ++ n) (r7 a) (r7 b) 0)
  | .rpop n => some (encA 0x14 (0#2 ++ n) 0 0 1)
  | .rpush n => some (encA 0x14 (0#2 ++ n) 0 0 2)
  | .texp a b => some (encA 0x14 0 (r7 a) (r7 b) 3)
  | .ttag d a b => some (encA 0x14 (r6 d) (r7 a) (r7 b) 4)
  | .twait d a b => some (encA 0x14 (r6 d) (r7 a) (r7 b) 5)
  | .xcopy a => some (encA 0x15 0 (r7 a) 0 0)
  | .xsub a => some (encA 0x15 0 (r7 a) 0 1)
  | .xunsub a => some (encA 0x15 0 (r7 a) 0 2)
  | .xdrain a => some (encA 0x15 0 (r7 a) 0 3)
  | .xstat d a => some (encA 0x15 (r6 d) (r7 a) 0 4)
  | .meet d a b => some (encA 0x16 (r6 d) (r7 a) (r7 b) 0)
  | .part => some (encA 0x16 0 0 0 1)
  | .peer d n w => some (encA 0x16 (r6 d) (r7 n) (0#6 ++ BitVec.ofBool w) 2)
  | .peerv d n => some (encA 0x16 (0#2 ++ d) (0#3 ++ n) 0 3)
  | .rollNone d a b => some (encA 0x16 (r6 d) (r7 a) (r7 b) 0x10)
  | .rollAdd d a b => some (encA 0x16 (r6 d) (r7 a) (r7 b) 0x11)
  | .rollMin d a b => some (encA 0x16 (r6 d) (r7 a) (r7 b) 0x12)
  | .rollMax d a b => some (encA 0x16 (r6 d) (r7 a) (r7 b) 0x13)
  | .rollUmin d a b => some (encA 0x16 (r6 d) (r7 a) (r7 b) 0x14)
  | .rollUmax d a b => some (encA 0x16 (r6 d) (r7 a) (r7 b) 0x15)
  | .rollAnd d a b => some (encA 0x16 (r6 d) (r7 a) (r7 b) 0x16)
  | .rollOr d a b => some (encA 0x16 (r6 d) (r7 a) (r7 b) 0x17)
  | .rollXor d a b => some (encA 0x16 (r6 d) (r7 a) (r7 b) 0x18)
  | .launch d a b => some (encA 0x17 (r6 d) (r7 a) (r7 b) 0)
  | .tend => some (encA 0x17 0 0 0 1)
  | .yield d => some (encA 0x17 (r6 d) 0 0 2)
  | .sbind a => some (encA 0x17 0 (r7 a) 0 3)
  | .chbind n a => some (encA 0x17 (r6 n) (r7 a) 0 4)
  | .emit a b => some (encA 0x17 0 (r7 a) (r7 b) 5)
  | .wmk a b => some (encA 0x17 0 (r7 a) (r7 b) 6)
  | .publ a => some (encA 0x17 0 (r7 a) 0 7)
  | .acct d a => some (encA 0x17 (r6 d) (r7 a) 0 8)
  | .csrr d c => some (encI 0x18 (r6 d) 0 c)
  | .csrw d a c => some (encI 0x19 (r6 d) (r7 a) c)
  | .csrs d a c => some (encI 0x1A (r6 d) (r7 a) c)
  | .csrc d a c => some (encI 0x1B (r6 d) (r7 a) c)
  | .scall i => some (encU 0x1C 0 i)
  | .tret => some (encU 0x1C 1 0)
  | .uiret => some (encU 0x1C 2 0)
  | .sleep i => some (encU 0x1C 3 i)
  | .brk i => some (encU 0x1C 4 i)
  | .vadd d a b t k => some (encV 0x20 (vdstBits d) (vsrcBits a) (vsrcBits b) t k 0)
  | .vaddSat d a b t k => some (encV 0x20 (vdstBits d) (vsrcBits a) (vsrcBits b) t k 1)
  | .vsub d a b t k => some (encV 0x21 (vdstBits d) (vsrcBits a) (vsrcBits b) t k 0)
  | .vsubSat d a b t k => some (encV 0x21 (vdstBits d) (vsrcBits a) (vsrcBits b) t k 1)
  | .vmul d a b t k => some (encV 0x22 (vdstBits d) (vsrcBits a) (vsrcBits b) t k 0)
  | .vmulSat d a b t k => some (encV 0x22 (vdstBits d) (vsrcBits a) (vsrcBits b) t k 1)
  | .vfma d a b t k => some (encV 0x23 (0#1 ++ d) (vsrcBits a) (vsrcBits b) t k 0)
  | .vfms d a b t k => some (encV 0x23 (0#1 ++ d) (vsrcBits a) (vsrcBits b) t k 1)
  | .vmulh d a b t k => some (encV 0x24 (vdstBits d) (vsrcBits a) (vsrcBits b) t k 0)
  | .vabs d a m t k => some (encV 0x24 (vdstBits d) (vsrcBits a) (0#5 ++ BitVec.ofBool m) t k 1)
  | .vmin d a b t k => some (encV 0x25 (vdstBits d) (vsrcBits a) (vsrcBits b) t k 0)
  | .vmax d a b t k => some (encV 0x25 (vdstBits d) (vsrcBits a) (vsrcBits b) t k 1)
  | .vneg d a m t k => some (encV 0x26 (vdstBits d) (vsrcBits a) (0#5 ++ BitVec.ofBool m) t k 0)
  | .vmov d a t k => some (encV 0x26 (vdstBits d) (vsrcBits a) 0 t k 1)
  | .vand d a b t k => some (encV 0x27 (vdstBits d) (vsrcBits a) (vsrcBits b) t k 0)
  | .vor d a b t k => some (encV 0x27 (vdstBits d) (vsrcBits a) (vsrcBits b) t k 1)
  | .vxor d a b t k => some (encV 0x28 (vdstBits d) (vsrcBits a) (vsrcBits b) t k 0)
  | .vshr d a b t k => some (encV 0x28 (vdstBits d) (vsrcBits a) (vsrcBits b) t k 1)
  | .vshl d a b t k => some (encV 0x29 (vdstBits d) (vsrcBits a) (vsrcBits b) t k 0)
  | .vshlSat d a b t k => some (encV 0x29 (vdstBits d) (vsrcBits a) (vsrcBits b) t k 1)
  | .vshra d a b t k => some (encV 0x2a (vdstBits d) (vsrcBits a) (vsrcBits b) t k 0)
  | .vsel d a b t k => some (encV 0x2a (vdstBits d) (vsrcBits a) (vsrcBits b) t k 1)
  | .vcmpEq d a b t k => some (encV 0x2b (0#2 ++ d) (vsrcBits a) (vsrcBits b) t k 0)
  | .vcmpNe d a b t k => some (encV 0x2b (0#2 ++ d) (vsrcBits a) (vsrcBits b) t k 1)
  | .vcmpLt d a b t k => some (encV 0x2c (0#2 ++ d) (vsrcBits a) (vsrcBits b) t k 0)
  | .vcmpLe d a b t k => some (encV 0x2c (0#2 ++ d) (vsrcBits a) (vsrcBits b) t k 1)
  | .vbcast d a t k => some (encV 0x2d (vdstBits d) (xsrcBits a) 0 t k 0)
  | .vred d a o t k => some (encV 0x2d (vdstBits d) (vsrcBits a) (0#3 ++ o) t k 1)
  | .vcvt d a m t k => some (encV 0x2e (vdstBits d) (vsrcBits a) m t k 0)
  | .vcvtSr d a m t k => some (encV 0x2e (vdstBits d) (vsrcBits a) m t k 1)
  | .vperm d a b t k => some (encV 0x2f (vdstBits d) (vsrcBits a) (vsrcBits b) t k 0)
  | .vslide d a b t k => some (encV 0x2f (vdstBits d) (vsrcBits a) (xsrcBits b) t k 1)
  | .vzip d a b t k => some (encV 0x30 (vdstBits d) (vsrcBits a) (vsrcBits b) t k 0)
  | .vunzip d a b t k => some (encV 0x30 (vdstBits d) (vsrcBits a) (vsrcBits b) t k 1)
  | .vdot d a b t k => some (encV 0x31 (0#1 ++ d) (vsrcBits a) (vsrcBits b) t k 0)
  | .vplane d a p h u t k => some (encV 0x31 (vdstBits d) (vsrcBits a) (0#1 ++ p ++ BitVec.ofBool h ++ BitVec.ofBool u) t k 1)
  | .vqnt d a b t k => some (encV 0x32 (vdstBits d) (vsrcBits a) (xsrcBits b) t k 0)
  | .vdqnt d a b t k => some (encV 0x32 (vdstBits d) (vsrcBits a) (xsrcBits b) t k 1)
  | .vrcp d a t k => some (encV 0x33 (vdstBits d) (vsrcBits a) 0 t k 0)
  | .vrsq d a t k => some (encV 0x33 (vdstBits d) (vsrcBits a) 0 t k 1)
  | .vex2 d a t k => some (encV 0x34 (vdstBits d) (vsrcBits a) 0 t k 0)
  | .vlg2 d a t k => some (encV 0x34 (vdstBits d) (vsrcBits a) 0 t k 1)
  | .vsin d a t k => some (encV 0x35 (vdstBits d) (vsrcBits a) 0 t k 0)
  | .vtanh d a t k => some (encV 0x35 (vdstBits d) (vsrcBits a) 0 t k 1)
  | .vld d a t k => some (encV 0x36 (vdstBits d) (0#2 ++ a) 0 t k 0)
  | .vst d a t k => some (encV 0x36 (0#1 ++ d) (0#2 ++ a) 0 t k 1)
  | .vlds d a b t k => some (encV 0x37 (vdstBits d) (0#2 ++ a) (xsrcBits b) t k 0)
  | .vsts d a b t k => some (encV 0x37 (0#1 ++ d) (0#2 ++ a) (xsrcBits b) t k 1)
  | .vgthr d a b t k => some (encV 0x38 (vdstBits d) (0#2 ++ a) (vsrcBits b) t k 0)
  | .vsctr d a b t k => some (encV 0x38 (0#1 ++ d) (0#2 ++ a) (vsrcBits b) t k 1)
  | .kand d a b => some (encV 0x39 (0#2 ++ d) (0#3 ++ a) (0#3 ++ b) 0 0 0)
  | .kor d a b => some (encV 0x39 (0#2 ++ d) (0#3 ++ a) (0#3 ++ b) 0 0 1)
  | .knot d a => some (encV 0x3a (0#2 ++ d) (0#3 ++ a) 0 0 0 0)
  | .kpopc d a => some (encV 0x3a (xdstBits d) (0#3 ++ a) 0 0 0 1)
  | .setfmt n a => some (encV 0x3b (0#3 ++ n) (xsrcBits a) 0 0 0 0)
  | .repf l a b => some (encV 0x3b (0#1 ++ l) (xsrcBits a) (xsrcBits b) 0 0 1)
  | _ => none

/-! The host's question. -/

/-- The instruction the decoder reads from a word of the opcode table. Every instruction is one word of 32 bits (R75). -/
def decodeTableWord (_nbits w : Nat) : Option Instr := decode (BitVec.ofNat 32 w)

end Sys2Proof
end

