-- ==== Sys2Proof/Config.lean ====
section
/-!
DEFINITION. What one P9X fixes, and the free values: values the spec leaves open, which no proof can know.
-/

namespace Sys2Proof.Config

/-- Clusters of a die (R1). -/
def clustersPerDie : Nat := 576
/-- Clusters of a die in one row (R3). -/
def clustersPerRow : Nat := 24
/-- Cores of a die (R1). -/
def coresPerDie : Nat := 2304
/-- Bytes of a cluster's scratchpad (R1). -/
def spadBytes : Nat := 0xC0000
/-- Entries of a cluster's restante buffer (R361). -/
def restanteEntries : Nat := 512
/-- Entries of a cluster's undo memory (R358). -/
def undoEntries : Nat := 12288
/-- Cycles of a checkpoint interval (R357). -/
def interval : Nat := 256
/-- Cycles from the start of an interval to the release of its outputs (R361). -/
def releaseDelay : Nat := 704
/-- The detection bound (R356). -/
def detectBound : Nat := 448
/-- Entries of an inbox (R9). -/
def inboxEntries : Nat := 64
/-- Entries of a sequencer (R139). -/
def seqEntries : Nat := 16
/-- Entries of a matrix port (R170). -/
def portEntries : Nat := 4
/-- Cycles from a flit's CRC failure to the arrival of its replay. DEDUCED (log 14): from the trace of "Program: sixteen fetch-and-adds across the
die link". -/
def replayTime : Nat := 32
/-- Cells in a row of the unfenced array (R1). -/
def arrayColumns : Nat := 64

/-- FREE VALUE (log 5): which of the results within the error bound of R156 a special function gives, as a function of the
form, the type code and the input (R62 makes it a fixed function). The meaning takes it modulo the number of admissible
results. -/
opaque specialChoice : Nat → Nat → Nat → Nat

/-- FREE VALUE (log 5): a fresh value each time, for a value the spec leaves open once. -/
opaque freeValue : Nat → BitVec 64

/-- FREE VALUE (log 5): the signature of an attestation, 9,732 bytes, by one-time index and message (R387); the spec gives no result of XMSS for a key it
does not name. -/
opaque attestationSignature : Nat → Nat → BitVec 77856

/-- FREE VALUE (log 5): CLASS, ENGINE and CODE of the record of a write that the service firmware may not make (R388), packed; the spec names none. -/
opaque serviceDenied : Nat → Nat

/-- FREE VALUE (log 5): the tags that a launch supplies for a dataflow task, each marked as an output or not, as a function of the launch's
argument words and the gang; the spec says that the launch supplies them and gives no encoding (R251). -/
opaque dataflowTags : List (BitVec 64) → Nat → List (Nat × Bool)

end Sys2Proof.Config
end

