-- ==== Sys2Proof/Machine/Tab.lean ====
section
/-!
DEFINITION. Sparse tables: numbered state whose unlisted entries read as a default.

A table is a list of numbered entries. Its canonical form (`Tab.wf`) has strictly rising numbers and no entry equal to the
default, so that equal tables are equal data. Memory is the table of bytes (`Memory`).
-/

namespace Sys2Proof.Machine

/-- A sparse table of values numbered by natural numbers. -/
abbrev Tab (α : Type) := List (Nat × α)

variable {α : Type}

/-- The value at number `k`, the default `d` where the table lists none. -/
def Tab.get (d : α) : Tab α → Nat → α
  | [], _ => d
  | (k', v) :: t, k => if k' = k then v else Tab.get d t k

/-- The table without its entry at `k`. -/
def Tab.erase (t : Tab α) (k : Nat) : Tab α :=
  t.filter fun e => e.1 ≠ k

/-- The table with `(k, v)` put in before the first larger number. -/
def Tab.insert : Tab α → Nat → α → Tab α
  | [], k, v => [(k, v)]
  | (k', v') :: t, k, v => if k < k' then (k, v) :: (k', v') :: t else (k', v') :: Tab.insert t k v

/-- The table whose entry at `k` is `v`; writing the default removes the entry. -/
def Tab.set [DecidableEq α] (d : α) (t : Tab α) (k : Nat) (v : α) : Tab α :=
  if v = d then Tab.erase t k else Tab.insert (Tab.erase t k) k v

/-- Numbers strictly rising. -/
def Tab.rising : Tab α → Bool
  | [] => true
  | [_] => true
  | (a, _) :: (b, y) :: t => decide (a < b) && Tab.rising ((b, y) :: t)

/-- The canonical form: numbers strictly rising, no entry equal to the default. -/
def Tab.wf [DecidableEq α] (d : α) (t : Tab α) : Bool :=
  Tab.rising t && t.all fun e => decide (e.2 ≠ d)

/-- Memory: bytes by address. -/
abbrev Memory := List Host.Cell

/-- What a byte that nothing has written reads as. DESIGN CHOICE (log 4): the spec gives RAM no reset contents. -/
def unlistedByte : Byte := 0

/-- One byte of memory. -/
def Memory.read (m : Memory) (a : Nat) : Byte := Tab.get unlistedByte m a

/-- Memory with one byte written. -/
def Memory.write (m : Memory) (a : Nat) (b : Byte) : Memory := Tab.set unlistedByte m a b

/-- The canonical form of memory. -/
def Memory.wf (m : Memory) : Bool := Tab.wf unlistedByte m

/-- `n` bytes from `a`, little-endian, as a number (R113). -/
def Memory.readN (m : Memory) (a : Nat) : Nat → Nat
  | 0 => 0
  | n + 1 => Memory.readN m a n + (Memory.read m (a + n)).toNat * 2 ^ (8 * n)

/-- The low `n` bytes of `v` written at `a`, little-endian (R113). -/
def Memory.writeN (m : Memory) (a : Nat) (v : Nat) : Nat → Memory
  | 0 => m
  | n + 1 => Memory.write (Memory.writeN m a v n) (a + n) (BitVec.ofNat 8 (v >>> (8 * n)))

/-- The low `n` bytes of `v` written at `a` where the byte enables allow it. -/
def Memory.writeMasked (m : Memory) (a : Nat) (v be : Nat) : Nat → Memory
  | 0 => m
  | n + 1 =>
    let m' := Memory.writeMasked m a v be n
    if be.testBit n then Memory.write m' (a + n) (BitVec.ofNat 8 (v >>> (8 * n))) else m'

end Sys2Proof.Machine
end

