-- ==== Sys2Proof/Machine/Ctx.lean ====
section
/-!
DEFINITION. The state of one context slot (Tables 01-1 to 01-5), with what the spec keeps for it beyond its registers.
-/

namespace Sys2Proof.Machine

/-- The causes of Table 04-1. -/
inductive Cause where
  | issue | depend | chanEmpty | chanFull | seqFull | slotWait | globalWait | tileWait | matrixWait | restanteFull
  | undoFull | quarantine | fence | meetWait | travel | rollWait | sleep | slotLost | redirect | rollback | preempted
  | acctFull | frozen | idle
  deriving DecidableEq, Repr

/-- The code of a cause (Table 04-1). -/
def Cause.code : Cause → Fin 24
  | .issue => 0
  | .depend => 1
  | .chanEmpty => 2
  | .chanFull => 3
  | .seqFull => 4
  | .slotWait => 5
  | .globalWait => 6
  | .tileWait => 7
  | .matrixWait => 8
  | .restanteFull => 9
  | .undoFull => 10
  | .quarantine => 11
  | .fence => 12
  | .meetWait => 13
  | .travel => 14
  | .rollWait => 15
  | .sleep => 16
  | .slotLost => 17
  | .redirect => 18
  | .rollback => 19
  | .preempted => 20
  | .acctFull => 21
  | .frozen => 22
  | .idle => 23

/-- The traps of Table 19-3. -/
inductive Trap where
  | illegalInstruction | misaligned | windowFault | privViolation | translationFault | accessFault | partnerGone
  | channelFault | formatInvalid | frameIllegal | shapeInvalid | ringFault | tileFault | engineInvalid
  | matrixInVisitor | matrixInHandler | visitorFault | meetInvalid | meetMismatch | meetState | launchInvalid
  | streamFault | syscall | breakpoint
  deriving DecidableEq, Repr

/-- The code of a trap (Table 19-3). -/
def Trap.code : Trap → Nat
  | .illegalInstruction => 1
  | .misaligned => 2
  | .windowFault => 3
  | .privViolation => 4
  | .translationFault => 5
  | .accessFault => 6
  | .partnerGone => 7
  | .channelFault => 8
  | .formatInvalid => 9
  | .frameIllegal => 10
  | .shapeInvalid => 11
  | .ringFault => 12
  | .tileFault => 13
  | .engineInvalid => 14
  | .matrixInVisitor => 15
  | .matrixInHandler => 16
  | .visitorFault => 17
  | .meetInvalid => 18
  | .meetMismatch => 19
  | .meetState => 20
  | .launchInvalid => 21
  | .streamFault => 22
  | .syscall => 23
  | .breakpoint => 24

/-- The combining operators of AMO (Table 07-3). -/
inductive AmoOp where
  | add | and | or | xor | min | max | minu | maxu | swap
  deriving DecidableEq, Repr

/-- What a scratchpad access does at the bank unit (R113, R122, R129, R131, R175, R176). `tags` marks the tile metadata. -/
inductive BankOp where
  | load (d : Dst) (signed : Bool) (acquire : Bool)
  | store (v : Word)
  | amo (op : AmoOp) (d : BitVec 5) (s : Word)
  | cas (d : BitVec 5) (s expect : Word)
  | wait (d : BitVec 5) (cmp timeout : Word)
  | notify (d : BitVec 5) (all : Bool)
  /-- MSHAPE's read of a shape record (R175) -/
  | shape (n : BitVec 3)
  /-- a form that completes in its bank step, with nothing of its context issuing meanwhile (R176, R197, R205) -/
  | form (i : Instr)
  deriving DecidableEq, Repr

/-- A scalar access to a scratchpad window, issued and not yet granted (R116). -/
structure BankAccess where
  op : BankOp
  /-- the cluster whose bank unit serves it -/
  cl : Nat
  /-- whether it names tile metadata (0xF4) -/
  tags : Bool
  /-- the byte offset in the cluster's scratchpad, parcel buffers or tag array -/
  off : Nat
  /-- access size in bytes -/
  size : Nat
  /-- the context's `serial` when it issued (R185) -/
  serial : Nat
  deriving DecidableEq, Repr

/-- A repeat frame being captured (R164, R167, R168). -/
structure Capture where
  /-- words in the frame -/
  len : Nat
  /-- the words captured so far, oldest first -/
  words : List IWord
  /-- the operand fields of the REPF -/
  n : XSrc
  stag : XSrc
  /-- a recapture: after this many words the capture goes on at the address given -/
  jump : Option (Nat × BitVec 56)
  /-- a replay that resumes at (ITER, IDX) once captured again -/
  resume : Option (Nat × Nat)
  deriving DecidableEq, Repr

/-- A repeat frame being replayed (R165, R166). -/
structure Replay where
  words : List IWord
  /-- iterations in all -/
  n : Nat
  /-- the staggers of vd, vs1 and vs2 -/
  stag : Nat
  /-- iterations completed -/
  iter : Nat
  /-- the next instruction of iteration `iter` -/
  idx : Nat
  /-- whether N or the staggers came from a channel (R168) -/
  fromChannel : Bool
  /-- the registers the REPF read and those its words read as scalars, which later writers must not touch (R166) -/
  guarded : List Nat
  deriving DecidableEq, Repr

/-- The deferred fault record (Table 19-4). -/
structure FaultRecord where
  valid : Bool := false
  pc : BitVec 56 := 0
  va : Word := 0
  byteen : Word := 0
  kind : BitVec 4 := 0
  data : BitVec 512 := 0
  /-- whether the fault was an ACCESS_FAULT -/
  access : Bool := false
  /-- whether the deferred trap has not been taken yet (R325) -/
  pending : Bool := false
  deriving DecidableEq, Repr

/-- A trap to be taken at home (R222). -/
structure TrapInfo where
  async : Bool
  t : Trap
  tval : Word
  epc : BitVec 56
  /-- the frame that was being captured, and where it begins (R167) -/
  cap : Option Capture
  framepc : BitVec 56
  deriving DecidableEq, Repr

/-- A meeting the context takes part in (R217 to R221). -/
structure Meeting where
  /-- the slot the partner sits in at the meeting -/
  partner : Nat
  /-- the cluster of the meeting -/
  place : Nat
  /-- whether both parties stay in their own slots -/
  inPlace : Bool
  /-- the luggage of this party -/
  vmask : BitVec 16
  poff : Nat
  plen : Nat
  /-- where 0xF2 begins: an offset in the meeting cluster's scratchpad or parcel buffers -/
  parcel : Nat
  /-- the partner's parcel length and where its parcel begins -/
  partnerPlen : Nat
  partnerParcel : Nat
  /-- writes of x registers at the meeting that PEER may still read, oldest first: register, the writer's `serial`, value (R219) -/
  hist : List (Nat × Nat × Word)
  /-- the registers as they stood at the MEET -/
  xs : Vector Word 32
  /-- the luggage vectors as they travelled -/
  vs : List (Nat × VReg)
  /-- PEERs that await a register of the partner: destination, register -/
  peers : List (Nat × Nat)
  /-- whether the partner's PART has taken effect -/
  gone : Bool
  /-- whether this party's PART has taken effect (R221) -/
  parting : Bool
  /-- a trap to take at home (R222) -/
  trap : Option TrapInfo
  /-- the meeting's taint (R363) -/
  taint : Nat
  deriving DecidableEq, Repr

/-- What a context parked in MEET or ROLL waits for (R217, R224). -/
structure Park where
  roll : Bool
  /-- the number of this MEET or ROLL -/
  tok : Nat
  key : Word
  d : BitVec 5
  b : BitVec 5
  /-- the word contributed to a roll call -/
  word : Word
  quorum : Nat
  op : Nat
  poff : Nat
  plen : Nat
  vmask : BitVec 16
  /-- the cycle at which the timeout expires; none for no limit -/
  deadline : Option Nat
  /-- whether a withdrawal is under way -/
  withdrawn : Bool
  deriving DecidableEq, Repr

/-- A task launched for a window (R232, R340, R341). -/
structure WindowTask where
  stream : Nat
  window : Nat
  lane : Nat
  revision : Nat
  amend : Bool
  /-- words of its list -/
  len : Nat
  /-- words of the record port already read -/
  port : Nat
  /-- words of its list not yet brought into the port, next first -/
  todo : List Word
  /-- words in the port, next first (Table 11-5) -/
  buf : List Word
  /-- the port is no longer refilled (R379) -/
  shut : Bool
  published : Bool
  deriving DecidableEq, Repr

/-- What a slot's context is doing. -/
inductive Activity where
  /-- no task holds the slot -/
  | free
  /-- placed; its first cycle is the one given (R250) -/
  | placed (first : Nat)
  /-- its next instruction is at the head -/
  | running
  /-- asleep in WAIT (R129): destination, the cycle its timeout expires -/
  | waitWord (d : BitVec 5) (until_ : Option Nat)
  /-- asleep in TWAIT (R203): destination, tag, whether EMPTY is awaited, the cycle its timeout expires -/
  | waitTag (d : BitVec 5) (tag : Nat) (empty : Bool) (until_ : Option Nat)
  /-- its instruction is at a bank unit or under way in memory, and no later one issues until it completes (R176, R197, R205) -/
  | stalled (k : Cause)
  /-- waiting at the head in SLEEP, which ends by itself at the cycle given (R236) -/
  | sleeping (until_ : Option Nat)
  /-- at the head in a SLEEP whose time is over: it may issue (R236) -/
  | slept
  /-- parked at home in MEET or ROLL -/
  | parked
  /-- at home, while its state is at a meeting or under way (R217, R221) -/
  | away
  /-- halted at BRK (R234) -/
  | halted
  /-- frozen by a partition reset, poison or the supervisor (R378, R376) -/
  | frozen
  /-- saved out or being saved or restored (R328) -/
  | saved
  deriving DecidableEq, Repr

/-- What is done for a context in a later cycle (R106, R116, R129, R131, R240). -/
structure Late where
  /-- the cycle from which it holds -/
  at_ : Nat
  /-- the register that becomes usable: the first entry of that number leaves `busy` -/
  code : Option Nat
  /-- whether memory-access instructions are no longer held (R119) -/
  acq : Bool
  /-- binding descriptors of channels whose popped entries free their space (R94) -/
  space : List Nat
  /-- whether it is the return of a memory access, which fences and releases wait for (R120, R126) -/
  mem : Bool := false
  deriving DecidableEq, Repr

/-- A write of a channel entry by an instruction that has issued (R80, R94, R106). -/
structure ChanWrite where
  /-- the `serial` of the instruction -/
  serial : Nat
  /-- the binding descriptor of the channel at its issue -/
  desc : Nat
  /-- the cycle in which it is written -/
  at_ : Nat
  /-- the entry, once known -/
  value : Option Nat
  /-- whether the entry, once known, is the value of a memory access (R120, R126) -/
  mem : Bool := false
  deriving DecidableEq, Repr

/-- One context slot. -/
structure Ctx where
  act : Activity := .free
  /-- x0 to x31 -/
  x : Vector Word 32 := Vector.replicate 32 0
  pc : BitVec 56 := 0
  /-- v0 to v15 -/
  v : Vector VReg 16 := Vector.replicate 16 0
  /-- k0 to k7 -/
  k : Vector KReg 8 := (Vector.replicate 8 0).set 0 (BitVec.allOnes 1024)
  /-- fm0 to fm3 (Table 03-3) -/
  fm : Vector (BitVec 16) 4 := #v[0x09DC, 0x13D5, 0x005A, 0x004A]
  /-- c0 to c31, binding descriptors (Table 11-4) -/
  c : Vector (BitVec 8) 32 := Vector.replicate 32 0
  /-- aq0 to aq7, oldest entry first -/
  aq : Vector (List Word) 8 := Vector.replicate 8 []
  /-- the account counters -/
  acct : Vector (BitVec 48) 24 := Vector.replicate 24 0
  fflags : BitVec 5 := 0
  rmode : BitVec 2 := 0
  srseed : Word := 0
  meetto : Word := BitVec.allOnes 64
  rollq : BitVec 11 := 2
  uepc : Word := 0
  /-- UIE.EN -/
  uieEn : Bool := false
  xid : BitVec 32 := 0
  taskc : Vector (BitVec 16) 3 := Vector.replicate 3 0
  gang : BitVec 48 := 0
  launchId : BitVec 32 := 0
  queue : BitVec 13 := 0
  pid : BitVec 16 := 0
  /-- the partition the context belongs to -/
  part : Nat := 0
  privBase : BitVec 20 := 0
  privSize : BitVec 20 := 0
  /-- STATUS.MODE, true in supervisor mode -/
  mode : Bool := false
  /-- STATUS.UI -/
  ui : Bool := false
  /-- STATUS.MSAVED -/
  msaved : Bool := false
  /-- STATUS.INMEET -/
  inmeet : Bool := false
  /-- STATUS.PMODE -/
  pmode : Bool := false
  /-- STATUS.PUI -/
  pui : Bool := false
  cause : Word := 0
  epc : BitVec 56 := 0
  tval : Word := 0
  tvec : BitVec 56 := 0
  frame : Word := 0
  framepc : BitVec 56 := 0
  acctbase : BitVec 56 := 0
  acctctl : BitVec 32 := 0
  /-- the frame being captured -/
  cap : Option Capture := none
  /-- the frame being replayed -/
  replay : Option Replay := none
  /-- issued scratchpad accesses not yet granted, oldest first (R116) -/
  pend : List BankAccess := []
  /-- registers whose result is awaited, in issue order, with the cause their users are charged: 0 to 31 for x registers, 64 and up for shape
  registers -/
  busy : List (Nat × Cause) := []
  /-- results on their way, and what else is done in a later cycle -/
  late : List Late := []
  /-- channel writes not yet made, in program order (R94) -/
  chq : List ChanWrite := []
  /-- vector results on their way, by register, 16 and up for masks, 24 for a channel entry or an x register: the first cycle in which a
  dependent instruction may bind (R140), and in which the instruction has completed (R14) -/
  vlate : List (Nat × Nat) := []
  /-- the cycles in which the context waits for a redirected fetch or the end of a WAIT (R109, R110, R129): the cause charged, and the first cycle
  after them -/
  pause : Option (Cause × Nat) := none
  /-- a later memory-access instruction waits for these (R119): the cause charged -/
  acq : Option Cause := none
  /-- markers a FENCE.SC has sent and not got back: the module of the die link, and the invalidations queued there ahead of it (R127) -/
  markers : List (Nat × List Nat) := []
  /-- whether a fence's markers have been sent for the FENCE at the head -/
  fenceSent : Bool := false
  /-- pending user-level interrupts in completion order: transfer id, handler (R212) -/
  uints : List (BitVec 32 × BitVec 56) := []
  fault : FaultRecord := {}
  /-- taints with their horizons (R363) -/
  taints : List Nat := []
  meet : Option Meeting := none
  park : Option Park := none
  win : Option WindowTask := none
  /-- the open run: cause, first PC, cycle of its start, cycles (R70) -/
  run : Option (Cause × BitVec 56 × Nat × Nat) := none
  /-- the cycle of the last issue, or of arrival on the core (R63) -/
  lastIssue : Nat := 0
  /-- the cause charged for the cycle that ends (R65) -/
  charge : Cause := .issue
  /-- for a visitor, the slot its home state stays in -/
  home : Nat := 0
  /-- whether RIDX is to be read because ACCTCTL.EN became 1 (R73) -/
  ridxDue : Bool := false
  /-- whether a pre-emption of the context is under way (R328) -/
  preemptReq : Bool := false
  /-- whether a YIELD began it (R227) -/
  yielding : Bool := false
  /-- instructions issued that are not port instructions (R185, R186) -/
  serial : Nat := 0
  /-- whether the next instruction follows a TRET, so that MPROG concerns it (R187) -/
  mret : Bool := false
  /-- the same of the instruction that a user-level interrupt went before: it stands again after UIRET (R187, R212) -/
  uret : Bool := false
  /-- the columns of a pass of the MMA that MPROG describes: it resumes with them (R62, R187) -/
  mcols : Nat := 0
  /-- launch ids requested and not yet answered: register and request number, oldest first (R225) -/
  idWait : List (BitVec 5 × Nat) := []
  deriving DecidableEq, Repr


/-- Whether a context holds the slot. -/
def Ctx.live (c : Ctx) : Bool :=
  match c.act with
  | .free => false
  | .placed _ => false
  | _ => true

/-- Whether a pre-emption holds the context: it issues nothing, in user mode and away from meetings, until it is saved (R223, R328, R349). -/
def Ctx.heldForSave (c : Ctx) : Bool :=
  c.preemptReq && !c.mode && !c.inmeet && c.meet.isNone && match c.act with
    | .free => false
    | .placed _ => false
    | .away => false
    | .frozen => false
    | .saved => false
    | _ => true

/-- STATUS.TAINT (Table 01-4). -/
def Ctx.tainted (c : Ctx) : Bool := !c.taints.isEmpty

end Sys2Proof.Machine
end

