-- ==== Sys2Proof/Machine/Units.lean ====
section
/-!
DEFINITION. The state of a core and of a cluster, beyond the context slots.
-/

namespace Sys2Proof.Machine

/-- What a request does once it is performed: memory requests (R113, R118, R122, R159) and the other outputs of Table 24-2. -/
inductive ReqKind where
  | load (d : Dst) (signed : Bool) (acquire : Bool)
  /-- a load of a device register that lies outside the cluster (R117) -/
  | devLoad (d : Dst) (signed : Bool) (acquire : Bool)
  /-- a 64-byte line of the vector load that issued at `serial`, or with `store` the translation of a line that a VSCTR writes (R158, R159) -/
  | vload (store : Bool)
  | store
  | storeRelease
  | vstore
  | amo (op : AmoOp) (d : BitVec 5)
  | cas (d : BitVec 5)
  /-- a write of a device register (R118) -/
  | device
  /-- MSHAPE's read of a shape record (R175) -/
  | shape (n : BitVec 3)
  /-- the read of a form that completes when its data returns (R176) -/
  | form (i : Instr)
  /-- an XUNSUB request (R209): the issuing core's transfer id is `data` -/
  | unsub
  /-- a LAUNCH request (R225): template index, gang count, argument words; its id is `expect` once given, else 0 -/
  | launch (ix g : Nat) (args : List Word) (queue : Nat)
  /-- EMIT and WMK (R231): stream, source; the record or mark is `data` -/
  | emit (stream src : Nat)
  | wmk (stream src : Nat)
  /-- PUBL (R232): the value is `data` -/
  | publ (stream window lane revision : Nat) (amend : Bool)
  /-- a line of a save block or cluster image (R328, R329), written at the physical address `pa` -/
  | save
  /-- an entry of a stream-out engine (R230); of one that crosses a page, `expect` of the second part is the number of the first -/
  | streamOut (core eng : Nat)
  /-- a page that an engine, a stream, an account ring or a fetch needs translated (R318); once its walk has failed it stays at `ready` until its maker has
  seen that -/
  | xlat
  deriving DecidableEq, Repr

/-- How far a request has come. -/
inductive ReqStage where
  /-- waits for its translation (R117, R123) -/
  | translating
  /-- a walk is outstanding (R318) -/
  | walking
  /-- the translation of a line of a vector form failed (R158) -/
  | faulted (t : Trap)
  /-- translated; its vector form has not bound yet, or as a release store it waits for earlier accesses (R120, R158) -/
  | ready
  /-- held in the restante buffer until its release time (R361) -/
  | held
  /-- released, awaiting its translation in issue order (R326) -/
  | released
  /-- released, and its walk is outstanding (R318) -/
  | relWalk
  /-- translated and on its way to where it is performed -/
  | sent
  /-- performed; the answer or acknowledgement is on its way -/
  | performed
  deriving DecidableEq, Repr

/-- A request of a context, from its issue until its answer or acknowledgement. -/
structure Req where
  id : Nat
  sid : Nat
  kind : ReqKind
  stage : ReqStage
  /-- virtual address, or device-register offset -/
  va : Nat
  /-- bytes -/
  size : Nat
  /-- physical address, once translated -/
  pa : Nat
  /-- the bytes stored, or the operand, or the value answered -/
  data : Nat
  /-- byte enables of a store -/
  be : Nat
  /-- the expected value of a CAS -/
  expect : Nat
  pc : BitVec 56
  /-- the cycle of issue -/
  made : Nat
  pid : BitVec 16
  part : Nat
  /-- the mode at issue -/
  mode : Bool
  /-- the context's `serial` at issue -/
  serial : Nat
  /-- issued by a deferred-fault handler before its TRET (R118) -/
  handler : Bool
  /-- stranded behind a deferred fault (R325) -/
  stranded : Bool
  /-- the taints held at issue (R363) -/
  taints : List Nat
  /-- the slot it issued from, whose cluster's restante buffer holds it -/
  src : Nat
  /-- the launch of its task -/
  lid : Nat
  /-- whether its task has ended (R290) -/
  ended : Bool := false
  /-- once it is sent, the cycle in which it set out for its slice, whose port it reaches in the next (R278); before that, while its miss waits at the
  station for a walk, one more than the cycle in which it came (R318) -/
  arr : Nat := 0
  deriving DecidableEq, Repr

/-- One inbox entry (R9, R229, Table 10-8). -/
structure InboxEntry where
  /-- the slot tag: 0, 1 or 2 for a visitor -/
  tag : Nat
  w0 : Word
  w1 : Word
  /-- whether word 0 has been popped -/
  half : Bool
  deriving DecidableEq, Repr

/-- One piece of a vector memory form: its address and bytes, the bits accessed, and the bit position in the register image (R158). -/
structure VPiece where
  addr : Word
  size : Nat
  bits : Nat
  pos : Nat
  deriving DecidableEq, Repr

/-- Where a piece lands once checked. -/
inductive VPlace where
  | bank (cl off : Nat)
  | mem (va : Nat)
  deriving DecidableEq, Repr

/-- A vector instruction in a sequencer (R139), with what it read when it issued (R14, R138, R158). -/
structure SeqEntry where
  sid : Nat
  i : Instr
  pc : BitVec 56
  /-- the scalar operands -/
  xa : Word
  xb : Word
  rm : BitVec 2
  seed : Word
  fms : List (BitVec 16)
  /-- the places of a memory form's active lanes, once checked (R158) -/
  plan : Option (List (VPiece × VPlace)) := none
  /-- its scratchpad pieces that vector slots are still to serve (R159) -/
  left : List (VPiece × VPlace) := []
  /-- what a load has read of the scratchpad, in its places in the image -/
  img : Nat := 0
  /-- the V-kind channel entries taken when it bound: vs1, vs2 -/
  va : Option VReg := none
  vb : Option VReg := none
  /-- whether a memory form has bound -/
  bound : Bool := false
  /-- the trap of the first piece that fails a check other than its translation, where pieces of lower lanes still await theirs (R158) -/
  bad : Option (Trap × Word) := none
  /-- whether the partner of a meeting had gone when it issued (R19) -/
  gone : Bool := false
  /-- the channel entry that its stride took, given back by a precise trap: binding descriptor, value (R79) -/
  took : Option (Nat × Word) := none
  /-- binding descriptors of channels whose entries its scalar fields popped: the space is free once it retires (R94) -/
  space : List Nat := []
  /-- the context's `serial` when it issued (R185) -/
  serial : Nat
  /-- the context's frame, which replays while this is at the head (R165) -/
  frame : Bool := false
  deriving DecidableEq, Repr

/-- One line of an instruction cache (R110). -/
structure ILine where
  va : Nat
  pid : BitVec 16
  data : BitVec 512
  deriving DecidableEq, Repr

/-- A stream engine (R230, Table 11-6). -/
structure StreamEng where
  active : Bool := false
  /-- the slot whose context bound it -/
  sid : Nat := 0
  /-- DIR: stream-out -/
  out : Bool := false
  /-- W: entries of 4,096 bits -/
  wide : Bool := false
  base : Word := 0
  /-- the private base of the context that bound it, for a BASE in 0xF1 -/
  priv : Nat := 0
  /-- entries per dimension, dimension 0 first -/
  n : List Nat := []
  /-- strides, dimension 0 first -/
  stride : List Word := []
  /-- entries moved between memory and the buffer -/
  moved : Nat := 0
  /-- buffered entries, oldest first -/
  buf : List Nat := []
  /-- stream-out writes not yet performed: their request numbers -/
  writes : List Nat := []
  pid : BitVec 16 := 0
  part : Nat := 0
  mode : Bool := false
  /-- a translation fault that stopped it: code and address -/
  fault : Option (Nat × Nat) := none
  /-- the context's `serial` at its SBIND -/
  serial : Nat := 0
  /-- whether the task that bound it has ended -/
  ended : Bool := false
  deriving DecidableEq, Repr

/-- A format context (Table 09-2). -/
structure FmtCtx where
  fa : Nat := 0
  fb : Nat := 0
  gs : Nat := 0
  ascale : Word := 0
  azp : Word := 0
  bscale : Word := 0
  bzp : Word := 0
  deriving DecidableEq, Repr

/-- A ring entry (Table 10-2). -/
structure Ring where
  base : Nat := 0
  size : Nat := 0
  tag0 : Nat := 0
  count : Nat := 0
  head : Nat := 0
  tail : Nat := 0
  valid : Bool := false
  /-- 0 plain, 1 subscribed, 2 drained -/
  mode : Nat := 0
  deriving DecidableEq, Repr

/-- A port instruction of the matrix owner (R170), with the copies it took at issue (R171). -/
structure PortEntry where
  sid : Nat
  i : Instr
  pc : BitVec 56
  /-- shape registers of an MMA -/
  sa : BitVec 128
  sb : BitVec 128
  fmt : FmtCtx
  /-- scratchpad offsets of the group tables: A scale, A zero point, B scale, B zero point -/
  tabs : List Nat
  /-- scratchpad offset of the base register's address, and the control word -/
  base : Nat
  ctl : Word
  /-- the context's `serial` when it issued: a later value means that another instruction has issued since (R186) -/
  serial : Nat
  /-- steps done: pass, K elements of the pass -/
  pass : Nat
  kdone : Nat
  /-- columns of a pass, fixed when its first step is granted, 0 before (R62, R181) -/
  cols : Nat
  started : Bool
  /-- whether its last effect is complete -/
  done : Bool
  /-- the cycle of its issue -/
  at_ : Nat
  /-- what MSAVE saves beside the accumulators, as at its issue: sh0 to sh7, MPROG -/
  shs : List (BitVec 128) := []
  mprog : Word := 0
  /-- of a transfer or an MMA's step, the 16-byte lines that matrix slots are still to serve (R184, R244) -/
  left : List Nat := []
  /-- of an MMA's step, the lines that matrix slots have served: number, bytes (R272) -/
  got : List (Nat × Nat) := []
  /-- for MRSTR what it has read -/
  img : Nat := 0
  /-- of an MRSTR, whether an instruction that ends what MPROG says has issued behind it (R187) -/
  clearV : Bool := false
  deriving DecidableEq, Repr

/-- What the array does between grant boundaries (R247, R248, R366). -/
inductive ArrayJob where
  /-- a step of the MMA at the head of a core's port -/
  | step (core : Nat)
  /-- any other port instruction, at the head of a core's port -/
  | move (core : Nat)
  /-- a self-test product, run for an MTEST of a core or because it was due -/
  | test (core : Option Nat)
  /-- a retest of a fenced sub-array (R367) -/
  | retest (n : Nat)
  deriving DecidableEq, Repr

/-- A fenced sub-array (R367). -/
structure SubFence where
  n : Nat
  /-- fenced until the next reset -/
  hard : Bool
  /-- the cycle of its first failure -/
  since : Nat
  /-- retests passed -/
  passes : Nat := 0
  deriving DecidableEq, Repr

/-- The matrix array of a cluster (R247, R248, R366, R367). -/
structure MatArray where
  holder : Nat := 0
  run : Nat := 0
  job : Option ArrayJob := none
  /-- the first cycle of what it does now, and the first cycle after it: a step, a test, or a transfer (R180, R184, R247) -/
  start : Nat := 0
  upto : Nat := 0
  /-- MBURST as at the start of the holder's turn (R240) -/
  burst : Nat := 0
  /-- a self-test product is due -/
  due : Bool := false
  /-- cycles of array work since the last self-test -/
  work : Nat := 0
  /-- while work is uncovered, the cycle of the cover checkpoint -/
  cover : Option Nat := none
  fences : List SubFence := []
  /-- sub-arrays that have failed since the last reset (R367) -/
  failed : BitVec 8 := 0
  deriving DecidableEq, Repr

/-- The kinds of transfer (Table 10-8). -/
inductive XferKind where
  | copy | sub | drain
  deriving DecidableEq, Repr

/-- A transfer of a core, in one of its 16 engine slots (R205). -/
structure Xfer where
  kind : XferKind
  xid : BitVec 32
  /-- the slot whose context issued it -/
  sid : Nat
  /-- the scratchpad offset of its block -/
  block : Nat
  pc : BitVec 56
  pid : BitVec 16
  part : Nat
  mode : Bool
  priv : Nat
  /-- the cycle of issue -/
  made : Nat
  /-- held back until its release (R206, R208, R210) -/
  held : Bool
  /-- stopped by pre-emption (R214) -/
  stopped : Bool
  /-- the ring of a subscription or drain -/
  ring : Nat
  /-- rows or tiles completed -/
  prog : Nat
  /-- its end, once known: status, code, detail (Table 10-8) -/
  result : Option (Nat × Nat × Nat)
  /-- the first byte of a tile that overran (R211) -/
  overrun : Option Nat
  /-- the context's `serial` when it issued -/
  serial : Nat
  taints : List Nat
  /-- for a drain that has not reached its storer: tiles as they stood when their FULL was released, as its storer would have them (R288) -/
  copies : List (Nat × Nat × Nat) := []
  deriving DecidableEq, Repr

/-- Bytes an engine delivers to a tile, whose tag is to be credited (R193). -/
structure Credit where
  n : Nat
  /-- the core and transfer it belongs to -/
  ci : Nat
  xid : BitVec 32
  /-- the receiving core -/
  dst : Nat
  tag : Nat
  bytes : Nat
  /-- the data still to be written: scratchpad offset, value -/
  data : Option (Nat × Nat)
  deriving DecidableEq, Repr

/-- A receiver of a subscription (R208). -/
structure Receiver where
  ci : Nat
  /-- tiles whose first byte has arrived -/
  begun : Nat := 0
  /-- tiles credited whole -/
  got : Nat := 0
  /-- buffer-free signals that have left -/
  freed : Nat := 0
  deriving DecidableEq, Repr

/-- A subscription at its loader (R208). -/
structure Sub where
  n : Nat
  ci : Nat
  xid : BitVec 32
  /-- the block as the request carried it -/
  block : Nat
  ring : Nat
  count : Nat
  receivers : List Receiver
  /-- tiles sent -/
  sent : Nat
  active : Bool
  cancelled : Bool
  pid : BitVec 16
  part : Nat
  mode : Bool
  /-- the cycle its completion was posted; it is kept while a rollback may need it (R360) -/
  ended : Option Nat := none
  deriving DecidableEq, Repr

/-- A drain at its storer (R210). -/
structure Drain where
  n : Nat
  ci : Nat
  xid : BitVec 32
  block : Nat
  ring : Nat
  /-- tiles written -/
  prog : Nat
  /-- whether the head tile has been taken -/
  taken : Bool
  /-- tiles as they stood when their FULL was released: tag, the cycle in which it became FULL, bytes (R288) -/
  copies : List (Nat × Nat × Nat) := []
  active : Bool
  pid : BitVec 16
  part : Nat
  mode : Bool
  /-- the cycle its completion was posted -/
  ended : Option Nat := none
  deriving DecidableEq, Repr

/-- One core (Table 01-1, rows of scope core). -/
structure CoreSt where
  /-- the sequencer, oldest first -/
  seq : List SeqEntry := []
  /-- vector loads that have left the sequencer and await lines from global memory (R159) -/
  vout : List SeqEntry := []
  /-- the cycle after the last in which a form that uses no lane group bound here (R245) -/
  bindAt : Nat := 0
  /-- instruction-cache lines, most recently used first -/
  icache : List ILine := []
  /-- the inbox, oldest first -/
  inbox : List InboxEntry := []
  /-- inbox entries reserved for completions under way -/
  reserved : Nat := 0
  /-- the four stream engines (R230) -/
  seng : Tab StreamEng := []
  /-- the matrix owner (R7) -/
  owner : Option Nat := none
  /-- MPROG (Table 01-6) -/
  mprog : Word := 0
  /-- acc0 and acc1: row i of accN, 64 binary32 elements, is number 32 * N + i -/
  acc : Tab (BitVec 2048) := []
  /-- the first cycles in which each accumulator may be stored, and in which the next MMA on it may start (R180) -/
  accAt : List Nat := [0, 0]
  accGap : List Nat := [0, 0]
  /-- sh0 to sh7 (Table 09-1) -/
  sh : Tab (BitVec 128) := []
  /-- the format context (Table 09-2) -/
  fmt : FmtCtx := {}
  /-- the matrix port, oldest first (R170) -/
  port : List PortEntry := []
  /-- rg0 to rg15 (Table 10-2) -/
  rg : Tab Ring := []
  /-- the core's transfers (R205) -/
  xfers : List Xfer := []
  /-- buffer-free signals held back: ring, tag, cycle of the RPOP, the taints then (R208, R363) -/
  frees : List (Nat × Nat × Nat × List Nat) := []
  /-- the round-robin pointer over resident slots (R63) -/
  rr : Nat := 0
  /-- the first cycle in which the divider is free (R107) -/
  divFree : Nat := 0
  /-- last copies of RIDX (R73): partition, PID, ring, RIDX -/
  ridxs : List (Nat × BitVec 16 × Nat × Nat) := []
  /-- whether a read of RIDX is due for the rings of the records the core holds (R73) -/
  ridxAsk : Bool := false
  /-- the account stall (R73): the context and PC charged -/
  stall : Option (Nat × BitVec 56) := none
  deriving DecidableEq, Repr

/-- The undo memory's copy of one scratchpad line (R358). -/
structure UndoLine where
  interval : Nat
  line : Nat
  old : BitVec 128
  deriving DecidableEq, Repr

/-- A waiter on a scratchpad word (R129). -/
structure Waiter where
  sid : Nat
  off : Nat
  deriving DecidableEq, Repr

/-- A MEET or ROLL snapshot of a party (R217, R363): its context, the cycle, its parcel bytes. -/
structure Snap where
  sid : Nat
  tok : Nat
  ctx : Ctx
  at_ : Nat
  parcel : Nat
  /-- where the parcel lies in the home scratchpad, and its bytes; none for a ROLL -/
  off : Nat
  bytes : Nat
  deriving DecidableEq, Repr

/-- A checkpoint of a cluster (R357, Table 24-1). -/
structure Ckpt where
  /-- its cycle -/
  at_ : Nat
  /-- live contexts, by slot -/
  ctxs : List (Nat × Ctx)
  /-- cores, by number -/
  cores : List (Nat × CoreSt)
  tags : Tab Word
  waiters : List Waiter
  credits : List Credit
  /-- global loads outstanding, which are sent again after a restore -/
  loads : List Req
  /-- global atomics outstanding: request, slot, register (R360) -/
  atoms : List (Nat × Nat × BitVec 5)
  /-- tiles of subscriptions at the cluster's cores: subscription, core, begun, whole -/
  subs : List (Nat × Nat × Nat × Nat)
  /-- what the slot views of the cluster's cores name in its cycle, once it has ended: core, slot, PC (R74) -/
  views : List (Nat × Nat × BitVec 56) := []
  /-- the snapshots of parties of the cluster whose meeting or roll call is not made yet -/
  snaps : List Snap := []
  deriving DecidableEq, Repr

/-- A rollback of a cluster in progress (R359, R360). -/
structure Restore where
  /-- the target checkpoint -/
  target : Nat
  /-- the cycle of the detection -/
  at_ : Nat
  /-- the cluster the detection located -/
  located : Nat
  /-- sub-arrays that fail the separate tests; none for a strike (R367) -/
  fails : BitVec 8
  /-- parties of recalled meetings to be rewound when the restore completes (R364, R365) -/
  rewinds : List Snap
  deriving DecidableEq, Repr

/-- An entry of a ready pool (R250). -/
structure PoolEntry where
  part : Nat
  lid : Nat
  gang : Nat
  member : Nat
  /-- the core a DEAL task is bound to -/
  core : Option Nat
  /-- the saved context it restores -/
  saved : Option Nat
  /-- tags of a dataflow task: tag, whether it is an output (R251) -/
  tags : List (Nat × Bool)
  deriving DecidableEq, Repr

/-- A cluster's share of a STEAL launch (R312, R313). -/
structure Deque where
  part : Nat
  lid : Nat
  /-- ranges of gangs, oldest first -/
  ranges : List (Nat × Nat)
  /-- clusters asked in this round -/
  asked : Nat := 0
  /-- whether an answer is awaited -/
  waiting : Bool := false
  /-- the cycle of the next round -/
  again : Nat := 0
  deriving DecidableEq, Repr

/-- A unit of work that waits for engine slots (R243). -/
inductive EngineWork where
  | row (ci xid prog : Nat)
  | credit (n : Nat)
  | take (n prog : Nat)
  | entry (ci e moved : Nat)
  deriving DecidableEq, Repr

/-- Bytes that a unit of an engine's work moves: an element of a row, a tile, an entry. -/
structure EnginePiece where
  /-- the scratchpad offset they are read at; none where their value is known -/
  from_ : Option Nat
  val : Nat
  /-- the scratchpad offset they are written at; none where they go elsewhere -/
  to_ : Option Nat
  /-- the physical address they are written at in global memory -/
  pa : Nat
  n : Nat
  deriving DecidableEq, Repr

/-- A unit of work in progress: its pieces, the scratchpad lines still to be read and written for it, and the lines read, each with its bytes
(R243, R272). -/
structure EngineLeft where
  work : EngineWork
  pieces : List EnginePiece
  reads : List Nat
  writes : List Nat
  got : List (Nat × Nat)
  deriving DecidableEq, Repr

/-- One cluster. -/
structure Cluster where
  /-- the scratchpad, and the parcel buffers of the visitor slots from 0x10_0000 on (`parcelKey`) -/
  spad : Memory := []
  /-- tile tags 0 to 4095 -/
  tags : Tab Word := []
  /-- CLSHARE (Table 12-1) -/
  clshare : Word := 0x804444
  /-- waiters of WAIT, in the order they enqueued -/
  waiters : List Waiter := []
  undo : List UndoLine := []
  /-- the scalar-slot pointer over the ten slots (R116) -/
  sptr : Nat := 0
  /-- the core last served in the vector slots (R242) -/
  vlast : Nat := 3
  /-- the cycle after the last in which a slot of the wheel was granted (R241) -/
  slotAt : Nat := 0
  /-- the first cycle in which each lane group is free, and the cycle after the last grant of one (R245) -/
  lanes : List Nat := [0, 0, 0, 0]
  laneAt : Nat := 0
  /-- the engine-slot pointers by bank (R243) -/
  eptr : Tab Nat := []
  /-- the lines that engine slots are still to serve of each requester's unit of work (R243) -/
  eleft : Tab (List EngineLeft) := []
  /-- the core whose instruction the vector slots serve now (R242) -/
  vcur : Option Nat := none
  /-- pointer and deficit of the lane-group arbiter (R245) -/
  lptr : Nat := 0
  ldef : Nat := 0
  /-- the matrix array -/
  arr : MatArray := {}
  /-- the cycle in which each tag last became FULL, and the taints of what made it so (R210, R363) -/
  fullAt : Tab Nat := []
  fullBy : Tab (List Nat) := []
  /-- the ready pool, oldest first (R250) -/
  pool : List PoolEntry := []
  /-- the deques of STEAL launches (R312) -/
  deques : List Deque := []
  /-- the cycle of the dispatcher's last deque operation (R313) -/
  dqAt : Option Nat := none
  /-- visitor slots reserved for a meeting: 0 for V0, 1 for V1 (R258) -/
  vres : List Nat := []
  /-- checkpoints kept, newest first (R357) -/
  ckpts : List Ckpt := []
  restore : Option Restore := none
  /-- cycles of the rollbacks located here within the last 1,800,000 (R368) -/
  rbTimes : List Nat := []
  /-- RBCNT.TOTAL and RBCNT.FENCED (Table 24-3) -/
  rbTotal : BitVec 32 := 0
  fenced : Bool := false
  deriving DecidableEq, Repr

/-- A cached translation (R318). -/
structure Xlat where
  part : Nat
  pid : BitVec 16
  /-- first byte of the page -/
  va : Nat
  /-- log2 of the page size: 12, 21 or 30 -/
  bits : Nat
  /-- the leaf entry (Table 19-2) -/
  leaf : Word
  deriving DecidableEq, Repr

/-- A closed run record awaiting its write to the account ring (R70 to R74). -/
structure AcctRec where
  ci : Nat
  /-- ACCTBASE and the log2 of the ring's size -/
  base : Nat
  log2 : Nat
  pid : BitVec 16
  part : Nat
  w0 : Word
  w1 : Word
  /-- the cycle its run closed -/
  made : Nat
  /-- whether its write has faulted: it is held until a context of its core writes there with EN = 1 (R73, R321) -/
  faulted : Bool := false
  /-- whether it lies in the restante buffer; else its core holds it (R73, R361) -/
  entered : Bool := false
  deriving DecidableEq, Repr

/-- An invalidation of a far copy, not yet acknowledged (R127). -/
structure Inval where
  n : Nat
  /-- the request that caused it, and its context -/
  req : Nat
  sid : Nat
  /-- the die whose copy it drops -/
  die : Nat
  /-- the 64-byte line -/
  line : Nat
  /-- the module of the die link it travels on -/
  module : Nat
  deriving DecidableEq, Repr

/-- A far copy of a line homed on the other die (R127). -/
structure FarCopy where
  die : Nat
  line : Nat
  data : BitVec 512
  deriving DecidableEq, Repr

/-- One logged range of a race-trace ring (R279). -/
structure TraceRange where
  en : Bool := false
  base : Nat := 0
  limit : Nat := 0
  deriving DecidableEq, Repr

/-- The race-trace registers of a slice (R279). -/
structure RaceTrace where
  en : Bool := false
  ovf : Bool := false
  log2 : Nat := 0
  base : Nat := 0
  widx : Nat := 0
  ridx : Nat := 0
  ranges : Tab TraceRange := []
  /-- requests accepted, modulo 2^32 -/
  seq : Nat := 0
  deriving DecidableEq, Repr

/-- An error record (Table 25-2); a record that is held has V = 1. -/
structure ErrRec where
  ovf : Bool := false
  /-- 1 corrected, 2 deferred, 3 uncorrected -/
  cls : Nat
  engine : Nat
  part : Option Nat := none
  slot : Nat := 0
  pcore : Nat := 0x1FFF
  code : Nat
  pc : Nat := 0
  akind : Nat := 0
  addr : Nat := 0
  syndrome : Nat := 0
  time : Nat
  detail : Nat := 0
  deriving DecidableEq, Repr

/-- A bank of error records (R370, Table 25-1). -/
structure ErrBank where
  recs : Tab (Option ErrRec) := []
  lostC : Nat := 0
  lostD : Nat := 0
  lostU : Nat := 0
  cntC : Nat := 0
  cntD : Nat := 0
  cntU : Nat := 0
  deriving DecidableEq, Repr

/-- A transaction on a die-link module: a request or a response, with its end-to-end tag (R392, R397). -/
structure Trans where
  n : Nat
  /-- [3:0] generation, [11:4] entry, [16:12] slice, [17] die of the originating slice -/
  tag : Nat
  /-- the memory request it serves -/
  req : Nat
  part : Option Nat
  addr : Nat
  /-- the response's value; none for a request -/
  resp : Option Nat
  /-- the cycle in which it came off the link (R278) -/
  at_ : Nat := 0
  deriving DecidableEq, Repr

/-- A line that an engine asked a slice's port for, and did not get: since when, the engine's place among the requests of one cycle, and the last
cycle in which it asked (R278). -/
structure Owed where
  line : Nat
  since : Nat
  rank : Nat
  seen : Nat
  deriving DecidableEq, Repr

/-- A flit (R397). -/
structure Flit where
  seq : Nat
  ts : List Trans
  /-- the cycle it arrives in -/
  at_ : Nat := 0
  deriving DecidableEq, Repr

/-- One direction of a link module (R391, R393, R397). -/
structure LinkDir where
  /-- the next sequence number to send, and the one the receiver expects -/
  seq : Nat := 0
  expect : Nat := 0
  /-- transactions waiting to be sent -/
  queue : List Trans := []
  /-- the replay buffer, oldest first -/
  replay : List Flit := []
  /-- flits on the wire, oldest first -/
  wire : List Flit := []
  /-- the number the receiver asks to be replayed from -/
  resend : Option Nat := none
  /-- the cycles until the replay asked for arrives -/
  again : Nat := 0
  /-- acknowledgements under way: the number, and the cycle it reaches the transmitter in -/
  acks : List (Nat × Nat) := []
  /-- the first cycle in which the direction can take a flit -/
  free : Nat := 0
  /-- whether the module runs at x32 -/
  half : Bool := false
  training : Bool := false
  deriving DecidableEq, Repr

/-- An entry in use of a slice's outstanding table for requests to the other die (R392, R396). -/
structure OutEntry where
  tag : Nat
  req : Nat
  /-- whether its response has come -/
  done : Bool
  deriving DecidableEq, Repr

/-- An executed request in a far slice's duplicate filter (R392). -/
structure DupEntry where
  tag : Nat
  value : Nat
  deriving DecidableEq, Repr

end Sys2Proof.Machine
end

