-- ==== Sys2Proof/Machine/World.lean ====
section
/-!
DEFINITION. Partitions, queues, launches, meetings, streams, saved contexts and the start page: state beyond the clusters.
-/

namespace Sys2Proof.Machine

/-! Partitions and launches (chapter 18). -/

/-- A rectangle of clusters on one die (Table 18-4). -/
structure Rect where
  x0 : Nat
  y0 : Nat
  x1 : Nat
  y1 : Nat
  deriving DecidableEq, Repr

/-- A registered launch record (Table 18-1, R299). -/
structure Template where
  entry : Word
  amend : Word
  gangs : Nat
  /-- gang size -/
  size : Nat
  prio : Nat
  steal : Bool
  dataflow : Bool
  preload : Bool
  priv : Nat
  /-- images of the entry lines, with PRELOAD -/
  lineE : Option (BitVec 512)
  lineA : Option (BitVec 512)
  deriving DecidableEq, Repr

/-- A partition reset in progress (R378). -/
structure PartReset where
  t0 : Nat
  /-- the cycle of the freeze -/
  t1 : Option Nat
  /-- the PART_RESET commands that wait for it: queue, position -/
  cmds : List (Nat × Nat)
  deriving DecidableEq, Repr

/-- A partition (Tables 18-6 and 19-1, R317). -/
structure Part where
  /-- whether it exists -/
  live : Bool := false
  rect0 : Option Rect := none
  rect1 : Option Rect := none
  /-- AGESTEP, in microseconds -/
  agestep : Nat := 100
  /-- PMAX, in units of 64 bytes -/
  pmax : Nat := 0x80
  dtvec : BitVec 56 := 0
  dacctbase : BitVec 56 := 0
  dacctctl : BitVec 32 := 0
  /-- RSTCTL: GRACE (R378) -/
  rstctl : BitVec 24 := 0
  /-- PROCTAB, CTXSAVE, CLSAVE: physical bases (Table 19-1) -/
  proctab : Nat := 0
  ctxsave : Nat := 0
  clsave : Nat := 0
  xlva : Word := 0
  xlinv : Word := 0
  /-- granted physical ranges, base and size (R388) -/
  grants : List (Nat × Nat) := []
  /-- the template table -/
  tmpl : Tab (Option Template) := []
  /-- the next launch id (R300) -/
  nextLid : Nat := 1
  /-- the spanning gang that holds the placement token: launch, gang (R314) -/
  token : Option (Nat × Nat) := none
  /-- slots reserved for it: member, slot -/
  reserved : List (Nat × Nat) := []
  reset : Option PartReset := none
  deriving DecidableEq, Repr

/-- Where a launch came from. -/
inductive Origin where
  /-- a LAUNCH command: its tag -/
  | command (ctag : Nat)
  /-- a LAUNCH instruction: the launcher's core, the number of its request, the launcher's launch id and GANG -/
  | word (ci req lid gang : Nat)
  /-- a firing or amend launch of a window -/
  | window (stream w : Nat) (amend : Bool)
  deriving DecidableEq, Repr

/-- A lane of a window launch (R340, R343): lane, the words of its list, the revision to publish. -/
structure Lane where
  lane : Nat
  words : List Word
  revision : Nat
  deriving DecidableEq, Repr

/-- A TEND of a launch's task (R316): gang, member, cluster, cycle. -/
structure TaskEnd where
  gang : Nat
  member : Nat
  cl : Nat
  at_ : Nat
  deriving DecidableEq, Repr

/-- A launch (R297, R306). -/
structure Launch where
  part : Nat
  lid : Nat
  queue : Nat
  origin : Origin
  /-- template index -/
  tix : Nat
  /-- the template, taken at dispatch (R299) -/
  tmpl : Option Template := none
  /-- gangs; 0 takes the template's count -/
  gangs : Nat
  args : List Word
  /-- PRIO where PSET = 1 -/
  prio : Option Nat
  pid : BitVec 16
  /-- the cycle it reached its queue -/
  arrived : Nat
  /-- the cycle it became its queue's oldest undispatched launch -/
  oldest : Option Nat := none
  /-- the effective priority LAUNCH_AGING last gave it (R306) -/
  aged : Nat := 0
  active : Bool := false
  /-- gangs handed to the pools, under DEAL -/
  next : Nat := 0
  /-- tasks of the gang `next` that are in the pools already (R315) -/
  pooled : Nat := 0
  /-- tasks ended -/
  ends : List TaskEnd := []
  /-- placement stopped by PREEMPT (R315) -/
  stopped : Bool := false
  lanes : List Lane := []
  deriving DecidableEq, Repr

/-- A fetched command that is not done (R304). -/
structure Cmd where
  n : Nat
  w : BitVec 512
  /-- the cycle it was fetched -/
  at_ : Nat
  started : Bool
  deriving DecidableEq, Repr

/-- A completion record to be written (R305). -/
structure Done where
  ctag : Nat
  code : Nat
  status : Nat
  word1 : Nat
  deriving DecidableEq, Repr

/-- A queue (Table 18-2). -/
structure Queue where
  qbase : Word := 0
  owner : Option Nat := none
  dprio : Nat := 0
  log2n : Nat := 4
  en : Bool := false
  qpidx : Nat := 0
  qcidx : Nat := 0
  cqbase : Word := 0
  cqwidx : Nat := 0
  cqlog2n : Nat := 4
  cqridx : Nat := 0
  qpid : BitVec 16 := 0
  /-- commands fetched and not done, in order -/
  cmds : List Cmd := []
  /-- completions in the order they came about -/
  dones : List Done := []
  deriving DecidableEq, Repr

/-! Meetings (chapter 13). -/

/-- What a notice or an arrival carries (R217, R266). -/
structure Call where
  /-- the party's home slot -/
  sid : Nat
  /-- the number of its MEET or ROLL -/
  tok : Nat
  part : Nat
  pid : BitVec 16
  key : Word
  /-- quorum, operation and word of a ROLL -/
  q : Nat
  op : Nat
  word : Word
  /-- whether MEETTO is 0 -/
  zero : Bool
  deriving DecidableEq, Repr

/-- What a directory entry holds (R257). -/
inductive DirBody where
  | notice (c : Call)
  /-- a roll call in progress: quorum, operation, arrivals in order -/
  | roll (q op : Nat) (arrs : List Call)
  deriving DecidableEq, Repr

/-- A directory entry in use. -/
structure DirEntry where
  part : Nat
  pid : BitVec 16
  key : Word
  body : DirBody
  deriving DecidableEq, Repr

/-- A pair record: the first and the second arriver, and the meeting's taint (R257). -/
structure PairRec where
  a : Call
  b : Call
  taint : Nat
  /-- the cycle of the pairing, from which retries count -/
  at_ : Nat
  deriving DecidableEq, Repr

/-- A completed roll call whose arrival records are kept until its horizon (R365). -/
structure RollKept where
  entry : DirEntry
  taint : Nat
  deriving DecidableEq, Repr

/-- The post office of a cluster. -/
structure Post where
  /-- entries 0 to 15 -/
  entries : Tab (Option DirEntry) := []
  /-- pair records, in the order of their pairings -/
  pairs : List PairRec := []
  kept : List RollKept := []
  deriving DecidableEq, Repr

/-- A taint (R363): its contributing clusters, its horizon once known, its parties. -/
structure Taint where
  clusters : List Nat := []
  horizon : Option Nat := none
  roll : Bool := false
  key : Word := 0
  parties : List Snap := []
  deriving DecidableEq, Repr

/-- What a message between clusters carries (R261). -/
inductive MsgBody where
  /-- luggage going home after PART: the visitor's state, its parcel bytes (R221); the visitor slot it left -/
  | luggage (home : Nat) (c : Ctx) (parcel : Nat) (from_ : Nat)
  /-- a tile of subscription `sub` on its way to a receiving core (R208) -/
  | tile (sub ci value : Nat)
  /-- a notice, to its directory cluster (R217) -/
  | notice (dir : Nat) (c : Call)
  /-- a roll-call arrival (R266) -/
  | arrival (dir : Nat) (c : Call)
  /-- a withdrawal (R265) -/
  | withdrawal (dir : Nat) (c : Call)
  /-- the directory's answer: 1 DEAD, 2 FULL, 3 CLOSING, 4 MEET_MISMATCH (R217, R224) -/
  | answer (sid tok code : Nat)
  /-- a departure order: the meeting cluster, the visitor slot or none in place, the partner's slot there, the taint (R260) -/
  | order (sid tok place : Nat) (vslot : Option Nat) (partner taint : Nat)
  /-- an envelope with its luggage, to a visitor slot (R217) -/
  | envelope (vslot : Nat) (c : Ctx) (parcel : Nat)
  /-- the release of a roll call: the combined word, the taint (R266) -/
  | release (sid tok : Nat) (w : Word) (taint : Nat)
  /-- a steal request of cluster `thief`, and a victim's answer (R313) -/
  | steal (part lid thief victim : Nat)
  | stolen (part lid thief : Nat) (range : Option (Nat × Nat))
  deriving DecidableEq, Repr

/-- A message under way. -/
structure Msg where
  id : Nat
  /-- the cycle it arrives -/
  at_ : Nat
  body : MsgBody
  deriving DecidableEq, Repr

/-! Streams (chapter 20). -/

/-- A binding record as the stream unit holds it (Table 20-1). -/
structure Binding where
  queue : Nat
  pid : BitVec 16
  tmpl : Nat
  /-- key lanes and sources -/
  lanes : Nat
  nsrc : Nat
  sliding : Bool
  devmask : Word
  origin : Nat
  size : Nat
  slide : Nat
  late : Nat
  out : Word
  dead : Word
  ing : Word
  state : Word
  recs : Word
  outLog : Nat
  deadLog : Nat
  ingLog : Nat
  wsLog : Nat
  bufLog : Nat
  down : Nat
  downsrc : Nat
  /-- T_idle in cycles -/
  idle : Nat
  deriving DecidableEq, Repr

/-- A source of a stream (R336). -/
structure Source where
  wm : Nat := 0
  active : Bool := true
  /-- records consumed -/
  cons : Nat := 0
  /-- the cycle of its last heartbeat -/
  beat : Nat := 0
  deriving DecidableEq, Repr

/-- A record held in a stream's buffer (R334). -/
structure SRec where
  id : Nat
  words : List Word
  deriving DecidableEq, Repr

/-- An input of a stream that its unit has not taken yet; an EMIT or WMK with the launch of its task, none for a mark of another stream. -/
inductive SIn where
  | record (src : Nat) (words : List Word) (lid : Option Nat)
  | mark (src value : Nat) (lid : Option Nat)
  /-- a SOURCE_MARK command of a queue: the records up to PIDX, then the watermark if there is one -/
  | host (src pidx : Nat) (value : Option Nat) (q n : Nat)
  deriving DecidableEq, Repr

/-- The launch whose task made an input. -/
def SIn.launch : SIn → Option Nat
  | .record _ _ l => l
  | .mark _ _ l => l
  | .host _ _ _ _ _ => none

/-- Whether an input is the mark of a command. -/
def SIn.isHost : SIn → Bool
  | .host _ _ _ _ _ => true
  | _ => false

/-- How far the firing of a window has come. -/
inductive Firing where
  /-- not fired -/
  | open_
  /-- fired, to be launched -/
  | due
  | running (lid : Nat)
  | complete
  deriving DecidableEq, Repr

/-- A window with records (R339). -/
structure Win where
  w : Nat
  firing : Firing
  /-- record lists and late lists by lane: record numbers in arrival order -/
  lists : List (Nat × List Nat)
  late : List (Nat × List Nat)
  /-- every record that joined it -/
  joined : List Nat
  /-- the amend launch that is active -/
  amend : Option Nat
  /-- the last published revision, by lane -/
  revs : Tab Nat
  deriving DecidableEq, Repr

/-- A publication that waits in the unit (R342). -/
structure Pub where
  w : Nat
  lane : Nat
  revision : Nat
  amend : Bool
  value : Nat
  lid : Nat
  deriving DecidableEq, Repr

/-- A stream (R331, R332). -/
structure Stream where
  bound : Option Binding := none
  srcs : Tab Source := []
  wmark : Nat := 0
  owmark : Nat := 0
  nlate : Nat := 0
  ndead : Nat := 0
  /-- windows with records, by rising number -/
  wins : List Win := []
  recs : List SRec := []
  inq : List SIn := []
  pubs : List Pub := []
  /-- the BIND_STREAM command that unbinds it: queue, position -/
  unbind : Option (Nat × Nat) := none
  /-- the cycles of the last input taken and of the last firing launch (R335, R355) -/
  takenAt : Option Nat := none
  firedAt : Option Nat := none
  /-- by state slot, one more than the window that last published there (R353) -/
  published : Tab Nat := []
  deriving DecidableEq, Repr

/-! Saved contexts (R328 to R330). -/

/-- A context that is being saved, is saved out or is being restored. -/
structure Saved where
  n : Nat
  part : Nat
  lid : Nat
  sid : Nat
  /-- the context as it was at the cut; the deadline of a parked one is the time it had left -/
  ctx : Ctx
  /-- its inbox entries, whose places stay reserved -/
  inbox : List InboxEntry
  /-- whether it owned the matrix state -/
  owner : Bool
  /-- the physical base of its block -/
  block : Nat
  /-- the physical base of the cluster image that its restoration needs -/
  image : Option Nat
  /-- the cycle at which that image was restored -/
  imaged : Option Nat := none
  /-- while it is saved, the lines still to be put into the restante buffer: physical address, value; while it is restored, the lines
  still to be copied: scratchpad offset, physical address -/
  todo : List (Nat × Nat)
  /-- the cycle of the cut -/
  at_ : Nat
  /-- the cycle its save ended; none while it is being saved -/
  ended : Option Nat
  /-- whether it may be restored: by RESUME or after a YIELD -/
  eligible : Bool
  /-- whether a YIELD saved it -/
  yielded : Bool
  restoring : Bool
  /-- the cycle its restoration ended; it is kept while a rollback may need it (R360) -/
  back : Option Nat
  /-- the cycle of its last rewind to a snapshot while it was saved out (R364) -/
  rewound : Option Nat := none
  deriving DecidableEq, Repr

/-- A message of the boundary routers of a partition that resets, to a sender outside (R379). -/
inductive Nack where
  /-- a slice's response -/
  | response (req : Nat)
  /-- a loader's tile -/
  | loader (sub : Nat)
  /-- a record port's refill -/
  | port (sid : Nat)
  deriving DecidableEq, Repr

/-! The start page (Tables 26-1 and 25-5). -/

/-- The start page, the firmware versions and the reset causes. -/
structure Boot where
  /-- the stage reached; 0 until the first cycle after the release of reset ends (Table 26-1) -/
  stage : Nat := 0
  /-- the cycle the stage began -/
  since : Nat := 0
  ready : Bool := false
  minimal : Bool := false
  fails : Nat := 0
  reason : Nat := 0
  /-- halted at its stage until a new image comes (R385, R386) -/
  halted : Bool := false
  featacc : BitVec 128 := 0
  rej : Bool := false
  cfm : Bool := false
  dbghalt : BitVec 32 := 0
  /-- the cluster that runs on each die in minimal mode -/
  minClusters : List Nat := []
  monVersion : BitVec 32 := 0
  svcVersion : BitVec 32 := 0
  minVersion : BitVec 32 := 0
  /-- the next one-time index of the identity key (R387) -/
  attIndex : Nat := 0
  /-- the attestations released since the reset, oldest first: index, nonce, the signature's 9,732 bytes -/
  attested : List (Nat × BitVec 256 × BitVec 77856) := []
  cause : Nat := 1
  prev : Nat := 0
  deriving DecidableEq, Repr

end Sys2Proof.Machine
end

