-- ==== Sys2Proof/Machine/State.lean ====
section
/-!
DEFINITION. The state of the package, its faults and refusals, and the state after reset.
-/

namespace Sys2Proof.Machine

/-- Why the machine stops. No word and no step of the P9X stops it (Table 19-3 traps instead), so no meaning raises these. -/
inductive Fault where
  /-- Raised by no meaning: the spec names no behaviour that stops the part. Safe: a stop proves nothing false. -/
  | stopped
  deriving DecidableEq, Repr

/-- Why an instruction has no meaning. -/
inductive Refusal where
  /-- Raised by a dispatch arm whose instruction has no meaning yet; no arm does so. Safe: a refusal proves nothing false. -/
  | notModelled (mnemonic : String)
  deriving DecidableEq, Repr

/-- A move chosen from outside the machine: which context issues next, which step of another agent happens, or what the monitor, the service firmware or
the management path does that is no row of the table. -/
inductive Move where
  | issue (sid : Nat)
  | event (i : Instr)
  /-- the monitor gives a partition its grant list: base and size of its ranges (R388) -/
  | grant (p : Nat) (ranges : List (Nat × Nat))
  /-- the service firmware writes a register, in the name of a partition (R388) -/
  | service (p off : Nat) (v : Word)
  /-- the management path reads a word of a record of a die's infrastructure bank (R370) -/
  | infraRecord (die n word : Nat)
  /-- the management path reads a word of the infrastructure page (R382) -/
  | infraPage (off : Nat)
  /-- the management path clears a record of a die's infrastructure bank (R373) -/
  | infraClear (die n : Nat)
  deriving DecidableEq, Repr

/-- The package. -/
structure State where
  /-- context slots: slot l of cluster cl is 10 * cl + l -/
  ctxs : Tab Ctx := []
  /-- cores: core c of cluster cl is 4 * cl + c -/
  cores : Tab CoreSt := []
  clus : Tab Cluster := []
  /-- HBM, by physical address (R394) -/
  mem : Memory := []
  /-- host-window bytes, by host physical address (R284) -/
  hostMem : Memory := []
  /-- memory requests, in issue order -/
  reqs : List Req := []
  /-- partitions 0 to 31 -/
  parts : Tab Part := []
  /-- translations cached in the stations, by station (R318) -/
  stations : Tab (List Xlat) := []
  /-- taints (R363), by number -/
  taintTab : Tab Taint := []
  /-- run records awaiting their write, oldest first (R70) -/
  acctq : List AcctRec := []
  /-- far copies (R127) -/
  farCopies : List FarCopy := []
  /-- poisoned 64-byte lines of HBM, by number (R376) -/
  poison : List Nat := []
  /-- race-trace registers: slice n of die d is 32 d + n (R279) -/
  traces : Tab RaceTrace := []
  /-- error banks: partition p on die d is 32 d + p; the infrastructure bank of die d is 64 + d (R370) -/
  banks : Tab ErrBank := []
  /-- link directions: module n of the die link towards die d is 2 n + d; module n of the host link is 16 + 2 n and up (R391) -/
  links : Tab LinkDir := []
  /-- outstanding entries of the slices (R392) -/
  outs : List OutEntry := []
  /-- generations by slice and entry: 8192 * die + 256 * slice + entry (R396) -/
  gens : Tab Nat := []
  /-- the duplicate filters, by tag (R392) -/
  dups : List DupEntry := []
  /-- transactions that have arrived and are not yet taken: requests, responses -/
  arrived : List Trans := []
  /-- acknowledgements of responses under way, by tag (R392) -/
  respAcks : List Nat := []
  /-- invalidations of far copies under way (R127) -/
  invals : List Inval := []
  /-- subscriptions at their loaders (R208) -/
  subs : List Sub := []
  /-- drains at their storers (R210) -/
  drains : List Drain := []
  /-- engine deliveries whose tag credit is still to be made (R193) -/
  credits : List Credit := []
  /-- messages under way between clusters (R261) -/
  net : List Msg := []
  /-- queues 0 to 8191, and the monitor queue as 8192 (R301) -/
  queues : Tab Queue := []
  /-- launches, in order of arrival at their queues -/
  launches : List Launch := []
  /-- stream n of partition p is 64 p + n (R331) -/
  streams : Tab Stream := []
  /-- post offices by cluster (R256) -/
  posts : Tab Post := []
  /-- snapshots of parties whose meeting or roll call is not made yet (R217) -/
  snaps : List Snap := []
  /-- contexts saved out (R328) -/
  saved : List Saved := []
  /-- negative acknowledgements under way, by number (R379) -/
  nacks : List (Nat × Nack) := []
  /-- answers of atomics kept for a rollback: request, value, cycle (R360) -/
  answers : List (Nat × Word × Nat) := []
  /-- deferred faults kept for a rollback: slot, cycle, record -/
  faultLog : List (Nat × Nat × FaultRecord) := []
  /-- KIND 8 entries kept for a rollback: core, cycle, entry (R360) -/
  entryLog : List (Nat × Nat × InboxEntry) := []
  boot : Boot := {}
  /-- FUSEMAP: row r of die d is 48 d + r (R309) -/
  fuse : Tab Word := []
  /-- the host's last read: address, value (R390) -/
  hostRead : Option (Nat × Word) := none
  /-- the answer to the last read on the management path (R370, R382) -/
  mgmtRead : Option Word := none
  /-- the timebase (R383), unbounded; its low 64 bits are what registers show -/
  now : Nat := 0
  /-- MODEL'S OWN (log 3): the context whose instruction runs -/
  cur : Nat := 0
  /-- the issues of the cycle that runs: core, slot, PC (R63) -/
  served : List (Nat × Nat × BitVec 56) := []
  /-- the contexts that were ready in the cycle that runs when their core issued another (R67) -/
  lost : List Nat := []
  /-- lines that engines wait for at the ports of the slices (R278) -/
  owed : List Owed := []
  /-- the 64-byte lines that the slices' ports have accepted a request for in the cycle that runs (R278) -/
  taken : List Nat := []
  /-- MODEL'S OWN (log 3): moves chosen from outside -/
  agenda : List Move := []
  /-- MODEL'S OWN (log 3): counter of free values -/
  free : Nat := 0
  /-- MODEL'S OWN (log 3): the next request number -/
  nextId : Nat := 0
  deriving DecidableEq, Repr

/-- The machine right after package reset. -/
def State.reset : State := {}

end Sys2Proof.Machine
end

