-- ==== Sys2Proof/Machine/Ops.lean ====
section
/-!
DEFINITION. Named operations over the state: slots, registers, memory, translation, held outputs, taking a trap and the return.
-/

namespace Sys2Proof.Machine

/-- What a meaning answers. -/
abbrev Out := Host.Outcome State Fault Refusal

/-! Slots, cores and clusters. Slot l of cluster cl is number 10 cl + l: 0 to 7 are the resident slots in the order of R116, 8 is V0,
9 is V1. Core c of cluster cl is number 4 cl + c. Cluster (cx, cy) of a die is number 576 die + 24 cy + cx. -/

/-- The cluster of a slot. -/
def slotCluster (sid : Nat) : Nat := sid / 10
/-- The place of a slot in its cluster. -/
def slotLocal (sid : Nat) : Nat := sid % 10
/-- Whether a slot is a visitor slot. -/
def isVisitor (sid : Nat) : Bool := decide (8 ≤ sid % 10)
/-- The core that hosts a slot: V0 on core 0, V1 on core 1 (R263). -/
def slotCore (sid : Nat) : Nat := 4 * (sid / 10) + (if sid % 10 < 8 then sid % 10 / 2 else sid % 10 - 8)
/-- STATUS.SLOT of a slot (Table 01-4). -/
def slotCode (sid : Nat) : Nat := if sid % 10 < 8 then sid % 2 else sid % 10 - 6
/-- The inbox tag of a slot: 0, 1 or V (R9). -/
def slotTag (sid : Nat) : Nat := Nat.min (slotCode sid) 2
/-- The die of a cluster. -/
def clusterDie (cl : Nat) : Nat := cl / Config.clustersPerDie
/-- The column of a cluster. -/
def clusterX (cl : Nat) : Nat := cl % Config.clustersPerDie % Config.clustersPerRow
/-- The row of a cluster. -/
def clusterY (cl : Nat) : Nat := cl % Config.clustersPerDie / Config.clustersPerRow
/-- The cluster at a column and row of a die. -/
def clusterAt (die x y : Nat) : Nat := die * Config.clustersPerDie + y * Config.clustersPerRow + x
/-- The cluster of a core. -/
def coreCluster (ci : Nat) : Nat := ci / 4
/-- The slots whose contexts a core issues: its two residents, and V0 on core 0 or V1 on core 1. -/
def coreSlots (ci : Nat) : List Nat :=
  let b := 10 * (ci / 4)
  let c := ci % 4
  [b + 2 * c, b + 2 * c + 1] ++ (if c < 2 then [b + 8 + c] else [])
/-- The ten slots of a cluster in the order of R116. -/
def clusterSlots (cl : Nat) : List Nat := (List.range 10).map fun l => 10 * cl + l
/-- Column and row of a core in the grid of cores of a die (R3). -/
def corePhysical (ci : Nat) : Nat :=
  let cl := ci / 4
  let c := ci % 4
  clusterDie cl * Config.coresPerDie + (2 * clusterY cl + c / 2) * 48 + 2 * clusterX cl + c % 2

/-! Parts of the state. -/

/-- The context of a slot. -/
def State.ctx (s : State) (sid : Nat) : Ctx := Tab.get {} s.ctxs sid
/-- The state with a slot's context changed. -/
def State.modCtx (s : State) (sid : Nat) (f : Ctx → Ctx) : State := { s with ctxs := Tab.set {} s.ctxs sid (f (s.ctx sid)) }
/-- The context whose instruction runs. -/
def State.me (s : State) : Ctx := s.ctx s.cur
/-- The state with the running context changed. -/
def State.upd (s : State) (f : Ctx → Ctx) : State := s.modCtx s.cur f
/-- Contexts saved out, being saved or being restored. -/
def State.savedOut (s : State) : List Saved := s.saved.filter fun v => v.back.isNone
/-- The number from which contexts that are saved out are named in what they left behind: context `n` is slot `savedBase + n`. -/
def savedBase : Nat := 20000
/-- The context that a slot number names, one that is saved out among them. -/
def State.holder (s : State) (sid : Nat) : Ctx :=
  if sid < savedBase then s.ctx sid
  else match s.saved.find? fun v => savedBase + v.n == sid with
    | some v => v.ctx
    | none => {}
/-- That context changed. -/
def State.modHolder (s : State) (sid : Nat) (f : Ctx → Ctx) : State :=
  if sid < savedBase then s.modCtx sid f
  else { s with saved := s.saved.map fun v => if savedBase + v.n = sid then { v with ctx := f v.ctx } else v }
/-- The slot that a slot number names. -/
def State.slotOf (s : State) (sid : Nat) : Nat :=
  if sid < savedBase then sid
  else match s.saved.find? fun v => savedBase + v.n == sid with
    | some v => v.sid
    | none => 0
/-- Whether lines of a context's save are still to be performed. -/
def State.saving (s : State) (v : Saved) : Bool := s.reqs.any fun r => r.sid == savedBase + v.n && match r.kind with
  | .save => true
  | _ => false
/-- Whether a context waits for the rest of its gang to be restored on its home cluster, at a meeting too (R351). A member that a YIELD saved is waited for
only where a PREEMPT has named it since. -/
def State.gangHeld (s : State) (sid : Nat) : Bool :=
  let c := s.ctx sid
  s.savedOut.any fun v => v.eligible && !v.yielded && v.sid / 10 == (if sid % 10 < 8 then sid else c.home) / 10 && v.part == c.part && v.ctx.launchId == c.launchId &&
    v.ctx.gang.extractLsb' 0 32 == c.gang.extractLsb' 0 32
/-- A core. -/
def State.core (s : State) (ci : Nat) : CoreSt := Tab.get {} s.cores ci
/-- The state with a core changed. -/
def State.modCore (s : State) (ci : Nat) (f : CoreSt → CoreSt) : State := { s with cores := Tab.set {} s.cores ci (f (s.core ci)) }
/-- The core of the running context. -/
def State.myCore (s : State) : CoreSt := s.core (slotCore s.cur)
/-- The state with the running context's core changed. -/
def State.updCore (s : State) (f : CoreSt → CoreSt) : State := s.modCore (slotCore s.cur) f
/-- A cluster. -/
def State.clu (s : State) (cl : Nat) : Cluster := Tab.get {} s.clus cl
/-- The state with a cluster changed. -/
def State.modClu (s : State) (cl : Nat) (f : Cluster → Cluster) : State := { s with clus := Tab.set {} s.clus cl (f (s.clu cl)) }
/-- A partition. -/
def State.part (s : State) (p : Nat) : Part := Tab.get {} s.parts p
/-- The state with a partition changed. -/
def State.modPart (s : State) (p : Nat) (f : Part → Part) : State := { s with parts := Tab.set {} s.parts p (f (s.part p)) }

/-! Partitions, harvest and logical cores (R309, R310, R317). -/

/-- Whether a rectangle holds a cluster's column and row. -/
def Rect.has (r : Rect) (x y : Nat) : Bool := decide (r.x0 ≤ x ∧ x ≤ r.x1 ∧ r.y0 ≤ y ∧ y ≤ r.y1)

/-- The rectangle of a partition on a die. -/
def Part.rect (p : Part) (die : Nat) : Option Rect := if die = 0 then p.rect0 else p.rect1

/-- Whether a partition holds a cluster. -/
def Part.holds (p : Part) (cl : Nat) : Bool :=
  p.live && match p.rect (clusterDie cl) with
    | some r => r.has (clusterX cl) (clusterY cl)
    | none => false

/-- The partition a cluster belongs to (R317). -/
def State.partOfCluster (s : State) (cl : Nat) : Option Nat := (List.range 32).find? fun p => (s.part p).holds cl

/-- The clusters of a partition, by die, then row, then column. -/
def Part.clusters (p : Part) : List Nat :=
  if !p.live then []
  else [0, 1].flatMap fun die => match p.rect die with
    | none => []
    | some r => (List.range (r.y1 + 1 - r.y0)).flatMap fun y => (List.range (r.x1 + 1 - r.x0)).map fun x => clusterAt die (r.x0 + x) (r.y0 + y)

/-- The core at a column and row of a die's grid of cores (R3). -/
def coreAt (die col row : Nat) : Nat := 4 * clusterAt die (col / 2) (row / 2) + 2 * (row % 2) + col % 2

/-- Whether a core is fused off (R309). -/
def State.fusedOff (s : State) (ci : Nat) : Bool :=
  let cl := coreCluster ci
  (Tab.get 0 s.fuse (48 * clusterDie cl + 2 * clusterY cl + ci % 4 / 2)).toNat.testBit (2 * clusterX cl + ci % 2)

/-- The live cores of a cluster. -/
def State.liveCores (s : State) (cl : Nat) : List Nat := ((List.range 4).map fun c => 4 * cl + c).filter fun ci => !s.fusedOff ci

/-- The logical cores of a partition, in the order of R310. -/
def State.logicalCores (s : State) (p : Nat) : List Nat :=
  if !(s.part p).live then []
  else [0, 1].flatMap fun die => match (s.part p).rect die with
    | none => []
    | some r => ((List.range (2 * (r.y1 + 1 - r.y0))).flatMap fun y => (List.range (2 * (r.x1 + 1 - r.x0))).map fun x =>
        coreAt die (2 * r.x0 + x) (2 * r.y0 + y)).filter fun ci => !s.fusedOff ci

/-- LCORE: the number of a core among its partition's cores (R310). -/
def State.logicalCore (s : State) (p ci : Nat) : Nat := (s.logicalCores p).idxOf ci

/-- Whether an offered feature is in force (R389). -/
def State.feature (s : State) (n : Nat) : Bool := s.boot.cfm && s.boot.featacc.toNat.testBit n

/-! Registers (R6). -/

/-- A scalar register: x0 reads as zero. -/
def Ctx.rx (c : Ctx) (n : BitVec 5) : Word := if n = 0 then 0 else c.x[n.toNat]'n.isLt

/-- A scalar register written by the instruction that issued at a `serial`: a write to x0 is discarded. At a meeting the partner's PEER may
read it (R219). -/
def Ctx.wxAt (c : Ctx) (ser : Nat) (n : BitVec 5) (v : Word) : Ctx :=
  if n = 0 then c
  else { c with x := c.x.set n.toNat v n.isLt, meet := c.meet.map fun m => { m with hist := m.hist ++ [(n.toNat, ser, v)] } }

/-- A scalar register written by the instruction that issues now. -/
def Ctx.wx (c : Ctx) (n : BitVec 5) (v : Word) : Ctx := c.wxAt c.serial n v

/-- A vector register. -/
def Ctx.rv (c : Ctx) (n : BitVec 4) : VReg := c.v[n.toNat]'n.isLt
/-- A vector register written. -/
def Ctx.wv (c : Ctx) (n : BitVec 4) (r : VReg) : Ctx := { c with v := c.v.set n.toNat r n.isLt }
/-- A mask register's stored bits. -/
def Ctx.rk (c : Ctx) (n : BitVec 3) : KReg := c.k[n.toNat]'n.isLt
/-- A mask register written. -/
def Ctx.wk (c : Ctx) (n : BitVec 3) (r : KReg) : Ctx := { c with k := c.k.set n.toNat r n.isLt }

/-- CYCLE: the sum of the counters (R15), modulo 2^48. -/
def Ctx.cycle (c : Ctx) : BitVec 48 := c.acct.toList.foldl (· + ·) 0

/-- A cycle charged to a cause (R67). -/
def Ctx.charged (c : Ctx) (k : Cause) (n : Nat) : Ctx :=
  { c with acct := c.acct.set k.code.val (c.acct[k.code.val]'k.code.isLt + BitVec.ofNat 48 n) k.code.isLt }

/-- The next instruction's address. -/
def Ctx.next (c : Ctx) : BitVec 56 := c.pc + 4

/-- The current context goes on at the next instruction. -/
def State.adv (s : State) : State := s.upd fun c => { c with pc := c.pc + 4 }

/-- An address as a 64-bit value. -/
def pcWord (pc : BitVec 56) : Word := pc.zeroExtend 64

/-! Waiting, trapping, going on. -/

/-- What the body of an instruction's meaning answers. -/
inductive Res where
  /-- it is performed -/
  | ok (s : State)
  /-- it does not issue in this cycle; the cause is charged (R65) -/
  | wait (k : Cause)
  /-- it does not issue, though something changed; the cause is charged -/
  | hold (s : State) (k : Cause)
  /-- it traps precisely, with TVAL -/
  | trap (t : Trap) (tval : Word)
  deriving DecidableEq, Repr

/-! Time and travel. -/

/-- Travel time of `L` bytes between clusters (R261). -/
def travelTime (src dst L : Nat) : Nat :=
  let dx := (clusterX src - clusterX dst) + (clusterX dst - clusterX src)
  let dy := (clusterY src - clusterY dst) + (clusterY dst - clusterY src)
  let d := if clusterDie src = clusterDie dst then 0 else 1
  8 + 3 * (dx % 4 + dy) + 4 * (dx / 4) + 48 * d + ceilDiv L 32

/-- The cycle at which an output made in cycle `n` is released (R361). -/
def releaseTime (n : Nat) : Nat := n / Config.interval * Config.interval + Config.releaseDelay

/-- A message put under way. -/
def State.send (s : State) (at_ : Nat) (b : MsgBody) : State :=
  { s with net := s.net ++ [{ id := s.nextId, at_ := at_, body := b }], nextId := s.nextId + 1 }

/-! Scratchpad bytes, with the undo copies of R358. -/

/-- The key of a visitor slot's parcel buffer in `Cluster.spad` (R263). DESIGN CHOICE (log 25): bank 0 of V0's buffer holds its first line, bank 16 of V1's
buffer holds its first line; the trace of chapter 16 has the two parties' accesses to their parcels fall in different banks. -/
def parcelKey (v : Nat) : Nat := 0x100000 + v * 0x2100

/-- The 16-byte lines a range of bytes touches. -/
def linesOf (off size : Nat) : List Nat := (List.range (ceilDiv (off % 16 + size) 16)).map fun i => off / 16 + i

/-- The undo copies a write of a range needs in the current interval: the scratchpad lines not yet copied (R358). The parcel buffers are no scratchpad
lines: a rollback rewinds the parties of a meeting to their snapshots (R364). -/
def undoNeeds (c : Cluster) (now off size : Nat) : List Nat :=
  (linesOf off size).filter fun l => decide (l < Config.spadBytes / 16) && !c.undo.any fun u => u.interval == now / Config.interval && u.line == l

/-- Whether a write of a range finds undo memory full (R358). -/
def State.undoFull (s : State) (cl off size : Nat) : Bool :=
  let c := s.clu cl
  decide (Config.undoEntries < c.undo.length + (undoNeeds c s.now off size).length)

/-- Scratchpad bytes written after their lines are copied to undo memory (R116, R358). -/
def Cluster.store (c : Cluster) (now off size v be : Nat) : Cluster :=
  let copies := (undoNeeds c now off size).map fun l =>
    { interval := now / Config.interval, line := l, old := BitVec.ofNat 128 (Memory.readN c.spad (16 * l) 16) }
  { c with undo := c.undo ++ copies, spad := Memory.writeMasked c.spad off v be size }

/-- All bytes enabled. -/
def allBytes (n : Nat) : Nat := 2 ^ n - 1

/-- Scratchpad bytes of a cluster written. -/
def State.spadWrite (s : State) (cl off size v : Nat) : State := s.modClu cl fun c => c.store s.now off size v (allBytes size)
/-- Scratchpad bytes of a cluster read. -/
def State.spadRead (s : State) (cl off size : Nat) : Nat := Memory.readN (s.clu cl).spad off size

/-! Physical memory: an address at or above 2^48 is a host-window byte (KIND 1 of Table 19-2). -/

/-- The mark of a host-window address. -/
def hostBase : Nat := 2 ^ 48

/-- Physical bytes read. -/
def State.physRead (s : State) (pa n : Nat) : Nat :=
  if pa < hostBase then Memory.readN s.mem pa n else Memory.readN s.hostMem (pa - hostBase) n
/-- Physical bytes written under byte enables. -/
def State.physWrite (s : State) (pa n v be : Nat) : State :=
  if pa < hostBase then { s with mem := Memory.writeMasked s.mem pa v be n }
  else { s with hostMem := Memory.writeMasked s.hostMem (pa - hostBase) v be n }

/-! Translation (R318 to R321). -/

/-- What an access needs of a leaf. -/
inductive Access where
  | read | write | atomic | fetch
  deriving DecidableEq, Repr

/-- Whether every byte from `b` to before `e` lies in one of the ranges, in at most `n` pieces. -/
def grantsCover (gs : List (Nat × Nat)) : Nat → Nat → Nat → Bool
  | 0, b, e => decide (e ≤ b)
  | n + 1, b, e =>
    if e ≤ b then true
    else match gs.find? fun g => decide (g.1 ≤ b ∧ b < g.1 + g.2) with
      | some g => grantsCover gs n (g.1 + g.2) e
      | none => false

/-- The ranges of a grant list: 64 at most (R388). -/
def grantRanges : Nat := 64

/-- Whether no byte of a physical range lies outside the partition's grant ranges (R321, R388). -/
def Part.granted (p : Part) (base size : Nat) : Bool :=
  !p.grants.isEmpty && grantsCover (p.grants.take grantRanges) grantRanges base (base + size)

/-- Whether an entry has a reserved bit set (Table 19-2). -/
def entryReserved (e : Nat) : Bool := decide (bitsOf e 63 48 ≠ 0 ∨ bitsOf e 11 8 ≠ 0)

/-- Whether a leaf allows an access (R321). -/
def leafAllows (p : Part) (leaf bits : Nat) (a : Access) (mode : Bool) : Bool :=
  let er := leaf.testBit 2
  let w := leaf.testBit 3
  let x := leaf.testBit 4
  (match a with
   | .read => er
   | .write => w
   | .atomic => er && w
   | .fetch => x) &&
  (mode || leaf.testBit 5) &&
  p.granted (bitsOf leaf 47 12 * 4096 + (if bitsOf leaf 7 6 = 1 then hostBase else 0)) (2 ^ bits)

/-- Whether a process-table entry makes every access fault (R319). -/
def processBad (e : Nat) : Bool := !e.testBit 63 || decide (bitsOf e 62 48 ≠ 0 ∨ bitsOf e 11 0 ≠ 0)

/-- One level of a walk (R320, R321): the leaf and its page size, or the trap. `lvl` is the level of the table at `base`. -/
def walkFrom (s : State) (p : Part) (va : Nat) : Nat → Nat → Except Trap (Nat × Nat)
  | 0, base => walkEntry base 0
  | lvl + 1, base =>
    if !p.granted base 4096 then .error .accessFault
    else
      let e := s.physRead (base + 8 * (va / 2 ^ (12 + 9 * (lvl + 1)) % 512)) 8
      if !e.testBit 0 || entryReserved e then .error .translationFault
      else if e.testBit 1 then leafAt s e (lvl + 1)
      else walkFrom s p va lvl (bitsOf e 47 12 * 4096)
where
  /-- The entry of a level-0 table. -/
  walkEntry (base lvl : Nat) : Except Trap (Nat × Nat) :=
    if !p.granted base 4096 then .error .accessFault
    else
      let e := s.physRead (base + 8 * (va / 2 ^ 12 % 512)) 8
      if !e.testBit 0 || entryReserved e then .error .translationFault
      else if e.testBit 1 then leafAt s e lvl
      else .error .translationFault
  /-- A leaf at a level. -/
  leafAt (s : State) (e lvl : Nat) : Except Trap (Nat × Nat) :=
    if 3 ≤ lvl then .error .translationFault
    else
      let bits := 12 + 9 * lvl
      -- R394: an HBM leaf stays below bit 39
      -- R389: without host windows a KIND 1 leaf is as a reserved one
      if bitsOf e 47 12 * 4096 % 2 ^ bits ≠ 0 || decide (2 ≤ bitsOf e 7 6) || (decide (bitsOf e 7 6 = 1) && !s.feature 3) || (decide (bitsOf e 7 6 = 0) && decide (bitsOf e 47 39 ≠ 0)) then
        .error .translationFault
      else .ok (e, bits)

/-- A walk from the process table (R319). The root entries 0xF0 to 0xFF are never read (R320): DEDUCED (log 6), an address there, which an engine,
an account ring or a lookup of a REPF may form, has no valid root entry. -/
def State.walk (s : State) (part : Nat) (pid : BitVec 16) (va : Nat) : Except Trap (Nat × Nat) :=
  let p := s.part part
  let ea := p.proctab + 8 * pid.toNat
  if !p.granted ea 8 then .error .accessFault
  else if 0xF0 * 2 ^ 48 ≤ va then .error .translationFault
  else
    let e := s.physRead ea 8
    if processBad e then .error .translationFault
    else walkFrom s p va 4 (bitsOf e 47 12 * 4096)

/-- The number by which the queue and stream units, which no cluster holds, ask for a translation; DEDUCED (log 11): no station serves them. -/
def unitCluster : Nat := 2 * Config.clustersPerDie

/-- The station that serves a cluster (R318). -/
def stationOf (cl : Nat) : Nat :=
  8 * clusterDie cl + clusterX cl / 6 + (if clusterY cl < 12 then 0 else 4)

/-- The cached translation of an address, if the station holds one. -/
def State.cached (s : State) (st part : Nat) (pid : BitVec 16) (va : Nat) : Option Xlat :=
  (Tab.get [] s.stations st).find? fun x =>
    x.part == part && x.pid == pid && decide (x.va ≤ va ∧ va < x.va + 2 ^ x.bits)

/-- The physical address a leaf gives. -/
def leafPa (leaf bits va : Nat) : Nat :=
  bitsOf leaf 47 12 * 4096 + va % 2 ^ bits + (if bitsOf leaf 7 6 = 1 then hostBase else 0)

/-- The translation of an access from a cluster: the station's cached entry if it has one, else a walk (R318 to R321). -/
def State.translate (s : State) (cl part : Nat) (pid : BitVec 16) (mode : Bool) (a : Access) (va : Nat) : Except Trap Nat :=
  let r : Except Trap (Nat × Nat) := match s.cached (stationOf cl) part pid va with
    | some x => .ok (x.leaf.toNat, x.bits)
    | none => s.walk part pid va
  match r with
  | .error t => .error t
  | .ok (leaf, bits) => if leafAllows (s.part part) leaf bits a mode then .ok (leafPa leaf bits va) else .error .accessFault

/-! Windows (R16 to R19). -/

/-- Where an access lands. -/
inductive Place where
  /-- global memory, to be translated -/
  | global (va : Nat)
  /-- scratchpad or parcel bytes of a cluster -/
  | bank (cl off : Nat)
  /-- tile metadata of the cluster -/
  | tag (off : Nat)
  /-- device registers -/
  | device (off : Nat)
  deriving DecidableEq, Repr

/-- The other resident contexts' private allocations that a range overlaps (R18): a visitor's own is that of its home slot. -/
def State.privHit (s : State) (sid off size : Nat) : Bool :=
  let own := if isVisitor sid then (s.ctx sid).home else sid
  (clusterSlots (slotCluster sid)).any fun o =>
    let c := s.ctx o
    o != own && !isVisitor o && c.act != .free && c.privSize.toNat != 0 &&
      decide (off < c.privBase.toNat + c.privSize.toNat ∧ c.privBase.toNat < off + size)

/-- The window of an address and the checks of R16 to R19, for an access of `size` bytes aligned to `align`. -/
def State.window (s : State) (sid : Nat) (a : Word) (size align : Nat) : Except Trap Place :=
  let c := s.ctx sid
  let top := bitsOf a.toNat 55 48
  let off := a.toNat % 2 ^ 48
  let cl := slotCluster sid
  if a.toNat % align ≠ 0 then .error .misaligned
  else if bitsOf a.toNat 63 56 ≠ 0 then .error .windowFault
  else if top < 0xF0 then .ok (.global a.toNat)
  else match top with
    | 0xF0 =>
      if Config.spadBytes < off + size then .error .windowFault
      else if s.privHit sid off size then .error .privViolation
      else .ok (.bank cl off)
    | 0xF1 =>
      if isVisitor sid || decide (c.privSize.toNat < off + size) then .error .windowFault
      else .ok (.bank cl (c.privBase.toNat + off))
    | 0xF2 =>
      match c.meet with
      | some m =>
        if !c.inmeet || decide (64 * (m.plen + 1) < off + size) then .error .windowFault
        else .ok (.bank m.place (m.parcel + off))
      | none => .error .windowFault
    | 0xF3 =>
      match c.meet with
      | some m =>
        if !c.inmeet then .error .windowFault
        else if 64 * (m.partnerPlen + 1) < off + size then .error .windowFault
        else if m.gone then .error .partnerGone
        else .ok (.bank m.place (m.partnerParcel + off))
      | none => .error .windowFault
    | 0xF4 => if 0x8000 < off + size then .error .windowFault else .ok (.tag off)
    | 0xFE => .ok (.device off)
    | _ => .error .windowFault

/-! Held outputs and requests (R361). -/

/-- Whether a request occupies the restante buffer of its cluster. -/
def Req.inBuffer (r : Req) : Bool :=
  match r.kind with
  | .load _ _ _ => false
  | .devLoad _ _ _ => false
  | .vload _ => false
  | .shape _ => false
  | .form _ => false
  | .xlat => false
  | _ =>
    match r.stage with
    | .held => true
    | .released => true
    | .relWalk => true
    | .ready => true
    | _ => false

/-- Whether a request is the second part of a stream-out entry whose first part is in the buffer: the entry takes one place (Table 24-2). -/
def State.sharesEntry (s : State) (r : Req) : Bool :=
  match r.kind with
  | .streamOut _ _ => r.expect != 0 && s.reqs.any fun q => q.id == r.expect && q.inBuffer
  | _ => false

/-- Restante entries in use in a cluster (R361): held and released requests, held transfers, and one for four run records. -/
def State.restUsed (s : State) (cl : Nat) : Nat :=
  (s.reqs.filter fun r => slotCluster r.src == cl && r.inBuffer && !s.sharesEntry r).length +
    ((List.range 4).map fun c => ((s.core (4 * cl + c)).xfers.filter fun x => x.held).length).sum +
    ((List.range 4).map fun c => ceilDiv (s.acctq.filter fun a => a.entered && a.ci == 4 * cl + c).length 4).sum

/-- Whether the horizons of taints are known and past (R363): a taint that is kept no longer had its horizon long ago. -/
def State.horizonsPast (s : State) (ids : List Nat) : Bool :=
  ids.all fun i => match s.taintTab.find? fun t => t.1 == i with
    | some t => t.2.horizon.any fun h => decide (h ≤ s.now)
    | none => true

/-- Whether an output made in cycle `made` under the taints given may leave its cluster (R361, R363): not while the cluster keeps a cover
checkpoint at or before its interval. -/
def State.releasable (s : State) (cl made : Nat) (taints : List Nat) : Bool :=
  decide (releaseTime made ≤ s.now) && s.horizonsPast taints &&
    match (s.clu cl).arr.cover with
    | some c => decide (made / Config.interval * Config.interval < c)
    | none => true

/-- Whether a partition is frozen by its reset (R378). -/
def State.frozenPart (s : State) (p : Nat) : Bool := (s.part p).reset.any fun r => r.t1.isSome
/-- Whether a context of a partition that comes to a slot is frozen there: by its partition's reset, or in a fenced region (R368, R378). -/
def State.stoppedAt (s : State) (sid p : Nat) : Bool := s.frozenPart p || (s.clu (slotCluster sid)).fenced

/-- Numbers given to a list of negative acknowledgements (R379). -/
def State.addNacks (s : State) (l : List Nack) : State :=
  { s with nacks := s.nacks ++ (l.zipIdx.map fun x => (s.nextId + x.2, x.1)), nextId := s.nextId + l.length }

/-- Whether `n` more entries do not fit. -/
def State.restFull (s : State) (cl n : Nat) : Bool := decide (Config.restanteEntries < s.restUsed cl + n)

/-- A request of the running context, appended in issue order. -/
def State.request (s : State) (kind : ReqKind) (stage : ReqStage) (va size pa data be expect : Nat) : State :=
  let c := s.me
  { s with
    reqs := s.reqs ++ [{
      id := s.nextId, sid := s.cur, kind := kind, stage := stage, va := va, size := size, pa := pa, data := data, be := be,
      expect := expect, pc := c.pc, made := s.now, serial := c.serial, pid := c.pid, part := c.part, mode := c.mode,
      handler := c.fault.valid && !c.fault.pending && c.mode, stranded := false, taints := c.taints, src := s.cur, lid := c.launchId.toNat, arr := s.now }]
    nextId := s.nextId + 1 }

/-- The state with one request changed. -/
def State.modReq (s : State) (id : Nat) (f : Req → Req) : State :=
  { s with reqs := s.reqs.map fun r => if r.id = id then f r else r }
/-- The state without a request. -/
def State.dropReq (s : State) (id : Nat) : State := { s with reqs := s.reqs.filter fun r => r.id ≠ id }
/-- A request by its number. -/
def State.req (s : State) (id : Nat) : Option Req := s.reqs.find? fun r => r.id == id

/-- The requests of a context. -/
def State.reqsOf (s : State) (sid : Nat) : List Req := s.reqs.filter fun r => r.sid == sid && !r.ended

/-! Taking a trap and the return (R324, R235). -/

/-- FRAME as a trap writes it: the capture point of R167, the replay point of R168, or V = 0 (R324). -/
def Ctx.frameAtTrap (c : Ctx) : Word :=
  match c.cap with
  | some f =>
    let n := f.words.length
    w64 (2 ^ 15 + 2 ^ 14 + n * 2 ^ 8 + (f.len - 1) * 2 ^ 4 + n % 16)
  | none =>
    match c.replay with
    | some r => w64 (r.iter * 2 ^ 32 + 2 ^ 15 + r.words.length * 2 ^ 8 + (r.words.length - 1) * 2 ^ 4 + r.idx)
    | none => c.frame &&& ~~~(0x8000#64)

/-- A trap taken (R324): the status is saved, the mode becomes supervisor, CAUSE, EPC and TVAL are written, and the handler is next: a SLEEP that
waited ends its wait, and a FENCE.SC that waited will send its markers anew (R127). A frame being captured is discarded, and a replay stops (R167,
R168). -/
def Ctx.trapEnter (c : Ctx) (async : Bool) (t : Trap) (tval : Word) (epc : BitVec 56) : Ctx :=
  { c with
    act := .running, pmode := c.mode, pui := c.ui, mode := true, ui := false, mret := false, fenceSent := false, markers := []
    cause := w64 (t.code + if async then 2 ^ 63 else 0)
    epc := epc &&& ~~~3, tval := tval, frame := c.frameAtTrap, pc := c.tvec, cap := none, replay := none }

/-! Run records (R70, R71). -/

/-- Whether a context's ACCTCTL lets records be written (R72). -/
def Ctx.acctOn (c : Ctx) : Bool :=
  c.acctctl.getLsbD 0 && decide (12 ≤ bitsOf c.acctctl.toNat 12 8 ∧ bitsOf c.acctctl.toNat 12 8 ≤ 30)

/-- The two words of a run record (Table 04-2). -/
def runWords (sid : Nat) (k : Cause) (pc : BitVec 56) (start len : Nat) : Word × Word :=
  (w64 (k.code.val * 2 ^ 56 + pc.toNat / 4 * 4 + slotCode sid),
   w64 (start % 2 ^ 43 * 2 ^ 21 + corePhysical (slotCore sid) % 2 ^ 13 * 2 ^ 8 + (len - 1) % 256))

/-- Whether a run record of a core finds an entry of the restante buffer, where four records share one (Table 24-2). -/
def State.recordFits (s : State) (ci : Nat) : Bool :=
  (s.acctq.filter fun a => a.entered && a.ci == ci).length % 4 != 0 || !s.restFull (coreCluster ci) 1

/-- A run record made: it takes its place in the restante buffer, or its core holds it until there is one (R73, R361). -/
def State.addRecord (s : State) (a : AcctRec) : State := { s with acctq := s.acctq ++ [{ a with entered := s.recordFits a.ci }] }

/-- The records that cores hold take the entries that have become free, the oldest first (R361). -/
def State.enterRecords (s : State) : State :=
  if s.acctq.all AcctRec.entered then s else s.acctq.foldl (fun t a => if a.entered then { t with acctq := t.acctq ++ [a] } else t.addRecord a) { s with acctq := [] }

/-- A context's open run closed; its record, closed in cycle `made`, awaits its write. With EN = 0 there is none (R72, R73). -/
def State.closeRunAt (s : State) (sid made : Nat) : State :=
  let c := s.ctx sid
  match c.run with
  | none => s
  | some (k, pc, start, len) =>
    let w := runWords sid k pc start len
    let s1 := s.modCtx sid fun c => { c with run := none }
    if !c.acctOn then s1
    else s1.addRecord { ci := slotCore sid, base := c.acctbase.toNat, log2 := bitsOf c.acctctl.toNat 12 8, pid := c.pid
                        part := c.part, w0 := w.1, w1 := w.2, made := made }

/-- A context's open run closed in this cycle. -/
def State.closeRun (s : State) (sid : Nat) : State := s.closeRunAt sid s.now

/-- A slot-view cycle charged to a context: it extends the open run or opens a new one (R70). -/
def State.runCycle (s : State) (sid : Nat) (k : Cause) (pc : BitVec 56) : State :=
  let c := s.ctx sid
  if !c.acctOn then s
  else match c.run with
    | some (k', p, start, len) =>
      if k' = k ∧ (if k = .issue then pc = p + BitVec.ofNat 56 (4 * len) else pc = p) then s.modCtx sid fun c => { c with run := some (k, p, start, len + 1) }
      else (s.closeRun sid).modCtx sid fun c => { c with run := some (k, pc, s.now, 1) }
    | none => s.modCtx sid fun c => { c with run := some (k, pc, s.now, 1) }

/-- The cycle in which an instruction ends its context's stay in the slot: ISSUE, with its run closed. -/
def State.lastCycle (s : State) (sid : Nat) : State :=
  ((s.modCtx sid fun c => c.charged .issue 1).runCycle sid .issue (s.ctx sid).pc).closeRun sid

/-! Leaving a meeting (R221). -/

/-- Whether a request reads for a form that has not completed. -/
def ReqKind.reads : ReqKind → Bool
  | .load _ _ _ => true
  | .devLoad _ _ _ => true
  | .vload _ => true
  | .shape _ => true
  | .form _ => true
  | _ => false

/-- Whether a context has port instructions that have not retired. -/
def State.portPending (s : State) (sid : Nat) : Bool := (s.core (slotCore sid)).port.any fun p => p.sid == sid

/-- Whether earlier instructions of a context have not retired, its port instructions apart. -/
def State.unretired (s : State) (sid : Nat) : Bool :=
  let c := s.ctx sid
  !c.pend.isEmpty || !c.busy.isEmpty || !c.late.isEmpty || !c.chq.isEmpty || c.replay.isSome || !c.vlate.isEmpty ||
    ((s.core (slotCore sid)).seq.any fun e => e.sid == sid) || ((s.core (slotCore sid)).vout.any fun e => e.sid == sid) || (s.reqsOf sid).any fun r => r.kind.reads

/-- The requests of a context follow it to another slot. -/
def State.moveReqs (s : State) (sid to_ : Nat) : State :=
  { s with reqs := s.reqs.map fun r => if r.sid = sid ∧ r.ended = false then { r with sid := to_ } else r }

/-- The cycles from what fixes a PEER's value to the use of its register, and to the end of its hold on later memory-access instructions (R293). -/
def peerLatency : Nat := 2

/-- The value of a PEER whose register is awaited: it may be used two cycles from now (R219, R293). -/
def Ctx.peerGets (c : Ctx) (now : Nat) (d : BitVec 5) (v : Word) : Ctx :=
  { c.wx d v with late := c.late ++ [{ at_ := now + peerLatency, code := some d.toNat, acq := false, space := [] }] }

/-- The last awaited PEER has its value: the hold on later memory-access instructions ends two cycles from now (R119, R293). -/
def Ctx.peersEnd (c : Ctx) (now : Nat) : Ctx := { c with late := c.late ++ [{ at_ := now + peerLatency, code := none, acq := true, space := [] }] }

/-- A PEER that awaits a register of the parting party receives it now (R221). DEDUCED (log 10): as from a write that retires now (R293). -/
def Ctx.peersGet (c : Ctx) (now : Nat) (xs : Vector Word 32) : Ctx :=
  match c.meet with
  | none => c
  | some m =>
    let c' := m.peers.foldl (fun (acc : Ctx) p => acc.peerGets now (BitVec.ofNat 5 p.1) (xs.toList.getD p.2 0)) c
    let c'' := if m.peers.isEmpty then c' else c'.peersEnd now
    { c'' with meet := c''.meet.map fun q => { q with peers := [], gone := true } }

/-- Whether a slot's context is at the meeting of a taint. -/
def State.atMeeting (s : State) (sid taint : Nat) : Bool := (s.ctx sid).inmeet && ((s.ctx sid).meet.any fun m => m.taint == taint)

/-- The horizon of a taint, known from cycle `n` (R363). -/
def State.setHorizon (s : State) (id n : Nat) : State :=
  { s with taintTab := Tab.set {} s.taintTab id { Tab.get {} s.taintTab id with horizon := some (releaseTime n) } }

/-- Whether a context has issued in the cycle that runs. -/
def State.issuedNow (s : State) (sid : Nat) : Bool := s.served.any fun e => e.2.1 == sid

/-- The first cycle in which a context whose fetch is redirected now may issue: three REDIRECT cycles follow the cycle of its issue, if it has
issued in this one (R109). -/
def State.redirectEnd (s : State) (sid : Nat) (own : Bool) : Nat := s.now + if own || s.issuedNow sid then 4 else 3

/-- The effect of PART for a party in place: it goes on at home (R221). -/
def State.partInPlace (s : State) (sid : Nat) (m : Meeting) (npc : BitVec 56) (tr : Option TrapInfo) (dep : Nat) : State :=
  let s1 := s.modCtx sid fun c =>
    let c' := { c with inmeet := false, meet := none, pc := npc }
    match tr with
    | some x => { c'.trapEnter x.async x.t x.tval x.epc with
        charge := .issue, lastIssue := if dep = 1 then s.now else c'.lastIssue, pause := some (.redirect, s.redirectEnd sid (dep == 1)) }
    | none => c'
  if s.atMeeting m.partner m.taint then s1 else s1.setHorizon m.taint s.now

/-- The effect of PART for a visitor: its state starts its way home, after the cycle of the instruction that sends it (`dep` is 1) or at once
(R221). -/
def State.partVisitor (s0 : State) (sid : Nat) (m : Meeting) (npc : BitVec 56) (tr : Option TrapInfo) (dep : Nat) : State :=
  let s := if dep = 0 then s0.closeRun sid else s0.lastCycle sid
  let c := s.ctx sid
  let bytes := 64 * (m.plen + 1)
  let parcel := Memory.readN (s.clu (slotCluster sid)).spad m.parcel bytes
  let gone := { c with pc := npc, lastIssue := s.now + dep, meet := some { m with trap := tr } }
  let s1 := (s.modCtx sid fun c => { c with act := .away, inmeet := false }).moveReqs sid c.home
  s1.send (s.now + dep + travelTime (slotCluster sid) (slotCluster c.home) (512 + bytes)) (.luggage c.home gone parcel sid)

/-- The effect of PART for the context of a slot (R221): the partner sees it gone, and it goes home. A trap to take there goes with it
(R222). -/
def State.partEffect (s : State) (sid : Nat) (npc : BitVec 56) (tr : Option TrapInfo) (dep : Nat) : State :=
  match (s.ctx sid).meet with
  | none => s
  | some m =>
    let s1 := if s.atMeeting m.partner m.taint then s.modCtx m.partner fun p => p.peersGet s.now (s.ctx sid).x else s
    if m.inPlace then s1.partInPlace sid m npc tr dep else s1.partVisitor sid m npc tr dep

/-- Whether a vector instruction accesses memory (majors 0x36 to 0x38). -/
def isVMem : Instr → Bool
  | .vld _ _ _ _ => true
  | .vst _ _ _ _ => true
  | .vlds _ _ _ _ _ => true
  | .vsts _ _ _ _ _ => true
  | .vgthr _ _ _ _ _ => true
  | .vsctr _ _ _ _ _ => true
  | _ => false

/-- Whether bytes of a cluster's scratchpad lie in a party's parcel. -/
def Meeting.inParcel (m : Meeting) (cl off size : Nat) : Bool := cl == m.place && decide (m.parcel < off + size ∧ off < m.parcel + 64 * (m.plen + 1))

/-- Whether a vector memory form may touch a party's parcel by 0xF3: by the places of its lanes, or, for a gather or scatter whose lanes are not
checked yet, by how far its indexes may reach. -/
def SeqEntry.mayTouch (e : SeqEntry) (m : Meeting) : Bool :=
  isVMem e.i && match e.plan with
    | some ps => ps.any fun p => match p.2 with
      | .bank cl off => m.inParcel cl off p.1.size
      | .mem _ => false
    | none => decide (0xF3 * 2 ^ 48 < e.xa.toNat + 2 ^ 36 ∧ e.xa.toNat < 0xF4 * 2 ^ 48)

/-- Whether accesses of the partner to a party's parcel are still to be performed (R221). -/
def State.partnerTouches (s : State) (sid : Nat) (m : Meeting) : Bool :=
  s.atMeeting m.partner m.taint &&
    (((s.ctx m.partner).pend.any fun a => !a.tags && m.inParcel a.cl a.off a.size) ||
      (s.core (slotCore m.partner)).seq.any fun e => e.sid == m.partner && e.mayTouch m && decide (sid ≠ m.partner))

/-- PART takes effect: the partner's accesses to 0xF3 and its PEERs fault from now on (R221). -/
def State.partTakes (s : State) (sid : Nat) (m : Meeting) : State :=
  let s1 := s.modCtx sid fun c => { c with meet := c.meet.map fun q => { q with parting := true } }
  if s.atMeeting m.partner m.taint then s1.modCtx m.partner fun c => { c with meet := c.meet.map fun q => { q with gone := true } } else s1

/-! Trapping. -/

/-- Whether a trap must wait for the replay of a frame whose counts came from a channel (R168). -/
def State.replayHolds (s : State) (sid : Nat) : Bool :=
  match (s.ctx sid).replay with
  | some r => r.fromChannel
  | none => false

/-- Whether a trap of a context must wait: for the replay of a frame whose counts came from a channel (R168), for its port instructions to
retire (R172), at a meeting as PART does (R222). -/
def State.trapBlock (s : State) (sid : Nat) : Option Cause :=
  if s.replayHolds sid then some .seqFull
  else if s.portPending sid then some .matrixWait
  else if (s.ctx sid).inmeet && s.unretired sid then some .fence
  else none

/-- What a trap of a context at a meeting does first: PART takes effect (R222). -/
def State.trapBegins (s : State) (sid : Nat) : State :=
  match (s.ctx sid).inmeet, (s.ctx sid).meet with
  | true, some m => s.partTakes sid m
  | _, _ => s

/-- Whether the trap of a context at a meeting still waits for accesses of its partner (R221, R222). -/
def State.trapTouched (s : State) (sid : Nat) : Bool := (s.ctx sid).inmeet && (s.ctx sid).meet.any fun m => s.partnerTouches sid m

/-- The frame that a context replays leaves the sequencer, where it stops (R168). -/
def State.stopFrame (s : State) (sid : Nat) : State :=
  s.modCore (slotCore sid) fun k => { k with seq := k.seq.filter fun e => !(e.frame && e.sid == sid) }

/-- A context traps; from a meeting by way of home, with the effect of PART (R222). The handler's first instruction issues after three REDIRECT
cycles (R109). DESIGN CHOICE (log 16): where the instruction at the head traps (`own`), its cycle is charged ISSUE and takes the core's issue
slot; a trap that comes later, of an instruction that has issued, takes no cycle of its own. -/
def State.trapAs (s : State) (sid : Nat) (own async : Bool) (t : Trap) (tval : Word) (epc : BitVec 56) : State :=
  match s.trapBlock sid with
  | some k => s.modCtx sid fun c => { c with charge := k }
  | none =>
    match (s.ctx sid).inmeet, (s.ctx sid).meet with
    | true, some m =>
      let s1 := s.partTakes sid m
      if s1.partnerTouches sid m then s1.modCtx sid fun c => { c with charge := .fence }
      else (s1.partEffect sid epc (some { async := async, t := t, tval := tval, epc := epc, cap := (s.ctx sid).cap, framepc := (s.ctx sid).framepc }) (if own then 1 else 0)).modCtx sid fun c => { c with charge := .issue }
    | _, _ => (s.stopFrame sid).modCtx sid fun c =>
      { c.trapEnter async t tval epc with
        charge := .issue, lastIssue := if own then s.now else c.lastIssue, pause := some (.redirect, s.redirectEnd sid own) }

/-- A precise trap of an instruction of a context that has issued. -/
def State.trapOf (s : State) (sid : Nat) (t : Trap) (tval : Word) (epc : BitVec 56) : State := s.trapAs sid false false t tval epc

/-- A precise trap of an instruction of a context that has issued, once it may be taken: `t` is the state without what the instruction left. Until
then all stays, but at a meeting PART takes effect as soon as the trap waits for the partner alone (R172, R222). -/
def State.trapWhen (s t : State) (sid : Nat) (k : Trap) (tval : Word) (epc : BitVec 56) : State :=
  if (t.trapBlock sid).isSome then s
  else if (s.trapBegins sid).trapTouched sid then s.trapBegins sid
  else t.trapOf sid k tval epc

/-- A precise trap of a context's instruction at the head. -/
def State.trapHead (s : State) (sid : Nat) (t : Trap) (tval : Word) (epc : BitVec 56) : State := s.trapAs sid true false t tval epc

/-- The running context's instruction traps. -/
def State.trap (s : State) (t : Trap) (tval : Word) (epc : BitVec 56) : State := s.trapHead s.cur t tval epc

/-- What MPROG says ends, and with it what an MRSTR of the context that is still in the port is to load there (R187). -/
def CoreSt.endProgress (k : CoreSt) (sid : Nat) : CoreSt :=
  { k with mprog := k.mprog &&& 0x7FFFFFFFFFFFFFFF, port := k.port.map fun p => if p.sid = sid then { p with clearV := true } else p }

/-- The state after an instruction's effect: the cycle is charged ISSUE; an instruction that follows a TRET ends what MPROG says (R187);
`port` marks the port instructions, which R186 does not count. The effect may hold the next instruction back. -/
def State.issued (s : State) (port : Bool) : State :=
  let sid := s.cur
  let s1 := if s.me.mret then s.modCore (slotCore sid) fun k => if k.owner = some sid then k.endProgress sid else k else s
  s1.modCtx sid fun c => { c with charge := .issue, lastIssue := s.now, mret := false, serial := if port then c.serial else c.serial + 1 }

/-- What a meaning answers for its body's result: the issue, the wait, or the trap. -/
def finish (s : State) (r : Res) : Out :=
  match r with
  | .ok s' => .next (s'.issued false)
  | .wait k => .next (s.upd fun c => { c with charge := k })
  | .hold s' k => .next (s'.upd fun c => { c with charge := k })
  | .trap t v => .next (s.trap t v s.me.pc)

/-- What a port instruction's meaning answers (R170). -/
def finishPort (s : State) (r : Res) : Out :=
  match r with
  | .ok s' => .next (s'.issued true)
  | r => finish s r

/-- A stalled context goes on. -/
def Ctx.unstall (c : Ctx) : Ctx :=
  match c.act with
  | .stalled _ => { c with act := .running }
  | _ => c

/-- What a form that issued earlier answers when it completes: its effect, or its trap (R176, R197). The issue was charged before. A form that
finds what it needs not there issues again. -/
def settle (s : State) (r : Res) : State :=
  match r with
  | .ok s' => s'.upd Ctx.unstall
  | .wait _ => s.upd Ctx.unstall
  | .hold s' _ => s'.upd Ctx.unstall
  | .trap t v => (s.upd fun c => { c with act := .running }).trapOf s.cur t v s.me.pc

/-- A step taken on behalf of another context. -/
def State.asCtx (s : State) (sid : Nat) (f : State → State) : State := { f { s with cur := sid } with cur := s.cur }

end Sys2Proof.Machine
end

