-- ==== Sys2Proof/Machine/Errors.lean ====
section
/-!
DEFINITION. Error records and their banks (R370 to R376).
-/

namespace Sys2Proof.Machine

/-- Codes of Table 25-3. -/
def codeStrikeRollback : Nat := 0x0101
def codeMeetRecall : Nat := 0x0102
def codeSubarrayFenced : Nat := 0x0103
def codeSubarrayHard : Nat := 0x0104
def codeSramCorrected : Nat := 0x0105
def codeHbmCorrected : Nat := 0x0106
def codeLinkRetry : Nat := 0x0107
def codeReplayReissue : Nat := 0x0108
def codeLinkDegraded : Nat := 0x0109
def codePartitionReset : Nat := 0x010A
def codeHbmPoison : Nat := 0x0201
def codeQueueOverrun : Nat := 0x0202
def codeAcctRingFault : Nat := 0x0203
def codeCmdInvalid : Nat := 0x0204
def codeLaunchAborted : Nat := 0x0205
def codeTileOverrun : Nat := 0x0206
def codeSubMismatch : Nat := 0x0207
def codeEscalated : Nat := 0x0301
def codeMemUncorrected : Nat := 0x0302
def codeSliceUncorrected : Nat := 0x0303
def codeLinkDown : Nat := 0x0304

/-- The records of a bank: 16 in a partition's, 64 in the infrastructure bank (R370). -/
def bankSize (b : Nat) : Nat := if b < 64 then 16 else 64

/-- The number of a partition's bank on a die. -/
def partBank (die p : Nat) : Nat := 32 * die + p
/-- The number of a die's infrastructure bank. -/
def infraBank (die : Nat) : Nat := 64 + die

/-- Records in use, lowest number first. -/
def ErrBank.held (b : ErrBank) (size : Nat) : List (Nat × ErrRec) :=
  (List.range size).filterMap fun n => (Tab.get none b.recs n).map fun r => (n, r)

/-- The oldest record of a list: the smallest TIME (R373). -/
def oldestRec : List (Nat × ErrRec) → Option (Nat × ErrRec)
  | [] => none
  | x :: l => match oldestRec l with
    | none => some x
    | some y => if y.2.time < x.2.time then some y else some x

/-- A counter one up, which stops at 0xFFFF. -/
def lostUp (n : Nat) : Nat := Nat.min 0xFFFF (n + 1)

/-- LOST of a class one up (Table 25-1). -/
def ErrBank.lose (b : ErrBank) (cls : Nat) : ErrBank :=
  match cls with
  | 1 => { b with lostC := lostUp b.lostC }
  | 2 => { b with lostD := lostUp b.lostD }
  | _ => { b with lostU := lostUp b.lostU }

/-- ECNT of a class one up, wrapping (Table 25-1). -/
def ErrBank.count (b : ErrBank) (cls : Nat) : ErrBank :=
  match cls with
  | 1 => { b with cntC := (b.cntC + 1) % 2 ^ 32 }
  | 2 => { b with cntD := (b.cntD + 1) % 2 ^ 32 }
  | _ => { b with cntU := (b.cntU + 1) % 2 ^ 32 }

/-- A new record placed by its rank (R373). -/
def ErrBank.place (b : ErrBank) (size : Nat) (r : ErrRec) : ErrBank :=
  let c := b.count r.cls
  let held := b.held size
  match (List.range size).find? fun n => (Tab.get none b.recs n).isNone with
  | some n => { c with recs := Tab.set none c.recs n (some r) }
  | none =>
    let low := held.foldl (fun m x => Nat.min m x.2.cls) 3
    if low < r.cls then
      match oldestRec (held.filter fun x => x.2.cls == low) with
      | some (n, _) => { c with recs := Tab.set none c.recs n (some r) }.lose low
      | none => c
    else
      match oldestRec (held.filter fun x => x.2.cls == r.cls) with
      | some (n, x) => { c with recs := Tab.set none c.recs n (some { x with ovf := true }) }.lose r.cls
      | none => c.lose r.cls

/-- A record written to a bank (R372, R373). -/
def State.record (s : State) (b : Nat) (r : ErrRec) : State :=
  { s with banks := Tab.set {} s.banks b ((Tab.get {} s.banks b).place (bankSize b) r) }

/-- A record written to a partition's bank on a die. -/
def State.recordPart (s : State) (die p : Nat) (r : ErrRec) : State := s.record (partBank die p) { r with part := some p }

/-- A record written to a die's infrastructure bank. -/
def State.recordInfra (s : State) (die : Nat) (r : ErrRec) : State := s.record (infraBank die) r

/-- The fields of a record that a context is involved in (Table 25-2). -/
def ErrRec.ofCtx (r : ErrRec) (sid : Nat) (pc : BitVec 56) : ErrRec :=
  { r with slot := slotCode sid, pcore := corePhysical (slotCore sid), pc := pc.toNat }

/-- ADDR of a cluster (Table 25-2, AKIND 3). -/
def clusterAddr (cl : Nat) : Nat := clusterDie cl * 2 ^ 16 + clusterY cl * 2 ^ 8 + clusterX cl

/-- Whether a partition's grants reach a physical address. -/
def Part.grants? (p : Part) (pa : Nat) : Bool := (p.grants.take grantRanges).any fun g => decide (g.1 ≤ pa ∧ pa < g.1 + g.2)

/-- A clear of a record by its V bit (R373). -/
def State.clearRecord (s : State) (b n : Nat) : State :=
  let k := Tab.get {} s.banks b
  { s with banks := Tab.set {} s.banks b { k with recs := Tab.set none k.recs n none } }

/-- The eight words of a record (Table 25-2). -/
def ErrRec.word (r : ErrRec) (n : Nat) : Nat :=
  match n with
  | 0 => 2 ^ 63 + (if r.ovf then 2 ^ 62 else 0) + r.cls * 2 ^ 60 + r.engine * 2 ^ 56 +
      (match r.part with
       | some p => 2 ^ 55 + p * 2 ^ 50
       | none => 0) + r.slot * 2 ^ 48 + r.pcore * 2 ^ 32 + r.code
  | 1 => r.pc
  | 2 => r.akind * 2 ^ 62 + r.addr
  | 3 => r.syndrome
  | 4 => r.time % 2 ^ 64
  | 5 => r.detail
  | _ => 0

/-- ERRSTAT (Table 25-1). -/
def ErrBank.stat (b : ErrBank) (size : Nat) : Nat :=
  b.lostU * 2 ^ 48 + b.lostD * 2 ^ 32 + b.lostC * 2 ^ 16 + (b.held size).length

/-- A word of a partition page (Table 25-1). -/
def ErrBank.pageWord (b : ErrBank) (off : Nat) : Nat :=
  if off < 0x400 then match Tab.get none b.recs (off / 64) with
    | some r => r.word (off % 64 / 8)
    | none => 0
  else if off = 0x400 then b.stat 16
  else if off = 0x408 then b.cntC
  else if off = 0x410 then b.cntD
  else if off = 0x418 then b.cntU
  else 0

end Sys2Proof.Machine
end

