-- ==== Sys2Proof/Machine/Slice.lean ====
section
/-!
DEFINITION. The home slices: homes, race-trace rings, far copies and poisoned lines (R127, R277 to R279, R376, R394).
-/

namespace Sys2Proof.Machine

/-- The home die of an HBM address (R394). -/
def homeDie (pa : Nat) : Nat := pa / 2 ^ 38 % 2
/-- The home slice on that die (R394). -/
def homeSlice (pa : Nat) : Nat := pa / 2 ^ 8 % 32
/-- The number of the home slice: slice n of die d is 32 d + n. -/
def sliceOf (pa : Nat) : Nat := 32 * homeDie pa + homeSlice pa
/-- The 64-byte line of an address. -/
def lineOf (pa : Nat) : Nat := pa / 64

/-! Race tracing (R279). -/

/-- Who makes an access, as a race-trace record names it (Table 15-2). -/
structure Maker where
  /-- 0 store, 1 atomic, 2 engine write, 3 host write -/
  kind : Nat
  slot : Nat
  pcore : Nat
  deriving DecidableEq, Repr

/-- A context's store or atomic. -/
def makerCtx (kind sid : Nat) : Maker := { kind := kind, slot := slotCode sid, pcore := corePhysical (slotCore sid) }
/-- A write of a core's engine. -/
def makerEngine (ci : Nat) : Maker := { kind := 2, slot := 0, pcore := corePhysical ci }
/-- A write of a stream unit: a global store (R353). DESIGN CHOICE (log 26): no core issued it, so its record names none, as the host's does. -/
def makerUnit : Maker := { kind := 0, slot := 0, pcore := 0x1FFF }
/-- A write of the host; DESIGN CHOICE (log 26): a completion record that a queue writes is logged as one. -/
def makerHost : Maker := { kind := 3, slot := 0, pcore := 0x1FFF }

/-- Whether a byte that an access writes lies in a range that is logged (R279). -/
def RaceTrace.covers (t : RaceTrace) (pa n be : Nat) : Bool :=
  t.en && t.ranges.any fun r => r.2.en && decide (r.2.base < pa + n ∧ pa < r.2.limit) &&
    (be == 2 ^ n - 1 || (List.range n).any fun i => be.testBit i && decide (r.2.base ≤ pa + i ∧ pa + i < r.2.limit))

/-- The bytes of an access from the first enabled one to the last: address and length (R159, R279). -/
def activeSpan (pa n be : Nat) : Nat × Nat :=
  if be = 2 ^ n - 1 then (pa, n)
  else
    let on := (List.range n).filter fun i => be.testBit i
    (pa + on.headD 0, on.getLastD 0 + 1 - on.headD 0)

/-- The records a race-trace ring holds. -/
def RaceTrace.cap (t : RaceTrace) : Nat := 2 ^ t.log2 / 16

/-- The two words of a race-trace record (Table 15-2). -/
def traceWords (m : Maker) (pa n seq : Nat) : Nat :=
  (n - 1) % 64 * 2 ^ 48 + pa % 2 ^ 48 + (m.kind * 2 ^ 47 + m.slot * 2 ^ 45 + m.pcore * 2 ^ 32 + seq % 2 ^ 32) * 2 ^ 64

/-- A request accepted at its home slice: SEQ counts it (R279), and the port takes no other for its line in this cycle (R278). Host windows have no
slice. -/
def State.accept (s : State) (pa : Nat) : State :=
  if hostBase ≤ pa then s
  else
    let t := Tab.get {} s.traces (sliceOf pa)
    { s with traces := Tab.set {} s.traces (sliceOf pa) { t with seq := (t.seq + 1) % 2 ^ 32 }, taken := lineOf pa :: s.taken }

/-- Whether a port takes a line in this cycle for a request that reached it in cycle `at_`, with its rank among the requests of one cycle: it has taken none for
that line yet, and no engine that goes first waits for it (R278). -/
def State.portTakes (s : State) (line at_ rank : Nat) : Bool :=
  !s.taken.contains line && !s.owed.any fun o => o.line == line && decide (o.since < at_ ∨ (o.since = at_ ∧ o.rank < rank))

/-- Whether a port may still take a request for the line of an address in this cycle, which goes behind all that wait (R278). -/
def State.portFree (s : State) (pa : Nat) : Bool := s.portTakes (lineOf pa) s.now (2 ^ 30)

/-- The rank of a core's request among those that reach a port in one cycle (R278). -/
def coreRank (sid : Nat) : Nat := 4 * corePhysical (slotCore sid) + slotCode sid
/-- The rank of an engine of a core: 0 the block-transfer engine, 1 the storer, 2 to 5 the stream engines; DEDUCED (log 26): 6 the loader and 7 the account ring, which
R278 does not name. -/
def engineRank (ci k : Nat) : Nat := 2 ^ 20 + 8 * corePhysical ci + k
/-- The rank of a transaction off the die link, by its module (R278). -/
def linkRank (m : Nat) : Nat := 2 ^ 24 + m

/-- The lines that a range of bytes touches. -/
def linesAt (pa n : Nat) : List Nat := (List.range ((pa + n - 1) / 64 + 1 - pa / 64)).map fun i => pa / 64 + i

/-- Whether a port may take a host request for a line in this cycle: none of a core, an engine or the die link waits for it (R278). -/
def State.hostTakes (s : State) (line : Nat) : Bool :=
  let waits (r : Req) : Bool := match r.kind with
    | .device => false
    | .devLoad _ _ _ => false
    | _ => r.stage == .sent && decide (r.arr < s.now) && (linesAt r.pa r.size).contains line
  s.portFree (64 * line) && !(s.reqs.any waits) && !(s.arrived.any fun t => t.resp.isNone && lineOf t.addr == line)

/-- An engine asks the ports for lines: none where they take them all in this cycle; else it waits, with its place in their order (R278). -/
def State.portAsk (s : State) (ls : List Nat) (rank : Nat) : Option State :=
  let since (l : Nat) : Nat := ((s.owed.find? fun o => o.line == l && o.rank == rank).map Owed.since).getD s.now
  if ls.all fun l => s.portTakes l (since l) rank then none
  else
    let kept := s.owed.map fun o => if o.rank = rank ∧ ls.contains o.line then { o with seen := s.now } else o
    let new := (ls.filter fun l => !s.owed.any fun o => o.line == l && o.rank == rank).map fun l => { line := l, since := s.now, rank := rank, seen := s.now }
    some { s with owed := kept ++ new }

/-- The state after what a unit outside the clusters does in this cycle, where the slices' ports take every line it asks for; else it waits (R278). -/
def State.ported (s t : State) : State :=
  if (t.taken.take (t.taken.length - s.taken.length)).any s.taken.contains then s else t

/-- A store, atomic, engine write or host write accepted at its home slice, and logged where a range covers it (R279). -/
def State.acceptWrite (s : State) (m : Maker) (pa n be : Nat) : State :=
  let t := Tab.get {} s.traces (sliceOf pa)
  let s1 := s.accept pa
  let a := activeSpan pa n be
  if !t.covers pa n be then s1
  else if t.cap ≤ t.widx - t.ridx then
    { s1 with traces := Tab.set {} s1.traces (sliceOf pa) { Tab.get {} s1.traces (sliceOf pa) with ovf := true } }
  else
    let s2 := s1.physWrite (t.base + 16 * (t.widx % t.cap)) 16 (traceWords m a.1 a.2 t.seq) (allBytes 16)
    { s2 with traces := Tab.set {} s2.traces (sliceOf pa) { Tab.get {} s2.traces (sliceOf pa) with widx := t.widx + 1 } }

/-! Far copies (R127). -/

/-- A die's far copy of the line of an address. -/
def State.farCopy (s : State) (die pa : Nat) : Option FarCopy :=
  if pa < hostBase ∧ homeDie pa ≠ die then s.farCopies.find? fun c => c.die == die && c.line == lineOf pa else none

/-- A byte as a load from a die finds it: in the die's far copy where there is one, else at its home (R127, R395). -/
def State.dieByte (s : State) (die pa : Nat) : Nat :=
  match s.farCopy die pa with
  | some c => c.data.toNat / 2 ^ (8 * (pa % 64)) % 256
  | none => s.physRead pa 1

/-- The far copies of an address's line after a store: a context's store puts their invalidations under way; any other drops them at once,
since what follows it waits for their acknowledgement (R211, R287). -/
def State.invalidate (s : State) (by_ : Option (Nat × Nat)) (pa : Nat) : State :=
  let hit (c : FarCopy) : Bool := c.line == lineOf pa
  match by_ with
  | none => { s with farCopies := s.farCopies.filter fun c => !hit c }
  | some (req, sid) =>
    (s.farCopies.filter hit).foldl (fun s c =>
      { s with invals := s.invals ++ [{ n := s.nextId, req := req, sid := sid, die := c.die, line := c.line, module := homeSlice (64 * c.line) % 8 }], nextId := s.nextId + 1 }) s

/-! Poison (R376). -/

/-- The first poisoned line that a range of HBM touches. -/
def State.poisonIn (s : State) (pa n : Nat) : Option Nat :=
  if hostBase ≤ pa then none else s.poison.find? fun l => decide (64 * l < pa + n ∧ pa < 64 * l + 64)

/-- Whether byte ranges cover a whole line. -/
def coversLine (rs : List (Nat × Nat)) (l : Nat) : Bool :=
  (List.range 64).all fun b => rs.any fun r => decide (r.1 ≤ 64 * l + b ∧ 64 * l + b < r.1 + r.2)

/-- The lines that one store or engine write covers whole are poisoned no longer. -/
def State.unpoison (s : State) (rs : List (Nat × Nat)) : State := { s with poison := s.poison.filter fun l => !coversLine rs l }

/-- The addresses of the entries that a walk reads, in order: none outside the grants, none behind an entry that is not valid, and no root entry
from 0xF0 on (R319 to R321). -/
def State.walkReads (s : State) (part : Nat) (pid : BitVec 16) (va : Nat) : List Nat :=
  let p := s.part part
  let ea := p.proctab + 8 * pid.toNat
  let e := s.physRead ea 8
  if !p.granted ea 8 || decide (0xF0 * 2 ^ 48 ≤ va) then []
  else ea :: (if processBad e then [] else go p (bitsOf e 47 12 * 4096) 4)
where
  /-- The entries from the table of a level on. -/
  go (p : Part) (base : Nat) : Nat → List Nat
    | 0 => if p.granted base 4096 then [base + 8 * (va / 2 ^ 12 % 512)] else []
    | l + 1 =>
      let a := base + 8 * (va / 2 ^ (12 + 9 * (l + 1)) % 512)
      let e := s.physRead a 8
      if !p.granted base 4096 then []
      else a :: (if e.testBit 0 && !entryReserved e && !e.testBit 1 then go p (bitsOf e 47 12 * 4096) l else [])

/-- A translation put into a station's cache of 8,192; replacement is not architectural (R318). -/
def State.cacheXlat (s : State) (st : Nat) (x : Xlat) : State :=
  { s with stations := Tab.set [] s.stations st ((x :: Tab.get [] s.stations st).take 8192) }

/-- The reads of a walk, each accepted at its home slice, and the translation cached where there is one (R318, R319). -/
def State.walked (s : State) (st part : Nat) (pid : BitVec 16) (va : Nat) : State :=
  let s1 := (s.walkReads part pid va).foldl State.accept s
  match s.walk part pid va with
  | .error _ => s1
  | .ok (leaf, bits) => s1.cacheXlat st { part := part, pid := pid, va := va / 2 ^ bits * 2 ^ bits, bits := bits, leaf := w64 leaf }

/-- Whether the ports take every read of a walk in this cycle (R278, R319). -/
def State.walkTakes (s : State) (part : Nat) (pid : BitVec 16) (va : Nat) : Bool := (s.walkReads part pid va).all s.portFree

/-- Whether a request asks for the translation of a page for its maker (R318). -/
def Req.forPage (r : Req) (sid part : Nat) (pid : BitVec 16) (page : Nat) : Bool :=
  r.kind == .xlat && r.sid == sid && r.part == part && r.pid == pid && r.va / 4096 == page

/-- Whether a page needs no walk any more: its translation is cached at the station, or its walk has failed, or it has no root entry. -/
def State.pageKnown (s : State) (cl part : Nat) (pid : BitVec 16) (sid page : Nat) : Bool :=
  decide (0xF0 * 2 ^ 36 ≤ page) || (s.cached (stationOf cl) part pid (4096 * page)).isSome ||
    s.reqs.any fun r => r.forPage sid part pid page && r.stage == .ready

/-- What an engine, a stream, an account ring or a fetch does about the pages of its addresses: none where each is known; else those missing are asked for at the
cluster's station, as every translated request of the cluster is (R318). -/
def State.xlatAsk (s : State) (cl part : Nat) (pid : BitVec 16) (sid : Nat) (vas : List Nat) : Option State :=
  let miss := (vas.map fun a => a / 4096).eraseDups.filter fun p => !s.pageKnown cl part pid sid p
  if miss.isEmpty then none
  else some ((miss.filter fun p => !s.reqs.any fun r => r.forPage sid part pid p).foldl (fun s p => { s with
    reqs := s.reqs ++ [{ id := s.nextId, sid := sid, kind := .xlat, stage := .translating, va := 4096 * p, size := 1, pa := 0, data := 0, be := 0, expect := 0, pc := 0
                         made := s.now, pid := pid, part := part, mode := true, serial := 0, handler := false, stranded := false, taints := [], src := 10 * cl, lid := 0
                         ended := true }]
    nextId := s.nextId + 1 }) s)

/-- The pages of a maker whose walks have failed: it has seen that. -/
def State.xlatDone (s : State) (part : Nat) (pid : BitVec 16) (sid : Nat) (vas : List Nat) : State :=
  { s with reqs := s.reqs.filter fun r => !(vas.any fun a => r.forPage sid part pid (a / 4096)) }

/-- The poisoned line that the walk for an address would consume, if the station has to walk (R376). -/
def State.walkPoison (s : State) (cl part : Nat) (pid : BitVec 16) (va : Nat) : Option Nat :=
  if s.poison.isEmpty || (s.cached (stationOf cl) part pid va).isSome then none
  else (s.walkReads part pid va).findSome? fun a => s.poisonIn a 8

/-- The poisoned line that a read would consume: in its walk, or in its bytes (R376). -/
def State.poisonHit (s : State) (cl part : Nat) (pid : BitVec 16) (mode : Bool) (acc : Access) (va n : Nat) : Option Nat :=
  if s.poison.isEmpty then none
  else match s.walkPoison cl part pid va with
    | some l => some l
    | none => match s.translate cl part pid mode acc va with
      | .ok pa => s.poisonIn pa n
      | .error _ => none

/-- A context that consumes poison stops, charged FROZEN, and MEM_UNCORRECTED is recorded (R376, R374). -/
def State.freeze (s : State) (sid : Nat) (pc : BitVec 56) (line : Nat) : State :=
  let r : ErrRec := { cls := 3, engine := 12, code := codeMemUncorrected, akind := 2, addr := 64 * line, time := s.now }
  let die := homeDie (64 * line)
  let q := { r.ofCtx (s.slotOf sid) pc with part := some (s.holder sid).part }
  ((s.recordPart die (s.holder sid).part q).recordInfra die q).modHolder sid fun c => { c with act := .frozen, charge := .frozen }

/-! Performing a write at its home slice. -/

/-- A write performed (R278): it is logged, the bytes change, poison that it covers goes, and far copies are invalidated. -/
def State.sliceStore (s : State) (m : Maker) (by_ : Option (Nat × Nat)) (pa n v be : Nat) : State :=
  if hostBase ≤ pa then s.physWrite pa n v be
  else
    let s1 := (s.acceptWrite m pa n be).physWrite pa n v be
    (if be = allBytes n then s1.unpoison [(pa, n)] else s1).invalidate by_ pa

/-- Pieces of bytes by line: the lines they touch, each with its bytes and byte enables, a later piece over an earlier one. -/
def linesOfPieces (ps : List (Nat × Nat × Nat)) : List (Nat × Nat × Nat) :=
  ((ps.flatMap fun p => (List.range ((p.1 + p.2.1 - 1) / 64 + 1 - p.1 / 64)).map fun i => p.1 / 64 + i).eraseDups).map fun l =>
    let r := ps.foldl (fun (a : Nat × Nat) p =>
      let lo := Nat.max p.1 (64 * l)
      let n := Nat.min (p.1 + p.2.1) (64 * l + 64) - lo
      if n = 0 then a
      else
        let sh := lo - 64 * l
        let m := (2 ^ (8 * n) - 1) * 2 ^ (8 * sh)
        ((a.1 - (a.1 &&& m)) + p.2.2 / 2 ^ (8 * (lo - p.1)) % 2 ^ (8 * n) * 2 ^ (8 * sh), a.2 ||| (2 ^ n - 1) * 2 ^ sh)) (0, 0)
    (l, r.1, r.2)

/-- Pieces of bytes that an engine writes together, performed at their home slices with one write for each line (R278). -/
def State.sliceLines (s : State) (m : Maker) (ps : List (Nat × Nat × Nat)) : State :=
  (linesOfPieces ps).foldl (fun s l => s.sliceStore m none (64 * l.1) 64 l.2.1 l.2.2) s

end Sys2Proof.Machine
end

