-- ==== Sys2Proof/Machine/Operands.lean ====
section
/-!
DEFINITION. Operand fields and channels (R78 to R81, R93, R94, R138, R228, R229).
-/

namespace Sys2Proof.Machine

/-- The word of an instruction, as TVAL shows it (Table 19-3). -/
def wordOf (i : Instr) : Word := ((encode i).getD 0).zeroExtend 64

/-! Channel targets (Tables 11-4 and 11-5). -/

/-- What a channel is bound to. Entries belong to the target (R228). -/
inductive Target where
  | null
  | aq (i : Fin 8)
  | inbox
  | streamIn (e : Nat)
  | streamOut (e : Nat)
  | port
  deriving DecidableEq, Repr

/-- The target a binding descriptor names (Table 11-4). -/
def targetOf (b : Nat) : Target :=
  match b % 16 with
  | 1 => .aq (Fin.ofNat 8 (b / 16))
  | 2 => .inbox
  | 3 => .streamIn (b / 16 % 4)
  | 4 => .streamOut (b / 16 % 4)
  | 5 => .port
  | _ => .null

/-- The target of a channel's binding. -/
def Ctx.target (c : Ctx) (n : BitVec 5) : Target := targetOf (c.c[n.toNat]'n.isLt).toNat

/-- A stream engine of a slot's core. -/
def State.engOf (s : State) (sid e : Nat) : StreamEng := Tab.get {} (s.core (slotCore sid)).seng e

/-- The unread words of the inbox for a tag (R229). -/
def inboxWords (tag : Nat) (l : List InboxEntry) : List Word :=
  (l.filter fun e => e.tag == tag).flatMap fun e => if e.half then [e.w1] else [e.w0, e.w1]

/-- The 64-bit words a scalar field may take from a target, oldest first; none where it cannot be read (R81, R228).
The null target is read apart: it always gives zero. -/
def State.scalarQueue (s : State) (sid : Nat) : Target → Option (List Word)
  | .null => some []
  | .aq i => some (s.ctx sid).aq[i.val]
  | .inbox => some (inboxWords (slotTag sid) (s.core (slotCore sid)).inbox)
  | .streamIn e => let g := s.engOf sid e; if g.wide || g.out then none else some (g.buf.map w64)
  | .streamOut _ => none
  | .port => (s.ctx sid).win.map fun w => w.buf

/-- The first unread word of an inbox tag removed; an entry is freed when its word 1 is popped (R229). -/
def inboxPop (tag : Nat) : List InboxEntry → List InboxEntry
  | [] => []
  | e :: l => if e.tag = tag then (if e.half then l else { e with half := true } :: l) else e :: inboxPop tag l

/-- A stream engine of a slot's core changed. -/
def State.modEng (s : State) (sid e : Nat) (f : StreamEng → StreamEng) : State :=
  s.modCore (slotCore sid) fun k => { k with seng := Tab.set {} k.seng e (f (Tab.get {} k.seng e)) }

/-- One entry removed from a target (R79); `n` is how many words it is of the record port, 1 or 64. -/
def State.popTarget (s : State) (sid n : Nat) : Target → State
  | .null => s
  | .aq i => s.modCtx sid fun c => { c with aq := c.aq.set i.val (c.aq[i.val].drop 1) }
  | .inbox => s.modCore (slotCore sid) fun k => { k with inbox := inboxPop (slotTag sid) k.inbox }
  | .streamIn e => s.modEng sid e fun g => { g with buf := g.buf.drop 1 }
  | .streamOut _ => s
  | .port => s.modCtx sid fun c => { c with win := c.win.map fun w => { w with port := w.port + n, buf := w.buf.drop n } }

/-- The entries a target holds at most, for a write of `wide` entries or not; none where it cannot be written so (Table 11-5). -/
def State.writeDepth (s : State) (sid : Nat) (vector : Bool) : Target → Option Nat
  | .null => some 1
  | .aq _ => some 16
  | .streamOut e =>
    let g := s.engOf sid e
    if !g.out || (g.wide && !vector) then none else some (if g.wide then 4 else 16)
  | _ => none

/-- Of a list of binding descriptors, those of a target. -/
def spaceOf (t : Target) (ds : List Nat) : Nat := ds.countP fun d => targetOf d == t

/-- Entries of a target whose space is not free again, as the instruction of the context that popped them has not retired (R94): of the inbox, those
whose word 1 it popped. A vector instruction holds what its scalar fields popped while it is in the sequencer or its load is under way. -/
def State.spaceHeld (s : State) (sid : Nat) (t : Target) : Nat :=
  ((s.ctx sid).late.map fun l => spaceOf t l.space).sum +
    (((s.core (slotCore sid)).seq ++ (s.core (slotCore sid)).vout).map fun e => if e.sid = sid then spaceOf t e.space else 0).sum

/-- Entries of the inbox of a core that are popped and not free again, of all its contexts. -/
def State.inboxHeld (s : State) (ci : Nat) : Nat := ((coreSlots ci).map fun sid => s.spaceHeld sid .inbox).sum
/-- Entries of a stream engine that are popped and not free again, of all contexts of its core. -/
def State.engineHeld (s : State) (ci e : Nat) : Nat := ((coreSlots ci).map fun sid => s.spaceHeld sid (.streamIn e)).sum

/-- Entries of a target that instructions of its context before the one of a `serial` still have to write. -/
def Ctx.toCome (c : Ctx) (ser : Nat) (t : Target) : Nat := (c.chq.takeWhile fun w => w.serial != ser).countP fun w => targetOf w.desc == t

/-- The entries of a target that are taken for the instruction of a `serial`: those it holds, those popped by instructions not yet retired, and
those to come of earlier instructions. -/
def State.targetLen (s : State) (sid ser : Nat) (t : Target) : Nat :=
  (match t with
   | .aq i => (s.ctx sid).aq[i.val].length
   | .streamOut e => (s.engOf sid e).buf.length
   | _ => 0) + s.spaceHeld sid t + (s.ctx sid).toCome ser t

/-- The entries of a stream engine's pattern (R230). -/
def patternCount (n : List Nat) : Nat := n.foldl (· * ·) 1

/-- Whether a stream-out engine has every entry of its pattern, those to come included: a write waits until the next SBIND (R230). -/
def State.patternOver (s : State) (sid ser : Nat) : Target → Bool
  | .streamOut e => let g := s.engOf sid e; decide (patternCount g.n ≤ g.moved + g.buf.length + (s.ctx sid).toCome ser (.streamOut e))
  | _ => false

/-- One entry appended to a target (R80). -/
def State.pushTarget (s : State) (sid : Nat) (v : Nat) : Target → State
  | .aq i => s.modCtx sid fun c => { c with aq := c.aq.set i.val (c.aq[i.val] ++ [w64 v]) }
  | .streamOut e => s.modEng sid e fun g => { g with buf := g.buf ++ [if g.wide then v else v % 2 ^ 64] }
  | _ => s

/-- Whether a channel write can be made in a cycle. -/
def ChanWrite.ripe (w : ChanWrite) (now : Nat) : Bool := w.value.isSome && decide (w.at_ ≤ now)

/-- The channel writes of a context that can be made, in program order (R94). -/
def State.landWrites (s : State) (sid : Nat) : State :=
  let ws := (s.ctx sid).chq.takeWhile fun w => w.ripe s.now
  (ws.foldl (fun s w => s.pushTarget sid (w.value.getD 0) (targetOf w.desc)) s).modCtx sid fun c => { c with chq := c.chq.drop ws.length }

/-- A channel write of the instruction that issued at a `serial`, in cycle `at_`, with its entry where it is known; it waits behind the earlier
ones of its context (R94). -/
def State.writeChan (s : State) (sid ser at_ : Nat) (n : BitVec 5) (v : Option Nat) : State :=
  (s.modCtx sid fun c => { c with chq := c.chq ++ [{ serial := ser, desc := (c.c[n.toNat]'n.isLt).toNat, at_ := at_, value := v }] }).landWrites sid

/-- The entry of an earlier channel write known, to be made in cycle `at_`. -/
def State.fillChan (s : State) (sid ser at_ v : Nat) (mem : Bool := false) : State :=
  (s.modCtx sid fun c => { c with chq := c.chq.map fun w => if w.serial = ser then { w with at_ := at_, value := some v, mem := mem } else w }).landWrites sid

/-- The first entry for a register taken off the awaited results. -/
def dropBusy (r : Nat) : List (Nat × Cause) → List (Nat × Cause)
  | [] => []
  | b :: l => if b.1 = r then l else b :: dropBusy r l

/-- What is late done for a context, where its cycle has come (R106, R116). -/
def Ctx.landLate (c : Ctx) (now : Nat) : Ctx :=
  let due := c.late.filter fun l => decide (l.at_ ≤ now)
  if due.isEmpty ∧ c.vlate.all (fun v => decide (now < v.2)) = true then c
  else { c with
    late := c.late.filter fun l => decide (now < l.at_)
    vlate := c.vlate.filter fun v => decide (now < v.2)
    busy := due.foldl (fun b l => match l.code with
      | some r => dropBusy r b
      | none => b) c.busy
    acq := if due.any Late.acq then none else c.acq }

/-- What a cycle brings to the contexts: results become usable, and channel entries are written (R94, R106, R116, R140). -/
def State.landAll (s : State) : State :=
  let s1 : State := { s with ctxs := s.ctxs.map fun e => (e.1, e.2.landLate s.now) }
  ((s1.ctxs.filter fun e => !e.2.chq.isEmpty).map Prod.fst).foldl State.landWrites s1

/-- A register of the running context is usable from a later cycle; until then its users are charged the cause given (R106). -/
def Ctx.usableAt (c : Ctx) (n : BitVec 5) (k : Cause) (at_ : Nat) : Ctx :=
  if n = 0 then c
  else { c with busy := c.busy ++ [(n.toNat, k)], late := c.late ++ [{ at_ := at_, code := some n.toNat, acq := false, space := [] }] }

/-! The shape of a vector instruction: which fields are of which kind (Table 05-7). -/

/-- The fields of a format V instruction. -/
structure VShape where
  /-- vd of kind V -/
  d : Option VDst := none
  /-- vd of kind V* or Vs -/
  ds : Option (BitVec 4) := none
  /-- vd of mask kind -/
  dk : Option (BitVec 3) := none
  /-- vs1 and vs2 of vector kind -/
  a : Option VSrc := none
  b : Option VSrc := none
  /-- the scalar destination of KPOPC -/
  dx : Option XDst := none
  /-- scalar fields: first and second -/
  xa : Option XSrc := none
  xb : Option XSrc := none
  /-- type5 and mask3 -/
  t : BitVec 5 := 0
  k : BitVec 3 := 0
  deriving DecidableEq, Repr

/-- The shape of a vector instruction; none for every other. -/
def vShape : Instr → Option VShape
  | .vadd d a b t k => some { d := some d, a := some a, b := some b, t := t, k := k }
  | .vaddSat d a b t k => some { d := some d, a := some a, b := some b, t := t, k := k }
  | .vsub d a b t k => some { d := some d, a := some a, b := some b, t := t, k := k }
  | .vsubSat d a b t k => some { d := some d, a := some a, b := some b, t := t, k := k }
  | .vmul d a b t k => some { d := some d, a := some a, b := some b, t := t, k := k }
  | .vmulSat d a b t k => some { d := some d, a := some a, b := some b, t := t, k := k }
  | .vfma d a b t k => some { ds := some d, a := some a, b := some b, t := t, k := k }
  | .vfms d a b t k => some { ds := some d, a := some a, b := some b, t := t, k := k }
  | .vmulh d a b t k => some { d := some d, a := some a, b := some b, t := t, k := k }
  | .vabs d a _ t k => some { d := some d, a := some a, t := t, k := k }
  | .vmin d a b t k => some { d := some d, a := some a, b := some b, t := t, k := k }
  | .vmax d a b t k => some { d := some d, a := some a, b := some b, t := t, k := k }
  | .vneg d a _ t k => some { d := some d, a := some a, t := t, k := k }
  | .vmov d a t k => some { d := some d, a := some a, t := t, k := k }
  | .vand d a b t k => some { d := some d, a := some a, b := some b, t := t, k := k }
  | .vor d a b t k => some { d := some d, a := some a, b := some b, t := t, k := k }
  | .vxor d a b t k => some { d := some d, a := some a, b := some b, t := t, k := k }
  | .vshr d a b t k => some { d := some d, a := some a, b := some b, t := t, k := k }
  | .vshl d a b t k => some { d := some d, a := some a, b := some b, t := t, k := k }
  | .vshlSat d a b t k => some { d := some d, a := some a, b := some b, t := t, k := k }
  | .vshra d a b t k => some { d := some d, a := some a, b := some b, t := t, k := k }
  | .vsel d a b t k => some { d := some d, a := some a, b := some b, t := t, k := k }
  | .vcmpEq d a b t k => some { dk := some d, a := some a, b := some b, t := t, k := k }
  | .vcmpNe d a b t k => some { dk := some d, a := some a, b := some b, t := t, k := k }
  | .vcmpLt d a b t k => some { dk := some d, a := some a, b := some b, t := t, k := k }
  | .vcmpLe d a b t k => some { dk := some d, a := some a, b := some b, t := t, k := k }
  | .vbcast d a t k => some { d := some d, xa := some a, t := t, k := k }
  | .vred d a _ t k => some { d := some d, a := some a, t := t, k := k }
  | .vcvt d a _ t k => some { d := some d, a := some a, t := t, k := k }
  | .vcvtSr d a _ t k => some { d := some d, a := some a, t := t, k := k }
  | .vperm d a b t k => some { d := some d, a := some a, b := some b, t := t, k := k }
  | .vslide d a b t k => some { d := some d, a := some a, xb := some b, t := t, k := k }
  | .vzip d a b t k => some { d := some d, a := some a, b := some b, t := t, k := k }
  | .vunzip d a b t k => some { d := some d, a := some a, b := some b, t := t, k := k }
  | .vdot d a b t k => some { ds := some d, a := some a, b := some b, t := t, k := k }
  | .vplane d a _ _ _ t k => some { d := some d, a := some a, t := t, k := k }
  | .vqnt d a b t k => some { d := some d, a := some a, xb := some b, t := t, k := k }
  | .vdqnt d a b t k => some { d := some d, a := some a, xb := some b, t := t, k := k }
  | .vrcp d a t k => some { d := some d, a := some a, t := t, k := k }
  | .vrsq d a t k => some { d := some d, a := some a, t := t, k := k }
  | .vex2 d a t k => some { d := some d, a := some a, t := t, k := k }
  | .vlg2 d a t k => some { d := some d, a := some a, t := t, k := k }
  | .vsin d a t k => some { d := some d, a := some a, t := t, k := k }
  | .vtanh d a t k => some { d := some d, a := some a, t := t, k := k }
  | .vld d a t k => some { d := some d, xa := some (.x a), t := t, k := k }
  | .vst d a t k => some { ds := some d, xa := some (.x a), t := t, k := k }
  | .vlds d a b t k => some { d := some d, xa := some (.x a), xb := some b, t := t, k := k }
  | .vsts d a b t k => some { ds := some d, xa := some (.x a), xb := some b, t := t, k := k }
  | .vgthr d a b t k => some { d := some d, xa := some (.x a), b := some b, t := t, k := k }
  | .vsctr d a b t k => some { ds := some d, xa := some (.x a), b := some b, t := t, k := k }
  | .kand d _ _ => some { dk := some d }
  | .kor d _ _ => some { dk := some d }
  | .knot d _ => some { dk := some d }
  | .kpopc d _ => some { dx := some d }
  | .setfmt _ a => some { xa := some a }
  | .peerv d _ => some { d := some (.v d) }
  | _ => none

/-- A channel number of format V as a channel number. -/
def ch5 (n : BitVec 4) : BitVec 5 := n.zeroExtend 5

/-- The channel of a vector source. -/
def vsrcChan : VSrc → List (BitVec 5)
  | .v _ => []
  | .ch n _ => [ch5 n]
/-- The channel of a vector destination. -/
def vdstChan : VDst → List (BitVec 5)
  | .v _ => []
  | .ch n => [ch5 n]

/-- The channel of a scalar destination of format V. -/
def xdstChan : XDst → List (BitVec 5)
  | .x _ => []
  | .ch n => [ch5 n]

/-- The channels a vector instruction writes when it completes (R80). -/
def VShape.outs (h : VShape) : List (BitVec 5) := h.d.toList.flatMap vdstChan ++ h.dx.toList.flatMap xdstChan

/-- The channels a vector instruction takes or writes when it binds or completes (R138). -/
def VShape.vchans (h : VShape) : List (BitVec 5) := h.outs ++ h.a.toList.flatMap vsrcChan ++ h.b.toList.flatMap vsrcChan

/-- The scalar registers a shape reads. -/
def VShape.xregs (h : VShape) : List Nat :=
  (h.xa.toList ++ h.xb.toList).flatMap fun x => match x with
    | .x n => [n.toNat]
    | .ch _ _ => []
/-- The channels a shape reads as scalars. -/
def VShape.xchans (h : VShape) : List (BitVec 5) :=
  (h.xa.toList ++ h.xb.toList).flatMap fun x => match x with
    | .x _ => []
    | .ch n _ => [ch5 n]
/-- The scalar register a shape writes. -/
def VShape.xouts (h : VShape) : List Nat :=
  h.dx.toList.flatMap fun d => match d with
    | .x n => [n.toNat]
    | .ch _ => []

/-- The channels a vector instruction names. -/
def VShape.chans (h : VShape) : List (BitVec 5) := h.vchans ++ h.xchans

/-- Channels of the vector instructions of a context that are in its sequencer and have not bound. -/
def State.unboundChans (s : State) (sid : Nat) (f : VShape → List (BitVec 5)) : List (BitVec 5) :=
  ((s.core (slotCore sid)).seq.filter fun e => e.sid == sid && !e.frame && !e.bound).flatMap fun e => match vShape e.i with
    | some h => f h
    | none => []

/-- The channels that a scalar form of a context must leave to the vector instructions in its sequencer (R141). -/
def State.seqChans (s : State) (sid : Nat) : List (BitVec 5) := s.unboundChans sid VShape.chans
/-- Those that an X-kind field of a vector instruction must leave: the others have taken theirs at issue (R138). -/
def State.seqVChans (s : State) (sid : Nat) : List (BitVec 5) := s.unboundChans sid VShape.vchans

/-! Fields of the scalar forms. -/

/-- The register number of a source. -/
def srcRes : Src → List Nat
  | .x n => [n.toNat]
  | .ch _ _ => []
/-- The register number of a destination. -/
def dstRes : Dst → List Nat
  | .x n => [n.toNat]
  | .ch _ => []
/-- The channel of a source. -/
def srcChan : Src → List (BitVec 5)
  | .x _ => []
  | .ch n _ => [n]
/-- The channel of a destination. -/
def dstChan : Dst → List (BitVec 5)
  | .x _ => []
  | .ch n => [n]

/-- The wait for results of the context's own earlier instructions, the earliest first: of registers `rs` it reads, and of registers `ds` it
writes, which is charged DEPEND (R65, R94). -/
def Ctx.awaitsFor (c : Ctx) (rs ds : List Nat) : Option Cause :=
  (c.busy.find? fun b => (rs ++ ds).contains b.1 && b.1 != 0).map fun b => if rs.contains b.1 then b.2 else .depend

/-- The wait for results that an instruction reads. -/
def Ctx.awaits (c : Ctx) (rs : List Nat) : Option Cause := c.awaitsFor rs []

/-- The rank of a cause among the conditions of a head that await neither a register nor a channel (R65): its place in Table 04-1. -/
def Cause.rank (k : Cause) : Nat :=
  match k with
  | .depend => 0
  | .slotWait => 1
  | .globalWait => 2
  | .matrixWait => 3
  | .chanEmpty => 4
  | .chanFull => 5
  | .seqFull => 6
  | .tileWait => 7
  | .quarantine => 8
  | .fence => 9
  | .restanteFull => 10
  | .undoFull => 11
  | _ => 12

/-- Of several conditions the one that is charged: the first in Table 04-1 (R65). -/
def firstCause : List (Option Cause) → Option Cause
  | [] => none
  | none :: l => firstCause l
  | some k :: l => match firstCause l with
    | some j => if j.rank < k.rank then some j else some k
    | none => some k

/-- Whether a request's translation has failed, and its instruction is to trap. -/
def ReqStage.failed (g : ReqStage) : Bool :=
  match g with
  | .faulted _ => true
  | _ => false

/-- Whether an instruction is a gather or scatter. -/
def isGather : Instr → Bool
  | .vgthr _ _ _ _ _ => true
  | .vsctr _ _ _ _ _ => true
  | _ => false

/-- Whether a request's translation is still to come, or has failed. -/
def ReqStage.opens (g : ReqStage) : Bool :=
  match g with
  | .translating => true
  | .walking => true
  | .faulted _ => true
  | _ => false

/-- What keeps every instruction of a context behind an earlier one of its own: a translation of a global load, atomic or vector load (R117, R123,
R158), or the checks of a gather or scatter (R158). While an instruction whose translation has failed waits to trap, what its trap waits for is charged
(R172, R222). -/
def State.gate (s : State) (sid : Nat) : Option Cause :=
  if (s.core (slotCore sid)).seq.any fun e => e.sid == sid && isGather e.i && (e.plan.isNone || e.bad.isSome ||
      (s.reqsOf sid).any fun r => r.serial == e.serial && r.stage.opens) then some .depend
  else if (s.reqsOf sid).any (fun r => r.stage.opens) || (s.core (slotCore sid)).seq.any (fun e => e.sid == sid && e.bad.isSome) then
    some (if (s.reqsOf sid).any fun r => r.stage.failed then (s.trapBlock sid).getD .globalWait else .globalWait)
  else none

/-- What an instruction waits for beside its registers and channel entries: an earlier instruction's translation or checks, the channels `named`
that it shares with the sequencer (R141), and a replaying frame (R166). `chs` are its channels, `wr` the x registers it writes. -/
def State.othersIn (s : State) (named chs : List (BitVec 5)) (wr : List Nat) : Option Cause :=
  firstCause [
    if chs.any fun n => named.contains n then some .depend else none,
    s.gate s.cur,
    match s.me.replay with
    | none => none
    | some r => if !chs.isEmpty || wr.any (fun n => r.guarded.contains n) then some .seqFull else none]

/-- Those of a scalar form. -/
def State.others (s : State) (chs : List (BitVec 5)) (wr : List Nat) : Option Cause := s.othersIn (s.seqChans s.cur) chs wr

/-- What an instruction without channel fields waits for: awaited results of the registers `rs` it reads and `wr` it writes, then the rest. -/
def State.holds (s : State) (rs : List Nat) (chs : List (BitVec 5)) (wr : List Nat) : Option Cause :=
  match s.me.awaitsFor rs wr with
  | some k => some k
  | none => s.others chs wr

/-- A channel entry read after earlier fields took `taken`, with the entries taken so far; none while there are too few (R79). -/
def State.readChan (s : State) (sid : Nat) (taken : List Target) (n : BitVec 5) (peek : Bool) : Option (Word × List Target) :=
  let t := (s.ctx sid).target n
  if t = .null then some (0, taken)
  else
    match ((s.scalarQueue sid t).getD []).drop (taken.count t) with
    | [] => none
    | v :: _ => some (v, if peek then taken else taken ++ [t])

/-- A scalar source field (R79). -/
def State.readSrc (s : State) (taken : List Target) : Src → Option (Word × List Target)
  | .x n => some (s.me.rx n, taken)
  | .ch n p => s.readChan s.cur taken n p

/-- Scalar source fields in order: their values, and the entries taken (R79). -/
def State.readSrcs (s : State) (taken : List Target) : List Src → Option (List Word × List Target)
  | [] => some ([], taken)
  | a :: l => match s.readSrc taken a with
    | none => none
    | some (v, t) => match s.readSrcs t l with
      | none => none
      | some (vs, t') => some (v :: vs, t')

/-- A scalar source field of format V (R78). -/
def State.readXSrc (s : State) (sid : Nat) (taken : List Target) : XSrc → Option (Word × List Target)
  | .x n => some ((s.ctx sid).rx (n.zeroExtend 5), taken)
  | .ch n p => s.readChan sid taken (ch5 n) p

/-- A popped word of an inbox tag put back. -/
def inboxUnpop (tag : Nat) (v : Word) (l : List InboxEntry) : List InboxEntry :=
  if (l.find? fun e => e.tag == tag).any InboxEntry.half then go l else { tag := tag, w0 := 0, w1 := v, half := true } :: l
where
  /-- Word 0 of the tag's oldest entry is unread again. -/
  go : List InboxEntry → List InboxEntry
    | [] => []
    | e :: l => if e.tag = tag then { e with half := false } :: l else e :: go l

/-- An entry that a scalar field popped given back to the target of a binding descriptor (R79). -/
def State.unpop (s : State) (sid d : Nat) (v : Word) : State :=
  match targetOf d with
  | .aq i => s.modCtx sid fun c => { c with aq := c.aq.set i.val (v :: c.aq[i.val]) }
  | .inbox => s.modCore (slotCore sid) fun k => { k with inbox := inboxUnpop (slotTag sid) v k.inbox }
  | .streamIn e => s.modEng sid e fun g => { g with buf := v.toNat :: g.buf }
  | .port => s.modCtx sid fun c => { c with win := c.win.map fun w => { w with port := w.port - 1, buf := v :: w.buf } }
  | _ => s

/-- Popped entries removed (R79). -/
def State.popAll (s : State) (sid : Nat) (taken : List Target) : State := taken.foldl (fun s t => s.popTarget sid 1 t) s

/-- Whether a source channel's binding cannot be read (R81). -/
def State.badSrc (s : State) (n : BitVec 5) : Bool := (s.scalarQueue s.cur (s.me.target n)).isNone
/-- Whether a destination channel's binding cannot be written by a scalar (R81). -/
def State.badDst (s : State) (n : BitVec 5) : Bool := (s.writeDepth s.cur false (s.me.target n)).isNone

/-- Whether a destination channel lacks space for the instruction of a `serial`, given the entries it pops (R80). -/
def State.dstFull (s : State) (sid ser : Nat) (taken : List Target) (n : BitVec 5) (vector : Bool) : Bool :=
  let t := (s.ctx sid).target n
  match s.writeDepth sid vector t with
  | none => false
  | some depth => t != .null && (decide (depth ≤ s.targetLen sid ser t - taken.count t) || s.patternOver sid ser t)

/-- Of the descriptors of popped channels, those whose pop frees an entry: an inbox entry is free once its word 1 is popped (R229). `half` tells
whether word 0 of the next entry has been popped. -/
def freeing (half : Bool) : List Nat → List Nat
  | [] => []
  | d :: l => if targetOf d = .inbox then (if half then d :: freeing false l else freeing true l) else d :: freeing half l

/-- The descriptors of popped channels of a context whose pops free an entry. -/
def State.freed (s : State) (sid : Nat) (ns : List (BitVec 5)) : List Nat :=
  freeing (((s.core (slotCore sid)).inbox.find? fun e => e.tag == slotTag sid).any InboxEntry.half) (ns.map fun n => ((s.ctx sid).c[n.toNat]'n.isLt).toNat)

/-- The descriptors of the channels whose entries source fields pop and free (R94). -/
def State.popDescs (s : State) (l : List Src) : List Nat :=
  s.freed s.cur (l.filterMap fun a => match a with
    | .ch n false => some n
    | _ => none)

/-- The channels whose entries scalar fields of format V pop. -/
def VShape.xpops (h : VShape) : List (BitVec 5) :=
  (h.xa.toList ++ h.xb.toList).filterMap fun x => match x with
    | .ch n false => some (ch5 n)
    | _ => none

/-- The space of popped entries, free again once the instruction retires in cycle `at_` (R94). -/
def Ctx.freesAt (c : Ctx) (ds : List Nat) (at_ : Nat) : Ctx :=
  if ds.isEmpty then c else { c with late := c.late ++ [{ at_ := at_, code := none, acq := false, space := ds }] }

/-- The result of a scalar form of latency `l` (Table 06-10), written to its destination; a register is usable, and a channel entry written, `l`
cycles after the issue (R80, R93, R106). -/
def State.writeDst (s : State) (l : Nat) (d : Dst) (v : Word) : State :=
  match d with
  | .x n => s.upd fun c => if l ≤ 1 then c.wx n v else (c.wx n v).usableAt n .depend (s.now + l)
  | .ch n => s.writeChan s.cur s.me.serial (s.now + l) n (some v.toNat)

/-- What the operand fields of a scalar form wait for, in the order of R65: awaited registers; channel space and entries in field order (a channel
that cannot be so used traps, R81); whatever else. None where nothing keeps it. `w` is its word, `more` what its kind waits for beside. -/
def State.fieldStop (s : State) (w : Word) (d : List Dst) (srcs : List Src) (rs : List Nat) (more : List (Option Cause)) : Option Res :=
  let chs := d.flatMap dstChan ++ srcs.flatMap srcChan
  match s.me.awaitsFor (rs ++ srcs.flatMap srcRes) (d.flatMap dstRes) with
  | some k => some (.wait k)
  | none =>
    if (srcs.flatMap srcChan).any s.badSrc || (d.flatMap dstChan).any s.badDst then some (.trap .channelFault w)
    else if (d.flatMap dstChan).any fun n => s.dstFull s.cur s.me.serial ((s.popDescs srcs).map targetOf) n false then some (.wait .chanFull)
    else if (s.readSrcs [] srcs).isNone then some (.wait .chanEmpty)
    else (firstCause (s.others chs (d.flatMap dstRes) :: more)).map Res.wait

/-- A scalar form whose sources have been read: its entries are removed, its result is written, the next instruction follows. -/
def State.retire (s : State) (l : Nat) (srcs : List Src) (taken : List Target) (d : Dst) (v : Word) : Res :=
  .ok ((((s.popAll s.cur taken).writeDst l d v).upd fun c => if l ≤ 1 then c else c.freesAt (s.popDescs srcs) (s.now + l)).adv)

/-- A scalar form of one source (R92 to R96) and latency `l`: `w` is its word. -/
def scalar1 (s : State) (w : Word) (l : Nat) (d : Dst) (a : Src) (f : Word → Word) : Res :=
  match s.fieldStop w [d] [a] [] [] with
  | some r => r
  | none =>
    match s.readSrcs [] [a] with
    | some ([x], t) => s.retire l [a] t d (f x)
    | _ => .wait .chanEmpty

/-- A scalar form of two sources (R92 to R96). -/
def scalar2 (s : State) (w : Word) (l : Nat) (d : Dst) (a b : Src) (f : Word → Word → Word) : Res :=
  match s.fieldStop w [d] [a, b] [] [] with
  | some r => r
  | none =>
    match s.readSrcs [] [a, b] with
    | some ([x, y], t) => s.retire l [a, b] t d (f x y)
    | _ => .wait .chanEmpty

/-- A form on registers alone, which waits for awaited results and guarded registers (R94, R166). -/
def State.regs (s : State) (rs : List (BitVec 5)) (wr : List (BitVec 5)) (r : Res) : Res :=
  match s.holds (rs.map BitVec.toNat) [] (wr.map BitVec.toNat) with
  | some k => .wait k
  | none => r

end Sys2Proof.Machine
end

