-- ==== Sys2Proof/Machine/Float.lean ====
section
/-!
DEFINITION. Floating-point formats and exact values (R45 to R48).

An element of a format is a natural number, its encoding. `Fmt.value` reads it as an exact value: a NaN, an infinity, or a
sign with a magnitude `m * 2^e`.
-/

namespace Sys2Proof.Machine

/-- A floating-point format (Tables 03-1 and 03-2). -/
structure Fmt where
  /-- exponent width -/
  ew : Nat
  /-- mantissa width -/
  mw : Nat
  /-- exponent bias -/
  bias : Nat
  /-- 0 every encoding finite, 1 one NaN per sign, 2 the IEEE rule (Table 03-2) -/
  spec : Nat
  /-- whether a NaN whose top mantissa bit is 0 is signalling (R46) -/
  snan : Bool
  deriving DecidableEq, Repr

/-- binary64 -/
def fmt64 : Fmt := ⟨11, 52, 1023, 2, true⟩
/-- binary32 -/
def fmt32 : Fmt := ⟨8, 23, 127, 2, true⟩
/-- binary16 -/
def fmt16 : Fmt := ⟨5, 10, 15, 2, true⟩
/-- BF16 -/
def fmtBf16 : Fmt := ⟨8, 7, 127, 2, true⟩
/-- FP8 E4M3 -/
def fmtE4M3 : Fmt := ⟨4, 3, 7, 1, false⟩
/-- FP8 E5M2 -/
def fmtE5M2 : Fmt := ⟨5, 2, 15, 2, false⟩
/-- FP6 E3M2 -/
def fmtE3M2 : Fmt := ⟨3, 2, 3, 0, false⟩
/-- FP6 E2M3 -/
def fmtE2M3 : Fmt := ⟨2, 3, 1, 0, false⟩
/-- FP4 E2M1 -/
def fmtE2M1 : Fmt := ⟨2, 1, 1, 0, false⟩

/-- The width of an encoding. -/
def Fmt.width (f : Fmt) : Nat := 1 + f.ew + f.mw

/-- The encoding of the largest finite magnitude. -/
def Fmt.maxCode (f : Fmt) : Nat :=
  if f.spec = 0 then 2 ^ (f.ew + f.mw) - 1
  else if f.spec = 1 then 2 ^ (f.ew + f.mw) - 2
  else (2 ^ f.ew - 1) * 2 ^ f.mw - 1

/-- Whether the format has infinities. -/
def Fmt.hasInf (f : Fmt) : Bool := decide (f.spec = 2)
/-- Whether the format has a NaN. -/
def Fmt.hasNaN (f : Fmt) : Bool := decide (f.spec ≠ 0)
/-- The encoding of +∞. -/
def Fmt.infCode (f : Fmt) : Nat := (2 ^ f.ew - 1) * 2 ^ f.mw
/-- The canonical NaN (Table 03-1); +0 where the format has none. DESIGN CHOICE (log 24): a format of a format register with SPEC 2 that Table 03-1 does
not list has the exponent all ones and the top mantissa bit alone, as those listed have. -/
def Fmt.nanCode (f : Fmt) : Nat :=
  if f.spec = 0 then 0
  else if f.spec = 1 then 2 ^ (f.ew + f.mw) - 1
  else f.infCode + 2 ^ (f.mw - 1)
/-- The sign bit's place value. -/
def Fmt.signBit (f : Fmt) : Nat := 2 ^ (f.ew + f.mw)
/-- A magnitude's encoding with a sign. -/
def Fmt.signed (f : Fmt) (neg : Bool) (code : Nat) : Nat := if neg then code + f.signBit else code
/-- The exponent of the least subnormal. -/
def Fmt.emin (f : Fmt) : Int := 1 - (f.bias : Int) - (f.mw : Int)

/-- An exact value. -/
inductive XVal where
  | nan (signalling : Bool)
  | inf (neg : Bool)
  | fin (neg : Bool) (m : Nat) (e : Int)
  deriving DecidableEq, Repr

/-- The exact value of an encoding (R46). -/
def Fmt.value (f : Fmt) (c : Nat) : XVal :=
  let neg := c.testBit (f.ew + f.mw)
  let mag := c % f.signBit
  let e := mag / 2 ^ f.mw
  let m := mag % 2 ^ f.mw
  if f.maxCode < mag then
    if f.hasInf && decide (m = 0) then .inf neg
    else .nan (f.snan && !m.testBit (f.mw - 1))
  else if e = 0 then .fin neg m f.emin
  else .fin neg (2 ^ f.mw + m) (f.emin + (e : Int) - 1)

/-- Whether a value is a NaN. -/
def XVal.isNaN : XVal → Bool
  | .nan _ => true
  | _ => false
/-- Whether a value is a signalling NaN. -/
def XVal.isSNaN : XVal → Bool
  | .nan s => s
  | _ => false
/-- Whether a value is an infinity. -/
def XVal.isInf : XVal → Bool
  | .inf _ => true
  | _ => false
/-- Whether a value is a zero. -/
def XVal.isZero : XVal → Bool
  | .fin _ m _ => decide (m = 0)
  | _ => false
/-- The sign of a value. -/
def XVal.neg : XVal → Bool
  | .nan _ => false
  | .inf n => n
  | .fin n _ _ => n
/-- A value with its sign inverted. -/
def XVal.flip : XVal → XVal
  | .nan s => .nan s
  | .inf n => .inf (!n)
  | .fin n m e => .fin (!n) m e

/-- An integer as an exact value; zero is +0. -/
def XVal.ofInt (i : Int) : XVal := .fin (decide (i < 0)) i.natAbs 0

/-- The integer `±m * 2^(e - b)` for `b ≤ e`. -/
def scaledInt (neg : Bool) (m : Nat) (e b : Int) : Int :=
  let v : Int := (m * 2 ^ (e - b).toNat : Nat)
  if neg then -v else v

/-- The exact sum of two finite magnitudes, with the sign of an exact zero given (R46). -/
def addFin (zneg : Bool) (n1 : Bool) (m1 : Nat) (e1 : Int) (n2 : Bool) (m2 : Nat) (e2 : Int) : XVal :=
  if m1 = 0 ∧ m2 = 0 then .fin (if n1 = n2 then n1 else zneg) 0 0
  else
    let b := min e1 e2
    let v := scaledInt n1 m1 e1 b + scaledInt n2 m2 e2 b
    if v = 0 then .fin zneg 0 0 else .fin (decide (v < 0)) v.natAbs b

/-- The exact sum; a NaN for ∞ - ∞. `zneg` is the sign of a zero sum of unlike signs. -/
def XVal.add (zneg : Bool) : XVal → XVal → XVal
  | .nan _, _ => .nan false
  | _, .nan _ => .nan false
  | .inf a, .inf b => if a = b then .inf a else .nan false
  | .inf a, .fin _ _ _ => .inf a
  | .fin _ _ _, .inf b => .inf b
  | .fin n1 m1 e1, .fin n2 m2 e2 => addFin zneg n1 m1 e1 n2 m2 e2

/-- The exact product; a NaN for 0 × ∞. -/
def XVal.mul : XVal → XVal → XVal
  | .nan _, _ => .nan false
  | _, .nan _ => .nan false
  | .inf a, .inf b => .inf (a != b)
  | .inf a, .fin n m _ => if m = 0 then .nan false else .inf (a != n)
  | .fin n m _, .inf b => if m = 0 then .nan false else .inf (n != b)
  | .fin n1 m1 e1, .fin n2 m2 e2 => .fin (n1 != n2) (m1 * m2) (e1 + e2)

/-- Whether a sum of two non-NaN values has no defined result (∞ - ∞). -/
def XVal.addInvalid : XVal → XVal → Bool
  | .inf a, .inf b => a != b
  | _, _ => false
/-- Whether a product has no defined result (0 × ∞). -/
def XVal.mulInvalid (a b : XVal) : Bool := (a.isInf && b.isZero) || (a.isZero && b.isInf)

/-- Whether `a < b` for values that are not NaNs; both zeros are equal. -/
def XVal.lt : XVal → XVal → Bool
  | .nan _, _ => false
  | _, .nan _ => false
  | .inf a, .inf b => a && !b
  | .inf a, .fin _ _ _ => a
  | .fin _ _ _, .inf b => !b
  | .fin n1 m1 e1, .fin n2 m2 e2 =>
    let b := min e1 e2
    decide (scaledInt n1 m1 e1 b < scaledInt n2 m2 e2 b)

/-- Whether two values that are not NaNs are equal; both zeros are equal. -/
def XVal.eq (a b : XVal) : Bool := !a.isNaN && !b.isNaN && !a.lt b && !b.lt a

/-! Format registers (R47, R48). -/

/-- Whether a format register's value describes a format (R48), for elements of width `w`. -/
def fmValid (fm w : Nat) : Bool :=
  let ew := bitsOf fm 2 0
  let mw := bitsOf fm 5 3
  decide (1 + ew + mw = w) && decide (2 ≤ ew ∧ ew ≤ 5) && decide (1 ≤ mw ∧ mw ≤ 5) &&
    decide (bitsOf fm 12 11 ≠ 3) && decide (bitsOf fm 15 13 = 0)

/-- The format a format register describes (Table 03-2). -/
def fmFormat (fm : Nat) : Fmt := ⟨bitsOf fm 2 0, bitsOf fm 5 3, bitsOf fm 10 6, bitsOf fm 12 11, false⟩

/-- The format of a float type, given the value of the format register it names; none for an integer type. -/
def typeFmt (t : TypeCode) (fm : Nat) : Option Fmt :=
  if tIsInt t then none
  else if tIsNarrow t then some (fmFormat fm)
  else match t.toNat with
    | 12 => some fmt16
    | 13 => some fmtBf16
    | 14 => some fmt32
    | _ => some fmt64

end Sys2Proof.Machine
end

