-- ==== Sys2Proof/Machine/Flags.lean ====
section
/-!
DEFINITION. Rounding and the five floating-point flags (R53 to R57).

Every operation answers an encoding and the flags it raises, a `Flags` of bits NV, DZ, OF, UF, NX (Table 03-4).
-/

namespace Sys2Proof.Machine

/-- The five flags: NV bit 4, DZ bit 3, OF bit 2, UF bit 1, NX bit 0. -/
abbrev Flags := BitVec 5

/-- Invalid operation. -/
def flNV : Flags := 16
/-- Division by zero. -/
def flDZ : Flags := 8
/-- Overflow. -/
def flOF : Flags := 4
/-- Underflow. -/
def flUF : Flags := 2
/-- Inexact. -/
def flNX : Flags := 1
/-- A flag where a condition holds. -/
def flagIf (c : Bool) (f : Flags) : Flags := if c then f else 0

/-- The rounding modes of RMODE (R53). -/
inductive RMode where
  | rne | rtz | rup | rdn
  deriving DecidableEq, Repr

/-- The mode RMODE selects. -/
def RMode.ofBits (n : BitVec 2) : RMode :=
  match n.toNat with
  | 0 => .rne
  | 1 => .rtz
  | 2 => .rup
  | _ => .rdn

/-- Whether a magnitude with integer part `hi` and remainder `lo` of `2^r` rounds away from zero. -/
def roundUp (rm : RMode) (neg : Bool) (hi lo r : Nat) : Bool :=
  match rm with
  | .rne => decide (2 ^ r < 2 * lo) || (decide (2 * lo = 2 ^ r) && hi.testBit 0)
  | .rtz => false
  | .rup => !neg && decide (lo ≠ 0)
  | .rdn => neg && decide (lo ≠ 0)

/-- `m * 2^e` rounded to a multiple of `2^q`: the multiple, and whether it is inexact. -/
def roundAt (rm : RMode) (neg : Bool) (m : Nat) (e q : Int) : Nat × Bool :=
  if q ≤ e then (m * 2 ^ (e - q).toNat, false)
  else
    let r := (q - e).toNat
    let hi := m / 2 ^ r
    let lo := m % 2 ^ r
    ((if roundUp rm neg hi lo r then hi + 1 else hi), decide (lo ≠ 0))

/-- The exponent of the unit in the last place that a magnitude `m * 2^e` has in a format. -/
def Fmt.ulpExp (f : Fmt) (m : Nat) (e : Int) : Int := max ((m.log2 : Int) + e - (f.mw : Int)) f.emin

/-- The magnitude code of `sig * 2^q`, for `q` the unit that `sig` was rounded at. -/
def Fmt.codeAt (f : Fmt) (sig : Nat) (q : Int) : Nat := (q - f.emin).toNat * 2 ^ f.mw + sig

/-- Whether `m * 2^e` is tiny: rounded to the format's precision with an unbounded exponent it lies below the smallest
normal value (R55, tininess after rounding). -/
def Fmt.tiny (f : Fmt) (rm : RMode) (neg : Bool) (m : Nat) (e : Int) : Bool :=
  let top : Int := (m.log2 : Int) + e
  let q := top - (f.mw : Int)
  let sig := (roundAt rm neg m e q).1
  decide (m ≠ 0) && (decide (top + 1 < 1 - (f.bias : Int)) ||
    (decide (top + 1 = 1 - (f.bias : Int)) && decide (sig < 2 ^ (f.mw + 1))))

/-- Whether an overflow gives an infinity (the overflow rule of R57). -/
def overflowToInf (f : Fmt) (rm : RMode) (sat neg : Bool) : Bool :=
  f.hasInf && !sat &&
    (match rm with
     | .rne => true
     | .rtz => false
     | .rup => !neg
     | .rdn => neg)

/-- A finite value rounded to a format, with OF, UF and NX (R56, R57). -/
def Fmt.roundFin (f : Fmt) (rm : RMode) (sat neg : Bool) (m : Nat) (e : Int) : Nat × Flags :=
  if m = 0 then (f.signed neg 0, 0)
  else
    let q := f.ulpExp m e
    let r := roundAt rm neg m e q
    let code := f.codeAt r.1 q
    if f.maxCode < code then
      (f.signed neg (if overflowToInf f rm sat neg then f.infCode else f.maxCode), flOF ||| flNX)
    else (f.signed neg code, flagIf r.2 flNX ||| flagIf (r.2 && f.tiny rm neg m e) flUF)

/-- The canonical NaN as a result; a format without one gives +0 and raises NV (R144). -/
def Fmt.nanResult (f : Fmt) : Nat × Flags := (f.nanCode, flagIf (!f.hasNaN) flNV)

/-- The exact value rounded once to a format. -/
def Fmt.round (f : Fmt) (rm : RMode) (sat : Bool) : XVal → Nat × Flags
  | .nan _ => f.nanResult
  | .inf neg => if f.hasInf then (f.signed neg f.infCode, 0) else (f.signed neg f.maxCode, flNV)
  | .fin neg m e => f.roundFin rm sat neg m e

/-- NV for a signalling NaN among the inputs. -/
def snanFlag (l : List XVal) : Flags := flagIf (l.any XVal.isSNaN) flNV

/-- The sign of a zero sum of unlike signs: negative only when rounding towards -∞. -/
def RMode.zeroNeg (rm : RMode) : Bool := decide (rm = .rdn)

/-- round(a + b). -/
def Fmt.fadd (f : Fmt) (rm : RMode) (sat : Bool) (a b : Nat) : Nat × Flags :=
  let x := f.value a
  let y := f.value b
  let r := f.round rm sat (x.add rm.zeroNeg y)
  (r.1, r.2 ||| snanFlag [x, y] ||| flagIf (x.addInvalid y) flNV)

/-- round(a - b). -/
def Fmt.fsub (f : Fmt) (rm : RMode) (sat : Bool) (a b : Nat) : Nat × Flags :=
  let x := f.value a
  let y := (f.value b)
  let r := f.round rm sat (x.add rm.zeroNeg y.flip)
  (r.1, r.2 ||| snanFlag [x, y] ||| flagIf (x.addInvalid y.flip) flNV)

/-- round(a × b). -/
def Fmt.fmul (f : Fmt) (rm : RMode) (sat : Bool) (a b : Nat) : Nat × Flags :=
  let x := f.value a
  let y := f.value b
  let r := f.round rm sat (x.mul y)
  (r.1, r.2 ||| snanFlag [x, y] ||| flagIf (x.mulInvalid y) flNV)

/-- round(a × b + c), one rounding (R59); `sub` subtracts c. -/
def Fmt.ffma (f : Fmt) (rm : RMode) (sub : Bool) (a b c : Nat) : Nat × Flags :=
  let x := f.value a
  let y := f.value b
  let z := if sub then (f.value c).flip else f.value c
  let p := x.mul y
  let r := f.round rm false (p.add rm.zeroNeg z)
  (r.1, r.2 ||| snanFlag [x, y, f.value c] ||| flagIf (x.mulInvalid y || p.addInvalid z) flNV)

/-- Float VMIN and VMAX (R145): -0 below +0, a lone NaN gives the other input. -/
def Fmt.fminmax (f : Fmt) (isMax : Bool) (a b : Nat) : Nat × Flags :=
  let x := f.value a
  let y := f.value b
  let fl := snanFlag [x, y]
  if x.isNaN && y.isNaN then (f.nanCode, fl)
  else if x.isNaN then (b, fl)
  else if y.isNaN then (a, fl)
  else
    let aLess := x.lt y || (x.eq y && x.neg && !y.neg)
    ((if aLess != isMax then a else b), fl)

/-- The integer nearest to `num / den` in a mode, with the inexact bit; `den` is not zero. -/
def roundRatio (rm : RMode) (neg : Bool) (num den : Nat) : Nat × Bool :=
  let hi := num / den
  let lo := num % den
  let up := match rm with
    | .rne => decide (den < 2 * lo) || (decide (2 * lo = den) && hi.testBit 0)
    | .rtz => false
    | .rup => !neg && decide (lo ≠ 0)
    | .rdn => neg && decide (lo ≠ 0)
  ((if up then hi + 1 else hi), decide (lo ≠ 0))

/-- The least and the largest value of an integer type. -/
def intMin (signed : Bool) (w : Nat) : Int := if signed then -(2 ^ (w - 1) : Nat) else 0
/-- The largest value of an integer type. -/
def intMax (signed : Bool) (w : Nat) : Int := if signed then (2 ^ (w - 1) : Nat) - 1 else (2 ^ w : Nat) - 1
/-- An integer reduced modulo `2^w` to an encoding. -/
def wrapInt (w : Nat) (i : Int) : Nat := (i % (2 ^ w : Nat)).toNat
/-- An encoding read as an integer of a type. -/
def readInt (signed : Bool) (w : Nat) (c : Nat) : Int :=
  if signed && decide (2 ^ (w - 1) ≤ c) then (c : Int) - (2 ^ w : Nat) else (c : Int)
/-- An integer clamped to a type's range, as an encoding. -/
def clampInt (signed : Bool) (w : Nat) (i : Int) : Nat :=
  wrapInt w (max (intMin signed w) (min (intMax signed w) i))

/-- Float to integer (Table 03-5). -/
def floatToInt (rm : RMode) (signed : Bool) (w : Nat) : XVal → Nat × Flags
  | .nan _ => (0, flNV)
  | .inf neg => (wrapInt w (if neg then intMin signed w else intMax signed w), flNV)
  | .fin neg m e =>
    let r := roundAt rm neg m e 0
    let i : Int := if neg then -(r.1 : Int) else (r.1 : Int)
    if i < intMin signed w then (wrapInt w (intMin signed w), flNV)
    else if intMax signed w < i then (wrapInt w (intMax signed w), flNV)
    else (wrapInt w i, flagIf r.2 flNX)

/-- Float to float (Table 03-5); an input that raises NV raises NV alone. -/
def floatToFloat (rm : RMode) (sat : Bool) (dst : Fmt) (x : XVal) : Nat × Flags :=
  match x with
  | .nan s => (dst.nanCode, flagIf (s || !dst.hasNaN) flNV)
  | _ => dst.round rm sat x

/-! Stochastic rounding (R54). -/

/-- The constant G. -/
def srG : Nat := 0x9E3779B97F4A7C15

/-- The mixing function, modulo 2^64. -/
def srMix (z0 : Nat) : Nat :=
  let z1 := ((z0 ^^^ (z0 >>> 30)) * 0xBF58476D1CE4E5B9) % 2 ^ 64
  let z2 := ((z1 ^^^ (z1 >>> 27)) * 0x94D049BB133111EB) % 2 ^ 64
  z2 ^^^ (z2 >>> 31)

/-- The 24 bits drawn in lane `i`. -/
def srDraw (seed i : Nat) : Nat := srMix ((seed + (i + 1) * srG) % 2 ^ 64) >>> 40

/-- A value rounded stochastically to a format in lane `i` (R54). -/
def Fmt.srRound (f : Fmt) (sat : Bool) (seed i : Nat) (x : XVal) : Nat × Flags :=
  match x with
  | .fin neg m e =>
    if m = 0 then (f.signed neg 0, 0)
    else
      let q := f.ulpExp m e
      let r := roundAt .rtz neg m e q
      let a := f.codeAt r.1 q
      -- past the largest finite value: the result of R57 in mode RTZ
      if f.maxCode < a || (decide (a = f.maxCode) && r.2) then floatToFloat .rtz sat f x
      else if !r.2 then (f.signed neg a, 0)
      else
        -- |v - a| / |b - a| = lo / 2^k, where one unit of the last place is 2^q
        let k := (q - e).toNat
        let lo := m % 2 ^ k
        let up := decide (srDraw seed i * 2 ^ k < lo * 2 ^ 24)
        let code := if up then a + 1 else a
        (f.signed neg code, flNX ||| flagIf (decide (code < 2 ^ f.mw)) flUF)
  | _ => floatToFloat .rtz sat f x

end Sys2Proof.Machine
end

