-- ==== Sys2Proof/Machine/Lanes.lean ====
section
/-!
DEFINITION. Elements of vector registers and masks (R49, R51, R135, R137).
-/

namespace Sys2Proof.Machine

/-- Element `i` of width 4 or 6 in a bit-plane image (R51): bit `i mod 64` of each plane word of group `i / 64`. -/
def planeGet (w n i : Nat) : Nat :=
  let base := 64 * w * (i / 64) + i % 64
  (List.range w).foldr (fun p acc => 2 * acc + bit1 n (base + 64 * p)) 0

/-- Element `i` of width `w` of a register image (R49, R51). -/
def laneGet (w n i : Nat) : Nat := if w < 8 then planeGet w n i else (n >>> (w * i)) % 2 ^ w

/-- The image of a list of elements of at least 8 bits, element 0 lowest. -/
def packWhole (w : Nat) : List Nat → Nat
  | [] => 0
  | c :: l => c % 2 ^ w + 2 ^ w * packWhole w l

/-- One plane word: bit `p` of each element of a group. -/
def planeWord (p : Nat) : List Nat → Nat
  | [] => 0
  | c :: l => bit1 c p + 2 * planeWord p l

/-- The image of `n` groups of elements of width 4 or 6 (R51). -/
def packPlanes (w : Nat) : Nat → List Nat → Nat
  | 0, _ => 0
  | n + 1, l =>
    let g := l.take 64
    (List.range w).foldr (fun p acc => planeWord p g + 2 ^ 64 * acc) 0 + 2 ^ (64 * w) * packPlanes w n (l.drop 64)

/-- The image of the elements of a register; a 6-bit register's bits 3840 and up keep what `old` holds there (R51, R137). -/
def packLanes (w : Nat) (old : VReg) (l : List Nat) : VReg :=
  if w = 6 then BitVec.ofNat 4096 (packPlanes 6 10 l + (old.toNat / 2 ^ 3840) * 2 ^ 3840)
  else if w < 8 then BitVec.ofNat 4096 (packPlanes w 16 l)
  else BitVec.ofNat 4096 (packWhole w l)

/-- The elements of a register. -/
def lanes (w L : Nat) (v : VReg) : List Nat := (List.range L).map (laneGet w v.toNat)

/-- The mask an instruction runs under: `none` for k0, which masks nothing (R6, R137). -/
abbrev Mask := Option KReg

/-- Whether lane `i` is active (R137). -/
def Mask.active (m : Mask) (i : Nat) : Bool :=
  match m with
  | none => true
  | some k => k.getLsbD i

/-- A result with the flags its lanes raised. -/
abbrev VRes := VReg × Flags

/-- Every active lane `i < L` written with `f i`, which also raises flags; the others keep their elements (R137). -/
def mapLanes (w L : Nat) (m : Mask) (old : VReg) (f : Nat → Nat × Flags) : VRes :=
  let rs := (List.range L).map fun i => if m.active i then some (f i) else none
  let outs := (List.range L).zip rs |>.map fun p =>
    match p.2 with
    | some r => r.1
    | none => laneGet w old.toNat p.1
  -- lanes at and above L keep their elements
  let rest := (List.range (lanesOf w - L)).map fun j => laneGet w old.toNat (L + j)
  (packLanes w old (outs ++ rest), rs.foldl (fun acc r => match r with | some x => acc ||| x.2 | none => acc) 0)

/-- A mask register whose bit `i` is `f i` for `i < 1024`, with the flags raised. -/
def mapMask (f : Nat → Bool × Flags) : KReg × Flags :=
  let rs := (List.range 1024).map f
  (BitVec.ofNat 1024 (rs.foldr (fun r acc => (if r.1 then 1 else 0) + 2 * acc) 0), rs.foldl (fun acc r => acc ||| r.2) 0)

/-- A channel entry of `n` bits repeated to fill a register (R138); `n` divides 4,096. -/
def repeatEntry (n v : Nat) : VReg :=
  BitVec.ofNat 4096 ((List.range (4096 / n)).foldr (fun _ acc => v % 2 ^ n + 2 ^ n * acc) 0)

end Sys2Proof.Machine
end

