-- ==== Sys2Proof/Machine/Tags.lean ====
section
/-!
DEFINITION. Tile tags and rings: their fields, the rules of R193, and the steps that move a ring (R192 to R203).
-/

namespace Sys2Proof.Machine

/-! Fields of a tag (Table 10-1). -/

/-- BAL, signed. -/
def tagBal (w : Word) : Int := (w.extractLsb' 0 24).toInt
/-- EXP. -/
def tagExp (w : Word) : Bool := w.getLsbD 24
/-- FULL. -/
def tagFull (w : Word) : Bool := w.getLsbD 25
/-- CONS. -/
def tagCons (w : Word) : Bool := w.getLsbD 26
/-- VALID. -/
def tagValid (w : Word) : Bool := w.getLsbD 27
/-- OVR. -/
def tagOvr (w : Word) : Bool := w.getLsbD 28
/-- WAIT. -/
def tagWaitBits (w : Word) : BitVec 8 := w.extractLsb' 32 8

/-- A tag from its fields. -/
def mkTag (wait : BitVec 8) (ovr valid cons full exp : Bool) (bal : Int) : Word :=
  w64 (wait.toNat * 2 ^ 32 + (if ovr then 2 ^ 28 else 0) + (if valid then 2 ^ 27 else 0) + (if cons then 2 ^ 26 else 0) +
    (if full then 2 ^ 25 else 0) + (if exp then 2 ^ 24 else 0) + (BitVec.ofInt 24 bal).toNat)

/-- Whether a balance does not fit its field. -/
def balOut (b : Int) : Bool := decide (b < -(2 ^ 23 : Nat) ∨ (2 ^ 23 : Nat) - 1 < b)

/-- Rules 1 and 2 of R193 on the fields of a tag whose balance has become `bal`. -/
def tagRules (wait : BitVec 8) (ovr valid cons full exp : Bool) (bal : Int) : Word :=
  let ovr' := ovr || (valid && balOut bal) || (exp && decide (0 < bal))
  if valid && !ovr' && !full && exp && decide (bal = 0) then mkTag wait ovr' valid cons true false bal
  else mkTag wait ovr' valid cons full exp bal

/-- A tag's value. -/
def State.tag (s : State) (cl n : Nat) : Word := Tab.get 0 (s.clu cl).tags n

/-- Whether a TWAIT's condition holds (R203). -/
def tagMeets (w : Word) (empty : Bool) : Bool := if empty then !tagFull w else tagFull w

/-- A sleeper in TWAIT wakes with a result, and its next instruction may issue in the next cycle; the result is usable three cycles after this one, and
with 0 the TWAIT is an acquire until then (R203). -/
def Ctx.wakeTag (c : Ctx) (v : Word) (now : Nat) : Ctx :=
  match c.act with
  | .waitTag d _ _ _ =>
    let r := (c.wx d v).usableAt d .slotWait (now + 3)
    { r with
      act := .running, pc := c.next, pause := some (.tileWait, now + 1), acq := if v = 0 then some .slotWait else r.acq
      late := if v = 0 then r.late ++ [{ at_ := now + 3, code := none, acq := true, space := [] }] else r.late }
  | _ => c

/-- Whether a context sleeps in TWAIT on a tag, and for EMPTY. -/
def Ctx.tagWait (c : Ctx) : Option (Nat × Bool) :=
  match c.act with
  | .waitTag _ t e _ => some (t, e)
  | _ => none

/-- The bit of a resident slot in WAIT: 2 · core + slot. -/
def waitBit (sid : Nat) : BitVec 8 := 1 <<< (sid % 10)

/-- Rule 3 of R193: every TWAIT on the tag whose condition holds is woken with a result, and its WAIT bit is cleared. -/
def State.wakeTags (s : State) (cl n : Nat) (all : Bool) (v : Word) : State :=
  ((List.range 8).map fun l => 10 * cl + l).foldl (fun s sid =>
    match (s.ctx sid).tagWait with
    | some (t, e) =>
      if t = n && (all || tagMeets (s.tag cl n) e) then
        (s.modCtx sid fun c => c.wakeTag v s.now).modClu cl fun c =>
          { c with tags := Tab.set 0 c.tags n (Tab.get 0 c.tags n &&& ~~~((waitBit sid).zeroExtend 64 <<< 32)) }
      else s
    | none => s) s

/-- A tag changed at its bank unit: the change `w`, and rule 3 (R193). The cycle in which FULL is set, and the taints
of what sets it, are kept for the storer (R210, R363). -/
def State.putTag (s : State) (cl n : Nat) (w : Word) (taints : List Nat := []) : State :=
  let was := tagFull (s.tag cl n)
  (s.modClu cl fun c => { c with
    tags := Tab.set 0 c.tags n w
    fullAt := if tagFull w && !was then Tab.set 0 c.fullAt n s.now else c.fullAt
    fullBy := if tagFull w && !was then Tab.set [] c.fullBy n taints else c.fullBy }).wakeTags cl n false 0

/-- The WAIT bits, VALID and CONS kept, the other fields set: EMPTY or FULL with no expectation and no balance. -/
def emptied (w : Word) (cons full : Bool) : Word := mkTag (tagWaitBits w) (tagOvr w) (tagValid w) cons full false 0

/-- Bytes credited to a tag (R193). -/
def State.creditTag (s : State) (cl n bytes : Nat) (taints : List Nat := []) : State :=
  let w := s.tag cl n
  s.putTag cl n (tagRules (tagWaitBits w) (tagOvr w) (tagValid w) (tagCons w) (tagFull w) (tagExp w) (tagBal w + bytes)) taints

/-- An expectation of bytes posted on a tag (R201, R208). -/
def State.expectTag (s : State) (cl n bytes : Nat) (taints : List Nat := []) : State :=
  let w := s.tag cl n
  s.putTag cl n (tagRules (tagWaitBits w) (tagOvr w) (tagValid w) (tagCons w) (tagFull w) true (tagBal w - bytes)) taints

/-! Rings. -/

/-- A ring entry of a core. -/
def State.ring (s : State) (ci n : Nat) : Ring := Tab.get {} (s.core ci).rg n
/-- A ring entry changed. -/
def State.modRing (s : State) (ci n : Nat) (f : Ring → Ring) : State :=
  s.modCore ci fun k => { k with rg := Tab.set {} k.rg n (f (Tab.get {} k.rg n)) }

/-- The next index of a ring. -/
def Ring.after (r : Ring) (t : Nat) : Nat := (t + 1) % r.count
/-- The tag of the head tile. -/
def Ring.headTag (r : Ring) : Nat := r.tag0 + r.head
/-- The tag of the tail tile. -/
def Ring.tailTag (r : Ring) : Nat := r.tag0 + r.tail
/-- The scratchpad offset of a tile. -/
def Ring.tile (r : Ring) (t : Nat) : Nat := r.base + t * r.size

/-- The head tile of a ring released under taints (R199): EMPTY; of a subscribed ring, its buffer-free signal is held back in CONS (R208). -/
def State.popRing (s : State) (ci n : Nat) (taints : List Nat) : State :=
  let r := s.ring ci n
  let cl := coreCluster ci
  let h := r.headTag
  let w := s.tag cl h
  let sub := decide (r.mode = 1)
  let s1 := s.putTag cl h (emptied w (tagCons w || sub) false)
  let s2 := if sub then s1.modCore ci fun k => { k with frees := k.frees ++ [(n, h, s.now, taints)] } else s1
  s2.modRing ci n fun r => { r with head := r.after r.head }

/-- Whether a tag is as RPUSH asks: EMPTY with CONS, EXP, OVR and BAL 0 (R200). -/
def tagFillable (w : Word) : Bool := !tagFull w && !tagCons w && !tagExp w && !tagOvr w && decide (tagBal w = 0)

/-- Every writable field of a tag as RDEF and INIT leave it: EMPTY and VALID (R198, R202). -/
def tagFresh (w : Word) : Word := mkTag (tagWaitBits w) false true false false false 0

/-- A ring entry as 128 bits (Table 10-2). -/
def Ring.bits (r : Ring) : Nat :=
  r.mode * 2 ^ 101 + (if r.valid then 2 ^ 100 else 0) + r.tail * 2 ^ 88 + r.head * 2 ^ 76 + r.count * 2 ^ 63 + r.tag0 * 2 ^ 51 +
    r.size * 2 ^ 31 + r.base * 2 ^ 11
/-- A ring entry read from 128 bits. -/
def Ring.ofBits (n : Nat) : Ring :=
  { mode := bitsOf n 102 101, valid := n.testBit 100, tail := bitsOf n 99 88, head := bitsOf n 87 76, count := bitsOf n 75 63,
    tag0 := bitsOf n 62 51, size := bitsOf n 50 31, base := bitsOf n 30 11 }

end Sys2Proof.Machine
end

