-- ==== Sys2Proof/Machine/Port.lean ====
section
/-!
DEFINITION. Shape records, format contexts, and which scratchpad bytes a port instruction touches (R173 to R177, R184, R185).
-/

namespace Sys2Proof.Machine

/-! Shape records (Table 09-1). -/

/-- OFFSET. -/
def shOffset (r : BitVec 128) : Nat := bitsOf r.toNat 79 64
/-- PLANES. -/
def shPlanes (r : BitVec 128) : Nat := bitsOf r.toNat 55 51
/-- RSTRIDE. -/
def shRstride (r : BitVec 128) : Nat := bitsOf r.toNat 50 35
/-- ESTRIDE. -/
def shEstride (r : BitVec 128) : Nat := bitsOf r.toNat 34 27
/-- K. -/
def shK (r : BitVec 128) : Nat := bitsOf r.toNat 26 11
/-- NM1 + 1. -/
def shN (r : BitVec 128) : Nat := bitsOf r.toNat 10 5 + 1
/-- MM1 + 1. -/
def shM (r : BitVec 128) : Nat := bitsOf r.toNat 4 0 + 1

/-- A record as MSHAPE stores it: reserved bits 0. -/
def shapeStored (r : BitVec 128) : BitVec 128 := r &&& 0x000000000000FFFF00FFFFFFFFFFFFFF

/-- Element number of A[i][k] (R174). -/
def elemA (sa : BitVec 128) (i k : Nat) : Nat := shOffset sa + i * shRstride sa + k * shEstride sa
/-- Element number of B[k][j] (R174). -/
def elemB (sb : BitVec 128) (k j : Nat) : Nat := shOffset sb + k * shRstride sb + j * shEstride sb

/-! Formats (Table 09-3). -/

/-- The width of an operand format. -/
def mWidth (code : Nat) : Nat :=
  match code with
  | 0 => 16
  | 1 => 16
  | 4 => 4
  | 6 => 4
  | _ => 8
/-- Whether a code is an integer format. -/
def mIsInt (code : Nat) : Bool := decide (5 ≤ code)
/-- The float format of a code. -/
def mFmt (code : Nat) : Fmt :=
  match code with
  | 0 => fmt16
  | 1 => fmtBf16
  | 2 => fmtE4M3
  | 3 => fmtE5M2
  | _ => fmtE2M1
/-- The chunk c of a pair (Table 09-3). -/
def mChunk (fa fb : Nat) : Nat :=
  if mWidth fa = 16 ∨ mWidth fb = 16 then 8 else if mWidth fa = 4 ∧ mWidth fb = 4 then 32 else 16
/-- The group size of GS; 0 for no groups. -/
def mGroup (gs : Nat) : Nat :=
  match gs with
  | 1 => 32
  | 2 => 64
  | 3 => 128
  | _ => 0
/-- The K elements of a full step: a group, or a chunk (R179). -/
def FmtCtx.step (f : FmtCtx) : Nat := if f.gs = 0 then mChunk f.fa f.fb else mGroup f.gs

/-- The planes read of an operand of width `w`: 0 means the full width (R174). -/
def planesRead (r : BitVec 128) (w : Nat) : Nat := if shPlanes r = 0 then w else shPlanes r

/-! Bytes. -/

/-- The bytes of element `e` of an operand of width `w` with `p` planes read, in a tile at `base` (R51, R174). -/
def elemBytesAt (base w p e : Nat) : List Nat :=
  if w < 8 then (List.range p).map fun q => base + 8 * w * (e / 64) + 8 * (w - p + q) + e % 64 / 8
  else (List.range (w / 8)).map fun b => base + e * (w / 8) + b

/-- The rings an MMA pops, at retirement (R179). -/
def mmaPops (a b : BitVec 4) (m : BitVec 5) : List Nat :=
  let ka := m.getLsbD 1
  let kb := m.getLsbD 0
  if a = b then (if ka && kb then [] else [a.toNat]) else (if ka then [] else [a.toNat]) ++ (if kb then [] else [b.toNat])

/-- The rings a port instruction pops. -/
def PortEntry.pops (p : PortEntry) : List Nat :=
  match p.i with
  | .mma _ a b _ _ m => mmaPops a b m
  | _ => []

/-- The rings a port instruction names. -/
def PortEntry.rings (p : PortEntry) : List Nat :=
  match p.i with
  | .mma _ a b _ _ _ => [a.toNat, b.toNat]
  | _ => []

/-- The scratchpad offset of the tile a port instruction finds at a ring's head once the earlier ones have popped it; DEDUCED (log 6): HEAD
is read when the instruction runs, since a copy taken at issue would name a tile that an earlier MMA pops. -/
def State.portTile (s : State) (ci : Nat) (earlier : List PortEntry) (ring : Nat) : Nat :=
  let r := s.ring ci ring
  r.tile ((r.head + (earlier.flatMap PortEntry.pops).count ring) % r.count)

/-- Bytes an MLDA or MSTA element takes (Table 09-4's types). -/
def accBytes (t : BitVec 4) : Nat :=
  match t.toNat with
  | 0 => 4
  | 5 => 4
  | 1 => 2
  | 2 => 2
  | _ => 1

/-- COLS + 1, ROWS + 1 and STRIDE of a control word (Table 09-4). -/
def ctlCols (w : Word) : Nat := bitsOf w.toNat 45 40 + 1
/-- ROWS + 1. -/
def ctlRows (w : Word) : Nat := bitsOf w.toNat 36 32 + 1
/-- STRIDE. -/
def ctlStride (w : Word) : Nat := bitsOf w.toNat 19 0

/-- Bytes of the matrix save area (Table 09-5). -/
def saveBytes : Nat := 16640

/-- Whether a port instruction reads or writes the byte at a scratchpad offset; `earlier` are the port instructions before it. -/
def State.portTouches (s : State) (ci : Nat) (earlier : List PortEntry) (p : PortEntry) (off : Nat) : Bool :=
  match p.i with
  | .mma _ a b _ _ _ =>
    let ta := s.portTile ci earlier a.toNat
    let tb := s.portTile ci earlier b.toNat
    let wa := mWidth p.fmt.fa
    let wb := mWidth p.fmt.fb
    let groups := if p.fmt.gs = 0 then 0 else ceilDiv (shK p.sa) (mGroup p.fmt.gs)
    ((List.range (shM p.sa)).any fun i => (List.range (shK p.sa)).any fun k =>
      (elemBytesAt ta wa (planesRead p.sa wa) (elemA p.sa i k)).contains off) ||
    ((List.range (shN p.sb)).any fun j => (List.range (shK p.sa)).any fun k =>
      (elemBytesAt tb wb (planesRead p.sb wb) (elemB p.sb k j)).contains off) ||
    (decide (p.fmt.gs ≠ 0) &&
      let inTab (t n len : Nat) : Bool := decide (p.tabs.getD t 0 ≤ off ∧ off < p.tabs.getD t 0 + n * groups * len)
      (inTab 0 (shM p.sa) 2 || inTab 1 (shM p.sa) 1 || inTab 2 (shN p.sb) 2 || inTab 3 (shN p.sb) 1))
  | .mlda t _ _ _ => inRows p t
  | .msta t _ _ _ => inRows p t
  | .msave _ => decide (p.base ≤ off ∧ off < p.base + saveBytes)
  | .mrstr _ => decide (p.base ≤ off ∧ off < p.base + saveBytes)
  | _ => false
where
  /-- Whether a byte lies in the rows of a transfer. -/
  inRows (p : PortEntry) (t : BitVec 4) : Bool :=
    (List.range (ctlRows p.ctl)).any fun i =>
      decide (p.base + i * ctlStride p.ctl ≤ off ∧ off < p.base + i * ctlStride p.ctl + ctlCols p.ctl * accBytes t)

/-- Whether a port instruction accesses the scratchpad. -/
def PortEntry.accesses (p : PortEntry) : Bool :=
  match p.i with
  | .mzero _ => false
  | .mtest => false
  | _ => true

/-- Whether a byte range of a cluster is touched by a port instruction of a context that issued no later than `serial` says and has not
retired (R185). -/
def State.portOverlap (s : State) (sid serial cl off size : Nat) : Bool :=
  let ci := slotCore sid
  decide (cl = slotCluster sid) && !isVisitor sid &&
    go ci sid serial off size [] (s.core ci).port
where
  /-- The check along the port, oldest first. -/
  go (ci sid serial off size : Nat) (earlier : List PortEntry) : List PortEntry → Bool
    | [] => false
    | p :: l =>
      (p.sid == sid && decide (p.serial ≤ serial) && (List.range size).any fun b => s.portTouches ci earlier p (off + b)) ||
        go ci sid serial off size (earlier ++ [p]) l

/-- Whether a tag of a core is one that a port instruction of a context, issued no later than `serial` says and not retired, is to pop: its release of
the tile comes before a later access of the context (R179, R269). -/
def State.tagPopped (s : State) (sid serial n : Nat) : Bool :=
  let ci := slotCore sid
  !isVisitor sid && (s.core ci).port.any fun p => p.sid == sid && decide (p.serial ≤ serial) && p.pops.any fun r =>
    let g := s.ring ci r
    decide (g.tag0 ≤ n ∧ n < g.tag0 + g.count)

/-- Whether an access of a context must wait for one of its port instructions (R185, R269). -/
def State.portWaits (s : State) (a : BankAccess) : Bool :=
  if a.tags then (List.range a.size).any fun b => s.tagPopped s.cur a.serial ((a.off + b) / 8) else s.portOverlap s.cur a.serial a.cl a.off a.size

/-- Whether a port instruction of a core that has not retired names a ring (R185). -/
def State.ringInPort (s : State) (ci n : Nat) : Bool := (s.core ci).port.any fun p => p.rings.contains n

/-- Whether a tag lies in a ring that a port instruction of a core names (R185). -/
def State.tagInPort (s : State) (ci n : Nat) : Bool :=
  (s.core ci).port.any fun p => p.rings.any fun r =>
    let g := s.ring ci r
    decide (g.tag0 ≤ n ∧ n < g.tag0 + g.count)

end Sys2Proof.Machine
end

