-- ==== Sys2Proof/Machine/Device.lean ====
section
/-!
DEFINITION. Tile tags and device registers as memory-access instructions see them.
-/

namespace Sys2Proof.Machine

/-- Tag bytes read (0xF4). -/
def State.tagRead (s : State) (cl off size : Nat) : Nat :=
  ((Tab.get 0 (s.clu cl).tags (off / 8)).toNat >>> (8 * (off % 8))) % 2 ^ (8 * size)

/-- The bits of a tag that a store may write (R194). -/
def tagWritable : Nat := 0x1FFFFFFF

/-- Tag bytes written: writes to WAIT and to reserved bits are ignored, and R193 applies (R194). -/
def State.tagWrite (s : State) (cl off size v : Nat) (taints : List Nat := []) : State :=
  let n := off / 8
  let old := (s.tag cl n).toNat
  let m := ((2 ^ (8 * size) - 1) <<< (8 * (off % 8))) &&& tagWritable
  let w := w64 ((old - (old &&& m)) ||| ((v <<< (8 * (off % 8))) &&& m))
  s.putTag cl n (tagRules (tagWaitBits w) (tagOvr w) (tagValid w) (tagCons w) (tagFull w) (tagExp w) (tagBal w)) taints

/-! The device register window (0xFE). -/

/-- Whether every input tag of a dataflow task is full and every output tag is free (R251). -/
def State.tagsReady (s : State) (cl : Nat) (l : List (Nat × Bool)) : Bool :=
  l.all fun p =>
    let w := s.tag cl p.1
    if p.2 then tagValid w && tagFillable w else tagValid w && tagFull w

/-- Whether the cluster image of one saved context is still to be restored for another: the save of the first emptied the cluster, no earlier than
the second was cut (R329). -/
def Saved.imageFor (w v : Saved) : Bool :=
  slotCluster w.sid == slotCluster v.sid && w.part == v.part && w.image.isSome && w.imaged.isNone && decide (v.at_ ≤ w.at_)

/-- The cluster image that is restored before a saved context: its physical base (R330, R351). -/
def State.imageOf (s : State) (v : Saved) : Option Nat := (s.savedOut.find? fun w => w.imageFor v).bind Saved.image

/-- Whether a saved context's cluster image stands in its way: it is restored once its save is complete, and only while the cluster holds no live
context (R330). -/
def State.imageWaits (s : State) (cl : Nat) (v : Saved) : Bool :=
  (s.savedOut.any fun w => w.imageFor v && (w.ended.isNone || s.saving w)) ||
    ((s.imageOf v).isSome && (clusterSlots cl).any fun sid => (s.ctx sid).act != .free)

/-- Whether a launch's placement is stopped by a PREEMPT, or its partition resets (R315, R378). -/
def State.placeStopped (s : State) (part lid : Nat) : Bool :=
  (s.part part).reset.isSome || s.launches.any fun l => l.part == part && l.lid == lid && l.stopped

/-- Whether a pool entry is eligible (R250, R251, R315, R330). -/
def State.entryEligible (s : State) (cl : Nat) (e : PoolEntry) : Bool :=
  s.tagsReady cl e.tags && !s.placeStopped e.part e.lid && match e.saved with
    | none => true
    | some n => match s.savedOut.find? fun v => v.n == n with
      | some v => v.eligible && v.ended.isSome && !v.restoring && !s.saving v && !s.imageWaits cl v && (!v.owner || (s.core (slotCore v.sid)).owner.isNone)
      | none => false

/-- CLPOOL (Table 12-2). -/
def State.clpool (s : State) (cl : Nat) : Nat :=
  let p := (s.clu cl).pool
  (p.filter (s.entryEligible cl)).length * 2 ^ 8 + p.length

/-- A word of the start page (Table 26-1); DBGHALT reads zero while its feature is not in force (R389). -/
def Boot.word (b : Boot) (off : Nat) : Nat :=
  match off with
  | 0x00 => (if b.ready then 2 ^ 63 else 0) + (if b.minimal then 2 ^ 62 else 0) + b.fails * 2 ^ 56 + b.reason * 2 ^ 16 + b.stage
  | 0x10 => 0x1F
  | 0x20 => b.featacc.toNat % 2 ^ 64
  | 0x28 => b.featacc.toNat / 2 ^ 64
  | 0x30 => (if b.rej then 4 else 0) + (if b.cfm then 2 else 0)
  | 0x40 => if b.cfm && b.featacc.getLsbD 4 then b.dbghalt.toNat else 0
  | _ => 0

/-- PARTRECT (Table 18-4). -/
def rectWord (r : Option Rect) : Nat :=
  match r with
  | none => 0
  | some r => 2 ^ 63 + r.y1 * 2 ^ 24 + r.x1 * 2 ^ 16 + r.y0 * 2 ^ 8 + r.x0

/-- A word of the partition configuration (Tables 18-6 and 19-1, R378). -/
def Part.word (p : Part) (off : Nat) : Nat :=
  match off with
  | 0x00 => p.agestep * 2 ^ 32 + p.pmax * 2 ^ 6
  | 0x08 => p.dtvec.toNat
  | 0x10 => p.dacctbase.toNat
  | 0x18 => p.dacctctl.toNat
  | 0x20 => p.proctab
  | 0x28 => p.xlva.toNat
  | 0x30 => p.xlinv.toNat
  | 0x38 => p.ctxsave
  | 0x40 => p.clsave
  | 0x48 => p.rstctl.toNat
  | _ => 0

/-- A word of a fault record (Table 19-4). -/
def FaultRecord.word (f : FaultRecord) (n : Nat) : Nat :=
  match n with
  | 0 => (if f.valid then 2 ^ 63 else 0) + f.pc.toNat
  | 1 => f.va.toNat
  | 2 => f.byteen.toNat
  | 3 => f.kind.toNat
  | n => if 8 ≤ n ∧ n < 16 then f.data.toNat / 2 ^ (64 * (n - 8)) % 2 ^ 64 else 0

/-- A word of a slice's race-trace registers (R279). -/
def RaceTrace.word (t : RaceTrace) (off : Nat) : Nat :=
  match off with
  | 0x000 => (if t.ovf then 2 ^ 16 else 0) + t.log2 * 2 ^ 8 + (if t.en then 1 else 0)
  | 0x008 => t.base
  | 0x010 => t.widx % 2 ^ 64
  | 0x018 => t.ridx % 2 ^ 64
  | o =>
    if 0x100 ≤ o ∧ o < 0x200 then
      let r := Tab.get {} t.ranges ((o - 0x100) / 16)
      if o % 16 = 0 then (if r.en then 2 ^ 63 else 0) + r.base else r.limit
    else 0

/-- MFENCE (Table 25-4). -/
def MatArray.fenceWord (a : MatArray) : Nat :=
  let bits (l : List SubFence) : Nat := (l.map fun f => 2 ^ f.n).sum
  bits (a.fences.filter SubFence.hard) * 2 ^ 8 + bits a.fences

/-- The cycles within which rollbacks are counted (R368). -/
def rollbackWindow : Nat := 1800000

/-- A word of a cluster's recovery registers (Tables 24-3 and 24-4). -/
def State.recoveryWord (s : State) (cl off : Nat) : Nat :=
  let c := s.clu cl
  match off with
  | 0 => (if c.fenced then 2 ^ 63 else 0) + Nat.min 9 (c.rbTimes.countP fun t => decide (s.now < t + rollbackWindow)) * 2 ^ 32 + c.rbTotal.toNat
  | 8 => Nat.min Config.undoEntries c.undo.length * 2 ^ 16 + Nat.min Config.restanteEntries (s.restUsed cl)
  | _ => 0

/-- A word of a queue's page (Table 18-2). -/
def Queue.word (q : Queue) (mon : Bool) (off : Nat) : Nat :=
  match off with
  | 0x00 => q.qbase.toNat
  | 0x08 => (if mon then 2 ^ 31 else 0) + q.owner.getD 0 * 2 ^ 24 + q.dprio * 2 ^ 16 + q.log2n * 2 ^ 8 + (if q.en then 1 else 0)
  | 0x10 => q.qpidx % 2 ^ 32
  | 0x18 => q.qcidx % 2 ^ 32
  | 0x20 => q.cqbase.toNat
  | 0x28 => q.cqwidx % 2 ^ 32 * 2 ^ 32 + q.cqlog2n * 2 ^ 8
  | 0x30 => q.cqridx % 2 ^ 32
  | 0x38 => q.qpid.toNat
  | _ => 0

/-- A word of a stream's page (Table 20-4). -/
def Stream.word (t : Stream) (off : Nat) : Nat :=
  let n := match t.bound with
    | some b => b.nsrc
    | none => 0
  match off with
  | 0x000 => t.wmark
  | 0x008 => t.owmark
  | 0x010 => ((List.range n).map fun i => if (Tab.get {} t.srcs i).active then 2 ^ i else 0).sum
  | 0x018 => if t.bound.isSome then 1 else 0
  | 0x020 => t.nlate % 2 ^ 32
  | 0x028 => t.ndead % 2 ^ 32
  | o =>
    if 0x200 ≤ o ∧ o < 0x200 + 16 * n then
      let r := Tab.get {} t.srcs ((o - 0x200) / 16)
      if o % 16 = 0 then r.wm else if o % 16 = 8 then r.cons % 2 ^ 32 else 0
    else 0

/-- The pages of the window, by what they show. -/
inductive Page where
  | timebase
  | start
  | rect
  | config
  | fuse
  | cluster
  | fault
  | race
  | recovery
  | mfence
  | errors
  | queue
  | stream
  deriving DecidableEq, Repr

/-- The page of an offset, and the offset in it; none where no register is mapped (R240, R279, R302, R309, R325, R346, R369, R370, R377, R383,
R384). -/
def pageOf (off : Nat) : Option (Page × Nat) :=
  let in_ (base size : Nat) : Bool := decide (base ≤ off ∧ off < base + size)
  if in_ 0 8 then some (.timebase, off)
  else if in_ 0x200 0x48 then some (.start, off - 0x200)
  else if in_ 0x800 0x18 then some (.rect, off - 0x800)
  else if in_ 0x900 0x50 then some (.config, off - 0x900)
  else if in_ 0x1000 0x400 then some (.fuse, off - 0x1000)
  else if in_ 0xF0000 0x1000 then some (.cluster, off - 0xF0000)
  else if in_ 0xF1000 0x80 then some (.fault, off - 0xF1000)
  else if in_ 0x400000 0x20000 then some (.race, off - 0x400000)
  else if in_ 0x600000 0x20000 then some (.recovery, off - 0x600000)
  else if in_ 0x680000 0x20000 then some (.mfence, off - 0x680000)
  else if in_ 0x800000 0x2000 then some (.errors, off - 0x800000)
  else if in_ 0x1000000 (8193 * 0x40) then some (.queue, off - 0x1000000)
  else if in_ 0x2000000 (64 * 0x1000) then some (.stream, off - 0x2000000)
  else none

/-- The pages readable in either mode (R240, R309, R346, R377, R383). -/
def Page.userReads : Page → Bool
  | .timebase => true
  | .rect => true
  | .fuse => true
  | .cluster => true
  | .mfence => true
  | .stream => true
  | _ => false

/-- The number of the monitor queue. -/
def monitorQueue : Nat := 8192

/-- The 8-byte register at an offset of a page; `who` is the accessing context's slot and partition. An absent feature's registers read zero
(R389). -/
def State.pageWord (s : State) (sid part : Nat) (p : Page) (off : Nat) : Nat :=
  match p with
  | .timebase => s.now % 2 ^ 64
  | .start => s.boot.word off
  | .rect => if off = 0x10 then (s.logicalCores part).length else rectWord ((s.part part).rect (off / 8))
  | .config => (s.part part).word off
  | .fuse => if off % 0x200 < 48 * 8 then (Tab.get 0 s.fuse (48 * (off / 0x200) + off % 0x200 / 8)).toNat % 2 ^ 48 else 0
  | .cluster => if off = 0 then (s.clu (slotCluster sid)).clshare.toNat else if off = 8 then s.clpool (slotCluster sid) else 0
  | .fault => (s.ctx sid).fault.word (off / 8)
  | .race => if s.feature 2 then (Tab.get {} s.traces (32 * (off / 0x10000) + off % 0x10000 / 0x800)).word (off % 0x800) else 0
  | .recovery => if off % 0x10000 < 576 * 0x40 then s.recoveryWord (576 * (off / 0x10000) + off % 0x10000 / 0x40) (off % 0x40) else 0
  | .mfence => if off % 0x10000 < 576 * 8 then (s.clu (576 * (off / 0x10000) + off % 0x10000 / 8)).arr.fenceWord else 0
  | .errors => (Tab.get {} s.banks (partBank (off / 0x1000) part)).pageWord (off % 0x1000)
  | .queue => (Tab.get {} s.queues (off / 0x40)).word (off / 0x40 = monitorQueue) (off % 0x40)
  | .stream => if s.feature 1 then (Tab.get {} s.streams (64 * part + off / 0x1000)).word (off % 0x1000) else 0

/-- Whether a context may reach an offset: the page is mapped, its mode may read it, and it is not the monitor queue's (R301); DEDUCED
(log 6): an offset that no register covers faults as an unmapped window does. -/
def State.devReach (s : State) (sid off : Nat) (write : Bool) : Bool :=
  match pageOf off with
  | none => false
  | some (p, o) => ((s.ctx sid).mode || (p.userReads && !write)) && !(p == .queue && o / 0x40 == monitorQueue)

/-- A device register read (0xFE) by a context; a narrow access reads the bytes it covers. None where it may not. -/
def State.devRead (s : State) (sid off size : Nat) : Option Nat :=
  if !s.devReach sid off false then none
  else match pageOf (off / 8 * 8) with
    | none => none
    | some (p, o) => some (s.pageWord sid (s.ctx sid).part p o / 2 ^ (8 * (off % 8)) % 2 ^ (8 * size))

/-- Whether a register lies in the local cluster page or the fault-record page, which answer inside the cluster (R117). -/
def nearPage (off : Nat) : Bool :=
  match pageOf (off / 8 * 8) with
  | some (.cluster, _) => true
  | some (.fault, _) => true
  | _ => false

/-- Whether a context may write a device register (R114). -/
def State.devMayWrite (s : State) (sid off _size : Nat) : Bool := s.devReach sid off true

end Sys2Proof.Machine
end

