-- ==== Sys2Proof/Machine/Access.lean ====
section
/-!
DEFINITION. Shared operations of the memory-access instructions: bank accesses, global loads, and what a fence or release waits for
(R113 to R131, R160).
-/

namespace Sys2Proof.Machine

/-- The low `n` bytes of a value, sign-extended to 64 bits or not (R113). -/
def extend (signed : Bool) (n v : Nat) : Word :=
  if signed && (v % 2 ^ (8 * n)).testBit (8 * n - 1) then w64 (v % 2 ^ (8 * n) + (2 ^ 64 - 2 ^ (8 * n))) else w64 (v % 2 ^ (8 * n))

/-- The new value of an AMO on `n` bytes (Table 07-3). -/
def AmoOp.apply (op : AmoOp) (n old s : Nat) : Nat :=
  let w := 8 * n
  let a : Int := if old.testBit (w - 1) then (old : Int) - (2 ^ w : Nat) else old
  let b : Int := if s.testBit (w - 1) then (s : Int) - (2 ^ w : Nat) else s
  match op with
  | .add => (old + s) % 2 ^ w
  | .and => old &&& s
  | .or => old ||| s
  | .xor => old ^^^ s
  | .min => if a ≤ b then old else s
  | .max => if b ≤ a then old else s
  | .minu => if old ≤ s then old else s
  | .maxu => if s ≤ old then old else s
  | .swap => s

/-! Results that come back to a context. -/

/-- An awaited result of the memory access that issued at a `serial`, for a slot's register or channel: a register is usable, and a channel entry
written, in cycle `at_`. -/
def State.deliverAt (s : State) (sid ser at_ : Nat) (d : Dst) (v : Word) : State :=
  match d with
  | .x n => s.modCtx sid fun c =>
    if at_ ≤ s.now then { c.wxAt ser n v with busy := dropBusy n.toNat c.busy }
    else { c.wxAt ser n v with late := c.late ++ [{ at_ := at_, code := some n.toNat, acq := false, space := [], mem := true }] }
  | .ch _ => s.fillChan sid ser at_ v.toNat true

/-- A result awaited from now on, under a cause: a register's users wait, a channel's entry is written in program order (R94). -/
def State.awaitDst (s : State) (d : Dst) (k : Cause) : State :=
  match d with
  | .x n => s.upd fun c => { c with busy := c.busy ++ [(n.toNat, k)] }
  | .ch n => s.writeChan s.cur s.me.serial s.now n none

/-- The end of an acquire's hold on later memory-access instructions, in cycle `at_` (R119). -/
def Ctx.acquireEnds (c : Ctx) (now at_ : Nat) : Ctx :=
  if at_ ≤ now then { c with acq := none } else { c with late := c.late ++ [{ at_ := at_, code := none, acq := true, space := [] }] }

/-- The cycles from a bank step to the use of its result (R116, R129, R131). -/
def bankLatency : Nat := 3

/-- A sleeper wakes with a result, and the next instruction may issue in the next cycle. The result is usable three cycles after this one, and
until then the compare holds as an acquire (R129). -/
def Ctx.wake (c : Ctx) (d : BitVec 5) (v : Word) (now : Nat) : Ctx :=
  { ((c.wx d v).usableAt d .slotWait (now + bankLatency)).acquireEnds now (now + bankLatency) with
    act := .running, pc := c.next, pause := some (.sleep, now + 1) }

/-- Whether a context sleeps in WAIT, and the register it wakes with. -/
def Ctx.waitReg (c : Ctx) : Option (BitVec 5) :=
  match c.act with
  | .waitWord d _ => some d
  | _ => none

/-- The waiters a NOTIFY removes: all those of its address, or the first (R131). -/
def notified (l : List Waiter) (off : Nat) (all : Bool) : List Waiter :=
  let m := l.filter fun w => w.off == off
  if all then m else m.take 1

/-- Waiters woken in order (R131). -/
def State.wakeAll (s : State) (ws : List Waiter) : State :=
  ws.foldl (fun s w => s.modCtx w.sid fun c =>
    match c.waitReg with
    | some d => c.wake d 0 s.now
    | none => c) s

/-! The bank unit (R116, R122, R129 to R131). -/

/-- Whether an access writes scratchpad bytes. -/
def BankOp.writes : BankOp → Bool
  | .store _ => true
  | .amo _ _ _ => true
  | .cas _ _ _ => true
  | _ => false

/-- Bytes of an access read at the bank unit. -/
def State.bankRead (s : State) (a : BankAccess) : Nat :=
  if a.tags then s.tagRead a.cl a.off a.size else s.spadRead a.cl a.off a.size
/-- Bytes of an access written at the bank unit. -/
def State.bankWrite (s : State) (a : BankAccess) (v : Nat) (taints : List Nat := []) : State :=
  if a.tags then s.tagWrite a.cl a.off a.size v taints else s.spadWrite a.cl a.off a.size v

/-- Whether an access must wait for undo memory (R116). -/
def State.bankBlocked (s : State) (a : BankAccess) : Bool := a.op.writes && !a.tags && s.undoFull a.cl a.off a.size

/-- A shape record read into a core's shape register, usable in cycle `at_` (R116, R175). -/
def State.setShape (s : State) (sid : Nat) (n : BitVec 3) (at_ v : Nat) : State :=
  (s.modCore (slotCore sid) fun k => { k with sh := Tab.set 0 k.sh n.toNat (shapeStored (BitVec.ofNat 128 v)) }).modCtx sid fun c =>
    if at_ ≤ s.now then { c with busy := dropBusy (64 + n.toNat) c.busy }
    else { c with late := c.late ++ [{ at_ := at_, code := some (64 + n.toNat), acq := false, space := [], mem := true }] }

/-- An access performed at the bank unit, in one step. A form (R197) is performed by its own meaning instead. -/
def State.bankPerform (s : State) (sid : Nat) (a : BankAccess) : State :=
  let old := s.bankRead a
  let usable := s.now + bankLatency
  match a.op with
  | .load d sg acq => (s.deliverAt sid a.serial usable d (extend sg a.size old)).modCtx sid fun c => if acq then c.acquireEnds s.now usable else c
  | .store v => s.bankWrite a v.toNat (s.ctx sid).taints
  | .amo op d v => (s.bankWrite a (op.apply a.size old (v.toNat % 2 ^ (8 * a.size)))).deliverAt sid a.serial usable (.x d) (extend true a.size old)
  | .cas d v e =>
    let s1 := if old = e.toNat % 2 ^ (8 * a.size) then s.bankWrite a v.toNat else s
    s1.deliverAt sid a.serial usable (.x d) (extend true a.size old)
  | .wait d cmp t =>
    if old ≠ cmp.toNat % 2 ^ (8 * a.size) then s.modCtx sid fun c => c.wake d 1 s.now
    else if t = 0 then s.modCtx sid fun c => c.wake d 2 s.now
    else
      (s.modClu a.cl fun k => { k with waiters := k.waiters ++ [{ sid := sid, off := a.off }] }).modCtx sid fun c =>
        { c with act := .waitWord d (if t = BitVec.allOnes 64 then none else some (s.now + t.toNat)) }
  | .notify d all =>
    let ws := notified (s.clu a.cl).waiters a.off all
    ((s.modClu a.cl fun k => { k with waiters := k.waiters.filter fun w => !ws.contains w }).wakeAll ws).deliverAt sid a.serial usable (.x d)
      (w64 ws.length)
  | .shape n => s.setShape sid n usable old
  | .form _ => s

/-- Whether a user-level interrupt of a context can be taken now (R212, R324, R327). -/
def Ctx.uintReady (c : Ctx) : Bool := c.uieEn && !c.uints.isEmpty && !c.ui && !c.mode && !c.inmeet && c.replay.isNone && c.cap.isNone

/-! What an instruction that accesses memory waits for. -/

/-- Whether a request is a global vector load under way. -/
def Req.isVload (r : Req) : Bool :=
  match r.kind with
  | .vload _ => true
  | _ => false
/-- Whether a request is a scalar global load under way. -/
def Req.isLoad (r : Req) : Bool :=
  match r.kind with
  | .load _ _ _ => true
  | .devLoad _ _ _ => true
  | .shape _ => true
  | .form _ => true
  | _ => false
/-- Whether a request is a load of a device register. -/
def Req.isDevLoad (r : Req) : Bool :=
  match r.kind with
  | .devLoad _ _ _ => true
  | _ => false
/-- Whether a request is a global store or atomic. -/
def Req.isStore (r : Req) : Bool :=
  match r.kind with
  | .store => true
  | .storeRelease => true
  | .vstore => true
  | .amo _ _ => true
  | .cas _ => true
  | _ => false
/-- Whether a request is an atomic. -/
def Req.isAtomic (r : Req) : Bool :=
  match r.kind with
  | .amo _ _ => true
  | .cas _ => true
  | _ => false
/-- Whether a request is a plain, release or vector store. -/
def Req.isPlainStore (r : Req) : Bool := r.isStore && !r.isAtomic
/-- Whether a request is a device-register write. -/
def Req.isDevice (r : Req) : Bool :=
  match r.kind with
  | .device => true
  | _ => false
/-- Whether a request lies in a host window. -/
def Req.isHost (r : Req) : Bool := decide (hostBase ≤ r.pa)

/-- Whether vector memory instructions of a context are still to be performed (R160). -/
def State.vmemPending (s : State) (sid : Nat) : Bool :=
  ((s.core (slotCore sid)).seq.any fun e => e.sid == sid && isVMem e.i) || ((s.core (slotCore sid)).vout.any fun e => e.sid == sid) ||
    (s.reqsOf sid).any Req.isVload

/-- Whether vector instructions of a context are still to complete (R14). -/
def State.vecPending (s : State) (sid : Nat) : Bool :=
  ((s.core (slotCore sid)).seq.any fun e => e.sid == sid) || ((s.core (slotCore sid)).vout.any fun e => e.sid == sid) ||
    !(s.ctx sid).vlate.isEmpty || (s.ctx sid).replay.isSome

/-- What a scalar memory-access instruction waits for beside its operands: an acquire (R119), vector accesses (R160). -/
def State.memHolds (s : State) : Option Cause := firstCause [s.me.acq, if s.vmemPending s.cur then some .depend else none]

/-- A memory-access form on registers: awaited results first, then the rest with R119 and R160, and what its access waits for, `more` (R65). -/
def State.memForm (s : State) (rs wr : List (BitVec 5)) (more : List (Option Cause)) (r : Res) : Res :=
  match s.me.awaitsFor (rs.map BitVec.toNat) (wr.map BitVec.toNat) with
  | some k => .wait k
  | none => match firstCause (s.others [] (wr.map BitVec.toNat) :: s.memHolds :: more) with
    | some k => .wait k
    | none => r

/-- The requests a fence waits for: not those stranded behind a deferred fault while its handler runs (R325). -/
def State.covered (s : State) (sid : Nat) : List Req := (s.reqsOf sid).filter fun r => !r.stranded

/-- Whether port instructions of a context have scratchpad accesses still to make (R185). -/
def State.portAccesses (s : State) (sid : Nat) : Bool :=
  (s.core (slotCore sid)).port.any fun p => p.sid == sid && p.accesses && !p.done

/-- Whether the value of a memory access is still on its way to a context (R116, R117). -/
def Ctx.returning (c : Ctx) : Bool := c.late.any Late.mem || c.chq.any ChanWrite.mem

/-- Scratchpad accesses and loads still under way (the `.core` and `.cl` scopes of Table 07-4). -/
def State.localPending (s : State) (sid : Nat) : Bool :=
  !(s.ctx sid).pend.isEmpty || (s.ctx sid).returning || s.vmemPending sid || (s.reqsOf sid).any Req.isLoad || s.portAccesses sid

/-- What keeps a fence of a scope waiting, and the cause charged (Table 07-4): 2 `.die`, 3 `.pkg`, 4 `.sys`. An unreleased output is charged
QUARANTINE, anything else FENCE. -/
def State.fenceWait (s : State) (sid scope : Nat) : Option Cause :=
  let rs := s.covered sid
  let mem := rs.filter Req.isStore
  let sys := if scope = 4 then rs.filter Req.isDevice else []
  let early (r : Req) : Bool := match r.stage with
    | .held => true
    | .translating => true
    | .walking => true
    | _ => false
  let open_ (r : Req) : Bool := match r.stage with
    | .performed =>
      (r.isHost && scope == 4) || s.invals.any fun v => v.req == r.id && (decide (3 ≤ scope) || v.die == clusterDie (slotCluster sid))
    | _ => true
  if decide (2 ≤ scope) && (mem ++ sys).any early then some .quarantine
  else if s.localPending sid || (decide (2 ≤ scope) && (mem ++ sys).any open_) then some .fence
  else none

/-! Global loads (R117). -/

/-- The bits of a byte that a store writes: of a vector line the bits its mask enables (R158), of any other store all of an enabled
byte. -/
def Req.byteMask (r : Req) (i : Nat) : Nat :=
  if !r.be.testBit i then 0
  else match r.kind with
    | .vstore => r.expect / 2 ^ (8 * i) % 256
    | _ => 255

/-- A byte with the bits of a mask replaced. -/
def mergeByte (old new m : Nat) : Nat := (old &&& (255 - m)) ||| (new &&& m)

/-- A byte as a load of a context, issued at a `serial`, sees it: memory's byte under the context's own earlier stores not yet performed, the
newest last (R117). -/
def State.ownByte (s : State) (sid ser va mem : Nat) : Nat :=
  (s.reqsOf sid).foldl (fun b r =>
    if r.isPlainStore && decide (r.serial < ser) && r.stage != .performed && decide (r.va ≤ va ∧ va < r.va + r.size) then
      mergeByte b (r.data / 2 ^ (8 * (va - r.va)) % 256) (r.byteMask (va - r.va))
    else b) mem

/-- A byte of memory as a context's load finds it: its die's far copy is passed by once a store of the context that drops it has been performed
(R127, R269). -/
def State.homeByte (s : State) (sid pa : Nat) : Nat :=
  if s.invals.any fun v => v.sid == sid && v.line == lineOf pa then s.physRead pa 1 else s.dieByte (clusterDie (slotCluster sid)) pa

/-- The value of a global load: each byte from the context's own earlier held stores, or from memory (R117). -/
def State.loadBytes (s : State) (sid ser va pa : Nat) : Nat → Nat
  | 0 => 0
  | n + 1 => s.loadBytes sid ser va pa n + s.ownByte sid ser (va + n) (s.homeByte sid (pa + n)) * 2 ^ (8 * n)

/-- Whether a range overlaps an atomic still outstanding that the context issued before a `serial` (R117). -/
def State.atomicOverlap (s : State) (sid ser va size : Nat) : Bool :=
  (s.reqsOf sid).any fun r => r.isAtomic && decide (r.serial < ser) && r.stage != .performed && decide (va < r.va + r.size ∧ r.va < va + size)

end Sys2Proof.Machine
end

