-- ==== Sys2Proof/Machine/VectorAlu.lean ====
section
/-!
DEFINITION. What the vector forms compute (R144 to R155), as functions of register images.

`fm` is the format-register value that the instruction's type names, meaningful for a NARROW type only.
-/

namespace Sys2Proof.Machine

/-- What the program order gives a vector instruction: rounding mode and the four format registers (R14, R53). -/
structure VEnv where
  rm : RMode
  fms : List Nat
  deriving DecidableEq, Repr

/-- The format register a type names. -/
def VEnv.fm (e : VEnv) (t : TypeCode) : Nat := e.fms.getD (tFm t) 0
/-- The float format of a type. -/
def VEnv.fmt (e : VEnv) (t : TypeCode) : Option Fmt := typeFmt t (e.fm t)
/-- Whether the format register a type names is valid for it (R48, R142). -/
def VEnv.fmOk (e : VEnv) (t : TypeCode) : Bool := !tIsNarrow t || fmValid (e.fm t) (tWidth t)

/-- The element-wise binary operations of Table 08-3. -/
inductive VBin where
  | add (sat : Bool) | sub (sat : Bool) | mul (sat : Bool) | mulh | min | max
  | and | or | xor | shl (sat : Bool) | shr | shra
  deriving DecidableEq, Repr

/-- One integer lane of a binary operation (Table 08-3, Table 03-6). -/
def VBin.int (op : VBin) (sg : Bool) (w a b : Nat) : Nat :=
  let x := readInt sg w a
  let y := readInt sg w b
  let fin (sat : Bool) (v : Int) : Nat := if sat then clampInt sg w v else wrapInt w v
  match op with
  | .add sat => fin sat (x + y)
  | .sub sat => fin sat (x - y)
  | .mul sat => fin sat (x * y)
  | .mulh => wrapInt w (x * y / (2 ^ w : Nat))
  | .min => if x ≤ y then a else b
  | .max => if y ≤ x then a else b
  | .and => a &&& b
  | .or => a ||| b
  | .xor => a ^^^ b
  | .shl false => if w ≤ b then 0 else a * 2 ^ b % 2 ^ w
  | .shl true => if a = 0 then 0 else clampInt sg w (x * (2 ^ (Nat.min b w) : Nat))
  | .shr => if w ≤ b then 0 else a / 2 ^ b
  | .shra => wrapInt w (readInt true w a / (2 ^ (Nat.min b w) : Nat))

/-- One float lane of a binary operation. -/
def VBin.float (op : VBin) (f : Fmt) (rm : RMode) (a b : Nat) : Nat × Flags :=
  match op with
  | .add sat => f.fadd rm sat a b
  | .sub sat => f.fsub rm sat a b
  | .mul sat => f.fmul rm sat a b
  | .min => f.fminmax false a b
  | .max => f.fminmax true a b
  | .and => (a &&& b, 0)
  | .or => (a ||| b, 0)
  | .xor => (a ^^^ b, 0)
  | _ => (a, 0)

/-- An element-wise binary form (R144). -/
def vBin (op : VBin) (e : VEnv) (t : TypeCode) (m : Mask) (d a b : VReg) : VRes :=
  let w := tWidth t
  mapLanes w (tLanes t) m d fun i =>
    let x := laneGet w a.toNat i
    let y := laneGet w b.toNat i
    match e.fmt t with
    | none => (op.int (tSigned t) w x y, 0)
    | some f => op.float f e.rm x y

/-- VFMA and VFMS (R59, R144). -/
def vFma (sub : Bool) (e : VEnv) (t : TypeCode) (m : Mask) (d a b : VReg) : VRes :=
  let w := tWidth t
  mapLanes w (tLanes t) m d fun i =>
    let x := laneGet w a.toNat i
    let y := laneGet w b.toNat i
    let c := laneGet w d.toNat i
    match e.fmt t with
    | none =>
      let sg := tSigned t
      let p := readInt sg w x * readInt sg w y
      (wrapInt w (if sub then p - readInt sg w c else p + readInt sg w c), 0)
    | some f => f.ffma e.rm sub x y c

/-- VABS, with `.sat` for integers (R144, Table 03-6). -/
def vAbs (sat : Bool) (e : VEnv) (t : TypeCode) (m : Mask) (d a : VReg) : VRes :=
  let w := tWidth t
  mapLanes w (tLanes t) m d fun i =>
    let x := laneGet w a.toNat i
    match e.fmt t with
    | none =>
      let sg := tSigned t
      let v : Int := (readInt sg w x).natAbs
      (if sat then clampInt sg w v else wrapInt w v, 0)
    | some f => (x % f.signBit, 0)

/-- VNEG, with `.sat` for integers (R144, Table 03-6). -/
def vNeg (sat : Bool) (e : VEnv) (t : TypeCode) (m : Mask) (d a : VReg) : VRes :=
  let w := tWidth t
  mapLanes w (tLanes t) m d fun i =>
    let x := laneGet w a.toNat i
    match e.fmt t with
    | none =>
      let sg := tSigned t
      let v := -(readInt sg w x)
      (if sat then clampInt sg w v else wrapInt w v, 0)
    | some f => (x ^^^ f.signBit, 0)

/-- VMOV. -/
def vMov (t : TypeCode) (m : Mask) (d a : VReg) : VRes :=
  mapLanes (tWidth t) (tLanes t) m d fun i => (laneGet (tWidth t) a.toNat i, 0)

/-- VSEL: the mask selects between the sources, and every lane is written (R145). -/
def vSel (t : TypeCode) (m : Mask) (d a b : VReg) : VRes :=
  let w := tWidth t
  mapLanes w (tLanes t) none d fun i => (laneGet w (if m.active i then a else b).toNat i, 0)

/-- VBCAST: the low bits of a scalar in every active lane (R145). -/
def vBcast (t : TypeCode) (m : Mask) (d : VReg) (x : Word) : VRes :=
  let w := tWidth t
  mapLanes w (tLanes t) m d fun _ => (x.toNat % 2 ^ w, 0)

/-- The conditions of VCMP. -/
inductive VCond where
  | eq | ne | lt | le
  deriving DecidableEq, Repr

/-- One lane of VCMP on integers. -/
def VCond.int (c : VCond) (x y : Int) : Bool :=
  match c with
  | .eq => decide (x = y)
  | .ne => decide (x ≠ y)
  | .lt => decide (x < y)
  | .le => decide (x ≤ y)

/-- One lane of VCMP on floats (R146). -/
def VCond.float (c : VCond) (x y : XVal) : Bool × Flags :=
  let nan := x.isNaN || y.isNaN
  match c with
  | .eq => (x.eq y, snanFlag [x, y])
  | .ne => (!x.eq y, snanFlag [x, y])
  | .lt => (x.lt y, flagIf nan flNV)
  | .le => (!nan && !y.lt x, flagIf nan flNV)

/-- VCMP: bit `i` for an active lane where the condition holds, 0 elsewhere (R146). -/
def vCmp (c : VCond) (e : VEnv) (t : TypeCode) (m : Mask) (a b : VReg) : KReg × Flags :=
  let w := tWidth t
  mapMask fun i =>
    if i < tLanes t && m.active i then
      let x := laneGet w a.toNat i
      let y := laneGet w b.toNat i
      match e.fmt t with
      | none => (c.int (readInt (tSigned t) w x) (readInt (tSigned t) w y), 0)
      | some f => c.float (f.value x) (f.value y)
    else (false, 0)

/-- One element of VCVT (Table 03-5); `sr` gives the seed of a stochastic rounding. -/
def cvtLane (e : VEnv) (ts td : TypeCode) (sat : Bool) (sr : Option Nat) (i x : Nat) : Nat × Flags :=
  let ws := tWidth ts
  let wd := tWidth td
  match e.fmt ts, e.fmt td with
  | none, none =>
    let v := readInt (tSigned ts) ws x
    (if sat && decide (wd ≤ ws) then clampInt (tSigned td) wd v else wrapInt wd v, 0)
  | some fs, none => floatToInt e.rm (tSigned td) wd (fs.value x)
  | src, some fd =>
    let v := match src with
      | none => XVal.ofInt (readInt (tSigned ts) ws x)
      | some fs => fs.value x
    match sr with
    | none => floatToFloat e.rm sat fd v
    | some seed => fd.srRound sat seed i v

/-- The elements VCVT converts (R148). -/
def cvtLanes (ts td : TypeCode) : Nat := Nat.min (tLanes ts) (tLanes td)

/-- VCVT and VCVT.sr: M[4:0] the destination type, M[5] `.sat` (R147 to R149). -/
def vCvt (e : VEnv) (ts : TypeCode) (mod : BitVec 6) (sr : Option Nat) (m : Mask) (d a : VReg) : VRes :=
  let td : TypeCode := mod.extractLsb' 0 5
  mapLanes (tWidth td) (cvtLanes ts td) m d fun i =>
    cvtLane e ts td (mod.getLsbD 5) sr i (laneGet (tWidth ts) a.toNat i)

/-- One combining step of VRED (R150). -/
def redStep (e : VEnv) (t : TypeCode) (op : Nat) (x y : Nat) : Nat × Flags :=
  let w := tWidth t
  match e.fmt t with
  | some f =>
    if op = 0 then f.fadd e.rm false x y else f.fminmax (decide (op = 2)) x y
  | none =>
    let sg := tSigned t
    let b : VBin := match op with
      | 0 => .add false
      | 1 => .min
      | 2 => .max
      | 3 => .and
      | 4 => .or
      | _ => .xor
    (b.int sg w x y, 0)

/-- One level of the pairwise tree; an absent side passes the other unchanged (R59). -/
def redLevel (e : VEnv) (t : TypeCode) (op : Nat) : List (Option Nat) → List (Option Nat) × Flags
  | [] => ([], 0)
  | [x] => ([x], 0)
  | x :: y :: l =>
    let r := redLevel e t op l
    match x, y with
    | some a, some b =>
      let c := redStep e t op a b
      (some c.1 :: r.1, c.2 ||| r.2)
    | none, y => (y :: r.1, r.2)
    | x, none => (x :: r.1, r.2)

/-- The tree, `n` levels. -/
def redTree (e : VEnv) (t : TypeCode) (op : Nat) : Nat → List (Option Nat) → Option Nat × Flags
  | 0, l => (l.headD none, 0)
  | n + 1, l =>
    let r := redLevel e t op l
    let q := redTree e t op n r.1
    (q.1, r.2 ||| q.2)

/-- What an empty reduction returns (R150). -/
def redIdentity (e : VEnv) (t : TypeCode) (op : Nat) : Nat :=
  let w := tWidth t
  match e.fmt t with
  | some f => if op = 0 then 0 else f.nanCode
  | none =>
    match op with
    | 1 => wrapInt w (intMax (tSigned t) w)
    | 2 => wrapInt w (intMin (tSigned t) w)
    | 3 => 2 ^ w - 1
    | _ => 0

/-- VRED: the result in lane 0, zero in the others, whatever the mask (R150). DESIGN CHOICE (log 23): for the 6-bit types L = 640 is no power of two, and
the tree has ten levels, with the elements from 640 on absent. -/
def vRed (e : VEnv) (t : TypeCode) (op : Nat) (m : Mask) (d a : VReg) : VRes :=
  let w := tWidth t
  let L := tLanes t
  let es := (List.range L).map fun i => if m.active i then some (laneGet w a.toNat i) else none
  let r := redTree e t op 10 es
  let v := match r.1 with
    | some v => v
    | none => redIdentity e t op
  (packLanes w d (v :: List.replicate (L - 1) 0), r.2)

/-- VPERM (Table 08-4). -/
def vPerm (t : TypeCode) (m : Mask) (d a b : VReg) : VRes :=
  let w := tWidth t
  mapLanes w (tLanes t) m d fun i => (laneGet w a.toNat (laneGet w b.toNat i % tLanes t), 0)

/-- VSLIDE (Table 08-4). -/
def vSlide (t : TypeCode) (m : Mask) (d a : VReg) (s : Word) : VRes :=
  let w := tWidth t
  mapLanes w (tLanes t) m d fun i =>
    let j := (i : Int) + s.toInt
    (if 0 ≤ j ∧ j < (tLanes t : Int) then laneGet w a.toNat j.toNat else 0, 0)

/-- VZIP (Table 08-4). -/
def vZip (t : TypeCode) (m : Mask) (d a b : VReg) : VRes :=
  let w := tWidth t
  mapLanes w (tLanes t) m d fun i => (laneGet w (if i % 2 = 0 then a else b).toNat (i / 2), 0)

/-- VUNZIP (Table 08-4). -/
def vUnzip (t : TypeCode) (m : Mask) (d a b : VReg) : VRes :=
  let w := tWidth t
  let L := tLanes t
  mapLanes w L m d fun i => (if i < L / 2 then laneGet w a.toNat (2 * i) else laneGet w b.toNat (2 * i - L), 0)

/-- The exact sum S of a list of products, with its flags (R56, R152). DESIGN CHOICE (log 22): two infinite products of opposite sign raise NV whatever
NaN stands among the others, since the sum has no order; and an exact zero sum takes the sign that IEEE 754 gives it, so -0 where RMODE rounds down
or every term is -0. -/
def dotSum (rm : RMode) (l : List (XVal × XVal)) : XVal × Flags :=
  let ps := l.map fun p => p.1.mul p.2
  let s := match ps with
    | [] => .fin false 0 0
    | p :: r => r.foldl (fun acc q => acc.add rm.zeroNeg q) p
  (s, snanFlag (l.flatMap fun p => [p.1, p.2]) ||| flagIf ((l.any fun p => p.1.mulInvalid p.2) || (ps.contains (.inf false) && ps.contains (.inf true))) flNV)

/-- VDOT: 128 lanes of 32 bits, each the exact sum of its products and the prior value, rounded once (R152). -/
def vDot (e : VEnv) (t : TypeCode) (m : Mask) (d a b : VReg) : VRes :=
  let w := tWidth t
  let r := tLanes t / 128
  mapLanes 32 128 m d fun j =>
    let ks := (List.range r).map fun k => j * r + k
    let c := laneGet 32 d.toNat j
    match e.fmt t with
    | none =>
      let sg := tSigned t
      let s := ks.foldl (fun acc k => acc + readInt sg w (laneGet w a.toNat k) * readInt sg w (laneGet w b.toNat k)) 0
      (wrapInt 32 ((c : Int) + s), 0)
    | some f =>
      let c' := fmt32.value c
      let q := dotSum e.rm (ks.map fun k => (f.value (laneGet w a.toNat k), f.value (laneGet w b.toNat k)))
      let res := fmt32.round e.rm false (c'.add e.rm.zeroNeg q.1)
      (res.1, res.2 ||| q.2 ||| snanFlag [c'] ||| flagIf (c'.addInvalid q.1) flNV)

/-- The scale and the zero point of VQNT and VDQNT (R153). -/
def quantScale (x : Word) : XVal := fmt16.value (x.toNat % 2 ^ 16)
/-- The zero point, its bits above `w` ignored. -/
def quantZero (w : Nat) (x : Word) : Nat := bitsOf x.toNat 23 16 % 2 ^ w

/-- One element of VQNT (R153). -/
def qntLane (rm : RMode) (w : Nat) (s : XVal) (zp : Nat) (v : XVal) : Nat × Flags :=
  match s, v with
  | .fin sn sm se, .fin n vm ve =>
    if sm = 0 then (zp, flNV)
    else
      let neg := n != sn
      let r := roundRatio rm neg (vm * 2 ^ (ve - se).toNat) (sm * 2 ^ (se - ve).toNat)
      let q : Int := (if neg then -(r.1 : Int) else (r.1 : Int)) + zp
      if q < 0 ∨ intMax false w < q then (clampInt false w q, flNX) else (q.toNat, flagIf r.2 flNX)
  | .fin sn sm _, .inf n => if sm = 0 then (zp, flNV) else ((if n = sn then 2 ^ w - 1 else 0), flNV)
  | _, _ => (zp, flNV)

/-- VQNT: the 128 binary32 elements of vs1 into elements 0 to 127 of vd (R153). -/
def vQnt (e : VEnv) (t : TypeCode) (m : Mask) (d a : VReg) (x : Word) : VRes :=
  let w := tWidth t
  mapLanes w 128 m d fun i => qntLane e.rm w (quantScale x) (quantZero w x) (fmt32.value (laneGet 32 a.toNat i))

/-- VDQNT: codes 0 to 127 of vs1 to binary32 (R154). -/
def vDqnt (e : VEnv) (t : TypeCode) (m : Mask) (d a : VReg) (x : Word) : VRes :=
  let w := tWidth t
  mapLanes 32 128 m d fun i =>
    let s := quantScale x
    let v := XVal.ofInt ((laneGet w a.toNat i : Int) - (quantZero w x : Int))
    let r := fmt32.round e.rm false (s.mul v)
    (r.1, r.2 ||| snanFlag [s] ||| flagIf (s.mulInvalid v) flNV)

/-- VPLANE: `u` unpacks, `h` is the half, `p` the planes read (R155). -/
def vPlane (t : TypeCode) (p : Nat) (h u : Bool) (m : Mask) (d a : VReg) : VRes :=
  let w := tWidth t
  let L := tLanes t
  let half := if h then 512 else 0
  if u then
    mapLanes 8 512 m d fun i =>
      let e := half + i
      if e < L then
        (wrapInt 8 (readInt (tSigned t) w (laneGet w a.toNat e) / (2 ^ (w - p) : Nat)), 0)
      else (0, 0)
  else
    let inHalf (e : Nat) : Bool := decide (half ≤ e ∧ e < half + 512)
    mapLanes w L none d fun e =>
      if inHalf e && m.active e then (laneGet 8 a.toNat (e - half) % 2 ^ w, 0) else (laneGet w d.toNat e, 0)

end Sys2Proof.Machine
end

