-- ==== Sys2Proof/Machine/Special.lean ====
section
/-!
DEFINITION. The special functions of R156.

The spec fixes each result at the special and exact inputs of Table 08-5 and bounds its error elsewhere. `admissible` lists the
encodings within the bound of the function's exact value, which is computed to at least 60 bits; `Config.specialChoice` chooses among
them (log 5).
-/

namespace Sys2Proof.Machine

/-- The six special functions. -/
inductive SpecialFn where
  | rcp | rsq | ex2 | lg2 | sin | tanh
  deriving DecidableEq, Repr

/-- A number for each function, to tell the free choices apart. -/
def SpecialFn.code : SpecialFn → Nat
  | .rcp => 0
  | .rsq => 1
  | .ex2 => 2
  | .lg2 => 3
  | .sin => 4
  | .tanh => 5

/-- The error bound in half units of the last place (Table 08-5); `wide` is `.f32`. -/
def SpecialFn.halfUlps (fn : SpecialFn) (wide : Bool) : Nat :=
  match fn with
  | .rcp => if wide then 2 else 1
  | .rsq => if wide then 2 else 1
  | _ => if wide then 4 else 2

/-- ln 2, pi and log2 e, times 2^128. -/
def cLn2 : Nat := 0xB17217F7D1CF79ABC9E3B39803F2F6AF
/-- pi times 2^128. -/
def cPi : Nat := 0x3243F6A8885A308D313198A2E03707344
/-- log2 e times 2^128. -/
def cLog2e : Nat := 0x171547652B82FE1777D0FFDA0D23A7D11

/-- The integer square root, `n` result bits. -/
def isqrt (a : Nat) : Nat → Nat → Nat
  | 0, r => r
  | n + 1, r =>
    let c := r + 2 ^ n
    isqrt a n (if c * c ≤ a then c else r)

/-- `2^r` for `r = R / 2^128` below 1, times 2^128: the exponential series in `r ln 2`. -/
def exp2Frac (R : Nat) : Nat :=
  let y := R * cLn2 / 2 ^ 128
  ((List.range 36).foldl (fun (st : Nat × Nat) k =>
    let term := st.2 * y / 2 ^ 128 / (k + 1)
    (st.1 + term, term)) (2 ^ 128, 2 ^ 128)).1

/-- The fraction bits of `log2 y` for `1 ≤ y = Y / 2^128 < 2`, `n` of them, by repeated squaring. -/
def log2Bits : Nat → Nat → Nat → Nat
  | 0, _, acc => acc
  | n + 1, Y, acc =>
    let s := Y * Y / 2 ^ 128
    if 2 ^ 129 ≤ s then log2Bits n (s / 2) (2 * acc + 1) else log2Bits n s (2 * acc)

/-- `sin θ / θ` times 2^128, from `θ²` times 2^128. -/
def sincSeries (t2 : Nat) : Nat :=
  ((List.range 24).foldl (fun (st : Int × Int) k =>
    let term := -(st.2 * (t2 : Int) / (2 ^ 128 : Nat) / (((2 * k + 2) * (2 * k + 3) : Nat) : Int))
    (st.1 + term, term)) (((2 ^ 128 : Nat) : Int), ((2 ^ 128 : Nat) : Int))).1.toNat

/-- `(1 - e^(-a)) / a` times 2^128 for `a = A / 2^128 ≤ 1`. -/
def expm1Series (A : Nat) : Nat :=
  ((List.range 36).foldl (fun (st : Int × Int) k =>
    let term := -(st.2 * (A : Int) / (2 ^ 128 : Nat) / ((k + 2 : Nat) : Int))
    (st.1 + term, term)) (((2 ^ 128 : Nat) : Int), ((2 ^ 128 : Nat) : Int))).1.toNat

/-- A magnitude `m * 2^e` in fixed point with 128 fraction bits, rounded down. -/
def fixed128 (m : Nat) (e : Int) : Nat :=
  if 0 ≤ e + 128 then m * 2 ^ (e + 128).toNat else m / 2 ^ (-(e + 128)).toNat

/-- The encodings within `half` half units of the last place of `V * 2^q`, an approximation good to 2^16 units of `V`. -/
def admissible (f : Fmt) (half V : Nat) (q : Int) : List Nat :=
  let u := f.ulpExp V q
  let t := f.codeAt (roundAt .rtz false V q u).1 u
  let b := min q (f.emin - 1)
  let vi := (V : Int) * (2 ^ (q - b).toNat : Nat)
  let bound := (half : Int) * (2 ^ (u - 1 - b).toNat : Nat) + (2 ^ 16 * 2 ^ (q - b).toNat : Nat)
  (List.range 8).filterMap fun k =>
    if 4 ≤ t + k ∧ t + k - 4 ≤ f.maxCode then
      let c := t + k - 4
      match f.value c with
      | .fin _ m e =>
        let ci := (m : Int) * (2 ^ (e - b).toNat : Nat)
        if (ci - vi).natAbs ≤ bound.toNat then some c else none
      | _ => none
    else none

/-- An inexact result: one of the admissible encodings, with NX, OF and UF (R156). -/
def specialPick (fn : SpecialFn) (f : Fmt) (t : TypeCode) (x : Nat) (neg : Bool) (V : Nat) (q : Int) : Nat × Flags :=
  let near := f.roundFin .rne false neg V q
  if near.2 &&& flOF ≠ 0 then (near.1, flOF ||| flNX)
  else
    let l := admissible f (fn.halfUlps (decide (t.toNat = 14))) V q
    let c := l.getD (Config.specialChoice fn.code t.toNat x % l.length) (near.1 % f.signBit)
    (f.signed neg c, flNX ||| flagIf (decide (c < 2 ^ f.mw)) flUF)

/-- An exact result, rounded where it does not fit. -/
def specialExact (f : Fmt) (neg : Bool) (m : Nat) (e : Int) : Nat × Flags := f.roundFin .rne false neg m e

/-- Whether a number is a power of two. -/
def isPow2 (m : Nat) : Bool := decide (m ≠ 0) && decide (2 ^ m.log2 = m)

/-- 1/x for a finite x ≠ 0. -/
def rcpFin (f : Fmt) (t : TypeCode) (x : Nat) (neg : Bool) (m : Nat) (e : Int) : Nat × Flags :=
  if isPow2 m then specialExact f neg 1 (-(e + m.log2))
  else
    let K := m.log2 + 100
    specialPick .rcp f t x neg (2 ^ K / m) (-e - K)

/-- 1/√x for a finite x > 0. -/
def rsqFin (f : Fmt) (t : TypeCode) (x m : Nat) (e : Int) : Nat × Flags :=
  let odd := decide (e % 2 ≠ 0)
  let m' := if odd then 2 * m else m
  let e' := if odd then e - 1 else e
  -- x = m' * 2^e' with e' even
  if isPow2 m' && decide (m'.log2 % 2 = 0) then specialExact f false 1 (-(e' / 2 + (m'.log2 / 2 : Nat)))
  else
    let K := m'.log2 + 100
    specialPick .rsq f t x false (isqrt (2 ^ (2 * K) / m') (K + 1) 0) (-(e' / 2) - K)

/-- 2^x for a finite x. The approximation of a power below a power of two stays below it, since an ulp is measured at the exact result. -/
def ex2Fin (f : Fmt) (t : TypeCode) (x : Nat) (neg : Bool) (m : Nat) (e : Int) : Nat × Flags :=
  if 0 ≤ e ∨ m % 2 ^ (-e).toNat = 0 then
    -- an integer; beyond the exponent range every magnitude acts alike
    let i := if 0 ≤ e then m * 2 ^ (min e 20).toNat else m / 2 ^ (-e).toNat
    let i' := Nat.min i 2000
    specialExact f false 1 (if neg then -(i' : Int) else (i' : Int))
  else
    let F := Nat.min (fixed128 m e) (2000 * 2 ^ 128)
    -- floor and fraction of ±F
    let n : Int := if neg then -((F / 2 ^ 128 : Nat) : Int) - 1 else ((F / 2 ^ 128 : Nat) : Int)
    let r := if neg then 2 ^ 128 - F % 2 ^ 128 else F % 2 ^ 128
    if r = 2 ^ 128 then specialPick .ex2 f t x false (2 ^ 128 - 1) (n + 1 - 128)
    else specialPick .ex2 f t x false (Nat.min (exp2Frac r) (2 ^ 129 - 1)) (n - 128)

/-- log2 x for a finite x > 0. -/
def lg2Fin (f : Fmt) (t : TypeCode) (x m : Nat) (e : Int) : Nat × Flags :=
  if isPow2 m then
    let i : Int := e + (m.log2 : Int)
    specialExact f (decide (i < 0)) i.natAbs 0
  else
    let Y := m * 2 ^ (128 - m.log2)
    let v : Int := (e + (m.log2 : Int)) * (2 ^ 120 : Nat) + (log2Bits 120 Y 0 : Int)
    specialPick .lg2 f t x (decide (v < 0)) v.natAbs (-120)

/-- sin(πx) for a finite x. -/
def sinFin (f : Fmt) (t : TypeCode) (x : Nat) (neg : Bool) (m : Nat) (e : Int) : Nat × Flags :=
  if 0 ≤ e ∨ m % 2 ^ (-e).toNat = 0 then (f.signed neg 0, 0)
  else
    let k := (-e).toNat
    let r := m % 2 ^ (k + 1)
    let neg' := neg != decide (2 ^ k < r)
    let r1 := r % 2 ^ k
    let u := if 2 * r1 ≤ 2 ^ k then r1 else 2 ^ k - r1
    if 2 * u = 2 ^ k then specialExact f neg' 1 0
    else
      let th := fixed128 (u * cPi) (e - 128)
      specialPick .sin f t x neg' (u * cPi / 2 * sincSeries (th * th / 2 ^ 128)) (e - 255)

/-- tanh x for a finite x ≠ 0. The approximation stays below |x| and below 1, as tanh does, since an ulp is measured at the exact result. -/
def tanhFin (f : Fmt) (t : TypeCode) (x : Nat) (neg : Bool) (m : Nat) (e : Int) : Nat × Flags :=
  let a := Nat.min (fixed128 m (min (e + 1) 64)) (100 * 2 ^ 128)
  if a ≤ 2 ^ 128 then
    -- (1 - e^(-a)) / (1 + e^(-a)) with 1 - e^(-a) = a * S
    let S := expm1Series a
    let num := m * S
    let den := 2 ^ 129 - a * S / 2 ^ 128
    specialPick .tanh f t x neg (Nat.min (num * 2 ^ 128 / den) (m * 2 ^ 127 - 1)) (e + 1 - 128)
  else
    let z := a * cLog2e / 2 ^ 128
    let n := z / 2 ^ 128
    let r := z % 2 ^ 128
    let E := if r = 0 then 2 ^ 128 / 2 ^ n else exp2Frac (2 ^ 128 - r) / 2 ^ (n + 1)
    specialPick .tanh f t x neg (Nat.min ((2 ^ 128 - E) * 2 ^ 128 / (2 ^ 128 + E)) (2 ^ 128 - 1)) (-128)

/-- One element of a special function (Table 08-5). -/
def specialLane (fn : SpecialFn) (f : Fmt) (t : TypeCode) (x : Nat) : Nat × Flags :=
  match f.value x with
  | .nan s => (f.nanCode, flagIf s flNV)
  | .inf neg =>
    match fn with
    | .rcp => (f.signed neg 0, 0)
    | .rsq => if neg then (f.nanCode, flNV) else (0, 0)
    | .ex2 => if neg then (0, 0) else (f.infCode, 0)
    | .lg2 => if neg then (f.nanCode, flNV) else (f.infCode, 0)
    | .sin => (f.nanCode, flNV)
    | .tanh => specialExact f neg 1 0
  | .fin neg m e =>
    if m = 0 then
      match fn with
      | .rcp => (f.signed neg f.infCode, flDZ)
      | .rsq => (f.signed neg f.infCode, flDZ)
      | .ex2 => specialExact f false 1 0
      | .lg2 => (f.signed true f.infCode, flDZ)
      | .sin => (f.signed neg 0, 0)
      | .tanh => (f.signed neg 0, 0)
    else
      match fn with
      | .rcp => rcpFin f t x neg m e
      | .rsq => if neg then (f.nanCode, flNV) else rsqFin f t x m e
      | .ex2 => ex2Fin f t x neg m e
      | .lg2 => if neg then (f.nanCode, flNV) else lg2Fin f t x m e
      | .sin => sinFin f t x neg m e
      | .tanh => tanhFin f t x neg m e

/-- A special-function form. -/
def vSpecial (fn : SpecialFn) (t : TypeCode) (m : Mask) (d a : VReg) : VRes :=
  let w := tWidth t
  mapLanes w (tLanes t) m d fun i =>
    match typeFmt t 0 with
    | some f => specialLane fn f t (laneGet w a.toNat i)
    | none => (laneGet w a.toNat i, 0)

end Sys2Proof.Machine
end

