-- ==== Sys2Proof/Machine/VectorForms.lean ====
section
/-!
DEFINITION. How vector instructions issue, bind and are performed (R138 to R142, R157 to R168).
-/

namespace Sys2Proof.Machine

/-! The effect of one performance. -/

/-- What a vector instruction writes. -/
inductive VEffect where
  | vec (d : VDst) (r : VRes)
  | own (d : BitVec 4) (r : VRes)
  | mask (d : BitVec 3) (r : KReg × Flags)
  | scalar (d : XDst) (v : Word)
  | none
  deriving DecidableEq, Repr

/-- The mask an instruction runs under (R137): k0 masks nothing. -/
def Ctx.mask (c : Ctx) (k : BitVec 3) : Mask := if k = 0 then Option.none else some (c.rk k)

/-- The prior contents of a destination: a channel has none. -/
def Ctx.old (c : Ctx) (d : VDst) : VReg :=
  match d with
  | .v n => c.rv n
  | .ch _ => 0

/-- The effect of an arithmetic vector instruction, a mask form or KPOPC on its source images `a` and `b` and its scalar operands
(R144 to R156, R161). Memory forms, SETFMT and REPF act elsewhere. -/
def vecEffect (c : Ctx) (e : VEnv) (seed : Nat) (i : Instr) (a b : VReg) (xa xb : Word) : VEffect :=
  match i with
  | .vadd d _ _ t k => .vec d (vBin (.add false) e t (c.mask k) (c.old d) a b)
  | .vaddSat d _ _ t k => .vec d (vBin (.add true) e t (c.mask k) (c.old d) a b)
  | .vsub d _ _ t k => .vec d (vBin (.sub false) e t (c.mask k) (c.old d) a b)
  | .vsubSat d _ _ t k => .vec d (vBin (.sub true) e t (c.mask k) (c.old d) a b)
  | .vmul d _ _ t k => .vec d (vBin (.mul false) e t (c.mask k) (c.old d) a b)
  | .vmulSat d _ _ t k => .vec d (vBin (.mul true) e t (c.mask k) (c.old d) a b)
  | .vfma d _ _ t k => .own d (vFma false e t (c.mask k) (c.rv d) a b)
  | .vfms d _ _ t k => .own d (vFma true e t (c.mask k) (c.rv d) a b)
  | .vmulh d _ _ t k => .vec d (vBin .mulh e t (c.mask k) (c.old d) a b)
  | .vabs d _ m t k => .vec d (vAbs m e t (c.mask k) (c.old d) a)
  | .vmin d _ _ t k => .vec d (vBin .min e t (c.mask k) (c.old d) a b)
  | .vmax d _ _ t k => .vec d (vBin .max e t (c.mask k) (c.old d) a b)
  | .vneg d _ m t k => .vec d (vNeg m e t (c.mask k) (c.old d) a)
  | .vmov d _ t k => .vec d (vMov t (c.mask k) (c.old d) a)
  | .vand d _ _ t k => .vec d (vBin .and e t (c.mask k) (c.old d) a b)
  | .vor d _ _ t k => .vec d (vBin .or e t (c.mask k) (c.old d) a b)
  | .vxor d _ _ t k => .vec d (vBin .xor e t (c.mask k) (c.old d) a b)
  | .vshr d _ _ t k => .vec d (vBin .shr e t (c.mask k) (c.old d) a b)
  | .vshl d _ _ t k => .vec d (vBin (.shl false) e t (c.mask k) (c.old d) a b)
  | .vshlSat d _ _ t k => .vec d (vBin (.shl true) e t (c.mask k) (c.old d) a b)
  | .vshra d _ _ t k => .vec d (vBin .shra e t (c.mask k) (c.old d) a b)
  | .vsel d _ _ t k => .vec d (vSel t (c.mask k) (c.old d) a b)
  | .vcmpEq d _ _ t k => .mask d (vCmp .eq e t (c.mask k) a b)
  | .vcmpNe d _ _ t k => .mask d (vCmp .ne e t (c.mask k) a b)
  | .vcmpLt d _ _ t k => .mask d (vCmp .lt e t (c.mask k) a b)
  | .vcmpLe d _ _ t k => .mask d (vCmp .le e t (c.mask k) a b)
  | .vbcast d _ t k => .vec d (vBcast t (c.mask k) (c.old d) xa)
  | .vred d _ o t k => .vec d (vRed e t o.toNat (c.mask k) (c.old d) a)
  | .vcvt d _ m t k => .vec d (vCvt e t m Option.none (c.mask k) (c.old d) a)
  | .vcvtSr d _ m t k => .vec d (vCvt e t m (some seed) (c.mask k) (c.old d) a)
  | .vperm d _ _ t k => .vec d (vPerm t (c.mask k) (c.old d) a b)
  | .vslide d _ _ t k => .vec d (vSlide t (c.mask k) (c.old d) a xb)
  | .vzip d _ _ t k => .vec d (vZip t (c.mask k) (c.old d) a b)
  | .vunzip d _ _ t k => .vec d (vUnzip t (c.mask k) (c.old d) a b)
  | .vdot d _ _ t k => .own d (vDot e t (c.mask k) (c.rv d) a b)
  | .vplane d _ p h u t k => .vec d (vPlane t (p.toNat + 1) h u (c.mask k) (c.old d) a)
  | .vqnt d _ _ t k => .vec d (vQnt e t (c.mask k) (c.old d) a xb)
  | .vdqnt d _ _ t k => .vec d (vDqnt e t (c.mask k) (c.old d) a xb)
  | .vrcp d _ t k => .vec d (vSpecial .rcp t (c.mask k) (c.old d) a)
  | .vrsq d _ t k => .vec d (vSpecial .rsq t (c.mask k) (c.old d) a)
  | .vex2 d _ t k => .vec d (vSpecial .ex2 t (c.mask k) (c.old d) a)
  | .vlg2 d _ t k => .vec d (vSpecial .lg2 t (c.mask k) (c.old d) a)
  | .vsin d _ t k => .vec d (vSpecial .sin t (c.mask k) (c.old d) a)
  | .vtanh d _ t k => .vec d (vSpecial .tanh t (c.mask k) (c.old d) a)
  | .kand d x y => .mask d (c.rk x &&& c.rk y, 0)
  | .kor d x y => .mask d (c.rk x ||| c.rk y, 0)
  | .knot d x => .mask d (~~~(c.rk x), 0)
  | .kpopc d x => .scalar d (w64 ((List.range 1024).countP fun n => (c.rk x).getLsbD n))
  | .peerv d _ => .vec (.v d) (a, 0)
  | _ => .none

/-- Flags OR-ed into FFLAGS (R55). -/
def Ctx.raise (c : Ctx) (f : Flags) : Ctx := { c with fflags := c.fflags ||| f }

/-- A channel entry written by the vector instruction of a `serial` in cycle `at_`: in the place kept for it, or for a frame behind the others. -/
def State.vecWrite (s : State) (sid ser at_ : Nat) (frame : Bool) (n : BitVec 4) (v : Nat) : State :=
  if frame then s.writeChan sid ser at_ (ch5 n) (some v) else s.fillChan sid ser at_ v

/-- A vector register or mask whose new contents a dependent instruction may use from a later cycle (R140). -/
def Ctx.vecUsable (c : Ctx) (now n at_ : Nat) : Ctx :=
  if at_ ≤ now then c else { c with vlate := (n, at_) :: c.vlate.filter fun v => v.1 ≠ n }

/-- A vector instruction whose result is no register of the sequencer's completes in a later cycle (R14, R138). -/
def Ctx.vecDone (c : Ctx) (now at_ : Nat) : Ctx := if at_ ≤ now then c else { c with vlate := (24, at_) :: c.vlate }

/-- The x register of KPOPC written, usable in cycle `at_` (R141). -/
def Ctx.vecScalar (c : Ctx) (now ser at_ : Nat) (n : BitVec 5) (v : Word) : Ctx :=
  if at_ ≤ now then { c.wxAt ser n v with busy := dropBusy n.toNat c.busy }
  else { c.wxAt ser n v with late := c.late ++ [{ at_ := at_, code := some n.toNat, acq := false, space := [] }] }

/-- The effect of the vector instruction of a `serial` written for a slot's context: a register is usable, and a channel entry written, in cycle
`at_`. -/
def State.applyV (s : State) (sid ser at_ : Nat) (frame : Bool) : VEffect → State
  | .vec (.v n) r => s.modCtx sid fun c => ((c.wv n r.1).raise r.2).vecUsable s.now n.toNat at_
  | .vec (.ch n) r => (s.modCtx sid fun c => (c.raise r.2).vecDone s.now at_).vecWrite sid ser at_ frame n r.1.toNat
  | .own n r => s.modCtx sid fun c => ((c.wv n r.1).raise r.2).vecUsable s.now n.toNat at_
  | .mask n r => s.modCtx sid fun c => ((c.wk n r.1).raise r.2).vecUsable s.now (16 + n.toNat) at_
  | .scalar (.x n) v => s.modCtx sid fun c => (c.vecScalar s.now ser at_ (n.zeroExtend 5) v).vecDone s.now at_
  | .scalar (.ch n) v => (s.modCtx sid fun c => c.vecDone s.now at_).vecWrite sid ser at_ frame n v.toNat
  | .none => s

/-! Vector channel entries (R138). -/

/-- Whether a target can be read by a V-kind field (Table 11-5). -/
def State.vecReadable (s : State) (sid : Nat) : Target → Bool
  | .null => true
  | .aq _ => true
  | .inbox => false
  | .streamIn e => !(s.engOf sid e).out
  | .streamOut _ => false
  | .port => match (s.ctx sid).win with
    | some w => !decide (w.port < w.len ∧ w.port % 4 ≠ 0)
    | none => false

/-- The entries of a target as register images, oldest first: a narrow entry is repeated (R138, R228). -/
def State.vecQueue (s : State) (sid : Nat) : Target → List VReg
  | .aq i => (s.ctx sid).aq[i.val].map fun v => repeatEntry 64 v.toNat
  | .streamIn e => let g := s.engOf sid e; g.buf.map fun v => if g.wide then BitVec.ofNat 4096 v else repeatEntry 64 v
  | .port => match (s.ctx sid).win with
    | some w => (List.range (w.buf.length / 64)).map fun i => BitVec.ofNat 4096 (packWhole 64 (((w.buf.drop (64 * i)).take 64).map BitVec.toNat))
    | none => []
  | _ => []

/-- A V-kind source field: a register, or the next entry of its channel; none while there is none (R79, R138). -/
def State.readV (s : State) (sid : Nat) (taken : List Target) : VSrc → Option (VReg × List Target)
  | .v n => some ((s.ctx sid).rv n, taken)
  | .ch n p =>
    let t := (s.ctx sid).target (ch5 n)
    if t = .null then some (0, taken)
    else match (s.vecQueue sid t).drop (taken.count t) with
      | [] => none
      | v :: _ => some (v, if p then taken else taken ++ [t])

/-- Both V-kind sources of a shape, vs1 before vs2; an absent source reads as zero. -/
def State.readVs (s : State) (sid : Nat) (h : VShape) : Option (VReg × VReg × List Target) :=
  let ra := match h.a with
    | some a => s.readV sid [] a
    | none => some (0, [])
  match ra with
  | none => none
  | some (a, t) =>
    match h.b with
    | none => some (a, 0, t)
    | some b => (s.readV sid t b).map fun r => (a, r.1, r.2)

/-- Entries taken by V-kind fields removed. -/
def State.popAllV (s : State) (sid : Nat) (taken : List Target) : State := taken.foldl (fun s t => s.popTarget sid 64 t) s

/-- The channels whose entries V-kind fields of a shape pop. -/
def VShape.vpops (h : VShape) : List (BitVec 5) :=
  (h.a.toList ++ h.b.toList).filterMap fun v => match v with
    | .ch n false => some (ch5 n)
    | _ => none

/-- The scalar-kind sources of a shape, read in field order (R138). -/
def State.readXs (s : State) (sid : Nat) (h : VShape) : Option (Word × Word × List Target) :=
  let ra := match h.xa with
    | some a => s.readXSrc sid [] a
    | none => some (0, [])
  match ra with
  | none => none
  | some (a, t) =>
    match h.xb with
    | none => some (a, 0, t)
    | some b => (s.readXSrc sid t b).map fun r => (a, r.1, r.2)

/-! Checks at issue (R142). -/

/-- The environment of a context: RMODE and the format registers (R14). -/
def Ctx.venv (c : Ctx) : VEnv := ⟨RMode.ofBits c.rmode, c.fm.toList.map BitVec.toNat⟩

/-- Whether an instruction names a format register whose value is invalid, or VPLANE reads a float truncated (R48, R52, R142). -/
def Ctx.formatBad (c : Ctx) (i : Instr) : Bool :=
  match i with
  | .vcvt _ _ m t _ => !c.venv.fmOk t || !c.venv.fmOk (m.extractLsb' 0 5)
  | .vcvtSr _ _ m t _ => !c.venv.fmOk t || !c.venv.fmOk (m.extractLsb' 0 5)
  | .vplane _ _ p _ u t _ => !c.venv.fmOk t || (u && !tIsInt t && decide (p.toNat + 1 ≠ tWidth t))
  | _ => match vShape i with
    | some h => !c.venv.fmOk h.t
    | none => false

/-- Whether a channel field's binding does not admit the access (R81, R142). -/
def State.vecChanBad (s : State) (sid : Nat) (h : VShape) : Bool :=
  let c := s.ctx sid
  (h.a.toList ++ h.b.toList).any (fun v => (vsrcChan v).any fun n => !s.vecReadable sid (c.target n)) ||
  h.d.toList.any (fun d => (vdstChan d).any fun n => (s.writeDepth sid true (c.target n)).isNone) ||
  h.dx.toList.any (fun d => (xdstChan d).any fun n => (s.writeDepth sid false (c.target n)).isNone) ||
  (h.xa.toList ++ h.xb.toList).any fun x => match x with
    | .x _ => false
    | .ch n _ => (s.scalarQueue sid (c.target (ch5 n))).isNone

/-- The precise trap of a vector instruction found at issue, before its memory checks (R142). -/
def State.vecFault (s : State) (sid : Nat) (i : Instr) (h : VShape) : Option Trap :=
  if (s.ctx sid).formatBad i then some .formatInvalid
  else if s.vecChanBad sid h then some .channelFault
  else none

/-- Whether the destination channel of the vector instruction of a `serial` lacks space, given the entries it takes (R80). -/
def State.vecDstFull (s : State) (sid ser : Nat) (taken : List Target) (h : VShape) : Bool :=
  (h.d.toList.any fun d => (vdstChan d).any fun n => s.dstFull sid ser taken n true) ||
    h.dx.toList.any fun d => (xdstChan d).any fun n => s.dstFull sid ser taken n false

/-- Whether an instruction keeps elements of its destination (R137): those its mask leaves inactive, or those it has no lane for (R147, R153, R155).
VRED writes every lane (R150), and the mask of VSEL is a selector (R145). -/
def vecKeeps (i : Instr) (h : VShape) : Bool :=
  match i with
  | .vred _ _ _ _ _ => false
  | .vsel _ _ _ _ _ => false
  | .vcvt _ _ m t k => k != 0 || decide (cvtLanes t (m.extractLsb' 0 5) < tLanes (m.extractLsb' 0 5))
  | .vcvtSr _ _ m t k => k != 0 || decide (cvtLanes t (m.extractLsb' 0 5) < tLanes (m.extractLsb' 0 5))
  | .vqnt _ _ _ _ _ => true
  | .vplane _ _ _ _ u _ k => !u || k != 0
  | _ => h.k != 0

/-- The vector registers, and masks as 16 and up, that an instruction must find usable when it binds (R140): its sources, its mask, and a
destination of whose prior contents it keeps some (R137). -/
def vecUses (i : Instr) (h : VShape) : List Nat :=
  let src (v : VSrc) : List Nat := match v with
    | .v n => [n.toNat]
    | .ch _ _ => []
  let dst (d : VDst) : List Nat := match d with
    | .v n => if vecKeeps i h then [n.toNat] else []
    | .ch _ => []
  (h.a.toList.flatMap src) ++ (h.b.toList.flatMap src) ++ (h.ds.toList.map BitVec.toNat) ++ (h.d.toList.flatMap dst) ++
    (if h.k = 0 then [] else [16 + h.k.toNat]) ++
    match i with
    | .kand _ x y => [16 + x.toNat, 16 + y.toNat]
    | .kor _ x y => [16 + x.toNat, 16 + y.toNat]
    | .knot _ x => [16 + x.toNat]
    | .kpopc _ x => [16 + x.toNat]
    | _ => []

/-- The vector register a load of a context that is under way will write. -/
def loadTarget (e : SeqEntry) : Option Nat :=
  match e.i with
  | .vld (.v n) _ _ _ => some n.toNat
  | .vlds (.v n) _ _ _ _ => some n.toNat
  | .vgthr (.v n) _ _ _ _ => some n.toNat
  | _ => none

/-- Whether an instruction of a context finds its registers usable: no result it reads is on its way, and no load under way writes a register it
reads or writes. -/
def State.vecReady (s : State) (sid : Nat) (i : Instr) (h : VShape) : Bool :=
  let own (d : VDst) : List Nat := match d with
    | .v n => [n.toNat]
    | .ch _ => []
  let uses := vecUses i h
  let all := uses ++ h.d.toList.flatMap own
  ((s.ctx sid).vlate.all fun v => !uses.contains v.1 || decide (v.2 ≤ s.now)) &&
    (s.core (slotCore sid)).vout.all fun e => e.sid != sid || (loadTarget e).all fun n => !all.contains n

/-! Memory forms (R157 to R160). -/

/-- The addressing of a memory form: is it a store, its lanes' addresses, its second vector source. -/
inductive VMem where
  | whole (base : Word)
  | strided (base stride : Word)
  | indexed (base : Word) (index : VReg)
  deriving DecidableEq, Repr

/-- The element size in bytes; sub-byte elements lie in plane words (R158). -/
def elemBytes (w : Nat) : Nat := w / 8

/-- The address of lane `n` of a form with elements of at least 8 bits. -/
def VMem.laneAddr (m : VMem) (w n : Nat) : Word :=
  match m with
  | .whole b => b + w64 (n * elemBytes w)
  | .strided b st => b + w64 n * st
  | .indexed b ix => b + w64 (laneGet w ix.toNat n * elemBytes w)

/-- The bits of byte `j` of a sub-byte image that active elements hold (R51, R137). -/
def planeByteMask (w : Nat) (m : Mask) (j : Nat) : Nat :=
  (List.range 8).foldr (fun q acc => (if m.active (64 * (j / (8 * w)) + 8 * (j % 8) + q) then 1 else 0) + 2 * acc) 0

/-- The pieces of the active lanes, in lane order: an element each, or for sub-byte forms a byte of the image each (R158). -/
def vPieces (t : TypeCode) (m : Mask) (v : VMem) : List VPiece :=
  let w := tWidth t
  if w < 8 then
    match v with
    | .whole b => (List.range (tLanes t * w / 8)).filterMap fun j =>
      let bits := planeByteMask w m j
      if bits = 0 then none else some { addr := b + w64 j, size := 1, bits := bits, pos := 8 * j }
    | _ => []
  else
    (List.range (tLanes t)).filterMap fun n =>
      if m.active n then some { addr := v.laneAddr w n, size := elemBytes w, bits := allBytes w, pos := w * n } else none

/-- The checks of one piece: R16 to R19, and the windows of R159. -/
def State.vCheck (s : State) (sid : Nat) (p : VPiece) : Except Trap VPlace :=
  match s.window sid p.addr p.size p.size with
  | .error t => .error t
  | .ok (.bank cl off) => .ok (.bank cl off)
  | .ok (.global va) => .ok (.mem va)
  | .ok _ => .error .windowFault

/-- A trap that a memory form found, with its address. -/
abbrev VBad := Trap × Word

/-- The places of the pieces before the first that fails its check, and its trap, with its address (R158). -/
def State.vChecks (s : State) (sid : Nat) : List VPiece → List (VPiece × VPlace) × Option VBad
  | [] => ([], none)
  | p :: l =>
    match s.vCheck sid p with
    | .error t => ([], some (t, p.addr))
    | .ok q => let r := s.vChecks sid l; ((p, q) :: r.1, r.2)

/-- The alignment a whole-register form asks of its base (R158). DESIGN CHOICE (log 17): a misaligned base traps with TVAL = B whichever lanes are
active, so long as one is. -/
def baseMisaligned (t : TypeCode) (v : VMem) : Option Word :=
  match v with
  | .whole b => if b.toNat % (if tWidth t < 8 then 16 else elemBytes (tWidth t)) ≠ 0 then some b else none
  | _ => none

/-- A memory form's places, up to the first that fails a check other than its translation, and that trap: translations of lower lanes may fail before
it (R158). -/
def State.vPlan (s : State) (sid : Nat) (t : TypeCode) (m : Mask) (v : VMem) : List (VPiece × VPlace) × Option VBad :=
  let ps := vPieces t m v
  match if ps.isEmpty then none else baseMisaligned t v with
  | some b => ([], some (.misaligned, b))
  | none => s.vChecks sid ps

/-- The 64-byte lines of global memory that pieces touch, in order. -/
def globalLines (ps : List (VPiece × VPlace)) : List Nat :=
  (ps.filterMap fun p => match p.2 with
    | .mem va => some (va / 64)
    | .bank _ _ => none).eraseDups

/-- The pieces of the scratchpad. -/
def bankPieces (ps : List (VPiece × VPlace)) : List (VPiece × VPlace) := ps.filter fun p => match p.2 with
  | .bank _ _ => true
  | .mem _ => false

/-- The bits of pieces read from the scratchpad, in their places in the image. -/
def State.vGet (s : State) (ps : List (VPiece × VPlace)) : Nat :=
  ps.foldl (fun acc p => match p.2 with
    | .bank cl off => acc ||| ((s.spadRead cl off p.1.size &&& p.1.bits) <<< p.1.pos)
    | .mem _ => acc) 0

/-- The bits of pieces of global memory, from lines as they were read: virtual line, data. -/
def lineGet (ls : List (Nat × Nat)) (ps : List (VPiece × VPlace)) : Nat :=
  ps.foldl (fun acc p => match p.2 with
    | .mem va => acc ||| (((((ls.find? fun l => l.1 == va / 64).map Prod.snd).getD 0) >>> (8 * (va % 64)) &&& p.1.bits) <<< p.1.pos)
    | .bank _ _ => acc) 0

/-- The bits of the image that pieces cover. -/
def pieceBits (ps : List (VPiece × VPlace)) : Nat := ps.foldl (fun acc p => acc ||| (p.1.bits <<< p.1.pos)) 0

/-- The image a load gives: the bits it read, the others from the destination (R137, R158). -/
def vMerge (old : VReg) (ps : List (VPiece × VPlace)) (got : Nat) : VReg := BitVec.ofNat 4096 ((old.toNat - (old.toNat &&& pieceBits ps)) + got)

/-- A global line of a vector store being gathered: line, data, bits. -/
abbrev VLine := Nat × Nat × Nat

/-- A piece added to the lines of a store (R159): later lanes win (R160). -/
def addPiece (ls : List VLine) (va data bits size : Nat) : List VLine :=
  let line := va / 64
  let sh := 8 * (va % 64)
  let m := (bits % 2 ^ (8 * size)) <<< sh
  let v := (data <<< sh) &&& m
  if ls.any fun l => l.1 == line then ls.map fun l => if l.1 = line then (l.1, (l.2.1 - (l.2.1 &&& m)) ||| v, l.2.2 ||| m) else l
  else ls ++ [(line, v, m)]

/-- The byte enables of a bit mask over 64 bytes. -/
def maskBytes (m : Nat) : Nat := (List.range 64).foldr (fun i acc => (if m / 2 ^ (8 * i) % 256 = 0 then 0 else 1) + 2 * acc) 0

/-- The global lines a store touches, in order (R159). -/
def vLines (src : VReg) (ps : List (VPiece × VPlace)) : List VLine :=
  ps.foldl (fun ls p => match p.2 with
    | .mem va => addPiece ls va (src.toNat / 2 ^ p.1.pos) p.1.bits p.1.size
    | _ => ls) []

/-- The scratchpad pieces of a store written, in lane order; sub-byte elements by read-modify-write (R158). -/
def State.vStoreBank (s : State) (src : VReg) (ps : List (VPiece × VPlace)) : State :=
  ps.foldl (fun s p => match p.2 with
    | .bank cl off =>
      let old := s.spadRead cl off p.1.size
      s.spadWrite cl off p.1.size ((old - (old &&& p.1.bits)) ||| (src.toNat / 2 ^ p.1.pos &&& p.1.bits))
    | _ => s) s

/-- A request of a vector instruction of a slot. -/
def State.vecRequest (s : State) (e : SeqEntry) (kind : ReqKind) (stage : ReqStage) (line data be bits : Nat) : State :=
  let c := s.ctx e.sid
  { s with
    reqs := s.reqs ++ [{
      id := s.nextId, sid := e.sid, kind := kind, stage := stage, va := 64 * line, size := 64, pa := 0, data := data,
      be := be, expect := bits, pc := e.pc, made := s.now, serial := e.serial, pid := c.pid, part := c.part, mode := c.mode,
      handler := c.fault.valid && !c.fault.pending && c.mode, stranded := false, taints := c.taints, src := e.sid, lid := c.launchId.toNat }]
    nextId := s.nextId + 1 }

/-- A global vector line put into the restante buffer (R159). -/
def State.holdLine (s : State) (e : SeqEntry) (l : VLine) : State := s.vecRequest e .vstore .held l.1 l.2.1 (maskBytes l.2.2) l.2.2

/-- The translations of the global lines of a vector form asked for (R158). -/
def State.askLines (s : State) (e : SeqEntry) (store : Bool) (ps : List (VPiece × VPlace)) : State :=
  (globalLines ps).foldl (fun s l => s.vecRequest e (.vload store) .translating l 0 0 0) s

/-- The scratchpad lines a store still has to copy to undo memory do not fit (R158, R358). -/
def State.vUndoFull (s : State) (ps : List (VPiece × VPlace)) : Bool :=
  ps.any fun p => match p.2 with
    | .bank cl _ =>
      let need := (ps.flatMap fun q => match q.2 with
        | .bank cl' off => if cl' = cl then undoNeeds (s.clu cl) s.now off q.1.size else []
        | _ => []).eraseDups
      decide (Config.undoEntries < (s.clu cl).undo.length + need.length)
    | _ => false

/-- A memory form's kind, type, mask and addressing; `b` is the vs2 image of a gather or scatter. -/
def vmemOf (i : Instr) (c : Ctx) (xa xb : Word) (b : VReg) : Option (Bool × TypeCode × Mask × VMem) :=
  match i with
  | .vld _ _ t k => some (false, t, c.mask k, .whole xa)
  | .vst _ _ t k => some (true, t, c.mask k, .whole xa)
  | .vlds _ _ _ t k => some (false, t, c.mask k, .strided xa xb)
  | .vsts _ _ _ t k => some (true, t, c.mask k, .strided xa xb)
  | .vgthr _ _ _ t k => some (false, t, c.mask k, .indexed xa b)
  | .vsctr _ _ _ t k => some (true, t, c.mask k, .indexed xa b)
  | _ => none

/-- The register a memory form stores. -/
def vstoreReg (i : Instr) : BitVec 4 :=
  match i with
  | .vst d _ _ _ => d
  | .vsts d _ _ _ _ => d
  | .vsctr d _ _ _ _ => d
  | _ => 0
/-- The destination a memory form loads. -/
def vloadDst (i : Instr) : VDst :=
  match i with
  | .vld d _ _ _ => d
  | .vlds d _ _ _ _ => d
  | .vgthr d _ _ _ _ => d
  | _ => .v 0

/-- Whether a memory form must wait for a port instruction of its context (R185). -/
def State.vecPortWaitsOf (s : State) (sid serial : Nat) (ps : List (VPiece × VPlace)) : Bool :=
  ps.any fun p => match p.2 with
    | .bank cl off => s.portOverlap sid serial cl off p.1.size
    | .mem _ => false

/-! Issue (R139). -/

/-- Whether the contents of a mask register are still to come from an earlier instruction (R158). -/
def State.maskPending (s : State) (sid : Nat) (k : BitVec 3) : Bool :=
  k != 0 && (((s.core (slotCore sid)).seq.any fun e => e.sid == sid && match vShape e.i with
    | some h => h.dk == some k
    | none => false) || (s.ctx sid).vlate.any fun v => v.1 == 16 + k.toNat && decide (s.now < v.2))

/-- Entries a core's sequencer holds at most, reached (R139). -/
def State.seqIsFull (s : State) : Bool := decide (Config.seqEntries ≤ s.myCore.seq.length)

/-- What a vector instruction waits for at issue, in the order of R65: awaited scalar operands; channel entries of its scalar fields (a channel
that cannot be so used traps, R142); then the frame that replays and the sequencer's room (R139, R166), and for a memory form an acquire (R119)
and its mask (R158). None where nothing keeps it. -/
def State.vecStop (s : State) (i : Instr) (h : VShape) : Option Res :=
  match s.me.awaitsFor h.xregs h.xouts with
  | some k => some (.wait k)
  | none =>
    match s.vecFault s.cur i h with
    | some t => some (.trap t (wordOf i))
    | none =>
      if (s.readXs s.cur h).isNone then some (.wait .chanEmpty)
      else (firstCause [s.othersIn (s.seqVChans s.cur) h.xchans h.xouts, if s.me.replay.isSome || s.seqIsFull then some .seqFull else none,
        if isVMem i then s.me.acq else none, if isVMem i && s.maskPending s.cur h.k then some .depend else none]).map Res.wait

/-- The entry a vector instruction becomes in the sequencer. -/
def State.seqEntry (s : State) (i : Instr) (h : VShape) (xa xb : Word) : SeqEntry :=
  let c := s.me
  { sid := s.cur, i := i, pc := c.pc, xa := xa, xb := xb, rm := c.rmode, seed := c.srseed, fms := c.fm.toList, serial := c.serial
    gone := c.meet.any Meeting.gone, space := s.freed s.cur h.xpops
    took := match h.xb with
      | some (.ch n false) => if isVMem i then some ((c.c[(ch5 n).toNat]'(ch5 n).isLt).toNat, xb) else none
      | _ => none }

/-- SRSEED after an instruction (R54, R149): VCVT.sr advances it by L × G. -/
def Ctx.seedAfter (c : Ctx) (i : Instr) : Ctx :=
  match i with
  | .vcvtSr _ _ m t _ => { c with srseed := c.srseed + w64 (cvtLanes t (m.extractLsb' 0 5) * srG) }
  | _ => c

/-- The environment an entry took at its issue (R14). -/
def SeqEntry.env (e : SeqEntry) : VEnv := ⟨RMode.ofBits e.rm, e.fms.map BitVec.toNat⟩

/-- An instruction placed in the sequencer. KPOPC's register is awaited (R141), and the place of a channel write in program order is kept (R94). -/
def State.enqueueV (s : State) (e : SeqEntry) (h : VShape) : State :=
  let s1 := (s.modCore (slotCore s.cur) fun k => { k with seq := k.seq ++ [e] }).upd fun c =>
    { c.seedAfter e.i with busy := c.busy ++ h.xouts.map fun r => (r, Cause.depend) }
  h.outs.foldl (fun s n => s.writeChan s.cur e.serial 0 n none) s1

/-- An arithmetic or mask form issues: it is placed in the sequencer (R139). -/
def State.vecIssue (s : State) (i : Instr) : Res :=
  match vShape i with
  | none => .trap .illegalInstruction (wordOf i)
  | some h =>
    match s.vecStop i h with
    | some r => r
    | none =>
      match s.readXs s.cur h with
      | none => .wait .chanEmpty
      | some (xa, xb, tx) => .ok (((s.popAll s.cur tx).enqueueV (s.seqEntry i h xa xb) h).adv)

/-- Whether translations of the places before a failed check are to return before it traps: those of a load or scatter may fault, and then trap
first (R158); a store's translation fault is reported at release (R142). -/
def badWaits (i : Instr) (ps : List (VPiece × VPlace)) : Bool :=
  !(globalLines ps).isEmpty && match i with
    | .vst _ _ _ _ => false
    | .vsts _ _ _ _ _ => false
    | _ => true

/-- A memory form issues. The integer pipeline makes the checks of the whole and strided forms, and asks for their global translations; gather and
scatter are checked by the sequencer before the pipeline goes on (R158). -/
def State.vmemIssue (s : State) (i : Instr) : Res :=
  match vShape i with
  | none => .trap .illegalInstruction (wordOf i)
  | some h =>
    match s.vecStop i h with
    | some r => r
    | none =>
      match s.readXs s.cur h with
      | none => .wait .chanEmpty
      | some (xa, xb, tx) =>
        let e := s.seqEntry i h xa xb
        match if h.b.isSome then none else vmemOf i s.me xa xb 0 with
        | none => .ok (((s.popAll s.cur tx).enqueueV e h).adv)
        | some (store, t, m, v) =>
          let p := s.vPlan s.cur t m v
          match if badWaits i p.1 then none else p.2 with
          | some (tr, a) => .trap tr a
          | none =>
            if s.vecPortWaitsOf s.cur s.me.serial p.1 then .wait .matrixWait
            else .ok ((((s.popAll s.cur tx).enqueueV { e with plan := some p.1, bad := p.2 } h).askLines e store p.1).adv)

/-! The sequencer (R139, R140, R158). -/

/-- A core's sequencer without its head. -/
def State.dropHead (s : State) (ci : Nat) : State := s.modCore ci fun k => { k with seq := k.seq.drop 1 }

/-- The head of a core's sequencer changed. -/
def State.modHead (s : State) (ci : Nat) (f : SeqEntry → SeqEntry) : State :=
  s.modCore ci fun k => { k with seq := match k.seq with
    | e :: l => f e :: l
    | [] => [] }

/-- Whether an instruction uses a lane group (R140): the mask forms, KPOPC and PEERV use none. -/
def usesLanes : Instr → Bool
  | .kand _ _ _ => false
  | .kor _ _ _ => false
  | .knot _ _ => false
  | .kpopc _ _ => false
  | .peerv _ _ => false
  | .repf _ _ _ => false
  | i => !isVMem i

/-- The latency after the four beats (Table 08-2). -/
def vecD (i : Instr) (t : TypeCode) : Nat :=
  match i with
  | .vadd _ _ _ _ _ => if tIsInt t then 1 else 4
  | .vaddSat _ _ _ _ _ => if tIsInt t then 1 else 4
  | .vsub _ _ _ _ _ => if tIsInt t then 1 else 4
  | .vsubSat _ _ _ _ _ => if tIsInt t then 1 else 4
  | .vmul _ _ _ _ _ => 4
  | .vmulSat _ _ _ _ _ => 4
  | .vmulh _ _ _ _ _ => 4
  | .vfma _ _ _ _ _ => 4
  | .vfms _ _ _ _ _ => 4
  | .vdot _ _ _ _ _ => 4
  | .vcvt _ _ _ _ _ => 4
  | .vcvtSr _ _ _ _ _ => 4
  | .vqnt _ _ _ _ _ => 4
  | .vdqnt _ _ _ _ _ => 4
  | .vperm _ _ _ _ _ => 3
  | .vslide _ _ _ _ _ => 3
  | .vzip _ _ _ _ _ => 3
  | .vunzip _ _ _ _ _ => 3
  | .vplane _ _ _ _ _ _ _ => 3
  | .vred _ _ _ _ _ => 8
  | .vrcp _ _ _ _ => 10
  | .vrsq _ _ _ _ => 10
  | .vex2 _ _ _ _ => 10
  | .vlg2 _ _ _ _ => 10
  | .vsin _ _ _ _ => 10
  | .vtanh _ _ _ _ => 10
  | _ => 1

/-- The cycles from the binding of an instruction to the use of its result (R140, R141, Table 08-2). -/
def vecLatency (i : Instr) (h : VShape) : Nat :=
  if usesLanes i then 4 + vecD i h.t
  else match i with
    | .kpopc _ _ => 2
    | _ => 1

/-- A vector instruction of a context performed at its binding, with its source images, the channel entries `taken` for them, and what it read of its
environment (R138, R140). The space of its entries is free once it retires (R94). -/
def State.vecPerform (s : State) (e : SeqEntry) (h : VShape) (env : VEnv) (seed : Nat) (a b : VReg) (taken : List Target) : State :=
  let c := s.ctx e.sid
  let at_ := s.now + vecLatency e.i h
  let ds := e.space ++ s.freed e.sid h.vpops
  ((s.popAllV e.sid taken).applyV e.sid e.serial at_ e.frame (vecEffect c env seed e.i a b e.xa e.xb)).modCtx e.sid fun c => c.freesAt ds at_

end Sys2Proof.Machine
end

