-- ==== Sys2Proof/Machine/Fetch.lean ====
section
/-!
DEFINITION. Fetching words through the instruction cache (R20, R75, R110), and capturing repeat frames (R164, R167, R168).
-/

namespace Sys2Proof.Machine

/-- The set an address selects: PC[11:6] (R110). -/
def icSet (va : Nat) : Nat := va / 64 % 64

/-- The cached line of an address for a PID. -/
def findLine (l : List ILine) (va : Nat) (pid : BitVec 16) : Option ILine :=
  l.find? fun x => x.va == va / 64 * 64 && x.pid == pid

/-- A line made the most recently used. -/
def touchLine (l : List ILine) (x : ILine) : List ILine := x :: l.filter fun y => !(y.va == x.va && y.pid == x.pid)

/-- A line installed in its set of four: a free way, or the least recently used line's (R110). -/
def installLine (l : List ILine) (x : ILine) : List ILine :=
  let rest := l.filter fun y => !(y.va == x.va && y.pid == x.pid)
  let same := rest.filter fun y => icSet y.va == icSet x.va
  match same.getLast? with
  | some old => if 4 ≤ same.length then x :: rest.filter fun y => !(y.va == old.va && y.pid == old.pid) else x :: rest
  | none => x :: rest

/-- The word at an address in a line, little-endian (R75). -/
def ILine.word (x : ILine) (va : Nat) : IWord := BitVec.ofNat 32 (x.data.toNat / 2 ^ (8 * (va % 64)))

/-- The word a context fetches, if its line is cached. -/
def State.fetch (s : State) (sid : Nat) : Option IWord :=
  let c := s.ctx sid
  (findLine (s.core (slotCore sid)).icache c.pc.toNat c.pid).map fun x => x.word c.pc.toNat

/-- The line a context fetched from, made the most recently used. -/
def State.touch (s : State) (sid : Nat) : State :=
  let c := s.ctx sid
  match findLine (s.core (slotCore sid)).icache c.pc.toNat c.pid with
  | some x => s.modCore (slotCore sid) fun k => { k with icache := touchLine k.icache x }
  | none => s

/-- Whether a PC lies outside the global window (R20). -/
def badPc (pc : BitVec 56) : Bool := decide (0xF0 ≤ bitsOf pc.toNat 55 48)

/-! Capture. -/

/-- Whether an instruction may stand in a frame: majors 0x20 to 0x35 (R164). -/
def inFrame (w : IWord) : Bool := decide (0x20 ≤ bitsOf w.toNat 31 26 ∧ bitsOf w.toNat 31 26 ≤ 0x35)

/-- What capturing a word answers. -/
inductive CapCheck where
  | ok
  | trap (t : Trap)
  deriving DecidableEq, Repr

/-- The checks of a word being captured: encoding, frame legality, formats and channels (R142, R164). -/
def State.capCheck (s : State) (sid : Nat) (w : IWord) : CapCheck :=
  match decode w with
  | none => .trap .illegalInstruction
  | some i =>
    if !inFrame w then .trap .frameIllegal
    else match vShape i with
      | none => .trap .frameIllegal
      | some h => match s.vecFault sid i h with
        | some t => .trap t
        | none => .ok

/-- The scalar registers the replay of a frame must find unchanged: those of the REPF, and the X-kind fields of its words (R166). -/
def guardedRegs (n st : XSrc) (ws : List IWord) : List Nat :=
  let xs (x : XSrc) : List Nat := match x with
    | .x r => [r.toNat]
    | .ch _ _ => []
  xs n ++ xs st ++ ws.flatMap fun w => match decode w with
    | some i => match vShape i with
      | some h => h.xa.toList.flatMap xs ++ h.xb.toList.flatMap xs
      | none => []
    | none => []

/-- Whether a field is a channel. -/
def isChan : XSrc → Bool
  | .x _ => false
  | .ch _ _ => true

/-- A capture that holds all its words completes: N and the staggers are read, and the frame takes its place in the sequencer, where it replays
(R164, R165, R167). It waits for an awaited register, a channel that an earlier vector instruction is to take from, or a channel entry (R79). -/
def State.capComplete (s : State) (sid : Nat) (f : Capture) : State :=
  let c := s.ctx sid
  let h : VShape := { xa := some f.n, xb := some f.stag }
  match c.awaits h.xregs with
  | some k => s.modCtx sid fun c => { c with charge := k }
  | none =>
  if h.xchans.any fun n => (s.seqVChans sid).contains n then s.modCtx sid fun c => { c with charge := .depend }
  else if decide (Config.seqEntries ≤ (s.core (slotCore sid)).seq.length) then s.modCtx sid fun c => { c with charge := .seqFull }
  else match s.readXs sid h with
  | none => s.modCtx sid fun c => { c with charge := .chanEmpty }
  | some (n, st, taken) =>
    let count := n.toNat % 2 ^ 32
    let start := f.resume.getD (0, 0)
    let r : Replay := { words := f.words, n := count, stag := st.toNat % 2 ^ 12, iter := start.1, idx := start.2,
                        fromChannel := isChan f.n || isChan f.stag, guarded := guardedRegs f.n f.stag f.words }
    let npc := match f.jump with
      | some (k, pc) => if k = f.len then pc else c.pc
      | none => c.pc
    let s1 := (s.popAll sid taken).modCtx sid fun c =>
      { c with cap := none, replay := if start.1 < count then some r else none, pc := npc }
    if start.1 < count then
      s1.modCore (slotCore sid) fun k => { k with seq := k.seq ++ [{
        sid := sid, i := .repf 0 f.n f.stag, pc := c.framepc, xa := n, xb := st, rm := c.rmode, seed := c.srseed, fms := c.fm.toList
        serial := c.serial - 1, frame := true }] }
    else s1

/-- The next word of a capture taken, if its line is cached (R164). A word that fails its checks traps. -/
def State.capWord (s : State) (sid : Nat) (f : Capture) : State :=
  match s.fetch sid with
  | none => s
  | some w =>
    match s.capCheck sid w with
    | .trap t => s.trapHead sid t (w.zeroExtend 64) (s.ctx sid).pc
    | .ok => (s.touch sid).modCtx sid fun c => { c with pc := c.pc + 4, cap := some { f with words := f.words ++ [w] } }

/-- One step of a capture: completion, the jump of a recapture, or a word. -/
def State.capStep (s : State) (sid : Nat) : State :=
  match (s.ctx sid).cap with
  | none => s
  | some f =>
    if f.words.length = f.len then s.capComplete sid f
    else match f.jump with
      | some (k, pc) =>
        if k = f.words.length then s.modCtx sid fun c => { c with pc := pc, cap := some { f with jump := none } }
        else s.capWord sid f
      | none => s.capWord sid f

/-- Whether the next word of a capture is there and fails its checks: its trap takes a cycle of its own (R91, R164). -/
def State.capBad (s : State) (sid : Nat) : Bool :=
  match (s.ctx sid).cap, s.fetch sid with
  | some f, some w => decide (f.words.length ≠ f.len) && (f.jump.all fun j => j.1 != f.words.length) && s.capCheck sid w != .ok
  | _, _ => false

/-- Steps of a capture, at most `n`: it goes on while the lines it needs are cached, and up to a word that fails (R164). DESIGN CHOICE (log 20): words
that are cached take no cycle. -/
def State.capRun (s : State) (sid : Nat) : Nat → State
  | 0 => s
  | n + 1 => if s.capBad sid then s else (s.capStep sid).capRun sid n

end Sys2Proof.Machine
end

