-- ==== Sys2Proof/Machine/System.lean ====
section
/-!
DEFINITION. CSRs, system calls and returns, SLEEP, BRK, CHBIND and ACCT (R11 to R15, R228, R233 to R237).
-/

namespace Sys2Proof.Machine

/-! CSR values (Tables 01-3 to 01-6). -/

/-- A bit as a number. -/
def bitNat (b : Bool) (n : Nat) : Nat := if b then 2 ^ n else 0

/-- STATUS as software reads it (Table 01-4). -/
def Ctx.statusWord (c : Ctx) (sid : Nat) : Word :=
  w64 (slotCode sid * 2 ^ 14 + bitNat c.pui 11 + bitNat c.pmode 10 + bitNat c.ui 6 + bitNat c.msaved 5 + bitNat c.tainted 4 +
    bitNat c.inmeet 3 + bitNat c.mode 0)

/-- Whether a context is the matrix owner of its core (R7). -/
def State.isOwner (s : State) (sid : Nat) : Bool := (s.core (slotCore sid)).owner == some sid

/-- A CSR's value; none for an unassigned number (R11, R12). CYCLE counts the cycle in which it is read (R15). -/
def State.csrRead (s : State) (sid : Nat) (n : Nat) : Option Word :=
  let c := s.ctx sid
  match n with
  | 0x0001 => some (c.fflags.zeroExtend 64)
  | 0x0002 => some (c.rmode.zeroExtend 64)
  | 0x0003 => some c.srseed
  | 0x0010 => some c.meetto
  | 0x0011 => some (c.rollq.zeroExtend 64)
  | 0x0020 => some c.uepc
  | 0x0021 => some (w64 (bitNat c.uieEn 0 + bitNat (!c.uints.isEmpty) 1))
  | 0x0022 => some (c.xid.zeroExtend 64)
  | 0x0800 => some (c.taskc[0].zeroExtend 64)
  | 0x0801 => some (c.taskc[1].zeroExtend 64)
  | 0x0802 => some (c.taskc[2].zeroExtend 64)
  | 0x0803 => some (c.gang.zeroExtend 64)
  | 0x0804 => some (w64 (c.queue.toNat * 2 ^ 32 + c.launchId.toNat))
  | 0x0805 => some (c.pid.zeroExtend 64)
  | 0x0806 => some (w64 c.part)
  | 0x0807 => some (w64 (s.logicalCore c.part (slotCore sid)))
  | 0x0808 => some (w64 (corePhysical (slotCore sid)))
  | 0x0809 => some ((c.cycle + 1).zeroExtend 64)
  | 0x080A => some (if isVisitor sid then 0 else c.privBase.zeroExtend 64)
  | 0x080B => some (if isVisitor sid then 0 else c.privSize.zeroExtend 64)
  | 0x1000 => some (c.statusWord sid)
  | 0x1001 => some c.cause
  | 0x1002 => some (pcWord c.epc)
  | 0x1003 => some c.tval
  | 0x1004 => some (pcWord c.tvec)
  | 0x1005 => some c.frame
  | 0x1006 => some (pcWord c.framepc)
  | 0x1007 => some (if s.isOwner sid then (s.core (slotCore sid)).mprog else 0)
  | 0x1008 => some (pcWord c.acctbase)
  | 0x1009 => some (c.acctctl.zeroExtend 64)
  | _ => none

/-- An address field [55:2]. -/
def pcField (v : Word) : BitVec 56 := v.extractLsb' 0 56 &&& ~~~3

/-- A writable CSR written: read-only and reserved fields keep their values (R11, R233). -/
def State.csrWrite (s : State) (sid : Nat) (n : Nat) (v : Word) : State :=
  let m (f : Ctx → Ctx) : State := s.modCtx sid f
  match n with
  | 0x0001 => m fun c => { c with fflags := v.extractLsb' 0 5 }
  | 0x0002 => m fun c => { c with rmode := v.extractLsb' 0 2 }
  | 0x0003 => m fun c => { c with srseed := v }
  | 0x0010 => m fun c => { c with meetto := v }
  | 0x0011 => m fun c => { c with rollq := v.extractLsb' 0 11 }
  | 0x0020 => m fun c => { c with uepc := v }
  | 0x0021 => m fun c => { c with uieEn := v.getLsbD 0 }
  | 0x0022 => m fun c => { c with xid := v.extractLsb' 0 32 }
  | 0x1000 => m fun c => { c with pui := v.getLsbD 11, pmode := v.getLsbD 10, mode := v.getLsbD 0 }
  | 0x1001 => m fun c => { c with cause := v &&& 0x800000000000FFFF }
  | 0x1002 => m fun c => { c with epc := pcField v }
  | 0x1003 => m fun c => { c with tval := v }
  | 0x1004 => m fun c => { c with tvec := pcField v }
  | 0x1005 => m fun c => { c with frame := v &&& 0xFFFFFFFF0000DFFF }
  | 0x1006 => m fun c => { c with framepc := pcField v }
  | 0x1007 => if s.isOwner sid then s.modCore (slotCore sid) fun k => { k with mprog := v &&& 0x9F000000FFFFFFFF } else s
  | 0x1008 => m fun c => { c with acctbase := v.extractLsb' 0 56 &&& ~~~0xFFF }
  | 0x1009 => m fun c =>
    let a := v.extractLsb' 0 32 &&& 0xFFFF1F01
    { c with acctctl := a, ridxDue := c.ridxDue || (a.getLsbD 0 && !c.acctctl.getLsbD 0) }
  | _ => s

/-- Whether a CSR access is illegal (R11): an unassigned number, a supervisor number in user mode, a write of a read-only number. -/
def State.csrIllegal (s : State) (n : Nat) (write : Bool) : Bool :=
  (s.csrRead s.cur n).isNone || (decide (n / 2048 = 2) && !s.me.mode) || (decide (n / 2048 = 1) && write)

/-- Whether a CSR is ordered with the vector instructions still to complete (R14): FFLAGS behind all of them, RMODE and SRSEED behind a
replaying frame, whose performances read them as they bind. -/
def State.csrWaits (s : State) (n : Nat) : Bool :=
  (decide (n = 1) && s.vecPending s.cur) || (decide (n = 1 ∨ n = 2 ∨ n = 3) && s.me.replay.isSome)

/-- Whether MPROG is still to be loaded by an MRSTR of the context in the port; DEDUCED (log 6). -/
def State.mprogWaits (s : State) (n : Nat) : Bool :=
  decide (n = 0x1007) && s.myCore.port.any fun p => p.sid == s.cur && match p.i with
    | .mrstr _ => true
    | _ => false

/-- A CSR form: `f` gives the new value from the old one, none where it writes nothing (R233). -/
def State.csrForm (s : State) (i : Instr) (d a : BitVec 5) (n : BitVec 13) (write : Bool) (f : Word → Word) : Res :=
  if s.csrIllegal n.toNat write then .trap .illegalInstruction (wordOf i)
  else s.regs [a] [d] (
    if s.csrWaits n.toNat then .wait .depend
    else if s.mprogWaits n.toNat then .wait .matrixWait
    else
      let old := (s.csrRead s.cur n.toNat).getD 0
      .ok (((if write then s.csrWrite s.cur n.toNat (f old) else s).upd fun c => c.wx d old).adv))

/-- CSRR (R233). -/
def execCsrr (d : BitVec 5) (c : BitVec 13) (s : State) : Out := finish s (s.csrForm (.csrr d c) d 0 c false id)
/-- CSRW (R233). -/
def execCsrw (d a : BitVec 5) (c : BitVec 13) (s : State) : Out :=
  finish s (s.csrForm (.csrw d a c) d a c true fun _ => s.me.rx a)
/-- CSRS: with rs1 = 0 it writes nothing (R233). -/
def execCsrs (d a : BitVec 5) (c : BitVec 13) (s : State) : Out :=
  finish s (s.csrForm (.csrs d a c) d a c (a != 0) fun o => o ||| s.me.rx a)
/-- CSRC: with rs1 = 0 it writes nothing (R233). -/
def execCsrc (d a : BitVec 5) (c : BitVec 13) (s : State) : Out :=
  finish s (s.csrForm (.csrc d a c) d a c (a != 0) fun o => o &&& ~~~(s.me.rx a))

/-! System forms (R234 to R236). -/

/-- SCALL: EPC names the next instruction (R234). -/
def execScall (i : BitVec 20) (s : State) : Out := .next (s.trap .syscall (i.zeroExtend 64) s.me.next)

/-- Whether halting at BRK is enabled for the running context's partition: a bit of DBGHALT, with its feature in force (R234, R389). -/
def State.debugHalt (s : State) : Bool := s.feature 4 && s.boot.dbghalt.toNat.testBit s.me.part

/-- BRK: halts where halting is enabled for the partition, else traps (R234). -/
def execBrk (i : BitVec 20) (s : State) : Out :=
  finish s (if s.debugHalt then .ok (s.adv.upd fun c => { c with act := .halted })
    else .trap .breakpoint (i.zeroExtend 64))

/-- The word before the captured frame, through the instruction cache or by the fill it would make (R168). -/
def State.wordBefore (s : State) : Except Trap IWord :=
  let c := s.me
  let va := c.framepc.toNat - 4
  match findLine s.myCore.icache va c.pid with
  | some x => .ok (x.word va)
  | none =>
    match s.translate (slotCluster s.cur) c.part c.pid c.mode .fetch va with
    | .error t => .error t
    | .ok pa => .ok (BitVec.ofNat 32 (s.physRead pa 4))

/-- The capture a TRET with FRAME.V = 1 starts (R167, R168). -/
def Ctx.recapture (c : Ctx) (n st : XSrc) : Capture :=
  let f := c.frame.toNat
  let len := bitsOf f 7 4 + 1
  let cap := f.testBit 14
  { len := len, words := [], n := n, stag := st
    jump := some (if cap then bitsOf f 12 8 else len, c.epc)
    resume := if cap then none else some (bitsOf f 63 32, bitsOf f 3 0) }

/-- A context back in the mode it trapped from: STATUS is restored, FRAME.V and the fault record's V are cleared (R235, R325). A record whose
deferred trap has not been taken yet stands: the handler that returns is another's. -/
def Ctx.trapLeave (c : Ctx) : Ctx :=
  { c with mode := c.pmode, ui := c.pui, frame := c.frame &&& ~~~(0x8000#64), fault := { c.fault with valid := c.fault.valid && c.fault.pending } }

/-- The stranded entries of a context resume behind every entry its handler made (R118, R325, R326). -/
def State.unstrand (s : State) (sid : Nat) : State :=
  if (s.ctx sid).fault.pending then s else
  let hit (r : Req) : Bool := r.sid == sid && r.stranded
  { s with reqs := (s.reqs.filter fun r => !hit r) ++ ((s.reqs.filter hit).map fun r => { r with stranded := false }) }

/-- TRET (R235): refused in user mode and after MSAVE without MRSTR; a frame recorded in FRAME is captured again first. DESIGN CHOICE (log 13): R168 does
not say what happens where the word at FRAMEPC - 4 cannot be fetched; the TRET traps with that fetch's fault, with TVAL = FRAMEPC - 4. -/
def State.tretForm (s : State) : Res :=
  let c := s.me
  if !c.mode then .trap .illegalInstruction (wordOf .tret)
  else if c.msaved then .trap .matrixInHandler (wordOf .tret)
  else
    let back := (s.unstrand s.cur).upd Ctx.trapLeave
    if !c.frame.getLsbD 15 then .ok (back.upd fun c => { c with pc := c.epc })
    else
      match s.wordBefore with
      | .error t => .trap t (pcWord (c.framepc - 4))
      | .ok w => match decode w with
        | some (.repf _ n st) => .ok (back.upd fun d => { d with pc := c.framepc, cap := some (c.recapture n st) })
        | _ => .trap .frameIllegal (w.zeroExtend 64)

/-- TRET (R235), with its three REDIRECT cycles (R109). An instruction that follows it is the one MPROG may concern (R187). -/
def execTret (s : State) : Out :=
  match s.tretForm with
  | .ok s' => .next ((s'.issued false).upd fun c => { c with mret := true, pause := some (.redirect, s.now + 4) })
  | r => finish s r

/-- UIRET (R235), with its three REDIRECT cycles (R109). -/
def execUiret (s : State) : Out :=
  let c := s.me
  if c.mode || !c.ui then finish s (.trap .illegalInstruction (wordOf .uiret))
  else .next (((s.upd fun c => { c with pc := pcField c.uepc, ui := false, pause := some (.redirect, s.now + 4) }).issued false).upd fun d =>
    { d with mret := c.uret, uret := false })

/-- Whether a SLEEP of a slot's context has what it waits for: an inbox entry, or a user-level interrupt that can be taken (R236). -/
def State.sleepOver (s : State) (sid : Nat) : Bool :=
  ((s.core (slotCore sid)).inbox.any fun e => e.tag == slotTag sid) || (s.ctx sid).uintReady

/-- Whether a context is asleep in SLEEP. -/
def Ctx.asleep (c : Ctx) : Bool :=
  match c.act with
  | .sleeping _ => true
  | _ => false

/-- SLEEP: it issues at once where an inbox entry is there or a user-level interrupt can be taken; else it sleeps, and issues once there is
(R236). -/
def execSleep (i : BitVec 20) (s : State) : Out :=
  finish s (
    if isVisitor s.cur then .trap .visitorFault (wordOf (.sleep i))
    else if s.sleepOver s.cur || s.me.act == .slept then .ok (s.adv.upd fun c => { c with act := .running })
    else if s.me.asleep then .wait .sleep
    else .hold (s.upd fun c => { c with act := .sleeping (if i = 0 then none else some (s.now + 64 * i.toNat)) }) .sleep)

/-! CHBIND and ACCT. -/

/-- Whether a binding descriptor is one a context may use (R228, Table 11-4). -/
def Ctx.bindOk (c : Ctx) (v : Word) : Bool :=
  let k := bitsOf v.toNat 3 0
  let ix := bitsOf v.toNat 7 4
  decide (v.toNat < 256) &&
  (match k with
   | 0 => decide (ix = 0)
   | 1 => decide (ix < 8)
   | 2 => decide (ix = 0)
   | 3 => decide (ix < 4)
   | 4 => decide (ix < 4)
   | 5 => decide (ix = 0) && c.win.isSome
   | _ => false)

/-- CHBIND (R228). -/
def execChbind (n a : BitVec 5) (s : State) : Out :=
  let i : Instr := .chbind n a
  finish s (
    if isVisitor s.cur then .trap .visitorFault (wordOf i)
    else match s.holds [a.toNat] [n] [] with
      | some k => .wait k
      | none =>
        let v := s.me.rx a
        if !s.me.bindOk v then .trap .channelFault (wordOf i)
        else .ok (s.adv.upd fun c => { c with c := c.c.set n.toNat (v.extractLsb' 0 8) n.isLt }))

/-- A counter as ACCT reads it: 23 and up give 0 (R237). -/
def Ctx.counter (c : Ctx) (n : Nat) : Word := if h : n < 23 then (c.acct[n]'(by omega)).zeroExtend 64 else 0

/-- ACCT (R237): FLUSH closes the open run first. -/
def execAcct (d a : BitVec 5) (s : State) : Out :=
  finish s (s.regs [a] [d] (
    let v := s.me.rx a
    .ok (((if v.getLsbD 8 then s.closeRun s.cur else s).upd fun c => c.wx d (c.counter (v.toNat % 32))).adv)))

end Sys2Proof.Machine
end

