-- ==== Sys2Proof/Machine/Account.lean ====
section
/-!
DEFINITION. Slot accounts: what each cycle is charged to, run records and the account ring (R65 to R74, R321).
-/

namespace Sys2Proof.Machine

/-- Whether a slot holds a context's state (R66). -/
def Ctx.onCore (c : Ctx) : Bool :=
  match c.act with
  | .free => false
  | .placed _ => false
  | .away => false
  | _ => true

/-- The cause of a context that did not step (R65, Table 04-1). -/
def Ctx.restCause (c : Ctx) : Option Cause :=
  if c.heldForSave then some .preempted
  else match c.act with
  | .free => none
  | .placed _ => none
  | .away => none
  | .running => some .slotLost
  | .waitWord _ _ => some .sleep
  | .waitTag _ _ _ _ => some .tileWait
  | .stalled k => some k
  | .sleeping _ => some .sleep
  | .slept => some .slotLost
  | .parked => some (match c.park with
    | some p => if p.roll then .rollWait else .meetWait
    | none => .meetWait)
  | .halted => some .frozen
  | .frozen => some .frozen
  | .saved => some .preempted

/-- The contexts of a core in the order in which R63 prefers them at equal age: a visitor, then the residents from the round-robin pointer on. -/
def State.coreOrder (s : State) (ci : Nat) : List Nat :=
  let b := 10 * (ci / 4)
  let c := ci % 4
  let r := (s.core ci).rr % 2
  (if c < 2 then [b + 8 + c] else []) ++ [b + 2 * c + r, b + 2 * c + (1 - r)]

/-- The context of the greatest age in a list, the first among equals (R63). -/
def State.oldestOf (s : State) : List Nat → Option Nat
  | [] => none
  | a :: l => match s.oldestOf l with
    | none => some a
    | some b => if (s.ctx b).lastIssue < (s.ctx a).lastIssue then some b else some a

/-- The cause that the cycle is charged to in the context view, for the context of a slot; none for a context of a region that restores, whose
cycles R69 charges at the end, and for one on its way. -/
def State.causeOf (s : State) (sid : Nat) : Option Cause :=
  if (s.clu (slotCluster sid)).restore.isSome || !(s.ctx sid).onCore then none else some (s.ctx sid).charge

/-- The slot view of a core (R66): the context that issued in this cycle, or the one of the greatest age with its cause. A core whose context left
with its issue has that cycle in its record already. -/
def State.coreView (s : State) (ci : Nat) : Option (Nat × Cause × BitVec 56) :=
  match s.served.find? fun e => e.1 == ci with
  | some (_, sid, pc) => if (s.ctx sid).onCore then some (sid, .issue, pc) else none
  | none => match (s.core ci).stall with
    | some (sid, p) => some (sid, .acctFull, p)
    | none =>
      (s.oldestOf ((s.coreOrder ci).filter fun sid => match s.causeOf sid with
        | some .slotLost => false
        | some _ => true
        | none => false)).map fun sid => (sid, (s.ctx sid).charge, (s.ctx sid).pc)

/-- At a checkpoint boundary the core reads RIDX of the rings of its contexts with EN = 1, and of those of the records it holds (R73). -/
def State.askRidx (s : State) : State :=
  if s.now % Config.interval = 0 then
    let s1 : State := { s with ctxs := s.ctxs.map fun e => (e.1, { e.2 with ridxDue := e.2.ridxDue || (e.2.onCore && e.2.acctOn) }) }
    s1.acctq.foldl (fun s a => s.modCore a.ci fun k => { k with ridxAsk := true }) s1
  else s

/-- The checkpoints of the cycle that ends get what its slot views name (R74). -/
def State.keepViews (s : State) : State :=
  if s.now % Config.interval ≠ 0 then s
  else { s with clus := s.clus.map fun e => (e.1, { e.2 with ckpts := e.2.ckpts.map fun k =>
    if k.at_ ≠ s.now then k
    else { k with views := (List.range 4).filterMap fun c => (s.coreView (4 * e.1 + c)).map fun v => (4 * e.1 + c, v.1, v.2.2) } }) }

/-- A walk that failed, and whose maker has not come back for a checkpoint interval: nothing is kept of it (R318). -/
def Req.unasked (r : Req) (now : Nat) : Bool := r.kind == .xlat && r.stage == .ready && decide (r.arr + Config.interval < now)

/-- A cycle ends: every live context is charged one cause (R67), each core's slot view goes to its run (R70), the timebase advances, and what is
done for a context in the new cycle is done (R106). -/
def State.tick (s : State) : State :=
  let s1 : State := { s with ctxs := s.ctxs.map fun e => (e.1, match s.causeOf e.1 with
    | some k => e.2.charged k 1
    | none => e.2) }
  let cores := (s.ctxs.map fun e => slotCore e.1).eraseDups
  let s2 := cores.foldl (fun t ci => match s.coreView ci with
    | some (sid, k, p) => t.runCycle sid k p
    | none => t) s1.keepViews
  let reqs := s2.reqs.filter fun r => !r.unasked s2.now
  let owed := s2.owed.filter fun o => o.seen == s2.now
  let s3 : State := { s2.enterRecords with reqs := reqs, now := s2.now + 1, served := [], taken := [], lost := [], owed := owed }
  s3.landAll.askRidx

/-! The ring (R72 to R74). -/

/-- The capacity of a ring of 2^n bytes. -/
def acctCap (log2 : Nat) : Nat := 2 ^ log2 / 16 - 4

/-- The free space, by a copy of RIDX: 0 where software has written a bad one. -/
def acctFree (log2 widx ridx : Nat) : Nat :=
  let used := (widx + 2 ^ 64 - ridx % 2 ^ 64) % 2 ^ 64
  if acctCap log2 < used then 0 else acctCap log2 - used

/-- The physical address of a ring's byte, as a supervisor access. -/
def State.acctPa (s : State) (ci part : Nat) (pid : BitVec 16) (va : Nat) (a : Access) : Except Trap Nat := s.translate (coreCluster ci) part pid true a va

/-- The pages of a ring's bytes asked for at the core's station (R318); none where they are known. -/
def State.acctAsk (s : State) (ci part : Nat) (pid : BitVec 16) (vas : List Nat) : Option State := s.xlatAsk (coreCluster ci) part pid (10 * coreCluster ci + 2 * (ci % 4)) vas
/-- Walks of a ring's pages that have failed are seen. -/
def State.acctSeen (s : State) (ci part : Nat) (pid : BitVec 16) (vas : List Nat) : State := s.xlatDone part pid (10 * coreCluster ci + 2 * (ci % 4)) vas

/-- The copy of RIDX a core has of a ring. -/
def CoreSt.ridxOf (k : CoreSt) (part : Nat) (pid : BitVec 16) (base : Nat) : Nat :=
  ((k.ridxs.find? fun r => r.1 == part && r.2.1 == pid && r.2.2.1 == base).map fun r => r.2.2.2).getD 0

/-- A copy of RIDX taken. -/
def CoreSt.setRidx (k : CoreSt) (part : Nat) (pid : BitVec 16) (base v : Nat) : CoreSt :=
  { k with ridxs := (part, pid, base, v) :: k.ridxs.filter fun r => !(r.1 == part && r.2.1 == pid && r.2.2.1 == base) }

/-- A ring write that faults clears EN in the contexts of the core that use the ring, and is recorded, with no context named (R321, R371, R375). The
core holds its records for that ring until a context there sets EN again (R73); DEDUCED (log 14). -/
def State.acctFault (s : State) (a : AcctRec) : State :=
  let s1 := (coreSlots a.ci).foldl (fun s sid =>
    let c := s.ctx sid
    if c.act != .free && c.pid == a.pid && c.part == a.part && c.acctbase.toNat == a.base then
      s.modCtx sid fun c => { c with acctctl := c.acctctl &&& ~~~1, run := none }
    else s) s
  let s2 : State := { s1 with acctq := s1.acctq.map fun b =>
    if b.ci == a.ci && b.pid == a.pid && b.part == a.part && b.base == a.base then { b with faulted := true } else b }
  s2.recordPart (clusterDie (coreCluster a.ci)) a.part { cls := 2, engine := 0, code := codeAcctRingFault, akind := 1, addr := a.base, time := s.now }

/-- The rings that the live contexts of a core write to: partition, PID, base, log2, threshold. -/
def State.ringsOf (s : State) (ci : Nat) : List (Nat × BitVec 16 × Nat × Nat × Nat) :=
  ((coreSlots ci).filterMap fun sid =>
    let c := s.ctx sid
    if c.onCore && c.acctOn then some (c.part, c.pid, c.acctbase.toNat, bitsOf c.acctctl.toNat 12 8, Nat.max 2 (bitsOf c.acctctl.toNat 31 16)) else none).eraseDups

/-- The context and PC that R66 names on a core where nothing issues: those of the oldest context there (R73, R74). -/
def State.oldestOn (s : State) (ci : Nat) : Option (Nat × BitVec 56) :=
  (s.oldestOf ((s.coreOrder ci).filter fun sid => (s.ctx sid).onCore)).map fun sid => (sid, (s.ctx sid).pc)

/-- The contexts of its core that write a record's ring, with EN = 1 or 0. -/
def State.ringUsers (s : State) (a : AcctRec) : List Nat :=
  (coreSlots a.ci).filter fun sid =>
    let c := s.ctx sid
    c.onCore && c.part == a.part && c.pid == a.pid && c.acctbase.toNat == a.base

/-- Whether a record must wait whatever space its ring has: the core holds it, not the restante buffer (R361), the contexts of its core that write
there have EN = 0 (R72, R73), or its ring has faulted and none there writes to it. -/
def State.recordHeld (s : State) (a : AcctRec) : Bool :=
  let on := (s.ringUsers a).any fun sid => (s.ctx sid).acctOn
  !a.entered || (!on && (a.faulted || !(s.ringUsers a).isEmpty))

/-- Whether a record that leaves so much space begins a stall of its core: a context there writes to its ring with EN = 1, and its threshold is
above that (R72, R73). -/
def State.beginsStall (s : State) (a : AcctRec) (free : Nat) : Bool :=
  ((s.ringsOf a.ci).any fun r => r.1 == a.part && r.2.1 == a.pid && r.2.2.1 == a.base && decide (free < r.2.2.2.2)) &&
    (s.core a.ci).stall.isNone && (s.oldestOn a.ci).isSome

/-- A core's account stall begun, where a record of a ring leaves it too little space (R73): its slot view charges the context and PC it names
now. A core that holds no context has nothing to stall. -/
def State.beginStall (s : State) (a : AcctRec) (free : Nat) : State :=
  if s.beginsStall a free then s.modCore a.ci fun k => { k with stall := s.oldestOn a.ci } else s

/-- A released record written where its ring has space, then WIDX advanced past it; one that leaves too little space begins a stall. None where it
must wait. DESIGN CHOICE (log 26): a race trace logs the two writes as an engine's of the core (KIND 2), since R279 names no kind for them. -/
def State.writeRecord (s : State) (a : AcctRec) : Option State :=
  let ci := a.ci
  if s.recordHeld a || !s.releasable (coreCluster ci) a.made [] then none
  else match s.acctAsk ci a.part a.pid [a.base] with
  | some t => some t
  | none => match s.acctPa ci a.part a.pid a.base .atomic with
    | .error _ => some ((s.acctSeen ci a.part a.pid [a.base]).acctFault a)
    | .ok pb =>
      let widx := s.physRead pb 8
      let free := acctFree a.log2 widx ((s.core ci).ridxOf a.part a.pid a.base)
      let va := a.base + 64 + 16 * (widx % acctCap a.log2)
      if free = 0 then (if s.beginsStall a free then some (s.beginStall a free) else none)
      else match s.acctAsk ci a.part a.pid [va] with
      | some t => some t
      | none => match s.acctPa ci a.part a.pid va .write with
        | .error _ => some ((s.acctSeen ci a.part a.pid [va]).acctFault a)
        | .ok pr => match s.portAsk ([pb, pr].filterMap fun pa => if pa < hostBase then some (lineOf pa) else none) (engineRank ci 7) with
          | some t => some t
          | none =>
            let s1 : State := { s with acctq := s.acctq.erase a }
            let s2 := s1.sliceStore (makerEngine ci) none pr 16 (a.w0.toNat + a.w1.toNat * 2 ^ 64) (allBytes 16)
            let s3 := s2.sliceStore (makerEngine ci) none pb 8 ((widx + 1) % 2 ^ 64) (allBytes 8)
            some (s3.beginStall a (acctFree a.log2 (widx + 1) ((s.core ci).ridxOf a.part a.pid a.base)))

/-- ACCOUNT_RECORD_WRITE (R72 to R74): the oldest of a core's records that can be written is. -/
def execAccountRecordWrite (ci : Nat) (s : State) : Out :=
  .next (((s.acctq.filter fun a => a.ci == ci).findSome? s.writeRecord).getD s)

/-- Whether a read of RIDX is due on a core: at a boundary, once EN has come on, or where a stall has no ring left to wait for (R73). -/
def State.ridxAsked (s : State) (ci : Nat) : Bool :=
  ((coreSlots ci).any fun sid => (s.ctx sid).ridxDue) || (s.core ci).ridxAsk || (s.ringsOf ci).isEmpty

/-- The rings of a core's contexts and, DEDUCED (log 14), those of records it holds whose contexts have left it. -/
def State.ringsRead (s : State) (ci : Nat) : List (Nat × BitVec 16 × Nat × Nat × Nat) :=
  let l := s.ringsOf ci
  l ++ (((s.acctq.filter fun a => a.ci == ci && !(l.any fun r => r.1 == a.part && r.2.1 == a.pid && r.2.2.1 == a.base)).map fun a =>
    (a.part, a.pid, a.base, a.log2, 0)).eraseDups)

/-- ACCT_RIDX_READ (R73): a core reads RIDX of its rings when that is due; a stall ends once there is space in those of its contexts. A ring that
cannot be read keeps its copy. -/
def execAcctRidxRead (ci : Nat) (s : State) : Out :=
  let rings := s.ringsRead ci
  let step (p : State × Bool) (r : Nat × BitVec 16 × Nat × Nat × Nat) : State × Bool :=
    match s.acctPa ci r.1 r.2.1 (r.2.2.1 + 8) .read, s.acctPa ci r.1 r.2.1 r.2.2.1 .read with
    | .ok pa, .ok pb =>
      let ridx := s.physRead pa 8
      ((p.1.accept pa).modCore ci fun k => k.setRidx r.1 r.2.1 r.2.2.1 ridx, p.2 || decide (acctFree r.2.2.2.1 (s.physRead pb 8) ridx < r.2.2.2.2))
    | _, _ => (p.1.acctSeen ci r.1 r.2.1 [r.2.2.1], p.2)
  if !s.ridxAsked ci then .next s
  else match rings.findSome? fun r => s.acctAsk ci r.1 r.2.1 [r.2.2.1] with
    | some t => .next t
    | none =>
      let q := rings.foldl step (s, false)
      let s1 := (coreSlots ci).foldl (fun s sid => if (s.ctx sid).ridxDue then s.modCtx sid fun c => { c with ridxDue := false } else s) q.1
      .next (s1.modCore ci fun k => { k with ridxAsk := false, stall := if q.2 then k.stall else none })

/-! Waits that end by themselves. -/

/-- SLEEP_TIMEOUT (R236): the wait of a sleeping context is over; its SLEEP may issue. -/
def execSleepTimeout (sid : Nat) (s : State) : Out :=
  match (s.ctx sid).act with
  | .sleeping (some u) => .next (if u ≤ s.now then s.modCtx sid fun c => { c with act := .slept } else s)
  | _ => .next s

/-- DEBUG_RELEASE (R234): the debugger releases a context halted at BRK. -/
def execDebugRelease (sid : Nat) (s : State) : Out :=
  .next (if (s.ctx sid).act = .halted then s.modCtx sid fun c => { c with act := .running } else s)

end Sys2Proof.Machine
end

