-- ==== Sys2Proof/Machine/Memory.lean ====
section
/-!
DEFINITION. Loads, stores, atomics, fences, WAIT and NOTIFY (R112 to R131).
-/

namespace Sys2Proof.Machine

/-- Access size of a width field: 1, 2, 4 or 8 bytes. -/
def widthBytes (w : BitVec 2) : Nat := 2 ^ w.toNat

/-- The effective address of format LS (R77, R113). -/
def lsAddress (c : Ctx) (a : BitVec 5) (w : BitVec 2) (o : BitVec 9) : Word := c.rx a + o.signExtend 64 * w64 (widthBytes w)

/-! The bank unit. -/

/-- An access of the running context handed to the bank unit, where it waits for a grant; its result is awaited (R116). -/
def State.bankIssue (s : State) (a : BankAccess) (d : Option Dst) : State :=
  match d with
  | some d => (s.upd fun c => { c with pend := c.pend ++ [a] }).awaitDst d .slotWait
  | none => s.upd fun c => { c with pend := c.pend ++ [a] }

/-- Whether an access is a store, which R116 counts. -/
def BankOp.isStore : BankOp → Bool
  | .store _ => true
  | _ => false

/-- What a bank access waits for: a port instruction whose bytes it touches (R185); a store for one of four entries and for undo memory (R116,
Table 07-5). -/
def State.bankStops (s : State) (a : BankAccess) : List (Option Cause) := [
  if a.op.isStore && decide (4 ≤ (s.me.pend.filter fun p => p.op.isStore).length) then some .slotWait else none,
  if s.portWaits a then some .matrixWait else none,
  if a.op.isStore && s.bankBlocked a then some .undoFull else none]

/-- A bank access of the running context, advancing past its instruction. -/
def State.bankForm (s : State) (a : BankAccess) (d : Option Dst) : Res := .ok (s.bankIssue a d).adv

/-- The bank access that an address of the scratchpad windows or of tile metadata asks for. -/
def State.accessAt (s : State) (op : BankOp) (n : Nat) : Place → Option BankAccess
  | .bank cl off => some { op := op, cl := cl, tags := false, off := off, size := n, serial := s.me.serial }
  | .tag off => some { op := op, cl := slotCluster s.cur, tags := true, off := off, size := n, serial := s.me.serial }
  | _ => none

/-- What a bank access at an address waits for; nothing where the address asks for none. -/
def State.stopsAt (s : State) (op : BankOp) (ea : Word) (n : Nat) : List (Option Cause) :=
  match s.window s.cur ea n n with
  | .ok p => match s.accessAt op n p with
    | some a => s.bankStops a
    | none => []
  | .error _ => []

/-! Loads (R113, R117, R119). -/

/-- An acquire load holds later memory-access instructions until its value has returned (R119). -/
def State.acquires (s : State) (acq : Bool) (k : Cause) : State := if acq then s.upd fun c => { c with acq := some k } else s

/-- A load from the bank unit. -/
def State.loadBank (s : State) (d : Dst) (a : BankAccess) (acq : Bool) : Res := .ok ((s.bankIssue a (some d)).adv.acquires acq .slotWait)

/-- Whether a context has accesses of device registers that are not performed yet (R117). -/
def State.devPending (s : State) (sid : Nat) : Bool := (s.reqsOf sid).any fun r => (r.isDevice || r.isDevLoad) && r.stage != .performed

/-- The cycles from a load of a register inside the cluster to the use of its value (R117). -/
def pageLatency : Nat := 4

/-- A load of a device register (R117): the local cluster page and the fault-record page answer inside the cluster; any other load goes to the
memory-side logic. Its order with the context's other accesses there is program order. -/
def State.loadDevice (s : State) (d : Dst) (ea : Word) (off n : Nat) (sg acq : Bool) : Res :=
  match s.devRead s.cur off n with
  | none => .trap .windowFault ea
  | some v =>
    if nearPage off then
      let u := s.now + pageLatency
      .ok (((((s.awaitDst d .globalWait).acquires acq .globalWait).deliverAt s.cur s.me.serial u d (extend sg n v)).upd fun c =>
        if acq then c.acquireEnds s.now u else c).adv)
    else .ok ((((s.request (.devLoad d sg acq) .sent off n 0 0 0 0).awaitDst d .globalWait).acquires acq .globalWait).adv)

/-- A load of the running context from where its address lands. -/
def State.loadAt (s : State) (d : Dst) (ea : Word) (n : Nat) (sg acq : Bool) : Res :=
  match s.window s.cur ea n n with
  | .error t => .trap t ea
  | .ok (.bank cl off) => s.loadBank d { op := .load d sg acq, cl := cl, tags := false, off := off, size := n, serial := s.me.serial } acq
  | .ok (.tag off) => s.loadBank d { op := .load d sg acq, cl := slotCluster s.cur, tags := true, off := off, size := n, serial := s.me.serial } acq
  | .ok (.device off) => s.loadDevice d ea off n sg acq
  | .ok (.global va) => .ok ((((s.request (.load d sg acq) .translating va n 0 0 0 0).awaitDst d .globalWait).acquires acq .globalWait).adv)

/-- What a load waits for at its address: the bank unit, an overlapping atomic, or an earlier access of a device register where its own answers
inside the cluster (R117). -/
def State.loadStops (s : State) (ea : Word) (n : Nat) : List (Option Cause) :=
  match s.window s.cur ea n n with
  | .ok (.global va) => [if s.atomicOverlap s.cur s.me.serial va n then some .globalWait else none]
  | .ok (.device off) => [if nearPage off && s.devPending s.cur then some .globalWait else none]
  | _ => s.stopsAt (.load (.x 0) false false) ea n

/-- A load form: its fields (R65, R80), with R119 and R160, and its address. -/
def State.loadForm (s : State) (i : Instr) (d : Dst) (a : BitVec 5) (w : BitVec 2) (o : BitVec 9) (sg acq : Bool) : Res :=
  let ea := lsAddress s.me a w o
  match s.fieldStop (wordOf i) [d] [] [a.toNat] (s.memHolds :: s.loadStops ea (widthBytes w)) with
  | some r => r
  | none => s.loadAt d ea (widthBytes w) sg acq

/-- LD: sign-extending load (R113). -/
def execLd (d : Dst) (a : BitVec 5) (w : BitVec 2) (o : BitVec 9) (s : State) : Out :=
  finish s (s.loadForm (.ld d a w o) d a w o true false)
/-- LDU: zero-extending load (R113). -/
def execLdu (d : Dst) (a : BitVec 5) (w : BitVec 2) (o : BitVec 9) (s : State) : Out :=
  finish s (s.loadForm (.ldu d a w o) d a w o false false)
/-- LDA: acquire load (R113, R119). -/
def execLda (d : Dst) (a : BitVec 5) (w : BitVec 2) (o : BitVec 9) (s : State) : Out :=
  finish s (s.loadForm (.lda d a w o) d a w o true true)

/-! Stores (R113, R118, R120). -/

/-- What a release to the scratchpad waits for: every earlier access performed at package scope (R120). -/
def State.releaseWait (s : State) : Option Cause := s.fenceWait s.cur 3

/-- A store of the running context; `taken` are the channel entries its data came from. -/
def State.storeAt (s : State) (v : Word) (taken : List Target) (ea : Word) (n : Nat) (rel : Bool) : Res :=
  match s.window s.cur ea n n with
  | .error t => .trap t ea
  | .ok (.bank cl off) => (s.popAll s.cur taken).bankForm { op := .store v, cl := cl, tags := false, off := off, size := n, serial := s.me.serial } none
  | .ok (.tag off) => (s.popAll s.cur taken).bankForm { op := .store v, cl := slotCluster s.cur, tags := true, off := off, size := n, serial := s.me.serial } none
  | .ok (.device off) =>
    if !s.devMayWrite s.cur off n then .trap .windowFault ea
    else .ok (((s.popAll s.cur taken).request .device .held off n 0 (v.toNat % 2 ^ (8 * n)) (allBytes n) 0).adv)
  | .ok (.global va) =>
    .ok (((s.popAll s.cur taken).request (if rel then .storeRelease else .store) .held va n 0 (v.toNat % 2 ^ (8 * n)) (allBytes n) 0).adv)

/-- What a store waits for at its address: the bank unit, with what a release waits for, or an entry of the restante buffer (R118, R120). -/
def State.storeStops (s : State) (ea : Word) (n : Nat) (rel : Bool) : List (Option Cause) :=
  let held := [if s.restFull (slotCluster s.cur) 1 then some .restanteFull else none]
  match s.window s.cur ea n n with
  | .error _ => []
  | .ok (.global _) => held
  | .ok (.device off) => if s.devMayWrite s.cur off n then held else []
  | _ => (if rel then s.releaseWait else none) :: s.stopsAt (.store 0) ea n

/-- A store form: its fields (R65), with R119 and R160, and its address. -/
def State.storeForm (s : State) (i : Instr) (d : Src) (a : BitVec 5) (w : BitVec 2) (o : BitVec 9) (rel : Bool) : Res :=
  let ea := lsAddress s.me a w o
  match s.fieldStop (wordOf i) [] [d] [a.toNat] (s.memHolds :: s.storeStops ea (widthBytes w) rel) with
  | some r => r
  | none =>
    match s.readSrc [] d with
    | none => .wait .chanEmpty
    | some (v, taken) => s.storeAt v taken ea (widthBytes w) rel

/-- ST (R113). -/
def execSt (d : Src) (a : BitVec 5) (w : BitVec 2) (o : BitVec 9) (s : State) : Out :=
  finish s (s.storeForm (.st d a w o) d a w o false)
/-- STL: release store (R120). -/
def execStl (d : Src) (a : BitVec 5) (w : BitVec 2) (o : BitVec 9) (s : State) : Out :=
  finish s (s.storeForm (.stl d a w o) d a w o true)

/-! Atomics (R121 to R123). -/

/-- Access size of an atomic or WAIT: 4 or 8 bytes. -/
def atomBytes (w : Bool) : Nat := if w then 8 else 4

/-- An atomic of the running context: `bop` at a bank unit, `kind` at a home slice, operands `v` and `e`. -/
def State.atomicAt (s : State) (d : BitVec 5) (ea : Word) (n : Nat) (bop : BankOp) (kind : ReqKind) (v e : Word) : Res :=
  match s.window s.cur ea n n with
  | .error t => .trap t ea
  | .ok (.bank cl off) => s.bankForm { op := bop, cl := cl, tags := false, off := off, size := n, serial := s.me.serial } (some (.x d))
  | .ok (.tag _) => .trap .windowFault ea
  | .ok (.device _) => .trap .windowFault ea
  | .ok (.global va) =>
    let m := 2 ^ (8 * n)
    .ok (((s.request kind .translating va n 0 (v.toNat % m) (allBytes n) (e.toNat % m)).awaitDst (.x d) .globalWait).adv)

/-- What an atomic waits for at its address. -/
def State.atomicStops (s : State) (ea : Word) (n : Nat) (bop : BankOp) : List (Option Cause) :=
  match s.window s.cur ea n n with
  | .ok (.global _) => [if s.restFull (slotCluster s.cur) 1 then some .restanteFull else none]
  | .ok (.tag _) => []
  | _ => s.stopsAt bop ea n

/-- An AMO form. -/
def State.amoForm (s : State) (op : AmoOp) (d a b : BitVec 5) (w : Bool) : Res :=
  s.memForm [a, b] [d] (s.atomicStops (s.me.rx a) (atomBytes w) (.amo op d (s.me.rx b)))
    (s.atomicAt d (s.me.rx a) (atomBytes w) (.amo op d (s.me.rx b)) (.amo op d) (s.me.rx b) 0)

/-- AMO.add (R122). -/
def execAmoAdd (d a b : BitVec 5) (w : Bool) (s : State) : Out := finish s (s.amoForm .add d a b w)
/-- AMO.and (R122). -/
def execAmoAnd (d a b : BitVec 5) (w : Bool) (s : State) : Out := finish s (s.amoForm .and d a b w)
/-- AMO.or (R122). -/
def execAmoOr (d a b : BitVec 5) (w : Bool) (s : State) : Out := finish s (s.amoForm .or d a b w)
/-- AMO.xor (R122). -/
def execAmoXor (d a b : BitVec 5) (w : Bool) (s : State) : Out := finish s (s.amoForm .xor d a b w)
/-- AMO.min (R122). -/
def execAmoMin (d a b : BitVec 5) (w : Bool) (s : State) : Out := finish s (s.amoForm .min d a b w)
/-- AMO.max (R122). -/
def execAmoMax (d a b : BitVec 5) (w : Bool) (s : State) : Out := finish s (s.amoForm .max d a b w)
/-- AMO.minu (R122). -/
def execAmoMinu (d a b : BitVec 5) (w : Bool) (s : State) : Out := finish s (s.amoForm .minu d a b w)
/-- AMO.maxu (R122). -/
def execAmoMaxu (d a b : BitVec 5) (w : Bool) (s : State) : Out := finish s (s.amoForm .maxu d a b w)
/-- AMO.swap (R122). -/
def execAmoSwap (d a b : BitVec 5) (w : Bool) (s : State) : Out := finish s (s.amoForm .swap d a b w)
/-- CAS: rd is the expected value and the result (R122). -/
def execCas (d a b : BitVec 5) (w : Bool) (s : State) : Out :=
  let c := s.me
  finish s (s.memForm [a, b, d] [d] (s.atomicStops (c.rx a) (atomBytes w) (.cas d (c.rx b) (c.rx d)))
    (s.atomicAt d (c.rx a) (atomBytes w) (.cas d (c.rx b) (c.rx d)) (.cas d) (c.rx b) (c.rx d)))

/-! Fences (R124 to R127). -/

/-- The dies other than its own that a fence's scope reaches (R127). -/
def fenceOther (sc : Bool) (c : BitVec 3) : Bool := sc && decide (3 ≤ c.toNat)

/-- The invalidations queued on a module of the die link towards a die (R127). -/
def State.queuedInvals (s : State) (m die : Nat) : List Nat := (s.invals.filter fun v => v.module == m && v.die == die).map Inval.n

/-- FENCE and FENCE.SC. With `.SC` a marker goes out on each of the eight modules of the die link, behind every invalidation already queued there
towards the fence's die, and the fence completes when all have returned (R125 to R127). -/
def State.fence (s : State) (sc : Bool) (c : BitVec 3) : Res :=
  match firstCause [s.others [] [], s.fenceWait s.cur c.toNat] with
  | some k => .wait k
  | none =>
    if !fenceOther sc c || (s.me.fenceSent && s.me.markers.isEmpty) then .ok (s.adv.upd fun c => { c with fenceSent := false })
    else if s.me.fenceSent then .wait .fence
    else .hold (s.upd fun c => { c with
      fenceSent := true
      markers := (List.range 8).map fun m => (m, s.queuedInvals m (clusterDie (slotCluster s.cur))) }) .fence

/-- FENCE (R125). -/
def execFence (sc : Bool) (c : BitVec 3) (s : State) : Out := finish s (s.fence sc c)

/-! WAIT and NOTIFY (R128 to R131). -/

/-- WAIT: the compare and the enqueueing are one step at the bank unit (R129, R130). While it sleeps the PC names the WAIT (R132). -/
def State.waitForm (s : State) (d a b : BitVec 5) (w : Bool) : Res :=
  let c := s.me
  let n := atomBytes w
  s.memForm [a, b, d] [d] (if bitsOf (c.rx a).toNat 55 48 = 0xF0 then s.stopsAt (.wait d (c.rx b) (c.rx d)) (c.rx a) n else []) (
    match s.window s.cur (c.rx a) n n with
    | .error t => .trap t (c.rx a)
    | .ok (.bank cl off) =>
      if bitsOf (c.rx a).toNat 55 48 ≠ 0xF0 then .trap .windowFault (c.rx a)
      else
        let acc : BankAccess := { op := .wait d (c.rx b) (c.rx d), cl := cl, tags := false, off := off, size := n, serial := s.me.serial }
        .ok ((s.bankIssue acc none).upd fun c => { c with act := .waitWord d none, acq := some .slotWait })
    | .ok _ => .trap .windowFault (c.rx a))

/-- WAIT (R129). -/
def execWait (d a b : BitVec 5) (w : Bool) (s : State) : Out := finish s (s.waitForm d a b w)

/-- NOTIFY (R131). -/
def State.notifyForm (s : State) (d a : BitVec 5) (all : Bool) : Res :=
  let c := s.me
  s.memForm [a] [d] (if bitsOf (c.rx a).toNat 55 48 = 0xF0 then s.releaseWait :: s.stopsAt (.notify d all) (c.rx a) 4 else []) (
    match s.window s.cur (c.rx a) 4 4 with
    | .error t => .trap t (c.rx a)
    | .ok (.bank cl off) =>
      if bitsOf (c.rx a).toNat 55 48 ≠ 0xF0 then .trap .windowFault (c.rx a)
      else s.bankForm { op := .notify d all, cl := cl, tags := false, off := off, size := 4, serial := s.me.serial } (some (.x d))
    | .ok _ => .trap .windowFault (c.rx a))

/-- NOTIFY (R131). -/
def execNotify (d a : BitVec 5) (all : Bool) (s : State) : Out := finish s (s.notifyForm d a all)

end Sys2Proof.Machine
end

