-- ==== Sys2Proof/Machine/Matrix.lean ====
section
/-!
DEFINITION. The matrix forms, the port and the array (R170 to R191, R247, R248).
-/

namespace Sys2Proof.Machine

/-! Arithmetic of a step (R60, R61, R179). -/

/-- An element's code: `p` planes of a bit-plane operand, or whole bytes (R51, R52, R174). -/
def elemCode (m : Memory) (base w p e : Nat) : Nat :=
  if w < 8 then
    (List.range p).foldr (fun q acc => bit1 (m.read (base + 8 * w * (e / 64) + 8 * (w - p + q) + e % 64 / 8)).toNat (e % 8) + 2 * acc) 0
  else m.readN (base + e * (w / 8)) (w / 8)

/-- An exact sum or term that is zero has no sign; DEDUCED (log 6): it is held in fixed point. -/
def XVal.unsign : XVal → XVal
  | .fin n m e => if m = 0 then .fin false 0 0 else .fin n m e
  | x => x

/-- C + x rounded once to binary32, to nearest even (R60, R61). -/
def accAdd (c : Nat) (x : XVal) : Nat := (fmt32.round .rne false ((fmt32.value c).add false x.unsign)).1

/-- One chunk of a float product (R60): `na` and `nb` flip the signs of the operands. -/
def mmaFloat (fa fb : Fmt) (na nb : Bool) (c : Nat) (ps : List (Nat × Nat)) : Nat :=
  let val (f : Fmt) (n : Bool) (q : Nat) : XVal := if n then (f.value q).flip else f.value q
  accAdd c (ps.foldl (fun acc p => acc.add false ((val fa na p.1).mul (val fb nb p.2))) (.fin false 0 0))

/-- A scale with `sh` low planes left unread: scale × 2^sh (R52). -/
def scaleUp (sh : Nat) : XVal → XVal
  | .fin n m e => .fin n m (e + sh)
  | x => x

/-- One group of an integer product (R61): scales, zero points, the pairs of codes. -/
def mmaInt (sa sb : XVal) (za zb : Nat) (neg : Bool) (c : Nat) (ps : List (Nat × Nat)) : Nat :=
  let t : Int := (ps.map fun p => ((p.1 : Int) - za) * ((p.2 : Int) - zb)).sum
  let x := ((sa.mul sb).mul (.ofInt t)).unsign
  accAdd c (if neg then x.flip else x)

/-- The scale and zero point of one group (R50, R52): `tabs` are the offsets of the scale and zero-point tables. -/
def groupOf (m : Memory) (scale zp w p index : Nat) : XVal × Nat :=
  (scaleUp (w - p) (fmt16.value (m.readN (scale + 2 * index) 2)), (m.read (zp + index)).toNat % 2 ^ w / 2 ^ (w - p))

/-- The K elements of the step an MMA is at. -/
def PortEntry.stepLen (p : PortEntry) : Nat := Nat.min p.fmt.step (shK p.sa - p.kdone)

/-- One accumulator element after the step an MMA is at (R179): tiles `ta` and `tb`, prior value `c`. -/
def PortEntry.element (p : PortEntry) (mem : Memory) (ta tb : Nat) (m : BitVec 5) (i j c : Nat) : Nat :=
  let fa := p.fmt.fa
  let fb := p.fmt.fb
  let wa := mWidth fa
  let wb := mWidth fb
  let pa := planesRead p.sa wa
  let pb := planesRead p.sb wb
  let na := m.getLsbD 4
  let nb := m.getLsbD 3
  let c0 := if m.getLsbD 2 && decide (p.kdone = 0) then 0 else c
  let ps := (List.range p.stepLen).map fun q =>
    (elemCode mem ta wa pa (elemA p.sa i (p.kdone + q)), elemCode mem tb wb pb (elemB p.sb (p.kdone + q) j))
  if mIsInt fa then
    let ng := ceilDiv (shK p.sa) p.fmt.step
    let g := p.kdone / p.fmt.step
    let ga := if p.fmt.gs = 0 then (scaleUp (wa - pa) (.ofInt 1), 0) else groupOf mem (p.tabs.getD 0 0) (p.tabs.getD 1 0) wa pa (i * ng + g)
    let gb := if p.fmt.gs = 0 then (scaleUp (wb - pb) (.ofInt 1), 0) else groupOf mem (p.tabs.getD 2 0) (p.tabs.getD 3 0) wb pb (j * ng + g)
    mmaInt ga.1 gb.1 ga.2 gb.2 (na != nb) c0 ps
  else mmaFloat (mFmt fa) (mFmt fb) na nb c0 ps

/-- A row of an accumulator with the elements of columns `lo` to `hi - 1` replaced. -/
def setRow (row : BitVec 2048) (lo hi : Nat) (f : Nat → Nat → Nat) : BitVec 2048 :=
  BitVec.ofNat 2048 (packWhole 32 ((List.range 64).map fun j =>
    let c := row.toNat / 2 ^ (32 * j) % 2 ^ 32
    if lo ≤ j ∧ j < hi then f j c else c))

/-- Rows of an accumulator changed: row i of accN is number 32 N + i. -/
def CoreSt.setRows (k : CoreSt) (n rows : Nat) (f : Nat → BitVec 2048 → BitVec 2048) : CoreSt :=
  { k with acc := (List.range rows).foldl (fun t i => Tab.set 0 t (32 * n + i) (f i (Tab.get 0 t (32 * n + i)))) k.acc }

/-! Checks at issue (R91, R171). -/

/-- The trap of a matrix form's mode and slot (R188, R189). -/
def State.matrixTrap (s : State) (i : Instr) : Option Trap :=
  let c := s.me
  let save := match i with
    | .msave _ => true
    | _ => false
  let sup := match i with
    | .msave _ => true
    | .mrstr _ => true
    | _ => false
  if isVisitor s.cur then some .matrixInVisitor
  else if sup && !c.mode then some .illegalInstruction
  else if c.mode && !c.msaved && !save then some .matrixInHandler
  else none

/-- Whether another context owns the core's matrix state (R7). -/
def State.ownerWait (s : State) : Bool :=
  match s.myCore.owner with
  | some o => o != s.cur
  | none => false

/-- The matrix state as a task that becomes its owner finds it: of the task's start (R5, R12). -/
def CoreSt.freshMatrix (k : CoreSt) : CoreSt := { k with acc := [], accAt := [0, 0], accGap := [0, 0], sh := [], fmt := {}, mprog := 0 }

/-- The running context becomes the matrix owner (R7). -/
def State.takeOwner (s : State) : State :=
  s.updCore fun k => match k.owner with
    | none => { k.freshMatrix with owner := some s.cur }
    | some _ => k

/-- The matrix state as the running context's next matrix form finds it (R5, R7). -/
def State.matrixState (s : State) : CoreSt := if s.myCore.owner.isNone then s.myCore.freshMatrix else s.myCore

/-- Whether an MRSTR of the running context is still in the port: what copies or writes the matrix state waits for it; DEDUCED (log 6). -/
def State.restoringMatrix (s : State) : Bool := s.myCore.port.any fun p => p.sid == s.cur && match p.i with
  | .mrstr _ => true
  | _ => false

/-- Whether a matrix form copies or writes shape registers or the format context at its issue (R171). -/
def usesShapes : Instr → Bool
  | .mma _ _ _ _ _ _ => true
  | .mshape _ _ => true
  | .mfmt _ => true
  | .msave _ => true
  | _ => false

/-- Whether a matrix form is a memory-access instruction (R119). -/
def matrixAccess : Instr → Bool
  | .mzero _ => false
  | .mwait _ => false
  | .mtest => false
  | _ => true

/-- The number under which a shape register is awaited. -/
def shapeCode (n : BitVec 3) : Nat := 64 + n.toNat

/-- The shape registers a matrix form copies, or for MRSTR replaces (R171, R175, R190). -/
def shapeUses : Instr → List (BitVec 3)
  | .mma _ _ _ g h _ => [g, h]
  | .msave _ => [0, 1, 2, 3, 4, 5, 6, 7]
  | .mrstr _ => [0, 1, 2, 3, 4, 5, 6, 7]
  | _ => []

/-- The shape register a matrix form writes. -/
def shapeDst : Instr → List (BitVec 3)
  | .mshape n _ => [n]
  | _ => []

/-- What a matrix form waits for beside its registers and shape registers: the owner (R7), an acquire (R119), a restore of the matrix state, and what
its own part asks for, `more`. -/
def State.matrixStops (s : State) (i : Instr) (more : List (Option Cause)) : List (Option Cause) :=
  s.others [] [] :: (if s.ownerWait then some .matrixWait else none) :: (if matrixAccess i then s.me.acq else none) ::
    (if usesShapes i && s.restoringMatrix then some .matrixWait else none) :: more

/-- A matrix form: its mode and slot, its registers and shape registers, what else it waits for (R65), then its own part (R91, R7, R175). -/
def State.matrixForm (s : State) (i : Instr) (rs : List (BitVec 5)) (more : List (Option Cause)) (r : Res) : Res :=
  match s.matrixTrap i with
  | some t => .trap t (wordOf i)
  | none => match s.me.awaitsFor (rs.map BitVec.toNat ++ (shapeUses i).map shapeCode) ((shapeDst i).map shapeCode) with
    | some k => .wait k
    | none => match firstCause (s.matrixStops i more) with
      | some k => .wait k
      | none => r

/-- Whether the port is full (R170). -/
def State.portFull (s : State) : Bool := decide (Config.portEntries ≤ s.myCore.port.length)

/-- A port instruction with no copies. -/
def State.portEntry (s : State) (i : Instr) : PortEntry :=
  { sid := s.cur, i := i, pc := s.me.pc, sa := 0, sb := 0, fmt := s.matrixState.fmt, tabs := [], base := 0, ctl := 0, serial := s.me.serial
    pass := 0, kdone := 0, cols := 0, started := false, done := false, at_ := s.now }

/-- A port instruction enters the port (R170). -/
def State.enterPort (s : State) (p : PortEntry) : Res :=
  .ok (((s.takeOwner).updCore fun k => { k with port := k.port ++ [p] }).adv)

/-- A port instruction's issue, once its checks are passed. -/
def State.portIssue (s : State) (p : PortEntry) : Res := if s.portFull then .wait .matrixWait else s.enterPort p

/-- The trap of an access that must lie in 0xF0 or 0xF1: there is no PARTNER_GONE there, as 0xF3 is not admitted (R175, R176, R184, R191). -/
def Trap.inScratch : Trap → Trap
  | .partnerGone => .windowFault
  | t => t

/-- The first byte of a list of pieces that fails R16 to R18 or lies outside the windows admitted, with its trap. -/
def State.scratchCheck (s : State) (onlyF0 : Bool) : List (Word × Nat) → Option (Trap × Word)
  | [] => none
  | (a, n) :: l =>
    let top := bitsOf a.toNat 55 48
    match s.window s.cur a n 1 with
    | .error t => some (t.inScratch, a)
    | .ok _ =>
      if top = 0xF0 ∨ (top = 0xF1 ∧ onlyF0 = false) then s.scratchCheck onlyF0 l else some (.windowFault, a)

/-- The scratchpad offset of a checked pointer into 0xF0 or 0xF1. -/
def Ctx.scratchOff (c : Ctx) (a : Word) : Nat :=
  (if bitsOf a.toNat 55 48 = 0xF1 then c.privBase.toNat else 0) + a.toNat % 2 ^ 48

/-! MMA (R174, R178, R179). -/

/-- The largest element number of an operand: sizes `n1` and `n2` along the two strides. -/
def lastElem (sh : BitVec 128) (n1 s1 n2 s2 : Nat) : Nat := shOffset sh + (n1 - 1) * s1 + (n2 - 1) * s2

/-- SHAPE_INVALID (R174). -/
def shapeBad (sa sb : BitVec 128) (f : FmtCtx) (ra rb : Ring) : Bool :=
  let k := shK sa
  let isZero (sh : BitVec 128) : Bool := decide (shK sh = 0 ∨ shEstride sh = 0 ∨ shRstride sh = 0)
  decide (k ≠ shK sb) || isZero sa || isZero sb ||
    decide (ra.size * 8 / mWidth f.fa ≤ lastElem sa (shM sa) (shRstride sa) k (shEstride sa)) ||
    decide (rb.size * 8 / mWidth f.fb ≤ lastElem sb k (shRstride sb) (shN sb) (shEstride sb)) ||
    (decide (f.gs ≠ 0) && decide (k % mGroup f.gs ≠ 0))

/-- FORMAT_INVALID by PLANES (R174). -/
def planesBad (sh : BitVec 128) (code : Nat) : Bool :=
  decide (mWidth code < shPlanes sh) || (decide (shPlanes sh ≠ 0 ∧ shPlanes sh < mWidth code ∧ code ≠ 6))

/-- The entries of the group tables an MMA reads (R50). -/
def groupEntries (sa sb : BitVec 128) (f : FmtCtx) : List (Word × Nat) :=
  if f.gs = 0 then []
  else
    let g := shK sa / mGroup f.gs
    let ent (p : Word) (n len : Nat) : List (Word × Nat) := (List.range (n * g)).map fun x => (p + w64 (len * x), len)
    ent f.ascale (shM sa) 2 ++ ent f.azp (shM sa) 1 ++ ent f.bscale (shN sb) 2 ++ ent f.bzp (shN sb) 1

/-- The failing entry with the lowest address (R177). -/
def State.groupFault (s : State) (l : List (Word × Nat)) : Option (Trap × Word) :=
  (l.filterMap fun e => s.scratchCheck false [e]).foldl (fun best x =>
    match best with
    | none => some x
    | some y => if x.2 < y.2 then some x else some y) none

/-- The progress an MMA that follows a TRET takes up again: pass, K elements, columns of a pass (R187). DEDUCED (log 18): it keeps the columns it
had, so that no fence between changes which elements its pass spans (R62). -/
def State.resumeAt (s : State) (n : BitVec 2) : Option (Nat × Nat × Nat) :=
  let m := s.myCore.mprog.toNat
  if s.me.mret && m.testBit 63 && decide (bit1 m 60 = n.toNat) then some (bitsOf m 59 56, bitsOf m 31 0, s.me.mcols) else none

/-- MMA (R178). -/
def execMma (c : BitVec 2) (a b : BitVec 4) (g h : BitVec 3) (m : BitVec 5) (s : State) : Out :=
  let i : Instr := .mma c a b g h m
  finishPort s (s.matrixForm i [] [] (
    let ci := slotCore s.cur
    let k := s.matrixState
    let ra := s.ring ci a.toNat
    let rb := s.ring ci b.toNat
    let sa := Tab.get 0 k.sh g.toNat
    let sb := Tab.get 0 k.sh h.toNat
    if !ra.valid || !rb.valid then .trap .ringFault (wordOf i)
    else if shapeBad sa sb k.fmt ra rb then .trap .shapeInvalid (wordOf i)
    else if planesBad sa k.fmt.fa || planesBad sb k.fmt.fb then .trap .formatInvalid (wordOf i)
    else match s.groupFault (groupEntries sa sb k.fmt) with
      | some (t, x) => .trap t x
      | none =>
        let at_ := (s.resumeAt c).getD (0, 0, 0)
        s.portIssue { s.portEntry i with
          sa := sa, sb := sb, tabs := [k.fmt.ascale, k.fmt.azp, k.fmt.bscale, k.fmt.bzp].map s.me.scratchOff
          pass := at_.1, kdone := at_.2.1, cols := at_.2.2 }))

/-! MZERO, MWAIT and MTEST (R182). -/

/-- MZERO. -/
def execMzero (c : BitVec 2) (s : State) : Out :=
  let i : Instr := .mzero c
  finishPort s (s.matrixForm i [] [] (s.portIssue (s.portEntry i)))

/-- MTEST. -/
def execMtest (s : State) : Out := finishPort s (s.matrixForm .mtest [] [] (s.portIssue (s.portEntry .mtest)))

/-- Whether a port instruction names an accumulator that an acc2 field selects: 3 selects any. -/
def PortEntry.names (p : PortEntry) (c : BitVec 2) : Bool :=
  let hit (n : Nat) : Bool := decide (c = 3 ∨ c.toNat = n)
  match p.i with
  | .mma n _ _ _ _ _ => hit n.toNat
  | .mzero n => hit n.toNat || decide (n = 3)
  | .mlda _ n _ _ => hit n.toNat
  | .msta _ n _ _ => hit n.toNat
  | _ => false

/-- MWAIT: it does not issue while an earlier port instruction names the accumulator (R182). -/
def execMwait (c : BitVec 2) (s : State) : Out :=
  finish s (s.matrixForm (.mwait c) [] [] (
    if s.myCore.port.any fun p => p.sid == s.cur && p.names c then .wait .matrixWait else .ok (s.takeOwner.adv)))

/-! MLDA and MSTA (R183, R184). -/

/-- The elements of a transfer as memory pieces, in row order. -/
def rowPieces (base ctl : Word) (e : Nat) : List (Word × Nat) :=
  (List.range (ctlRows ctl)).flatMap fun i => (List.range (ctlCols ctl)).map fun j => (base + w64 (i * ctlStride ctl + j * e), e)

/-- The misaligned address of a transfer, if there is one. -/
def rowMisaligned (base ctl : Word) (e : Nat) : Option Word :=
  if base.toNat % e ≠ 0 then some base else if ctlStride ctl % e ≠ 0 then some (base + w64 (ctlStride ctl)) else none

/-- The issue of MLDA or MSTA. -/
def State.accMove (s : State) (i : Instr) (t : BitVec 4) (a b : BitVec 5) : Res :=
  s.matrixForm i [a, b] [] (
    let base := s.me.rx a
    let ctl := s.me.rx b
    match rowMisaligned base ctl (accBytes t) with
    | some x => .trap .misaligned x
    | none => match s.scratchCheck false (rowPieces base ctl (accBytes t)) with
      | some (tr, x) => .trap tr x
      | none => s.portIssue { s.portEntry i with base := s.me.scratchOff base, ctl := ctl })

/-- MLDA. -/
def execMlda (t : BitVec 4) (n : Bool) (a b : BitVec 5) (s : State) : Out := finishPort s (s.accMove (.mlda t n a b) t a b)
/-- MSTA. -/
def execMsta (t : BitVec 4) (n : Bool) (a b : BitVec 5) (s : State) : Out := finishPort s (s.accMove (.msta t n a b) t a b)

/-! MSAVE and MRSTR (R190). -/

/-- The issue of MSAVE or MRSTR; MSAVED changes in program order, so that a following TRET sees it (R189, R190). -/
def State.areaMove (s : State) (i : Instr) (a : BitVec 5) (saved : Bool) : Res :=
  s.matrixForm i [a] [] (
    let base := s.me.rx a
    if base.toNat % 64 ≠ 0 then .trap .misaligned base
    else match s.scratchCheck true ((List.range (saveBytes / 64)).map fun n => (base + w64 (64 * n), 64)) with
      | some (tr, x) => .trap tr x
      | none =>
        match s.portIssue { s.portEntry i with
            base := s.me.scratchOff base, shs := (List.range 8).map fun n => Tab.get 0 s.matrixState.sh n, mprog := s.matrixState.mprog } with
        | .ok s' => .ok (s'.upd fun c => { c with msaved := saved })
        | r => r)

/-- MSAVE. -/
def execMsave (a : BitVec 5) (s : State) : Out := finishPort s (s.areaMove (.msave a) a true)
/-- MRSTR. -/
def execMrstr (a : BitVec 5) (s : State) : Out := finishPort s (s.areaMove (.mrstr a) a false)

/-! MSHAPE and MFMT (R175, R176). -/

/-- A form that reads a block of memory and completes when it has it. No later instruction issues meanwhile. -/
def State.blockForm (s : State) (i : Instr) (a : Word) (size : Nat) (global : Bool) : Res :=
  match s.window s.cur a size size with
  | .error t => .trap t.inScratch a
  | .ok (.bank cl off) =>
    if bitsOf a.toNat 55 48 ≠ 0xF0 ∧ bitsOf a.toNat 55 48 ≠ 0xF1 then .trap .windowFault a
    else
      let acc : BankAccess := { op := .form i, cl := cl, tags := false, off := off, size := size, serial := s.me.serial }
      .ok (s.upd fun c => { c with pend := c.pend ++ [acc], act := .stalled .slotWait })
  | .ok (.global va) =>
    if !global then .trap .windowFault a
    else .ok ((s.request (.form i) .translating va size 0 0 0 0).upd fun c => { c with act := .stalled .globalWait })
  | .ok _ => .trap .windowFault a

/-- What the read of a block waits for at its address: a port instruction whose bytes it touches (R185), or an overlapping atomic (R117). -/
def State.blockStops (s : State) (i : Instr) (a : Word) (size : Nat) (global : Bool) : List (Option Cause) :=
  match s.window s.cur a size size with
  | .ok (.bank cl off) =>
    if bitsOf a.toNat 55 48 ≠ 0xF0 ∧ bitsOf a.toNat 55 48 ≠ 0xF1 then []
    else [if s.portWaits { op := .form i, cl := cl, tags := false, off := off, size := size, serial := s.me.serial } then some .matrixWait else none]
  | .ok (.global va) => [if global && s.atomicOverlap s.cur s.me.serial va size then some .globalWait else none]
  | _ => []

/-- MSHAPE from where its address lands. -/
def State.shapeAt (s : State) (n : BitVec 3) (a : Word) : Res :=
  match s.window s.cur a 16 16 with
  | .error t => .trap t.inScratch a
  | .ok (.bank cl off) =>
    if bitsOf a.toNat 55 48 ≠ 0xF0 ∧ bitsOf a.toNat 55 48 ≠ 0xF1 then .trap .windowFault a
    else
      let acc : BankAccess := { op := .shape n, cl := cl, tags := false, off := off, size := 16, serial := s.me.serial }
      .ok ((s.bankIssue acc none).adv.upd fun c => { c with busy := c.busy ++ [(shapeCode n, .slotWait)] })
  | .ok (.global va) => .ok ((s.request (.shape n) .translating va 16 0 0 0 0).adv.upd fun c => { c with busy := c.busy ++ [(shapeCode n, .globalWait)] })
  | .ok _ => .trap .windowFault a

/-- The owner taken with a form's effect. -/
def Res.owned (r : Res) : Res :=
  match r with
  | .ok s => .ok s.takeOwner
  | r => r

/-- MSHAPE (R175). -/
def execMshape (n : BitVec 3) (a : BitVec 5) (s : State) : Out :=
  let i : Instr := .mshape n a
  finish s (s.matrixForm i [a] (s.memHolds :: s.blockStops i (s.me.rx a) 16 true) (s.shapeAt n (s.me.rx a)).owned)

/-- A 64-bit word of a block. -/
def blockWord (v n : Nat) : Nat := v / 2 ^ (64 * n) % 2 ^ 64

/-- A format-context record's fields. -/
def fmtOf (v : Nat) : FmtCtx :=
  { fa := bitsOf (blockWord v 0) 7 0, fb := bitsOf (blockWord v 0) 15 8, gs := bitsOf (blockWord v 0) 17 16
    ascale := w64 (blockWord v 1), azp := w64 (blockWord v 2), bscale := w64 (blockWord v 3), bzp := w64 (blockWord v 4) }

/-- Whether a format-context record is valid (R177, Table 09-2). -/
def fmtOk (v : Nat) : Bool :=
  let f := fmtOf v
  let inSpad (p : Word) : Bool := decide (bitsOf p.toNat 63 48 = 0xF0 ∨ bitsOf p.toNat 63 48 = 0xF1)
  decide (f.fa ≤ 6 ∧ f.fb ≤ 6) && (mIsInt f.fa == mIsInt f.fb) && (decide (f.gs = 0) || mIsInt f.fa) &&
    decide (bitsOf (blockWord v 0) 63 18 = 0 ∧ blockWord v 5 = 0 ∧ blockWord v 6 = 0 ∧ blockWord v 7 = 0) &&
    (decide (f.gs = 0) || (inSpad f.ascale && inSpad f.azp && inSpad f.bscale && inSpad f.bzp && !f.ascale.getLsbD 0 && !f.bscale.getLsbD 0))

/-- MFMT's effect on its record (R176). -/
def fmtPerform (i : Instr) (s : State) (v : Nat) : Res :=
  if fmtOk v then .ok ((s.takeOwner.updCore fun k => { k with fmt := fmtOf v }).adv) else .trap .formatInvalid (wordOf i)

/-- MFMT (R176). -/
def execMfmt (a : BitVec 5) (s : State) : Out :=
  let i : Instr := .mfmt a
  finish s (s.matrixForm i [a] (s.memHolds :: s.blockStops i (s.me.rx a) 64 true) (s.blockForm i (s.me.rx a) 64 true).owned)

/-! The array (R179 to R182, R184, R244, R247, R248). -/

/-- Whether a context's scratchpad accesses that issued before a port instruction are all performed (R185). -/
def State.portClear (s : State) (ci : Nat) (p : PortEntry) : Bool :=
  !((s.ctx p.sid).pend.any fun a => decide (a.serial < p.serial)) &&
    !((s.core ci).seq.any fun e => e.sid == p.sid && isVMem e.i && decide (e.serial < p.serial))

/-- The scratchpad lines a transfer touches, in row order (R184). -/
def PortEntry.lines (p : PortEntry) : List Nat :=
  let rows (t : BitVec 4) : List Nat :=
    ((List.range (ctlRows p.ctl)).flatMap fun i => linesOf (p.base + i * ctlStride p.ctl) (ctlCols p.ctl * accBytes t)).eraseDups
  match p.i with
  | .mlda t _ _ _ => rows t
  | .msta t _ _ _ => rows t
  | .msave _ => linesOf p.base saveBytes
  | .mrstr _ => linesOf p.base 16584
  | _ => []

/-- Whether a port instruction writes the scratchpad. -/
def PortEntry.stores (p : PortEntry) : Bool :=
  match p.i with
  | .msta _ _ _ _ => true
  | .msave _ => true
  | _ => false

/-- The lines of a list that one slot serves: the first of every bank (R159, R184, R243). -/
def slotServes (l : List Nat) : List Nat := l.foldl (fun acc n => if acc.any fun k => k % 32 == n % 32 then acc else acc ++ [n]) []

/-- Whether undo memory lacks room for lines of a cluster's scratchpad (R116, R184, R358). -/
def State.linesUndoFull (s : State) (cl : Nat) (ls : List Nat) : Bool :=
  decide (Config.undoEntries < (s.clu cl).undo.length + (ls.flatMap fun l => undoNeeds (s.clu cl) s.now (16 * l) 16).length)

/-- Whether the head tile of a ring is FULL. -/
def State.headFull (s : State) (ci n : Nat) : Bool := tagFull (s.tag (coreCluster ci) (s.ring ci n).headTag)

/-- Whether the array finds the head tile of a ring FULL (R179, R247). DESIGN CHOICE (log 18): two cycles after the bank step that filled it; the spec
gives no delay, and in Table 17-3 the array starts two cycles after that step. -/
def State.headReady (s : State) (ci n : Nat) : Bool :=
  s.headFull ci n && decide (Tab.get 0 (s.clu (coreCluster ci)).fullAt (s.ring ci n).headTag + 2 ≤ s.now)

/-- The number of columns in service. -/
def MatArray.columns (a : MatArray) : Nat := Config.arrayColumns - 8 * a.fences.length

/-- A core's matrix request, if it has a runnable one (R247). A context being pre-empted starts no port instruction past the cut (R186). DESIGN CHOICE
(log 18): an MSAVE, too, reads an accumulator no earlier than six cycles after its last step, which R180 and R296 say of MSTA alone. -/
def State.matrixRequest (s : State) (ci : Nat) : Option PortEntry :=
  match (s.core ci).port with
  | [] => none
  | p :: _ =>
    let cut := (s.ctx p.sid).heldForSave && decide ((s.ctx p.sid).serial ≤ p.serial)
    let k := s.core ci
    let ok := match p.i with
      | .mma c a b _ _ _ =>
        decide (0 < (s.clu (coreCluster ci)).arr.columns) &&
          (p.started || (s.headReady ci a.toNat && s.headReady ci b.toNat && s.portClear ci p && decide (k.accGap.getD c.toNat 0 ≤ s.now)))
      | .mzero _ => true
      | .mtest => true
      | .msta _ n _ _ => s.portClear ci p && decide (k.accAt.getD n.toNat 0 ≤ s.now)
      | .msave _ => s.portClear ci p && k.accAt.all fun t => decide (t ≤ s.now)
      | _ => s.portClear ci p
    if !p.done && !cut && decide (p.at_ < s.now) && ok then some p else none

/-- A port instruction's record changed; the head of the port. -/
def State.modPortHead (s : State) (ci : Nat) (f : PortEntry → PortEntry) : State :=
  s.modCore ci fun k => { k with port := match k.port with
    | [] => []
    | p :: l => f p :: l }

/-- The element an MSTA stores (R184). -/
def accOut (t : BitVec 4) (c : Nat) : Nat :=
  let x := fmt32.value c
  match t.toNat with
  | 0 => if x.isNaN then fmt32.nanCode else c
  | 1 => (floatToFloat .rne false fmt16 x).1
  | 2 => (floatToFloat .rne false fmtBf16 x).1
  | 3 => (floatToFloat .rne true fmtE4M3 x).1
  | 4 => (floatToFloat .rne false fmtE5M2 x).1
  | 5 => (floatToInt .rne true 32 x).1
  | _ => (floatToInt .rne true 8 x).1

/-- The element an MLDA loads, widened exactly to binary32 (R184). -/
def accIn (t : BitVec 4) (v : Nat) : Nat :=
  let f := match t.toNat with
    | 0 => fmt32
    | 1 => fmt16
    | _ => fmtBf16
  (floatToFloat .rne false fmt32 (f.value v)).1

/-- The accumulators with the shape registers, the format context and MPROG that an MSAVE took at its issue, as the save area holds them (R171,
Table 09-5). -/
def CoreSt.saveImage (k : CoreSt) (p : PortEntry) : Nat :=
  let rows := packWhole 2048 ((List.range 64).map fun r => (Tab.get 0 k.acc r).toNat)
  let shs := packWhole 128 (p.shs.map BitVec.toNat)
  let f := p.fmt
  let fm := packWhole 64 [f.fa + f.fb * 2 ^ 8 + f.gs * 2 ^ 16, f.ascale.toNat, f.azp.toNat, f.bscale.toNat, f.bzp.toNat, 0, 0, 0]
  rows + 2 ^ (8 * 16384) * shs + 2 ^ (8 * 16512) * fm + 2 ^ (8 * 16576) * p.mprog.toNat

/-- The matrix state read back from a save area (Table 09-5). DEDUCED (log 6): MRSTR checks nothing of what it reads (R171: a port instruction that
has passed its checks never traps), so a format context of no valid record is loaded as its fields are, and the next MFMT replaces it. -/
def CoreSt.loadImage (k : CoreSt) (v : Nat) : CoreSt :=
  { k with
    acc := (List.range 64).foldl (fun t r => Tab.set 0 t r (BitVec.ofNat 2048 (v / 2 ^ (2048 * r)))) []
    sh := (List.range 8).foldl (fun t n => Tab.set 0 t n (shapeStored (BitVec.ofNat 128 (v / 2 ^ (8 * 16384 + 128 * n))))) []
    fmt := fmtOf (v / 2 ^ (8 * 16512))
    mprog := w64 (v / 2 ^ (8 * 16576)) &&& 0x9F000000FFFFFFFF }

/-- The matrix state after an MRSTR: MPROG.V is clear where an instruction that ends what it says has issued since (R187). -/
def CoreSt.restored (k : CoreSt) (p : PortEntry) : CoreSt :=
  let k1 := k.loadImage p.img
  if p.clearV then { k1 with mprog := k1.mprog &&& 0x7FFFFFFFFFFFFFFF } else k1

/-- The effect of a MZERO (R182). -/
def State.zeroAcc (s : State) (ci : Nat) (c : BitVec 2) : State := s.modCore ci fun k =>
  let z (k : CoreSt) (n : Nat) : CoreSt := if c = 3 ∨ c.toNat = n then k.setRows n 32 fun _ _ => 0 else k
  z (z k 0) 1

/-- The columns of row `i` of a transfer whose elements lie in a line. -/
def PortEntry.colsIn (p : PortEntry) (t : BitVec 4) (i line : Nat) : List Nat :=
  (List.range (ctlCols p.ctl)).filter fun j => decide ((p.base + i * ctlStride p.ctl + j * accBytes t) / 16 = line)

/-- One line of a transfer moved (R184, R190). -/
def State.moveLine (s : State) (ci : Nat) (p : PortEntry) (line : Nat) : State :=
  let cl := coreCluster ci
  match p.i with
  | .mlda t n _ _ =>
    let e := accBytes t
    let mem := (s.clu cl).spad
    s.modCore ci fun k => k.setRows n.toNat (ctlRows p.ctl) fun i row =>
      let js := p.colsIn t i line
      if js.isEmpty then row
      else setRow row (js.headD 0) (js.headD 0 + js.length) fun j _ => accIn t (mem.readN (p.base + i * ctlStride p.ctl + j * e) e)
  | .msta t n _ _ =>
    let e := accBytes t
    (List.range (ctlRows p.ctl)).foldl (fun s i =>
      let js := p.colsIn t i line
      if js.isEmpty then s
      else
        let row := (Tab.get 0 (s.core ci).acc (32 * n.toNat + i)).toNat
        s.spadWrite cl (p.base + i * ctlStride p.ctl + js.headD 0 * e) (js.length * e)
          (packWhole (8 * e) (js.map fun j => accOut t (row / 2 ^ (32 * j) % 2 ^ 32)))) s
  | .msave _ => s.spadWrite cl (16 * line) 16 ((s.core ci).saveImage p / 2 ^ (128 * (line - p.base / 16)))
  | .mrstr _ => s.modCore ci fun k => { k with port := match k.port with
      | [] => []
      | q :: l => { q with img := q.img + 2 ^ (128 * (line - p.base / 16)) * Memory.readN (s.clu cl).spad (16 * line) 16 } :: l }
  | _ => s

/-- The first core at or after `c` in the order of R248 with a runnable request. -/
def State.nextRequest (s : State) (cl h : Nat) : Option Nat :=
  ([h + 1, h + 2, h + 3, h].map fun c => c % 4).find? fun c => (s.matrixRequest (4 * cl + c)).isSome

/-- A cluster's array changed. -/
def State.modArr (s : State) (cl : Nat) (f : MatArray → MatArray) : State := s.modClu cl fun c => { c with arr := f c.arr }

/-- The matrix slots that lines take: the most of any bank (R184). -/
def lineLoad (ls : List Nat) : Nat := ((List.range 32).map fun k => ls.countP fun l => decide (l % 32 = k)).foldl Nat.max 0

/-- The distinct lines of each bank that a step reads, the most of any bank (R244). -/
def bankLoad (bytes : List Nat) : Nat := lineLoad (bytes.map fun b => b / 16).eraseDups

/-- The cycles of a step (R180, R244). -/
def PortEntry.stepCycles (p : PortEntry) (ta tb lo hi : Nat) : Nat :=
  let fa := p.fmt.fa
  let fb := p.fmt.fb
  let wa := mWidth fa
  let wb := mWidth fb
  let ks := (List.range p.stepLen).map fun q => p.kdone + q
  let ba := ks.flatMap fun k => (List.range (shM p.sa)).flatMap fun i => elemBytesAt ta wa (planesRead p.sa wa) (elemA p.sa i k)
  let bb := ks.flatMap fun k => (List.range (hi - lo)).flatMap fun j => elemBytesAt tb wb (planesRead p.sb wb) (elemB p.sb k (lo + j))
  Nat.max (ceilDiv p.stepLen (mChunk fa fb / 8)) (2 * bankLoad (ba ++ bb))

/-- MBURST, with 0 read as 16 (Table 12-1). -/
def Cluster.mburst (c : Cluster) : Nat := let b := bitsOf c.clshare.toNat 23 20; if b = 0 then 16 else b

/-- The columns of a step that an MMA is at, from one to before another. -/
def PortEntry.span (p : PortEntry) (cols : Nat) : Nat × Nat := (p.pass * cols, Nat.min (p.pass * cols + cols) (shN p.sb))

/-- The scratchpad lines that the step an MMA is at reads: of its A and B elements (R244), then of its group tables. -/
def PortEntry.stepLines (p : PortEntry) (ta tb lo hi : Nat) : List Nat :=
  let wa := mWidth p.fmt.fa
  let wb := mWidth p.fmt.fb
  let ks := (List.range p.stepLen).map fun q => p.kdone + q
  let ba := ks.flatMap fun k => (List.range (shM p.sa)).flatMap fun i => elemBytesAt ta wa (planesRead p.sa wa) (elemA p.sa i k)
  let bb := ks.flatMap fun k => (List.range (hi - lo)).flatMap fun j => elemBytesAt tb wb (planesRead p.sb wb) (elemB p.sb k (lo + j))
  let ng := ceilDiv (shK p.sa) p.fmt.step
  let g := p.kdone / p.fmt.step
  let tab (t n len : Nat) : List Nat := (List.range n).map fun i => p.tabs.getD t 0 + len * (i * ng + g)
  let groups := if p.fmt.gs = 0 then [] else tab 0 (shM p.sa) 2 ++ tab 1 (shM p.sa) 1 ++ tab 2 (shN p.sb) 2 ++ tab 3 (shN p.sb) 1
  ((ba ++ bb ++ groups).map fun b => b / 16).eraseDups

/-- The newest checkpoint a cluster keeps: the cover of array work that begins now (R366). -/
def Cluster.newestCkpt (c : Cluster) (now : Nat) : Nat := (c.ckpts.head?.map Ckpt.at_).getD (now / Config.interval * Config.interval)

/-- The array and the matrix slots granted to a core's request, whose work begins in cycle `at_` (R180, R247). Array work becomes uncovered with the
first MMA step after the last passing self-test: the cover checkpoint is the newest one then (R366). DESIGN CHOICE (log 18): an MMA keeps the
columns in service at its first grant for all its steps, whatever is fenced or returns meanwhile, also where a pre-emption cuts it. -/
def State.grantPort (s : State) (ci at_ : Nat) : State :=
  let cl := coreCluster ci
  match s.matrixRequest ci with
  | none => s
  | some p =>
    match p.i with
    | .mma _ a b _ _ _ =>
      let cols := if p.started || p.cols != 0 then p.cols else (s.clu cl).arr.columns
      let ta := s.portTile ci [] a.toNat
      let tb := s.portTile ci [] b.toNat
      let n := p.stepCycles ta tb (p.span cols).1 (p.span cols).2
      (s.modPortHead ci fun q => { q with started := true, cols := cols, left := p.stepLines ta tb (p.span cols).1 (p.span cols).2, got := [] }).modArr cl fun a =>
        { a with job := some (.step ci), start := at_, upto := at_ + n, work := a.work + n, cover := some (a.cover.getD ((s.clu cl).newestCkpt s.now)) }
    | .mtest => (s.modPortHead ci fun q => { q with started := true }).modArr cl fun a =>
        { a with job := some (.test (some ci)), start := at_, upto := at_ + 2 }
    | .mzero c => ((s.zeroAcc ci c).modPortHead ci fun q => { q with started := true }).modArr cl fun a =>
        { a with job := some (.move ci), start := at_, upto := at_ + 1 }
    | _ => (s.modPortHead ci fun q => { q with started := true, left := q.lines }).modArr cl fun a =>
        { a with job := some (.move ci), start := at_, upto := at_ + 2 * lineLoad p.lines }

/-- Whether a matrix slot of a cluster's wheel comes in this cycle and has not been used (R241). -/
def State.matrixSlot (s : State) (cl : Nat) : Bool :=
  decide (s.now % 8 < 4) && decide ((s.clu cl).arr.start ≤ s.now) && decide ((s.clu cl).slotAt ≤ s.now)

/-- The product that an array is to run ahead of every core: a self-test product that is due (R248), else a retest of a sub-array that was fenced
2^20 cycles ago (R367). -/
def MatArray.testDue (a : MatArray) (now : Nat) : Option ArrayJob :=
  if a.due then some (.test none)
  else (a.fences.find? fun f => !f.hard && decide (f.since + 2 ^ 20 ≤ now)).map fun f => .retest f.n

/-- That product begun: it takes the array for two cycles (R366, R367). -/
def MatArray.runTest (a : MatArray) (now : Nat) : MatArray := { a with job := a.testDue now, start := now, upto := now + 2 }

/-- A transfer at the head of a core's port gets a matrix slot, or is complete (R184): each slot serves one line in every bank, in the wheel's slots 0 to
3 alone (R241); DEDUCED (log 18): it ends two cycles a slot after it began, or after its last slot. It waits for undo memory, and a self-test product
that is due runs meanwhile (R366). -/
def State.portMove (s : State) (ci : Nat) (p : PortEntry) : State :=
  let cl := coreCluster ci
  let ls := slotServes p.left
  if ls.isEmpty then
    if s.now < (s.clu cl).arr.upto then s
    else
      let s1 := match p.i with
        | .mrstr _ => s.modCore ci fun k => k.restored p
        | _ => s
      (s1.modPortHead ci fun q => { q with done := true }).modArr cl fun a => { a with job := none }
  else if p.stores && s.linesUndoFull cl ls && ((s.clu cl).arr.testDue s.now).isSome then s.modArr cl fun a => a.runTest s.now
  else if !s.matrixSlot cl || (p.stores && s.linesUndoFull cl ls) then s
  else
    let s1 := (ls.foldl (fun s l => s.moveLine ci p l) s).modPortHead ci fun q => { q with left := q.left.filter fun l => !ls.contains l }
    s1.modClu cl fun c => { c with slotAt := s.now + 1, arr := { c.arr with upto := Nat.max c.arr.upto (s.now + 1) } }

/-- A matrix slot of the cycles in which a step of the MMA at the head of a core's port runs serves one line of its operands in every bank (R244,
R272). -/
def State.stepRead (s : State) (ci : Nat) (p : PortEntry) : State :=
  let cl := coreCluster ci
  let ls := slotServes p.left
  if ls.isEmpty || !s.matrixSlot cl || decide ((s.clu cl).arr.upto ≤ s.now) then s
  else (s.modPortHead ci fun q => { q with
      left := q.left.filter fun l => !ls.contains l
      got := q.got ++ ls.map fun l => (l, Memory.readN (s.clu cl).spad (16 * l) 16) }).modClu cl fun c => { c with slotAt := s.now + 1 }

/-- A scratchpad as the array sees it: the lines it was served as they stood then. -/
def withLines (m : Memory) (got : List (Nat × Nat)) : Memory := got.foldl (fun m l => Memory.writeMasked m (16 * l.1) l.2 (allBytes 16) 16) m

/-- The transfer that a self-test product interrupted at the holder, if there is one. -/
def State.interrupted (s : State) (ci : Nat) : Bool :=
  match (s.core ci).port with
  | p :: _ => p.started && !p.done && p.accesses && match p.i with
    | .mma _ _ _ _ _ _ => false
    | _ => true
  | [] => false

/-- A grant boundary of a cluster's array (R248): a product that is due, the rest of a transfer, the holder while its run lasts, or the next
core. -/
def State.boundary (s : State) (cl : Nat) : State :=
  let a := (s.clu cl).arr
  let burst := if a.run = 0 then (s.clu cl).mburst else a.burst
  if (a.testDue s.now).isSome then s.modArr cl fun a => a.runTest s.now
  else if s.interrupted (4 * cl + a.holder) then s.modArr cl fun b => { b with job := some (.move (4 * cl + a.holder)), start := s.now, upto := s.now }
  else if (s.matrixRequest (4 * cl + a.holder)).isSome && decide (a.run < burst) then
    (s.modArr cl fun a => { a with run := a.run + 1, burst := burst }).grantPort (4 * cl + a.holder) s.now
  else match s.nextRequest cl a.holder with
    | none => s
    | some c => (s.modArr cl fun a => { a with holder := c, run := 1, burst := (s.clu cl).mburst }).grantPort (4 * cl + c)
        (if c = a.holder then s.now else s.now + 1)

/-- Whether an instruction is an MZERO. -/
def isMzero : Instr → Bool
  | .mzero _ => true
  | _ => false

/-- MATRIX_GRANT (R244, R247, R248): a grant boundary of a cluster's array, or the next matrix slot of a step or a transfer. -/
def execMatrixGrant (cl : Nat) (s : State) : Out :=
  let a := (s.clu cl).arr
  match a.job with
  | some (.move ci) => match (s.core ci).port with
    | p :: _ => .next (if isMzero p.i && decide (s.now < a.upto) then s else s.portMove ci p)
    | [] => .next (s.modArr cl fun a => { a with job := none })
  | some (.step ci) => match (s.core ci).port with
    | p :: _ => .next (s.stepRead ci p)
    | [] => .next s
  | some _ => .next s
  | none => .next (if s.now < a.upto then s else s.boundary cl)

/-- MMA_STEP (R179): its operands are the lines as matrix slots served them (R272); DEDUCED (log 18): a line that found no matrix slot within the step's
cycles, which R244 may make fewer, is read as the step ends. The step an MMA was granted completes. Its accumulator may be stored six cycles after the step's last, and where K is no multiple
of the step the next MMA on it starts no earlier (R180). -/
def execMmaStep (ci : Nat) (s : State) : Out :=
  let cl := coreCluster ci
  if (s.clu cl).arr.job ≠ some (.step ci) || decide (s.now < (s.clu cl).arr.upto) then .next s
  else match (s.core ci).port with
    | [] => .next s
    | p :: _ =>
      match p.i with
      | .mma c a b _ _ m =>
        let mem := withLines (s.clu cl).spad p.got
        let ta := s.portTile ci [] a.toNat
        let tb := s.portTile ci [] b.toNat
        let lo := (p.span p.cols).1
        let hi := (p.span p.cols).2
        let k' := p.kdone + p.stepLen
        let last := decide (shK p.sa ≤ k')
        let end_ := last && decide (shN p.sb ≤ hi)
        let free := (s.clu cl).arr.upto + 5
        let s1 := s.modCore ci fun k => { k.setRows c.toNat (shM p.sa) (fun i row => setRow row lo hi (p.element mem ta tb m i)) with
          accAt := if end_ then k.accAt.set c.toNat free else k.accAt
          accGap := if end_ && decide (shK p.sa % p.fmt.step ≠ 0) then k.accGap.set c.toNat free else k.accGap }
        .next ((s1.modPortHead ci fun q => { q with
            pass := if last && !end_ then q.pass + 1 else q.pass
            kdone := if last && !end_ then 0 else k'
            left := [], got := []
            done := end_ }).modArr cl fun a => { a with job := none })
      | _ => .next s

/-- PORT_RETIRE (R170): the oldest port instruction of a core whose last effect is complete retires; an MMA pops its rings (R179) and makes
a self-test product due (R366). DESIGN CHOICE (log 18): a ring whose head tile is no longer FULL then, since a TTAG of another core emptied it or
rewrote its tag, is not popped, as a port instruction never traps (R171). -/
def execPortRetire (ci : Nat) (s : State) : Out :=
  match (s.core ci).port with
  | [] => .next s
  | p :: l =>
    if !p.done then .next s
    else
      let s1 := s.modCore ci fun k => { k with port := l }
      let s2 := p.pops.foldl (fun s n => if s.headFull ci n then s.popRing ci n (s.ctx p.sid).taints else s) s1
      match p.i with
      | .mma _ _ _ _ _ _ => .next (s2.modArr (coreCluster ci) fun a => { a with due := true })
      | _ => .next s2

end Sys2Proof.Machine
end

