-- ==== Sys2Proof/Machine/Tile.lean ====
section
/-!
DEFINITION. The tile forms (R196 to R203).
-/

namespace Sys2Proof.Machine

/-- Whether the port instructions of a core keep a tile form back: one names its ring, or a ring that holds its tag (R185, R197). -/
def State.tilePort (s : State) (i : Instr) : Bool :=
  let ci := slotCore s.cur
  let tagOf (a : BitVec 5) : Bool := s.tagInPort ci ((s.me.rx a).toNat % 4096)
  match i with
  | .rdef n _ _ => s.ringInPort ci n.toNat
  | .rpop n => s.ringInPort ci n.toNat
  | .rpush n => s.ringInPort ci n.toNat
  | .texp a _ => tagOf a
  | .ttag _ a _ => tagOf a
  | .twait _ a _ => tagOf a
  | _ => false

/-- Whether a tile form publishes a tile: it waits for the context's earlier scratchpad accesses, those of the port among them (R200, R202, R289). -/
def State.tilePublishes (s : State) (i : Instr) : Bool :=
  match i with
  | .rpush _ => true
  | .ttag _ _ b => decide (s.me.rx b = 2 ∨ s.me.rx b = 3)
  | _ => false

/-- What a tile form waits for besides its registers: R119 and R160, a ring or tag in the port (R185, R197), and for a publishing form the context's
earlier scratchpad accesses (R200). -/
def State.tileWaits (s : State) (i : Instr) : Option Cause :=
  firstCause [s.memHolds, if s.tilePort i then some .matrixWait else none,
    if s.tilePublishes i && (!s.me.pend.isEmpty || s.portAccesses s.cur) then some .fence else none]

/-- The tag a tile form acts on, whose bank serves it; RDEF's is its ring's first (DEDUCED, log 6). -/
def State.formTag (s : State) (i : Instr) : Nat :=
  let ring (n : BitVec 4) : Ring := s.ring (slotCore s.cur) n.toNat
  match i with
  | .rdef _ _ b => (s.me.rx b).toNat % 4096
  | .rpop n => (ring n).headTag
  | .rpush n => (ring n).tailTag
  | .texp a _ => (s.me.rx a).toNat % 4096
  | .ttag _ a _ => (s.me.rx a).toNat % 4096
  | .twait _ a _ => (s.me.rx a).toNat % 4096
  | _ => 0

/-- A tile form: refused in a visitor slot (R197); else it is performed at the bank unit, and no later instruction issues before it is. -/
def State.tileForm (s : State) (i : Instr) (rs wr : List (BitVec 5)) : Res :=
  if isVisitor s.cur then .trap .visitorFault (wordOf i)
  else s.regs rs wr (
    match s.tileWaits i with
    | some k => .wait k
    | none =>
      .ok (s.upd fun c => { c with
        pend := c.pend ++ [{ op := .form i, cl := slotCluster s.cur, tags := true, off := 8 * s.formTag i, size := 8, serial := c.serial }]
        act := .stalled .slotWait }))

/-- A range of the scratchpad that overlaps another context's private allocation: the address of its first such byte (R18). -/
def State.privFirst (s : State) (off size : Nat) : Option Word :=
  ((List.range (ceilDiv size 64)).find? fun n => s.privHit s.cur (off + 64 * n) 64).map fun n => w64 (0xF0 * 2 ^ 48 + off + 64 * n)

/-- RDEF's effect (R198). -/
def rdefPerform (n : BitVec 4) (a b : BitVec 5) (s : State) : Res :=
  let x := (s.me.rx a).toNat
  let y := (s.me.rx b).toNat
  let base := bitsOf x 19 0
  let size := bitsOf x 39 20
  let tag0 := bitsOf y 11 0
  let count := bitsOf y 24 12
  let ci := slotCore s.cur
  let cl := slotCluster s.cur
  if base % 64 ≠ 0 ∨ size % 64 ≠ 0 ∨ size = 0 ∨ count = 0 ∨ 4096 < count ∨ 4096 < tag0 + count ∨ Config.spadBytes < base + size * count ∨
      (s.ring ci n.toNat).mode ≠ 0 then .trap .tileFault (n.zeroExtend 64)
  else match s.privFirst base (size * count) with
    | some p => .trap .privViolation p
    | none =>
      let s1 := s.modRing ci n.toNat fun _ => { base := base, size := size, tag0 := tag0, count := count, valid := true }
      .ok ((List.range count).foldl (fun s t => s.putTag cl (tag0 + t) (tagFresh (s.tag cl (tag0 + t)))) s1).adv

/-- RPOP's effect (R199). -/
def rpopPerform (n : BitVec 4) (s : State) : Res :=
  let ci := slotCore s.cur
  let r := s.ring ci n.toNat
  if !r.valid || decide (r.mode = 2) then .trap .ringFault (wordOf (.rpop n))
  else if !s.headFull ci n.toNat then .trap .tileFault (w64 r.headTag)
  else .ok (s.popRing ci n.toNat s.me.taints).adv

/-- RPUSH's effect (R200). -/
def rpushPerform (n : BitVec 4) (s : State) : Res :=
  let ci := slotCore s.cur
  let cl := slotCluster s.cur
  let r := s.ring ci n.toNat
  let w := s.tag cl r.tailTag
  if !r.valid || decide (r.mode = 1) then .trap .ringFault (wordOf (.rpush n))
  else if !tagFillable w then .trap .tileFault (w64 r.tailTag)
  else .ok ((s.putTag cl r.tailTag (emptied w (tagCons w) true) s.me.taints).modRing ci n.toNat fun r => { r with tail := r.after r.tail }).adv

/-- TEXP's effect (R201). -/
def texpPerform (a b : BitVec 5) (s : State) : Res :=
  let x := s.me.rx a
  let n := (s.me.rx b).toNat
  let t := x.toNat % 4096
  let cl := slotCluster s.cur
  let w := s.tag cl t
  let bal := tagBal w - n
  if 4096 ≤ x.toNat || !tagValid w || tagFull w || tagExp w || tagOvr w || decide (n = 0 ∨ Config.spadBytes < n) || balOut bal ||
      decide (0 < bal) then .trap .tileFault (w64 t)
  else .ok (s.expectTag cl t n s.me.taints).adv

/-- TTAG's effect (R202). -/
def ttagPerform (d a b : BitVec 5) (s : State) : Res :=
  let x := s.me.rx a
  let op := (s.me.rx b).toNat
  let t := x.toNat % 4096
  let cl := slotCluster s.cur
  let w := s.tag cl t
  let fault : Res := .trap .tileFault (w64 t)
  let done (s : State) : Res := .ok ((s.upd fun c => (c.wx d w).usableAt d .slotWait (s.now + 3)).adv)
  if 4096 ≤ x.toNat then fault
  else match op with
    | 0 => done s
    | 1 => done (s.putTag cl t (tagFresh w))
    | 2 => if tagValid w && !tagFull w && !tagExp w && !tagOvr w && decide (tagBal w = 0) then done (s.putTag cl t (emptied w (tagCons w) true) s.me.taints) else fault
    | 3 => if tagValid w && tagFull w then
        done (s.putTag cl t (tagRules (tagWaitBits w) (tagOvr w) true (tagCons w) false (tagExp w) 0)) else fault
    | 4 => done ((s.wakeTags cl t true 3).putTag cl t 0)
    | _ => fault

/-- TWAIT's effect (R203): it ends at once, or its context sleeps. -/
def twaitPerform (d a b : BitVec 5) (s : State) : Res :=
  let x := s.me.rx a
  let timeout := s.me.rx b
  let t := x.toNat % 4096
  let cond := bitsOf x.toNat 13 12
  let cl := slotCluster s.cur
  let w := s.tag cl t
  if bitsOf x.toNat 63 14 ≠ 0 || decide (2 ≤ cond) || !tagValid w then .trap .tileFault (w64 t)
  else if tagMeets w (cond = 1) then
    .ok ((s.upd fun c => { (c.wx d 0).usableAt d .slotWait (s.now + 3) with acq := some .slotWait }.acquireEnds s.now (s.now + 3)).adv)
  else if timeout = 0 then .ok ((s.upd fun c => (c.wx d 2).usableAt d .slotWait (s.now + 3)).adv)
  else .ok ((s.modClu cl fun c => { c with tags := Tab.set 0 c.tags t (w ||| ((waitBit s.cur).zeroExtend 64 <<< 32)) }).upd fun c =>
    { c with act := .waitTag d t (cond = 1) (if timeout = BitVec.allOnes 64 then none else some (s.now + timeout.toNat)) })

/-- RDEF (R198). -/
def execRdef (n : BitVec 4) (a b : BitVec 5) (s : State) : Out := finish s (s.tileForm (.rdef n a b) [a, b] [])
/-- RPOP (R199). -/
def execRpop (n : BitVec 4) (s : State) : Out := finish s (s.tileForm (.rpop n) [] [])
/-- RPUSH (R200). -/
def execRpush (n : BitVec 4) (s : State) : Out := finish s (s.tileForm (.rpush n) [] [])
/-- TEXP (R201). -/
def execTexp (a b : BitVec 5) (s : State) : Out := finish s (s.tileForm (.texp a b) [a, b] [])
/-- TTAG (R202). -/
def execTtag (d a b : BitVec 5) (s : State) : Out := finish s (s.tileForm (.ttag d a b) [a, b] [d])
/-- TWAIT (R203). -/
def execTwait (d a b : BitVec 5) (s : State) : Out := finish s (s.tileForm (.twait d a b) [a, b] [d])

/-- A resident slot's WAIT bit on a tag cleared (R203). -/
def State.clearWait (s : State) (sid t : Nat) : State :=
  s.modClu (slotCluster sid) fun c => { c with tags := Tab.set 0 c.tags t (Tab.get 0 c.tags t &&& ~~~((waitBit sid).zeroExtend 64 <<< 32)) }

/-- TWAIT_TIMEOUT (R203): T cycles have passed for a sleeping TWAIT. -/
def execTwaitTimeout (sid : Nat) (s : State) : Out :=
  match (s.ctx sid).act with
  | .waitTag _ t _ (some u) => .next (if u ≤ s.now then (s.clearWait sid t).modCtx sid fun c => c.wakeTag 2 s.now else s)
  | _ => .next s

/-- WAIT_TIMEOUT (R129): T cycles have passed for a sleeping WAIT; its entry is removed. -/
def execWaitTimeout (sid : Nat) (s : State) : Out :=
  match (s.ctx sid).act with
  | .waitWord d (some u) =>
    .next (if u ≤ s.now then
      (s.modClu (slotCluster sid) fun k => { k with waiters := k.waiters.filter fun w => w.sid ≠ sid }).modCtx sid fun c => c.wake d 2 s.now
      else s)
  | _ => .next s

end Sys2Proof.Machine
end

