-- ==== Sys2Proof/Machine/Engine.lean ====
section
/-!
DEFINITION. The engine forms and the transfer engines (R204 to R214).
-/

namespace Sys2Proof.Machine

/-- A field of a block read as a signed number of `w` bits. -/
def sField (v hi lo : Nat) : Int := (BitVec.ofNat (hi + 1 - lo) (bitsOf v hi lo)).toInt

/-- A byte address moved by a signed offset. -/
def addOff (a : Word) (o : Int) : Word := a + BitVec.ofInt 64 o

/-! XCOPY blocks (Table 10-6). -/

/-- The fields of an XCOPY block. -/
structure CopyBlk where
  src : Word
  dst : Word
  n0 : Nat
  n1 : Nat
  n2 : Nat
  /-- element size in bytes -/
  e : Nat
  tag : Nat
  ss1 : Int
  ss2 : Int
  ds1 : Int
  ds2 : Int
  o0 : Int
  o1 : Int
  e0 : Nat
  e1 : Nat
  handler : BitVec 56
  clip : Bool
  ui : Bool
  tv : Bool
  xid : BitVec 32
  prog : Nat
  reserved : Bool
  deriving DecidableEq, Repr

/-- The block read from 64 bytes. -/
def copyBlk (v : Nat) : CopyBlk :=
  let w := blockWord v
  { src := w64 (w 0), dst := w64 (w 1), n0 := bitsOf (w 2) 15 0, n1 := bitsOf (w 2) 31 16, n2 := bitsOf (w 2) 47 32
    e := 2 ^ bitsOf (w 2) 49 48, tag := bitsOf (w 2) 61 50, ss1 := sField (w 3) 31 0, ss2 := sField (w 3) 63 32
    ds1 := sField (w 4) 31 0, ds2 := sField (w 4) 63 32, o0 := sField (w 5) 15 0, o1 := sField (w 5) 31 16
    e0 := bitsOf (w 5) 47 32, e1 := bitsOf (w 5) 63 48, handler := BitVec.ofNat 56 (w 6), clip := (w 6).testBit 56, ui := (w 6).testBit 57
    tv := (w 6).testBit 58, xid := BitVec.ofNat 32 (w 7), prog := bitsOf (w 7) 63 32
    reserved := decide (bitsOf (w 2) 63 62 ≠ 0 ∨ bitsOf (w 6) 63 59 ≠ 0) }

/-- Whether box element (i, j) is moved (R206). -/
def CopyBlk.moves (b : CopyBlk) (i j : Nat) : Bool :=
  !b.clip || decide (0 ≤ b.o0 + i ∧ b.o0 + i < b.e0 ∧ 0 ≤ b.o1 + j ∧ b.o1 + j < b.e1)
/-- The source address of box element (i, j, k). -/
def CopyBlk.srcAt (b : CopyBlk) (i j k : Nat) : Word := addOff b.src (k * b.ss2 + j * b.ss1 + i * b.e)
/-- The destination address of box element (i, j, k). -/
def CopyBlk.dstAt (b : CopyBlk) (i j k : Nat) : Word := addOff b.dst (k * b.ds2 + j * b.ds1 + i * b.e)

/-- The rows of a box: (j, k) pairs in order. -/
def CopyBlk.rows (b : CopyBlk) : List (Nat × Nat) := (List.range (b.n1 * b.n2)).map fun r => (r % b.n1, r / b.n1)
/-- The elements a row moves. -/
def CopyBlk.row (b : CopyBlk) (j : Nat) : List Nat := (List.range b.n0).filter fun i => b.moves i j

/-- The window byte of a pointer. -/
def topOf (a : Word) : Nat := bitsOf a.toNat 63 48
/-- Whether a pointer lies in 0xF0 or 0xF1. -/
def inSpad (a : Word) : Bool := decide (topOf a = 0xF0 ∨ topOf a = 0xF1)
/-- Whether a pointer lies in the global window. -/
def inGlobal (a : Word) : Bool := decide (topOf a < 0xF0)

/-- A pointer as a place to compare byte ranges at: its window's storage, and the offset there. -/
def Ctx.storeOff (c : Ctx) (a : Word) : Bool × Int := if inSpad a then (true, (c.scratchOff a : Int)) else (false, (a.toNat : Int))

/-- The first byte and the end of the byte range a box spans along its strides. -/
def boxSpan (n0 n1 n2 e : Nat) (s1 s2 : Int) : Int × Int :=
  let lo (n : Nat) (s : Int) : Int := if s < 0 then (n - 1 : Int) * s else 0
  let hi (n : Nat) (s : Int) : Int := if s < 0 then 0 else (n - 1 : Int) * s
  (lo n1 s1 + lo n2 s2, hi n1 s1 + hi n2 s2 + n0 * e)

/-- Whether the bounding ranges of source and destination overlap (R206). -/
def CopyBlk.overlap (b : CopyBlk) (c : Ctx) : Bool :=
  let s := c.storeOff b.src
  let d := c.storeOff b.dst
  let x := boxSpan b.n0 b.n1 b.n2 b.e b.ss1 b.ss2
  let y := boxSpan b.n0 b.n1 b.n2 b.e b.ds1 b.ds2
  s.1 == d.1 && decide (s.2 + x.1 < d.2 + y.2 ∧ d.2 + y.1 < s.2 + x.2)

/-- The tile of a tag, through a ring of one of the cluster's cores; DEDUCED (log 6): a tag of no ring has no tile that a check could use. -/
def State.tileOf (s : State) (cl tag : Nat) : Option (Nat × Nat) :=
  (((List.range 64).map fun n => s.ring (4 * cl + n / 16) (n % 16)).find? fun r => r.valid && decide (r.tag0 ≤ tag ∧ tag < r.tag0 + r.count)).map fun r =>
    (r.tile (tag - r.tag0), r.size)

/-- Whether every destination byte that a box moves lies in the tile of its tag, and the tag is valid (R206). -/
def State.copyTagOk (s : State) (b : CopyBlk) : Bool :=
  tagValid (s.tag (slotCluster s.cur) b.tag) && inSpad b.dst &&
    match s.tileOf (slotCluster s.cur) b.tag with
    | none => true
    | some (base, size) => b.rows.all fun p => (b.row p.1).all fun i =>
      let off := s.me.scratchOff (b.dstAt i p.1 p.2)
      decide (base ≤ off ∧ off + b.e ≤ base + size)

/-- The pieces of a box on one side that the transfer will touch: those of the rows from PROG on (R205, R206). -/
def CopyBlk.pieces (b : CopyBlk) (f : Nat → Nat → Nat → Word) : List (Word × Nat) :=
  (b.rows.drop b.prog).flatMap fun p => (b.row p.1).map fun i => (f i p.1 p.2, b.e)

/-- The first misaligned address of a box on one side. -/
def sideMisaligned (a : Word) (s1 s2 : Int) (e : Nat) : Option Word :=
  if a.toNat % e ≠ 0 then some a else if s1 % e ≠ 0 then some (addOff a s1) else if s2 % e ≠ 0 then some (addOff a s2) else none

/-- The checks of XCOPY's fields, then of the scratchpad bytes that it will touch (R205, R206); `a` is the block's address. -/
def State.copyFault (s : State) (a : Word) (b : CopyBlk) : Option (Trap × Word) :=
  let bad := (Trap.engineInvalid, a)
  let k := s.myCore
  if b.reserved || decide (b.n0 = 0 ∨ b.n1 = 0 ∨ b.n2 = 0) || decide (b.handler.toNat % 4 ≠ 0) || (k.xfers.any fun x => x.xid == b.xid) then some bad
  else if !(inSpad b.src || inGlobal b.src) then some (.windowFault, b.src)
  else if !(inSpad b.dst || inGlobal b.dst) then some (.windowFault, b.dst)
  else match sideMisaligned b.src b.ss1 b.ss2 b.e with
    | some x => some (.misaligned, x)
    | none => match sideMisaligned b.dst b.ds1 b.ds2 b.e with
      | some x => some (.misaligned, x)
      | none =>
        if b.overlap s.me || (b.tv && !s.copyTagOk b) then some bad
        else match (if inSpad b.src then s.scratchCheck false (b.pieces b.srcAt) else none) with
          | some t => some t
          | none => if inSpad b.dst then s.scratchCheck false (b.pieces b.dstAt) else none

/-! Inbox entries (R9, R205, R211). -/

/-- Whether a core's inbox has no place left to reserve (R9): an entry popped holds its place until the instruction that popped it retires (R94). -/
def State.inboxFull (s : State) (ci : Nat) : Bool :=
  decide (Config.inboxEntries ≤ (s.core ci).inbox.length + (s.core ci).reserved + s.inboxHeld ci)

/-- An inbox entry written in a reserved place. -/
def State.postEntry (s : State) (ci tag : Nat) (w0 w1 : Word) : State :=
  s.modCore ci fun k => { k with reserved := k.reserved - 1, inbox := k.inbox ++ [{ tag := tag, w0 := w0, w1 := w1, half := false }] }

/-- The kind of an engine inbox entry. -/
def XferKind.code : XferKind → Nat
  | .copy => 1
  | .sub => 2
  | .drain => 3

/-- A transfer's record, taken into a core's engine slots with its inbox reservation (R205). -/
def State.newXfer (s : State) (kind : XferKind) (xid : BitVec 32) (a : Word) (held : Bool) (ring prog : Nat) : State :=
  let c := s.me
  s.updCore fun k => { k with
    reserved := k.reserved + 1
    xfers := k.xfers ++ [{
      kind := kind, xid := xid, sid := s.cur, block := c.scratchOff a, pc := c.pc, pid := c.pid, part := c.part, mode := c.mode
      priv := c.privBase.toNat, made := s.now, held := held, stopped := false, ring := ring, prog := prog, result := none, overrun := none
      serial := c.serial, taints := c.taints }] }

/-- What a transfer waits for once its checks are passed: an inbox place, an engine slot, a restante entry (R205, R361). -/
def State.xferWait (s : State) (held : Bool) : Option Cause :=
  let k := s.myCore
  if s.inboxFull (slotCore s.cur) || decide (16 ≤ k.xfers.length) then some .chanFull
  else if held && s.restFull (slotCluster s.cur) 1 then some .restanteFull
  else none

/-- XCOPY's effect on its block (R205, R206). -/
def xcopyPerform (a : Word) (s : State) (v : Nat) : Res :=
  let b := copyBlk v
  match s.copyFault a b with
  | some (t, x) => .trap t x
  | none =>
    let held := inSpad b.src || inGlobal b.dst
    match s.xferWait held with
    | some k => .wait k
    | none => .ok (s.newXfer .copy b.xid a held 0 b.prog).adv

/-- An engine form on a block: refused in a visitor slot (R197), then its read (R205). -/
def State.engineForm (s : State) (i : Instr) (a : BitVec 5) : Res :=
  if isVisitor s.cur then .trap .visitorFault (wordOf i)
  else s.memForm [a] [] (s.blockStops i (s.me.rx a) 64 false) (s.blockForm i (s.me.rx a) 64 false)

/-- XCOPY (R206). -/
def execXcopy (a : BitVec 5) (s : State) : Out := finish s (s.engineForm (.xcopy a) a)

/-! XSUB and XDRAIN blocks (Table 10-7). -/

/-- The fields of an XSUB or XDRAIN block. -/
structure WalkBlk where
  addr : Word
  n0 : Nat
  n1 : Nat
  n2 : Nat
  e : Nat
  ss1 : Int
  ss2 : Int
  tn0 : Nat
  ts0 : Int
  tn1 : Nat
  ts1 : Int
  ring : Nat
  mc : Bool
  cx0 : Nat
  cy0 : Nat
  cx1 : Nat
  cy1 : Nat
  xid : BitVec 32
  prog : Nat
  reserved : Bool
  deriving DecidableEq, Repr

/-- The block read from 64 bytes. -/
def walkBlk (v : Nat) : WalkBlk :=
  let w := blockWord v
  { addr := w64 (w 0), n0 := bitsOf (w 1) 15 0, n1 := bitsOf (w 1) 31 16, n2 := bitsOf (w 1) 47 32, e := 2 ^ bitsOf (w 1) 49 48
    ss1 := sField (w 2) 31 0, ss2 := sField (w 2) 63 32, tn0 := bitsOf (w 3) 63 48, ts0 := sField (w 3) 47 0
    tn1 := bitsOf (w 4) 63 48, ts1 := sField (w 4) 47 0, ring := bitsOf (w 5) 35 32, mc := (w 5).testBit 31
    cx0 := bitsOf (w 5) 4 0, cy0 := bitsOf (w 5) 12 8, cx1 := bitsOf (w 5) 20 16, cy1 := bitsOf (w 5) 28 24
    xid := BitVec.ofNat 32 (w 6), prog := bitsOf (w 6) 63 32
    reserved := decide (bitsOf (w 1) 63 50 ≠ 0 ∨ bitsOf (w 5) 63 36 ≠ 0 ∨ w 7 ≠ 0) }

/-- Tiles of a walk. -/
def WalkBlk.tiles (b : WalkBlk) : Nat := b.tn0 * b.tn1
/-- The global box origin of walk tile t (R207). -/
def WalkBlk.origin (b : WalkBlk) (t : Nat) : Word := addOff b.addr (((t / b.tn0 : Nat) : Int) * b.ts1 + ((t % b.tn0 : Nat) : Int) * b.ts0)
/-- The bytes of walk tile t: byte offset in the packed tile, global address of the element (R207). -/
def WalkBlk.elems (b : WalkBlk) (t : Nat) : List (Nat × Word) :=
  (List.range (b.n0 * b.n1 * b.n2)).map fun q =>
    let i := q % b.n0
    let j := q / b.n0 % b.n1
    let k := q / b.n0 / b.n1
    (q * b.e, addOff (b.origin t) ((k : Int) * b.ss2 + (j : Int) * b.ss1 + (i : Int) * b.e))

/-- Whether a ring and its tags are at their RDEF state, MODE apart (R207). -/
def State.ringIdle (s : State) (ci n : Nat) : Bool :=
  let r := s.ring ci n
  r.valid && decide (r.head = 0 ∧ r.tail = 0) &&
    (List.range r.count).all fun t =>
      let w := s.tag (coreCluster ci) (r.tag0 + t)
      tagValid w && tagFillable w

/-- Whether a ring and its tags are at their RDEF state (R207). -/
def State.ringFresh (s : State) (ci n : Nat) : Bool := decide ((s.ring ci n).mode = 0) && s.ringIdle ci n

/-- Whether the multicast rectangle lies within the partition on the issuer's die (R207): every cluster of it belongs to the partition. -/
def State.rectIn (s : State) (b : WalkBlk) : Bool :=
  decide (b.cx0 ≤ b.cx1 ∧ b.cy0 ≤ b.cy1 ∧ b.cx1 < 24 ∧ b.cy1 < 24) &&
    (List.range (b.cx1 + 1 - b.cx0)).all fun x => (List.range (b.cy1 + 1 - b.cy0)).all fun y =>
      s.partOfCluster (clusterAt (clusterDie (slotCluster s.cur)) (b.cx0 + x) (b.cy0 + y)) == some s.me.part

/-- The checks of XSUB's or XDRAIN's block on the issuer's ring (R205, R207). -/
def State.walkBad (s : State) (drain : Bool) (b : WalkBlk) : Bool :=
  let ci := slotCore s.cur
  let r := s.ring ci b.ring
  b.reserved || (s.myCore.xfers.any fun x => x.xid == b.xid) || decide (b.n0 * b.n1 * b.n2 * b.e ≠ r.size) ||
    decide (b.n0 = 0 ∨ b.n1 = 0 ∨ b.n2 = 0 ∨ b.tn0 = 0 ∨ b.tn1 = 0) || !inGlobal b.addr || !s.ringFresh ci b.ring ||
    (if drain then b.mc || decide (b.cx0 ≠ 0 ∨ b.cy0 ≠ 0 ∨ b.cx1 ≠ 0 ∨ b.cy1 ≠ 0) else b.mc && !s.rectIn b)

/-- The ring tiles that a walk touches: those of its walk tiles from PROG on (R205, R207). -/
def WalkBlk.ringTiles (b : WalkBlk) (count : Nat) : List Nat :=
  (List.range count).filter fun t => (List.range (Nat.min count (b.tiles - b.prog))).any fun i => (b.prog + i) % count == t

/-- XSUB's or XDRAIN's effect: the bytes of the ring's tiles are checked (R205), the ring takes its mode, and the request is held back (R208, R210). DEDUCED
(log 6): a drain of a block whose PROG is not 0 begins with the ring tile in which walk tile PROG lies (R207), so HEAD and TAIL name it from then on. -/
def walkPerform (drain : Bool) (a : Word) (s : State) (v : Nat) : Res :=
  let b := walkBlk v
  let r := s.ring (slotCore s.cur) b.ring
  if s.walkBad drain b then .trap .engineInvalid a
  else match (b.ringTiles r.count).findSome? fun t => s.privFirst (r.tile t) r.size with
  | some p => .trap .privViolation p
  | none => match s.xferWait true with
    | some k => .wait k
    | none =>
      let s1 := s.newXfer (if drain then .drain else .sub) b.xid a true b.ring b.prog
      .ok (s1.modRing (slotCore s.cur) b.ring fun r =>
        if drain then { r with mode := 2, head := b.prog % r.count, tail := b.prog % r.count } else { r with mode := 1 }).adv

/-- XSUB (R208). -/
def execXsub (a : BitVec 5) (s : State) : Out := finish s (s.engineForm (.xsub a) a)
/-- XDRAIN (R210). -/
def execXdrain (a : BitVec 5) (s : State) : Out := finish s (s.engineForm (.xdrain a) a)

/-- XUNSUB (R209): the request is held back; an id that names no subscription has no effect. -/
def execXunsub (a : BitVec 5) (s : State) : Out :=
  finish s (
    if isVisitor s.cur then .trap .visitorFault (wordOf (.xunsub a))
    else s.memForm [a] [] [if s.restFull (slotCluster s.cur) 1 then some .restanteFull else none]
      (.ok (s.request .unsub .held 0 0 0 ((s.me.rx a).toNat % 2 ^ 32) 0 0).adv))

/-- What XSTAT returns of a core's transfer: one that a pre-emption stops is still held back, or a subscription, where it is (R213, Table 22-3). -/
def State.xstat (s : State) (ci : Nat) (xid : BitVec 32) : Word :=
  match (s.core ci).xfers.find? fun x => x.xid == xid with
  | none => 0
  | some x =>
    let k := if x.held then 1 else if x.kind = .sub then 4 else if x.stopped then 3 else 2
    w64 (x.prog % 2 ^ 32 * 2 ^ 32 + k)

/-- XSTAT (R213). -/
def execXstat (d a : BitVec 5) (s : State) : Out :=
  finish s (
    if isVisitor s.cur then .trap .visitorFault (wordOf (.xstat d a))
    else s.regs [a] [d] (.ok ((s.upd fun c => c.wx d (s.xstat (slotCore s.cur) ((s.me.rx a).extractLsb' 0 32))).adv)))

/-! The block-transfer engine. -/

/-- A transfer of a core by its id. -/
def State.xfer (s : State) (ci : Nat) (xid : BitVec 32) : Option Xfer := (s.core ci).xfers.find? fun x => x.xid == xid
/-- A transfer changed. -/
def State.modXfer (s : State) (ci : Nat) (xid : BitVec 32) (f : Xfer → Xfer) : State :=
  s.modCore ci fun k => { k with xfers := k.xfers.map fun x => if x.xid = xid then f x else x }

/-- The scratchpad offset of PROG in a transfer's block: word 7 of an XCOPY, word 6 of the others, bits 63:32. -/
def Xfer.progOff (x : Xfer) : Nat := x.block + if x.kind = .copy then 60 else 52

/-- Whether undo memory lacks room for PROG in a transfer's block: the engine's write waits (R358). -/
def State.progFull (s : State) (ci : Nat) (x : Xfer) : Bool := s.undoFull (coreCluster ci) x.progOff 4

/-- PROG written into a transfer's block. -/
def State.writeProg (s : State) (ci : Nat) (x : Xfer) (prog : Nat) : State := s.spadWrite (coreCluster ci) x.progOff 4 prog

/-- XCOPY_START (R206): a held-back XCOPY reaches its release time. -/
def execXcopyStart (ci xid : Nat) (s : State) : Out :=
  let id := BitVec.ofNat 32 xid
  match s.xfer ci id with
  | none => .next s
  | some x => .next (if x.kind = .copy && x.held && !x.stopped && s.releasable (coreCluster ci) x.made x.taints then s.modXfer ci id fun x => { x with held := false } else s)

/-- The physical address of an engine's access, or the code of its fault: a translation fault, or poison that a read or its walk meets
(R211, R376). -/
def State.engineGlobal (s : State) (cl part : Nat) (pid : BitVec 16) (mode : Bool) (acc : Access) (a : Word) (n : Nat) : Except Nat Nat :=
  match (if acc = .write then s.walkPoison cl part pid a.toNat else s.poisonHit cl part pid mode acc a.toNat n) with
  | some _ => .error codeHbmPoison
  | none => match s.translate cl part pid mode acc a.toNat with
    | .error t => .error t.code
    | .ok pa => .ok pa

/-- The bytes an engine of a cluster reads from global memory. -/
def State.engineRead (s : State) (cl pa : Nat) : Nat → Nat
  | 0 => 0
  | n + 1 => s.engineRead cl pa n + s.dieByte (clusterDie cl) (pa + n) * 2 ^ (8 * n)

/-- The lines of HBM that an engine's accesses touch, as far as they translate. -/
def State.engineLines (s : State) (cl part : Nat) (pid : BitVec 16) (mode : Bool) (acc : Access) (l : List Word) : List Nat :=
  (l.filterMap fun a => match s.translate cl part pid mode acc a.toNat with
    | .ok pa => if pa < hostBase then some (lineOf pa) else none
    | .error _ => none).eraseDups

/-- The lines an engine reads at home are accepted there (R279); one that its die has a far copy of is not. -/
def State.engineReads (s : State) (cl : Nat) (rd : List Nat) : State :=
  rd.foldl (fun s n => if (s.farCopy (clusterDie cl) (64 * n)).isSome then s else s.accept (64 * n)) s

/-- The lines that an engine of a cluster must ask a port for, of those it reads. -/
def State.portReads (s : State) (cl : Nat) (rd : List Nat) : List Nat := rd.filter fun n => (s.farCopy (clusterDie cl) (64 * n)).isNone

/-- The first of an engine's global accesses that faults, in order: code and address (R206). -/
def State.firstFault (s : State) (cl part : Nat) (pid : BitVec 16) (mode : Bool) : List (Access × Word × Nat) → Option (Nat × Word)
  | [] => none
  | (acc, a, n) :: l => match s.engineGlobal cl part pid mode acc a n with
    | .error t => some (t, a)
    | .ok _ => s.firstFault cl part pid mode l

/-- The physical address of an engine's access that has not faulted. -/
def State.enginePa (s : State) (cl part : Nat) (pid : BitVec 16) (mode : Bool) (acc : Access) (a : Word) : Nat :=
  match s.translate cl part pid mode acc a.toNat with
  | .ok pa => pa
  | .error _ => 0

/-- Whether an engine's reads of the scratchpad may begin: every earlier scratchpad access of its context is performed (R206). -/
def State.engineClear (s : State) (ci : Nat) (x : Xfer) : Bool :=
  !((s.ctx x.sid).pend.any fun a => decide (a.serial < x.serial)) &&
    !((s.core ci).seq.any fun e => e.sid == x.sid && isVMem e.i && decide (e.serial < x.serial)) &&
    !((s.core ci).port.any fun p => p.sid == x.sid && p.accesses && !p.done && decide (p.serial ≤ x.serial))

/-- A credit put under way (R193). -/
def State.addCredit (s : State) (ci : Nat) (xid : BitVec 32) (dst tag bytes : Nat) (data : Option (Nat × Nat)) : State :=
  { s with
    credits := s.credits ++ [{ n := s.nextId, ci := ci, xid := xid, dst := dst, tag := tag, bytes := bytes, data := data }]
    nextId := s.nextId + 1 }

/-! Units of an engine's work (R243, R272). -/

/-- A unit of work at its start. -/
def mkUnit (w : EngineWork) (ps : List EnginePiece) : EngineLeft :=
  let ls (f : EnginePiece → Option Nat) : List Nat := (ps.flatMap fun p => match f p with
    | some o => linesOf o p.n
    | none => []).eraseDups
  { work := w, pieces := ps, reads := ls EnginePiece.from_, writes := ls EnginePiece.to_, got := [] }

/-- Whether every line of a unit has been served. -/
def EngineLeft.done (u : EngineLeft) : Bool := u.reads.isEmpty && u.writes.isEmpty

/-- The bytes of a piece, once its lines are read. -/
def EngineLeft.value (u : EngineLeft) (p : EnginePiece) : Nat :=
  match p.from_ with
  | none => p.val
  | some o => ((List.range p.n).map fun i =>
    ((u.got.find? fun g => g.1 == (o + i) / 16).map fun g => g.2 / 2 ^ (8 * ((o + i) % 16)) % 256).getD 0 * 2 ^ (8 * i)).sum

/-- A unit of a requester of a cluster. -/
def State.unitOf (s : State) (cl r : Nat) (w : EngineWork) : Option EngineLeft := (Tab.get [] (s.clu cl).eleft r).find? fun u => u.work == w
/-- The units of a requester set. -/
def State.setUnits (s : State) (cl r : Nat) (l : List EngineLeft) : State := s.modClu cl fun c => { c with eleft := Tab.set [] c.eleft r l }
/-- A unit of a requester gone. -/
def State.dropUnit (s : State) (cl r : Nat) (w : EngineWork) : State := s.setUnits cl r ((Tab.get [] (s.clu cl).eleft r).filter fun u => u.work != w)
/-- The units of a stream engine gone. -/
def State.dropEntries (s : State) (ci e : Nat) : State := s.setUnits (coreCluster ci) (3 + 4 * (ci % 4) + e) []

/-- The scratchpad offset of an element of a box, in the window of the box's pointer (R205, R206). -/
def Xfer.spadOff (x : Xfer) (side a : Word) : Nat := (if topOf side = 0xF1 then x.priv else 0) + a.toNat % 2 ^ 48

/-- Whether a transfer's next row may be begun: an XCOPY that reads the scratchpad does so only after every earlier scratchpad access of its context
(R206). -/
def State.rowReady (s : State) (ci : Nat) (x : Xfer) (b : CopyBlk) : Bool :=
  x.kind == .copy && !x.held && !x.stopped && x.result.isNone && decide (x.prog < b.n1 * b.n2) && (!inSpad b.src || s.engineClear ci x)

/-- The unit of a transfer's next row, in the window that its pointers name (R206): what it reads in global memory has its value. -/
def State.rowUnit (s : State) (ci : Nat) (x : Xfer) (b : CopyBlk) : EngineLeft :=
  let j := x.prog % b.n1
  let k := x.prog / b.n1
  let cl := coreCluster ci
  mkUnit (.row ci x.xid.toNat x.prog) ((b.row j).map fun i =>
    { from_ := if inSpad b.src then some (x.spadOff b.src (b.srcAt i j k)) else none
      val := if inSpad b.src then 0 else s.engineRead cl (s.enginePa cl x.part x.pid x.mode .read (b.srcAt i j k)) b.e
      to_ := if inSpad b.dst then some (x.spadOff b.dst (b.dstAt i j k)) else none
      pa := if inSpad b.dst then 0 else s.enginePa cl x.part x.pid x.mode .write (b.dstAt i j k), n := b.e })

/-- The global accesses of a transfer's next row, element by element. -/
def CopyBlk.globals (b : CopyBlk) (prog : Nat) : List (Access × Word × Nat) :=
  let j := prog % b.n1
  let k := prog / b.n1
  (b.row j).flatMap fun i =>
    (if inSpad b.src then [] else [(.read, b.srcAt i j k, b.e)]) ++ (if inSpad b.dst then [] else [(.write, b.dstAt i j k, b.e)])

/-- A row whose lines are all served completes: its global bytes are performed, one write for each line, PROG rises, and its tile is credited (R193, R206). -/
def State.endRow (s : State) (ci : Nat) (x : Xfer) (b : CopyBlk) (u : EngineLeft) : State :=
  let cl := coreCluster ci
  let gs := u.pieces.filterMap fun p => if p.to_.isNone then some (p.pa, p.n, u.value p) else none
  match s.portAsk (((linesOfPieces gs).map Prod.fst).filter fun l => decide (64 * l < hostBase)) (engineRank ci 0) with
  | some t => t
  | none =>
    let s1 := ((s.sliceLines (makerEngine ci) gs).dropUnit cl 0 u.work).modXfer ci x.xid fun x => { x with prog := x.prog + 1 }
    let n := (u.pieces.map EnginePiece.n).sum
    if b.tv && decide (n ≠ 0) then s1.addCredit ci x.xid ci b.tag n none else s1

/-- A row begun: its global bytes are translated, and those of its source read; a fault stops the transfer at its row, with PROG in its block (R206, R211). -/
def State.startRow (s : State) (ci : Nat) (x : Xfer) (b : CopyBlk) : State :=
  let cl := coreCluster ci
  let gs := b.globals x.prog
  let vas := gs.map fun g => g.2.1.toNat
  match s.xlatAsk cl x.part x.pid x.sid vas with
  | some t => t
  | none => match s.firstFault cl x.part x.pid x.mode gs with
    | some (c, a) =>
      if s.progFull ci x then s
      else ((s.xlatDone x.part x.pid x.sid vas).writeProg ci x x.prog).modXfer ci x.xid fun x => { x with result := some (1, c, a.toNat) }
    | none =>
      let rd := s.engineLines cl x.part x.pid x.mode .read ((gs.filter fun g => g.1 == .read).map fun g => g.2.1)
      match s.portAsk (s.portReads cl rd) (engineRank ci 0) with
      | some t => t
      | none =>
        let u := s.rowUnit ci x b
        let s1 := (s.engineReads cl rd).setUnits cl 0 [u]
        if u.done then s1.endRow ci x b u else s1

/-- XCOPY_ROW (R206): the engine begins the next row of the box that its block describes now, or completes the row whose lines have been served. -/
def execXcopyRow (ci xid : Nat) (s : State) : Out :=
  match s.xfer ci (BitVec.ofNat 32 xid) with
  | none => .next s
  | some x =>
    let b := copyBlk (s.spadRead (coreCluster ci) x.block 64)
    match s.unitOf (coreCluster ci) 0 (.row ci x.xid.toNat x.prog) with
    | some u => .next (if u.done then s.endRow ci x b u else s)
    | none => .next (if s.rowReady ci x b && (Tab.get [] (s.clu (coreCluster ci)).eleft 0).isEmpty then s.startRow ci x b else s)

/-- The clipped box of a DONE XCOPY: I_LO, I_HI, J_LO, J_HI (Table 10-8). -/
def CopyBlk.clipped (b : CopyBlk) : Nat :=
  let is : List Nat := if b.clip then (List.range b.n0).filter fun (i : Nat) => decide (0 ≤ b.o0 + i ∧ b.o0 + i < b.e0) else List.range b.n0
  let js : List Nat := if b.clip then (List.range b.n1).filter fun (j : Nat) => decide (0 ≤ b.o1 + j ∧ b.o1 + j < b.e1) else List.range b.n1
  let is' := if js.isEmpty then [] else is
  let js' := if is.isEmpty then [] else js
  let lo (l : List Nat) : Nat := l.headD 0
  lo is' + (lo is' + is'.length) * 2 ^ 16 + lo js' * 2 ^ 32 + (lo js' + js'.length) * 2 ^ 48

/-- The subscription of a core's transfer, while it has not ended. -/
def State.subOf (s : State) (ci : Nat) (xid : BitVec 32) : Option Sub := s.subs.find? fun b => b.ci == ci && b.xid == xid && b.ended.isNone
/-- The drain of a core's transfer, while it has not ended. -/
def State.drainOf (s : State) (ci : Nat) (xid : BitVec 32) : Option Drain := s.drains.find? fun d => d.ci == ci && d.xid == xid && d.ended.isNone

/-- Tiles whole at every receiver. -/
def Sub.complete (b : Sub) : Nat := (b.receivers.map Receiver.got).foldl Nat.min (b.receivers.headD { ci := 0 }).got

/-- The pointer to the first byte of a delivery's tile, DETAIL of TILE_OVERRUN (R211); a tag that no ring names has no tile, and the copy's
destination stands for it; DEDUCED (log 6). -/
def State.tileByte (s : State) (c : Credit) (x : Xfer) : Nat :=
  match s.tileOf (coreCluster c.dst) c.tag, x.kind with
  | some t, _ => 0xF0 * 2 ^ 48 + t.1
  | none, .copy => (copyBlk (s.spadRead (coreCluster c.ci) x.block 64)).dst.toNat
  | none, _ => 0xF0 * 2 ^ 48

/-- TAG_CREDIT (R193): bytes that an engine has written are credited to their tile, once the last of their lines is. -/
def execTagCredit (n : Nat) (s : State) : Out :=
  match s.credits.find? fun c => c.n == n with
  | none => .next s
  | some c =>
    let cl := coreCluster c.dst
    if c.data.isSome then .next s
    else
      let s2 := ({ s with credits := s.credits.filter fun d => d.n ≠ n }).creditTag cl c.tag c.bytes (((s.xfer c.ci c.xid).map Xfer.taints).getD [])
      let s3 := if tagOvr (s2.tag cl c.tag) && !tagOvr (s.tag cl c.tag) then
          s2.modXfer c.ci c.xid fun x => { x with overrun := some (x.overrun.getD (s.tileByte c x)) } else s2
      let s4 : State := { s3 with subs := s3.subs.map fun b =>
        if b.ci = c.ci ∧ b.xid = c.xid ∧ b.ended = none then { b with receivers := b.receivers.map fun r => if r.ci = c.dst then { r with got := r.got + 1 } else r } else b }
      .next (match s4.subOf c.ci c.xid with
        | some b => s4.modXfer c.ci c.xid fun x => { x with prog := b.complete }
        | none => s4)

/-! Subscriptions (R208, R209). -/

/-- The cores a subscription delivers to: the issuer's, and with MC the same-numbered core of every cluster of the rectangle. -/
def WalkBlk.receivers (b : WalkBlk) (ci : Nat) : List Nat :=
  if !b.mc then [ci]
  else
    let die := clusterDie (coreCluster ci)
    let all := (List.range (b.cy1 + 1 - b.cy0)).flatMap fun y => (List.range (b.cx1 + 1 - b.cx0)).map fun x =>
      4 * clusterAt die (b.cx0 + x) (b.cy0 + y) + ci % 4
    if all.contains ci then all else ci :: all

/-- A subscription by its number. -/
def State.sub (s : State) (n : Nat) : Option Sub := s.subs.find? fun b => b.n == n
/-- A subscription changed. -/
def State.modSub (s : State) (n : Nat) (f : Sub → Sub) : State := { s with subs := s.subs.map fun b => if b.n = n then f b else b }

/-- SUBSCRIPTION_SETUP (R208): a released XSUB reaches its loader. DEDUCED (log 6): it begins with the walk tile that the block's PROG names, as a drain
does (R210), and HEAD and TAIL of each receiving ring then name the ring tile in which that lies (R207). DESIGN CHOICE (log 6): DETAIL of a FAULT entry coded SUB_MISMATCH is
0, since there is no faulting address (Table 10-8). Event argument: 2^32 times the core, plus the transfer id. -/
def execSubscriptionSetup (n : Nat) (s : State) : Out :=
  let ci := n / 2 ^ 32
  let id := BitVec.ofNat 32 n
  match s.xfer ci id with
  | none => .next s
  | some x =>
    if x.kind ≠ .sub || !x.held || !s.releasable (coreCluster ci) x.made x.taints then .next s
    else
      let v := s.spadRead (coreCluster ci) x.block 64
      let b := walkBlk v
      let r := s.ring ci b.ring
      let rs := b.receivers ci
      let ok := rs.all fun c => if c = ci then s.ringIdle c x.ring
        else s.ringFresh c b.ring && decide ((s.ring c b.ring).size = r.size ∧ (s.ring c b.ring).count = r.count)
      let s1 := s.modXfer ci id fun x => { x with held := false }
      if !ok then .next ((s1.modXfer ci id fun x => { x with result := some (1, codeSubMismatch, 0) }).modRing ci b.ring fun r => { r with mode := 0 })
      else
        let s2 := rs.foldl (fun s c => s.modRing c b.ring fun r => { r with mode := 1, head := x.prog % r.count, tail := x.prog % r.count }) s1
        .next { s2 with
          subs := s2.subs ++ [{ n := s2.nextId, ci := ci, xid := id, block := v, ring := b.ring, count := r.count
                                receivers := rs.map fun c => { ci := c, begun := x.prog, got := x.prog, freed := x.prog }, sent := x.prog, active := true, cancelled := false
                                pid := x.pid, part := x.part, mode := x.mode }]
          nextId := s2.nextId + 1 }

/-- The tiles every receiver has freed (R208). -/
def Sub.freed (b : Sub) : Nat := (b.receivers.map Receiver.freed).foldl Nat.min (b.receivers.headD { ci := 0 }).freed
/-- The loader's credit: COUNT at the start, one less for each tile sent, one more for each tile that every receiver has freed (R208). -/
def Sub.credit (b : Sub) : Nat := b.count + b.freed - b.sent

/-- A tile's global bytes read by a loader, none of which faults. -/
def State.walkRead (s : State) (cl part : Nat) (pid : BitVec 16) (mode : Bool) (e : Nat) (l : List (Nat × Word)) : Nat :=
  (l.map fun p => s.engineRead cl (s.enginePa cl part pid mode .read p.2) e * 2 ^ (8 * p.1)).sum

/-- Whether the context of a transfer is being or has been pre-empted, so that its engine begins no new tile (R214). -/
def State.xferStopped (s : State) (ci : Nat) (xid : BitVec 32) : Bool :=
  match s.xfer ci xid with
  | some x => x.stopped
  | none => true

/-- The block of a walk transfer as it stands: the engine moves the bytes that changed fields describe (R205). -/
def State.walkNow (s : State) (ci : Nat) (xid : BitVec 32) (block : Nat) : WalkBlk :=
  walkBlk (match s.xfer ci xid with
    | some x => s.spadRead (coreCluster ci) x.block 64
    | none => block)

/-- LOADER_TILE_SEND (R208): the next walk tile is sent to every receiver. It is under way as the messages that TILE_FIRST_BYTE_ARRIVAL takes;
its bytes are those of the home slices now. A translation fault ends the subscription with a FAULT entry; DEDUCED (log 6). -/
def execLoaderTileSend (n : Nat) (s : State) : Out :=
  match s.sub n with
  | none => .next s
  | some b => match s.xfer b.ci b.xid with
    | none => .next s
    | some x =>
      let w := s.walkNow b.ci b.xid b.block
      let cl := coreCluster b.ci
      let as := (w.elems b.sent).map Prod.snd
      let vas := as.map BitVec.toNat
      if !b.active || b.cancelled || b.ended.isSome || decide (b.credit = 0 ∨ w.tiles ≤ b.sent) || x.stopped || x.overrun.isSome then .next s
      else match s.xlatAsk cl b.part b.pid x.sid vas with
        | some t => .next t
        | none => match s.firstFault cl b.part b.pid b.mode (as.map fun a => (.read, a, w.e)) with
          | some (t, a) =>
            .next (((s.xlatDone b.part b.pid x.sid vas).modSub n fun b => { b with active := false }).modXfer b.ci b.xid fun x => { x with result := some (1, t, a.toNat) })
          | none =>
            let rd := s.engineLines cl b.part b.pid b.mode .read as
            match s.portAsk (s.portReads cl rd) (engineRank b.ci 6) with
            | some t => .next t
            | none =>
              let v := s.walkRead cl b.part b.pid b.mode w.e (w.elems b.sent)
              let s1 := (s.engineReads cl rd).modSub n fun b => { b with sent := b.sent + 1 }
              .next (b.receivers.foldl (fun s r => s.send s.now (.tile n r.ci v)) s1)

/-- TILE_FIRST_BYTE_ARRIVAL (R208): the first byte of a receiver's next tile: an expectation of SIZE on the tail's tag, and TAIL advances. -/
def execTileFirstByteArrival (n ci : Nat) (s : State) : Out :=
  match s.net.find? fun m => match m.body with
    | .tile n' c _ => n' == n && c == ci
    | _ => false with
  | none => .next s
  | some m =>
    match m.body, s.sub n with
    | .tile _ _ v, some b =>
      let r := s.ring ci b.ring
      let s1 := ({ s with net := s.net.filter fun x => x.id ≠ m.id }).expectTag (coreCluster ci) r.tailTag r.size
      let s2 := s1.modRing ci b.ring fun r => { r with tail := r.after r.tail }
      .next ((s2.modSub n fun b => { b with receivers := b.receivers.map fun q => if q.ci = ci then { q with begun := q.begun + 1 } else q }).addCredit
        b.ci b.xid ci r.tailTag r.size (some (r.tile r.tail, v)))
    | _, _ => .next { s with net := s.net.filter fun x => x.id ≠ m.id }

/-- BUFFER_FREE_SIGNAL (R208): a released signal leaves, CONS returns to 0, and the tree passes it up. -/
def execBufferFreeSignal (ci ring tag : Nat) (s : State) : Out :=
  match (s.core ci).frees.find? fun f => f.1 == ring && f.2.1 == tag with
  | none => .next s
  | some f =>
    if !s.releasable (coreCluster ci) f.2.2.1 f.2.2.2 then .next s
    else
      let w := s.tag (coreCluster ci) tag
      let s1 := (s.modCore ci fun k => { k with frees := k.frees.erase f }).putTag (coreCluster ci) tag
        (tagRules (tagWaitBits w) (tagOvr w) (tagValid w) false (tagFull w) (tagExp w) (tagBal w))
      .next { s1 with subs := s1.subs.map fun b =>
        if b.ring = ring ∧ b.ended = none then { b with receivers := b.receivers.map fun r => if r.ci = ci then { r with freed := r.freed + 1 } else r } else b }

/-- UNSUBSCRIBE_AT_LOADER (R209): a released XUNSUB reaches the loader; no further tile is sent. -/
def execUnsubscribeAtLoader (id : Nat) (s : State) : Out :=
  match s.req id with
  | some r =>
    if r.kind == ReqKind.unsub && r.stage == ReqStage.sent then
      let hit (b : Sub) : Bool := decide (b.ci = slotCore r.src ∧ b.xid = BitVec.ofNat 32 r.data ∧ b.ended = none)
      .next { (s.dropReq id) with subs := s.subs.map fun b => if hit b then { b with cancelled := true } else b }
    else .next s
  | none => .next s

/-! Drains (R210). -/

/-- DRAIN_START (R210): a released XDRAIN reaches its storer, which reads the scratchpad only after the issuer's earlier accesses (R271). Event argument as for SUBSCRIPTION_SETUP. -/
def execDrainStart (n : Nat) (s : State) : Out :=
  let ci := n / 2 ^ 32
  let id := BitVec.ofNat 32 n
  match s.xfer ci id with
  | none => .next s
  | some x =>
    if x.kind ≠ .drain || !x.held || !s.releasable (coreCluster ci) x.made x.taints || !s.engineClear ci x then .next s
    else
      let v := s.spadRead (coreCluster ci) x.block 64
      .next { (s.modXfer ci id fun x => { x with held := false }) with
        drains := s.drains ++ [{ n := s.nextId, ci := ci, xid := id, block := v, ring := x.ring, prog := x.prog, taken := false, copies := x.copies, active := true
                                 pid := x.pid, part := x.part, mode := x.mode }]
        nextId := s.nextId + 1 }

/-- A drain by its number. -/
def State.drain (s : State) (n : Nat) : Option Drain := s.drains.find? fun d => d.n == n
/-- A drain changed. -/
def State.modDrain (s : State) (n : Nat) (f : Drain → Drain) : State := { s with drains := s.drains.map fun d => if d.n = n then f d else d }

/-- The tiles of a drained ring whose FULL has been released and of which there is no copy yet (R210, R288, Table 24-2). -/
def State.newlyReleased (s : State) (ci ring : Nat) (copies : List (Nat × Nat × Nat)) : List (Nat × Nat × Nat) :=
  let r := s.ring ci ring
  let cl := coreCluster ci
  (List.range r.count).filterMap fun t =>
    let n := r.tag0 + t
    let at_ := Tab.get 0 (s.clu cl).fullAt n
    if tagFull (s.tag cl n) && s.releasable cl at_ (Tab.get [] (s.clu cl).fullBy n) && !(copies.any fun c => c.1 == n && c.2.1 == at_) then
      some (n, at_, s.spadRead cl (r.tile t) r.size)
    else none

/-- The storers see the bytes of the tiles whose FULL is released in this cycle (R288), and the core keeps them for a drain that has not reached its storer; none is once
its partition is frozen (R378). -/
def State.copyReleased (s : State) : State :=
  let waits (x : Xfer) : Bool := x.kind == .drain && x.held && !s.frozenPart x.part
  let copied (ci : Nat) (x : Xfer) : Xfer := if waits x then { x with copies := x.copies ++ s.newlyReleased ci x.ring x.copies } else x
  { s with
    cores := if s.cores.any (fun k => k.2.xfers.any waits) then s.cores.map fun k => (k.1, { k.2 with xfers := k.2.xfers.map (copied k.1) }) else s.cores
    drains := s.drains.map fun d => if d.active && d.ended.isNone && !s.frozenPart d.part then { d with copies := d.copies ++ s.newlyReleased d.ci d.ring d.copies } else d }

/-- A drained ring's head tile as it stood when its FULL was released; none where it is not FULL or not released (R210, R288). -/
def State.headReleased (s : State) (d : Drain) : Option Nat :=
  let cl := coreCluster d.ci
  let n := (s.ring d.ci d.ring).headTag
  if s.headFull d.ci d.ring then (d.copies.find? fun c => c.1 == n && c.2.1 == Tab.get 0 (s.clu cl).fullAt n).map fun c => c.2.2 else none

/-- Whether a storer may take its head tile: it is FULL and released, and the walk goes on (R210, R214). -/
def State.takeReady (s : State) (d : Drain) : Bool :=
  d.active && !d.taken && d.ended.isNone && decide (d.prog < (s.walkNow d.ci d.xid d.block).tiles) && (s.headReleased d).isSome && !s.xferStopped d.ci d.xid

/-- STORER_TAKE_TILE (R210): the storer, which has read the head tile in its slots, writes it to its walk position; a translation fault stops the drain, and
the ring keeps the tile FULL. -/
def execStorerTakeTile (n : Nat) (s : State) : Out :=
  match s.drain n with
  | none => .next s
  | some d => match s.xfer d.ci d.xid, s.headReleased d with
    | some x, some img =>
      let w := s.walkNow d.ci d.xid d.block
      let cl := coreCluster d.ci
      let es := w.elems d.prog
      let vas := es.map fun p => p.2.toNat
      if !s.takeReady d || !(s.unitOf cl 2 (.take n d.prog)).any EngineLeft.done then .next s
      else match s.xlatAsk cl d.part d.pid x.sid vas with
        | some t => .next t
        | none => match s.firstFault cl d.part d.pid d.mode (es.map fun p => (.write, p.2, w.e)) with
          | some (t, a) => .next ((((s.xlatDone d.part d.pid x.sid vas).dropUnit cl 2 (.take n d.prog)).modDrain n fun d => { d with active := false }).modXfer d.ci d.xid fun x =>
              { x with result := some (1, t, a.toNat) })
          | none =>
            let gs := es.map fun p => (s.enginePa cl d.part d.pid d.mode .write p.2, w.e, img / 2 ^ (8 * p.1) % 2 ^ (8 * w.e))
            match s.portAsk (((linesOfPieces gs).map Prod.fst).filter fun l => decide (64 * l < hostBase)) (engineRank d.ci 1) with
            | some t => .next t
            | none => .next (((s.sliceLines (makerEngine d.ci) gs).dropUnit cl 2 (.take n d.prog)).modDrain n fun d => { d with taken := true })
    | _, _ => .next s

/-- STORER_TILE_PERFORMED (R210): every byte of the tile is performed; it becomes EMPTY, HEAD advances and PROG increases. -/
def execStorerTilePerformed (n : Nat) (s : State) : Out :=
  match s.drain n with
  | none => .next s
  | some d =>
    if !d.taken then .next s
    else
      let cl := coreCluster d.ci
      let h := (s.ring d.ci d.ring).headTag
      let w := s.tag cl h
      let s1 := (s.putTag cl h (emptied w (tagCons w) false)).modRing d.ci d.ring fun r => { r with head := r.after r.head }
      .next ((s1.modDrain n fun d => { d with taken := false, prog := d.prog + 1, copies := d.copies.filter fun c => c.1 ≠ h }).modXfer d.ci d.xid fun x => { x with prog := x.prog + 1 })

/-! Completion (R211). -/

/-- Whether no credit of a transfer is outstanding, nor a tile of it under way. -/
def State.xferQuiet (s : State) (ci : Nat) (xid : BitVec 32) : Bool :=
  !(s.credits.any fun c => c.ci == ci && c.xid == xid) &&
    !(s.net.any fun m => match m.body with
      | .tile n _ _ => match s.sub n with
        | some b => b.ci == ci && b.xid == xid
        | none => false
      | _ => false)

/-- The end of a transfer, if it has come: status, code and DETAIL (Table 10-8). -/
def State.xferEnd (s : State) (ci : Nat) (x : Xfer) : Option (Nat × Nat × Nat) :=
  if x.held || x.stopped || !s.xferQuiet ci x.xid then none
  else match x.result with
    | some r => some r
    | none =>
      let overran (r : Nat × Nat × Nat) : Nat × Nat × Nat := match x.overrun with
        | some a => (1, codeTileOverrun, a)
        | none => r
      match x.kind with
      | .copy =>
        let b := copyBlk (s.spadRead (coreCluster ci) x.block 64)
        if b.n1 * b.n2 ≤ x.prog then some (overran (0, 0, b.clipped)) else none
      | .sub =>
        match s.subOf ci x.xid with
        | none => none
        | some b =>
          if b.receivers.all fun r => decide (b.sent ≤ r.got) then
            if x.overrun.isSome then some (overran (0, 0, b.sent))
            else if b.cancelled then some (2, 0, b.sent)
            else if (s.walkNow ci x.xid b.block).tiles ≤ b.sent then some (0, 0, b.sent) else none
          else none
      | .drain =>
        match s.drainOf ci x.xid with
        | none => none
        | some d => if (s.walkNow ci x.xid d.block).tiles ≤ d.prog then some (0, 0, d.prog) else none

/-- The rings a transfer holds in a mode, by core. -/
def State.xferRings (s : State) (ci : Nat) (x : Xfer) : List Nat :=
  match x.kind with
  | .copy => []
  | .drain => [ci]
  | .sub => match s.subOf ci x.xid with
    | some b => b.receivers.map Receiver.ci
    | none => [ci]

/-- ENGINE_COMPLETION_ENTRY (R211): once every byte and credit of a transfer is performed, its inbox entry is written in the reserved place,
its rings return to MODE 0, and an XCOPY with UI requests its interrupt (R212). DESIGN CHOICE (log 6): MODE returns to 0 also with a FAULT entry of a drain, where
R210 says so of DONE alone. -/
def execEngineCompletionEntry (ci xid : Nat) (s : State) : Out :=
  let id := BitVec.ofNat 32 xid
  match s.xfer ci id with
  | none => .next s
  | some x =>
    match s.xferEnd ci x with
    | none => .next s
    | some (status, code, detail) =>
      if s.progFull ci x then .next s else
      let b := copyBlk (s.spadRead (coreCluster ci) x.block 64)
      let w0 := w64 (xid % 2 ^ 32 * 2 ^ 32 + code * 2 ^ 16 + slotTag x.sid * 2 ^ 8 + status * 2 ^ 4 + x.kind.code)
      let s1 := s.writeProg ci x x.prog
      let s2 := (s.xferRings ci x).foldl (fun s c => s.modRing c x.ring fun r => { r with mode := 0 }) s1
      let s3 := (s2.postEntry ci (slotTag x.sid) w0 (w64 detail)).modCore ci fun k => { k with xfers := k.xfers.filter fun y => y.xid ≠ id }
      let end_ (c : Nat) (i : BitVec 32) (e : Option Nat) : Option Nat := if c = ci ∧ i = id then some (e.getD s.now) else e
      let s4 := { s3 with
        subs := s3.subs.map fun b => { b with ended := end_ b.ci b.xid b.ended }
        drains := s3.drains.map fun d => { d with ended := end_ d.ci d.xid d.ended } }
      .next (if x.kind = .copy && b.ui then s4.modCtx x.sid fun c => { c with uints := c.uints ++ [(id, b.handler)] } else s4)

/-- USER_LEVEL_INTERRUPT (R212): the oldest pending interrupt is taken before the next instruction, where it may be; in the order that a
deferred trap comes first (R325). The handler's first instruction issues after three REDIRECT cycles (R109). -/
def execUserLevelInterrupt (sid : Nat) (s : State) : Out :=
  let c := s.ctx sid
  match c.uints with
  | [] => .next s
  | (id, h) :: l =>
    if !c.uintReady || c.act ≠ .running || c.fault.pending || c.heldForSave then .next s
    else .next (s.modCtx sid fun c => { c with uepc := pcWord c.pc, xid := id, ui := true, pc := h, uints := l, uret := c.mret, mret := false, fenceSent := false, markers := [], pause := some (.redirect, s.redirectEnd sid false) })

end Sys2Proof.Machine
end

