-- ==== Sys2Proof/Machine/Registers.lean ====
section
/-!
DEFINITION. Writes of device registers, and the host's accesses (R240, R279, R302, R303, R322, R373, R389, R390).
-/

namespace Sys2Proof.Machine

/-- A queue. -/
def State.queue (s : State) (q : Nat) : Queue := Tab.get {} s.queues q
/-- The state with a queue changed. -/
def State.modQueue (s : State) (q : Nat) (f : Queue → Queue) : State := { s with queues := Tab.set {} s.queues q (f (s.queue q)) }

/-! Queues (R302, R303). -/

/-- The commands announced and not fetched, modulo 2^32. -/
def Queue.ahead (q : Queue) : Nat := (q.qpidx + 2 ^ 32 - q.qcidx % 2 ^ 32) % 2 ^ 32

/-- QUEUE_OVERRUN (R303): an enabled queue whose announced commands exceed its ring is disabled, with a deferred record. -/
def State.overrun (s : State) (q : Nat) : State :=
  let k := s.queue q
  if !k.en || decide (k.ahead ≤ 2 ^ k.log2n) then s
  else
    let r : ErrRec := { cls := 2, engine := 9, code := codeQueueOverrun, time := s.now, detail := q }
    let s1 := s.modQueue q fun k => { k with en := false }
    match k.owner with
    | some p => (s1.recordPart 0 p r).recordInfra 0 { r with part := some p }
    | none => s1.recordInfra 0 r

/-- QPIDX written. -/
def State.setQpidx (s : State) (q v : Nat) : State := (s.modQueue q fun k => { k with qpidx := v % 2 ^ 32 }).overrun q

/-- EN written: a queue owned by no partition ignores EN = 1 (R301). -/
def State.setEn (s : State) (q : Nat) (en : Bool) : State :=
  (s.modQueue q fun k => { k with en := en && (k.owner.isSome || q == monitorQueue) }).overrun q

/-- CQRIDX written. -/
def State.setCqridx (s : State) (q v : Nat) : State := (s.modQueue q fun k => { k with cqridx := v % 2 ^ 32 }).overrun q

/-- QPIDX_WRITE (R303). -/
def execQpidxWrite (q : Nat) (v : Word) (s : State) : Out := .next (s.setQpidx q v.toNat)
/-- QUEUE_ENABLE (R302). -/
def execQueueEnable (q : Nat) (en : Bool) (s : State) : Out := .next (s.setEn q en)
/-- CQRIDX_WRITE (R303). -/
def execCqridxWrite (q : Nat) (v : Word) (s : State) : Out := .next (s.setCqridx q v.toNat)

/-- A log2 field of a queue; DESIGN CHOICE (log 7): a value outside 4 to 16 is stored as the nearest of them. -/
def queueLog (v : Nat) : Nat := Nat.max 4 (Nat.min 16 v)

/-- A queue register written (Table 18-2): ring bases and sizes only while EN = 0. -/
def State.queueStore (s : State) (q off v : Nat) : State :=
  let k := s.queue q
  match off with
  | 0x00 => if k.en then s else s.modQueue q fun k => { k with qbase := w64 v &&& 0x00FFFFFFFFFFFFC0 }
  | 0x08 =>
    (s.modQueue q fun k => { k with dprio := bitsOf v 17 16, log2n := if k.en then k.log2n else queueLog (bitsOf v 12 8) }).setEn q (v.testBit 0)
  | 0x10 => s.setQpidx q v
  | 0x20 => if k.en then s else s.modQueue q fun k => { k with cqbase := w64 v &&& 0x00FFFFFFFFFFFFF0 }
  | 0x28 => if k.en then s else s.modQueue q fun k => { k with cqlog2n := queueLog (bitsOf v 12 8) }
  | 0x30 => s.setCqridx q v
  | 0x38 => s.modQueue q fun k => { k with qpid := BitVec.ofNat 16 v }
  | _ => s

/-! Translations (R322). -/

/-- Whether an invalidation drops a cached translation (Table 19-1). -/
def Part.invalidates (p : Part) (n : Nat) (x : Xlat) : Bool :=
  let pid := BitVec.ofNat 16 p.xlinv.toNat
  x.part == n && match bitsOf p.xlinv.toNat 17 16 with
    | 0 => x.pid == pid && decide (x.va ≤ p.xlva.toNat ∧ p.xlva.toNat < x.va + 2 ^ x.bits)
    | 1 => x.pid == pid
    | _ => true

/-- Whether a walk of a partition is outstanding. -/
def State.walking (s : State) (p : Nat) : Bool := s.reqs.any fun r => r.part == p && (r.stage == .walking || r.stage == .relWalk)

/-- XLINV written: every station of both dies drops the matching translations. -/
def State.setXlinv (s : State) (p v : Nat) : State :=
  let s1 := s.modPart p fun q => { q with xlinv := w64 v &&& 0x3FFFF }
  let hit := (s1.part p).invalidates p
  { s1 with stations := (List.range 16).foldl (fun t n => Tab.set [] t n ((Tab.get [] t n).filter fun x => !hit x)) s1.stations }

/-- XLINV (R322): it is performed once every walk that started before it has finished, but not while the controller is halted (R385, R386). -/
def execXlinv (p : Nat) (v : Word) (s : State) : Out := .next (if s.boot.halted || s.walking p then s else s.setXlinv p v.toNat)

/-! Pages. -/

/-- A partition's configuration register written (Tables 18-6 and 19-1, R378). -/
def State.configStore (s : State) (p off v : Nat) : State :=
  let m (f : Part → Part) : State := s.modPart p f
  let pa : Nat := bitsOf v 47 12 * 4096
  match off with
  | 0x00 => m fun q => { q with agestep := bitsOf v 47 32, pmax := Nat.min 0x600 (bitsOf v 19 6) }
  | 0x08 => m fun q => { q with dtvec := BitVec.ofNat 56 (v / 4 * 4) }
  | 0x10 => m fun q => { q with dacctbase := BitVec.ofNat 56 (v / 4096 * 4096) }
  | 0x18 => m fun q => { q with dacctctl := BitVec.ofNat 32 v &&& 0xFFFF1F01 }
  | 0x20 => m fun q => { q with proctab := pa }
  | 0x28 => m fun q => { q with xlva := w64 (bitsOf v 55 12 * 4096) }
  | 0x30 => s.setXlinv p v
  | 0x38 => m fun q => { q with ctxsave := pa }
  | 0x40 => m fun q => { q with clsave := pa }
  | 0x48 => m fun q => { q with rstctl := BitVec.ofNat 24 v }
  | _ => s

/-- A slice's race-trace registers changed. -/
def State.modTrace (s : State) (n : Nat) (f : RaceTrace → RaceTrace) : State := { s with traces := Tab.set {} s.traces n (f (Tab.get {} s.traces n)) }

/-- RTCTL written (Table 15-1): OVF is cleared by writing 1. Race tracing must be in force (R389). -/
def State.setRtctl (s : State) (slice v : Nat) : State :=
  if !s.feature 2 then s
  else s.modTrace slice fun t => { t with ovf := t.ovf && !v.testBit 16, log2 := bitsOf v 12 8, en := v.testBit 0 }

/-- RTCTL_WRITE (R279). -/
def execRtctlWrite (slice : Nat) (v : Word) (s : State) : Out := .next (s.setRtctl slice v.toNat)

/-- A race-trace register other than RTCTL written (R279). -/
def State.traceStore (s : State) (slice off v : Nat) : State :=
  if !s.feature 2 then s
  else if off = 0 then s.setRtctl slice v
  else s.modTrace slice fun t =>
    if off = 0x008 then { t with base := bitsOf v 47 12 * 4096 }
    else if off = 0x018 then { t with ridx := v % 2 ^ 64 }
    else if 0x100 ≤ off ∧ off < 0x200 then
      let n := (off - 0x100) / 16
      let r := Tab.get {} t.ranges n
      { t with ranges := Tab.set {} t.ranges n (if off % 16 = 0 then { r with en := v.testBit 63, base := v % 2 ^ 48 } else { r with limit := v % 2 ^ 48 }) }
    else t

/-- CLSHARE written (Table 12-1): reserved bits stay 0. -/
def State.setClshare (s : State) (cl v : Nat) : State := s.modClu cl fun c => { c with clshare := w64 v &&& 0xF0FFFF }

/-- CLSHARE_WRITE (R240). -/
def execClshareWrite (cl : Nat) (v : Word) (s : State) : Out := .next (if s.boot.halted then s else s.setClshare cl v.toNat)

/-- ERROR_RECORD_CLEAR (R373): writing 1 to V clears the whole record. -/
def execErrorRecordClear (p die n : Nat) (s : State) : Out := .next (if s.boot.halted then s else s.clearRecord (partBank die p) n)

/-- The features offered (Table 26-4). -/
def featuresOffered : BitVec 128 := 0x1F

/-- GO written at stage 6 (R389): the accepted set is confirmed, and stage 7 begins, or it is refused. -/
def State.featGo (s : State) : State :=
  let b := s.boot
  if b.cfm || b.stage ≠ 6 || b.halted then s
  else if b.featacc &&& ~~~featuresOffered = 0 ∧ b.featacc.getLsbD 0 then
    { s with boot := { b with rej := false, cfm := true, stage := 7, since := s.now, ready := true, fails := if b.minimal then b.fails else 0 } }
  else { s with boot := { b with rej := true } }

/-- FEATCTL_GO (R389). -/
def execFeatctlGo (s : State) : Out := .next s.featGo

/-- Who writes a register. -/
inductive Writer where
  /-- a context of a partition, in a cluster -/
  | ctx (part cl : Nat)
  /-- the host, through the aperture -/
  | host
  /-- the trusted monitor or the management path, for a partition -/
  | monitor (part : Nat)
  deriving DecidableEq, Repr

/-- The partition a writer writes for. -/
def Writer.part : Writer → Nat
  | .ctx p _ => p
  | .host => 0
  | .monitor p => p

/-- A register of the start page written (Table 26-1): FEATACC and GO by the host, DBGHALT by the management path, while
its feature is in force (R389). -/
def State.startStore (s : State) (w : Writer) (off v : Nat) : State :=
  match w with
  | .ctx _ _ => s
  | .host =>
    if off = 0x20 ∧ !s.boot.cfm then { s with boot := { s.boot with featacc := BitVec.ofNat 128 (s.boot.featacc.toNat / 2 ^ 64 * 2 ^ 64 + v) } }
    else if off = 0x28 ∧ !s.boot.cfm then { s with boot := { s.boot with featacc := BitVec.ofNat 128 (s.boot.featacc.toNat % 2 ^ 64 + v * 2 ^ 64) } }
    else if off = 0x30 ∧ v.testBit 0 then s.featGo
    else s
  | .monitor _ => if off = 0x40 ∧ s.feature 4 = true then { s with boot := { s.boot with dbghalt := BitVec.ofNat 32 v } } else s

/-- Whether the bytes written hold a set bit of the register: what a write of 1 acts on. -/
def writesOne (v mask bit : Nat) : Bool := v.testBit bit && mask.testBit bit

/-- An 8-byte register written under a mask; bits outside it keep their values, and write-1 fields see only the bytes written. -/
def State.regStore (s : State) (w : Writer) (p : Page) (off v mask : Nat) : State :=
  let old := s.pageWord 0 w.part p off
  let full : Nat := (old - (old &&& mask)) ||| (v &&& mask)
  match p with
  | .start => s.startStore w off (if off = 0x30 then v &&& mask else full)
  | .config => match w with
    | .host => s
    | _ => s.configStore w.part off full
  | .cluster => match w with
    | .ctx _ cl =>
      let o : Nat := (s.clu cl).clshare.toNat
      if off = 0 then s.setClshare cl ((o - (o &&& mask)) ||| (v &&& mask)) else s
    | _ => s
  | .race => match w with
    | .host => s
    | _ =>
      let slice := 32 * (off / 0x10000) + off % 0x10000 / 0x800
      let o := off % 0x800
      if o = 0 then s.setRtctl slice ((full - (full &&& 2 ^ 16)) + (if writesOne v mask 16 then 2 ^ 16 else 0)) else s.traceStore slice o full
  | .errors => match w with
    | .host => s
    | _ => if off % 0x1000 < 0x400 ∧ off % 64 = 0 ∧ writesOne v mask 63 then s.clearRecord (partBank (off / 0x1000) w.part) (off % 0x1000 / 64) else s
  | .queue => s.queueStore (off / 0x40) (off % 0x40) full
  | _ => s

/-- A device register written: `size` bytes at an offset; a register that no one may write keeps its value. -/
def State.devWrite (s : State) (w : Writer) (off size v : Nat) : State :=
  match pageOf (off / 8 * 8) with
  | none => s
  | some (p, o) => s.regStore w p o (v % 2 ^ (8 * size) * 2 ^ (8 * (off % 8))) ((2 ^ (8 * size) - 1) * 2 ^ (8 * (off % 8)))

/-- DEVICE_REGISTER_WRITE: a write, in the name of a partition, of a register; its offset is that of the window. One of XLINV that comes while walks of the
partition run is not performed yet, and comes again (R322). A halted controller takes nothing but new images (R385, R386). -/
def execDeviceRegisterWrite (p off : Nat) (v : Word) (s : State) : Out :=
  .next (if s.boot.halted || (off / 8 == 0x126 && s.walking p) then s else s.devWrite (.monitor p) off 8 v.toNat)

/-! The host (R284, R390). -/

/-- Whether the aperture reaches an offset: the start page, the pages of the ordinary queues, the timebase. -/
def hostReach (off : Nat) : Bool :=
  decide (off < 2 ^ 26) && match pageOf (off / 8 * 8) with
    | some (.timebase, _) => true
    | some (.start, _) => true
    | some (.queue, o) => o / 0x40 != monitorQueue
    | _ => false

/-- HOST_WRITE: eight bytes written through the aperture, or to device memory at the home slice (KIND 3 of R279). One that the slice's port does not take in
this cycle comes again (R278). -/
def execHostWrite (aperture : Bool) (addr : Nat) (data : Word) (s : State) : Out :=
  if aperture then .next (if hostReach addr then s.devWrite .host (addr / 8 * 8) 8 data.toNat else s)
  else if hostBase / 2 ^ 9 ≤ addr then .next s
  else .next (if s.hostTakes (lineOf addr) then s.sliceStore makerHost none (addr / 8 * 8) 8 data.toNat (allBytes 8) else s)

/-- HOST_READ: eight bytes answered to the host; an aperture offset that is not reached reads zero. A read of device memory that the slice's port does not take
in this cycle comes again (R278). -/
def execHostRead (aperture : Bool) (addr : Nat) (s : State) : Out :=
  let answer (s : State) (v : Nat) : State := { s with hostRead := some (addr, w64 v) }
  .next (
    if aperture then answer s (if hostReach addr then match pageOf (addr / 8 * 8) with
        | some (p, o) => s.pageWord 0 0 p o
        | none => 0
      else 0)
    else if hostBase / 2 ^ 9 ≤ addr then answer s 0
    else if s.hostTakes (lineOf addr) then answer (s.accept addr) (s.physRead (addr / 8 * 8) 8) else s)

end Sys2Proof.Machine
end

