-- ==== Sys2Proof/Machine/Vector.lean ====
section
/-!
DEFINITION. The vector forms, one meaning each (R144 to R163), and the steps of the sequencer that need no arbiter.
-/

namespace Sys2Proof.Machine

/-- VADD. -/
def execVadd (d : VDst) (a b : VSrc) (t : BitVec 5) (k : BitVec 3) (s : State) : Out := finish s (s.vecIssue (.vadd d a b t k))
/-- VADD.SAT. -/
def execVaddSat (d : VDst) (a b : VSrc) (t : BitVec 5) (k : BitVec 3) (s : State) : Out := finish s (s.vecIssue (.vaddSat d a b t k))
/-- VSUB. -/
def execVsub (d : VDst) (a b : VSrc) (t : BitVec 5) (k : BitVec 3) (s : State) : Out := finish s (s.vecIssue (.vsub d a b t k))
/-- VSUB.SAT. -/
def execVsubSat (d : VDst) (a b : VSrc) (t : BitVec 5) (k : BitVec 3) (s : State) : Out := finish s (s.vecIssue (.vsubSat d a b t k))
/-- VMUL. -/
def execVmul (d : VDst) (a b : VSrc) (t : BitVec 5) (k : BitVec 3) (s : State) : Out := finish s (s.vecIssue (.vmul d a b t k))
/-- VMUL.SAT. -/
def execVmulSat (d : VDst) (a b : VSrc) (t : BitVec 5) (k : BitVec 3) (s : State) : Out := finish s (s.vecIssue (.vmulSat d a b t k))
/-- VFMA. -/
def execVfma (d : BitVec 4) (a b : VSrc) (t : BitVec 5) (k : BitVec 3) (s : State) : Out := finish s (s.vecIssue (.vfma d a b t k))
/-- VFMS. -/
def execVfms (d : BitVec 4) (a b : VSrc) (t : BitVec 5) (k : BitVec 3) (s : State) : Out := finish s (s.vecIssue (.vfms d a b t k))
/-- VMULH. -/
def execVmulh (d : VDst) (a b : VSrc) (t : BitVec 5) (k : BitVec 3) (s : State) : Out := finish s (s.vecIssue (.vmulh d a b t k))
/-- VABS. -/
def execVabs (d : VDst) (a : VSrc) (m : Bool) (t : BitVec 5) (k : BitVec 3) (s : State) : Out := finish s (s.vecIssue (.vabs d a m t k))
/-- VMIN. -/
def execVmin (d : VDst) (a b : VSrc) (t : BitVec 5) (k : BitVec 3) (s : State) : Out := finish s (s.vecIssue (.vmin d a b t k))
/-- VMAX. -/
def execVmax (d : VDst) (a b : VSrc) (t : BitVec 5) (k : BitVec 3) (s : State) : Out := finish s (s.vecIssue (.vmax d a b t k))
/-- VNEG. -/
def execVneg (d : VDst) (a : VSrc) (m : Bool) (t : BitVec 5) (k : BitVec 3) (s : State) : Out := finish s (s.vecIssue (.vneg d a m t k))
/-- VMOV. -/
def execVmov (d : VDst) (a : VSrc) (t : BitVec 5) (k : BitVec 3) (s : State) : Out := finish s (s.vecIssue (.vmov d a t k))
/-- VAND. -/
def execVand (d : VDst) (a b : VSrc) (t : BitVec 5) (k : BitVec 3) (s : State) : Out := finish s (s.vecIssue (.vand d a b t k))
/-- VOR. -/
def execVor (d : VDst) (a b : VSrc) (t : BitVec 5) (k : BitVec 3) (s : State) : Out := finish s (s.vecIssue (.vor d a b t k))
/-- VXOR. -/
def execVxor (d : VDst) (a b : VSrc) (t : BitVec 5) (k : BitVec 3) (s : State) : Out := finish s (s.vecIssue (.vxor d a b t k))
/-- VSHR. -/
def execVshr (d : VDst) (a b : VSrc) (t : BitVec 5) (k : BitVec 3) (s : State) : Out := finish s (s.vecIssue (.vshr d a b t k))
/-- VSHL. -/
def execVshl (d : VDst) (a b : VSrc) (t : BitVec 5) (k : BitVec 3) (s : State) : Out := finish s (s.vecIssue (.vshl d a b t k))
/-- VSHL.SAT. -/
def execVshlSat (d : VDst) (a b : VSrc) (t : BitVec 5) (k : BitVec 3) (s : State) : Out := finish s (s.vecIssue (.vshlSat d a b t k))
/-- VSHRA. -/
def execVshra (d : VDst) (a b : VSrc) (t : BitVec 5) (k : BitVec 3) (s : State) : Out := finish s (s.vecIssue (.vshra d a b t k))
/-- VSEL. -/
def execVsel (d : VDst) (a b : VSrc) (t : BitVec 5) (k : BitVec 3) (s : State) : Out := finish s (s.vecIssue (.vsel d a b t k))
/-- VCMP.EQ. -/
def execVcmpEq (d : BitVec 3) (a b : VSrc) (t : BitVec 5) (k : BitVec 3) (s : State) : Out := finish s (s.vecIssue (.vcmpEq d a b t k))
/-- VCMP.NE. -/
def execVcmpNe (d : BitVec 3) (a b : VSrc) (t : BitVec 5) (k : BitVec 3) (s : State) : Out := finish s (s.vecIssue (.vcmpNe d a b t k))
/-- VCMP.LT. -/
def execVcmpLt (d : BitVec 3) (a b : VSrc) (t : BitVec 5) (k : BitVec 3) (s : State) : Out := finish s (s.vecIssue (.vcmpLt d a b t k))
/-- VCMP.LE. -/
def execVcmpLe (d : BitVec 3) (a b : VSrc) (t : BitVec 5) (k : BitVec 3) (s : State) : Out := finish s (s.vecIssue (.vcmpLe d a b t k))
/-- VBCAST. -/
def execVbcast (d : VDst) (a : XSrc) (t : BitVec 5) (k : BitVec 3) (s : State) : Out := finish s (s.vecIssue (.vbcast d a t k))
/-- VRED. -/
def execVred (d : VDst) (a : VSrc) (o : BitVec 3) (t : BitVec 5) (k : BitVec 3) (s : State) : Out := finish s (s.vecIssue (.vred d a o t k))
/-- VCVT. -/
def execVcvt (d : VDst) (a : VSrc) (m : BitVec 6) (t : BitVec 5) (k : BitVec 3) (s : State) : Out := finish s (s.vecIssue (.vcvt d a m t k))
/-- VCVT.SR. -/
def execVcvtSr (d : VDst) (a : VSrc) (m : BitVec 6) (t : BitVec 5) (k : BitVec 3) (s : State) : Out := finish s (s.vecIssue (.vcvtSr d a m t k))
/-- VPERM. -/
def execVperm (d : VDst) (a b : VSrc) (t : BitVec 5) (k : BitVec 3) (s : State) : Out := finish s (s.vecIssue (.vperm d a b t k))
/-- VSLIDE. -/
def execVslide (d : VDst) (a : VSrc) (b : XSrc) (t : BitVec 5) (k : BitVec 3) (s : State) : Out := finish s (s.vecIssue (.vslide d a b t k))
/-- VZIP. -/
def execVzip (d : VDst) (a b : VSrc) (t : BitVec 5) (k : BitVec 3) (s : State) : Out := finish s (s.vecIssue (.vzip d a b t k))
/-- VUNZIP. -/
def execVunzip (d : VDst) (a b : VSrc) (t : BitVec 5) (k : BitVec 3) (s : State) : Out := finish s (s.vecIssue (.vunzip d a b t k))
/-- VDOT. -/
def execVdot (d : BitVec 4) (a b : VSrc) (t : BitVec 5) (k : BitVec 3) (s : State) : Out := finish s (s.vecIssue (.vdot d a b t k))
/-- VPLANE. -/
def execVplane (d : VDst) (a : VSrc) (p : BitVec 3) (h u : Bool) (t : BitVec 5) (k : BitVec 3) (s : State) : Out := finish s (s.vecIssue (.vplane d a p h u t k))
/-- VQNT. -/
def execVqnt (d : VDst) (a : VSrc) (b : XSrc) (t : BitVec 5) (k : BitVec 3) (s : State) : Out := finish s (s.vecIssue (.vqnt d a b t k))
/-- VDQNT. -/
def execVdqnt (d : VDst) (a : VSrc) (b : XSrc) (t : BitVec 5) (k : BitVec 3) (s : State) : Out := finish s (s.vecIssue (.vdqnt d a b t k))
/-- VRCP. -/
def execVrcp (d : VDst) (a : VSrc) (t : BitVec 5) (k : BitVec 3) (s : State) : Out := finish s (s.vecIssue (.vrcp d a t k))
/-- VRSQ. -/
def execVrsq (d : VDst) (a : VSrc) (t : BitVec 5) (k : BitVec 3) (s : State) : Out := finish s (s.vecIssue (.vrsq d a t k))
/-- VEX2. -/
def execVex2 (d : VDst) (a : VSrc) (t : BitVec 5) (k : BitVec 3) (s : State) : Out := finish s (s.vecIssue (.vex2 d a t k))
/-- VLG2. -/
def execVlg2 (d : VDst) (a : VSrc) (t : BitVec 5) (k : BitVec 3) (s : State) : Out := finish s (s.vecIssue (.vlg2 d a t k))
/-- VSIN. -/
def execVsin (d : VDst) (a : VSrc) (t : BitVec 5) (k : BitVec 3) (s : State) : Out := finish s (s.vecIssue (.vsin d a t k))
/-- VTANH. -/
def execVtanh (d : VDst) (a : VSrc) (t : BitVec 5) (k : BitVec 3) (s : State) : Out := finish s (s.vecIssue (.vtanh d a t k))
/-- VLD. -/
def execVld (d : VDst) (a : BitVec 4) (t : BitVec 5) (k : BitVec 3) (s : State) : Out := finish s (s.vmemIssue (.vld d a t k))
/-- VST. -/
def execVst (d a : BitVec 4) (t : BitVec 5) (k : BitVec 3) (s : State) : Out := finish s (s.vmemIssue (.vst d a t k))
/-- VLDS. -/
def execVlds (d : VDst) (a : BitVec 4) (b : XSrc) (t : BitVec 5) (k : BitVec 3) (s : State) : Out := finish s (s.vmemIssue (.vlds d a b t k))
/-- VSTS. -/
def execVsts (d a : BitVec 4) (b : XSrc) (t : BitVec 5) (k : BitVec 3) (s : State) : Out := finish s (s.vmemIssue (.vsts d a b t k))
/-- VGTHR. -/
def execVgthr (d : VDst) (a : BitVec 4) (b : VSrc) (t : BitVec 5) (k : BitVec 3) (s : State) : Out := finish s (s.vmemIssue (.vgthr d a b t k))
/-- VSCTR. -/
def execVsctr (d a : BitVec 4) (b : VSrc) (t : BitVec 5) (k : BitVec 3) (s : State) : Out := finish s (s.vmemIssue (.vsctr d a b t k))
/-- KAND. -/
def execKand (d a b : BitVec 3) (s : State) : Out := finish s (s.vecIssue (.kand d a b))
/-- KOR. -/
def execKor (d a b : BitVec 3) (s : State) : Out := finish s (s.vecIssue (.kor d a b))
/-- KNOT. -/
def execKnot (d a : BitVec 3) (s : State) : Out := finish s (s.vecIssue (.knot d a))
/-- KPOPC. -/
def execKpopc (d : XDst) (a : BitVec 3) (s : State) : Out := finish s (s.vecIssue (.kpopc d a))

/-- SETFMT: the format register is written in program order with the vector instructions, which took their formats at issue (R14, R162). -/
def execSetfmt (n : BitVec 2) (a : XSrc) (s : State) : Out :=
  let i : Instr := .setfmt n a
  let h : VShape := { xa := some a }
  finish s (match s.vecStop i h with
    | some r => r
    | none =>
      match s.readXs s.cur h with
      | none => .wait .chanEmpty
      | some (x, _, t) => .ok (((s.popAll s.cur t).upd fun c => { c with fm := c.fm.set n.toNat (x.extractLsb' 0 16) n.isLt }).adv))

/-- REPF: the capture begins at the next word, which FRAMEPC names, and goes on while the lines it needs are cached (R163, R164). -/
def execRepf (l : BitVec 4) (a b : XSrc) (s : State) : Out :=
  let h : VShape := { xa := some a, xb := some b }
  finish s (match firstCause [s.gate s.cur, if s.me.replay.isSome || s.seqIsFull then some .seqFull else none] with
    | some k => .wait k
    | none =>
      if s.vecChanBad s.cur h then .trap .channelFault (wordOf (.repf l a b))
      else .ok (s.upd fun c => { c with
        framepc := c.next, pc := c.next
        cap := some { len := l.toNat + 1, words := [], n := a, stag := b, jump := none, resume := none } }))

/-! Replay (R165). -/

/-- A 4-bit field of a word replaced. -/
def setField (w : Nat) (lo v : Nat) : Nat := w - (w / 2 ^ lo % 16) * 2 ^ lo + v % 16 * 2 ^ lo

/-- The number in a 4-bit field moved on by a stagger, modulo 16. -/
def moveField (w lo k : Nat) : Nat := setField w lo (w / 2 ^ lo % 16 + k)

/-- A captured word as iteration `j` performs it: every V-, V*- and Vs-kind register field moved on by its stagger (R165). -/
def renumber (w : IWord) (j stag : Nat) : IWord :=
  match decode w with
  | none => w
  | some i => match vShape i with
    | none => w
    | some h =>
      let isV : Option VSrc → Bool := fun f => match f with
        | some (.v _) => true
        | _ => false
      let dv := h.ds.isSome || (match h.d with
        | some (.v _) => true
        | _ => false)
      let w1 := if dv then moveField w.toNat 21 (j * (stag % 16)) else w.toNat
      let w2 := if isV h.a then moveField w1 15 (j * (stag / 16 % 16)) else w1
      let w3 := if isV h.b then moveField w2 9 (j * (stag / 256 % 16)) else w2
      BitVec.ofNat 32 w3

/-- The replay after one performance; none when the last iteration is done. -/
def Replay.after (r : Replay) : Option Replay :=
  if r.idx + 1 < r.words.length then some { r with idx := r.idx + 1 }
  else if r.iter + 1 < r.n then some { r with idx := 0, iter := r.iter + 1 }
  else none

/-- The next instruction of the frame that a context replays (R165). -/
def State.frameNext (s : State) (e : SeqEntry) : Option (Instr × VShape) :=
  match (s.ctx e.sid).replay with
  | none => none
  | some r =>
    match decode (renumber (r.words.getD r.idx 0) r.iter r.stag) with
    | none => none
    | some i => (vShape i).map fun h => (i, h)

/-- Whether the replay of a frame is stopped, as its context is to be saved (R168). -/
def State.replayStopped (s : State) (sid : Nat) : Bool := (s.ctx sid).heldForSave && !s.replayHolds sid

/-- One performance of a frame's instruction, where its operands are usable and its channel entries are there; its fields take their entries in field
order, and the scalar fields, which come last, are read now (R79, R165). None while it waits. -/
def State.framePerform (s : State) (sid : Nat) : Option State :=
  match (s.core (slotCore sid)).seq with
  | [] => none
  | e :: _ =>
    if !(e.frame && e.sid == sid) || s.replayStopped sid then none
    else match s.frameNext e with
      | none => none
      | some (i, h) =>
        let c := s.ctx sid
        if !s.vecReady sid i h || (c.awaits h.xregs).isSome then none
        else match s.readVs sid h with
        | none => none
        | some (a, b, tv) =>
          let s0 := s.popAllV sid tv
          match s0.readXs sid h with
          | none => none
          | some (xa, xb, tx) =>
            if s.vecDstFull sid c.serial (tv ++ tx) h then none
            else
              let next := c.replay.bind Replay.after
              let q := { e with i := i, xa := xa, xb := xb, space := s0.freed sid h.xpops }
              let s1 := ((s0.popAll sid tx).vecPerform q h c.venv c.srseed.toNat a b []).modCtx sid fun c => { c.seedAfter i with replay := next }
              some (if next.isNone then s1.dropHead (slotCore sid) else s1)

/-! Binding (R139). -/

/-- The state of a memory form's translations: whether any is still open, and the first of its active lanes' pieces whose line failed (R158). -/
def State.linesOpen (s : State) (e : SeqEntry) : Bool :=
  (s.reqsOf e.sid).any fun r => r.isVload && r.serial == e.serial && match r.stage with
    | .translating => true
    | .walking => true
    | _ => false

/-- The trap of the lowest-numbered active lane whose line's translation failed, with its address (R158). -/
def State.linesFault (s : State) (e : SeqEntry) : Option (Trap × Word) :=
  (e.plan.getD []).findSome? fun p => match p.2 with
    | .bank _ _ => none
    | .mem va => ((s.reqsOf e.sid).find? fun r => r.isVload && r.serial == e.serial && r.va == va / 64 * 64).bind fun r => match r.stage with
      | .faulted t => some (t, p.1.addr)
      | _ => none

/-- What a vector instruction left in its context's requests taken back. -/
def State.dropLines (s : State) (e : SeqEntry) : State :=
  { s with reqs := s.reqs.filter fun r => !(r.isVload && r.sid == e.sid && r.serial == e.serial) }

/-- The channel entry that an instruction's stride took, given back (R79). -/
def State.giveBack (s : State) (e : SeqEntry) : State :=
  match e.took with
  | some (d, v) => s.unpop e.sid d v
  | none => s

/-- A vector instruction of a core taken back, with all it asked for and took (R79, R158). -/
def State.dropVec (s : State) (e : SeqEntry) : State :=
  (((s.dropLines e).giveBack e).modCore (slotCore e.sid) fun k => { k with seq := k.seq.filter fun q => !(q.sid == e.sid && q.serial == e.serial) }).modCtx e.sid
    fun c => { c with chq := c.chq.filter fun w => w.serial != e.serial }

/-- The trap of a checked memory form: the lowest lane's whose translation failed, else the one its other checks found (R158). -/
def State.vecBad (s : State) (e : SeqEntry) : Option VBad := (s.linesFault e).orElse fun _ => e.bad

/-- The precise trap of a memory form whose translations have all returned and one failed, or a check of a higher lane: nothing of it has been
performed (R158). -/
def State.vecTrap (s : State) (sid : Nat) : Option State :=
  (s.core (slotCore sid)).seq.findSome? fun e =>
    if e.sid != sid || s.linesOpen e then none
    else (s.vecBad e).map fun b => s.trapWhen (s.dropVec e) sid b.1 b.2 e.pc

/-- Whether earlier accesses of a context are performed, as a memory form needs it (R160): its scalar accesses, its vector loads, and for a load the
atomics that its bytes overlap (R117). -/
def State.memReady (s : State) (e : SeqEntry) (store : Bool) (ps : List (VPiece × VPlace)) : Bool :=
  (s.ctx e.sid).pend.isEmpty && !((s.reqsOf e.sid).any fun r => r.isLoad) && !((s.core (slotCore e.sid)).vout.any fun q => q.sid == e.sid) &&
    (store || ps.all fun p => match p.2 with
      | .mem va => !s.atomicOverlap e.sid e.serial va p.1.size
      | .bank _ _ => true)

/-- A memory form all of whose scratchpad lines are served leaves the sequencer: a load that awaits lines goes on outside it, any other is complete,
its register usable in cycle `at_` (R159). -/
def State.leaveSeq (s : State) (ci at_ : Nat) (e : SeqEntry) (store : Bool) : State :=
  let ps := e.plan.getD []
  if store then s.dropHead ci
  else if !(globalLines ps).isEmpty then (s.dropHead ci).modCore ci fun k => { k with vout := k.vout ++ [e] }
  else (s.dropHead ci).applyV e.sid e.serial at_ false (.vec (vloadDst e.i) (vMerge ((s.ctx e.sid).old (vloadDst e.i)) ps e.img, 0))

/-- The state in which the windows of an entry are checked: its meeting's partner is there if it was when the entry issued (R19, R221). -/
def State.asIssued (s : State) (e : SeqEntry) : State := s.modCtx e.sid fun c => { c with meet := c.meet.map fun m => { m with gone := e.gone } }

/-- A gather or scatter at the head is checked, and the translations of its lanes are asked for (R158). -/
def State.checkGather (s : State) (ci : Nat) (e : SeqEntry) (b : VReg) : State :=
  match vmemOf e.i (s.ctx e.sid) e.xa e.xb b with
  | none => s.dropHead ci
  | some (store, t, m, v) =>
    let p := (s.asIssued e).vPlan e.sid t m v
    match if badWaits e.i p.1 then none else p.2 with
    | some (tr, x) => s.trapWhen (s.dropVec e) e.sid tr x e.pc
    | none => (s.modHead ci fun e => { e with plan := some p.1, vb := some b, bad := p.2 }).askLines e store p.1

/-- A checked memory form binds (R138, R159): its channel entry is taken, its global lines are sent or enter the restante buffer, and its scratchpad
lines wait for vector slots. None while it waits. -/
def State.bindMem (s : State) (ci : Nat) (e : SeqEntry) (h : VShape) (ps : List (VPiece × VPlace)) (tv : List Target) : Option State :=
  let store := h.ds.isSome
  let src := (s.ctx e.sid).rv (vstoreReg e.i)
  let lines := if store then vLines src ps else []
  if s.linesOpen e || (s.vecBad e).isSome || !s.memReady e store ps || s.vecPortWaitsOf e.sid e.serial ps ||
      s.vecDstFull e.sid e.serial tv h || (store && s.restFull (slotCluster e.sid) lines.length) then none
  else
    let b := { e with bound := true, left := bankPieces ps }
    let s1 := (s.popAllV e.sid tv).modHead ci fun _ => b
    let s2 := if store then lines.foldl (fun s l => s.holdLine e l) (s1.dropLines e)
      else { s1 with reqs := s1.reqs.map fun r => if r.isVload && r.sid == e.sid && r.serial == e.serial then { r with stage := .sent, arr := s.now } else r }
    some (if b.left.isEmpty then s2.leaveSeq ci s.now b store else s2)

/-- The head of a core's sequencer that uses no lane group binds, or for a gather or scatter is checked (R139, R158). None while it waits. -/
def State.bindHead (s : State) (ci : Nat) (e : SeqEntry) : Option State :=
  match vShape e.i with
  | none => some (s.dropHead ci)
  | some h =>
    if e.bound || !s.vecReady e.sid e.i h then none
    else match s.readVs e.sid h with
      | none => none
      | some (a, b, tv) =>
        if isVMem e.i then match e.plan with
          | none => some (s.checkGather ci e b)
          | some ps => s.bindMem ci e h ps tv
        else if s.vecDstFull e.sid e.serial tv h then none
        else some ((s.dropHead ci).vecPerform e h e.env e.seed.toNat (e.va.getD a) b tv)

/-- SEQUENCER_BIND (R139, R245): the head of a core's sequencer binds, where it uses no lane group: at most one in a cycle. -/
def execSequencerBind (ci : Nat) (s : State) : Out :=
  match (s.core ci).seq with
  | [] => .next s
  | e :: _ =>
    if e.frame || usesLanes e.i || decide (s.now < (s.core ci).bindAt) then .next s
    else .next (match s.bindHead ci e with
      | none => s
      | some t => t.modCore ci fun k => { k with bindAt := s.now + 1 })

end Sys2Proof.Machine
end

