-- ==== Sys2Proof/Machine/MemSide.lean ====
section
/-!
DEFINITION. The memory side: instruction-cache fills, translation stations, the restante buffer's releases, the home slices and the die link
(R110, R117 to R127, R318 to R326, R361, R391 to R397).
-/

namespace Sys2Proof.Machine

/-! Fetch (R20, R110). -/

/-- The fetch trap of a context (R91 step 1): TVAL and EPC are the PC. -/
def State.fetchTrap (s : State) (sid : Nat) (t : Trap) : State := s.trapHead sid t (pcWord (s.ctx sid).pc) (s.ctx sid).pc

/-- The address whose translation a context's fetch needs: that of its PC's line. -/
def Ctx.fetchVa (c : Ctx) : Nat := c.pc.toNat / 64 * 64

/-- The trap of a fetch, once it is known: a PC outside the global window (R20), or the translation's fault. -/
def State.fetchFaultOf (s : State) (sid : Nat) : Option Trap :=
  let c := s.ctx sid
  let cl := slotCluster sid
  if badPc c.pc then some .windowFault
  else if !s.pageKnown cl c.part c.pid sid (c.fetchVa / 4096) || (s.walkPoison cl c.part c.pid c.fetchVa).isSome then none
  else match s.translate cl c.part c.pid c.mode .fetch c.fetchVa with
    | .error t => some t
    | .ok _ => none

/-- The line of a context's PC, read from its home, installed in its core's cache (R110). -/
def State.fillLine (s : State) (sid pa : Nat) : State :=
  let c := s.ctx sid
  let line : ILine := { va := c.fetchVa, pid := c.pid, data := BitVec.ofNat 512 (s.physRead pa 64) }
  (s.accept pa).modCore (slotCore sid) fun k => { k with icache := installLine k.icache line }

/-- Whether a context stands at an instruction boundary: it runs, or a SLEEP waits at its head and has not issued (R236). -/
def Ctx.atBoundary (c : Ctx) : Bool :=
  match c.act with
  | .running => true
  | .sleeping _ => true
  | .slept => true
  | _ => false

/-- ICACHE_FILL (R110): the line that a context's PC misses is installed, or its fetch faults. A page that its station has not cached is walked first (R318), and
poison that the walk reads stops the context (R376). DESIGN CHOICE (log 19): the fill takes one cycle, charged REDIRECT as what goes before it, where the spec
gives no number. -/
def execIcacheFill (sid : Nat) (s : State) : Out :=
  let c := s.ctx sid
  let cl := slotCluster sid
  let waits (s : State) : Out := .next (s.modCtx sid fun c => { c with charge := .redirect })
  if !c.atBoundary || (s.fetch sid).isSome then .next s
  else match s.fetchFaultOf sid with
  | some t => .next ((s.xlatDone c.part c.pid sid [c.fetchVa]).fetchTrap sid t)
  | none => match s.xlatAsk cl c.part c.pid sid [c.fetchVa] with
    | some t => waits t
    | none => match s.walkPoison cl c.part c.pid c.fetchVa with
      | some l => .next ((s.xlatDone c.part c.pid sid [c.fetchVa]).freeze sid c.pc l)
      | none => match s.translate cl c.part c.pid c.mode .fetch c.fetchVa with
        | .error t => .next (s.fetchTrap sid t)
        | .ok pa =>
          if !s.portFree pa then waits s
          else .next ((s.fillLine sid pa).modCtx sid fun c => { c with charge := .redirect, pause := some (.redirect, s.now + 1) })

/-- FETCH_FAULT (R20, R91): the running context's fetch traps with a code of Table 19-3. -/
def execFetchFault (code : BitVec 16) (s : State) : Out :=
  match code.toNat with
  | 3 => .next (s.fetchTrap s.cur .windowFault)
  | 5 => .next (s.fetchTrap s.cur .translationFault)
  | 6 => .next (s.fetchTrap s.cur .accessFault)
  | _ => .next s

/-- ILLEGAL_INSTRUCTION (R89 to R91): the running context traps; TVAL holds the word. -/
def execIllegalInstruction (w : IWord) (s : State) : Out := .next (s.trap .illegalInstruction (w.zeroExtend 64) s.me.pc)

/-! Translation stations (R117, R123, R318). -/

/-- The access a request makes. -/
def Req.access (r : Req) : Access :=
  match r.kind with
  | .amo _ _ => .atomic
  | .cas _ => .atomic
  | .load _ _ _ => .read
  | .vload store => if store then .write else .read
  | .shape _ => .read
  | .form _ => .read
  | _ => .write

/-- The station a request goes to. -/
def Req.station (r : Req) : Nat := stationOf (slotCluster r.src)

/-- Whether two requests ask for one (partition, PID, 4 KiB page) at one station (R318). -/
def Req.samePage (r q : Req) : Bool := r.station == q.station && r.part == q.part && r.pid == q.pid && r.va / 4096 == q.va / 4096

/-- The result a request's context awaits is given up, with the place kept for its channel entry. -/
def Ctx.forget (c : Ctx) (r : Req) : Ctx :=
  match r.kind with
  | .load d _ acq => { c with
      busy := (dstRes d).foldl (fun l n => dropBusy n l) c.busy, acq := if acq then none else c.acq
      chq := c.chq.filter fun w => w.serial != r.serial }
  | .amo _ d => { c with busy := dropBusy d.toNat c.busy }
  | .cas d => { c with busy := dropBusy d.toNat c.busy }
  | .shape n => { c with busy := dropBusy (64 + n.toNat) c.busy }
  | .form _ => { c with act := .running }
  | _ => c

/-- Whether a request is a line of a VST or VSTS, whose translation fault is reported when the store is released (R142). -/
def State.faultsLate (s : State) (r : Req) : Bool :=
  r.kind == .vload true && (s.core (slotCore r.sid)).seq.any fun e => e.sid == r.sid && e.serial == r.serial && !isGather e.i

/-- A request whose translation has faulted keeps its trap until that is taken (R117, R123, R158); one for a page that an engine or a fetch needs is kept until
its maker has seen that. -/
def State.transFault (s : State) (r : Req) (t : Trap) : State :=
  s.modReq r.id fun q => { q with stage := if s.faultsLate r || r.kind == .xlat then .ready else .faulted t, arr := s.now }

/-- The precise trap of a context's scalar access whose translation has failed; TVAL is its address and EPC its PC (R117, R123). -/
def State.scalarTrap (s : State) (sid : Nat) : Option State :=
  (s.reqsOf sid).findSome? fun r => match r.isVload, r.stage with
    | false, .faulted t => some (s.trapWhen ((s.dropReq r.id).modCtx sid fun c => c.forget r) sid t (w64 r.va) r.pc)
    | _, _ => none

/-- A translated request goes on: a load to its slice, an atomic into the restante buffer, a line of a vector form until the form binds. One for a page that an
engine or a fetch needs has done its work: the station has the translation cached. -/
def State.transDone (s : State) (r : Req) (leaf bits : Nat) : State :=
  if r.kind == .xlat then s.dropReq r.id
  else if leafAllows (s.part r.part) leaf bits r.access r.mode then
    s.modReq r.id fun q => { q with
      pa := leafPa leaf bits r.va, stage := if r.isAtomic then .held else if r.isVload then .ready else .sent, arr := if r.isAtomic then 0 else s.now }
  else s.transFault r .accessFault

/-- Whether a walk for a request is outstanding. -/
def Req.inWalk (r : Req) : Bool := r.stage == .walking || r.stage == .relWalk

/-- The pages whose walks a station runs. -/
def State.walksAt (s : State) (st : Nat) : List Req :=
  (s.reqs.filter fun r => r.inWalk && r.station == st).foldl (fun l r => if l.any fun q => q.samePage r then l else l ++ [r]) []

/-- When a miss came to its station. -/
def State.missAt (s : State) (r : Req) : Nat := if r.arr = 0 then s.now + 1 else r.arr

/-- Whether a request waits at its station for a walk, and came before another miss. A cluster that restores sends no translation of what issued there (R360). -/
def State.missBefore (s : State) (q r : Req) : Bool :=
  (q.stage == .released || (q.stage == .translating && (s.clu (slotCluster q.src)).restore.isNone)) && decide (q.arr ≠ 0) && q.station == r.station &&
    decide (q.arr < s.missAt r ∨ (q.arr = s.missAt r ∧ q.id < r.id))

/-- Whether a station takes a request that misses its cache: its page's walk is outstanding, or fewer than 8 walks are and no earlier miss waits
(R318). -/
def State.walkRoom (s : State) (r : Req) : Bool :=
  let ws := s.walksAt r.station
  (ws.any fun q => q.samePage r) || (decide (ws.length < 8) && !s.reqs.any fun q => s.missBefore q r)

/-- A miss of a request at its station: its walk starts or is joined, or it waits in arrival order (R318). -/
def State.miss (s : State) (r : Req) (g : ReqStage) : State :=
  if s.walkRoom r then s.modReq r.id fun q => { q with stage := g } else s.modReq r.id fun q => { q with arr := s.missAt r }

/-- The first request of a context that its station can do something about now. -/
def State.nextTrans (s : State) (sid : Nat) : Option Req :=
  s.reqs.find? fun r => r.sid == sid && r.stage == .translating && (decide (r.arr = 0) || (s.cached r.station r.part r.pid r.va).isSome || s.walkRoom r)

/-- What a context does about translations that have returned: the instruction traps where one failed (R117, R123, R158). -/
def State.faultSettle (s : State) (sid : Nat) : State := ((s.scalarTrap sid).orElse fun _ => s.vecTrap sid).getD s

/-- TRANSLATION_REQUEST (R318): a station answers a context's request from its cache, or starts or joins a walk; at most 8 walks at once, and further misses
wait in arrival order. -/
def execTranslationRequest (sid : Nat) (s : State) : Out :=
  match s.nextTrans sid with
  | none => .next s
  | some r => match s.cached r.station r.part r.pid r.va with
    | some x => .next ((s.transDone r x.leaf.toNat x.bits).faultSettle sid)
    | none => .next (s.miss r .walking)

/-! Release (R118, R120, R326, R361). -/

/-- The requests of a list that stand before a number. -/
def reqsBefore (id : Nat) (l : List Req) : List Req := l.takeWhile fun r => r.id != id

/-- Requests of a request's context that issued before it. -/
def State.earlier (s : State) (r : Req) : List Req := (reqsBefore r.id s.reqs).filter fun q => q.sid == r.sid && q.ended == r.ended

/-- Whether a request is a global output that R326 orders: a store or an atomic. -/
def Req.isEntry (r : Req) : Bool := r.isStore

/-- Whether the outputs that a fault strands include a request (R325). -/
def Req.strands (r : Req) : Bool :=
  r.isStore || match r.kind with
    | .emit _ _ => true
    | .wmk _ _ => true
    | .publ _ _ _ _ _ => true
    | _ => false

/-- Whether a request has not left its cluster's buffer, or is not translated yet. -/
def Req.unreleased (r : Req) : Bool := r.stage == .held || r.stage == .released || r.stage == .relWalk

/-- Whether a deferred fault holds a request back: the record stands, and its handler did not make it (R118, R325). -/
def State.faultHolds (s : State) (r : Req) : Bool := r.stranded || ((s.holder r.sid).fault.valid && !r.ended && r.strands && !r.handler)

/-- The conditions of a release store (R120): every earlier global store and atomic is acknowledged, every earlier load has returned, and every
earlier scratchpad access is performed, those of the vector forms and of the port among them (R185). What is stranded does not count (R325). -/
def State.releaseReady (s : State) (r : Req) : Bool :=
  !((s.earlier r).any fun q => !q.stranded && (q.isStore || q.isLoad || q.isVload)) &&
    (r.ended || (
      !((s.ctx r.sid).pend.any fun a => decide (a.serial < r.serial)) &&
      !((s.core (slotCore r.sid)).seq.any fun e => e.sid == r.sid && isVMem e.i && decide (e.serial < r.serial)) &&
      !((s.core (slotCore r.sid)).vout.any fun e => e.sid == r.sid && decide (e.serial < r.serial)) &&
      !((s.core (slotCore r.sid)).port.any fun p => p.sid == r.sid && p.accesses && !p.done && decide (p.serial ≤ r.serial))))

/-- Whether a stream output of a context must wait for global entries of a deferred fault's handler, which go ahead of it (R118, R325). -/
def State.behindHandler (s : State) (r : Req) : Bool := !r.handler && (s.earlier r).any fun q => q.handler && q.isEntry && q.unreleased

/-- Whether an earlier EMIT or WMK of a context to the same source is still held (R231). -/
def State.sourceHeld (s : State) (r : Req) : Bool :=
  let src (k : ReqKind) : Option (Nat × Nat) := match k with
    | .emit n i => some (n, i)
    | .wmk n i => some (n, i)
    | _ => none
  (s.earlier r).any fun q => (src q.kind).isSome && src q.kind == src r.kind

/-- The launches of LAUNCH instructions that wait in a queue's list (R303). -/
def State.listed (s : State) (q : Nat) : Nat :=
  s.launches.countP fun l => l.queue == q && !l.active && (match l.origin with
    | .word _ _ _ _ => true
    | _ => false)

/-- A launch that reaches its queue: it may be the queue's oldest undispatched one (R306). -/
def State.addLaunch (s : State) (l : Launch) : State :=
  { s with launches := s.launches ++ [{ l with oldest := if s.launches.any fun k => k.queue == l.queue && !k.active then none else some s.now }] }

/-- An input appended to a stream. -/
def State.streamIn (s : State) (p n : Nat) (i : SIn) : State :=
  { s with streams := Tab.set {} s.streams (64 * p + n) (let t := Tab.get {} s.streams (64 * p + n); { t with inq := t.inq ++ [i] }) }

/-- The 64-bit words of a value, lowest first. -/
def wordsOf (n v : Nat) : List Word := (List.range n).map fun i => w64 (v / 2 ^ (64 * i))

/-- A released request that needs no translation leaves its cluster: to its stream, its queue, its register or its storer. -/
def State.leave (s : State) (r : Req) : State :=
  match r.kind with
  | .emit n i => (s.dropReq r.id).streamIn r.part n (.record i (wordsOf 4 r.data) (some r.lid))
  | .wmk n i => (s.dropReq r.id).streamIn r.part n (.mark i r.data (some r.lid))
  | .publ n w lane rev amend =>
    let k := 64 * r.part + n
    let t := Tab.get {} s.streams k
    { s.dropReq r.id with
      streams := Tab.set {} s.streams k { t with pubs := t.pubs ++ [{ w := w, lane := lane, revision := rev, amend := amend, value := r.data, lid := r.lid }] } }
  | .launch ix g args q =>
    (s.dropReq r.id).addLaunch { part := r.part, lid := r.expect, queue := q, origin := .word (slotCore r.src) r.id r.lid r.data, tix := ix, gangs := g, args := args
                                 prio := none, pid := r.pid, arrived := s.now }
  | _ => s.modReq r.id fun q => { q with stage := .sent, arr := s.now }

/-- Whether a held request may leave now (R118, R120, R225, R231, R361, R363). -/
def State.mayRelease (s : State) (r : Req) : Bool :=
  r.stage == .held && s.releasable (slotCluster r.src) r.made r.taints && !s.faultHolds r &&
    match r.kind with
    | .device => !(s.earlier r).any Req.isDevice
    | .emit _ _ => !s.sourceHeld r && !s.behindHandler r
    | .wmk _ _ => !s.sourceHeld r && !s.behindHandler r
    | .publ _ _ _ _ _ => !s.behindHandler r
    | .launch _ _ _ q => decide (r.expect ≠ 0) && decide (s.listed q < 64)
    | _ => true

/-- RESTANTE_RELEASE (R361): a held output may leave. Global stores and atomics then await their translation in issue order. -/
def execRestanteRelease (id : Nat) (s : State) : Out :=
  match s.req id with
  | none => .next s
  | some r =>
    if !s.mayRelease r then .next s
    else if r.isStore then .next (s.modReq id fun q => { q with stage := .released })
    else match r.kind with
      | .streamOut _ _ => .next (s.modReq id fun q => { q with stage := .released })
      | _ => .next (s.leave r)

/-- The fault record of a store (Table 19-4). -/
def Req.faultRecord (r : Req) (access : Bool) : FaultRecord :=
  let sh := r.va % 64
  let be := r.be <<< sh
  let first := (List.range 64).find? fun i => be.testBit i
  { valid := true, pc := r.pc, va := w64 (r.va / 64 * 64 + first.getD 0), byteen := w64 be
    kind := match r.kind with
      | .storeRelease => 1
      | .vstore => 2
      | _ => 0
    data := BitVec.ofNat 512 (r.data * 2 ^ (8 * sh)), access := access, pending := true }

/-- The outputs of a context that are stranded behind its deferred fault (R118, R325). -/
def State.strand (s : State) (sid : Nat) : State :=
  { s with reqs := s.reqs.map fun r => if r.sid = sid ∧ r.ended = false ∧ r.strands ∧ r.unreleased ∧ r.handler = false then { r with stranded := true, arr := 0 } else r }

/-- Whether every earlier global entry of the context has been translated (R326). -/
def State.entryTurn (s : State) (r : Req) : Bool := !((s.earlier r).any fun q => q.isEntry && q.unreleased && !q.stranded)

/-- A stream engine's entry whose translation faults: the engine stops (R230). -/
def State.streamFault (s : State) (ci e code va : Nat) : State :=
  s.modCore ci fun k => { k with seng := Tab.set {} k.seng e { Tab.get {} k.seng e with fault := some (code, va) } }

/-- A released entry whose translation faults: a stream engine's stops the engine; any other is dropped, and its record written (R118, R325). -/
def State.entryFault (s : State) (r : Req) (t : Trap) : State :=
  match r.kind with
  | .streamOut ci e => (s.dropReq r.id).streamFault ci e t.code r.va
  | _ =>
    let f := r.faultRecord (t = .accessFault)
    let s1 := (s.dropReq r.id).modHolder r.sid fun c => { c with fault := f }
    { s1.strand r.sid with faultLog := s1.faultLog ++ [(r.sid, s.now, f)] }

/-- A released entry whose walk meets poison (R376). -/
def State.entryPoison (s : State) (r : Req) (l : Nat) : State :=
  match r.kind with
  | .streamOut ci e => (s.dropReq r.id).streamFault ci e codeHbmPoison r.va
  | _ => (s.dropReq r.id).freeze r.sid r.pc l

/-- A translated entry goes to its slice; a release store waits for what R120 asks first. -/
def State.entrySent (s : State) (r : Req) (pa : Nat) : State :=
  s.modReq r.id fun q => { q with pa := pa, stage := if r.kind == ReqKind.storeRelease then .ready else .sent, arr := s.now }

/-- A released entry whose leaf is known. -/
def State.entryDone (s : State) (r : Req) (leaf bits : Nat) : State :=
  if leafAllows (s.part r.part) leaf bits .write r.mode then s.entrySent r (leafPa leaf bits r.va) else s.entryFault r .accessFault

/-- Whether a request is a stream-out write. -/
def Req.isStreamOut (r : Req) : Bool :=
  match r.kind with
  | .streamOut _ _ => true
  | _ => false

/-- RELEASE_TRANSLATION_RETURN (R318, R326): in issue order a released entry is translated and sent to its slice, or it faults; one that misses the
station's cache waits for a walk. A translated release store is sent once R120 allows. -/
def execReleaseTranslationReturn (id : Nat) (s : State) : Out :=
  match s.req id with
  | none => .next s
  | some r =>
    if r.stage = .ready ∧ r.kind = .storeRelease then .next (if s.releaseReady r then s.modReq id fun q => { q with stage := .sent, arr := s.now } else s)
    else if r.stage ≠ .released || s.faultHolds r || !(r.isStreamOut || s.entryTurn r) then .next s
    else if r.isAtomic then .next (s.entrySent r r.pa)
    else match s.cached r.station r.part r.pid r.va with
      | some x => .next (s.entryDone r x.leaf.toNat x.bits)
      | none => .next (s.miss r .relWalk)

/-- A request whose walk has ended goes on: one that was being released, or an access that issued. -/
def State.walkDone (s : State) (r : Req) (leaf bits : Nat) : State := if r.stage = .relWalk then s.entryDone r leaf bits else s.transDone r leaf bits
/-- A request whose walk has ended in a fault. -/
def State.walkFault (s : State) (r : Req) (t : Trap) : State := if r.stage = .relWalk then s.entryFault r t else s.transFault r t

/-- TRANSLATION_WALK_COMPLETE (R319 to R321): the walk of a context's request ends, once the ports have taken its reads; every request that waits for it goes on
or faults. -/
def execTranslationWalkComplete (sid : Nat) (s : State) : Out :=
  match s.reqs.find? fun r => r.sid == sid && r.inWalk && s.walkTakes r.part r.pid r.va with
  | none => .next (s.faultSettle sid)
  | some r =>
    let rs := s.reqs.filter fun q => q.inWalk && q.samePage r
    match s.walkPoison (slotCluster r.src) r.part r.pid r.va with
    | some l => .next (rs.foldl (fun s q => if q.stage = .relWalk then s.entryPoison q l else if q.kind == .xlat then s.transFault q .accessFault else
        (s.dropReq q.id).freeze q.sid q.pc l) s)
    | none =>
      let s1 := s.walked r.station r.part r.pid r.va
      .next (rs.foldl (fun s q => s.faultSettle q.sid) (match s.walk r.part r.pid r.va with
        | .error t => rs.foldl (fun s q => s.walkFault q t) s1
        | .ok (leaf, bits) => rs.foldl (fun s q => s.walkDone q leaf bits) s1))

/-- DEFERRED_TRAP (R325): at an instruction boundary in user mode, outside a frame, the context takes the fault. A SLEEP at the head has not
issued, so EPC names it, and it waits anew after the handler; DEDUCED (log 6). -/
def execDeferredTrap (sid : Nat) (s : State) : Out :=
  let c := s.ctx sid
  if !c.fault.pending || c.heldForSave || c.mode || c.replay.isSome || c.cap.isSome || !c.atBoundary then .next s
  else
    let s0 := match c.meet with
      | some m => if c.inmeet then s.partTakes sid m else s
      | none => s
    if (s.trapBlock sid).isSome then .next s
    else if c.inmeet && (s0.ctx sid).meet.any fun m => s0.partnerTouches sid m then .next s0
    else
      let s1 := (s.modCtx sid fun c => { c with act := .running, fault := { c.fault with pending := false } }).trapAs sid false true
        (if c.fault.access then .accessFault else .translationFault) c.fault.va c.pc
      let home := if c.inmeet && (match c.meet with
        | some m => !m.inPlace
        | none => false) then c.home else sid
      .next (s1.strand home)

/-! Home slices (R278, R392, R395). -/

/-- Whether a load is answered from its die's far copy (R127). -/
def State.fromFarCopy (s : State) (r : Req) : Bool :=
  (r.isLoad || r.isVload) && (s.farCopy (clusterDie (slotCluster r.src)) r.pa).isSome && !s.invals.any fun v => v.sid == r.sid && v.line == lineOf r.pa

/-- What a performed request answers, and the state after it (R113, R122, R158). -/
def State.performAt (s : State) (r : Req) : State × Nat :=
  if r.isStore && !r.isAtomic then
    let v : Nat := match r.kind with
      | .vstore => ((List.range r.size).map fun i =>
          mergeByte (s.physRead (r.pa + i) 1) (r.data / 2 ^ (8 * i) % 256) (r.byteMask i) * 2 ^ (8 * i)).sum
      | _ => r.data
    (s.sliceStore (makerCtx 0 r.src) (some (r.id, r.sid)) r.pa r.size v r.be, 0)
  else match r.kind with
    | .amo op _ =>
      let old := s.physRead r.pa r.size
      (s.sliceStore (makerCtx 1 r.src) (some (r.id, r.sid)) r.pa r.size (op.apply r.size old r.data) (allBytes r.size), old)
    | .cas _ =>
      let old := s.physRead r.pa r.size
      let s1 := if old = r.expect then s.sliceStore (makerCtx 1 r.src) (some (r.id, r.sid)) r.pa r.size r.data (allBytes r.size)
        else s.acceptWrite (makerCtx 1 r.src) r.pa r.size (allBytes r.size)
      (s1, old)
    | .save => (s.sliceStore (makerCtx 0 r.src) none r.pa r.size r.data (allBytes r.size), 0)
    | .streamOut ci _ => (s.sliceLines (makerEngine ci) [(r.pa, r.size, r.data)], 0)
    | _ => (if s.fromFarCopy r then s else s.accept r.pa, s.loadBytes r.sid r.serial r.va r.pa r.size)

/-- What a load performed at its home answers (R117). -/
def State.homeLoad (s : State) (r : Req) : Nat :=
  ((List.range r.size).map fun i => s.ownByte r.sid r.serial (r.va + i) (s.physRead (r.pa + i) 1) * 2 ^ (8 * i)).sum

/-- Whether performing a request reads bytes that poison may lie in (R376). -/
def Req.consumes (r : Req) : Bool := r.isAtomic || r.isLoad || r.isVload

/-- A request performed: its answer is kept with it; what needs no acknowledgement ends. The answer to a partition that its reset has frozen is refused
at its boundary (R378, R379). -/
def State.performed (s : State) (r : Req) (v : Nat) : State :=
  match r.kind with
  | .save => s.dropReq r.id
  | .streamOut ci e =>
    (s.dropReq r.id).modCore ci fun k =>
      { k with seng := Tab.set {} k.seng e (let g := Tab.get {} k.seng e; { g with writes := g.writes.filter fun n => n ≠ r.id }) }
  | _ =>
    let t := s.modReq r.id fun q => { q with stage := .performed, data := if r.isStore && !r.isAtomic then q.data else v }
    if s.frozenPart r.part then t.addNacks [.response r.id] else t

/-- A request performed at its home, or its context stopped by poison. -/
def State.performHome (s : State) (r : Req) : State :=
  match (if r.consumes then s.poisonIn r.pa r.size else none) with
  | some l => (s.dropReq r.id).freeze r.sid r.pc l
  | none =>
    let p := s.performAt r
    p.1.performed r p.2

/-- Whether a request has its physical address and is still to be performed. -/
def Req.translated (r : Req) : Bool :=
  match r.stage with
  | .ready => true
  | .sent => true
  | .held => r.isAtomic
  | .released => r.isAtomic
  | _ => false

/-- Whether an earlier access of the context to the same bytes is still to be performed: before a store any, before a load a load (R118, R269). -/
def State.orderHolds (s : State) (r : Req) : Bool :=
  let load (q : Req) : Bool := (q.isLoad && !q.isDevLoad) || q.kind == .vload false
  (s.earlier r).any fun q => ((r.isStore && (q.isStore || load q)) || (load r && load q)) && !q.stranded && q.translated &&
    decide (r.pa < q.pa + q.size ∧ q.pa < r.pa + r.size)

/-- The entries of a slice's outstanding table in use. -/
def State.entriesOf (s : State) (die slice : Nat) : List OutEntry :=
  s.outs.filter fun e => e.tag / 2 ^ 12 % 32 == slice && e.tag / 2 ^ 17 == die

/-- The end-to-end tag of an entry (Table 25-3). -/
def tagOf (die slice entry gen : Nat) : Nat := gen % 16 + entry * 2 ^ 4 + slice * 2 ^ 12 + die * 2 ^ 17

/-- The number of an entry's generation. -/
def genKey (die slice entry : Nat) : Nat := 8192 * die + 256 * slice + entry

/-- The link direction towards a die of the module that serves a slice (R391). -/
def linkTo (slice die : Nat) : Nat := 2 * (slice % 8) + die

/-- A link direction. -/
def State.link (s : State) (m : Nat) : LinkDir := Tab.get {} s.links m
/-- A link direction changed. -/
def State.modLink (s : State) (m : Nat) (f : LinkDir → LinkDir) : State := { s with links := Tab.set {} s.links m (f (s.link m)) }

/-- A transaction queued on a link direction. -/
def State.queueTrans (s : State) (m tag req : Nat) (part : Option Nat) (addr : Nat) (resp : Option Nat) : State :=
  { s.modLink m fun l => { l with queue := l.queue ++ [{ n := s.nextId, tag := tag, req := req, part := part, addr := addr, resp := resp }] } with
    nextId := s.nextId + 1 }

/-- The die and slice of a device register that belongs to one (R279, R309, R369, R370, R377). DEDUCED (log 6): such a register lies on that die; one that is no
slice's is reached by slice 0, and every other on the die of the access. -/
def regHome (off : Nat) : Option (Nat × Nat) :=
  match pageOf (off / 8 * 8) with
  | some (.race, o) => some (o / 0x10000, o % 0x10000 / 0x800)
  | some (.fuse, o) => some (o / 0x200, 0)
  | some (.recovery, o) => some (o / 0x10000, 0)
  | some (.mfence, o) => some (o / 0x10000, 0)
  | some (.errors, o) => some (o / 0x1000, 0)
  | _ => none

/-- Whether a request is an access of a device register. -/
def Req.isRegister (r : Req) : Bool := r.isDevice || r.isDevLoad

/-- The slice by which a request crosses to the other die. -/
def Req.slice (r : Req) : Nat := if r.isRegister then ((regHome r.va).map Prod.snd).getD 0 else homeSlice r.pa

/-- Whether a device register that a request names lies on the other die (R117, R118). -/
def Req.farRegister (r : Req) : Bool := (regHome r.va).any fun h => h.1 != clusterDie (slotCluster r.src)

/-- A request that goes to the other die takes an outstanding entry, with its generation, and is queued on the slice's module (R392, R395). It
waits while all 256 are in use. -/
def State.sendRemote (s : State) (r : Req) : State :=
  let die := clusterDie (slotCluster r.src)
  let slice := r.slice
  let used := (s.entriesOf die slice).map fun e => e.tag / 2 ^ 4 % 256
  match (List.range 256).find? fun e => !used.contains e with
  | none => s
  | some e =>
    let g := Tab.get 0 s.gens (genKey die slice e)
    let tag := tagOf die slice e g
    let s1 : State := { s with
      outs := s.outs ++ [{ tag := tag, req := r.id, done := false }]
      gens := Tab.set 0 s.gens (genKey die slice e) ((g + 1) % 16) }
    s1.queueTrans (linkTo slice (1 - die)) tag r.id (some r.part) r.pa none

/-- Whether a request is crossing the die link. -/
def State.crossing (s : State) (id : Nat) : Bool := s.outs.any fun e => e.req == id && !e.done

/-- Whether an earlier access of a device register by the context is still to be performed (R117). -/
def State.devEarlier (s : State) (r : Req) : Bool := (s.earlier r).any fun q => q.isDevice || (q.isDevLoad && q.stage != .performed)

/-- The rank of a request of a core or of a stream-out engine among those that reach a port in one cycle (R278). -/
def Req.rank (r : Req) : Nat :=
  match r.kind with
  | .streamOut ci e => engineRank ci (2 + e)
  | _ => coreRank r.src

/-- Whether the ports of its slices take a request of a core or of a stream-out engine in this cycle (R278). -/
def State.takes (s : State) (r : Req) : Bool := (linesAt r.pa r.size).all fun l => s.portTakes l (r.arr + 1) r.rank

/-- Whether a request clears a record of the partition pages (R373). -/
def Req.clearsRecord (r : Req) : Bool :=
  r.isDevice && match pageOf (r.va / 8 * 8) with
  | some (.errors, _) => true
  | _ => false

/-- Whether an access of a device register must wait: for an earlier one of its context, or before XLINV for the walks of its partition (R117, R322). -/
def State.registerWaits (s : State) (r : Req) : Bool := s.devEarlier r || (r.isDevice && r.va / 8 == 0x126 && s.walking r.part)

/-- What a device register answers to a load. -/
def State.registerValue (s : State) (r : Req) : Nat := (s.devRead r.sid r.va r.size).getD 0
/-- A store to a device register takes effect. -/
def State.registerStore (s : State) (r : Req) : State := s.devWrite (.ctx r.part (slotCluster r.src)) r.va r.size r.data

/-- SLICE_REQUEST_ACCEPT (R278, R395): a request reaches its slice, whose port takes one request for a line in a cycle. A load is answered from its
die's far copy where there is one; a request homed on the other die, or for a register there, is sent on; an access of a device register takes effect. -/
def execSliceRequestAccept (id : Nat) (s : State) : Out :=
  match s.req id with
  | none => .next s
  | some r =>
    if r.stage ≠ .sent || s.crossing id || s.orderHolds r then .next s
    else match r.kind with
      | .device => .next (if s.registerWaits r then s else if r.farRegister then s.sendRemote r else (s.registerStore r).dropReq id)
      | .devLoad _ _ _ =>
        .next (if s.registerWaits r then s else if r.farRegister then s.sendRemote r
          else s.modReq id fun q => { q with stage := .performed, data := s.registerValue r })
      | .unsub => .next s
      | _ =>
        if r.isHost then .next (if r.isStore then s else s.performHome r)
        else if s.fromFarCopy r then .next (s.performHome r)
        else if homeDie r.pa = clusterDie (slotCluster r.src) then .next (if s.takes r then s.performHome r else s)
        else .next (s.sendRemote r)

/-- FAR_COPY_INVALIDATION (R127): an invalidation drops its far copy and is acknowledged. -/
def execFarCopyInvalidation (n : Nat) (s : State) : Out :=
  match s.invals.find? fun v => v.n == n with
  | none => .next s
  | some v => .next { s with
      farCopies := s.farCopies.filter fun c => !(c.die == v.die && c.line == v.line)
      invals := s.invals.filter fun w => w.n ≠ n }

/-- SC_MARKER_RETURN (R127): a marker returns on a module once every invalidation that was queued there ahead of it has gone through. -/
def execScMarkerReturn (sid m : Nat) (s : State) : Out :=
  .next (s.modCtx sid fun c => { c with markers := c.markers.filter fun k => k.1 != m || s.invals.any fun v => k.2.contains v.n })

/-- Whether a request's invalidations are still under way. -/
def State.invalidating (s : State) (id : Nat) : Bool := s.invals.any fun v => v.req == id

/-- ATOMIC_ANSWER_RETURN (R123): the old value reaches rd. The request stays while its invalidations are under way. -/
def execAtomicAnswerReturn (id : Nat) (s : State) : Out :=
  match s.req id with
  | none => .next s
  | some r =>
    if r.stage ≠ .performed || s.crossing id then .next s
    else
      let v := extend true r.size r.data
      let rest (s : State) : State := if s.invalidating id then s.modReq id fun q => { q with kind := .store } else s.dropReq id
      let log (s : State) : State := { s with answers := s.answers ++ [(id, v, s.now)] }
      match r.kind with
      | .amo _ d => .next (rest (log (if r.ended then s else s.deliverAt r.sid r.serial s.now (.x d) v)))
      | .cas d => .next (rest (log (if r.ended then s else s.deliverAt r.sid r.serial s.now (.x d) v)))
      | _ => .next s

/-- STORE_ACKNOWLEDGE (R126): a performed store, with its invalidations acknowledged, is known to its cluster. -/
def execStoreAcknowledge (id : Nat) (s : State) : Out :=
  match s.req id with
  | none => .next s
  | some r => .next (if r.stage = .performed && r.isPlainStore && !r.isHost && !s.invalidating id && !s.crossing id then s.dropReq id else s)

/-- HOST_WINDOW_WRITE_ACK (R123, R284): the Harnath link acknowledges a write or an atomic to a host window, which is performed with it, in program
order. -/
def execHostWindowWriteAck (id : Nat) (s : State) : Out :=
  match s.req id with
  | none => .next s
  | some r =>
    if r.stage ≠ .sent || !r.isHost || !r.isStore || (s.earlier r).any (fun q => q.isStore && q.isHost && q.stage != .performed && !q.stranded) then .next s
    else .next (if r.isAtomic then s.performHome r else (s.performAt r).1.dropReq id)

/-! The die link (R391 to R397). -/

/-- The number of the module of a direction in its link: 8 modules of the die link, 2 of the host link (R391). -/
def moduleNumber (m : Nat) : Nat := if m < 16 then m / 2 else m / 2 - 8

/-- What a module of the host link carries: the requests of its die that are under way to host windows. DEDUCED (log 14): they stand for the flits of
that link, which the model does not number. -/
def State.hostFlits (s : State) (m : Nat) : List Flit :=
  let d := moduleNumber m % 2
  let rs := s.reqs.filter fun r => r.stage == .sent && r.isHost && clusterDie (slotCluster r.src) == d
  [{ seq := 0, ts := rs.map fun r => { n := 0, tag := 2 ^ 17 * d, req := r.id, part := some r.part, addr := r.pa - hostBase, resp := none } }]

/-- LINK_* and REPLAY_REISSUE records (R374): one to the bank of every partition with a transaction in the flits, on each die that originated
one, and one to the infrastructure bank; `die` is the die that detects the event, and `engine` 13 for the die link, 14 for the host link. -/
def State.linkRecord (s : State) (engine cls code detail die : Nat) (fs : List Flit) : State :=
  let ts := fs.flatMap Flit.ts
  let ps := (List.range 32).filter fun p => ts.any fun t => t.part == some p
  let addr (p : Nat) : Nat := ((fs.findSome? fun f => f.ts.find? fun t => t.part == some p).map Trans.addr).getD 0
  let rec_ (p : Nat) : ErrRec := { cls := cls, engine := engine, code := code, part := some p, akind := 2, addr := addr p, time := s.now, detail := detail }
  let s1 := ps.foldl (fun s p => [0, 1].foldl (fun s d =>
    if ts.any fun t => t.part == some p && t.tag / 2 ^ 17 == d then s.recordPart d p (rec_ p) else s) s) s
  match ps with
  | p :: _ => s1.recordInfra die (rec_ p)
  | [] => s1.recordInfra die { cls := cls, engine := engine, code := code, time := s.now, detail := detail }

/-- The cycles of one crossing (R397). -/
def LinkDir.crossing (l : LinkDir) : Nat := if l.half then 50 else 48

/-- FLIT_SEND (R397): a module sends a flit of up to three transactions, at most one in a cycle. -/
def execFlitSend (m : Nat) (s : State) : Out :=
  let l := s.link m
  if l.training || l.queue.isEmpty || decide (128 ≤ l.replay.length) || decide (s.now < l.free) then .next s
  else
    let f : Flit := { seq := l.seq, ts := l.queue.take 3, at_ := s.now + l.crossing }
    .next (s.modLink m fun l => { l with
      seq := (l.seq + 1) % 2 ^ 12, queue := l.queue.drop 3, replay := l.replay ++ [f], wire := l.wire ++ [f], free := s.now + 1 })

/-- FLIT_ARRIVAL (R397): the oldest flit on the wire arrives, a crossing after it was sent. One that passes its CRC in sequence delivers its
transactions, and its acknowledgement takes a crossing; a failure asks for replay from its number, records LINK_RETRY (R391), and every later flit is
discarded until the replay. A failure on a module of the host link is recorded with the requests it carries. -/
def execFlitArrival (m : Nat) (crcOk : Bool) (s : State) : Out :=
  let l := s.link m
  if 16 ≤ m then .next (if crcOk then s else s.linkRecord 14 1 codeLinkRetry l.expect (moduleNumber m % 2) (s.hostFlits m))
  else match l.wire with
  | [] => .next s
  | f :: w =>
    let s1 := s.modLink m fun l => { l with wire := w }
    let ack := (f.seq, s.now + l.crossing)
    if s.now < f.at_ then .next s
    else if !crcOk then
      if f.seq ≠ l.expect || l.resend.isSome then .next s1
      else .next ((s1.modLink m fun l => { l with resend := some f.seq, again := Config.replayTime }).linkRecord 13 1 codeLinkRetry f.seq (m % 2)
        (f :: l.replay.filter fun g => w.any fun h => h.seq == g.seq))
    else if f.seq = l.expect ∧ l.resend = none then
      .next { s1.modLink m fun l => { l with expect := (l.expect + 1) % 2 ^ 12, acks := l.acks ++ [ack] } with
          arrived := s1.arrived ++ f.ts.map fun t => { t with at_ := s.now } }
    else if l.resend = none then .next (s1.modLink m fun l => { l with acks := l.acks ++ [ack] })
    else .next s1

/-- Flits sent again one after another, the first arriving in the cycle given. -/
def resent (fs : List Flit) (at_ : Nat) : List Flit := (List.range fs.length).zipWith (fun n f => { f with at_ := at_ + n }) fs

/-- FLIT_REPLAY (R391): the transmitter resends from the number asked for, in sequence order, one flit in a cycle. -/
def execFlitReplay (m : Nat) (s : State) : Out :=
  let l := s.link m
  match l.resend with
  | none => .next s
  | some k =>
    if l.training then .next s
    else
      let fs := l.replay.dropWhile fun f => f.seq ≠ k
      .next (s.modLink m fun l => { l with resend := none, wire := resent fs (s.now + l.again), free := s.now + fs.length })

/-- FLIT_ACKNOWLEDGE (R397): an acknowledgement reaches the transmitter, a crossing after its flit arrived, and the flit leaves the replay buffer. -/
def execFlitAcknowledge (m : Nat) (s : State) : Out :=
  match (s.link m).acks with
  | [] => .next s
  | k :: a => .next (if s.now < k.2 then s else s.modLink m fun l => { l with acks := a, replay := l.replay.filter fun f => f.seq ≠ k.1 })

/-- REPLAY_REISSUE (R392): replay entries lost uncorrectably; each originating slice reissues what it sent in them, and the receiver goes on
behind them. -/
def execReplayReissue (m lo hi : Nat) (s : State) : Out :=
  let l := s.link m
  let lost := l.replay.filter fun f => decide (lo ≤ f.seq ∧ f.seq ≤ hi)
  if 16 ≤ m then .next (((s.hostFlits m).flatMap Flit.ts).foldl (fun s t => s.linkRecord 14 1 codeReplayReissue t.tag (moduleNumber m % 2) [{ seq := 0, ts := [t] }]) s)
  else if lost.isEmpty then .next s
  else
    let keep := l.replay.filter fun f => !decide (lo ≤ f.seq ∧ f.seq ≤ hi)
    let skip := decide (lo ≤ l.expect ∧ l.expect ≤ hi)
    let s1 := s.modLink m fun l => { l with
      replay := keep, wire := l.wire.filter fun f => !decide (lo ≤ f.seq ∧ f.seq ≤ hi)
      expect := if skip then (hi + 1) % 2 ^ 12 else l.expect
      resend := if skip then (keep.head?.map Flit.seq) else l.resend, again := if skip then l.crossing else l.again }
    let again := (lost.flatMap Flit.ts).filter fun t => s.outs.any fun e => e.tag == t.tag && !e.done
    let s2 := again.foldl (fun s t => s.queueTrans (linkTo (t.tag / 2 ^ 12 % 32) (1 - t.tag / 2 ^ 17)) t.tag t.req t.part t.addr none) s1
    .next (again.foldl (fun s t => s.linkRecord 13 1 codeReplayReissue t.tag (t.tag / 2 ^ 17) [{ seq := 0, ts := [t] }]) s2)

/-- The far slice answers a transaction: its response goes back on the same module. -/
def State.respond (s : State) (t : Trans) (v : Nat) : State :=
  s.queueTrans (linkTo (t.tag / 2 ^ 12 % 32) (t.tag / 2 ^ 17)) t.tag t.req t.part t.addr (some v)

/-- REMOTE_REQUEST_ARRIVAL (R392): a request reaches its far slice, which performs it, or answers from its duplicate filter. Whether a load
leaves a far copy is open (R127): the model takes a free value (log 5). -/
def execRemoteRequestArrival (n : Nat) (s : State) : Out :=
  match s.arrived.find? fun t => t.n == n && t.resp.isNone with
  | none => .next s
  | some t =>
    let s1 : State := { s with arrived := s.arrived.filter fun u => u.n ≠ n }
    let noted : State := { s1 with dups := s1.dups ++ [{ tag := t.tag, value := 0 }] }
    match s1.dups.find? fun d => d.tag == t.tag with
    | some d => .next (s1.respond t d.value)
    | none => match s1.req t.req with
      | none => .next (noted.respond t 0)
      | some r =>
        if r.isDevice then .next ((noted.registerStore r).respond t 0)
        else if r.isDevLoad then
          let v := s1.registerValue r
          .next (State.respond { s1 with dups := s1.dups ++ [{ tag := t.tag, value := v }] } t v)
        else if !s.portTakes (lineOf r.pa) t.at_ (linkRank (t.tag / 2 ^ 12 % 8)) then .next s
        else match (if r.consumes then s1.poisonIn r.pa r.size else none) with
        | some l => .next (((noted.dropReq r.id).freeze r.sid r.pc l).respond t 0)
        | none =>
          let p := if r.isLoad || r.isVload then (s1.accept r.pa, s1.homeLoad r) else s1.performAt r
          let die := t.tag / 2 ^ 17
          let keep := (r.isLoad || r.isVload) && (Config.freeValue s1.free).getLsbD 0
          let s2 : State := if keep then { p.1 with
              farCopies := p.1.farCopies ++ [{ die := die, line := lineOf r.pa, data := BitVec.ofNat 512 (p.1.physRead (64 * lineOf r.pa) 64) }] } else p.1
          let s3 : State := { s2 with dups := s2.dups ++ [{ tag := t.tag, value := p.2 }], free := s2.free + 1 }
          let s4 := if r.isStore && !r.isAtomic then s3.performed r 0 else s3
          .next (s4.respond t p.2)

/-- REMOTE_RESPONSE_ARRIVAL (R396): the first response with a tag completes its entry; any later one is discarded. -/
def execRemoteResponseArrival (n : Nat) (s : State) : Out :=
  match s.arrived.find? fun t => t.n == n && t.resp.isSome with
  | none => .next s
  | some t =>
    let s1 : State := { s with arrived := s.arrived.filter fun u => u.n ≠ n }
    match s1.outs.find? fun e => e.tag == t.tag && !e.done with
    | none => .next s1
    | some _ =>
      let s2 : State := { s1 with
        outs := s1.outs.map fun e => if e.tag = t.tag then { e with done := true } else e
        respAcks := s1.respAcks ++ [t.tag] }
      match s2.req t.req with
      | none => .next s2
      | some r => .next (if r.isDevice then s2.dropReq r.id else if r.stage = .sent then s2.performed r (t.resp.getD 0) else s2)

/-- RESPONSE_ACKNOWLEDGEMENT (R392, R396): the far slice drops the tag from its filter, and the entry may be used again; `n` is the tag. -/
def execResponseAcknowledgement (n : Nat) (s : State) : Out :=
  .next (if s.respAcks.contains n then { s with
      respAcks := s.respAcks.erase n, dups := s.dups.filter fun d => d.tag ≠ n, outs := s.outs.filter fun e => !(e.tag == n && e.done) }
    else s)

end Sys2Proof.Machine
end

