-- ==== Sys2Proof/Machine/Start.lean ====
section
/-!
DEFINITION. Package reset, the start and firmware trust (R382 to R389).
-/

namespace Sys2Proof.Machine

/-- Causes of Table 25-6. -/
def causePowerOn : Nat := 1
def causeLinkFailure : Nat := 7
def causeStartFailed : Nat := 9

/-- The start page after a package reset (Tables 25-5 and 26-1): a START_FAILED reset keeps FAILS and REASON, any other clears them; with
FAILS = 3 the next start runs in minimal mode (R386). The stored minimum version and the one-time index outlast every reset (R387). -/
def Boot.afterReset (b : Boot) (cause : Nat) : Boot :=
  let failed := decide (cause = causeStartFailed)
  { minVersion := b.minVersion, attIndex := b.attIndex, cause := cause, prev := b.cause
    fails := if failed then b.fails else 0
    reason := if failed then b.reason else 0
    minimal := failed && decide (b.fails = 3) }

/-- A package reset (R382, R383): the timebase is 0, and every bank and counter but RSTCAUSE is cleared. The arrays of HBM, which R382 does not
name, keep their bytes, and the fuses theirs; DESIGN CHOICE (log 4). -/
def State.packageReset (s : State) (cause : Nat) : State :=
  { State.reset with
    mem := s.mem, hostMem := s.hostMem, poison := s.poison, fuse := s.fuse, boot := s.boot.afterReset cause
    agenda := s.agenda, free := s.free, nextId := s.nextId }

/-- POWER_ON (R382): what HBM held is lost; DESIGN CHOICE (log 4), it reads as bytes that nothing has written. -/
def execPowerOn (s : State) : Out :=
  let s1 := s.packageReset causePowerOn
  .next { s1 with mem := [], poison := [] }
/-- HOST_RESET (R382). -/
def execHostReset (s : State) : Out := .next (s.packageReset 2)
/-- MONITOR_RESET (R382). -/
def execMonitorReset (s : State) : Out := .next (s.packageReset 3)
/-- WATCHDOG (R382). -/
def execWatchdog (s : State) : Out := .next (s.packageReset 4)
/-- THERMAL (R382). -/
def execThermal (s : State) : Out := .next (s.packageReset 5)
/-- SUPPLY (R382). -/
def execSupply (s : State) : Out := .next (s.packageReset 6)
/-- INFRA_UNCORRECTED (R382). -/
def execInfraUncorrected (s : State) : Out := .next (s.packageReset 8)

/-! Stages (R384 to R386). -/

/-- The start page changed. -/
def State.modBoot (s : State) (f : Boot → Boot) : State := { s with boot := f s.boot }

/-- The stage that runs: the first from the release of reset on, when STAGE still reads 0; DEDUCED (log 14). -/
def Boot.running (b : Boot) : Nat := Nat.max 1 b.stage

/-- Whether a stage is the one that runs. -/
def Boot.at (b : Boot) (stage : Nat) : Bool := b.running == stage && !b.halted && !b.ready

/-- The first stage is reached as the first cycle after the release of reset ends. -/
def State.reachStage (s : State) : State := s.modBoot fun b => { b with stage := b.running }

/-- The next stage begins. -/
def State.stageDone (s : State) : State := s.modBoot fun b => { b with stage := b.running + 1, since := s.now }

/-- A stage ends the start (R385, R386): REASON is set and FAILS rises, to 3 at most; the package resets, but for stage 1 and minimal mode,
where the controller halts at the stage. -/
def State.startFail (s : State) (reason : Nat) : State :=
  let s1 := s.modBoot fun b => { b with reason := reason, fails := Nat.min 3 (b.fails + 1) }
  if s.boot.running = 1 ∨ s.boot.minimal then s1.modBoot fun b => { b with halted := true } else s1.packageReset causeStartFailed

/-- A verified image of a version, or the failure: `sig` is the REASON of a bad signature (R387). -/
def State.verified (s : State) (sigOk : Bool) (version : BitVec 32) (sig : Nat) (f : Boot → Boot) : State :=
  if !sigOk then s.startFail sig
  else if version < s.boot.minVersion then s.startFail 3
  else (s.modBoot fun b => f { b with minVersion := if b.minVersion < version then version else b.minVersion }).stageDone

/-- MONITOR_VERIFY (R387), at stage 1. -/
def execMonitorVerify (sigOk : Bool) (version : BitVec 32) (s : State) : Out :=
  .next (if s.boot.at 1 then s.verified sigOk version 1 fun b => { b with monVersion := version } else s)

/-- HBM_TRAINING (R384), at stage 2. -/
def execHbmTraining (ok : Bool) (s : State) : Out :=
  .next (if s.boot.at 2 then (if ok then s.stageDone else s.startFail 4) else s)

/-- LINK_TRAINING (R384), at stage 3. -/
def execLinkTraining (dieOk hostOk : Bool) (s : State) : Out :=
  .next (if s.boot.at 3 then (if !dieOk then s.startFail 5 else if !hostOk then s.startFail 6 else s.stageDone) else s)

/-- FUSEMAP with a core marked (R309). -/
def State.fuseCore (s : State) (ci : Nat) : State :=
  let cl := coreCluster ci
  let k := 48 * clusterDie cl + 2 * clusterY cl + ci % 4 / 2
  { s with fuse := Tab.set 0 s.fuse k (Tab.get 0 s.fuse k ||| (1 <<< (2 * clusterX cl + ci % 2))) }

/-- The clusters of a die in cy, then cx, order. -/
def dieClusters (die : Nat) : List Nat := (List.range Config.clustersPerDie).map fun n => die * Config.clustersPerDie + n

/-- Whether a die stays within the harvest limit of Table 00-1: 64 cores, 8 whole clusters. -/
def State.harvestOk (s : State) (die : Nat) : Bool :=
  let dead := (dieClusters die).map fun cl => 4 - (s.liveCores cl).length
  decide (dead.sum ≤ 64) && decide (dead.countP (fun n => n == 4) ≤ 8)

/-- The cluster of a die that runs in minimal mode (R386). -/
def State.minCluster (s : State) (die : Nat) : Option Nat := (dieClusters die).find? fun cl => (s.liveCores cl).length == 4

/-- A rectangle of one cluster. -/
def rectOf (cl : Nat) : Rect := { x0 := clusterX cl, y0 := clusterY cl, x1 := clusterX cl, y1 := clusterY cl }

/-- CLUSTER_SELF_TEST (R384, R386), at stage 4: `failed` are the cores that failed; DEDUCED (log 14): they are not used, as cores fused off. In
minimal mode the implicit partition 0 of the two running clusters is made, which owns queue 0. -/
def execClusterSelfTest (failed : List Nat) (s : State) : Out :=
  if !s.boot.at 4 then .next s
  else
    let s1 := failed.foldl State.fuseCore s
    if !(s1.harvestOk 0 && s1.harvestOk 1) then .next (s1.startFail 7)
    else if !s.boot.minimal then .next s1.stageDone
    else match s1.minCluster 0, s1.minCluster 1 with
      | some a, some b =>
        let s2 := (s1.modPart 0 fun p => { p with live := true, rect0 := some (rectOf a), rect1 := some (rectOf b) }).modQueue 0 fun q => { q with owner := some 0 }
        .next (s2.modBoot fun k => { k with minClusters := [a, b] }).stageDone
      | _, _ => .next (s1.startFail 7)

/-- SERVICE_FIRMWARE_START (R386, R387), at stage 5; in minimal mode the service firmware is not started. -/
def execServiceFirmwareStart (sigOk : Bool) (version : BitVec 32) (s : State) : Out :=
  .next (if !s.boot.at 5 then s
    else if s.boot.minimal then s.stageDone
    else s.verified sigOk version 2 fun b => { b with svcVersion := version })

/-- START_FAILED (R385): the running stage fails for a reason of Table 26-3. -/
def execStartFailed (reason : BitVec 16) (s : State) : Out :=
  .next (if s.boot.ready || s.boot.halted || !decide (1 ≤ reason.toNat ∧ reason.toNat ≤ 8) then s else s.startFail reason.toNat)

/-- Cycles of a millisecond. -/
def cyclesPerMs : Nat := 1800000

/-- The bound of a stage (Table 26-2). -/
def stageBound (stage : Nat) : Option Nat :=
  match stage with
  | 1 => some (50 * cyclesPerMs)
  | 2 => some (2000 * cyclesPerMs)
  | 3 => some (200 * cyclesPerMs)
  | 4 => some (500 * cyclesPerMs)
  | 5 => some (100 * cyclesPerMs)
  | _ => none

/-- Whether the running stage has passed its bound. -/
def State.stageOver (s : State) : Bool :=
  !s.boot.ready && !s.boot.halted && match stageBound s.boot.running with
    | some n => decide (s.boot.since + n < s.now)
    | none => false

/-- STAGE_TIMEOUT (R385). -/
def execStageTimeout (s : State) : Out := .next (if s.stageOver then s.startFail 8 else s)

/-- MONITOR_IMAGE_LOAD (R385, R386): a halted controller takes a new monitor image; DEDUCED (log 14): the start goes on with its verification
at stage 1. -/
def execMonitorImageLoad (sigOk : Bool) (version : BitVec 32) (s : State) : Out :=
  .next (if s.boot.halted then
      (s.modBoot fun b => { b with halted := false, stage := 1, since := s.now }).verified sigOk version 1 fun b => { b with monVersion := version }
    else s)

/-- ATTESTATION (R387): the running monitor signs the versions, FEATOFF and the nonce with the next one-time index, which is advanced first, and releases
the attestation to its requester; after index 2^20 - 1 it refuses, as it does while the controller is halted (R385, R386). -/
def execAttestation (nonce : BitVec 256) (s : State) : Out :=
  let b := s.boot
  if b.stage ≤ 1 ∨ b.halted = true ∨ 2 ^ 20 ≤ b.attIndex then .next s
  else
    let msg : Nat := nonce.toNat + (b.monVersion.toNat + b.svcVersion.toNat * 2 ^ 32 + featuresOffered.toNat * 2 ^ 64) * 2 ^ 256
    .next (s.modBoot fun b => { b with
      attIndex := b.attIndex + 1, attested := b.attested ++ [(b.attIndex, nonce, Config.attestationSignature b.attIndex msg)] })

/-! What the monitor, the service firmware and the management path do beside the rows of the table (R370, R373, R382, R388). -/

/-- The monitor gives a partition its grant list, of 64 ranges at most (R388). -/
def State.setGrants (s : State) (p : Nat) (ranges : List (Nat × Nat)) : State :=
  if s.boot.halted || decide (32 ≤ p ∨ grantRanges < ranges.length) then s else s.modPart p fun t => { t with grants := ranges }

/-- The record of a write that the service firmware may not make (R388); DESIGN CHOICE (log 14): its class, engine and code, which the spec does not
give, are free, and it goes to the bank of die 0. -/
def State.recordService (s : State) : State :=
  let k := Config.serviceDenied s.free
  { s.recordInfra 0 { cls := k % 3 + 1, engine := k / 4 % 16, code := k / 64 % 2 ^ 16, time := s.now } with free := s.free + 1 }

/-- A write by the service firmware (R388): it may write DBGHALT; every other register is the monitor's, and the write is discarded and recorded. -/
def State.serviceWrite (s : State) (p off : Nat) (v : Word) : State :=
  if s.boot.halted then s else if off = 0x240 then s.devWrite (.monitor p) off 8 v.toNat else s.recordService

/-- The RSTCAUSE word (Table 25-5). -/
def Boot.rstcause (b : Boot) : Nat := b.prev % 256 * 256 + b.cause % 256

/-- A read on the management path of a word of a record of a die's infrastructure bank (R370, Table 25-2). DESIGN CHOICE (log 14): it names the record by
its number, since the spec gives the page of that bank no layout beyond RSTCAUSE. -/
def State.readInfra (s : State) (die n word : Nat) : State :=
  let v := match Tab.get none (Tab.get {} s.banks (infraBank (die % 2))).recs n with
    | some r => if n < 64 ∧ word < 8 then r.word word else 0
    | none => 0
  { s with mgmtRead := some (w64 v) }

/-- A read on the management path of the infrastructure page: RSTCAUSE at offset 0x10 (R382); DESIGN CHOICE (log 14): zero elsewhere. -/
def State.readInfraPage (s : State) (off : Nat) : State := { s with mgmtRead := some (w64 (if off = 0x10 then s.boot.rstcause else 0)) }

/-- A clear on the management path of a record of a die's infrastructure bank (R373). -/
def State.clearInfra (s : State) (die n : Nat) : State := if s.boot.halted then s else s.clearRecord (infraBank (die % 2)) n

end Sys2Proof.Machine
end

