-- ==== Sys2Proof/Machine/Links.lean ====
section
/-!
DEFINITION. Lane failures, and the errors that ECC finds (R374 to R376, R393).
-/

namespace Sys2Proof.Machine

/-- The two directions of the module of a direction. -/
def moduleDirs (m : Nat) : List Nat := [m / 2 * 2, m / 2 * 2 + 1]

/-- The flits in flight or waiting on a module: those whose acknowledgement has not come, and what waits to be sent (R374, R397). -/
def State.moduleFlits (s : State) (m : Nat) : List Flit :=
  (moduleDirs m).flatMap fun k =>
    let l := s.link k
    l.replay ++ (if l.queue.isEmpty then [] else [{ seq := l.seq, ts := l.queue }])

/-- A module record, of the die link or the host link, to the partitions concerned and the infrastructure bank of the die it lies on (R374). -/
def State.moduleRecord (s : State) (cls code m : Nat) : State :=
  if m < 16 then s.linkRecord 13 cls code (moduleNumber m) (m % 2) (s.moduleFlits m)
  else s.linkRecord 14 cls code (moduleNumber m) (moduleNumber m % 2) (s.hostFlits m)

/-- LINK_DOWN: the package resets with cause LINK_FAILURE, which clears the record with its bank (R382, R393). -/
def State.linkDown (s : State) (m : Nat) : State := (s.moduleRecord 3 codeLinkDown m).packageReset causeLinkFailure

/-- LANE_FAILURE (R393): the module goes on at x32 after retraining; flits on the wire and acknowledgements are lost, and the replay buffers keep
the flits. A module that fails at x32 is down. -/
def execLaneFailure (m : Nat) (s : State) : Out :=
  if (s.link m).half then .next (s.linkDown m)
  else .next ((moduleDirs m).foldl (fun s k => s.modLink k fun l => { l with half := true, training := true, wire := [], acks := [] })
    (s.moduleRecord 1 codeLinkDegraded m))

/-- RETRAIN_COMPLETE (R393): the module carries traffic again, and each direction replays from its oldest unacknowledged flit; a module that does
not come up at x32 is down. -/
def execRetrainComplete (m : Nat) (ok : Bool) (s : State) : Out :=
  if !(s.link m).training then .next s
  else if !ok then .next (s.linkDown m)
  else .next ((moduleDirs m).foldl (fun s k => s.modLink k fun l => { l with training := false, resend := l.replay.head?.map Flit.seq, again := l.crossing }) s)

/-- A record of shared logic: to the banks of the partitions concerned on a die, and to its infrastructure bank (R374). -/
def State.recordShared (s : State) (die : Nat) (ps : List Nat) (r : ErrRec) : State :=
  (ps.foldl (fun s p => s.recordPart die p r) s).recordInfra die { r with part := ps.head? }

/-- The partitions whose grants reach an address. -/
def State.grantedTo (s : State) (pa : Nat) : List Nat := (List.range 32).filter fun p => (s.part p).live && (s.part p).grants? pa

/-- HBM_ECC_ERROR (R376): a corrected error is recorded; any other leaves its line poisoned. -/
def execHbmEccError (addr : Nat) (corrected : Bool) (syndrome : Word) (s : State) : Out :=
  let r : ErrRec := { cls := if corrected then 1 else 2, engine := 12, code := if corrected then codeHbmCorrected else codeHbmPoison, akind := 2
                      addr := addr, syndrome := syndrome.toNat, time := s.now }
  let s1 := s.recordShared (homeDie addr) (s.grantedTo addr) r
  .next (if corrected || s1.poison.contains (lineOf addr) then s1 else { s1 with poison := s1.poison ++ [lineOf addr] })

/-- SRAM_ECC_CORRECTION (R375): a slice, station or link SRAM of a die corrects a bit; `parts` are the partitions whose requests it touches. -/
def execSramEccCorrection (engine : BitVec 4) (die : Nat) (parts : List Nat) (syndrome : Word) (s : State) : Out :=
  .next (s.recordShared die parts { cls := 1, engine := engine.toNat, code := codeSramCorrected, syndrome := syndrome.toNat, time := s.now })

/-- The partitions with a request at a slice: in its outstanding table, or sent to it. -/
def State.partsAt (s : State) (slice : Nat) : List Nat :=
  let here (r : Req) : Bool := (s.entriesOf (slice / 32) (slice % 32)).any fun e => e.req == r.id && !e.done
  let home (r : Req) : Bool := r.stage == .sent && !r.isDevice && !r.isHost && sliceOf r.pa == slice
  (List.range 32).filter fun p => s.reqs.any fun r => r.part == p && (here r || home r)

/-- SLICE_UNCORRECTED_ERROR (R375): every partition with a request at the slice is recorded. -/
def execSliceUncorrectedError (slice : Nat) (s : State) : Out :=
  .next (s.recordShared (slice / 32) (s.partsAt slice) { cls := 3, engine := 10, code := codeSliceUncorrected, time := s.now })

end Sys2Proof.Machine
end

