-- ==== Sys2Proof/Machine/Meet.lean ====
section
/-!
DEFINITION. Meetings and roll calls: MEET, PART, PEER, PEERV, ROLL, the key directory, places, travel and dead letters (R216 to R224, R255 to
R267, R363).
-/

namespace Sys2Proof.Machine

/-! The key directory (R256). -/

/-- T_n: the time of a notice, an order, a withdrawal or an arrival between two clusters (R261). -/
def noticeTime (src dst : Nat) : Nat := travelTime src dst 64

/-- The directory clusters of a partition. -/
def State.dirClusters (s : State) (p : Nat) : List Nat := (s.part p).clusters.filter fun cl => !(s.liveCores cl).isEmpty

/-- The fold of a key and a PID. -/
def keyFold (k : Word) (pid : BitVec 16) : Nat :=
  (k.extractLsb' 0 16 ^^^ k.extractLsb' 16 16 ^^^ k.extractLsb' 32 16 ^^^ k.extractLsb' 48 16 ^^^ pid).toNat

/-- The directory cluster of a call. -/
def State.dirOf (s : State) (c : Call) : Nat :=
  let l := s.dirClusters c.part
  l.getD (keyFold c.key c.pid % l.length) (slotCluster c.sid)

/-- The first entry that the probes of a call look at. -/
def State.firstProbe (s : State) (c : Call) : Nat := keyFold c.key c.pid / (s.dirClusters c.part).length % 16

/-- A cluster's post office. -/
def State.post (s : State) (cl : Nat) : Post := Tab.get {} s.posts cl
/-- The state with a post office changed. -/
def State.modPost (s : State) (cl : Nat) (f : Post → Post) : State := { s with posts := Tab.set {} s.posts cl (f (s.post cl)) }
/-- An entry of a post office written. -/
def State.setEntry (s : State) (cl e : Nat) (x : Option DirEntry) : State := s.modPost cl fun p => { p with entries := Tab.set none p.entries e x }

/-- Whether an entry holds a call's key. -/
def DirEntry.holds (x : DirEntry) (c : Call) : Bool := x.part == c.part && x.pid == c.pid && x.key == c.key

/-- The entry that a call uses: the first of its four probes with its key, else the first free one; none for FULL. -/
def State.probe (s : State) (dir : Nat) (c : Call) : Option (Nat × Option DirEntry) :=
  let p := s.post dir
  let es := (List.range 4).map fun k => (s.firstProbe c + k) % 16
  match es.find? fun e => (Tab.get none p.entries e).any fun x => x.holds c with
  | some e => some (e, Tab.get none p.entries e)
  | none => (es.find? fun e => (Tab.get none p.entries e).isNone).map fun e => (e, none)

/-! Messages. -/

/-- A message under way, by its number, once it has arrived. -/
def State.came (s : State) (n : Nat) : Option Msg := s.net.find? fun m => m.id == n && decide (m.at_ ≤ s.now)
/-- The state without a message. -/
def State.dropMsg (s : State) (n : Nat) : State := { s with net := s.net.filter fun m => m.id ≠ n }

/-- The slot in which the party of a MEET or ROLL is parked. -/
def State.partyAt (s : State) (tok : Nat) : Option Nat :=
  (s.ctxs.find? fun e => e.2.act == .parked && !e.2.heldForSave && e.2.park.any fun p => p.tok == tok).map Prod.fst
/-- Whether the party of a MEET or ROLL is saved out, so that what reaches it waits (R223). -/
def State.partySaved (s : State) (tok : Nat) : Bool :=
  (s.savedOut.any fun v => v.ctx.park.any fun p => p.tok == tok) || s.ctxs.any fun e => e.2.heldForSave && e.2.park.any fun p => p.tok == tok

/-- A message to a parked party: it waits while the party is saved out, and is lost on a party that a rollback has taken back. -/
def State.toParty (s : State) (n home tok : Nat) (f : Nat → State) : Out :=
  if (s.clu (slotCluster home)).restore.isSome then .next s
  else match s.partyAt tok with
  | some sid => .next (f sid)
  | none => .next (if s.partySaved tok then s else s.dropMsg n)

/-- The directory's answer to a call. -/
def State.answerCall (s : State) (dir : Nat) (c : Call) (code : Nat) : State :=
  s.send (s.now + noticeTime dir (slotCluster c.sid)) (.answer c.sid c.tok code)

/-! MEET (R216, R217). -/

/-- POFF, PLEN and VMASK (Table 11-2). -/
def lugPoff (x : Word) : Nat := bitsOf x.toNat 13 0
/-- PLEN. -/
def lugPlen (x : Word) : Nat := bitsOf x.toNat 20 14
/-- VMASK. -/
def lugVmask (x : Word) : BitVec 16 := x.extractLsb' 24 16
/-- The vectors a mask names. -/
def maskVecs (m : BitVec 16) : List Nat := (List.range 16).filter fun n => m.getLsbD n

/-- Whether a luggage descriptor is invalid (R216). -/
def Ctx.lugBad (c : Ctx) (x : Word) : Bool :=
  decide (bitsOf x.toNat 63 40 ≠ 0 ∨ bitsOf x.toNat 23 21 ≠ 0 ∨ 4 < (maskVecs (lugVmask x)).length ∨
    c.privSize.toNat < 64 * (lugPoff x + lugPlen x + 1))

/-- A context parked in MEET or ROLL: its snapshot is kept and its call leaves (R217, R266). -/
def State.parkWith (s : State) (p : Park) (snap : Ctx) (parcel off bytes : Nat) (body : Nat → Call → MsgBody) : State :=
  let c := s.me
  let call : Call := { sid := s.cur, tok := s.nextId, part := c.part, pid := c.pid, key := p.key, q := p.quorum, op := p.op, word := p.word, zero := c.meetto == 0 }
  let s1 : State := { s with nextId := s.nextId + 1, snaps := s.snaps ++ [{ sid := s.cur, tok := s.nextId, ctx := snap, at_ := s.now, parcel := parcel, off := off, bytes := bytes }] }
  let s2 := s1.upd fun c => { c with act := .parked, park := some p }
  s2.send (s.now + noticeTime (slotCluster s.cur) (s.dirOf call)) (body (s.dirOf call) call)

/-- The cycle at which a call made now times out. -/
def State.callDeadline (s : State) : Option Nat :=
  if s.me.meetto = 0 ∨ s.me.meetto = BitVec.allOnes 64 then none else some (s.now + s.me.meetto.toNat)

/-- MEET's body. -/
def State.meetForm (s : State) (d a b : BitVec 5) : Res :=
  let i : Instr := .meet d a b
  let c := s.me
  let xp := c.rx b
  if isVisitor s.cur then .trap .visitorFault (wordOf i)
  else if c.inmeet then .trap .meetState (wordOf i)
  else s.regs [a, b] [d] (
    if c.lugBad xp then .trap .meetInvalid (wordOf i)
    else if s.unretired s.cur then .wait .depend
    else if s.portPending s.cur then .wait .matrixWait
    else
      let p : Park := { roll := false, tok := s.nextId, key := c.rx a, d := d, b := b, word := 0, quorum := 0, op := 0, poff := lugPoff xp, plen := lugPlen xp
                        vmask := lugVmask xp, deadline := s.callDeadline, withdrawn := false }
      let off := c.privBase.toNat + 64 * lugPoff xp
      let bytes := 64 * (lugPlen xp + 1)
      .ok (s.parkWith p c (s.spadRead (slotCluster s.cur) off bytes) off bytes .notice))

/-- MEET (R217). -/
def execMeet (d a b : BitVec 5) (s : State) : Out := finish s (s.meetForm d a b)

/-! ROLL (R224, R266, R281). -/

/-- The operations of ROLL: 0 none, then add, min, max, umin, umax, and, or, xor. -/
def rollOp (op : Nat) (a b : Word) : Word :=
  match op with
  | 0 => 0
  | 1 => a + b
  | 2 => if a.sle b then a else b
  | 3 => if a.sle b then b else a
  | 4 => if a ≤ b then a else b
  | 5 => if a ≤ b then b else a
  | 6 => a &&& b
  | 7 => a ||| b
  | _ => a ^^^ b

/-- The combined word of a roll call. -/
def rollWord (op : Nat) : List Word → Word
  | [] => 0
  | w :: l => if op = 0 then 0 else l.foldl (rollOp op) w

/-- ROLL's body: the snapshot is the state parked in ROLL (R363). -/
def State.rollForm (s : State) (i : Instr) (op : Nat) (d a b : BitVec 5) : Res :=
  let c := s.me
  let q := c.rollq.toNat
  if isVisitor s.cur then .trap .visitorFault (wordOf i)
  else if c.inmeet then .trap .meetState (wordOf i)
  else if q < 2 ∨ 1024 < q ∨ (d = b ∧ d ≠ 0) then .trap .meetInvalid (wordOf i)
  else s.regs [a] [d, b] (
    match s.fenceWait s.cur 3 with
    | some k => .wait k
    | none =>
      if s.unretired s.cur then .wait .fence
      else
        let p : Park := { roll := true, tok := s.nextId, key := c.rx a, d := d, b := b, word := c.rx b, quorum := q, op := op, poff := 0, plen := 0, vmask := 0
                          deadline := s.callDeadline, withdrawn := false }
        .ok (s.parkWith p { c with act := .parked, park := some p } 0 0 0 .arrival))

/-- ROLL.none (R224). -/
def execRollNone (d a b : BitVec 5) (s : State) : Out := finish s (s.rollForm (.rollNone d a b) 0 d a b)
/-- ROLL.add (R224). -/
def execRollAdd (d a b : BitVec 5) (s : State) : Out := finish s (s.rollForm (.rollAdd d a b) 1 d a b)
/-- ROLL.min (R224). -/
def execRollMin (d a b : BitVec 5) (s : State) : Out := finish s (s.rollForm (.rollMin d a b) 2 d a b)
/-- ROLL.max (R224). -/
def execRollMax (d a b : BitVec 5) (s : State) : Out := finish s (s.rollForm (.rollMax d a b) 3 d a b)
/-- ROLL.umin (R224). -/
def execRollUmin (d a b : BitVec 5) (s : State) : Out := finish s (s.rollForm (.rollUmin d a b) 4 d a b)
/-- ROLL.umax (R224). -/
def execRollUmax (d a b : BitVec 5) (s : State) : Out := finish s (s.rollForm (.rollUmax d a b) 5 d a b)
/-- ROLL.and (R224). -/
def execRollAnd (d a b : BitVec 5) (s : State) : Out := finish s (s.rollForm (.rollAnd d a b) 6 d a b)
/-- ROLL.or (R224). -/
def execRollOr (d a b : BitVec 5) (s : State) : Out := finish s (s.rollForm (.rollOr d a b) 7 d a b)
/-- ROLL.xor (R224). -/
def execRollXor (d a b : BitVec 5) (s : State) : Out := finish s (s.rollForm (.rollXor d a b) 8 d a b)

/-! Choosing the place (R258 to R260). -/

/-- The offsets of a ring of Table 13-1: by dy, then dx. -/
def ringOffsets (r : Int) : List (Int × Int) :=
  ([-2, -1, 0, 1, 2] : List Int).flatMap fun dy => ([-2, -1, 0, 1, 2] : List Int).filterMap fun dx =>
    if max dx.natAbs dy.natAbs = r.natAbs then some (dx, dy) else none

/-- The candidate offsets, in order (Table 13-1). -/
def placeOffsets : List (Int × Int) := ringOffsets 0 ++ ringOffsets 1 ++ ringOffsets 2

/-- A coordinate clamped into a range. -/
def clampTo (lo hi v : Nat) : Nat := Nat.max lo (Nat.min hi v)

/-- Whether both visitor slots of a cluster are free. -/
def State.placeFree (s : State) (cl : Nat) : Bool :=
  (s.clu cl).vres.isEmpty && (s.ctx (10 * cl + 8)).act == .free && (s.ctx (10 * cl + 9)).act == .free

/-- The meeting cluster of two parties of a partition, by their homes (R258). -/
def State.choosePlace (s : State) (part a b : Nat) : Option Nat :=
  let die := clusterDie a
  match (s.part part).rect die with
  | none => none
  | some r =>
    let mx : Int := clampTo r.x0 r.x1 ((clusterX a + clusterX b) / 2)
    let my : Int := clampTo r.y0 r.y1 ((clusterY a + clusterY b) / 2)
    placeOffsets.findSome? fun o =>
      let x := mx + o.1
      let y := my + o.2
      let cl := clusterAt die x.toNat y.toNat
      if 0 ≤ x ∧ 0 ≤ y ∧ r.has x.toNat y.toNat = true ∧ (s.liveCores cl).isEmpty = false ∧ s.placeFree cl = true then some cl else none

/-- The departure order for a party. -/
def State.orderTo (s : State) (dir : Nat) (c : Call) (place : Nat) (vslot : Option Nat) (partner taint : Nat) : State :=
  s.send (s.now + noticeTime dir (slotCluster c.sid)) (.order c.sid c.tok place vslot partner taint)

/-- The meeting's contributing clusters grow by its place (R363). -/
def State.taintPlace (s : State) (id place : Nat) : State :=
  let t := Tab.get {} s.taintTab id
  { s with taintTab := Tab.set {} s.taintTab id { t with clusters := t.clusters ++ [place] } }

/-- A pairing given its place: in place where the homes are one cluster (R259), else in the first free candidate; none while there is none. -/
def State.placePair (s : State) (dir : Nat) (p : PairRec) : Option State :=
  let ha := slotCluster p.a.sid
  let hb := slotCluster p.b.sid
  if ha = hb then
    some (((s.orderTo dir p.a ha none p.b.sid p.taint).orderTo dir p.b ha none p.a.sid p.taint).taintPlace p.taint ha)
  else (s.choosePlace p.a.part ha hb).map fun cl =>
    let s1 := (s.modClu cl fun c => { c with vres := [0, 1] }).taintPlace p.taint cl
    (s1.orderTo dir p.a cl (some (10 * cl + 8)) (10 * cl + 9) p.taint).orderTo dir p.b cl (some (10 * cl + 9)) (10 * cl + 8) p.taint

/-- The snapshots of MEETs or ROLLs go to the taint of their meeting or roll call. -/
def State.newTaint (s : State) (roll : Bool) (key : Word) (cs : List Call) : State × Nat :=
  let toks := cs.map Call.tok
  let t : Taint := { clusters := (cs.map fun c => slotCluster c.sid).eraseDups, horizon := if roll then some (releaseTime s.now) else none, roll := roll, key := key
                     parties := s.snaps.filter fun p => toks.contains p.tok }
  ({ s with taintTab := Tab.set {} s.taintTab s.nextId t, nextId := s.nextId + 1, snaps := s.snaps.filter fun p => !toks.contains p.tok }, s.nextId)

/-- Two notices pair: the entry is free, and the pairing waits in a pair record while no place is free (R217, R257, R258). -/
def State.pair (s : State) (dir e : Nat) (a b : Call) : State :=
  let r := (s.setEntry dir e none).newTaint false a.key [a, b]
  let p : PairRec := { a := a, b := b, taint := r.2, at_ := s.now }
  match r.1.placePair dir p with
  | some s' => s'
  | none => r.1.modPost dir fun o => { o with pairs := o.pairs ++ [p] }

/-- PAIR_RETRY (R258): the pair records of a post office are tried again, in their order. -/
def execPairRetry (cl : Nat) (s : State) : Out :=
  .next ((s.post cl).pairs.foldl (fun s p => if p.at_ < s.now ∧ (s.now - p.at_) % 64 = 0 then
      (match s.placePair cl p with
       | some s' => s'.modPost cl fun o => { o with pairs := o.pairs.filter fun q => q.taint ≠ p.taint }
       | none => s)
    else s) s)

/-! Notices, arrivals and withdrawals at the directory (R217, R224, R257, R265, R266). -/

/-- Whether a call's partition is under reset. -/
def State.closing (s : State) (c : Call) : Bool := (s.part c.part).reset.isSome

/-- A notice taken; none while it waits at the input. -/
def State.takeNotice (s : State) (dir : Nat) (c : Call) : Option State :=
  match s.probe dir c with
  | none => some (s.answerCall dir c 2)
  | some (e, x) =>
    if s.closing c then some (s.answerCall dir c 3)
    else match x with
      | none =>
        if c.zero then some (s.answerCall dir c 1) else some (s.setEntry dir e (some { part := c.part, pid := c.pid, key := c.key, body := .notice c }))
      | some x => match x.body with
        | .roll _ _ _ => some (s.answerCall dir c 4)
        | .notice a => if 16 ≤ (s.post dir).pairs.length then none else some (s.pair dir e a c)

/-- MEET_NOTICE_ARRIVAL (R217). -/
def execMeetNoticeArrival (n : Nat) (s : State) : Out :=
  match (s.came n).map Msg.body with
  | some (.notice dir c) => .next (match s.takeNotice dir c with
    | some s' => s'.dropMsg n
    | none => s)
  | _ => .next s

/-- The arrival records of an entry. -/
def DirEntry.count (x : DirEntry) : Nat :=
  match x.body with
  | .roll _ _ l => l.length
  | .notice _ => 0

/-- Records in use in an arrival store, those of completed roll calls up to their horizons among them (R266, R365). -/
def Post.arrivals (p : Post) : Nat :=
  ((p.entries.map fun (e : Nat × Option DirEntry) => (e.2.map DirEntry.count).getD 0) ++ (p.kept.map fun k => k.entry.count)).sum

/-- Records whose horizon has passed go. -/
def State.dropKept (s : State) (dir : Nat) : State :=
  s.modPost dir fun p => { p with kept := p.kept.filter fun k => !s.horizonsPast [k.taint] }

/-- A roll call completes: the releases go out in the order of arrival, one per cycle (R266). -/
def State.rollDone (s : State) (dir e : Nat) (x : DirEntry) (op : Nat) (l : List Call) : State :=
  let r := (s.setEntry dir e none).newTaint true x.key l
  let w := rollWord op (l.map Call.word)
  let s1 := r.1.modPost dir fun p => { p with kept := p.kept ++ [{ entry := x, taint := r.2 }] }
  (l.zipIdx).foldl (fun s j => s.send (s.now + j.2 + noticeTime dir (slotCluster j.1.sid)) (.release j.1.sid j.1.tok w r.2)) s1

/-- An arrival taken; none while the arrival store is full. -/
def State.takeArrival (s0 : State) (dir : Nat) (c : Call) : Option State :=
  let s := s0.dropKept dir
  if 1024 ≤ (s.post dir).arrivals then none
  else match s.probe dir c with
    | none => some (s.answerCall dir c 2)
    | some (e, x) =>
      if s.closing c then some (s.answerCall dir c 3)
      else
        let add (l : List Call) : State :=
          let y : DirEntry := { part := c.part, pid := c.pid, key := c.key, body := .roll c.q c.op (l ++ [c]) }
          if c.q ≤ l.length + 1 then s.rollDone dir e y c.op (l ++ [c])
          else if c.zero then s.answerCall dir c 1
          else s.setEntry dir e (some y)
        match x with
        | none => some (add [])
        | some x => match x.body with
          | .notice _ => some (s.answerCall dir c 4)
          | .roll q op l => if q = c.q ∧ op = c.op then some (add l) else some (s.answerCall dir c 4)

/-- ROLL_ARRIVAL (R266). -/
def execRollArrival (n : Nat) (s : State) : Out :=
  match (s.came n).map Msg.body with
  | some (.arrival dir c) => .next (match s.takeArrival dir c with
    | some s' => s'.dropMsg n
    | none => s)
  | _ => .next s

/-- MEET_WITHDRAWAL (R265): a party whose timeout has passed without a departure order or a release withdraws. -/
def execMeetWithdrawal (sid : Nat) (s : State) : Out :=
  let c := s.ctx sid
  match c.act, c.park with
  | .parked, some p =>
    if p.withdrawn || c.heldForSave || isVisitor sid || c.meet.isSome || (match p.deadline with
      | some t => decide (s.now < t)
      | none => true) then .next s
    else
      let call : Call := { sid := sid, tok := p.tok, part := c.part, pid := c.pid, key := p.key, q := p.quorum, op := p.op, word := p.word, zero := false }
      .next ((s.modCtx sid fun c => { c with park := some { p with withdrawn := true } }).send
        (s.now + noticeTime (slotCluster sid) (s.dirOf call)) (.withdrawal (s.dirOf call) call))
  | _, _ => .next s

/-- An entry without the call withdrawn; none where it does not hold it. -/
def DirEntry.without (x : DirEntry) (tok : Nat) : Option (Option DirEntry) :=
  match x.body with
  | .notice c => if c.tok = tok then some none else none
  | .roll q op l =>
    if l.any fun c => c.tok == tok then
      let l' := l.filter fun c => c.tok != tok
      some (if l'.isEmpty then none else some { x with body := .roll q op l' })
    else none

/-- A call taken out of a post office; none where no entry holds it. -/
def State.withdraw (s : State) (dir tok : Nat) : Option State :=
  ((s.post dir).entries.findSome? fun e => (e.2.bind fun x => x.without tok).map fun y => (e.1, y)).map fun r => s.setEntry dir r.1 r.2

/-- Whether a call waits at the input of its post office, so that its withdrawal, which came later, waits behind it (R257). -/
def State.callWaits (s : State) (tok : Nat) : Bool :=
  s.net.any fun m => decide (m.at_ ≤ s.now) && match m.body with
    | .notice _ c => c.tok == tok
    | .arrival _ c => c.tok == tok
    | _ => false

/-- WITHDRAWAL_ARRIVAL (R265): the call is removed and DEAD is sent home; after a pairing or the quorum it is discarded. -/
def execWithdrawalArrival (n : Nat) (s : State) : Out :=
  match (s.came n).map Msg.body with
  | some (.withdrawal dir c) => .next (
    if s.callWaits c.tok then s
    else match s.withdraw dir c.tok with
      | some s' => (s'.answerCall dir c 1).dropMsg n
      | none => s.dropMsg n)
  | _ => .next s

/-- A parked party goes on at the next instruction; its age counts on (R63). -/
def Ctx.unpark (c : Ctx) : Ctx := { c with act := .running, park := none, pc := c.next, serial := c.serial + 1 }

/-- A party's answer: the status in xd, or the trap of a mismatch. -/
def State.takeAnswer (s : State) (sid tok code : Nat) : State :=
  match (s.ctx sid).park with
  | none => s
  | some p =>
    let s1 : State := { s with snaps := s.snaps.filter fun q => q.tok ≠ tok }
    if code < 4 then s1.modCtx sid fun c => (c.wx p.d (w64 code)).unpark
    else (s1.modCtx sid fun c => { c with act := .running, park := none }).trapOf sid .meetMismatch p.key (s.ctx sid).pc

/-- DIRECTORY_ANSWER_ARRIVAL (R217, R224, R265): only the trap of a mismatch waits for the context's port instructions (R172). -/
def execDirectoryAnswerArrival (n : Nat) (s : State) : Out :=
  match (s.came n).map Msg.body with
  | some (.answer home tok code) => s.toParty n home tok fun sid => if code = 4 ∧ (s.trapBlock sid).isSome = true then s else (s.dropMsg n).takeAnswer sid tok code
  | _ => .next s

/-- ROLL_RELEASE (R266, R363): the ROLL completes with MET, the combined word and its taint. -/
def execRollRelease (n : Nat) (s : State) : Out :=
  match (s.came n).map Msg.body with
  | some (.release home tok w taint) => s.toParty n home tok fun sid =>
    (s.dropMsg n).modCtx sid fun c => match c.park with
      | some p => let c1 := ((c.wx p.d 0).wx p.b w).unpark; { c1 with taints := c1.taints ++ [taint] }
      | none => c
  | _ => .next s

/-! Departure, arrival, return (R217, R218, R260, R263, R264). -/

/-- A party's meeting as it begins: its registers and luggage vectors at its MEET. -/
def Ctx.meetingOf (c : Ctx) (p : Park) (partner place : Nat) (inPlace : Bool) (parcel taint : Nat) : Meeting :=
  { partner := partner, place := place, inPlace := inPlace, vmask := p.vmask, poff := p.poff, plen := p.plen, parcel := parcel, partnerPlen := 0, partnerParcel := 0
    hist := [], xs := c.x, vs := (maskVecs p.vmask).map fun n => (n, c.rv (BitVec.ofNat 4 n)), peers := [], gone := false, parting := false, trap := none, taint := taint }

/-- The vectors of a visitor: those of the luggage, every other zero (R10). -/
def lugVecs (vs : List (Nat × VReg)) : Vector VReg 16 :=
  vs.foldl (fun v x => if h : x.1 < 16 then v.set x.1 x.2 h else v) (Vector.replicate 16 0)

/-- The state that travels: the envelope and the luggage (R10, R218). DESIGN CHOICE (log 21): of the CSRs that neither travel nor are read at home (R11)
a visitor finds UEPC, UIE, XID, CAUSE, EPC, TVEC, FRAME and FRAMEPC at their task-start values, and ACCTBASE and ACCTCTL as they stand at
home, so that its cycles are recorded in the ring of its own context (R70). -/
def Ctx.visitor (c : Ctx) (m : Meeting) (home now : Nat) : Ctx :=
  { act := .parked, x := c.x, pc := c.pc, v := lugVecs m.vs, acct := c.acct, fflags := c.fflags, rmode := c.rmode, srseed := c.srseed, meetto := c.meetto
    rollq := c.rollq, taskc := c.taskc, gang := c.gang, launchId := c.launchId, queue := c.queue, pid := c.pid, part := c.part
    mode := c.mode, ui := c.ui, msaved := c.msaved, pmode := c.pmode, pui := c.pui, fault := c.fault, taints := c.taints, meet := some m, park := c.park
    acctbase := c.acctbase, acctctl := c.acctctl, lastIssue := now, home := home, serial := c.serial }

/-- A party whose meeting begins: INMEET is set, MEET completes with MET, and what its partner brought is known (R217, R219). -/
def State.beginMeet (s : State) (sid : Nat) (q : Meeting) : State :=
  s.modCtx sid fun c => match c.park, c.meet with
    | some p, some m =>
      let c1 := (c.wx p.d 0).unpark
      { c1 with inmeet := true, meet := some { m with partnerPlen := q.plen, partnerParcel := q.parcel } }
    | _, _ => c

/-- Whether a party has arrived for the meeting of a taint. -/
def Ctx.arrivedFor (c : Ctx) (taint : Nat) : Bool := c.act == .parked && c.meet.any fun m => m.taint == taint

/-- The meeting begins once both parties are there (R260). -/
def State.meetIfBoth (s : State) (sid : Nat) : State :=
  match (s.ctx sid).meet with
  | none => s
  | some m => match (s.ctx m.partner).meet with
    | none => s
    | some q => if (s.ctx sid).arrivedFor m.taint && (s.ctx m.partner).arrivedFor m.taint then (s.beginMeet sid q).beginMeet m.partner m else s

/-- A party leaves for its visitor slot: the envelope and luggage travel, the home state stays (R218, R260). -/
def State.depart (s0 : State) (sid : Nat) (p : Park) (place vslot partner taint : Nat) : State :=
  let s := s0.closeRun sid
  let c := s.ctx sid
  let m := c.meetingOf p partner place false (parcelKey (slotLocal vslot - 8)) taint
  let bytes := 64 * (p.plen + 1)
  let parcel := s.spadRead (slotCluster sid) (c.privBase.toNat + 64 * p.poff) bytes
  let v := { c with taints := c.taints ++ [taint] }.visitor m sid s.now
  let s1 := (s.modCtx sid fun c => { c with act := .away, fault := {} }).moveReqs sid vslot
  s1.send (s.now + travelTime (slotCluster sid) place (512 + bytes + 512 * m.vs.length)) (.envelope vslot v parcel)

/-- DEPARTURE_ORDER (R260): a party leaves for the meeting, or is ready to meet in place. -/
def execDepartureOrder (n : Nat) (s : State) : Out :=
  match (s.came n).map Msg.body with
  | some (.order home tok place vslot partner taint) => s.toParty n home tok fun sid =>
    match (s.ctx sid).park with
    | none => s
    | some p =>
      let s1 := s.dropMsg n
      match vslot with
      | some v => s1.depart sid p place v partner taint
      | none => (s1.modCtx sid fun c => { c with
          meet := some (c.meetingOf p partner place true (c.privBase.toNat + 64 * p.poff) taint), taints := c.taints ++ [taint] }).meetIfBoth sid
  | _ => .next s

/-- ENVELOPE_ARRIVAL (R217, R263): the parcel goes into the visitor slot's buffer, the cycles of travel are charged (R68), and the meeting begins
once both parties are there. A fault met on the way stands already. In a partition that its reset has frozen the party is frozen (R378). -/
def execEnvelopeArrival (n : Nat) (s : State) : Out :=
  match (s.came n).map Msg.body with
  | some (.envelope vslot c parcel) =>
    match c.meet with
    | none => .next s
    | some m =>
      let s1 := (s.dropMsg n).spadWrite m.place m.parcel (64 * (m.plen + 1)) parcel
      let s2 := s1.modCtx vslot fun o => { c.charged .travel (s.now - c.lastIssue) with
        act := if s.stoppedAt vslot c.part then .frozen else c.act
        lastIssue := s.now, fault := if o.fault.valid then o.fault else c.fault }
      .next (s2.meetIfBoth vslot)
  | _ => .next s

/-- A visitor slot that the party of a meeting has left becomes free; once the last party's luggage has left the cluster, the horizon is known (R264,
R363). A slot that another meeting has taken since stays. -/
def State.freeVisitor (s : State) (sid taint left : Nat) : State :=
  match (s.ctx sid).act, (s.ctx sid).meet with
  | .away, some m =>
    if m.taint ≠ taint then s else
    let s1 : State := { s with ctxs := Tab.set {} s.ctxs sid {} }
    let s2 := s1.modClu (slotCluster sid) fun c => { c with vres := c.vres.filter fun v => v ≠ slotLocal sid - 8 }
    if (s.ctx m.partner).meet.any fun q => q.taint == m.taint then s2 else s2.setHorizon m.taint left
  | _, _ => s

/-- The taint of a party's meeting, where it has one. -/
def Ctx.meetTaint (c : Ctx) : Nat := (c.meet.map Meeting.taint).getD 0

/-- The cycle in which the last byte of return luggage has left the meeting cluster (R264). DESIGN CHOICE (log 10): R261 does not say how the fixed part
of T is split between the two ends; the ⌈L / 32⌉ cycles of the bytes count from the departure. -/
def luggageLeft (c : Ctx) : Nat := c.lastIssue + ceilDiv (512 + 64 * ((c.meet.map Meeting.plen).getD 0 + 1)) 32

/-- VISITOR_SLOT_FREE (R264). -/
def execVisitorSlotFree (sid : Nat) (s : State) : Out :=
  .next ((s.net.findSome? fun m => match m.body with
    | .luggage _ c _ f => if f = sid ∧ luggageLeft c ≤ s.now ∧ (s.ctx sid).meetTaint = c.meetTaint then some (s.freeVisitor sid c.meetTaint (luggageLeft c)) else none
    | _ => none).getD s)

/-- A party's home state with the envelope restored (R10, R221): the visitor's v, k, fm and channels are not taken over. -/
def Ctx.comeHome (h c : Ctx) (now : Nat) : Ctx :=
  { h with
    act := .running, x := c.x, pc := c.pc, fflags := c.fflags, rmode := c.rmode, srseed := c.srseed, meetto := c.meetto, rollq := c.rollq, taskc := c.taskc
    gang := c.gang, launchId := c.launchId, queue := c.queue, pid := c.pid, acct := (c.charged .travel (now - c.lastIssue)).acct
    mode := c.mode, ui := c.ui, msaved := c.msaved, inmeet := false, pmode := c.pmode, pui := c.pui, fault := if h.fault.valid then h.fault else c.fault
    taints := c.taints, meet := none, park := none, serial := Nat.max h.serial c.serial, lastIssue := now, charge := .issue }

/-- RETURN_LUGGAGE_ARRIVAL (R221, R222): the parcel goes back to its private-window bytes, the envelope is restored, and a trap that came along
is taken. -/
def execReturnLuggageArrival (n : Nat) (s : State) : Out :=
  match (s.came n).map Msg.body with
  | some (.luggage home c parcel from_) =>
    match c.meet with
    | none => .next s
    | some m =>
      let off := (s.ctx home).privBase.toNat + 64 * m.poff
      let bytes := 64 * (m.plen + 1)
      if s.undoFull (slotCluster home) off bytes then .next s
      else
        let s1 := ((s.dropMsg n).freeVisitor from_ m.taint (luggageLeft c)).spadWrite (slotCluster home) off bytes parcel
        let s2 := s1.modCtx home fun h => h.comeHome c s.now
        let s3 := match m.trap with
          | some x => s2.modCtx home fun h =>
            { ({ h with cap := x.cap, framepc := if x.cap.isSome then x.framepc else h.framepc }).trapEnter x.async x.t x.tval x.epc with
              pause := some (.redirect, s.now + 3) }
          | none => s2
        .next (if s.stoppedAt home c.part then s3.modCtx home fun h => { h with act := .frozen } else s3)
  | _ => .next s

/-- TAINT_HORIZON (R363): the taints whose horizons have passed clear. -/
def execTaintHorizon (sid : Nat) (s : State) : Out := .next (s.modCtx sid fun c => { c with taints := c.taints.filter fun t => !s.horizonsPast [t] })

/-! PEER and PEERV (R219, R220). -/

/-- The partner's meeting, while its PART has not taken effect. -/
def State.partnerOf (s : State) (sid : Nat) : Option (Nat × Meeting) :=
  match (s.ctx sid).meet with
  | some m => if (s.ctx sid).inmeet && !m.gone && s.atMeeting m.partner m.taint then (s.ctx m.partner).meet.map fun q => (m.partner, q) else none
  | none => none

/-- Whether a write of a context is visible to PEER: every scratchpad access that precedes it has been performed (R219). -/
def State.writeVisible (s : State) (sid ser : Nat) : Bool :=
  !((s.ctx sid).pend.any fun a => decide (a.serial < ser)) &&
    !((s.core (slotCore sid)).seq.any fun e => e.sid == sid && isVMem e.i && decide (e.serial < ser)) &&
    !((s.core (slotCore sid)).port.any fun p => p.sid == sid && p.accesses && !p.done && decide (p.serial ≤ ser))

/-- Whether the latest write of a register has not retired: its result is usable only after the next cycle (R106, R219). -/
def State.writeOpen (s : State) (sid n : Nat) : Bool := (s.ctx sid).late.any fun l => l.code == some n && decide (s.now + 1 < l.at_)

/-- The writes of a register at the meeting that have retired, oldest first. -/
def State.retiredWrites (s : State) (sid : Nat) (m : Meeting) (n : Nat) : List (Nat × Nat × Word) :=
  let l := m.hist.filter fun h => h.1 == n
  if s.writeOpen sid n then l.dropLast else l

/-- The latest visible write of a register at the meeting. -/
def State.visibleWrite (s : State) (sid : Nat) (m : Meeting) (n : Nat) : Option Word :=
  (((s.retiredWrites sid m n).filter fun h => s.writeVisible sid h.2.1).getLast?).map fun h => h.2.2

/-- PEER (R219): plain, it awaits a write of the register at the meeting; `.now`, it takes the value at the partner's MEET where none is
visible. The value is usable two cycles after the issue, or after the write that is awaited, and until then the form holds as an acquire (R119, R293).
DEDUCED (log 10): at no meeting the partner is gone. -/
def execPeer (d n : BitVec 5) (now : Bool) (s : State) : Out :=
  let i : Instr := .peer d n now
  finish s (s.memForm [] [d] [] (
    match s.partnerOf s.cur with
    | none => .trap .partnerGone (wordOf i)
    | some (p, q) =>
      let give (v : Word) : Res := .ok ((s.upd fun c =>
        { ((c.wx d v).usableAt d .depend (s.now + peerLatency)).peersEnd s.now with acq := some .depend }).adv)
      if n = 0 then give 0
      else match s.visibleWrite p q n.toNat with
        | some v => give v
        | none =>
          if now then give (q.xs[n.toNat]'n.isLt)
          else .ok ((s.upd fun c => { c with
            busy := c.busy ++ [(d.toNat, Cause.depend)], acq := some .depend
            meet := c.meet.map fun m => { m with peers := m.peers ++ [(d.toNat, n.toNat)] } }).adv)))

/-- A context's PEERs whose registers have been written receive them. -/
def State.settlePeer (s : State) (sid : Nat) : State :=
  match (s.ctx sid).meet with
  | none => s
  | some m => m.peers.foldl (fun s r => match s.partnerOf sid with
    | none => s
    | some (p, q) => match s.visibleWrite p q r.2 with
      | none => s
      | some v => s.modCtx sid fun c =>
        let left := ((c.meet.map Meeting.peers).getD []).erase r
        let c1 := c.peerGets s.now (BitVec.ofNat 5 r.1) v
        { (if left.isEmpty then c1.peersEnd s.now else c1) with meet := c1.meet.map fun m => { m with peers := left } }) s

/-- A context's writes that PEER can no longer read are forgotten. -/
def State.pruneHist (s : State) (sid : Nat) : State :=
  s.modCtx sid fun c => { c with meet := c.meet.map fun m =>
    { m with hist := (m.hist.zipIdx).filterMap fun h =>
        if s.writeVisible sid h.1.2.1 && (m.hist.drop (h.2 + 1)).any fun g => (s.retiredWrites sid m g.1).contains g && g.1 == h.1.1 && s.writeVisible sid g.2.1 then
          none else some h.1 } }

/-- Every PEER that can receive its value does so. -/
def State.settlePeers (s : State) : State :=
  ((s.ctxs.filter fun e => e.2.inmeet).map Prod.fst).foldl (fun s sid => (s.settlePeer sid).pruneHist sid) s

/-- PEERV (R220): the partner's vector as it travelled, through the sequencer. -/
def execPeerv (d n : BitVec 4) (s : State) : Out :=
  let i : Instr := .peerv d n
  let h : VShape := { d := some (.v d) }
  finish s (
    match s.partnerOf s.cur with
    | none => .trap .partnerGone (wordOf i)
    | some (_, q) =>
      if !q.vmask.getLsbD n.toNat then .trap .meetInvalid (wordOf i)
      else match s.vecStop i h with
        | some r => r
        | none => match s.me.acq with
          | some k => .wait k
          | none => .ok ((s.enqueueV { s.seqEntry i h 0 0 with va := some (((q.vs.find? fun x => x.1 == n.toNat).map Prod.snd).getD 0) } h).adv))

/-! PART (R221). -/

/-- PART (R221). -/
def execPart (s : State) : Out :=
  match s.me.meet with
  | none => finish s (.trap .meetState (wordOf .part))
  | some m =>
    if !s.me.inmeet then finish s (.trap .meetState (wordOf .part))
    else if s.unretired s.cur || s.portPending s.cur then finish s (.wait .fence)
    else
      let s1 := s.partTakes s.cur m
      if s1.partnerTouches s.cur m then finish s (.hold s1 .fence)
      else .next ((s1.partEffect s.cur s.me.next none 1).issued false)

end Sys2Proof.Machine
end

