-- ==== Sys2Proof/Machine/Tasks.lean ====
section
/-!
DEFINITION. The task and stream forms LAUNCH, TEND, SBIND, EMIT, WMK and PUBL, and the steps of the stream engines (R225 to R232).
-/

namespace Sys2Proof.Machine

/-! LAUNCH (R225). -/

/-- A context's oldest id request answered: the partition's next launch id, 0 skipped, or the id given before (R225, R300). -/
def State.answerId (s : State) (sid : Nat) : State :=
  let c := s.ctx sid
  match c.idWait with
  | [] => s
  | (d, n) :: l =>
    let old := (s.answers.find? fun a => a.1 == n).map fun a => a.2.1
    let fresh := (s.part c.part).nextLid
    let v := old.getD (w64 fresh)
    let s1 := if old.isSome then s
      else
        let s2 := (s.modPart c.part fun p => { p with nextLid := if fresh + 1 < 2 ^ 32 then fresh + 1 else 1 }).modReq n fun r => { r with expect := fresh }
        { s2 with answers := s2.answers ++ [(n, v, s.now)] }
    (s1.deliverAt sid (((s.req n).map Req.serial).getD c.serial) s.now (.x d) v).modCtx sid fun c => { c with idWait := l }

/-- LAUNCH_ID_ANSWER (R225): the dispatch logic's answer returns. -/
def execLaunchIdAnswer (sid : Nat) (s : State) : Out := .next (s.answerId sid)

/-- The template that a context may name by an index (R225, R299). -/
def State.template (s : State) (part ix : Nat) : Option Template := if 1024 ≤ ix then none else Tab.get none (s.part part).tmpl ix

/-- LAUNCH's effect on its argument block: the id request leaves at once, and xd awaits its answer. -/
def launchPerform (i : Instr) (d a : BitVec 5) (s : State) (v : Nat) : Res :=
  let c := s.me
  let x := (c.rx a).toNat
  if blockWord v 6 ≠ 0 ∨ blockWord v 7 ≠ 0 then .trap .launchInvalid (wordOf i)
  else if s.inboxFull (slotCore s.cur) then .wait .chanFull
  else if s.restFull (slotCluster s.cur) 1 then .wait .restanteFull
  else
    let n := s.nextId
    let s1 := s.request (.launch (x % 2 ^ 16) (x / 2 ^ 16) ((List.range 6).map fun k => w64 (blockWord v k)) c.queue.toNat) .held 0 0 0 c.gang.toNat 0 0
    .ok ((s1.updCore fun k => { k with reserved := k.reserved + 1 }).upd fun c => { c with
      idWait := c.idWait ++ [(d, n)], busy := c.busy ++ [(d.toNat, Cause.globalWait)] }).adv

/-- LAUNCH (R225). -/
def execLaunch (d a b : BitVec 5) (s : State) : Out :=
  let i : Instr := .launch d a b
  finish s (
    if isVisitor s.cur then .trap .visitorFault (wordOf i)
    else s.memForm [a, b] [d] (if s.me.rx b = 0 then [] else s.blockStops i (s.me.rx b) 64 true) (
      let x := (s.me.rx a).toNat
      if 2 ^ 48 ≤ x || (s.template s.me.part (x % 2 ^ 16)).isNone then .trap .launchInvalid (wordOf i)
      else if s.me.rx b = 0 then launchPerform i d a s 0
      else s.blockForm i (s.me.rx b) 64 true))

/-! TEND (R226). -/

/-- Each active subscription of the running context is cancelled once, as XUNSUB does. -/
def State.cancelSubs (s : State) : State :=
  (s.myCore.xfers.filter fun x => x.kind == XferKind.sub && x.sid == s.cur && x.result.isNone).foldl (fun s x =>
    let asked := ((s.reqsOf s.cur).any fun r => r.kind == ReqKind.unsub && r.data == x.xid.toNat) || (match s.subOf (slotCore s.cur) x.xid with
      | some b => b.cancelled
      | none => false)
    if asked || s.restFull (slotCluster s.cur) 1 then s else s.request .unsub .held 0 0 0 x.xid.toNat 0 0) s

/-- The deferred fault's stranded outputs discarded, and its record cleared. -/
def State.dropStranded (s : State) : State :=
  if !s.me.fault.valid then s
  else
    let s1 : State := { s with reqs := s.reqs.filter fun r => !(r.sid == s.cur && !r.ended && r.strands && r.unreleased && !r.handler) }
    s1.upd fun c => { c with fault := { c.fault with valid := false } }

/-- Whether a request is an output whose release TEND waits for. -/
def Req.tendWaits (r : Req) : Bool :=
  (r.isStore || match r.kind with
    | .launch _ _ _ _ => true
    | .emit _ _ => true
    | .wmk _ _ => true
    | .publ _ _ _ _ _ => true
    | .streamOut _ _ => true
    | _ => false) &&
  match r.stage with
  | .translating => true
  | .walking => true
  | .held => true
  | _ => false

/-- Whether a stream-out engine still holds entries that a context wrote: to global memory, or to the scratchpad (R230, R290). -/
def StreamEng.owes (g : StreamEng) (sid : Nat) (glob : Bool) : Bool :=
  g.active && g.out && g.sid == sid && g.fault.isNone && !g.buf.isEmpty && decide ((bitsOf g.base.toNat 63 48 < 0xF0) = (glob = true))

/-- What TEND waits for (R226): the release of every output, what its stream-out channels hold among them (R290), and the end of every earlier
instruction and transfer. -/
def State.tendWait (s : State) : Option Cause :=
  let c := s.me
  let k := s.myCore
  if ((s.reqsOf s.cur).any Req.tendWaits) || c.tainted || (k.seng.any fun e => e.2.owes s.cur true) then some .quarantine
  else if s.unretired s.cur || s.portPending s.cur || !c.idWait.isEmpty || (k.xfers.any fun x => x.sid == s.cur) ||
      (k.seng.any fun e => e.2.owes s.cur false) then
    some .fence
  else none

/-- The end of the running context's task: its last cycle is charged and its run closed, its unread inbox entries go, ownership is released,
the slot is free, and its launch counts the end (R226, R316). -/
def State.endTask (s : State) : State :=
  let c := s.me
  let sid := s.cur
  let s1 := (s.lastCycle sid).updCore fun k => { k with
    owner := if k.owner = some sid then none else k.owner
    inbox := k.inbox.filter fun e => e.tag != slotTag sid
    seng := k.seng.map fun e => (e.1, if e.2.sid = sid then { e.2 with ended := true } else e.2) }
  { s1 with
    ctxs := Tab.set {} s1.ctxs sid {}
    snaps := s1.snaps.filter fun p => !(p.sid == sid && p.ctx.launchId == c.launchId && p.ctx.gang == c.gang)
    reqs := s1.reqs.map fun r => if r.sid = sid then { r with ended := true } else r
    launches := s1.launches.map fun l =>
      if l.part = c.part ∧ l.lid = c.launchId.toNat then
        { l with ends := l.ends ++ [{ gang := bitsOf c.gang.toNat 31 0, member := bitsOf c.gang.toNat 39 32, cl := slotCluster sid, at_ := s.now }] }
      else l }

/-- TEND (R226). In the handler of a deferred fault it discards the stranded outputs (R325). -/
def execTend (s : State) : Out :=
  if s.me.inmeet then finish s (.trap .meetState (wordOf .tend))
  else
    let s0 := s.cancelSubs
    let s1 := if s.me.mode then s0.dropStranded else s0
    match s1.tendWait with
    | some k => finish s (.hold s1 k)
    | none => .next s1.endTask

/-! SBIND (R230). -/

/-- The fields of a stream descriptor (Table 11-6). -/
structure StreamBlk where
  eng : Nat
  out : Bool
  wide : Bool
  n : List Nat
  stride : List Word
  base : Word
  reserved : Bool
  deriving DecidableEq, Repr

/-- The descriptor read from 64 bytes. -/
def streamBlk (v : Nat) : StreamBlk :=
  let w := blockWord v
  { eng := bitsOf (w 6) 1 0, out := (w 6).testBit 2, wide := (w 6).testBit 3
    n := [bitsOf (w 1) 15 0, bitsOf (w 1) 31 16, bitsOf (w 1) 47 32, bitsOf (w 1) 63 48]
    stride := [w64 (w 2), w64 (w 3), w64 (w 4), w64 (w 5)], base := w64 (w 0)
    reserved := decide (w 7 ≠ 0 ∨ bitsOf (w 6) 63 4 ≠ 0) }

/-- Bytes of an entry. -/
def entryBytes (wide : Bool) : Nat := if wide then 512 else 8

/-- The address of entry `q` of a pattern, dimension 0 fastest (R230). -/
def patternAt (base : Word) : List Nat → List Word → Nat → Word
  | n :: ns, st :: ss, q => patternAt (base + w64 (q % n) * st) ns ss (q / n)
  | _, _, _ => base

/-- Whether BASE and the strides are multiples of 8 or 64. -/
def StreamBlk.aligned (b : StreamBlk) : Bool := (b.base :: b.stride).all fun x => decide (x.toNat % (if b.wide then 64 else 8) = 0)

/-- The checks of SBIND: the fields, then every scratchpad byte (R205, R230); `a` is the descriptor's address. -/
def State.streamFaultOf (s : State) (a : Word) (b : StreamBlk) : Option (Trap × Word) :=
  if b.reserved || (b.n.any fun k => k == 0) || !b.aligned || !(inSpad b.base || inGlobal b.base) then some (.engineInvalid, a)
  else if inSpad b.base then
    s.scratchCheck false ((List.range (patternCount b.n)).map fun q => (patternAt b.base b.n b.stride q, entryBytes b.wide))
  else none

/-- SBIND's effect: an active engine is waited for, an inbox entry is reserved, and the engine starts; unread stream-in entries go. -/
def sbindPerform (a : Word) (s : State) (v : Nat) : Res :=
  let b := streamBlk v
  let c := s.me
  match s.streamFaultOf a b with
  | some (t, x) => .trap t x
  | none =>
    if (s.engOf s.cur b.eng).active || s.inboxFull (slotCore s.cur) then .wait .chanFull
    else .ok ((((s.dropEntries (slotCore s.cur) b.eng).updCore fun k => { k with reserved := k.reserved + 1 }).modEng s.cur b.eng fun _ =>
      { active := true, sid := s.cur, out := b.out, wide := b.wide, base := b.base, priv := c.privBase.toNat, n := b.n, stride := b.stride
        pid := c.pid, part := c.part, mode := c.mode, serial := c.serial }).adv)

/-- SBIND (R230). -/
def execSbind (a : BitVec 5) (s : State) : Out := finish s (s.engineForm (.sbind a) a)

/-! The stream engines (R230, R253). -/

/-- A core's stream engine changed. -/
def State.modStream (s : State) (ci e : Nat) (f : StreamEng → StreamEng) : State :=
  s.modCore ci fun k => { k with seng := Tab.set {} k.seng e (f (Tab.get {} k.seng e)) }

/-- Entries a buffer holds at most (Table 11-5). -/
def StreamEng.depth (g : StreamEng) : Nat := if g.wide then 4 else 16

/-- The address of entry `q` of an engine's pattern. -/
def StreamEng.addr (g : StreamEng) (q : Nat) : Word := patternAt g.base g.n g.stride q

/-- The address of an engine's next entry. -/
def StreamEng.at_ (g : StreamEng) : Word := g.addr g.moved

/-- The scratchpad offset of entry `q` of an engine's pattern. -/
def StreamEng.offAt (g : StreamEng) (q : Nat) : Nat := (if topOf g.base = 0xF1 then g.priv else 0) + (g.addr q).toNat % 2 ^ 48

/-- The scratchpad offset of an engine's next entry. -/
def StreamEng.off (g : StreamEng) : Nat := g.offAt g.moved

/-- The addresses of the line requests of an engine's next entry in global memory (R253). -/
def StreamEng.pieces (g : StreamEng) : List Word := (List.range (ceilDiv (entryBytes g.wide) 64)).map fun k => g.at_ + w64 (64 * k)

/-- Whether an engine's scratchpad accesses may begin: every earlier scratchpad access of its context is performed (R160). -/
def State.streamClear (s : State) (ci : Nat) (g : StreamEng) : Bool :=
  g.ended ||
    (!((s.ctx g.sid).pend.any fun a => decide (a.serial < g.serial)) &&
      !((s.core ci).seq.any fun e => e.sid == g.sid && isVMem e.i && decide (e.serial < g.serial)) &&
      !((s.core ci).port.any fun p => p.sid == g.sid && p.accesses && !p.done && decide (p.serial ≤ g.serial)))

/-- The entries that the buffer of a stream-in engine still has room for: one popped holds its place until the instruction that popped it retires (R94, R253). -/
def State.entryRoom (s : State) (ci e : Nat) : Nat :=
  let g := Tab.get {} (s.core ci).seng e
  g.depth - g.buf.length - s.engineHeld ci e

/-- The unit of a stream engine's entry in the scratchpad: an entry to be read, or one to be written from the buffer. -/
def StreamEng.unit (g : StreamEng) (ci e q : Nat) : EngineLeft :=
  let n := entryBytes g.wide
  mkUnit (.entry ci e q) [if g.out then { from_ := none, val := g.buf.headD 0, to_ := some (g.offAt q), pa := 0, n := n }
    else { from_ := some (g.offAt q), val := 0, to_ := none, pa := 0, n := n }]

/-- Bytes read from global memory by an engine in pieces of at most 64, or the fault. -/
def State.streamRead (s : State) (cl : Nat) (g : StreamEng) (a : Word) (e : Nat) : Nat → Except (Nat × Word) Nat
  | 0 => .ok 0
  | n + 1 => match s.streamRead cl g a e n with
    | .error x => .error x
    | .ok v => match s.engineGlobal cl g.part g.pid g.mode .read (a + w64 (e * n)) e with
      | .error c => .error (c, a + w64 (e * n))
      | .ok pa => .ok (v + s.engineRead cl pa e * 2 ^ (8 * e * n))

/-- A stream-out write to global memory put into the restante buffer; one that crosses a page is translated in two parts, and takes one entry (Table 24-2). -/
def State.streamHold (s : State) (ci e : Nat) (g : StreamEng) (a : Word) (n v : Nat) : State :=
  let c := s.holder g.sid
  let one (s : State) (va size d first : Nat) : State :=
    let r : Req := { id := s.nextId, sid := g.sid, kind := .streamOut ci e, stage := .held, va := va, size := size, pa := 0, data := d, be := allBytes size
                     expect := first, pc := 0, made := s.now, pid := g.pid, part := g.part, mode := g.mode, serial := g.serial, handler := false
                     stranded := false, taints := c.taints, src := 10 * coreCluster ci + 2 * (ci % 4), lid := c.launchId.toNat }
    ({ s with reqs := s.reqs ++ [r], nextId := s.nextId + 1 }).modStream ci e fun g => { g with writes := g.writes ++ [r.id] }
  let k := 4096 - a.toNat % 4096
  if k < n then one (one s a.toNat k (v % 2 ^ (8 * k)) 0) (a.toNat + k) (n - k) (v / 2 ^ (8 * k)) s.nextId else one s a.toNat n v 0

/-- STREAM_ENGINE_ENTRY (R230, R253): an engine moves its next entry; one in the scratchpad has had its lines served, and entries are delivered in the
order of the pattern. A fault stops the engine. What it writes to global memory carries the taints that its context holds then (R363); DEDUCED (log 12). -/
def execStreamEngineEntry (ci e : Nat) (s : State) : Out :=
  let g := Tab.get {} (s.core ci).seng e
  let cl := coreCluster ci
  let w : EngineWork := .entry ci e g.moved
  let r := 3 + 4 * (ci % 4) + e
  let vas := g.pieces.map BitVec.toNat
  let took (s : State) (buf : List Nat) : State := s.modStream ci e fun g => { g with moved := g.moved + 1, buf := buf }
  if !g.active || s.frozenPart g.part || decide (savedBase ≤ g.sid) || g.fault.isSome || decide (patternCount g.n ≤ g.moved) then .next s
  else if inSpad g.base then
    match s.unitOf cl r w with
    | some u =>
      if !u.done then .next s
      else if g.out then .next (took (s.dropUnit cl r w) (g.buf.drop 1))
      else .next (took (s.dropUnit cl r w) (g.buf ++ u.pieces.map u.value))
    | none => .next s
  else if !g.out then
    if s.entryRoom ci e = 0 then .next s
    else match s.xlatAsk cl g.part g.pid g.sid vas with
      | some t => .next t
      | none => match s.streamRead cl g g.at_ (Nat.min (entryBytes g.wide) 64) (ceilDiv (entryBytes g.wide) 64) with
        | .error (c, x) => .next ((s.xlatDone g.part g.pid g.sid vas).modStream ci e fun g => { g with fault := some (c, x.toNat) })
        | .ok v =>
          let rd := s.engineLines cl g.part g.pid g.mode .read g.pieces
          match s.portAsk (s.portReads cl rd) (engineRank ci (2 + e)) with
          | some t => .next t
          | none => .next (took (s.engineReads cl rd) (g.buf ++ [v]))
  else match g.buf with
    | [] => .next s
    | v :: l => .next (if s.restFull cl 1 then s else took (s.streamHold ci e g g.at_ (entryBytes g.wide) v) l)

/-- An inbox entry for a task that has ended is discarded, and its place is free again; DEDUCED (log 11). -/
def State.dropEntry (s : State) (ci : Nat) : State := s.modCore ci fun k => { k with reserved := k.reserved - 1 }

/-- STREAM_ENGINE_COMPLETE (R230, R238): the pattern is exhausted, and for stream-out every byte performed, or a fault stopped the engine: its
entry of KIND 9 is posted. -/
def execStreamEngineComplete (ci e : Nat) (s : State) : Out :=
  let g := Tab.get {} (s.core ci).seng e
  if !g.active || decide (savedBase ≤ g.sid) || !g.writes.isEmpty || (g.fault.isNone && decide (g.moved < patternCount g.n)) then .next s
  else
    let w (status code detail : Nat) : State :=
      s.postEntry ci (slotTag g.sid) (w64 (e * 2 ^ 32 + code * 2 ^ 16 + slotTag g.sid * 2 ^ 8 + status * 2 ^ 4 + 9)) (w64 detail)
    let s1 := if g.ended then s.dropEntry ci
      else match g.fault with
        | some (c, a) => w 1 c a
        | none => w 0 0 g.moved
    .next (s1.modStream ci e fun g => { g with active := false })

/-! EMIT, WMK and PUBL (R231, R232). -/

/-- Whether a source operand names a device source of a stream bound in a partition. -/
def State.deviceSource (s : State) (part x : Nat) : Bool :=
  decide (x < 2 ^ 22 ∧ x % 2 ^ 16 < 64) && match (Tab.get {} s.streams (64 * part + x % 2 ^ 16)).bound with
    | some b => decide (x / 2 ^ 16 < b.nsrc) && b.devmask.toNat.testBit (x / 2 ^ 16)
    | none => false

/-- A stream output of the running context put into the restante buffer. -/
def State.streamOutput (s : State) (k : ReqKind) (v : Nat) : Res :=
  if s.restFull (slotCluster s.cur) 1 then .wait .restanteFull else .ok (s.request k .held 0 0 0 v 0 0).adv

/-- EMIT's effect on its record. -/
def emitPerform (x : Nat) (s : State) (v : Nat) : Res := s.streamOutput (.emit (x % 2 ^ 16) (x / 2 ^ 16)) v

/-- EMIT (R231). -/
def execEmit (a b : BitVec 5) (s : State) : Out :=
  let i : Instr := .emit a b
  finish s (
    if isVisitor s.cur then .trap .visitorFault (wordOf i)
    else s.memForm [a, b] [] (s.blockStops i (s.me.rx b) 32 false) (
      let x := (s.me.rx a).toNat
      if !s.deviceSource s.me.part x then .trap .streamFault (wordOf i) else s.blockForm i (s.me.rx b) 32 false))

/-- WMK (R231). -/
def execWmk (a b : BitVec 5) (s : State) : Out :=
  let i : Instr := .wmk a b
  finish s (
    if isVisitor s.cur then .trap .visitorFault (wordOf i)
    else s.memForm [a, b] [] [] (
      let x := (s.me.rx a).toNat
      if !s.deviceSource s.me.part x then .trap .streamFault (wordOf i) else s.streamOutput (.wmk (x % 2 ^ 16) (x / 2 ^ 16)) (s.me.rx b).toNat))

/-- PUBL's effect on its value. -/
def publPerform (i : Instr) (s : State) (v : Nat) : Res :=
  match s.me.win with
  | none => .trap .streamFault (wordOf i)
  | some w => match s.streamOutput (.publ w.stream w.window w.lane w.revision w.amend) v with
    | .ok s' => .ok (s'.upd fun c => { c with win := some { w with published := true } })
    | r => r

/-- PUBL (R232). -/
def execPubl (a : BitVec 5) (s : State) : Out :=
  let i : Instr := .publ a
  finish s (
    if isVisitor s.cur then .trap .visitorFault (wordOf i)
    else s.memForm [a] [] (s.blockStops i (s.me.rx a) 16 false) (
      match s.me.win with
      | none => .trap .streamFault (wordOf i)
      | some w => if w.published then .trap .streamFault (wordOf i) else s.blockForm i (s.me.rx a) 16 false))

end Sys2Proof.Machine
end

