-- ==== Sys2Proof/Machine/Queues.lean ====
section
/-!
DEFINITION. Queues, their commands and completions, templates, the partition commands and partition reset (R297 to R305, R317, R378, R379).
-/

namespace Sys2Proof.Machine

/-! Fetching and completing commands (R303 to R305). -/

/-- Word `n` of a command. -/
def Cmd.word (c : Cmd) (n : Nat) : Nat := c.w.toNat / 2 ^ (64 * n) % 2 ^ 64
/-- OP. -/
def Cmd.op (c : Cmd) : Nat := bitsOf (c.word 0) 7 0
/-- ARG. -/
def Cmd.arg (c : Cmd) : Nat := bitsOf (c.word 0) 31 16
/-- CTAG. -/
def Cmd.ctag (c : Cmd) : Nat := bitsOf (c.word 0) 63 32

/-- Whether words `n` to 7 of a command are 0. -/
def Cmd.zeroFrom (c : Cmd) (n : Nat) : Bool := c.w.toNat / 2 ^ (64 * n) == 0

/-- Whether the reserved bits of a rectangle word are 0 (Table 18-4). -/
def rectClean (w : Nat) : Bool := bitsOf w 62 29 == 0 && bitsOf w 23 21 == 0 && bitsOf w 15 13 == 0 && bitsOf w 7 5 == 0

/-- Whether a command of a queue is one that the queue accepts, with its reserved words and bits 0 (R304, R386, R389). DEDUCED (log 11): the monitor
queue, which belongs to no partition, takes FENCE beside the partition commands. -/
def State.cmdOk (s : State) (q : Nat) (c : Cmd) : Bool :=
  let mon := q == monitorQueue
  bitsOf (c.word 0) 15 8 == 0 &&
  match c.op with
  | 0x01 => !mon && bitsOf (c.word 1) 63 35 == 0
  | 0x02 => !mon && s.feature 1 && !s.boot.minimal && c.zeroFrom 2
  | 0x03 => !mon && s.feature 1 && !s.boot.minimal && bitsOf (c.word 1) 63 9 == 0 && bitsOf (c.word 1) 7 6 == 0 && bitsOf (c.word 2) 63 32 == 0 && c.zeroFrom 4
  | 0x04 => !mon && decide (c.arg < 2) && bitsOf (c.word 1) 63 32 == 0 && c.zeroFrom 2
  | 0x05 => !mon && decide (c.arg < 2) && bitsOf (c.word 1) 63 32 == 0 && c.zeroFrom 2
  | 0x06 => c.arg == 0 && c.zeroFrom 1
  | 0x07 => !mon && c.zeroFrom 2
  | 0x10 => mon && rectClean (c.word 1) && rectClean (c.word 2) && c.zeroFrom 3
  | 0x11 => mon && c.zeroFrom 1
  | 0x12 => mon && c.zeroFrom 1
  | 0x13 => mon && bitsOf (c.word 1) 63 5 == 0 && c.zeroFrom 2
  | _ => false

/-- A global pointer of a queue as a physical address: translated with QPID, as a supervisor. The monitor's queue, which has no partition, holds
physical addresses; DEDUCED (log 11). -/
def State.queuePa (s : State) (q : Nat) (a : Access) (p : Word) : Except Trap Nat :=
  match (s.queue q).owner with
  | none => .ok p.toNat
  | some part => if inGlobal p then s.translate unitCluster part (s.queue q).qpid true a p.toNat else .error .translationFault

/-- `8 n` bytes read through a queue's pointer. -/
def State.queueRead (s : State) (q : Nat) (p : Word) : Nat → Except Trap Nat
  | 0 => .ok 0
  | n + 1 => match s.queueRead q p n with
    | .error t => .error t
    | .ok v => match s.queuePa q .read (p + w64 (8 * n)) with
      | .error t => .error t
      | .ok pa => .ok (v + s.physRead pa 8 * 2 ^ (64 * n))

/-- The slices accept the reads of `n` 64-byte lines through a queue's pointer (R279). -/
def State.queueSeen (s : State) (q : Nat) (p : Word) (n : Nat) : State :=
  ((List.range n).filterMap fun i => match s.queuePa q .read (p + w64 (64 * i)) with
    | .ok pa => some pa
    | .error _ => none).foldl State.accept s

/-- Whether a completion ring is full (R303). -/
def Queue.cqFull (k : Queue) : Bool := (k.cqwidx + 2 ^ 32 - k.cqridx % 2 ^ 32) % 2 ^ 32 == 2 ^ k.cqlog2n

/-- A command done: its completion awaits its record. -/
def State.finishCmd (s : State) (q n status code word1 : Nat) : State :=
  s.modQueue q fun k => match k.cmds.find? fun c => c.n == n with
    | none => k
    | some c => { k with cmds := k.cmds.filter fun c => c.n ≠ n, dones := k.dones ++ [{ ctag := c.ctag, code := code, status := status, word1 := word1 }] }

/-- COMMAND_FETCH (R303, R304): the next command between QCIDX and QPIDX. A command the queue does not accept completes with CMD_INVALID. A queue
fetches nothing behind a FENCE that is not done, nor while its completion ring is full; DEDUCED (log 11), nor while its ring cannot be read. In minimal
mode queue 0 alone is there, and the monitor queue, whose PART_CREATE fails (R386). -/
def execCommandFetch (q : Nat) (s : State) : Out :=
  let k := s.queue q
  if !k.en || !s.boot.ready || k.ahead == 0 || k.cqFull || (k.cmds.any fun c => c.op == 6) || (k.owner.isNone && q != monitorQueue) ||
      (s.boot.minimal && q != 0 && q != monitorQueue) then .next s
  else match s.queueRead q (k.qbase + w64 (64 * (k.qcidx % 2 ^ k.log2n))) 8 with
    | .error _ => .next s
    | .ok v => .next <| s.ported <|
      let s := s.queueSeen q (k.qbase + w64 (64 * (k.qcidx % 2 ^ k.log2n))) 1
      let c : Cmd := { n := k.qcidx, w := BitVec.ofNat 512 v, at_ := s.now, started := false }
      let s1 := s.modQueue q fun k => { k with qcidx := (k.qcidx + 1) % 2 ^ 32, cmds := k.cmds ++ [c] }
      if s.cmdOk q c then s1 else s1.finishCmd q c.n 1 codeCmdInvalid 0

/-- COMPLETION_RECORD_WRITE (R303, R305): the next completion record of a queue is written, once its ring has room and can be written. -/
def execCompletionRecordWrite (q : Nat) (s : State) : Out :=
  let k := s.queue q
  match k.dones with
  | [] => .next s
  | d :: l =>
    if k.cqFull then .next s
    else match s.queuePa q .write (k.cqbase + w64 (16 * (k.cqwidx % 2 ^ k.cqlog2n))) with
      | .error _ => .next s
      | .ok pa =>
        let v := d.ctag * 2 ^ 32 + d.code * 2 ^ 16 + d.status + d.word1 * 2 ^ 64
        .next (s.ported ((s.sliceStore makerHost none pa 16 v (allBytes 16)).modQueue q fun k => { k with dones := l, cqwidx := (k.cqwidx + 1) % 2 ^ 32 }))

/-- A command of an operation that a queue holds, once it may start: not while the queue's completion ring is full (R303). -/
def State.cmdAt (s : State) (q n op : Nat) : Option Cmd :=
  (s.queue q).cmds.find? fun c => c.n == n && c.op == op && (c.started || !(s.queue q).cqFull)

/-- A command marked as started. -/
def State.startCmd (s : State) (q n : Nat) : State :=
  s.modQueue q fun k => { k with cmds := k.cmds.map fun c => if c.n = n then { c with started := true } else c }

/-- FENCE_COMMAND (R304): done when every earlier command of the queue is done. -/
def execFenceCommand (q n : Nat) (s : State) : Out :=
  match s.cmdAt q n 6 with
  | none => .next s
  | some _ => .next (if (s.queue q).cmds.head?.any fun c => c.n == n then s.finishCmd q n 0 0 0 else s)

/-- The partition of a queue. -/
def State.queuePart (s : State) (q : Nat) : Nat := (s.queue q).owner.getD 0

/-- LAUNCH_COMMAND (R304, R305): the launch joins its queue. A template index of 1,024 or more fails. -/
def execLaunchCommand (q n : Nat) (s : State) : Out :=
  match s.cmdAt q n 1 with
  | none => .next s
  | some c =>
    if c.started then .next s
    else
      let p := s.queuePart q
      let lid := (s.part p).nextLid
      let s1 := (s.startCmd q n).modPart p fun t => { t with nextLid := if lid + 1 < 2 ^ 32 then lid + 1 else 1 }
      if 1024 ≤ c.arg then .next (s1.finishCmd q n 1 Trap.launchInvalid.code lid)
      else
        .next (s1.addLaunch { part := p, lid := lid, queue := q, origin := .command n, tix := c.arg, gangs := bitsOf (c.word 1) 31 0
                              args := (List.range 6).map fun k => w64 (c.word (k + 2))
                              prio := if (c.word 1).testBit 34 then some (bitsOf (c.word 1) 33 32) else none, pid := (s.queue q).qpid, arrived := s.now })

/-! Templates (R298, R299). -/

/-- Whether an address may be an entry point: 4-aligned in the global window. -/
def entryOk (a : Nat) : Bool := a % 4 == 0 && decide (a < 0xF0 * 2 ^ 48)

/-- Whether a launch record is refused (R299). -/
def recordBad (p : Part) (w : Nat → Nat) : Bool :=
  !(bitsOf (w 2) 63 45 == 0 && bitsOf (w 3) 63 20 == 0 && w 4 == 0 && w 5 == 0 && w 6 == 0 && w 7 == 0) || !entryOk (w 0) || !entryOk (w 1) ||
    bitsOf (w 2) 31 0 == 0 || decide (64 * p.pmax < bitsOf (w 3) 19 0) || ((w 2).testBit 42 && decide (7 < bitsOf (w 2) 39 32)) ||
    ((w 2).testBit 43 && decide (0 < bitsOf (w 2) 39 32))

/-- The template of a launch record (Table 18-1). -/
def recordTemplate (w : Nat → Nat) (lineE lineA : Option (BitVec 512)) : Template :=
  { entry := w64 (w 0), amend := w64 (w 1), gangs := bitsOf (w 2) 31 0, size := bitsOf (w 2) 39 32 + 1, prio := bitsOf (w 2) 41 40, steal := (w 2).testBit 42
    dataflow := (w 2).testBit 43, preload := (w 2).testBit 44, priv := bitsOf (w 3) 19 0, lineE := lineE, lineA := lineA }

/-- The 64-byte line that holds an address, read for a queue. -/
def State.queueLine (s : State) (q a : Nat) : Except Trap (BitVec 512) :=
  match s.queueRead q (w64 (a / 64 * 64)) 8 with
  | .error t => .error t
  | .ok v => .ok (BitVec.ofNat 512 v)

/-- The images of the entry lines that PRELOAD keeps. -/
def State.recordLines (s : State) (q : Nat) (w : Nat → Nat) : Except Trap (Option (BitVec 512) × Option (BitVec 512)) :=
  if !(w 2).testBit 44 then .ok (none, none)
  else match s.queueLine q (w 0) with
    | .error t => .error t
    | .ok e =>
      if w 1 = 0 then .ok (some e, none)
      else match s.queueLine q (w 1) with
        | .error t => .error t
        | .ok a => .ok (some e, some a)

/-- REGISTER (R299): DEDUCED (log 11), a record that cannot be read fails as a line does. -/
def execRegister (q n : Nat) (s : State) : Out :=
  match s.cmdAt q n 7 with
  | none => .next s
  | some c =>
    let p := s.queuePart q
    let fail (code : Nat) : Out := .next (s.finishCmd q n 1 code 0)
    if 1024 ≤ c.arg then fail codeCmdInvalid
    else match s.queueRead q (w64 (c.word 1)) 8 with
      | .error t => fail t.code
      | .ok v =>
        let w := blockWord v
        if recordBad (s.part p) w then fail Trap.launchInvalid.code
        else match s.recordLines q w with
          | .error t => fail t.code
          | .ok (e, a) =>
            let s1 := s.queueSeen q (w64 (c.word 1)) 1
            let s2 := if e.isSome then s1.queueSeen q (w64 (w 0 / 64 * 64)) 1 else s1
            let s3 := if a.isSome then s2.queueSeen q (w64 (w 1 / 64 * 64)) 1 else s2
            .next (s.ported <| (s3.modPart p fun t => { t with tmpl := Tab.set none t.tmpl c.arg (some (recordTemplate w e a)) }).finishCmd q n 0 0 0)

/-! PREEMPT and RESUME (R304, R315, R328, R330, R349). -/

/-- Whether a PREEMPT or RESUME of a queue names a launch of a partition. -/
def Cmd.names (c : Cmd) (q lid queue : Nat) : Bool := if c.arg = 0 then lid == bitsOf (c.word 1) 31 0 else queue == q

/-- Whether a command names the launch of a context. -/
def Cmd.namesCtx (c : Cmd) (q part : Nat) (x : Ctx) : Bool := x.part == part && c.names q x.launchId.toNat x.queue.toNat

/-- A spanning gang of a partition gives the placement token and its reservations up (R315). -/
def State.dropToken (s : State) (p : Nat) (stopped : Nat → Bool) : State :=
  s.modPart p fun t => if t.token.any fun k => stopped k.1 then { t with token := none, reserved := [] } else t

/-- PREEMPT: placement of the named launches stops and their contexts stop issuing; it is done when every one is saved out, its block
performed. A context that a YIELD had saved out is from now on saved out by the PREEMPT. -/
def execPreempt (q n : Nat) (s : State) : Out :=
  match s.cmdAt q n 4 with
  | none => .next s
  | some c =>
    let p := s.queuePart q
    if !c.started then
      let s1 : State := { s.startCmd q n with launches := s.launches.map fun l => if l.part = p ∧ c.names q l.lid l.queue = true then { l with stopped := true } else l }
      let s2 : State := { s1 with ctxs := s1.ctxs.map fun e => (e.1, if c.namesCtx q p e.2 && !isVisitor e.1 then { e.2 with preemptReq := true, yielding := false } else e.2) }
      let out (v : Saved) : Bool := v.yielded && v.back.isNone && c.namesCtx q p v.ctx
      let ns := (s.saved.filter fun v => out v && !v.restoring).map Saved.n
      let s2 : State := { s2 with
        saved := s2.saved.map fun v => if out v then { v with yielded := false, eligible := v.eligible && v.restoring } else v
        clus := s2.clus.map fun k => (k.1, { k.2 with pool := k.2.pool.filter fun e => !(e.saved.any fun n => ns.contains n) }) }
      .next (s2.dropToken p fun lid => s1.launches.any fun l => l.part == p && l.lid == lid && l.stopped)
    else if (s.ctxs.any fun e => e.2.act != .free && e.2.preemptReq && c.namesCtx q p e.2) || (s.savedOut.any fun v => (v.ended.isNone || s.saving v) && c.namesCtx q p v.ctx) then .next s
    else .next (s.finishCmd q n 0 0 0)

/-- A saved context waits for its restoration in its cluster's pool (R330). -/
def State.poolSaved (s : State) (v : Saved) : State :=
  let e : PoolEntry := { part := v.part, lid := v.lid, gang := bitsOf v.ctx.gang.toNat 31 0, member := bitsOf v.ctx.gang.toNat 39 32
                         core := some (slotCore v.sid), saved := some v.n, tags := [] }
  let s1 := s.modClu (slotCluster v.sid) fun c => { c with pool := c.pool ++ [e] }
  { s1 with saved := s1.saved.map fun u => if u.n = v.n then { u with eligible := true } else u }

/-- The saved contexts that may be restored enter their clusters' pools as entries free (R250, R330). -/
def State.poolWaiting (s : State) : State :=
  s.savedOut.foldl (fun t v =>
    let pool := (t.clu (slotCluster v.sid)).pool
    if v.eligible && v.ended.isSome && !v.restoring && !(pool.any fun e => e.saved == some v.n) && decide (pool.length < 64) then t.poolSaved v else t) s

/-- RESUME: the named launches place gangs again, and their saved contexts may be restored; it waits while one of them is still being saved. -/
def execResume (q n : Nat) (s : State) : Out :=
  match s.cmdAt q n 5 with
  | none => .next s
  | some c =>
    let p := s.queuePart q
    let vs := s.savedOut.filter fun v => c.namesCtx q p v.ctx && !v.eligible
    let busy := (vs.any fun v => v.ended.isNone) || (s.ctxs.any fun e => e.2.act != .free && e.2.preemptReq && c.namesCtx q p e.2)
    if busy then .next s
    else
      let s1 : State := { s with launches := s.launches.map fun l => if l.part = p ∧ c.names q l.lid l.queue = true then { l with stopped := false } else l }
      let s2 : State := { s1 with saved := s1.saved.map fun v => if v.back.isNone && c.namesCtx q p v.ctx then { v with eligible := true } else v }
      .next (s2.poolWaiting.finishCmd q n 0 0 0)

/-! Partition commands (R301, R317). -/

/-- The rectangle of a word (Table 18-4). -/
def rectOfWord (w : Nat) : Option Rect :=
  if w.testBit 63 then some { x0 := bitsOf w 4 0, y0 := bitsOf w 12 8, x1 := bitsOf w 20 16, y1 := bitsOf w 28 24 } else none

/-- Whether two rectangles overlap. -/
def Rect.meets (a b : Rect) : Bool := decide (a.x0 ≤ b.x1 ∧ b.x0 ≤ a.x1 ∧ a.y0 ≤ b.y1 ∧ b.y0 ≤ a.y1)

/-- Whether a rectangle lies on its die and holds a live core. -/
def State.rectLive (s : State) (die : Nat) (r : Rect) : Bool :=
  decide (r.x1 < 24 ∧ r.y1 < 24) &&
    ({ live := true, rect0 := if die = 0 then some r else none, rect1 := if die = 0 then none else some r : Part }).clusters.any fun cl => !(s.liveCores cl).isEmpty

/-- Whether PART_CREATE is refused (R317, R386); DEDUCED (log 11), so is a partition of no rectangle. -/
def State.createBad (s : State) (p : Nat) (r0 r1 : Option Rect) : Bool :=
  let bad (die : Nat) (r : Option Rect) : Bool := r.any fun r => !s.rectLive die r || (List.range 32).any fun k =>
    (s.part k).live && ((s.part k).rect die).any fun x => x.meets r
  decide (32 ≤ p) || s.boot.minimal || (s.part p).live || (r0.isNone && r1.isNone) || bad 0 r0 || bad 1 r1

/-- The queues of a partition's number (R301). -/
def ownQueues (p : Nat) : List Nat := (List.range 256).map fun k => 256 * p + k

/-- PART_CREATE (R301, R317): the partition has the reset values of its configuration and the page grants the monitor gave it. -/
def execPartCreate (q n : Nat) (s : State) : Out :=
  match s.cmdAt q n 0x10 with
  | none => .next s
  | some c =>
    let r0 := rectOfWord (c.word 1)
    let r1 := rectOfWord (c.word 2)
    if s.createBad c.arg r0 r1 then .next (s.finishCmd q n 1 codeCmdInvalid 0)
    else
      let s1 := s.modPart c.arg fun t => { live := true, rect0 := r0, rect1 := r1, grants := t.grants }
      .next (((ownQueues c.arg).foldl (fun s k => s.modQueue k fun t => { t with owner := some c.arg }) s1).finishCmd q n 0 0 0)

/-- Whether a partition's clusters are idle: no context, no launch, nothing saved out, no bound stream. -/
def State.partIdle (s : State) (p : Nat) : Bool :=
  !(s.ctxs.any fun e => e.2.act != .free && (s.part p).holds (slotCluster e.1)) && !(s.launches.any fun l => l.part == p) && !(s.savedOut.any fun v => v.part == p)

/-- PART_DESTROY (R317, R381): it waits until the partition's clusters are idle; its queues then belong to no partition. -/
def execPartDestroy (q n : Nat) (s : State) : Out :=
  match s.cmdAt q n 0x11 with
  | none => .next s
  | some c =>
    if 32 ≤ c.arg ∨ (s.part c.arg).live = false then .next (s.finishCmd q n 1 codeCmdInvalid 0)
    else if (s.part c.arg).reset.isSome || !s.partIdle c.arg then .next s
    else
      let s1 : State := { s with
        queues := s.queues.map fun k => (k.1, if k.2.owner = some c.arg then { k.2 with owner := none, en := false } else k.2)
        streams := s.streams.filter fun k => k.1 / 64 ≠ c.arg }
      .next ((s1.modPart c.arg fun t => { grants := t.grants }).finishCmd q n 0 0 0)

/-- ASSIGN (R301): a disabled queue moves from one partition to another. DESIGN CHOICE (log 11): one that no partition owns is CMD_INVALID, as is a
target that is not live. -/
def execAssign (q n : Nat) (s : State) : Out :=
  match s.cmdAt q n 0x13 with
  | none => .next s
  | some c =>
    let p := bitsOf (c.word 1) 4 0
    let k := s.queue c.arg
    if 8192 ≤ c.arg ∨ k.en = true ∨ k.owner = none ∨ (s.part p).live = false then .next (s.finishCmd q n 1 codeCmdInvalid 0)
    else .next ((s.modQueue c.arg fun k => { k with owner := some p }).finishCmd q n 0 0 0)

/-! Partition reset (R378 to R381). -/

/-- The queues that a partition owns. -/
def State.queuesOf (s : State) (p : Nat) : List Nat := (s.queues.filter fun k => k.2.owner == some p).map Prod.fst

/-- The commands of an operation in a partition's queues aborted. -/
def State.abortCmds (s : State) (p : Nat) (which : Cmd → Bool) (status code : Nat) : State :=
  (s.queuesOf p).foldl (fun s q => ((s.queue q).cmds.filter which).foldl (fun s c => s.finishCmd q c.n status code 0) s) s

/-- The calls that stand unpaired in the directory entries of a partition, each with its post office and entry. -/
def State.standing (s : State) (p : Nat) : List (Nat × Nat × List Call) :=
  s.posts.flatMap fun o => o.2.entries.filterMap fun e => match e.2 with
    | some x => if x.part = p then some (o.1, e.1, match x.body with
        | .notice c => [c]
        | .roll _ _ l => l) else none
    | none => none

/-- Every call of a partition that waits at a directory is answered CLOSING (R378). -/
def State.closeCalls (s : State) (p : Nat) : State :=
  (s.standing p).foldl (fun s e => e.2.2.foldl (fun s c => s.answerCall e.1 c 3) (s.setEntry e.1 e.2.1 none)) s

/-- PART_RESET (R378, R381): the partition closes. A second one is done when the first is. -/
def execPartReset (q n : Nat) (s : State) : Out :=
  match s.cmdAt q n 0x12 with
  | none => .next s
  | some c =>
    if c.started then .next s
    else if 32 ≤ c.arg ∨ (s.part c.arg).live = false then .next (s.finishCmd q n 1 codeCmdInvalid 0)
    else match (s.part c.arg).reset with
      | some r => .next ((s.startCmd q n).modPart c.arg fun t => { t with reset := some { r with cmds := r.cmds ++ [(q, n)] } })
      | none =>
        let s1 := (s.startCmd q n).modPart c.arg fun t => { t with reset := some { t0 := s.now, t1 := none, cmds := [(q, n)] }, token := none, reserved := [] }
        let s2 : State := { s1 with queues := s1.queues.map fun k => (k.1, if k.2.owner = some c.arg then { k.2 with en := false } else k.2) }
        .next ((s2.closeCalls c.arg).abortCmds c.arg (fun c => c.op == 4 || c.op == 5) 1 codeLaunchAborted)

/-- Whether a partition has a live context. -/
def State.partLive (s : State) (p : Nat) : Bool := s.ctxs.any fun e => e.2.live && (s.part p).holds (slotCluster e.1)

/-- What the senders outside a partition learn from its fenced boundary (R379): slices with answers for it, loaders of its subscriptions, the record
ports of its window tasks. -/
def State.nacksOf (s : State) (p : Nat) : List Nack :=
  ((s.reqs.filter fun r => r.part == p && r.stage == .performed).map fun r => Nack.response r.id) ++
    ((s.subs.filter fun b => b.part == p && b.ended.isNone).map fun b => Nack.loader b.n) ++
    ((s.ctxs.filter fun e => e.2.part == p && e.2.win.isSome && e.2.act != .free).map fun e => Nack.port e.1)

/-- The clusters of a partition frozen (R378): every context stops, and what is not yet released is discarded. -/
def State.freezePart (s : State) (p : Nat) : State :=
  let mine (sid : Nat) : Bool := (s.part p).holds (slotCluster sid)
  let gone (r : Req) : Bool := r.part == p && (match r.stage with
    | .held => !s.releasable (slotCluster r.src) r.made r.taints
    | .translating => true
    | .walking => true
    | .faulted _ => true
    | .ready => r.isVload
    | _ => false)
  let at_ (ci made : Nat) (taints : List Nat) : Bool := !(s.part p).holds (coreCluster ci) || s.releasable (coreCluster ci) made taints
  { s with
    acctq := s.acctq.filter fun a => at_ a.ci a.made []
    cores := s.cores.map fun k => (k.1, { k.2 with
      xfers := k.2.xfers.filter fun x => !x.held || at_ k.1 x.made x.taints
      frees := k.2.frees.filter fun f => at_ k.1 f.2.2.1 f.2.2.2 })
    ctxs := s.ctxs.map fun e => (e.1, if mine e.1 && e.2.act != .free then { e.2 with act := .frozen } else e.2)
    clus := s.clus.map fun k => (k.1, if (s.part p).holds k.1 then { k.2 with waiters := [], pool := [], deques := [] } else k.2)
    reqs := (s.reqs.filter fun r => !gone r).map fun r => if r.part = p then { r with ended := true, stranded := false } else r }

/-- PART_RESET_FREEZE (R378): at t0 + GRACE, or in the first cycle after t0 with no live context, every context freezes, what is not yet released is
discarded, and the rectangles are fenced. Requests outside are still performed, and their answers are refused. -/
def execPartResetFreeze (p : Nat) (s : State) : Out :=
  match (s.part p).reset with
  | none => .next s
  | some r =>
    if r.t1.isSome || (decide (s.now < r.t0 + (s.part p).rstctl.toNat) && (decide (s.now = r.t0) || s.partLive p)) then .next s
    else .next (((s.freezePart p).addNacks (s.nacksOf p)).modPart p fun t => { t with reset := some { r with t1 := some s.now } })

/-- Gangs of a launch whose tasks have all ended. -/
def Launch.gangsDone (l : Launch) : Nat :=
  match l.tmpl with
  | none => 0
  | some t => ((l.ends.map TaskEnd.gang).eraseDups.filter fun g => decide (t.size ≤ (l.ends.filter fun e => e.gang == g).length)).length

/-- A launch aborted by a reset: a LAUNCH command completes (R305). -/
def State.abortLaunch (s : State) (l : Launch) : State :=
  match l.origin with
  | .command n => s.finishCmd l.queue n 1 codeLaunchAborted (l.lid + l.gangsDone * 2 ^ 32)
  | _ => s

/-- Whether a message belongs to a partition's clusters. -/
def State.msgOf (s : State) (p : Nat) (b : MsgBody) : Bool :=
  let here (sid : Nat) : Bool := (s.part p).holds (slotCluster sid)
  match b with
  | .luggage home _ _ _ => here home
  | .tile _ ci _ => (s.part p).holds (coreCluster ci)
  | .notice _ c => c.part == p
  | .arrival _ c => c.part == p
  | .withdrawal _ c => c.part == p
  | .answer sid _ _ => here sid
  | .order sid _ _ _ _ _ => here sid
  | .envelope v _ _ => here v
  | .release sid _ _ _ => here sid
  | .steal part _ _ _ => part == p
  | .stolen part _ _ _ => part == p

/-- A cluster as a partition reset leaves it: MFENCE, RBCNT and CLSHARE are kept (R377, R378). -/
def Cluster.afterReset (c : Cluster) : Cluster :=
  { clshare := c.clshare, arr := { fences := c.arr.fences, failed := c.arr.failed }, rbTimes := c.rbTimes, rbTotal := c.rbTotal }

/-- PART_RESET_COMPLETE (R378): from t1 + 1,024, when every packet of the partition inside its rectangles is gone. -/
def execPartResetComplete (p : Nat) (s : State) : Out :=
  match (s.part p).reset with
  | some { t1 := some t1, cmds := cmds, .. } =>
    if s.now < t1 + 1024 then .next s
    else
      let ls := s.launches.filter fun l => l.part == p
      let mine (cl : Nat) : Bool := (s.part p).holds cl
      let s1 := ls.foldl State.abortLaunch s
      let s2 := (s1.abortCmds p (fun c => c.op == 2 && c.started) 0 0).abortCmds p (fun c => c.op != 6) 1 codeLaunchAborted
      let s3 : State := { s2 with
        ctxs := s2.ctxs.filter fun e => !mine (slotCluster e.1)
        cores := s2.cores.filter fun k => !mine (coreCluster k.1)
        clus := s2.clus.map fun k => (k.1, if mine k.1 then k.2.afterReset else k.2)
        posts := s2.posts.filter fun o => !mine o.1
        acctq := s2.acctq.filter fun a => !mine (coreCluster a.ci)
        net := s2.net.filter fun m => !s.msgOf p m.body
        saved := s2.saved.filter fun v => v.part ≠ p
        snaps := s2.snaps.filter fun v => !mine (slotCluster v.sid)
        reqs := s2.reqs.filter fun r => !(r.part == p && r.stage == .held)
        subs := s2.subs.filter fun b => b.part ≠ p
        drains := s2.drains.filter fun d => d.part ≠ p
        credits := s2.credits.filter fun c => !mine (coreCluster c.dst)
        launches := s2.launches.filter fun l => l.part ≠ p
        streams := s2.streams.filter fun k => k.1 / 64 ≠ p
        stations := s2.stations.map fun k => (k.1, k.2.filter fun x => x.part ≠ p) }
      let s4 := s3.modPart p fun t => { t with tmpl := [], token := none, reserved := [], reset := none }
      let s5 := s4.recordPart 0 p { cls := 1, engine := 9, code := codePartitionReset, time := s.now, detail := ls.length }
      .next (cmds.foldl (fun s c => s.finishCmd c.1 c.2 0 0 0) s5)
  | _ => .next s

/-- NEGATIVE_ACKNOWLEDGE (R379): a slice drops the response and frees its outstanding entry; a loader ends the subscription with no inbox entry; a
record port is refilled no more. -/
def execNegativeAcknowledge (n : Nat) (s : State) : Out :=
  match s.nacks.find? fun k => k.1 == n with
  | none => .next s
  | some (_, k) =>
    let s1 : State := { s with nacks := s.nacks.filter fun k => k.1 ≠ n }
    .next (match k with
      | .response id =>
        let tags := (s1.outs.filter fun e => e.req == id).map OutEntry.tag
        { s1.dropReq id with outs := s1.outs.filter (fun e => e.req ≠ id), dups := s1.dups.filter fun d => !tags.contains d.tag }
      | .loader b => { s1 with subs := s1.subs.filter fun x => x.n ≠ b }
      | .port sid => s1.modCtx sid fun c => { c with win := c.win.map fun w => { w with shut := true } })

end Sys2Proof.Machine
end

