-- ==== Sys2Proof/Machine/StreamOps.lean ====
section
/-!
DEFINITION. Operations of the stream unit: windows, watermarks, records and rings (R333 to R345).
-/

namespace Sys2Proof.Machine

/-- The start of a window (R333). -/
def Binding.startOf (b : Binding) (w : Nat) : Nat := b.origin + w * b.slide
/-- The end of a window. -/
def Binding.endOf (b : Binding) (w : Nat) : Nat := b.startOf w + b.size

/-- The state slot of a lane (R342). -/
def Binding.slotOf (b : Binding) (w lane : Nat) : Nat := b.state.toNat + (w % 2 ^ b.wsLog * b.lanes + lane) * 16

/-- The windows whose end does not exceed a time: windows 0 to this count, exclusive. -/
def Binding.endedBy (b : Binding) (x : Nat) : Nat :=
  if x < b.origin + b.size ∨ b.slide = 0 then 0 else Nat.min (2 ^ 32) ((x - b.origin - b.size) / b.slide + 1)

/-- A stream of a partition. -/
def State.stream (s : State) (p n : Nat) : Stream := Tab.get {} s.streams (64 * p + n)
/-- A stream changed. -/
def State.modStreamOf (s : State) (p n : Nat) (f : Stream → Stream) : State := { s with streams := Tab.set {} s.streams (64 * p + n) (f (s.stream p n)) }

/-- A window of a stream changed. -/
def State.modWin (s : State) (p n w : Nat) (f : Win → Win) : State :=
  s.modStreamOf p n fun t => { t with wins := t.wins.map fun x => if x.w = w then f x else x }

/-! The unit's memory: its areas are translated with the PID of the binding's queue, as a supervisor; DEDUCED (log 12), an area that cannot be
translated reads 0 and takes nothing. -/

/-- A physical address of the stream unit. -/
def State.unitPa (s : State) (p : Nat) (b : Binding) (a : Access) (va : Nat) : Option Nat :=
  if va < 0xF0 * 2 ^ 48 then match s.translate unitCluster p b.pid true a va with
    | .ok pa => some pa
    | .error _ => none
  else none

/-- Eight bytes read by the unit. -/
def State.unitRead (s : State) (p : Nat) (b : Binding) (va : Nat) : Nat :=
  match s.unitPa p b .read va with
  | some pa => s.physRead pa 8
  | none => 0

/-- A slice accepts a read of the unit (R279). -/
def State.unitSeen (s : State) (p : Nat) (b : Binding) (va : Nat) : State :=
  match s.unitPa p b .read va with
  | some pa => s.accept pa
  | none => s

/-- `8 n` bytes of one line written by the unit, as one global store (R353). -/
def State.unitWrite (s : State) (p : Nat) (b : Binding) (va v n : Nat) : State :=
  match s.unitPa p b .write va with
  | some pa => s.sliceStore makerUnit none pa (8 * n) (v % 2 ^ (64 * n)) (allBytes (8 * n))
  | none => s

/-- The capacity of a ring of 2^n bytes with entries of `e` bytes. -/
def ringCap (log2 e : Nat) : Nat := (2 ^ log2 - 64) / e

/-- Whether a ring holds its capacity of unread entries (R342, R344). -/
def State.ringFull (s : State) (p : Nat) (b : Binding) (base log2 e : Nat) : Bool :=
  decide (ringCap log2 e ≤ (s.unitRead p b base + 2 ^ 64 - s.unitRead p b (base + 8)) % 2 ^ 64)

/-- An entry appended to a ring, then WIDX; DEDUCED (log 26): the read of the ring's indexes counts once, with the entry that goes by it. -/
def State.ringPut (s : State) (p : Nat) (b : Binding) (base log2 e v : Nat) : State :=
  let widx := s.unitRead p b base
  ((s.unitSeen p b base).unitWrite p b (base + 64 + e * (widx % ringCap log2 e)) v (e / 8)).unitWrite p b base ((widx + 1) % 2 ^ 64) 1

/-! Windows (R335, R339, R341). -/

/-- Whether a window with records has closed (R341). -/
def Win.closed (x : Win) (b : Binding) (W : Nat) : Bool :=
  decide (b.endOf x.w + b.late ≤ W) && x.firing == .complete && x.amend.isNone && x.late.all fun l => l.2.isEmpty

/-- The oldest window not yet closed. -/
def Stream.oldestOpen (t : Stream) (b : Binding) : Nat :=
  (t.wins.filter fun x => !x.closed b t.wmark).foldl (fun m x => Nat.min m x.w) (if t.wmark < b.late then 0 else b.endedBy (t.wmark - b.late))

/-- A list of a lane grown by a record. -/
def laneAdd (l : List (Nat × List Nat)) (lane id : Nat) : List (Nat × List Nat) :=
  if l.any fun x => x.1 == lane then l.map fun x => if x.1 = lane then (x.1, x.2 ++ [id]) else x
  else (l.filter fun x => x.1 < lane) ++ [(lane, [id])] ++ l.filter fun x => lane < x.1

/-- A window's record list, or its late list, grown by a record (R339); a window that has fired without records fired nothing. -/
def Stream.join (t : Stream) (w lane id : Nat) (late : Bool) : Stream :=
  let add (x : Win) : Win :=
    if late then { x with late := laneAdd x.late lane id, joined := x.joined ++ [id] } else { x with lists := laneAdd x.lists lane id, joined := x.joined ++ [id] }
  if t.wins.any fun x => x.w == w then { t with wins := t.wins.map fun x => if x.w = w then add x else x }
  else
    let x : Win := { w := w, firing := if late then .complete else .open_, lists := [], late := [], joined := [], amend := none, revs := [] }
    { t with wins := (t.wins.filter fun y => y.w < w) ++ [add x] ++ t.wins.filter fun y => w < y.w }

/-- Whether W has reached a window's end. -/
def Stream.fired (t : Stream) (b : Binding) (w : Nat) : Bool := decide (b.endOf w ≤ t.wmark)

/-- W after an arrival or a change of state (R337). -/
def Stream.advance (t : Stream) (b : Binding) : Stream :=
  let ws := ((List.range b.nsrc).map fun n => Tab.get {} t.srcs n).filter Source.active
  match ws with
  | [] => t
  | x :: l =>
    let W := Nat.max t.wmark (l.foldl (fun m y => Nat.min m y.wm) x.wm)
    { t with wmark := W, wins := t.wins.map fun x => if x.firing = .open_ ∧ b.endOf x.w ≤ W then { x with firing := .due } else x }

/-- A heartbeat of a source (R336). -/
def Stream.beat (t : Stream) (src now : Nat) (f : Source → Source) : Stream :=
  { t with srcs := Tab.set {} t.srcs src (f { Tab.get {} t.srcs src with active := true, beat := now }), takenAt := some now }

/-- The windows that have fired nothing or whose firing launch is complete: all below this number (R345). -/
def Stream.settled (t : Stream) (b : Binding) : Nat :=
  (t.wins.filter fun x => x.firing != .complete).foldl (fun m x => Nat.min m x.w) (b.endedBy t.wmark)

/-- Whether a source of a stream is a device source (R345). -/
def Binding.device (b : Binding) (src : Nat) : Bool := decide (src < b.nsrc) && b.devmask.toNat.testBit src

/-- OW advanced, and its mark sent downstream (R345). -/
def State.outMark (s : State) (p n : Nat) (b : Binding) : State :=
  let t := s.stream p n
  let k := t.settled b
  if k = 0 ∨ b.endOf (k - 1) ≤ t.owmark then s
  else
    let ow := b.endOf (k - 1)
    let s1 := s.modStreamOf p n fun t => { t with owmark := ow }
    if b.down = 0xFFFF ∨ 64 ≤ b.down then s1
    else match (s1.stream p b.down).bound with
      | some d => if d.device b.downsrc then s1.modStreamOf p b.down fun t => { t with inq := t.inq ++ [.mark b.downsrc ow none] } else s1
      | none => s1

/-- Closed windows go, with the records that no window needs any more (R335, R341); OW moves on (R345). -/
def State.streamTidy (s : State) (p n : Nat) : State :=
  match (s.stream p n).bound with
  | none => s
  | some b =>
    let s1 := s.modStreamOf p n fun t =>
      let wins := t.wins.filter fun x => !x.closed b t.wmark
      { t with wins := wins, recs := t.recs.filter fun r => wins.any fun x => x.joined.contains r.id }
    s1.outMark p n b

/-! Records (R335, R339, R344). -/

/-- A dead record: counted, and written to the dead ring where there is one with room (R344). -/
def State.deadRecord (s : State) (p n : Nat) (b : Binding) (src reason : Nat) (ws : List Word) : State :=
  let W := (s.stream p n).wmark
  let s1 := s.modStreamOf p n fun t => { t with ndead := t.ndead + 1 }
  if b.dead = 0 ∨ s1.ringFull p b b.dead.toNat b.deadLog 64 = true then s1
  else
    let v := ((ws.take 4).zipIdx.map fun x => x.1.toNat * 2 ^ (64 * x.2)).sum + (reason * 2 ^ 256 + src * 2 ^ 320 + W * 2 ^ 384)
    s1.ringPut p b b.dead.toNat b.deadLog 64 v

/-- A record placed in its windows' lists, or dead (R335, R339). DEDUCED (log 12): a sliding record is TOOLATE only where it is too late for each
of its windows, and NLATE counts it once. -/
def State.placeRecord (s : State) (p n : Nat) (b : Binding) (src : Nat) (ws : List Word) : State :=
  let t := s.stream p n
  let e := (ws.getD 0 0).toNat
  let lane := (ws.getD 1 0).toNat % b.lanes
  let hi := (e - b.origin) / b.slide
  let lo := if e < b.origin + b.size then 0 else (e - b.origin - b.size) / b.slide + 1
  if e < b.origin ∨ e = 2 ^ 64 - 1 ∨ 2 ^ 32 ≤ hi then s.deadRecord p n b src 3 ws
  else if t.oldestOpen b + 2 ^ b.wsLog ≤ hi then s.deadRecord p n b src 2 ws
  else if 2 ^ b.bufLog / 32 ≤ t.recs.length then s.deadRecord p n b src 1 ws
  else
    let into := ((List.range (hi + 1 - lo)).map fun k => lo + k).filter fun w => !t.fired b w || decide (t.wmark < b.endOf w + b.late)
    if into.isEmpty then s.deadRecord p n b src 0 ws
    else
      let id := s.nextId
      let t1 := into.foldl (fun t w => t.join w lane id (t.fired b w)) t
      let t2 : Stream := { t1 with recs := t1.recs ++ [{ id := id, words := ws }], nlate := t1.nlate + if into.any (t.fired b) then 1 else 0 }
      { s.modStreamOf p n fun _ => t2 with nextId := id + 1 }

end Sys2Proof.Machine
end

