-- ==== Sys2Proof/Machine/Place.lean ====
section
/-!
DEFINITION. Dispatch, priorities and aging, gangs and their placement, work stealing, ready pools, task start and launch completion (R250 to
R252, R290, R300, R306 to R316, R340, R348).
-/

namespace Sys2Proof.Machine

/-! Launches. -/

/-- A launch of a partition. -/
def State.launch (s : State) (p lid : Nat) : Option Launch := s.launches.find? fun l => l.part == p && l.lid == lid
/-- A launch changed. -/
def State.modLaunch (s : State) (p lid : Nat) (f : Launch → Launch) : State :=
  { s with launches := s.launches.map fun l => if l.part = p ∧ l.lid = lid then f l else l }
/-- A launch gone. -/
def State.dropLaunch (s : State) (p lid : Nat) : State := { s with launches := s.launches.filter fun l => !(l.part == p && l.lid == lid) }

/-- Cycles of a microsecond. -/
def cyclesPerUs : Nat := 1800

/-- AGESTEP in cycles; 0 is read as 100 microseconds (Table 18-6). -/
def Part.ageCycles (p : Part) : Nat := (if p.agestep = 0 then 100 else p.agestep) * cyclesPerUs

/-- The steps a launch has waited as its queue's oldest undispatched one (R306). -/
def State.ageSteps (s : State) (l : Launch) : Nat :=
  match l.oldest with
  | some t => (s.now - t) / (s.part l.part).ageCycles
  | none => 0

/-- LAUNCH_AGING (R306): the steps that a waiting launch has gained, by AGESTEP as it stands. -/
def execLaunchAging (p lid : Nat) (s : State) : Out :=
  .next (s.modLaunch p lid fun l => if l.active then l else { l with aged := s.ageSteps l })

/-- The effective priority (R306). -/
def State.effPrio (s : State) (l : Launch) : Nat :=
  Nat.min 3 ((match l.prio with
    | some k => k
    | none => ((s.template l.part l.tix).map Template.prio).getD 0) + l.aged)

/-- Whether launch `a` ranks ahead of `b` (R306). -/
def State.ranksAhead (s : State) (a b : Launch) : Bool :=
  let pa := s.effPrio a
  let pb := s.effPrio b
  decide (pb < pa) || (pa == pb && (decide (a.arrived < b.arrived) || (a.arrived == b.arrived && decide (a.queue < b.queue))))

/-- Whether a launch may not start, as it is a command of a queue whose completion ring is full (R303). -/
def State.launchHeld (s : State) (l : Launch) : Bool :=
  match l.origin with
  | .command _ => (s.queue l.queue).cqFull
  | _ => false

/-- The oldest undispatched launch of each queue of a partition, and of them the one that ranks first. -/
def State.nextLaunch (s : State) (p : Nat) : Option Launch :=
  (s.launches.filter fun l => l.part == p && !l.active && l.oldest.isSome && !s.launchHeld l).foldl (fun (b : Option Launch) l => match b with
    | none => some l
    | some k => if s.ranksAhead l k then some l else b) none

/-- A queue's next undispatched launch becomes its oldest. -/
def State.markOldest (s : State) (q : Nat) : State :=
  match s.launches.find? fun l => l.queue == q && !l.active with
  | none => s
  | some l => s.modLaunch l.part l.lid fun k => { k with oldest := k.oldest.or (some s.now) }

/-! Completion (R238, R290, R305, R316). -/

/-- The slot of a launcher that is still there, or whether it is saved out. -/
def State.launcherAt (s : State) (p ci lid gang : Nat) : Option Nat :=
  (s.ctxs.find? fun e => slotCore e.1 == ci && !isVisitor e.1 && e.2.act != .free && e.2.part == p && e.2.launchId.toNat == lid && e.2.gang.toNat == gang).map Prod.fst

/-- Whether a launcher is saved out, so that its entry waits. -/
def State.launcherSaved (s : State) (p ci lid gang : Nat) : Bool :=
  s.savedOut.any fun v => v.part == p && slotCore v.sid == ci && v.ctx.launchId.toNat == lid && v.ctx.gang.toNat == gang

/-- A launch's KIND 8 entry for its launcher; an entry for a task that has ended is discarded, its place free again; DEDUCED (log 11). -/
def State.postLaunch (s : State) (p ci lid gang id status code detail : Nat) : State :=
  match s.launcherAt p ci lid gang with
  | none => s.dropEntry ci
  | some sid =>
    let w0 := w64 (id * 2 ^ 32 + code * 2 ^ 16 + slotTag sid * 2 ^ 8 + status * 2 ^ 4 + 8)
    let s1 := s.postEntry ci (slotTag sid) w0 (w64 detail)
    { s1 with entryLog := s1.entryLog ++ [(ci, s.now, { tag := slotTag sid, w0 := w0, w1 := w64 detail, half := false })] }

/-- A launch completes: it leaves the active set, and its completion is posted (R316). -/
def State.endLaunch (s : State) (l : Launch) (status code : Nat) : State :=
  let done := if status = 0 then l.gangs else l.gangsDone
  let s1 := s.dropLaunch l.part l.lid
  let s2 : State := { s1 with clus := s1.clus.map fun k => (k.1, if k.2.deques.any fun d => d.part == l.part && d.lid == l.lid then
    { k.2 with deques := k.2.deques.filter fun d => !(d.part == l.part && d.lid == l.lid) } else k.2) }
  match l.origin with
  | .command n => s2.finishCmd l.queue n status code (l.lid + done * 2 ^ 32)
  | .word ci _ lid gang => s2.postLaunch l.part ci lid gang l.lid status code done
  | .window n w amend => (s2.modWin l.part n w fun x => if amend then { x with amend := none } else { x with firing := .complete }).streamTidy l.part n

/-- Whether outputs of a launch's tasks are still to be performed (R290, R342). -/
def State.outputsOpen (s : State) (l : Launch) : Bool :=
  (s.reqs.any fun r => r.part == l.part && r.lid == l.lid && (r.strands || r.isStreamOut)) ||
    ((List.range 64).any fun n =>
      let t := Tab.get {} s.streams (64 * l.part + n)
      (t.pubs.any fun b => b.lid == l.lid) || t.inq.any fun i => i.launch == some l.lid)

/-- LAUNCH_COMPLETION (R290, R316, R362): once every task has ended, the ends are released, and the outputs are performed. -/
def execLaunchCompletion (p lid : Nat) (s : State) : Out :=
  match s.launch p lid with
  | none => .next s
  | some l => match l.tmpl with
    | none => .next s
    | some t =>
      let waits := match l.origin with
        | .word ci _ k gang => s.launcherSaved p ci k gang
        | _ => false
      if !l.active || decide (l.ends.length < l.gangs * t.size) || !(l.ends.all fun e => s.releasable e.cl e.at_ []) || s.outputsOpen l || waits then .next s
      else .next (s.endLaunch l 0 0)

/-! Dispatch (R305, R306, R312). -/

/-- Resident slots that the live cores of a cluster hold. -/
def State.residentSlots (s : State) (cl : Nat) : Nat := 2 * (s.liveCores cl).length

/-- The cluster of a list that takes the range of number `c`: the first from `c` on, modulo the count, whose cores hold a gang's slots (R312). -/
def State.rangeTaker (s : State) (cs : List Nat) (size c : Nat) : Option Nat :=
  ((List.range cs.length).map fun k => cs.getD ((c + k) % cs.length) 0).find? fun cl => decide (size ≤ s.residentSlots cl)

/-- A range pushed on a cluster's deque of a launch; an empty one is not. -/
def State.pushRange (s : State) (cl p lid : Nat) (r : Nat × Nat) : State :=
  s.modClu cl fun c =>
    let mine (d : Deque) : Bool := d.part == p && d.lid == lid
    let rs := if r.1 < r.2 then [r] else []
    if c.deques.any mine then { c with deques := c.deques.map fun d => if mine d then { d with ranges := d.ranges ++ rs } else d }
    else { c with deques := c.deques ++ [{ part := p, lid := lid, ranges := rs }] }

/-- The first ranges of a STEAL launch (R312). -/
def State.dealRanges (s : State) (p lid size g : Nat) : State :=
  let cs := s.dirClusters p
  let s1 := (cs.filter fun cl => decide (size ≤ s.residentSlots cl)).foldl (fun s cl => s.pushRange cl p lid (0, 0)) s
  (List.range cs.length).foldl (fun s c => match s.rangeTaker cs size c with
    | some cl => s.pushRange cl p lid (g * c / cs.length, g * (c + 1) / cs.length)
    | none => s) s1

/-- A template as a launch takes it: the gangs of a window launch are single tasks (R340). -/
def Template.sizedFor (t : Template) (o : Origin) : Template :=
  match o with
  | .window _ _ _ => { t with size := 1 }
  | _ => t

/-- LAUNCH_DISPATCH (R305, R306): while fewer than 16 launches are active, the one that ranks first becomes active, with the template as it
stands (R299), or fails. -/
def execLaunchDispatch (p : Nat) (s : State) : Out :=
  if !(s.part p).live || (s.part p).reset.isSome || decide (16 ≤ s.launches.countP fun l => l.part == p && l.active) then .next s
  else match s.nextLaunch p with
    | none => .next s
    | some l =>
      let waits := match l.origin with
        | .word ci _ k gang => s.launcherSaved p ci k gang
        | _ => false
      let fail : Out := if waits then .next s else .next ((s.endLaunch { l with gangs := 0 } 1 Trap.launchInvalid.code).markOldest l.queue)
      match s.template p l.tix with
      | none => fail
      | some t =>
        let g := if l.gangs = 0 then t.gangs else l.gangs
        let t := t.sizedFor l.origin
        if !t.steal && decide (2 * (s.logicalCores p).length < t.size) then fail
        else
          let l' : Launch := { l with active := true, tmpl := some t, gangs := g }
          let s1 : State := { s.dropLaunch p l.lid with launches := (s.dropLaunch p l.lid).launches ++ [l'] }
          let s2 := if t.steal then s1.dealRanges p l.lid t.size g else s1
          .next (s2.markOldest l.queue)

/-! The start state of a task (R300, Table 20-2). -/

/-- x10 to x15, TASKC, the PC and the record port of a task (R300, R340). -/
structure TaskArgs where
  args : List Word
  c0 : Nat
  c1 : Nat
  c2 : Nat
  pc : Word
  win : Option WindowTask
  deriving DecidableEq, Repr

/-- What a task of a launch starts with. -/
def State.taskArgs (s : State) (l : Launch) (t : Template) (g m : Nat) : TaskArgs :=
  match l.origin with
  | .window n w amend =>
    let b := (Tab.get {} s.streams (64 * l.part + n)).bound
    let k : Lane := l.lanes.getD g { lane := 0, words := [], revision := 0 }
    let f (h : Binding → Nat) : Word := w64 ((b.map h).getD 0)
    { args := [f fun b => b.startOf w, f fun b => b.endOf w, w64 (k.words.length / 4), w64 n, w64 k.revision, f fun b => b.slotOf w k.lane]
      c0 := w % 2 ^ 16, c1 := w / 2 ^ 16, c2 := k.lane, pc := if amend then t.amend else t.entry
      win := some { stream := n, window := w, lane := k.lane, revision := k.revision, amend := amend, len := k.words.length, port := 0, todo := k.words, buf := [], shut := false, published := false } }
  | _ => { args := l.args, c0 := g % 2 ^ 16, c1 := g / 2 ^ 16, c2 := m, pc := t.entry, win := none }

/-- x10 and up set to a list of words. -/
def argRegs (l : List Word) : Vector Word 32 :=
  (l.zipIdx).foldl (fun x a => if h : 10 + a.2 < 32 then x.set (10 + a.2) a.1 h else x) (Vector.replicate 32 0)

/-- The context of a task at its first instruction: every register not named has its reset value (R300). -/
def State.startCtx (s : State) (l : Launch) (t : Template) (g m sid : Nat) : Ctx :=
  let p := s.part l.part
  let a := s.taskArgs l t g m
  let c := slotLocal sid / 2
  { act := .placed (s.now + if t.preload then 24 else 4)
    x := argRegs a.args, pc := a.pc.extractLsb' 0 56, taskc := #v[BitVec.ofNat 16 a.c0, BitVec.ofNat 16 a.c1, BitVec.ofNat 16 a.c2]
    gang := BitVec.ofNat 48 ((t.size - 1) * 2 ^ 40 + m * 2 ^ 32 + g), launchId := BitVec.ofNat 32 l.lid, queue := BitVec.ofNat 13 l.queue, pid := l.pid, part := l.part
    srseed := w64 (l.lid * 2 ^ 40 + g * 2 ^ 8 + m), privBase := BitVec.ofNat 20 (Config.spadBytes - (2 * c + slotCode sid + 1) * (64 * p.pmax))
    privSize := BitVec.ofNat 20 t.priv &&& 0xFFFC0, tvec := p.dtvec, acctbase := p.dacctbase, acctctl := p.dacctctl &&& 0xFFFF1F01, win := a.win, lastIssue := s.now
    ridxDue := p.dacctctl.getLsbD 0 }

/-- The entry line of a task, with PRELOAD (R299). -/
def entryLine (l : Launch) (t : Template) : Option ILine :=
  match l.origin with
  | .window _ _ true => t.lineA.map fun d => { va := t.amend.toNat / 64 * 64, pid := l.pid, data := d }
  | _ => t.lineE.map fun d => { va := t.entry.toNat / 64 * 64, pid := l.pid, data := d }

/-- The tasks of a gang placed in one step, each member with its slot: the cores' instruction caches are invalidated and take the entry line (R110,
R250, R314). -/
def State.placeGang (s : State) (l : Launch) (g : Nat) (ms : List (Nat × Nat)) : State :=
  match l.tmpl with
  | none => s
  | some t =>
    let s1 := ms.foldl (fun s m => s.modCore (slotCore m.2) fun k => { k with icache := [] }) s
    ms.foldl (fun s m =>
      let s2 := s.modCore (slotCore m.2) fun k => { k with icache := match entryLine l t with
        | some x => installLine k.icache x
        | none => k.icache }
      s2.modCtx m.2 fun _ => s2.startCtx l t g m.1 m.2) s1

/-! Slots. -/

/-- Whether a resident slot may take a placement of a partition (R310, R314): free, not reserved for a spanning gang, on a live core of a cluster that is
neither fenced nor restoring. -/
def State.slotOpen (s : State) (sid : Nat) : Bool :=
  let cl := slotCluster sid
  (s.ctx sid).act == .free && !s.fusedOff (slotCore sid) && !(s.clu cl).fenced && (s.clu cl).restore.isNone &&
    !(List.range 32).any fun p => (s.part p).reserved.any fun r => r.2 == sid

/-- The resident slots of a core. -/
def residentsOf (ci : Nat) : List Nat := [10 * (ci / 4) + 2 * (ci % 4), 10 * (ci / 4) + 2 * (ci % 4) + 1]

/-- The slots an entry may use, in the order of R250. -/
def entrySlots (cl : Nat) (e : PoolEntry) : List Nat :=
  match e.core with
  | some ci => residentsOf ci
  | none => (List.range 8).map fun l => 10 * cl + l

/-- Slots for the entries of a list, each the first open one not taken by those before it; none while one finds none. -/
def State.assignSlots (s : State) (cl : Nat) : List PoolEntry → List Nat → Option (List (Nat × Nat))
  | [], _ => some []
  | e :: l, taken => match (entrySlots cl e).find? fun sid => s.slotOpen sid && !taken.contains sid with
    | none => none
    | some sid => (s.assignSlots cl l (sid :: taken)).map fun r => (e.member, sid) :: r

/-- The pool entries of an entry's gang. -/
def gangOf (pool : List PoolEntry) (e : PoolEntry) : List PoolEntry :=
  pool.filter fun x => x.part == e.part && x.lid == e.lid && x.gang == e.gang && x.saved.isNone

/-- Whether a pool holds every task of an entry's gang; a gang that spans clusters is placed with the token instead (R314). -/
def State.gangWhole (s : State) (e : PoolEntry) (g : List PoolEntry) : Bool :=
  match (s.launch e.part e.lid).bind Launch.tmpl with
  | some t => g.length == t.size
  | none => true

/-- Whether a pool entry can be placed now, and the slots its gang then takes. -/
def State.entryPlace (s : State) (cl : Nat) (e : PoolEntry) : Option (List (Nat × Nat)) :=
  match e.saved with
  | some n => match s.savedOut.find? fun v => v.n == n with
    | some v => if s.entryEligible cl e && s.slotOpen v.sid then some [(e.member, v.sid)] else none
    | none => none
  | none =>
    let g := gangOf (s.clu cl).pool e
    if s.gangWhole e g && g.all (s.entryEligible cl) then s.assignSlots cl g [] else none

/-- The oldest entry of a cluster's pool that can be placed (R250). -/
def State.poolNext (s : State) (cl : Nat) : Option (PoolEntry × List (Nat × Nat)) :=
  (s.clu cl).pool.findSome? fun e => (s.entryPlace cl e).map fun m => (e, m)

/-- An entry's gang leaves the pool for the slots found for it. -/
def State.placeEntry (s : State) (cl : Nat) (e : PoolEntry) (ms : List (Nat × Nat)) : State :=
  match s.launch e.part e.lid with
  | none => s.modClu cl fun c => { c with pool := c.pool.erase e }
  | some l => (s.modClu cl fun c => { c with pool := c.pool.filter fun x => !(gangOf c.pool e).contains x }).placeGang l e.gang ms

/-- POOL_PLACEMENT (R250): the oldest eligible entry that may use a free slot is placed, with its gang (R314). A saved context is restored instead
(R330). -/
def execPoolPlacement (cl : Nat) (s : State) : Out :=
  match s.poolNext cl with
  | none => .next s
  | some (e, ms) => if e.saved.isSome then .next s else .next (s.placeEntry cl e ms)

/-- TASK_FIRST_CYCLE (R250): the task's first cycle. -/
def execTaskFirstCycle (sid : Nat) (s : State) : Out :=
  match (s.ctx sid).act with
  | .placed t => .next (if t ≤ s.now then s.modCtx sid fun c => { c with act := .running, lastIssue := s.now } else s)
  | _ => .next s

/-! Gangs into the pools (R311, R312, R315, R348). -/

/-- The cores of a DEAL gang, by member (R311). -/
def State.gangCores (s : State) (p g size : Nat) : List Nat :=
  let cs := s.logicalCores p
  (List.range size).map fun m => cs.getD ((g * size + m) % cs.length) 0

/-- Whether a context is a member of a gang of a launch. -/
def Ctx.isTask (c : Ctx) (part lid g m : Nat) : Bool :=
  c.part == part && c.launchId.toNat == lid && bitsOf c.gang.toNat 31 0 == g && bitsOf c.gang.toNat 39 32 == m

/-- Whether a member of a gang has been placed: it runs, is saved out or has ended. -/
def State.memberPlaced (s : State) (l : Launch) (g m : Nat) : Bool :=
  (l.ends.any fun e => e.gang == g && e.member == m) || (s.ctxs.any fun e => e.2.act != .free && e.2.isTask l.part l.lid g m) ||
    s.savedOut.any fun v => v.ctx.isTask l.part l.lid g m

/-- Whether a gang's tasks all lie in one cluster. -/
def oneCluster (cores : List Nat) : Bool := cores.all fun c => coreCluster c == coreCluster (cores.headD 0)

/-- The entries of a gang. -/
def gangEntries (l : Launch) (t : Template) (g : Nat) (core : Nat → Option Nat) : List PoolEntry :=
  (List.range t.size).map fun m => { part := l.part, lid := l.lid, gang := g, member := m, core := core m, saved := none
                                     tags := if t.dataflow then ((Config.dataflowTags l.args g).take 8).map fun x => (x.1 % 4096, x.2) else [] }

/-- A gang's entries put in a pool that has room for them. -/
def State.poolGang (s : State) (cl : Nat) (es : List PoolEntry) : Option State :=
  if 64 < (s.clu cl).pool.length + es.length then none else some (s.modClu cl fun c => { c with pool := c.pool ++ es })

/-- The tasks of a DEAL gang that enter the pools of their cores' clusters, in order, as entries free (R311, R315): how many of a list do. -/
def State.poolTasks (s : State) : List PoolEntry → State × Nat
  | [] => (s, 0)
  | e :: l => match s.poolGang (coreCluster (e.core.getD 0)) [e] with
    | none => (s, 0)
    | some t => let r := t.poolTasks l; (r.1, r.2 + 1)

/-- The next range that a list of ranges takes a gang from: its newest. -/
def takeRange (rs : List (Nat × Nat)) : Option (Nat × List (Nat × Nat)) :=
  match rs.getLast? with
  | none => none
  | some (a, b) => some (a, rs.dropLast ++ if a + 1 < b then [(a + 1, b)] else [])

/-- The deque of a launch at a cluster. -/
def State.deque (s : State) (cl p lid : Nat) : Option Deque := (s.clu cl).deques.find? fun d => d.part == p && d.lid == lid
/-- A deque changed, with the cycle of the operation where it is one (R313). -/
def State.modDeque (s : State) (cl p lid : Nat) (op : Bool) (f : Deque → Deque) : State :=
  s.modClu cl fun c => { c with deques := c.deques.map fun d => if d.part = p ∧ d.lid = lid then f d else d, dqAt := if op then some s.now else c.dqAt }

/-- A thief asks its next victim, or ends its round (R313). -/
def State.askNext (s : State) (cl p lid : Nat) : State :=
  let cs := s.dirClusters p
  match s.deque cl p lid with
  | none => s
  | some d =>
    if Nat.min 8 (cs.length - 1) ≤ d.asked then s.modDeque cl p lid false fun d => { d with asked := 0, waiting := false, again := s.now + 256 }
    else
      let v := cs.getD ((cs.idxOf cl + d.asked + 1) % cs.length) cl
      (s.modDeque cl p lid false fun d => { d with asked := d.asked + 1, waiting := true }).send (s.now + noticeTime cl v) (.steal p lid cl v)

/-- The owner's take at a cluster: one gang from the newest range into the pool; a cluster whose deque is empty starts to steal. -/
def State.ownerTake (s : State) (l : Launch) (t : Template) (cl : Nat) : State :=
  match s.deque cl l.part l.lid with
  | none => s
  | some d =>
    if (s.clu cl).dqAt = some s.now then s
    else match takeRange d.ranges with
      | none => if d.waiting || decide (0 < d.asked) || decide (0 < d.again) then s else s.askNext cl l.part l.lid
      | some (g, rs) => match s.poolGang cl (gangEntries l t g fun _ => none) with
        | none => s
        | some s' => s'.modDeque cl l.part l.lid true fun d => { d with ranges := rs, again := 0 }

/-- Whether a launch's owner at a cluster can take a gang from its deque now: its take goes before a victim's split (R313). -/
def State.ownerCan (s : State) (cl p lid : Nat) : Bool :=
  match s.launch p lid, s.deque cl p lid with
  | some l, some d => match l.tmpl, takeRange d.ranges with
    | some t, some (g, _) => l.active && !l.stopped && (s.part p).reset.isNone && (s.poolGang cl (gangEntries l t g fun _ => none)).isSome
    | _, _ => false
  | _, _ => false

/-- GANG_PLACEMENT (R311, R312, R315): the next tasks of an active launch enter the pools, under DEAL bound to their cores; under STEAL each cluster
takes from its own deque. The tasks of a spanning gang wait there for the token. -/
def execGangPlacement (p lid : Nat) (s : State) : Out :=
  match s.launch p lid with
  | none => .next s
  | some l => match l.tmpl with
    | none => .next s
    | some t =>
      if !l.active || l.stopped || (s.part p).reset.isSome then .next s
      else if t.steal then .next ((s.dirClusters p).foldl (fun s cl => s.ownerTake l t cl) s)
      else if l.gangs ≤ l.next then .next s
      else
        let cores := s.gangCores p l.next t.size
        let r := s.poolTasks ((gangEntries l t l.next fun m => some (cores.getD m 0)).drop l.pooled)
        .next (r.1.modLaunch p lid fun l => if t.size ≤ l.pooled + r.2 then { l with next := l.next + 1, pooled := 0 } else { l with pooled := l.pooled + r.2 })

/-! The placement token (R314). -/

/-- The gangs of a launch that wait in pools. -/
def State.pooledGangs (s : State) (l : Launch) : List Nat :=
  (s.clus.flatMap fun k => (k.2.pool.filter fun e => e.part == l.part && e.lid == l.lid && e.saved.isNone).map PoolEntry.gang).eraseDups

/-- The least of a list of numbers. -/
def leastOf (l : List Nat) : Option Nat := l.foldl (fun m g => some (match m with
  | some k => Nat.min k g
  | none => g)) none

/-- The spanning gang whose turn it is: of the active launches in dispatch order, the first gang that is not placed and spans clusters (R314). -/
def State.spanNext (s : State) (p : Nat) : Option (Nat × Nat) :=
  s.launches.findSome? fun l => match l.tmpl with
    | some t =>
      if l.part = p ∧ l.active = true ∧ l.stopped = false ∧ t.steal = false then
        (leastOf ((s.pooledGangs l ++ if l.next < l.gangs then [l.next] else []).filter fun g => !oneCluster (s.gangCores p g t.size))).map fun g => (l.lid, g)
      else none
    | none => none

/-- The entries of a spanning gang leave the pools as it is placed; one that the pools have not taken whole is not taken further. -/
def State.unpool (s : State) (p lid g : Nat) : State :=
  let mine (e : PoolEntry) : Bool := e.part == p && e.lid == lid && e.gang == g && e.saved.isNone
  let s1 : State := { s with clus := s.clus.map fun k => (k.1, { k.2 with pool := k.2.pool.filter fun e => !mine e }) }
  s1.modLaunch p lid fun l => if l.next = g then { l with next := g + 1, pooled := 0 } else l

/-- The open slots reserved for the members of a spanning gang, each with its core, that have none. -/
def State.reserveSlots (s : State) (p : Nat) (cores : List (Nat × Nat)) : State :=
  cores.foldl (fun s c =>
    if (s.part p).reserved.any fun r => r.1 == c.2 then s
    else match (residentsOf c.1).find? s.slotOpen with
      | none => s
      | some sid => s.modPart p fun t => { t with reserved := t.reserved ++ [(c.2, sid)] }) s

/-- PLACEMENT_TOKEN (R314): the holder reserves the slots it needs as they become free; when all are reserved the gang is placed in one step and the
token passes on. DEDUCED (log 14): of a gang of which a rollback returned some members only, those are placed again. -/
def execPlacementToken (p : Nat) (s : State) : Out :=
  if (s.part p).reset.isSome then .next s
  else match (s.part p).token.or (s.spanNext p) with
    | none => .next s
    | some (lid, g) => match s.launch p lid with
      | none => .next (s.modPart p fun t => { t with token := none, reserved := [] })
      | some l => match l.tmpl with
        | none => .next s
        | some t =>
          let cores := (s.gangCores p g t.size).zipIdx.filter fun c => !s.memberPlaced l g c.2
          let s1 := (s.modPart p fun k => { k with token := some (lid, g) }).reserveSlots p cores
          let rs := (s1.part p).reserved
          if rs.length < cores.length then .next s1
          else .next (((s1.modPart p fun k => { k with token := none, reserved := [] }).placeGang l g rs).unpool p lid g)

/-- Whether a pool entry is older than the spanning gang whose turn it is, which then reserves no slot before it (R311, R314). -/
def State.entryOlder (s : State) (e : PoolEntry) : Bool :=
  match (s.part e.part).token.or (s.spanNext e.part) with
  | none => true
  | some (lid, g) =>
    let ls := (s.launches.filter fun l => l.part == e.part).map Launch.lid
    e.saved.isSome || decide (ls.idxOf e.lid < ls.idxOf lid) || (e.lid == lid && decide (e.gang < g))

/-- The oldest entry of a cluster's pool that can be placed, of those older than the spanning gang whose turn it is, if `older` asks for them. -/
def State.poolPick (s : State) (cl : Nat) (older : Bool) : Option (PoolEntry × List (Nat × Nat)) :=
  ((s.clu cl).pool.filter fun e => !older || s.entryOlder e).findSome? fun e => (s.entryPlace cl e).map fun m => (e, m)

/-! Stealing (R313). -/

/-- What a victim hands over of its ranges, and what it keeps. -/
def splitRange (rs : List (Nat × Nat)) : Option ((Nat × Nat) × List (Nat × Nat)) :=
  match rs with
  | [] => none
  | (a, b) :: l =>
    let n := b - a
    if 2 ≤ n then some ((a + n / 2, b), (a, a + n / 2) :: l)
    else if n = 1 ∧ l ≠ [] then some ((a, b), l)
    else none

/-- STEAL_REQUEST (R313): a victim answers from its oldest range. One deque operation per cycle, the owner's take first. -/
def execStealRequest (n : Nat) (s : State) : Out :=
  match (s.came n).map Msg.body with
  | some (.steal p lid thief victim) =>
    let reply (s : State) (r : Option (Nat × Nat)) : Out := .next ((s.dropMsg n).send (s.now + noticeTime victim thief) (.stolen p lid thief r))
    match s.deque victim p lid with
    | none => reply s none
    | some d =>
      if (s.clu victim).dqAt = some s.now ∨ (s.launches.any fun l => s.ownerCan victim l.part l.lid) = true then .next s
      else match splitRange d.ranges with
        | none => reply s none
        | some (r, rs) => reply (s.modDeque victim p lid true fun d => { d with ranges := rs }) (some r)
  | _ => .next s

/-- STEAL_ANSWER (R313): the thief pushes the range it got, or asks on. -/
def execStealAnswer (n : Nat) (s : State) : Out :=
  match (s.came n).map Msg.body with
  | some (.stolen p lid thief r) =>
    if r.isSome ∧ (s.clu thief).dqAt = some s.now then .next s else
    let s1 := (s.dropMsg n).modDeque thief p lid false fun d => { d with waiting := false }
    match r with
    | none => .next (s1.askNext thief p lid)
    | some r => .next ((s1.modDeque thief p lid true fun d => { d with asked := 0, again := 0 }).pushRange thief p lid r)
  | _ => .next s

/-- STEAL_RETRY (R313): 256 cycles after a round of empty answers the thief asks again. -/
def execStealRetry (cl lid : Nat) (s : State) : Out :=
  match s.partOfCluster cl with
  | none => .next s
  | some p => match s.deque cl p lid with
    | none => .next s
    | some d => .next (if 0 < d.again ∧ d.again ≤ s.now ∧ d.waiting = false ∧ d.asked = 0 ∧ d.ranges = [] then
        (s.modDeque cl p lid false fun d => { d with again := 0 }).askNext cl p lid else s)

end Sys2Proof.Machine
end

