-- ==== Sys2Proof/Machine/Streams.lean ====
section
/-!
DEFINITION. The stream unit: binding, marks, records, firing, amending, the record port and publication (R331 to R346, R353 to R355).
-/

namespace Sys2Proof.Machine

/-! BIND_STREAM (R332). -/

/-- The binding of a record's 16 words (Table 20-1). -/
def bindingOf (queue : Nat) (pid : BitVec 16) (w : Nat → Nat) : Binding :=
  let ptr (k : Nat) : Word := w64 (w k) &&& 0x00FFFFFFFFFFFFC0
  let lg (k : Nat) : Nat := bitsOf (w k) 4 0
  { queue := queue, pid := pid, tmpl := bitsOf (w 0) 15 0, lanes := bitsOf (w 0) 23 16 + 1, nsrc := bitsOf (w 0) 29 24 + 1, sliding := (w 0).testBit 31
    devmask := w64 (w 1), origin := w 2, size := w 3, slide := if (w 0).testBit 31 then w 4 else w 3, late := w 5
    out := ptr 6, dead := ptr 7, ing := ptr 8, state := ptr 9, recs := ptr 10, outLog := lg 6, deadLog := lg 7, ingLog := lg 8, wsLog := lg 9, bufLog := lg 10
    down := bitsOf (w 11) 15 0, downsrc := bitsOf (w 11) 21 16, idle := 2 ^ (if bitsOf (w 11) 63 58 = 0 then 24 else bitsOf (w 11) 63 58) }

/-- Whether a log2 field lies in 12 to 30. -/
def areaLog (n : Nat) : Bool := decide (12 ≤ n ∧ n ≤ 30)

/-- Whether the record refuses a binding (R332). -/
def State.bindBad (s : State) (p : Nat) (w : Nat → Nat) (b : Binding) : Bool :=
  let reserved := w 12 != 0 || w 13 != 0 || w 14 != 0 || w 15 != 0 || bitsOf (w 11) 57 22 != 0 || bitsOf (w 0) 63 32 != 0 || (w 0).testBit 30 ||
    [6, 7, 8, 9, 10].any fun k => bitsOf (w k) 63 56 != 0 || (w k).testBit 5
  reserved || (match s.template p b.tmpl with
    | none => true
    | some t => decide (0 < b.late) && t.amend == 0) ||
  b.size == 0 || (b.sliding && (b.slide == 0 || b.size % b.slide != 0 || decide (16 < b.size / b.slide))) ||
  !(areaLog b.outLog && areaLog b.deadLog && areaLog b.ingLog && areaLog b.bufLog && decide (1 ≤ b.wsLog ∧ b.wsLog ≤ 16)) ||
  (bitsOf (w 11) 63 58 != 0 && !decide (8 ≤ bitsOf (w 11) 63 58 ∧ bitsOf (w 11) 63 58 ≤ 40)) || decide (2 ^ b.nsrc ≤ b.devmask.toNat)

/-- Whether firing or amend launches of a stream are still to complete. -/
def State.streamLaunches (s : State) (p n : Nat) : Bool :=
  s.launches.any fun l => l.part == p && match l.origin with
    | .window k _ _ => k == n
    | _ => false

/-- BIND_STREAM (R331, R332): a pointer of 0 unbinds: unfired windows are discarded, and the command is done when the stream's launches are.
DEDUCED (log 12): unbinding an unbound stream is done at once, an unbind takes effect once the marks before it are applied (R334), and a record that
cannot be read fails as a template's does. -/
def execBindStream (q n : Nat) (s : State) : Out :=
  match s.cmdAt q n 2 with
  | none => .next s
  | some c =>
    let p := s.queuePart q
    let fail (code : Nat) : Out := .next (s.finishCmd q n 1 code 0)
    if 64 ≤ c.arg then fail codeCmdInvalid
    else
      let t := s.stream p c.arg
      if c.word 1 = 0 then
        if t.bound.isNone then .next (s.finishCmd q n 0 0 0)
        else if t.unbind.isNone then
          .next (if t.inq.any SIn.isHost then s else (s.startCmd q n).modStreamOf p c.arg fun t => { t with
            unbind := some (q, n), inq := [], wins := t.wins.filter fun x => x.firing != .open_ && x.firing != .due })
        else if s.streamLaunches p c.arg then .next s
        else .next ((s.modStreamOf p c.arg fun _ => {}).finishCmd q n 0 0 0)
      else if t.bound.isSome then fail codeCmdInvalid
      else match s.queueRead q (w64 (c.word 1)) 16 with
        | .error e => fail e.code
        | .ok v =>
          let w := blockWord v
          let b := bindingOf q (s.queue q).qpid w
          if s.bindBad p w b then fail codeCmdInvalid
          else .next (s.ported <| ((s.queueSeen q (w64 (c.word 1)) 2).modStreamOf p c.arg fun _ => {
            bound := some b, srcs := (List.range b.nsrc).foldl (fun (l : Tab Source) k => Tab.set {} l k { beat := s.now }) [] }).finishCmd q n 0 0 0)

/-! Inputs (R334 to R338). -/

/-- SOURCE_MARK (R334): the mark waits at the stream for the unit. -/
def execSourceMark (q n : Nat) (s : State) : Out :=
  match s.cmdAt q n 3 with
  | none => .next s
  | some c =>
    let p := s.queuePart q
    let src := bitsOf (c.word 1) 5 0
    if c.started then .next s
    else match (if c.arg < 64 then (s.stream p c.arg).bound else none) with
      | none => .next (s.finishCmd q n 1 codeCmdInvalid 0)
      | some b =>
        if b.nsrc ≤ src ∨ b.device src = true ∨ (s.stream p c.arg).unbind.isSome then .next (s.finishCmd q n 1 codeCmdInvalid 0)
        else .next ((s.startCmd q n).modStreamOf p c.arg fun t => { t with
          inq := t.inq ++ [.host src (bitsOf (c.word 2) 31 0) (if (c.word 1).testBit 8 then some (c.word 3) else none) q n] })

/-- Where record m of a host source lies (R334). -/
def Binding.ingestAt (b : Binding) (src m : Nat) : Nat := b.ing.toNat + src * 2 ^ b.ingLog + 32 * (m % (2 ^ b.ingLog / 32))

/-- The next record of a host source's ingest ring (R334); none where it cannot be read. -/
def State.ingest (s : State) (p : Nat) (b : Binding) (src m : Nat) : Option (List Word) :=
  (s.unitPa p b .read (b.ingestAt src m)).map fun pa => wordsOf 4 (s.physRead pa 32)

/-- A record taken: a heartbeat of its source, its place, and W (R335 to R337). -/
def State.takeRecord (s : State) (p n : Nat) (b : Binding) (src : Nat) (ws : Option (List Word)) : State :=
  let s1 := s.modStreamOf p n fun t => t.beat src s.now fun x => { x with cons := (x.cons + 1) % 2 ^ 32 }
  let s2 := match ws with
    | some l => s1.placeRecord p n b src l
    | none => s1
  (s2.modStreamOf p n fun t => t.advance b).streamTidy p n

/-- STREAM_RECORD_ARRIVAL (R335): the unit takes the next record, one input per cycle; DEDUCED (log 12): an ingest record that cannot be read is
consumed and dropped. A SOURCE_MARK without a watermark is done with its last record (R334). -/
def execStreamRecordArrival (p n : Nat) (s : State) : Out :=
  let t := s.stream p n
  match t.bound, t.inq with
  | some b, .record src ws _ :: l =>
    .next (if t.takenAt = some s.now then s else s.ported ((s.modStreamOf p n fun t => { t with inq := l }).takeRecord p n b src (some ws)))
  | some b, .host src pidx v q k :: l =>
    let m := (Tab.get {} t.srcs src).cons
    if t.takenAt = some s.now ∨ m = pidx then .next s
    else
      let s1 := (s.unitSeen p b (b.ingestAt src m)).takeRecord p n b src (s.ingest p b src m)
      .next (s.ported (if v.isNone ∧ (m + 1) % 2 ^ 32 = pidx then (s1.modStreamOf p n fun t => { t with inq := l }).finishCmd q k 0 0 0 else s1))
  | none, _ :: l => .next (s.modStreamOf p n fun t => { t with inq := l })
  | _, [] => .next s
  | _, _ => .next s

/-- A mark taken: a heartbeat, the source's watermark, and W (R336, R337). -/
def State.takeMark (s : State) (p n : Nat) (b : Binding) (src : Nat) (v : Option Nat) (l : List SIn) : State :=
  (s.modStreamOf p n fun t => ({ t with inq := l }.beat src s.now fun x => { x with wm := Nat.max x.wm (v.getD 0) }).advance b).streamTidy p n

/-- WATERMARK_MARK (R336): the unit takes the next mark, or a SOURCE_MARK that names no records and no watermark, a heartbeat alone. -/
def execWatermarkMark (p n : Nat) (s : State) : Out :=
  let t := s.stream p n
  match t.bound, t.inq with
  | some b, .mark src v _ :: l => .next (if t.takenAt = some s.now then s else s.takeMark p n b src (some v) l)
  | some b, .host src pidx v q k :: l =>
    .next (if t.takenAt = some s.now ∨ (Tab.get {} t.srcs src).cons ≠ pidx then s else (s.takeMark p n b src v l).finishCmd q k 0 0 0)
  | none, _ :: l => .next (s.modStreamOf p n fun t => { t with inq := l })
  | _, [] => .next s
  | _, _ => .next s

/-- Whether a source has had no heartbeat for T_idle cycles, judged at the end of each cycle (R336, R354). -/
def Source.silent (x : Source) (b : Binding) (now : Nat) : Bool := x.active && decide (x.beat + b.idle ≤ now)

/-- SOURCE_IDLE (R336, R354): it comes after the cycle's arrivals. -/
def execSourceIdle (p n src : Nat) (s : State) : Out :=
  let t := s.stream p n
  match t.bound with
  | none => .next s
  | some b => .next (if src < b.nsrc ∧ (Tab.get {} t.srcs src).silent b s.now = true then
      (s.modStreamOf p n fun t =>
        let x : Source := Tab.get {} t.srcs src
        let u : Stream := { t with srcs := Tab.set {} t.srcs src { x with active := false } }
        u.advance b).streamTidy p n
    else s)

/-! Firing and amending (R339 to R343, R355). -/

/-- The words of a list of records. -/
def Stream.wordsFor (t : Stream) (ids : List Nat) : List Word := ids.flatMap fun n => match t.recs.find? fun r => r.id == n with
  | some r => r.words
  | none => []

/-- The number of a lane's state slot. -/
def Binding.slotIndex (b : Binding) (w lane : Nat) : Nat := w % 2 ^ b.wsLog * b.lanes + lane

/-- A launch of a window, with the PID of the binding's queue (R340). -/
def State.windowLaunch (s : State) (p n : Nat) (b : Binding) (w : Nat) (amend : Bool) (lanes : List Lane) : State :=
  let lid := (s.part p).nextLid
  (s.modPart p fun k => { k with nextLid := if lid + 1 < 2 ^ 32 then lid + 1 else 1 }).addLaunch
    { part := p, lid := lid, queue := b.queue, origin := .window n w amend, tix := b.tmpl, gangs := lanes.length, args := [], prio := none, pid := (s.queue b.queue).qpid
      arrived := s.now, lanes := lanes }

/-- Whether a publication waits for room in the output ring (R342). -/
def State.pubWaits (s : State) (p n : Nat) (b : Binding) : Bool := !(s.stream p n).pubs.isEmpty && s.ringFull p b b.out.toNat b.outLog 32

/-- WINDOW_LAUNCH (R340, R342, R355): the lowest window that has fired is launched, one per cycle, and none while a publication waits. DEDUCED (log 12):
the unit zeroes the slots in which the window 2^WSLOG2 earlier published nothing (R353). -/
def execWindowLaunch (p n : Nat) (s : State) : Out :=
  let t := s.stream p n
  match t.bound, t.wins.find? fun x => x.firing == .due with
  | some b, some x =>
    if t.firedAt = some s.now ∨ t.unbind.isSome = true ∨ s.pubWaits p n b = true then .next s
    else
      let lanes : List Lane := (x.lists.filter fun l => !l.2.isEmpty).map fun l => { lane := l.1, words := t.wordsFor l.2, revision := 1 }
      let lid := (s.part p).nextLid
      let s1 := (s.modStreamOf p n fun t => { t with firedAt := some s.now }).modWin p n x.w fun x => { x with firing := .running lid }
      let stale (k : Lane) : Bool := !decide (2 ^ b.wsLog ≤ x.w ∧ Tab.get 0 t.published (b.slotIndex x.w k.lane) = x.w - 2 ^ b.wsLog + 1)
      let s2 := (lanes.filter stale).foldl (fun s k => s.unitWrite p b (b.slotOf x.w k.lane) 0 2) s1
      .next (s.ported (s2.windowLaunch p n b x.w false lanes))
  | _, _ => .next s

/-- AMEND_LAUNCH (R343): the late lists of a window whose firing launch is complete become the batch of an amend launch. A lane that has published
nothing has a zero slot. -/
def execAmendLaunch (p n w : Nat) (s : State) : Out :=
  let t := s.stream p n
  match t.bound, t.wins.find? fun x => x.w == w with
  | some b, some x =>
    let late := x.late.filter fun l => !l.2.isEmpty
    if x.firing ≠ .complete ∨ x.amend.isSome = true ∨ late.isEmpty = true ∨ t.unbind.isSome = true then .next s
    else
      let lanes : List Lane := late.map fun l => { lane := l.1, words := t.wordsFor l.2, revision := Tab.get 0 x.revs l.1 + 1 }
      let s1 := (lanes.filter fun k => k.revision == 1).foldl (fun s k => s.unitWrite p b (b.slotOf w k.lane) 0 2) s
      let lid := (s.part p).nextLid
      let s2 := s1.modWin p n w fun x => { x with amend := some lid, late := [] }
      .next (s.ported (s2.windowLaunch p n b w true lanes))
  | _, _ => .next s

/-- The words that the port is filled up to: four entries of 64 words, or 64 words once a part of an entry has been read as words; DEDUCED (log 12). -/
def WindowTask.depth (k : WindowTask) : Nat := if k.port % 64 = 0 then 256 else 64

/-- The port filled up; past the list it gives all-ones words (R341). -/
def WindowTask.refill (k : WindowTask) : WindowTask :=
  let n := k.depth - k.buf.length
  let got := k.todo.take n
  { k with buf := k.buf ++ got ++ List.replicate (n - got.length) (BitVec.allOnes 64), todo := k.todo.drop n }

/-- RECORD_PORT_REFILL (R341, R379). -/
def execRecordPortRefill (sid : Nat) (s : State) : Out :=
  .next (s.modCtx sid fun c => { c with win := c.win.map fun k => if k.shut then k else k.refill })

/-! Publication (R342, R353). -/

/-- PUBLICATION (R342): the value goes to the lane's state slot, then a record to the output ring, once it has room. -/
def execPublication (p n : Nat) (s : State) : Out :=
  let t := s.stream p n
  match t.bound, t.pubs with
  | some b, x :: l =>
    if s.ringFull p b b.out.toNat b.outLog 32 then .next s
    else
      let rec_ := x.w + (x.lane + x.revision % 2 ^ 16 * 2 ^ 16 + (if x.amend then 2 ^ 32 else 0)) * 2 ^ 64 + x.value * 2 ^ 128
      let s1 := (s.unitWrite p b (b.slotOf x.w x.lane) x.value 2).ringPut p b b.out.toNat b.outLog 32 rec_
      .next (s.ported <| (s1.modStreamOf p n fun t => { t with
        pubs := l, published := Tab.set 0 t.published (b.slotIndex x.w x.lane) (x.w + 1) }).modWin p n x.w fun y => { y with revs := Tab.set 0 y.revs x.lane x.revision })
  | _, _ => .next s

end Sys2Proof.Machine
end

