-- ==== Sys2Proof/Machine/Preempt.lean ====
section
/-!
DEFINITION. Saving a context out and restoring it: YIELD, CONTEXT_SAVE, CONTEXT_RESTORE (R108, R142, R168, R186, R214, R223, R227, R328 to
R330, R349 to R351).
-/

namespace Sys2Proof.Machine

/-! The save block (Table 19-5) and the cluster image (R329). -/

/-- The bytes of a block's registers; the private allocation follows. -/
def blockFixed : Nat := 0x7500

/-- SB: the size of a block (R328). -/
def Part.blockSize (p : Part) : Nat := ceilDiv (blockFixed + 64 * p.pmax) 0x1000 * 0x1000

/-- The CSRs of a block, in number order. -/
def blockCsrs : List Nat :=
  [0x0001, 0x0002, 0x0003, 0x0010, 0x0011, 0x0020, 0x0021, 0x0022, 0x0800, 0x0801, 0x0802, 0x0803, 0x0804, 0x0805, 0x0809, 0x080A, 0x080B, 0x1000,
    0x1001, 0x1002, 0x1003, 0x1004, 0x1005, 0x1006, 0x1007, 0x1008, 0x1009]

/-- The header (Table 19-5): the time left to a parked party, all ones for no limit; the timebase at the end of the save. -/
def Saved.header (v : Saved) (now : Nat) : List Nat :=
  let c := v.ctx
  let parked : Nat := match c.park with
    | some p => if p.roll then 2 else 1
    | none => 0
  let left : Nat := match c.park with
    | some p => p.deadline.getD (if c.meetto = 0 then 0 else 2 ^ 64 - 1)
    | none => 0
  [2 ^ 63 + bitNat v.owner 62 + bitNat c.fault.pending 61 + bitNat (!c.uints.isEmpty) 60 + parked * 2 ^ 58 + c.pc.toNat, left, now % 2 ^ 64
    , v.inbox.length + ((List.range 8).map fun n => (c.aq.toList.getD n []).length * 2 ^ (8 + 5 * n)).sum, 0, 0, 0, 0]

/-- The record of a transfer: XID, KIND, block pointer, state and PROG as XSTAT gives them; DESIGN CHOICE (log 8): their order. -/
def State.xferRecord (s : State) (ci : Nat) (x : Xfer) : List Nat := [x.xid.toNat, x.kind.code, 0xF0 * 2 ^ 48 + x.block, (s.xstat ci x.xid).toNat]

/-- A stream engine's record: its descriptor, with the entries consumed in word 7. -/
def StreamEng.record (g : StreamEng) (e : Nat) : List Nat :=
  [g.base.toNat, packWhole 16 g.n] ++ (List.range 4).map (fun n => (g.stride.getD n 0).toNat) ++
    [e + bitNat g.out 2 + bitNat g.wide 3, g.moved - (if g.out then 0 else g.buf.length)]

/-- The words of a block from 0x40 to 0x33FF, but for the counters and the fault record, which stand as zero. -/
def State.blockWords (s : State) (v : Saved) : List Nat :=
  let c := v.ctx
  let ci := slotCore v.sid
  let to_ (n : Nat) (l : List Nat) : List Nat := (List.range n).map fun i => l.getD i 0
  let k := s.core ci
  c.x.toList.map BitVec.toNat ++ to_ 32 (blockCsrs.map fun n => ((s.csrRead v.sid n).getD 0).toNat) ++ List.replicate 24 0 ++
    [packWhole 16 (c.fm.toList.map BitVec.toNat), 0, 0, 0, 0, 0, 0, 0] ++ c.c.toList.map BitVec.toNat ++
    c.aq.toList.flatMap (fun q => to_ 16 (q.map BitVec.toNat)) ++ c.k.toList.flatMap (fun r => (wordsOf 16 r.toNat).map BitVec.toNat) ++
    to_ 128 (v.inbox.flatMap fun e => [e.w0.toNat, e.w1.toNat]) ++ to_ 64 ((k.xfers.filter fun x => x.sid == v.sid).flatMap (s.xferRecord ci)) ++
    (List.range 4).flatMap (fun e => let g := Tab.get {} k.seng e; if g.active && g.sid == v.sid then g.record e else to_ 8 []) ++
    to_ 24 [] ++ c.v.toList.flatMap fun r => (wordsOf 64 r.toNat).map BitVec.toNat

/-- A core's matrix state as a save area holds it (Table 09-5). -/
def CoreSt.ownerImage (k : CoreSt) : Nat :=
  k.saveImage { sid := 0, i := .mtest, pc := 0, sa := 0, sb := 0, fmt := k.fmt, tabs := [], base := 0, ctl := 0, serial := 0, pass := 0, kdone := 0
                cols := 0, started := false, done := false, at_ := 0, shs := (List.range 8).map fun n => Tab.get 0 k.sh n, mprog := k.mprog }

/-- Lines of words at a physical address. -/
def wordLines (pa : Nat) (ws : List Nat) : List (Nat × Nat) :=
  (List.range (ceilDiv ws.length 8)).map fun i => (pa + 64 * i, packWhole 64 ((ws.drop (8 * i)).take 8))

/-- Lines of a value of `n` bytes at a physical address. -/
def valueLines (pa v n : Nat) : List (Nat × Nat) := (List.range (ceilDiv n 64)).map fun i => (pa + 64 * i, v / 2 ^ (512 * i) % 2 ^ 512)

/-- The lines written last: the header, the counters, and the fault record, since a held output may fault during the save. -/
def Saved.lastLines (v : Saved) (now : Nat) : List (Nat × Nat) :=
  wordLines v.block (v.header now) ++ wordLines (v.block + 0x240) (v.ctx.acct.toList.map BitVec.toNat) ++
    wordLines (v.block + 0x1340) ((List.range 16).map fun n => v.ctx.fault.word n)

/-- The other lines of a block. -/
def State.blockLines (s : State) (v : Saved) : List (Nat × Nat) :=
  ((wordLines (v.block + 0x40) (s.blockWords v)).filter fun l =>
    !decide ((v.block + 0x240 ≤ l.1 ∧ l.1 < v.block + 0x300) ∨ (v.block + 0x1340 ≤ l.1 ∧ l.1 < v.block + 0x13C0))) ++
    (if v.owner then valueLines (v.block + 0x3400) (s.core (slotCore v.sid)).ownerImage saveBytes else []) ++
    valueLines (v.block + blockFixed) (s.spadRead (slotCluster v.sid) v.ctx.privBase.toNat v.ctx.privSize.toNat) v.ctx.privSize.toNat

/-- A ring entry as Table 10-2 lays it out. -/
def Ring.word (r : Ring) : Nat :=
  r.base * 2 ^ 11 + r.size * 2 ^ 31 + r.tag0 * 2 ^ 51 + r.count * 2 ^ 63 + r.head * 2 ^ 76 + r.tail * 2 ^ 88 + bitNat r.valid 100 + r.mode * 2 ^ 101

/-- The ring entry of a word. -/
def Ring.ofWord (v : Nat) : Ring :=
  { base := bitsOf v 30 11, size := bitsOf v 50 31, tag0 := bitsOf v 62 51, count := bitsOf v 75 63, head := bitsOf v 87 76, tail := bitsOf v 99 88
    valid := v.testBit 100, mode := bitsOf v 102 101 }

/-- The lines of a cluster's image: the scratchpad, the tags, the cores' rings (R329). -/
def State.imageLines (s : State) (cl base : Nat) : List (Nat × Nat) :=
  ((List.range (Config.spadBytes / 64)).map fun i => (base + 64 * i, s.spadRead cl (64 * i) 64)) ++
    wordLines (base + Config.spadBytes) ((List.range 4096).map fun t => (s.tag cl t).toNat) ++
    valueLines (base + Config.spadBytes + 0x8000) (packWhole 128 ((List.range 64).map fun n => (s.ring (4 * cl + n / 16) (n % 16)).word)) 1024

/-! The cut. -/

/-- The cut of the matrix port (R186): none while it must wait; else the first port instruction after L, if there is one. -/
def State.portCut (s : State) (sid : Nat) : Option (Option PortEntry) :=
  let ci := slotCore sid
  let c := s.ctx sid
  let mine := (s.core ci).port.filter fun p => p.sid == sid
  if mine.any fun p => decide (p.serial < c.serial) then none
  else match mine with
    | [] => some none
    | p :: _ =>
      let running := p.done || (match p.i with
        | .mma _ _ _ _ _ _ => (s.clu (coreCluster ci)).arr.job == some (.step ci)
        | _ => p.started)
      if running then none else some (some p)

/-- Whether a context's instructions have come to a boundary at which it may be cut (R108, R142): they have retired, but for those of a frame that
the cut stops (R168). -/
def State.atCut (s : State) (sid : Nat) : Bool :=
  let c := s.ctx sid
  let t := (s.stopFrame sid).modCtx sid fun c => { c with replay := none }
  c.heldForSave && c.idWait.isEmpty && !s.replayHolds sid && !t.unretired sid &&
    (match c.act with
     | .stalled _ => false
     | _ => true) && (s.portCut sid).isSome

/-- Whether the cut of a context leaves its cluster without a live one (R329). -/
def State.cutLast (s : State) (sid : Nat) : Bool := (clusterSlots (slotCluster sid)).all fun o => o == sid || (s.ctx o).act == .free

/-- Whether buffer-free signals are still held back in a cluster. DEDUCED (log 13): the cut that leaves it without a live context waits for them, so
that its image does not hold the CONS bits that they clear (R193, R329). -/
def State.freesHeld (s : State) (cl : Nat) : Bool := (List.range 4).any fun c => !(s.core (4 * cl + c)).frees.isEmpty

/-- Whether it is a context's turn: the contexts of a partition are saved one at a time, in increasing physical core number (R328, R349). -/
def State.saveTurn (s : State) (sid : Nat) : Bool :=
  let c := s.ctx sid
  let rank (n : Nat) : Nat := 4 * corePhysical (slotCore n) + slotCode n
  !(s.savedOut.any fun v => v.part == c.part && v.ended.isNone) &&
    !(s.ctxs.any fun e => e.2.part == c.part && e.2.heldForSave && decide (rank e.1 < rank sid))

/-- The transfers of a context that are not yet stopped. -/
def State.goingXfers (s : State) (sid : Nat) : List Xfer := (s.core (slotCore sid)).xfers.filter fun x => x.sid == sid && !x.stopped

/-- Whether a row of a transfer is under way: it stops at its next row boundary (R214). -/
def State.rowUnderWay (s : State) (ci : Nat) (x : Xfer) : Bool := (s.unitOf (coreCluster ci) 0 (.row ci x.xid.toNat x.prog)).isSome

/-- The transfers of a context stopped; a running XCOPY writes PROG into its block (R214). -/
def State.stopXfers (s : State) (sid : Nat) : State :=
  (s.goingXfers sid).foldl (fun s x =>
    (if x.kind == .copy && !x.held then s.writeProg (slotCore sid) x x.prog else s).modXfer (slotCore sid) x.xid fun x => { x with stopped := true }) s

/-- Whether what a context's engines had begun is complete (R214, R328). -/
def State.enginesQuiet (s : State) (sid : Nat) : Bool :=
  let ci := slotCore sid
  ((s.core ci).xfers.all fun x => x.sid != sid || (s.xferQuiet ci x.xid && match s.drainOf ci x.xid with
    | some d => !d.taken
    | none => true)) &&
    (s.core ci).seng.all fun e => !(e.2.active && e.2.sid == sid && e.2.out && e.2.fault.isNone) || (e.2.buf.isEmpty && e.2.writes.isEmpty)

/-- Whether an MMA of the port has begun, so that the cut finds it at a step (R186). -/
def PortEntry.begun (p : PortEntry) : Bool :=
  match p.i with
  | .mma _ _ _ _ _ _ => p.started || p.kdone != 0 || p.pass != 0
  | _ => false

/-- Whether MPROG of a context concerns an MMA that has not issued again: the next instruction's, or that of the instruction after its UIRET (R187). -/
def Ctx.resumes (c : Ctx) : Bool := c.mret || (c.ui && c.uret)

/-- MPROG after the cut (R186): where nothing has issued since a restoration it still stands for the MMA that follows; DEDUCED (log 13). -/
def cutMprog (c : Ctx) (p : Option PortEntry) (w : Word) : Word :=
  match p with
  | some p => match p.i with
    | .mma n _ _ _ _ _ =>
      if p.begun then w64 (2 ^ 63 + n.toNat % 2 * 2 ^ 60 + p.pass % 16 * 2 ^ 56 + p.kdone) else w &&& 0x7FFFFFFFFFFFFFFF
    | _ => w &&& 0x7FFFFFFFFFFFFFFF
  | none => if c.resumes then w else w &&& 0x7FFFFFFFFFFFFFFF

/-- The context at the cut: EPC, FRAME and PMODE are written (R168, R186, R328), and a sleep is left at its instruction, which will issue anew (R132,
R203). PUI takes UI, as at a trap, for the return; DEDUCED (log 13). -/
def Ctx.atSave (c : Ctx) (p : Option PortEntry) (now : Nat) : Ctx :=
  let pc := match p with
    | some e => e.pc
    | none => c.pc
  let act : Activity := match c.act with
    | .parked => .parked
    | .halted => .halted
    | _ => .running
  { c with
    act := act, pc := pc, epc := pc &&& ~~~3, frame := c.frameAtTrap, pmode := false, pui := c.ui, cap := none, replay := none, run := none, pause := none
    acq := none, mcols := (p.bind fun q => if q.begun then some q.cols else none).getD c.mcols
    preemptReq := false, yielding := false, park := c.park.map fun q => { q with deadline := q.deadline.map fun t => t - now } }

/-- The waiter of a context dropped (R132, R203). -/
def State.dropWaiter (s : State) (sid : Nat) : State :=
  match (s.ctx sid).act with
  | .waitWord _ _ => s.modClu (slotCluster sid) fun k => { k with waiters := k.waiters.filter fun w => w.sid ≠ sid }
  | .waitTag _ t _ _ => s.clearWait sid t
  | _ => s

/-- What a context leaves behind on its core named otherwise, while another may hold its slot: its transfers and engines, its requests. -/
def State.rename (s : State) (ci from_ to_ : Nat) : State :=
  (s.modCore ci fun k => { k with
    xfers := k.xfers.map fun x => if x.sid = from_ then { x with sid := to_ } else x
    seng := k.seng.map fun e => (e.1, if e.2.sid = from_ ∧ e.2.active = true then { e.2 with sid := to_ } else e.2) }).moveReqs from_ to_

/-- The physical base of a context's save block (R328). -/
def State.blockOf (s : State) (sid : Nat) : Nat :=
  let p := (s.ctx sid).part
  (s.part p).ctxsave + (2 * s.logicalCore p (slotCore sid) + slotCode sid) * (s.part p).blockSize

/-- A context cut and taken out: its port is cut, its waiter and its unread stream-in entries go, and the lines of its block wait, with those of
its cluster's image where it is the last live one there (R328, R329). -/
def State.cutContext (s : State) (sid : Nat) (p : Option PortEntry) : State :=
  let ci := slotCore sid
  let cl := slotCluster sid
  let c := s.ctx sid
  let owner := s.isOwner sid
  let s1 := (s.stopFrame sid).dropWaiter sid
  let s2 := if owner then s1.modCore ci fun k => { k with mprog := cutMprog c p k.mprog, port := k.port.filter fun q => q.sid != sid } else s1
  let cutMma := p.any fun q => q.started
  let s3 := if cutMma then s2.modArr cl fun a => { a with due := true } else s2
  let s4 := s3.modCore ci fun k => { k with seng := k.seng.map fun e =>
    (e.1, if e.2.active && e.2.sid == sid && !e.2.out then { e.2 with moved := e.2.moved - e.2.buf.length, buf := [] } else e.2) }
  let mine := (s4.core ci).inbox.filter fun e => e.tag == slotTag sid
  let v : Saved := { n := s.nextId, part := c.part, lid := c.launchId.toNat, sid := sid, ctx := c.atSave p s.now, inbox := mine, owner := owner, block := s.blockOf sid
                     image := if s.cutLast sid then some ((s.part c.part).clsave + (s.dirClusters c.part).idxOf cl * 0xD0000) else none, todo := [], at_ := s.now
                     ended := none, eligible := false, yielded := c.yielding, restoring := false, back := none }
  let s5 := s4.modCtx sid fun _ => { v.ctx with act := .saved, preemptReq := true, run := c.run }
  let s5 := ((List.range 4).filter fun e => (Tab.get {} (s.core ci).seng e).active && (Tab.get {} (s.core ci).seng e).sid == sid).foldl (fun s e => s.dropEntries ci e) s5
  let lines := s5.blockLines v ++ (match v.image with
    | some b => s5.imageLines cl b
    | none => [])
  let s6 := (s5.modCore ci fun k => { k with
    inbox := k.inbox.filter fun e => e.tag != slotTag sid, reserved := k.reserved + mine.length }).rename ci sid (savedBase + v.n)
  { s6 with saved := s6.saved ++ [{ v with todo := lines }], nextId := s.nextId + 1 }

/-- A save's lines put into the restante buffer (R328). -/
def State.pushLines (s : State) (v : Saved) (ls : List (Nat × Nat)) : State :=
  { s with
    reqs := s.reqs ++ (ls.zipIdx.map fun l => {
      id := s.nextId + l.2, sid := savedBase + v.n, kind := .save, stage := .held, va := 0, size := 64, pa := l.1.1, data := l.1.2, be := allBytes 64, expect := 0
      pc := v.ctx.pc, made := s.now, pid := v.ctx.pid, part := v.part, mode := true, serial := v.ctx.serial, handler := false, stranded := false
      taints := v.ctx.taints, src := v.sid, lid := v.lid })
    nextId := s.nextId + ls.length }

/-- A saved context's record changed. -/
def State.modSaved (s : State) (n : Nat) (f : Saved → Saved) : State := { s with saved := s.saved.map fun v => if v.n = n then f v else v }

/-- The next part of a save: as many lines as the buffer takes; with the last of them the save ends, and the slot is free (R68, R328). -/
def State.saveMore (s : State) (v : Saved) : State :=
  let cl := slotCluster v.sid
  let room := Config.restanteEntries - s.restUsed cl
  if !v.todo.isEmpty then (s.pushLines v (v.todo.take room)).modSaved v.n fun u => { u with todo := u.todo.drop room }
  else if room < 6 || (v.yielded && decide (64 ≤ (s.clu cl).pool.length)) then s
  else
    let s1 := s.closeRun v.sid
    let w : Saved := { v with ctx := { v.ctx with acct := (s1.ctx v.sid).acct, fault := if v.ctx.fault.valid then v.ctx.fault else (s1.ctx v.sid).fault }, ended := some s.now }
    let s2 := ((s1.pushLines w (w.lastLines s.now)).modSaved v.n fun _ => w)
    let s3 : State := { s2.modCore (slotCore v.sid) (fun k => { k with owner := if v.owner then none else k.owner }) with ctxs := Tab.set {} s2.ctxs v.sid {} }
    if v.yielded then s3.poolSaved w else s3

/-- CONTEXT_SAVE (R328): a step of the saving of a slot's context: its transfers stop, then it is cut, then its lines go out. -/
def execContextSave (sid : Nat) (s : State) : Out :=
  match s.savedOut.find? fun v => v.sid == sid && v.ended.isNone with
  | some v => .next (s.saveMore v)
  | none =>
    if isVisitor sid || !s.atCut sid || !s.saveTurn sid then .next s
    else if !(s.goingXfers sid).isEmpty then
      .next (if (s.goingXfers sid).any fun x => x.kind == .copy && !x.held && (s.progFull (slotCore sid) x || s.rowUnderWay (slotCore sid) x) then s else s.stopXfers sid)
    else if !s.enginesQuiet sid || (s.cutLast sid && s.freesHeld (slotCluster sid)) then .next s
    else match s.portCut sid with
      | some p => .next (s.cutContext sid p)
      | none => .next s

/-! Restoration (R330, R351). -/

/-- A value of `n` words of a block. -/
def State.blockVal (s : State) (v : Saved) (off n : Nat) : Nat := s.physRead (v.block + off) (8 * n)

/-- The 64-bit word of a block at an offset. -/
def State.blockWordAt (s : State) (v : Saved) (off : Nat) : Word := w64 (s.blockVal v off 1)

/-- A CSR as a block holds it. -/
def State.blockCsr (s : State) (v : Saved) (n : Nat) : Word := s.blockWordAt v (0x140 + 8 * blockCsrs.idxOf n)

/-- The deferred fault record of a block; which fault it was stands in the save alone, since Table 19-4 does not hold it (log 13). -/
def State.blockFault (s : State) (v : Saved) (pending : Bool) : FaultRecord :=
  let w := s.blockWordAt v
  { valid := (w 0x1340).getLsbD 63, pc := (w 0x1340).extractLsb' 0 56, va := w 0x1348, byteen := w 0x1350, kind := (w 0x1358).extractLsb' 0 4
    data := BitVec.ofNat 512 (s.blockVal v 0x1380 8), access := v.ctx.fault.access, pending := pending }

/-- What PARKED of a block restores: no park, or that of the save (R350). -/
def Saved.parkFor (v : Saved) (parked : Nat) : Option Park := v.ctx.park.filter fun q => parked == if q.roll then 2 else 1

/-- The context that a block restores (Table 19-5): its registers come from the block, what the table does not list from the save. -/
def State.fromBlock (s : State) (v : Saved) : Ctx :=
  let c := v.ctx
  let csr := s.blockCsr v
  let head := s.blockWordAt v 0
  let st := csr 0x1000
  let counts := s.blockWordAt v 0x18
  let park := v.parkFor (head.extractLsb' 58 2).toNat
  { c with
    x := (Vector.ofFn fun i : Fin 32 => if i = 0 then 0 else s.blockWordAt v (0x40 + 8 * i.val))
    pc := pcField (csr 0x1002), mode := st.getLsbD 10, ui := st.getLsbD 11, pmode := st.getLsbD 10, pui := st.getLsbD 11
    fflags := (csr 0x0001).extractLsb' 0 5, rmode := (csr 0x0002).extractLsb' 0 2, srseed := csr 0x0003, meetto := csr 0x0010, rollq := (csr 0x0011).extractLsb' 0 11
    uepc := csr 0x0020, uieEn := (csr 0x0021).getLsbD 0, xid := (csr 0x0022).extractLsb' 0 32, cause := csr 0x1001 &&& 0x800000000000FFFF, epc := pcField (csr 0x1002), tval := csr 0x1003
    tvec := pcField (csr 0x1004), frame := csr 0x1005 &&& 0xFFFFFFFF0000DFFF, framepc := pcField (csr 0x1006), acctbase := (csr 0x1008).extractLsb' 0 56 &&& ~~~0xFFF
    acctctl := (csr 0x1009).extractLsb' 0 32 &&& 0xFFFF1F01
    taskc := #v[(csr 0x0800).extractLsb' 0 16, (csr 0x0801).extractLsb' 0 16, (csr 0x0802).extractLsb' 0 16], gang := (csr 0x0803).extractLsb' 0 48
    launchId := (csr 0x0804).extractLsb' 0 32, queue := (csr 0x0804).extractLsb' 32 13, pid := (csr 0x0805).extractLsb' 0 16
    privBase := (csr 0x080A).extractLsb' 0 20 &&& 0xFFFC0, privSize := (csr 0x080B).extractLsb' 0 20 &&& 0xFFFC0
    fault := s.blockFault v (head.getLsbD 61), uints := if head.getLsbD 60 then c.uints else [], park := park
    act := if c.act = .parked ∧ park.isNone then .running else c.act
    acct := (Vector.ofFn fun i : Fin 24 => (s.blockWordAt v (0x240 + 8 * i.val)).extractLsb' 0 48)
    fm := (Vector.ofFn fun i : Fin 4 => BitVec.ofNat 16 (s.physRead (v.block + 0x300 + 2 * i.val) 2))
    c := (Vector.ofFn fun i : Fin 32 => (s.blockWordAt v (0x340 + 8 * i.val)).extractLsb' 0 8)
    aq := (Vector.ofFn fun i : Fin 8 => (List.range (Nat.min 16 (bitsOf counts.toNat (12 + 5 * i.val) (8 + 5 * i.val)))).map fun j =>
      s.blockWordAt v (0x440 + 128 * i.val + 8 * j))
    k := (Vector.ofFn fun i : Fin 8 => BitVec.ofNat 1024 (s.blockVal v (0x840 + 128 * i.val) 16))
    v := (Vector.ofFn fun i : Fin 16 => BitVec.ofNat 4096 (s.blockVal v (0x1400 + 512 * i.val) 64)) }

/-- The inbox entries that a block restores, as many as header word 3 says (R330). Whether word 0 of one has been popped stands in the save alone
(log 13). -/
def State.blockInbox (s : State) (v : Saved) : List InboxEntry :=
  (List.range (Nat.min 64 (bitsOf (s.blockWordAt v 0x18).toNat 6 0))).map fun i =>
    { tag := slotTag v.sid, w0 := s.blockWordAt v (0xC40 + 16 * i), w1 := s.blockWordAt v (0xC48 + 16 * i), half := (v.inbox[i]?).any InboxEntry.half }

/-- A transfer of a restored context as its record in the block has it; none where the block holds no record of it (Table 19-5, R330). -/
def State.blockXfer (s : State) (v : Saved) (x : Xfer) : Option Xfer :=
  ((List.range 16).find? fun i => s.blockVal v (0x1040 + 32 * i) 1 % 2 ^ 32 == x.xid.toNat && s.blockVal v (0x1058 + 32 * i) 1 % 16 != 0).map fun i =>
    { x with block := s.blockVal v (0x1050 + 32 * i) 1 % 2 ^ 20, prog := s.blockVal v (0x1058 + 32 * i) 1 / 2 ^ 32, stopped := false }

/-- A stream engine of a restored context as its record in the block has it: its descriptor, and the entries consumed (Table 19-5, R330). -/
def State.blockEngine (s : State) (v : Saved) (e : Nat) (g : StreamEng) : StreamEng :=
  let w (n : Nat) : Word := s.blockWordAt v (0x1240 + 64 * e + 8 * n)
  if (List.range 8).all fun n => w n == 0 then {}
  else { g with
    base := w 0, n := (List.range g.n.length).map fun i => bitsOf (w 1).toNat (16 * i + 15) (16 * i), stride := (List.range g.stride.length).map fun i => w (2 + i)
    out := (w 6).getLsbD 2, wide := (w 6).getLsbD 3, moved := (w 7).toNat }

/-- The restored context as it goes on: a parked one takes up the timeout saved in header word 1 (R350), PREEMPTED has been credited, and it resumes as
after a TRET. DEDUCED (log 13): its state arrives on the core as the restoration begins, and it has not issued there since, so its age counts from
then (R63, R66); a PREEMPT that names it meanwhile stands (R349). -/
def State.resumed (s : State) (v : Saved) : Ctx :=
  let c := s.fromBlock v
  let slot := s.ctx v.sid
  let left := s.blockWordAt v 8
  { c with
    acct := slot.acct, lastIssue := slot.lastIssue, run := slot.run, preemptReq := slot.preemptReq, yielding := slot.yielding, park := c.park.map fun q => { q with deadline := if q.deadline.isNone ∨ left = BitVec.allOnes 64 then none else some (s.now + left.toNat) }, mret := !(c.ui && c.uret)
    frame := c.frame &&& ~~~(0x8000#64), ridxDue := c.acctctl.getLsbD 0 }

/-- A frame that FRAME records is captured again before the context goes on (R168, R330). DESIGN CHOICE (log 13): where the word at FRAMEPC - 4 cannot be
fetched the context traps with that fetch's fault, with TVAL = FRAMEPC - 4. -/
def State.resumeFrame (s : State) (sid : Nat) (frame : Word) : State :=
  if !frame.getLsbD 15 then s
  else s.asCtx sid fun s =>
    let c := { s.me with frame := frame }
    match s.wordBefore with
    | .error t => s.trapOf s.cur t (pcWord (c.framepc - 4)) c.pc
    | .ok w => match decode w with
      | some (.repf _ n st) => s.upd fun d => { d with pc := c.framepc, cap := some (c.recapture n st) }
      | _ => s.trapOf s.cur .frameIllegal (w.zeroExtend 64) c.pc

/-- The tags and rings of a cluster restored from its image (R330). -/
def State.imageTables (s : State) (cl base : Nat) : State :=
  let s1 := s.modClu cl fun k => { k with tags := (List.range 4096).foldl (fun t n => Tab.set 0 t n (w64 (s.physRead (base + Config.spadBytes + 8 * n) 8))) [] }
  let s2 := (List.range 4).foldl (fun s c => s.modCore (4 * cl + c) fun k => { k with
    rg := (List.range 16).foldl (fun t n => Tab.set {} t n (Ring.ofWord (s.physRead (base + Config.spadBytes + 0x8000 + 256 * c + 16 * n) 16))) [] }) s1
  { s2 with saved := s2.saved.map fun v => if slotCluster v.sid = cl then { v with imaged := v.imaged.or (some s.now) } else v }

/-- The restoration of a context begins: it takes its slot, PREEMPTED is credited with the time it was out (R68), or since its last rewind (R364), and
the lines to copy wait. -/
def State.beginRestore (s : State) (v : Saved) : State :=
  let cl := slotCluster v.sid
  let image := match s.imageOf v with
    | some b => (List.range (Config.spadBytes / 64)).map fun i => (64 * i, b + 64 * i)
    | none => []
  let own := (List.range (v.ctx.privSize.toNat / 64)).map fun i => (v.ctx.privBase.toNat + 64 * i, v.block + blockFixed + 64 * i)
  let acct := ((s.fromBlock v).charged .preempted (s.now - Nat.max (v.ended.getD s.now) (v.rewound.getD 0))).acct
  ((s.modClu cl fun k => { k with pool := k.pool.filter fun e => e.saved != some v.n }).modCtx v.sid fun _ => { v.ctx with act := .saved, acct := acct, lastIssue := s.now }).modSaved v.n
    fun u => { u with restoring := true, todo := image ++ own }

/-- Lines copied into the scratchpad while undo memory takes them (R358). -/
def State.copyLines (s : State) (cl : Nat) : List (Nat × Nat) → State × List (Nat × Nat)
  | [] => (s, [])
  | (off, pa) :: l => if s.undoFull cl off 64 then (s, (off, pa) :: l) else (s.spadWrite cl off 64 (s.physRead pa 64)).copyLines cl l

/-- The restoration ends: the block's registers, the inbox entries and the engines are back, and the context goes on. -/
def State.endRestore (s : State) (v : Saved) : State :=
  let ci := slotCore v.sid
  let s1 := match s.imageOf v with
    | some b => s.imageTables (slotCluster v.sid) b
    | none => s
  let s2 := s1.rename ci (savedBase + v.n) v.sid
  let s3 := s2.modCore ci fun k =>
    let owner := (s.blockWordAt v 0).getLsbD 62
    let m := if owner then { k.loadImage (s.blockVal v 0x3400 2080) with owner := some v.sid } else k
    let xs := m.xfers.filterMap fun x => if x.sid = v.sid then s.blockXfer v x else some x
    { m with
      inbox := m.inbox ++ s.blockInbox v, reserved := m.reserved - v.inbox.length - (m.xfers.length - xs.length)
      mprog := if owner then s.blockCsr v 0x1007 &&& 0x9F000000FFFFFFFF else m.mprog, xfers := xs
      seng := m.seng.map fun e => (e.1, if e.2.active && e.2.sid == v.sid then s.blockEngine v e.1 e.2 else e.2) }
  let frame := (s.fromBlock v).frame
  let s4 := (s3.modCtx v.sid fun _ => s.resumed v).modSaved v.n fun u => { u with back := some s.now, restoring := false }
  s4.resumeFrame v.sid frame

/-- CONTEXT_RESTORE (R330): a saved context whose turn has come in its cluster's pool is restored to its core and slot; its cluster's image comes
first. -/
def execContextRestore (n : Nat) (s : State) : Out :=
  match s.savedOut.find? fun v => v.n == n with
  | none => .next s
  | some v =>
    if v.restoring then
      if v.todo.isEmpty then .next (s.endRestore v)
      else
        let r := s.copyLines (slotCluster v.sid) v.todo
        .next (r.1.modSaved n fun u => { u with todo := r.2 })
    else match s.poolNext (slotCluster v.sid) with
      | some (e, _) => .next (if e.saved = some n then s.beginRestore v else s)
      | none => .next s

/-! YIELD (R227). -/

/-- Whether the pool of a core's cluster holds a task of a partition that waits for a resident slot on the core. -/
def State.yieldTo (s : State) (ci part : Nat) : Bool :=
  (s.clu (coreCluster ci)).pool.any fun e => e.part == part && (match e.core with
    | some k => k == ci
    | none => true) && s.entryEligible (coreCluster ci) e

/-- YIELD (R227). DEDUCED (log 13): one in supervisor mode takes effect as a pre-emption does, after the TRET (R328), and xd is 0 from its issue on. -/
def execYield (d : BitVec 5) (s : State) : Out :=
  finish s (
    if isVisitor s.cur then .trap .visitorFault (wordOf (.yield d))
    else s.regs [] [d] (
      let yields := !s.me.inmeet && s.yieldTo (slotCore s.cur) s.me.part
      .ok ((s.upd fun c => { c.wx d (if yields then 0 else 1) with preemptReq := c.preemptReq || yields, yielding := c.yielding || (yields && !c.preemptReq) }).adv)))

end Sys2Proof.Machine
end

