-- ==== Sys2Proof/Machine/Recall.lean ====
section
/-!
DEFINITION. What a rollback does to meetings and roll calls: recalls, and the rewinding of their parties (R364, R365).
-/

namespace Sys2Proof.Machine

/-- Whether two contexts are one task: the partition, the launch and the place in its gangs agree. -/
def Ctx.sameTask (a b : Ctx) : Bool := a.part == b.part && a.launchId == b.launchId && a.gang == b.gang

/-! Targets (R359, R366). -/

/-- The target checkpoint of a cluster for a detection now: the newest kept one 448 cycles old; in a cluster that keeps none, the boundary's. -/
def State.strikeTarget (s : State) (cl : Nat) : Nat :=
  let b := s.now - Config.detectBound
  match (s.clu cl).ckpts.find? fun k => decide (k.at_ ≤ b) with
  | some k => k.at_
  | none => b / Config.interval * Config.interval

/-- A checkpoint of a cluster that holds nothing. -/
def emptyCkpt (t : Nat) : Ckpt := { at_ := t, ctxs := [], cores := [], tags := [], waiters := [], credits := [], loads := [], atoms := [], subs := [] }

/-- A kept checkpoint of a cluster; one that holds nothing where it had no state. -/
def Cluster.ckptAt (c : Cluster) (t : Nat) : Ckpt :=
  (c.ckpts.find? fun k => k.at_ == t).getD (emptyCkpt t)

/-- The region of a located cluster (R359). -/
def regionOf (cl : Nat) : List Nat :=
  (List.range 3).flatMap fun j => (List.range 3).filterMap fun i =>
    let x := clusterX cl + i
    let y := clusterY cl + j
    if 1 ≤ x ∧ x ≤ Config.clustersPerRow ∧ 1 ≤ y ∧ y ≤ Config.clustersPerDie / Config.clustersPerRow then some (clusterAt (clusterDie cl) (x - 1) (y - 1)) else none

/-! Which meetings and roll calls are recalled. -/

/-- Whether a restored cluster's target holds a context at the meeting of a taint; DEDUCED (log 10): such a meeting is recalled, whatever its
horizon. -/
def State.targetMeets (s : State) (region : List Nat) (id : Nat) : Bool :=
  region.any fun cl => match (s.clu cl).restore with
    | some r => ((s.clu cl).ckptAt r.target).ctxs.any fun e => e.2.meet.any fun m => m.taint == id
    | none => false

/-- Whether a region touches a taint before its horizon. -/
def State.touches (s : State) (region : List Nat) (id : Nat) (t : Taint) : Bool :=
  (t.clusters.any fun c => region.contains c) && ((match t.horizon with
    | some h => decide (s.now < h)
    | none => true) || s.targetMeets region id)

/-- The parties of a list of taints. -/
def State.partiesOf (s : State) (ids : List Nat) : List Snap := ids.flatMap fun i => (Tab.get {} s.taintTab i).parties

/-- Whether a party is restored to a state before its own MEET or ROLL. -/
def State.restoredBefore (s : State) (p : Snap) : Bool :=
  match (s.clu (slotCluster p.sid)).restore with
  | some r => decide (r.target ≤ p.at_)
  | none => false

/-- The taints that a list of recalled ones draws in: later ones of a rewound party (R364). At most `n` rounds. -/
def State.cascade (s : State) : Nat → List Nat → List Nat
  | 0, ids => ids
  | n + 1, ids =>
    let ps := (s.partiesOf ids).filter fun p => !s.restoredBefore p
    let more := s.taintTab.filterMap fun t =>
      if !ids.contains t.1 && t.2.parties.any fun q => ps.any fun p => p.ctx.sameTask q.ctx && decide (p.at_ < q.at_) then some t.1 else none
    if more.isEmpty then ids else s.cascade n (ids ++ more)

/-- The taints that a detection in a region recalls. -/
def State.recalled (s : State) (region : List Nat) : List Nat :=
  s.cascade s.taintTab.length (s.taintTab.filterMap fun t => if s.touches region t.1 t.2 then some t.1 else none)

/-- The snapshot to which the task of a party rewinds: the earliest among the recalled ones. -/
def earliestSnap (l : List Snap) (p : Snap) : Snap := l.foldl (fun b q => if q.ctx.sameTask p.ctx && decide (q.at_ < b.at_) then q else b) p

/-! Rewinding a party. -/

/-- A context that goes on `d` cycles later than it would have: what it awaits comes as much later, and its waits and age count on. DEDUCED
(log 14). -/
def Ctx.later (c : Ctx) (d : Nat) : Ctx :=
  { c with
    act := match c.act with
      | .waitWord r u => .waitWord r (u.map fun t => t + d)
      | .waitTag r t e u => .waitTag r t e (u.map fun t => t + d)
      | .sleeping u => .sleeping (u.map fun t => t + d)
      | a => a
    late := c.late.map fun l => { l with at_ := l.at_ + d }
    chq := c.chq.map fun w => { w with at_ := w.at_ + d }
    vlate := c.vlate.map fun v => (v.1, v.2 + d)
    pause := c.pause.map fun p => (p.1, p.2 + d)
    lastIssue := c.lastIssue + d }

/-- Whether a request is discarded by a rollback and must be sent again: a read, or what is still being translated. -/
def Req.inFlight (r : Req) : Bool := r.kind.reads || r.stage.opens

/-- Whether a message carries something of a task that it sent or was sent at or after a call. -/
def State.msgSince (p : Snap) (b : MsgBody) : Bool :=
  let mine (sid tok : Nat) : Bool := sid == p.sid && (decide (p.tok < tok) || (!(p.ctx.act == .parked) && tok == p.tok))
  match b with
  | .luggage _ c _ _ => c.sameTask p.ctx
  | .envelope _ c _ => c.sameTask p.ctx
  | .notice _ c => mine c.sid c.tok
  | .arrival _ c => mine c.sid c.tok
  | .withdrawal _ c => mine c.sid c.tok
  | .answer sid tok _ => mine sid tok
  | .order sid tok _ _ _ _ => mine sid tok
  | .release sid tok _ _ => mine sid tok
  | _ => false

/-- Calls taken out of every post office. -/
def State.withdrawAll (s : State) (which : Call → Bool) : State :=
  { s with posts := s.posts.map fun o => (o.1, { o.2 with entries := o.2.entries.filterMap fun (e : Nat × Option DirEntry) => match e.2 with
    | none => none
    | some x => match x.body with
      | .notice c => if which c then none else some e
      | .roll q op l =>
        let l' := l.filter fun c => !which c
        if l'.isEmpty then none else some (e.1, some { x with body := .roll q op l' }) }) }

/-- Calls taken out of every post office, and what carries them there. -/
def State.dropCalls (s : State) (which : Call → Bool) : State :=
  { s.withdrawAll which with net := s.net.filter fun m => match m.body with
    | .notice _ c => !which c
    | .arrival _ c => !which c
    | .withdrawal _ c => !which c
    | _ => true }

/-- The calls made at or after the targets of the clusters that restore are withdrawn at the detection, so that nothing is paired or completed with
them meanwhile (R365). -/
def State.withdrawRestored (s : State) : State := s.dropCalls fun c => s.snaps.any fun p => p.tok == c.tok && s.restoredBefore p

/-- What a context had issued since a cycle taken back: outputs not released, reads under way, instructions in its units, held transfers. -/
def State.discardSince (s : State) (sid from_ : Nat) : State :=
  let ci := slotCore sid
  let gone (r : Req) : Bool := r.sid == sid && !r.ended && decide (from_ ≤ r.made) && (r.unreleased || r.inFlight)
  let drop := (s.core ci).xfers.filter fun x => x.sid == sid && x.held && decide (from_ ≤ x.made)
  { s.modCore ci (fun k => { k with
      seq := k.seq.filter fun e => e.sid != sid, vout := k.vout.filter fun e => e.sid != sid
      port := k.port.filter fun e => !(e.sid == sid && decide (from_ ≤ e.at_))
      xfers := k.xfers.filter fun x => !drop.contains x, reserved := k.reserved - drop.length }) with
    reqs := s.reqs.filter fun r => !gone r }

/-- The context that a party rewinds to: its snapshot, with the cycles since charged ROLLBACK (R364). -/
def Snap.rewound (p : Snap) (cur : Ctx) (now : Nat) : Ctx :=
  { (p.ctx.charged .rollback (now - p.at_)).later (now - p.at_) with
    fault := cur.fault, uints := cur.uints, preemptReq := cur.preemptReq, yielding := cur.yielding, run := none, charge := .rollback }

/-- A visitor taken back from its meeting: its open run closes, what it issued there since a cycle goes, and its requests that stand are its home
slot's (R70, R364). -/
def State.dropVisitor (s : State) (v from_ : Nat) : State :=
  let s1 := if (s.clu (slotCluster v)).restore.isSome then s else s.closeRun v
  let s2 := ((s1.dropWaiter v).discardSince v from_).moveReqs v (s.ctx v).home
  { s2 with ctxs := s2.ctxs.filter fun e => e.1 != v }

/-- What a rewind writes again of a save block: the registers and CSRs, the vectors, and the parcel in the private allocation. -/
def State.rewoundLines (s : State) (w : Saved) (p : Snap) : List (Nat × Nat) :=
  let at_ (l : Nat × Nat) : Nat := l.1 - w.block
  (((s.modCtx w.sid fun _ => w.ctx).blockLines w).filter fun l => decide (at_ l < 0x1040 ∨ (0x1400 ≤ at_ l ∧ at_ l < 0x3400))) ++
    valueLines (w.block + blockFixed + (p.off - w.ctx.privBase.toNat)) p.parcel p.bytes

/-- A party that is being saved, is saved out or is being restored rewinds: its block is written again, and a restoration under way begins anew;
DEDUCED (log 14). Its PREEMPTED cycles count from the rewind on (R67, R364). -/
def State.rewindSaved (s : State) (v : Saved) (p : Snap) : State :=
  let c := p.rewound v.ctx s.now
  let w : Saved := { v with
    ctx := { c with epc := c.pc, pmode := false, pui := c.ui, preemptReq := false, yielding := false }
    restoring := false, todo := if v.ended.isNone then v.todo else [], rewound := some s.now }
  let s1 := (s.discardSince (savedBase + v.n) p.at_).modSaved v.n fun _ => w
  match v.ended with
  | none => (s1.modSaved v.n fun u => { u with todo := u.todo ++ s1.rewoundLines w p }).modCtx v.sid fun o =>
      { w.ctx with act := .saved, preemptReq := true, run := o.run, charge := o.charge }
  | some t =>
    let s2 := if v.restoring then { s1.closeRun v.sid with ctxs := Tab.set {} (s1.closeRun v.sid).ctxs v.sid {} } else s1
    s2.pushLines w (s2.rewoundLines w p ++ w.lastLines t)

/-- A party rewinds to its MEET or ROLL (R364, R365): what it did since goes, its open run closes (R70), and its parcel is as it was. -/
def State.rewind (s : State) (p : Snap) : State :=
  let away := (s.ctxs.filter fun e => isVisitor e.1 && e.2.sameTask p.ctx).map Prod.fst
  let s0 := away.foldl (fun s v => s.dropVisitor v p.at_) s
  let s1 : State := { s0 with net := s0.net.filter fun m => !State.msgSince p m.body }
  let s2 := s1.withdrawAll fun c => c.sid == p.sid && (decide (p.tok < c.tok) || (!(p.ctx.act == .parked) && c.tok == p.tok))
  match s2.savedOut.find? fun v => v.ctx.sameTask p.ctx with
  | some v => s2.rewindSaved v p
  | none =>
    if !(s2.ctx p.sid).sameTask p.ctx then s2
    else
      let s3 := ((s2.closeRun p.sid).discardSince p.sid p.at_).modCtx p.sid fun c => p.rewound c s.now
      if p.bytes = 0 then s3 else s3.spadWrite (slotCluster p.sid) p.off p.bytes p.parcel

/-- A party of a recalled meeting or roll call: nothing for one restored to a state before its call; one in a cluster that restores rewinds when
the restore completes, any other now. -/
def State.rewindParty (s : State) (p : Snap) : State :=
  let cl := slotCluster p.sid
  match (s.clu cl).restore with
  | some r =>
    if r.target ≤ p.at_ then s
    else s.modClu cl fun c => { c with restore := some { r with rewinds := if r.rewinds.contains p then r.rewinds else r.rewinds ++ [p] } }
  | none => s.rewind p

/-! Recalling (R364, R365). -/

/-- The call of an arrival record, and whether its party keeps it standing: it rewinds to this roll call, and not further. -/
def State.stillArrived (s : State) (ps : List Snap) (c : Call) : Bool :=
  match ps.find? fun p => p.tok == c.tok with
  | some p => !s.restoredBefore p && (earliestSnap ps p).tok == p.tok
  | none => false

/-- The roll call of an entry re-created from the arrivals that stand; with its quorum still there it completes again. DEDUCED (log 14): where its
probes find no entry, its parties are answered FULL, as an arrival is. -/
def State.recreateRoll (s : State) (dir : Nat) (k : RollKept) (ps : List Snap) : State :=
  match k.entry.body with
  | .notice _ => s
  | .roll q op l =>
    let l' := l.filter (s.stillArrived ps)
    match l' with
    | [] => s
    | c :: _ =>
      let s1 : State := { s with snaps := s.snaps ++ ps.filter fun p => l'.any fun c => c.tok == p.tok }
      match s1.probe dir c with
      | none => l'.foldl (fun s c => s.answerCall dir c 2) s1
      | some (e, old) =>
        let more := match old.map DirEntry.body with
          | some (.roll _ _ m) => m
          | _ => []
        let x : DirEntry := { k.entry with body := .roll q op (l' ++ more) }
        if q ≤ (l' ++ more).length then s1.rollDone dir e x op (l' ++ more) else s1.setEntry dir e (some x)

/-- What is under way for a taint's meeting or roll call taken back: pair records, orders, releases, envelopes, visitors, their slots, with what they
issued since the snapshots of their MEETs. -/
def State.clearTaint (s : State) (id : Nat) (t : Taint) : State :=
  let ofIt (b : MsgBody) : Bool := match b with
    | .order _ _ _ _ _ i => i == id
    | .release _ _ _ i => i == id
    | .envelope _ c _ => c.meet.any fun m => m.taint == id
    | .luggage _ c _ _ => c.meet.any fun m => m.taint == id
    | _ => false
  let sits (e : Nat × Ctx) : Bool := isVisitor e.1 && e.2.meet.any fun m => m.taint == id
  let inUse := (s.ctxs.any sits) || s.net.any fun m => match m.body with
    | .order _ _ _ v _ i => i == id && v.isSome
    | .envelope _ c _ => c.meet.any fun m => m.taint == id
    | _ => false
  let from_ (c : Ctx) : Nat := ((t.parties.find? fun p => p.ctx.sameTask c).map Snap.at_).getD 0
  let s0 := (s.ctxs.filter sits).foldl (fun s e => s.dropVisitor e.1 (from_ e.2)) s
  let s0 := s0.net.foldl (fun s m => match m.body with
    | .envelope v c _ => if ofIt m.body then s.moveReqs v c.home else s
    | _ => s) s0
  let s1 : State := { s0 with
    net := s0.net.filter fun m => !ofIt m.body
    posts := s0.posts.map fun o => (o.1, { o.2 with pairs := o.2.pairs.filter fun p => p.taint ≠ id }) }
  match inUse, t.clusters.getLast? with
  | true, some cl => s1.modClu cl fun c => { c with vres := [] }
  | _, _ => s1

/-- MEET_RECALL (Table 25-3): a record for the partition, with the key. -/
def State.recallRecord (s : State) (t : Taint) : State :=
  match t.parties with
  | [] => s
  | p :: _ =>
    let cl := slotCluster p.sid
    s.recordPart (clusterDie cl) p.ctx.part { cls := 1, engine := 8, code := codeMeetRecall, akind := 3, addr := clusterAddr cl, time := s.now, detail := t.key.toNat }

/-- Every meeting and roll call that a detection in a region recalls (R364, R365). -/
def State.recallAll (s : State) (region : List Nat) : State :=
  let ids := s.recalled region
  let ps := s.partiesOf ids
  let firsts := (ps.map (earliestSnap ps)).eraseDups
  let s1 := ids.foldl (fun s i => (s.recallRecord (Tab.get {} s.taintTab i)).clearTaint i (Tab.get {} s.taintTab i)) s
  let s2 := firsts.foldl State.rewindParty s1
  let kept := s2.posts.flatMap fun o => (o.2.kept.filter fun k => ids.contains k.taint).map fun k => (o.1, k)
  let s3 : State := { s2 with
    taintTab := s2.taintTab.filter fun t => !ids.contains t.1
    posts := s2.posts.map fun o => (o.1, { o.2 with kept := o.2.kept.filter fun k => !ids.contains k.taint }) }
  kept.foldl (fun s k => s.recreateRoll k.1 k.2 ps) s3

end Sys2Proof.Machine
end

