-- ==== Sys2Proof/Machine/Recovery.lean ====
section
/-!
DEFINITION. Checkpoints, undo memory, strike detection, rollback, the matrix self-test and escalation (R356 to R369, R69, R70, R74).
-/

namespace Sys2Proof.Machine

/-! Checkpoints (R357, Table 24-1). -/

/-- The clusters that hold any state. -/
def State.activeClusters (s : State) : List Nat :=
  (s.clus.map Prod.fst ++ s.cores.map (fun k => coreCluster k.1) ++ s.ctxs.map fun e => slotCluster e.1).eraseDups

/-- The register of an atomic. -/
def Req.atomDst (r : Req) : Option (BitVec 5) :=
  match r.kind with
  | .amo _ d => some d
  | .cas d => some d
  | _ => none

/-- A checkpoint of a cluster. -/
def State.ckptOf (s : State) (cl : Nat) : Ckpt :=
  let k := s.clu cl
  let mine := s.reqs.filter fun r => slotCluster r.src == cl && !r.ended
  { at_ := s.now
    ctxs := s.ctxs.filter fun e => slotCluster e.1 == cl && e.2.act != .free
    cores := s.cores.filter fun c => coreCluster c.1 == cl
    tags := k.tags, waiters := k.waiters
    credits := s.credits.filter fun c => coreCluster c.dst == cl
    loads := mine.filter Req.inFlight
    atoms := (mine.filter fun r => !r.inFlight).filterMap fun r => r.atomDst.map fun d => (r.id, r.sid, d)
    subs := s.subs.flatMap fun b => (b.receivers.filter fun r => coreCluster r.ci == cl).map fun r => (b.n, r.ci, r.begun, r.got)
    snaps := s.snaps.filter fun p => slotCluster p.sid == cl }

/-- The checkpoints a cluster goes on keeping with a new one: the three newest, and the cover checkpoint (R357, R366). -/
def Cluster.keepCkpts (c : Cluster) (k : Ckpt) : List Ckpt :=
  let l := k :: c.ckpts
  (l.take 3) ++ (l.drop 3).filter fun x => c.arr.cover == some x.at_

/-- The oldest cycle that a rollback may return to. -/
def State.oldestTarget (s : State) : Nat :=
  s.clus.foldl (fun m k => (k.2.ckpts.map Ckpt.at_).foldl Nat.min m) (s.now - 1024)

/-- What is kept only for rollbacks goes once none can need it, and the arrival records of a roll call with its taint (R365). -/
def State.purge (s : State) : State :=
  let t := s.oldestTarget
  let taints := s.taintTab.filter fun x => x.2.horizon.all fun h => decide (s.now < h ∨ t < h)
  { s with
    answers := s.answers.filter fun a => decide (t ≤ a.2.2)
    faultLog := s.faultLog.filter fun f => decide (t ≤ f.2.1)
    entryLog := s.entryLog.filter fun e => decide (t ≤ e.2.1)
    subs := s.subs.filter fun b => b.ended.all fun c => decide (t ≤ c)
    drains := s.drains.filter fun d => d.ended.all fun c => decide (t ≤ c)
    saved := s.saved.filter fun v => v.back.all fun c => decide (t ≤ c)
    posts := s.posts.map fun o => (o.1, { o.2 with kept := o.2.kept.filter fun k => taints.any fun x => x.1 == k.taint })
    taintTab := taints }

/-- CHECKPOINT (R357): at each multiple of 256 every cluster that is not restoring records its state; open runs close there (R70). -/
def execCheckpoint (s : State) : Out :=
  let take (cl : Nat) : Bool := (s.clu cl).restore.isNone && !(s.clu cl).ckpts.any fun k => k.at_ == s.now
  let cls := s.activeClusters.filter take
  if s.now % Config.interval ≠ 0 || cls.isEmpty then .next s
  else
    let s1 := (s.ctxs.filter fun e => cls.contains (slotCluster e.1) && e.2.run.isSome).foldl (fun s e => s.closeRunAt e.1 (s.now - 1)) s
    .next (cls.foldl (fun s cl => s.modClu cl fun c => { c with ckpts := c.keepCkpts (s1.ckptOf cl) }) s1).purge

/-- Whether the undo entries of an interval may still be needed by a target (R358). -/
def Cluster.undoKept (c : Cluster) (now : Nat) (u : UndoLine) : Bool :=
  let from_ := u.interval * Config.interval
  decide (now < from_ + Config.releaseDelay) || (c.restore.any fun r => decide (r.target ≤ from_)) || c.arr.cover.any fun k => decide (k ≤ from_)

/-- UNDO_FREE (R358): undo entries to which no target can lead any more are freed. -/
def execUndoFree (cl : Nat) (s : State) : Out := .next (s.modClu cl fun c => { c with undo := c.undo.filter (c.undoKept s.now) })

/-! Detection (R356, R359, R361, R366, R368). -/

/-- A core without the transfers and buffer-free signals that it holds back and made at or after a cycle. -/
def CoreSt.dropHeld (k : CoreSt) (target : Nat) : CoreSt :=
  let gone := k.xfers.filter fun x => x.held && decide (target ≤ x.made)
  { k with
    xfers := k.xfers.filter fun x => !gone.contains x, reserved := k.reserved - gone.length
    frees := k.frees.filter fun f => decide (f.2.2.1 < target) }

/-- Outputs of a cluster made at or after its target, removed unreleased (R361): requests, transfers and buffer-free signals, held-back account
records. -/
def State.dropMade (s : State) (cl target : Nat) : State :=
  { s with
    cores := s.cores.map fun k => (k.1, if coreCluster k.1 = cl then k.2.dropHeld target else k.2)
    reqs := s.reqs.filter fun r => !(slotCluster r.src == cl && !r.inFlight && r.unreleased && decide (target ≤ r.made))
    acctq := s.acctq.filter fun a => !(coreCluster a.ci == cl && decide (target ≤ a.made)) }

/-- Whether a cluster takes part in a rollback that was detected in a cycle: not one that R368 fenced, nor one that its partition's reset had frozen by
then (R381). -/
def State.rollsBackFrom (s : State) (cl t : Nat) : Bool :=
  !(s.clu cl).fenced && (s.partOfCluster cl).all fun p => (s.part p).reset.all fun r => r.t1.all fun u => decide (t < u)

/-- Whether a cluster takes part in a rollback that is detected now. -/
def State.rollsBack (s : State) (cl : Nat) : Bool := s.rollsBackFrom cl s.now

/-- A cluster's restore begins, or begins again to its own target (R359). -/
def State.startRestore (s : State) (located target : Nat) (fails : BitVec 8) (cl : Nat) : State :=
  if !s.rollsBack cl then s
  else
    let r : Restore := match (s.clu cl).restore with
      | some r => { r with at_ := s.now, located := located, fails := if cl = located then r.fails ||| fails else r.fails }
      | none => { target := if cl = located then target else s.strikeTarget cl, at_ := s.now, located := located
                  fails := if cl = located then fails else 0, rewinds := [] }
    (s.modClu cl fun c => { c with restore := some r }).dropMade cl r.target

/-- The records of a rollback: one for each partition in the region, which names its own cluster nearest the located one (R374). -/
def State.regionRecords (s : State) (located : Nat) (region : List Nat) (cls code detail : Nat) : State :=
  let far (cl : Nat) : Nat := Nat.max ((clusterX cl - clusterX located) + (clusterX located - clusterX cl)) ((clusterY cl - clusterY located) + (clusterY located - clusterY cl))
  let ps := (List.range 32).filter fun p => region.any fun cl => (s.part p).holds cl
  if ps.isEmpty then
    s.recordInfra (clusterDie located) { cls := cls, engine := 15, code := code, akind := 3, addr := clusterAddr located, time := s.now, detail := detail }
  else ps.foldl (fun s p =>
    let own := region.filter fun cl => (s.part p).holds cl
    let cl := own.foldl (fun b c => if far c < far b then c else b) (own.headD located)
    s.recordPart (clusterDie located) p { cls := cls, engine := 15, code := code, akind := 3, addr := clusterAddr cl, time := s.now, detail := detail }) s

/-- The ninth rollback located at a cluster within 1 ms: its region is fenced instead (R368). -/
def State.escalate (s : State) (located target : Nat) : State :=
  let region := regionOf located
  let s1 := region.foldl (fun s cl => (s.modClu cl fun c => { c with fenced := true, restore := none }).dropMade cl
    (if cl = located then target else match (s.clu cl).restore with
      | some r => r.target
      | none => s.strikeTarget cl)) s
  let s2 : State := { s1 with ctxs := s1.ctxs.map fun e => (e.1, if region.contains (slotCluster e.1) && e.2.act != .free then { e.2 with act := .frozen } else e.2) }
  s2.regionRecords located region 3 codeEscalated 0

/-- A detection at a cluster, with its target and the sub-arrays that fail alone: counted, then performed, or escalated. In a region that is fenced whole
there is no rollback to be located (R368). -/
def State.detect (s : State) (cl target : Nat) (fails : BitVec 8) : State :=
  if (regionOf cl).all fun c => (s.clu c).fenced then s else
  let times := ((s.clu cl).rbTimes.filter fun t => decide (s.now < t + rollbackWindow)) ++ [s.now]
  let s1 := s.modClu cl fun c => { c with rbTimes := times, rbTotal := c.rbTotal + 1 }
  if 9 ≤ times.length then s1.escalate cl target
  else
    let region := regionOf cl
    let s2 := region.foldl (fun s c => s.startRestore cl target fails c) s1
    (s2.recallAll (region.filter s2.rollsBack)).withdrawRestored.regionRecords cl region 1 codeStrikeRollback target

/-- STRIKE_DETECTION (R359, R381): a strike report reaches a cluster's recovery logic; the clusters that take part in no rollback are left out of the
region's. -/
def execStrikeDetection (cl : Nat) (s : State) : Out :=
  .next (if cl < 2 * Config.clustersPerDie then s.detect cl (s.strikeTarget cl) 0 else s)

/-! The restore of a cluster (R360). -/

/-- A request put into a list by its number. -/
def insertReq (l : List Req) (r : Req) : List Req :=
  match l with
  | [] => [r]
  | q :: l => if r.id < q.id then r :: q :: l else q :: insertReq l r

/-- A request in flight at the checkpoint, to be sent again unless its answer was already on its way. -/
def Req.again (r : Req) : Req :=
  if r.stage = .performed then r else { r with stage := .translating, data := if r.kind.reads then 0 else r.data }

/-- The requests of a cluster after a restore: outputs that stand, and the checkpoint's reads sent again. A device register's read is made as
it was. -/
def State.restoreReqs (s : State) (cl : Nat) (k : Ckpt) : State :=
  let stay := s.reqs.filter fun r => !(slotCluster r.src == cl && !r.ended && (r.inFlight || (decide (k.at_ ≤ r.made) && r.unreleased)))
  { s with reqs := (k.loads.map Req.again).foldl insertReq stay }

/-- Undo memory's lines of the intervals from the target on written back, the newest first (R358, R360). -/
def Cluster.unwrite (c : Cluster) (target : Nat) : Cluster :=
  let later (u : UndoLine) : Bool := decide (target ≤ u.interval * Config.interval)
  { c with
    spad := ((c.undo.filter later).reverse).foldl (fun m u => Memory.writeN m (16 * u.line) u.old.toNat 16) c.spad
    undo := c.undo.filter fun u => !later u }

/-- The matrix array of a cluster after a restore: the step under way is discarded; work from the target on is uncovered no more. -/
def MatArray.restored (a : MatArray) (target : Nat) : MatArray :=
  { a with job := none, cover := a.cover.filter fun c => decide (c < target), work := if a.cover.all fun c => decide (target ≤ c) then 0 else a.work, due := a.due }

/-- The contexts and cores that a checkpoint holds, as a state. -/
def Ckpt.view (k : Ckpt) (s : State) : State := { s with ctxs := k.ctxs, cores := k.cores }

/-- A core as a checkpoint `c` has it: what is timed goes on as many cycles later. Buffer-free signals that have left, and requests that have been
released, do not come back; the instruction cache, the round-robin pointer and the copies of RIDX are no state of a checkpoint (Table 24-1), and
a stall lasts while its ring lacks space (R73). -/
def State.restoreCore (s : State) (c : Ckpt) (ci : Nat) (k : CoreSt) : CoreSt :=
  let now := s.core ci
  let d := s.now - c.at_
  let went (x : Xfer) : Bool := (s.subOf ci x.xid).isSome || (s.drainOf ci x.xid).isSome || (now.xfers.any fun y => y.xid == x.xid && y.made == x.made && !y.held)
  { k with
    frees := k.frees.filter fun f => now.frees.contains f
    xfers := k.xfers.map fun x => { x with held := x.held && !went x }
    seng := k.seng.map fun e => (e.1, { e.2 with writes := e.2.writes.filter fun n => s.reqs.any fun r => r.id == n })
    bindAt := k.bindAt + d, accAt := k.accAt.map fun t => t + d, accGap := k.accGap.map fun t => t + d, divFree := k.divFree + d
    icache := now.icache, rr := now.rr, ridxs := now.ridxs, stall := now.stall.bind fun _ => (c.view s).oldestOn ci }

/-- The CONS bits of tags whose buffer-free signals have left since the checkpoint cleared (R193, R208). -/
def State.freedTags (s : State) (k : Ckpt) : Tab Word :=
  let gone := k.cores.flatMap fun c => (c.2.frees.filter fun f => !(s.core c.1).frees.contains f).map fun f => f.2.1
  gone.foldl (fun t n =>
    let w := Tab.get 0 t n
    Tab.set 0 t n ((tagRules (tagWaitBits w) (tagOvr w) (tagValid w) false (tagFull w) (tagExp w) (tagBal w)))) k.tags

/-- Tiles of subscriptions sent again to the receivers of a cluster, from their restored TAIL on (R360). -/
def State.resend (s : State) (cl : Nat) (k : Ckpt) : State :=
  let s1 : State := { s with net := s.net.filter fun m => match m.body with
    | .tile _ ci _ => coreCluster ci != cl
    | _ => true }
  s1.subs.foldl (fun s b => b.receivers.foldl (fun s r =>
    if coreCluster r.ci ≠ cl then s
    else
      let at_ := ((k.subs.find? fun x => x.1 == b.n && x.2.1 == r.ci).map fun x => x.2.2).getD (0, 0)
      let back := b.ended.any fun t => decide (k.at_ ≤ t)
      let s2 := (s.modSub b.n fun c => { c with
          receivers := c.receivers.map fun q => if q.ci = r.ci then { q with begun := at_.1, got := at_.2 } else q
          ended := if back && coreCluster b.ci == cl then none else c.ended, active := true }).modRing r.ci b.ring fun g => { g with mode := if b.ended.isNone || back then 1 else g.mode }
      let w := walkBlk b.block
      (List.range (b.sent - at_.1)).foldl (fun s i =>
        s.send s.now (.tile b.n r.ci (s.walkRead (coreCluster b.ci) b.part b.pid b.mode w.e (w.elems (at_.1 + i))))) s2) s) s1

/-- The drains of a cluster's cores go on from their restored progress. -/
def State.redrain (s : State) (cl : Nat) (k : Ckpt) : State :=
  { s with drains := s.drains.map fun d =>
    if coreCluster d.ci = cl then match (s.xfer d.ci d.xid) with
      | some x => { d with prog := x.prog, taken := false, copies := d.copies.filter (fun c => decide (c.2.1 < k.at_)), active := true, ended := if d.ended.any fun t => decide (k.at_ ≤ t) then none else d.ended }
      | none => d
    else d }

/-- A task: partition, launch, gang and member. -/
abbrev TaskId := Nat × Nat × Nat × Nat

/-- The task of a context. -/
def Ctx.task (c : Ctx) : TaskId := (c.part, c.launchId.toNat, bitsOf c.gang.toNat 31 0, bitsOf c.gang.toNat 39 32)

/-- The pool entry of a task placed after the target: it returns unplaced (R360). DESIGN CHOICE (log 14): it stands in front of its cluster's pool, which
may then hold more than its 64 entries (R250); nothing enters until it holds fewer. -/
def State.unplace (s : State) (cl : Nat) (k : TaskId) : State :=
  match s.launch k.1 k.2.1 with
  | none => s
  | some l => match l.tmpl with
    | none => s
    | some t =>
      let cores := s.gangCores k.1 k.2.2.1 t.size
      let es := (gangEntries l t k.2.2.1 fun m => if t.steal then none else some (cores.getD m 0)).filter fun e => e.member == k.2.2.2
      s.modClu cl fun c => { c with pool := es ++ c.pool }

/-- Whether a task of a cluster stood at a checkpoint, on its core or saved out. -/
def State.stoodAt (s : State) (cl : Nat) (k : Ckpt) (t : TaskId) : Bool :=
  (k.ctxs.any fun e => !isVisitor e.1 && e.2.task == t) ||
    s.saved.any fun v => slotCluster v.sid == cl && v.ctx.task == t && v.ended.any fun u => decide (u < k.at_)

/-- The tasks of a cluster that stand now, were saved out since a checkpoint or have ended since. -/
def State.tasksSince (s : State) (cl : Nat) (k : Ckpt) : List TaskId :=
  (((s.ctxs.filter fun e => slotCluster e.1 == cl && !isVisitor e.1 && e.2.act != .free).map fun e => e.2.task) ++
    ((s.saved.filter fun v => slotCluster v.sid == cl && decide (k.at_ ≤ v.at_)).map fun v => v.ctx.task) ++
    s.launches.flatMap fun l => (l.ends.filter fun e => e.cl == cl && decide (k.at_ ≤ e.at_)).map fun e => (l.part, l.lid, e.gang, e.member)).eraseDups

/-- A save that had begun before the target begins again: the context is back in its slot, to be saved (R360). -/
def State.unsave (s : State) (v : Saved) (was : Ctx) : State :=
  let ci := slotCore v.sid
  let s1 : State := { s with
    reqs := s.reqs.filter fun r => !(r.sid == savedBase + v.n && (match r.kind with
      | .save => true
      | _ => false))
    saved := s.saved.filter fun u => u.n ≠ v.n }
  let s2 := (s1.rename ci (savedBase + v.n) v.sid).modCore ci fun k => { k with
    inbox := v.inbox ++ k.inbox, reserved := k.reserved - v.inbox.length
    xfers := k.xfers.map fun x => if x.sid = v.sid then { x with stopped := false } else x }
  s2.modCtx v.sid fun _ => { v.ctx with
    act := v.ctx.act, preemptReq := true, yielding := v.yielded, acct := was.acct, mret := true
    park := v.ctx.park.map fun q => { q with deadline := q.deadline.map fun t => s.now + t } }

/-- The tasks placed since the target return to the ready pool, wherever they have got to, and the contexts restored since are saved out again
(R360). -/
def State.takeBack (s : State) (cl : Nat) (k : Ckpt) : State :=
  let s1 := ((s.tasksSince cl k).filter fun t => !s.stoodAt cl k t).foldl (fun s t => s.unplace cl t) s
  let out := s1.saved.filter fun v => slotCluster v.sid == cl && (v.ended.any fun t => decide (t < k.at_)) && (v.restoring || v.back.any fun t => decide (k.at_ ≤ t))
  out.foldl (fun s v => ((s.moveReqs v.sid (savedBase + v.n)).modSaved v.n fun u => { u with
    restoring := false, back := none, todo := [], imaged := u.imaged.filter fun t => decide (t < k.at_) }).poolSaved v) s1

/-- A context as its checkpoint has it: the counters gain ROLLBACK (R69), a pre-emption asked for since stays, a fault met since by an output
that had left stands again (R360). -/
def State.restoredCtx (s : State) (sid target : Nat) (c : Ctx) : Ctx :=
  let now := s.ctx sid
  let fault := (s.faultLog.find? fun f => f.1 == sid && decide (target ≤ f.2.1)).map fun f => f.2.2
  { (c.charged .rollback (s.now - target)).later (s.now - target) with
    run := none, charge := .rollback, fault := fault.getD c.fault
    preemptReq := c.preemptReq || (now.sameTask c && now.preemptReq && !now.yielding) ||
      s.saved.any fun v => v.sid == sid && v.ctx.sameTask c && !v.yielded && decide (target ≤ v.at_) }

/-- Whether a context was saved out at a checkpoint, its slot held for its restoration at most. -/
def State.outAt (s : State) (k : Ckpt) (sid : Nat) (c : Ctx) : Bool :=
  s.saved.any fun v => v.sid == sid && v.ctx.sameTask c && (v.ended.any fun t => decide (t < k.at_)) && !v.back.any fun t => decide (t < k.at_)

/-- The slots of a cluster set to the checkpoint: residents as they were, visitor slots empty, since their meetings are recalled. -/
def State.restoreCtxs (s : State) (cl : Nat) (k : Ckpt) : State :=
  let cs := (k.ctxs.filter fun e => !isVisitor e.1 && !s.outAt k e.1 e.2).map fun e => (e.1, s.restoredCtx e.1 k.at_ e.2)
  let s1 : State := { s with ctxs := cs.foldl (fun t e => Tab.set {} t e.1 e.2) (s.ctxs.filter fun e => slotCluster e.1 != cl) }
  let s2 := cs.foldl (fun s e => if (s.ctx e.1).fault.valid then s.strand e.1 else s) s1
  let late := s2.saved.filter fun v => slotCluster v.sid == cl && decide (k.at_ ≤ v.at_)
  let s3 : State := late.foldl (fun s v =>
    let t : State := { s with saved := s.saved.filter fun u => u.n ≠ v.n, reqs := s.reqs.map fun r => if r.sid = savedBase + v.n then { r with sid := v.sid } else r }
    t.modClu cl fun c => { c with pool := c.pool.filter fun e => e.saved != some v.n }) s2
  let busy := s3.saved.filter fun v => slotCluster v.sid == cl && v.ended.all fun t => decide (k.at_ ≤ t)
  busy.foldl (fun s v => (s.modClu cl fun c => { c with pool := c.pool.filter fun e => e.saved != some v.n }).unsave v (s.ctx v.sid)) s3

/-- The answers of atomics that had been sent before the target, and have come since, given again; launch completions posted since, posted
again (R360). -/
def State.answerAgain (s : State) (cl : Nat) (k : Ckpt) : State :=
  let s1 := k.atoms.foldl (fun s a => match s.answers.find? fun x => x.1 == a.1 with
    | some x => if (s.req a.1).any fun r => r.atomDst.isSome then s else s.deliverAt a.2.1 0 s.now (.x a.2.2) x.2.1
    | none => s) s
  (s1.entryLog.filter fun e => coreCluster e.1 == cl && decide (k.at_ ≤ e.2.1)).foldl (fun s e => s.postEntry e.1 e.2.2.tag e.2.2.w0 e.2.2.w1) s1

/-- The ROLLBACK runs of a core: one for each interval replaced, with the context and PC that R66 names at the target (R74). -/
def State.rollbackRuns (s : State) (k : Ckpt) (ci : Nat) : State :=
  match k.views.find? fun v => v.1 == ci with
  | none => s
  | some (_, sid, pc) =>
    let c := (k.view s).ctx sid
    if !c.acctOn then s
    else
      let recs := (List.range (ceilDiv (s.now - k.at_) Config.interval)).map fun i =>
        let start := k.at_ + i * Config.interval
        let w := runWords sid .rollback pc start (Nat.min Config.interval (s.now - start))
        ({ ci := ci, base := c.acctbase.toNat, log2 := bitsOf c.acctctl.toNat 12 8, pid := c.pid, part := c.part, w0 := w.1, w1 := w.2, made := s.now } : AcctRec)
      recs.foldl State.addRecord s

/-- The tokens of calls that stand: those of parked parties and of parties saved out. -/
def State.parkedToks (s : State) : List Nat :=
  (s.ctxs.filterMap fun e => e.2.park.map Park.tok) ++ s.savedOut.filterMap fun v => v.ctx.park.map Park.tok

/-- Whether a call is still on its way or standing somewhere, or has been answered, ordered or released. -/
def State.callSomewhere (s : State) (tok : Nat) : Bool :=
  (s.posts.any fun o => (o.2.pairs.any fun p => p.a.tok == tok || p.b.tok == tok) || o.2.entries.any fun (e : Nat × Option DirEntry) => match e.2.map DirEntry.body with
    | some (.notice c) => c.tok == tok
    | some (.roll _ _ l) => l.any fun c => c.tok == tok
    | none => false) ||
  s.net.any fun m => match m.body with
    | .notice _ c => c.tok == tok
    | .arrival _ c => c.tok == tok
    | .answer _ t _ => t == tok
    | .order _ t _ _ _ _ => t == tok
    | .release _ t _ _ => t == tok
    | _ => false

/-- Whether the snapshot of a call is kept, for its party or with its meeting's or roll call's taint. -/
def State.snapKept (s : State) (tok : Nat) : Bool := (s.snaps.any fun p => p.tok == tok) || s.taintTab.any fun t => t.2.parties.any fun p => p.tok == tok

/-- Calls of a restored cluster's contexts: those made in the discarded cycles are withdrawn, and the call of a restored party that was answered
in them is made again, its snapshot as the checkpoint has it (Table 24-1); DEDUCED (log 14). -/
def State.settleCalls (s : State) (cl : Nat) (k : Ckpt) : State :=
  let toks := s.parkedToks
  let stale (c : Call) : Bool := slotCluster c.sid == cl && !toks.contains c.tok
  let s1 := s.dropCalls stale
  let s2 : State := { s1 with
    snaps := (s1.snaps.filter fun p => !(slotCluster p.sid == cl && !toks.contains p.tok)) ++ k.snaps.filter fun p => toks.contains p.tok && !s1.snapKept p.tok }
  (s2.ctxs.filter fun e => slotCluster e.1 == cl && e.2.act == .parked && e.2.meet.isNone).foldl (fun s e => match e.2.park with
    | none => s
    | some p =>
      if s.callSomewhere p.tok then s
      else
        let c : Call := { sid := e.1, tok := p.tok, part := e.2.part, pid := e.2.pid, key := p.key, q := p.quorum, op := p.op, word := p.word, zero := e.2.meetto == 0 }
        let dir := s.dirOf c
        s.send (s.now + noticeTime cl dir) (if p.roll then .arrival dir c else .notice dir c)) s2

/-- A sub-array that fails alone is fenced (R367): for a first failure until its retest, else until the next reset. -/
def State.fenceSub (s : State) (cl n : Nat) : State :=
  let again := (s.clu cl).arr.failed.getLsbD n
  let s1 := s.modArr cl fun a => { a with
    failed := a.failed ||| BitVec.ofNat 8 (2 ^ n), fences := (a.fences.filter fun f => f.n ≠ n) ++ [{ n := n, hard := again, since := s.now }] }
  let r : ErrRec := { cls := 1, engine := 2, code := if again then codeSubarrayHard else codeSubarrayFenced, akind := 3, addr := clusterAddr cl, time := s.now, detail := n }
  match s.partOfCluster cl with
  | some p => s1.recordPart (clusterDie cl) p r
  | none => s1.recordInfra (clusterDie cl) r

/-- One cluster restored to its target (R360). -/
def State.restoreCluster (s : State) (cl : Nat) (r : Restore) : State :=
  let k := (s.clu cl).ckptAt r.target
  let s1 := (s.takeBack cl k).restoreReqs cl k
  let cores : Tab CoreSt := k.cores.foldl (fun t c => Tab.set {} t c.1 (s1.restoreCore k c.1 c.2)) (s1.cores.filter fun c => coreCluster c.1 != cl)
  let tags := s1.freedTags k
  let s2 : State := { s1 with cores := cores, credits := (s1.credits.filter fun c => coreCluster c.dst != cl) ++ k.credits }
  let s3 := s2.modClu cl fun c =>
    let d : Cluster := c.unwrite r.target
    { d with tags := tags, waiters := k.waiters, restore := none, eleft := [], vcur := none, ckpts := d.ckpts.filter (fun x => decide (x.at_ ≤ r.target)), arr := d.arr.restored r.target }
  let s4 := (((s3.restoreCtxs cl k).resend cl k).redrain cl k).answerAgain cl k
  let s5 : State := { s4 with launches := s4.launches.map fun l => { l with ends := l.ends.filter fun e => !(e.cl == cl && decide (r.target ≤ e.at_)) } }
  let s6 := ((List.range 4).map fun c => 4 * cl + c).foldl (fun s ci => s.rollbackRuns k ci) s5
  let s7 := (r.rewinds.filter fun p => (earliestSnap (r.rewinds.filter fun q => q.ctx.sameTask p.ctx) p) == p).foldl State.rewind s6
  ((List.range 8).filter fun n => r.fails.getLsbD n).foldl (fun s n => s.fenceSub cl n) (s7.settleCalls cl k)

/-- ROLLBACK_RESTORE_COMPLETE (R360): the restore of a cluster's region completes; every cluster that the same detection restores resumes. A cluster
that its partition's reset has frozen meanwhile is restored too, and stays frozen (R381). -/
def execRollbackRestoreComplete (cl : Nat) (s : State) : Out :=
  match (s.clu cl).restore with
  | none => .next s
  | some r =>
    let group := s.clus.filterMap fun k => match k.2.restore with
      | some q => if q.at_ = r.at_ ∧ q.located = r.located then some (k.1, q) else none
      | none => none
    let t := group.foldl (fun s g => if s.rollsBackFrom g.1 g.2.at_ then s.restoreCluster g.1 g.2 else s.modClu g.1 fun c => { c with restore := none }) s
    .next ((((group.filterMap fun g => t.partOfCluster g.1).eraseDups).filter t.frozenPart).foldl State.freezePart t)

/-! The matrix self-test (R366, R367). -/

/-- SELF_TEST_PRODUCT (R366): the product ends. A passing one drops the cover checkpoint; a mismatch is a detection, with the cover checkpoint as
its target while work is uncovered. An MTEST that ran it is complete. -/
def execSelfTestProduct (cl : Nat) (mismatch : Bool) (fails : BitVec 8) (s : State) : Out :=
  match (s.clu cl).arr.job with
  | some (.test who) =>
    if s.now < (s.clu cl).arr.upto then .next s
    else if mismatch then
      let t := if s.rollsBack cl then s else s.modArr cl fun a => { a with job := none, due := false }
      .next (t.detect cl ((s.clu cl).arr.cover.getD (s.strikeTarget cl)) fails)
    else
      let s1 := s.modArr cl fun a => { a with job := none, due := false, work := 0, cover := none }
      .next (match who with
        | some ci => s1.modPortHead ci fun p => { p with done := true }
        | none => s1)
  | _ => .next s

/-- The retests of a sub-array that follow its first failure (R367). -/
def retests : Nat := 16

/-- A retest of a sub-array passed; with the last it returns to service. -/
def MatArray.retested (a : MatArray) (n : Nat) : MatArray :=
  let fs := a.fences.map fun f => if f.n = n then { f with passes := f.passes + 1 } else f
  { a with job := none, fences := fs.filter fun f => !(f.n == n && !f.hard && decide (retests ≤ f.passes)) }

/-- SUBARRAY_RETEST (R367): a retest of a fenced sub-array ends. Once 16 have passed it returns to service; a failing one fences it until the next
reset. -/
def execSubarrayRetest (cl : Nat) (n : BitVec 3) (fails : Bool) (s : State) : Out :=
  if (s.clu cl).arr.job ≠ some (.retest n.toNat) || decide (s.now < (s.clu cl).arr.upto) then .next s
  else .next (if fails then (s.modArr cl fun a => { a with job := none }).fenceSub cl n.toNat else s.modArr cl fun a => a.retested n.toNat)

end Sys2Proof.Machine
end

