-- ==== Sys2Proof/Machine/Scalar.lean ====
section
/-!
DEFINITION. The scalar integer and control forms (R92 to R105).
-/

namespace Sys2Proof.Machine

/-! Values (Tables 06-2, 06-5, 03-6). -/

/-- A truth value as a word. -/
def boolWord (b : Bool) : Word := if b then 1 else 0
/-- The shift amount: bits 5:0. -/
def shamt (b : Word) : Nat := b.toNat % 64
/-- Rotate left by the amount's low six bits. -/
def rolW (a b : Word) : Word := a.rotateLeft (shamt b)
/-- Signed quotient, truncated towards zero; divisor zero gives all ones (Table 03-6). -/
def divW (a b : Word) : Word := if b = 0 then BitVec.allOnes 64 else a.sdiv b
/-- Unsigned quotient; divisor zero gives all ones. -/
def divuW (a b : Word) : Word := if b = 0 then BitVec.allOnes 64 else a.udiv b
/-- Signed remainder with the dividend's sign; divisor zero gives the dividend. -/
def remW (a b : Word) : Word := if b = 0 then a else a.srem b
/-- Unsigned remainder; divisor zero gives the dividend. -/
def remuW (a b : Word) : Word := if b = 0 then a else a.umod b
/-- Bits 127:64 of the exact signed product. -/
def mulhW (a b : Word) : Word := BitVec.ofInt 64 (a.toInt * b.toInt / 2 ^ 64)
/-- Bits 127:64 of the exact unsigned product. -/
def mulhuW (a b : Word) : Word := w64 (a.toNat * b.toNat / 2 ^ 64)
/-- Leading zero bits, counted from bit `n - 1` down. -/
def clzFrom (a : Word) : Nat → Nat
  | 0 => 0
  | n + 1 => if a.getLsbD n then 0 else 1 + clzFrom a n
/-- Trailing zero bits, counted from bit `64 - n` up. -/
def ctzFrom (a : Word) : Nat → Nat
  | 0 => 0
  | n + 1 => if a.getLsbD (63 - n) then 0 else 1 + ctzFrom a n
/-- One bits among the low `n`. -/
def popFrom (a : Word) : Nat → Nat
  | 0 => 0
  | n + 1 => popFrom a n + (if a.getLsbD n then 1 else 0)
/-- BEXT: the bits of `a` selected by the mask gathered, from bit `64 - n` up; the next goes to place `j` (R96). -/
def bextFrom (a b : Word) : Nat → Nat → Nat
  | 0, _ => 0
  | n + 1, j =>
    let i := 63 - n
    if b.getLsbD i then (if a.getLsbD i then 2 ^ j else 0) + bextFrom a b n (j + 1) else bextFrom a b n j
/-- BDEP: the low bits of `a` scattered to the places set in the mask, from bit `64 - n` up; the next bit is `a[j]` (R96). -/
def bdepFrom (a b : Word) : Nat → Nat → Nat
  | 0, _ => 0
  | n + 1, j =>
    let i := 63 - n
    if b.getLsbD i then (if a.getLsbD j then 2 ^ i else 0) + bdepFrom a b n (j + 1) else bdepFrom a b n j

/-- A 13-bit immediate, sign-extended (R77). -/
def imm13 (i : BitVec 13) : Word := i.signExtend 64
/-- imm20 at bits 32:13, sign-extended (R101). -/
def imm20 (i : BitVec 20) : Word := i.signExtend 64 <<< 13

/-! Register forms (R96). -/

/-- A divide form (R106, R107): ready in every other respect, it waits while a divide of any context holds the core's divider, then holds it for
18 cycles. -/
def divide (s : State) (w : Word) (d : Dst) (a b : Src) (f : Word → Word → Word) : Res :=
  match scalar2 s w 18 d a b f with
  | .ok s' => if s.now < s.myCore.divFree then .wait .depend else .ok (s'.updCore fun k => { k with divFree := s.now + 18 })
  | r => r

/-- ADD (Table 06-2). -/
def execAdd (d : Dst) (a b : Src) (s : State) : Out :=
  finish s (scalar2 s (wordOf (.add d a b)) 1 d a b fun a b => a + b)
/-- SUB (Table 06-2). -/
def execSub (d : Dst) (a b : Src) (s : State) : Out :=
  finish s (scalar2 s (wordOf (.sub d a b)) 1 d a b fun a b => a - b)
/-- AND (Table 06-2). -/
def execAnd (d : Dst) (a b : Src) (s : State) : Out :=
  finish s (scalar2 s (wordOf (.and d a b)) 1 d a b fun a b => a &&& b)
/-- OR (Table 06-2). -/
def execOr (d : Dst) (a b : Src) (s : State) : Out :=
  finish s (scalar2 s (wordOf (.or d a b)) 1 d a b fun a b => a ||| b)
/-- XOR (Table 06-2). -/
def execXor (d : Dst) (a b : Src) (s : State) : Out :=
  finish s (scalar2 s (wordOf (.xor d a b)) 1 d a b fun a b => a ^^^ b)
/-- ANDN (Table 06-2). -/
def execAndn (d : Dst) (a b : Src) (s : State) : Out :=
  finish s (scalar2 s (wordOf (.andn d a b)) 1 d a b fun a b => a &&& ~~~b)
/-- SLL (Table 06-2). -/
def execSll (d : Dst) (a b : Src) (s : State) : Out :=
  finish s (scalar2 s (wordOf (.sll d a b)) 1 d a b fun a b => a <<< shamt b)
/-- SRL (Table 06-2). -/
def execSrl (d : Dst) (a b : Src) (s : State) : Out :=
  finish s (scalar2 s (wordOf (.srl d a b)) 1 d a b fun a b => a >>> shamt b)
/-- SRA (Table 06-2). -/
def execSra (d : Dst) (a b : Src) (s : State) : Out :=
  finish s (scalar2 s (wordOf (.sra d a b)) 1 d a b fun a b => a.sshiftRight (shamt b))
/-- ROL (Table 06-2). -/
def execRol (d : Dst) (a b : Src) (s : State) : Out :=
  finish s (scalar2 s (wordOf (.rol d a b)) 1 d a b fun a b => rolW a b)
/-- SLT (Table 06-2). -/
def execSlt (d : Dst) (a b : Src) (s : State) : Out :=
  finish s (scalar2 s (wordOf (.slt d a b)) 1 d a b fun a b => boolWord (a.slt b))
/-- SLTU (Table 06-2). -/
def execSltu (d : Dst) (a b : Src) (s : State) : Out :=
  finish s (scalar2 s (wordOf (.sltu d a b)) 1 d a b fun a b => boolWord (a.ult b))
/-- MIN (Table 06-2). -/
def execMin (d : Dst) (a b : Src) (s : State) : Out :=
  finish s (scalar2 s (wordOf (.min d a b)) 1 d a b fun a b => if a.sle b then a else b)
/-- MAX (Table 06-2). -/
def execMax (d : Dst) (a b : Src) (s : State) : Out :=
  finish s (scalar2 s (wordOf (.max d a b)) 1 d a b fun a b => if b.sle a then a else b)
/-- MINU (Table 06-2). -/
def execMinu (d : Dst) (a b : Src) (s : State) : Out :=
  finish s (scalar2 s (wordOf (.minu d a b)) 1 d a b fun a b => if a.ule b then a else b)
/-- MAXU (Table 06-2). -/
def execMaxu (d : Dst) (a b : Src) (s : State) : Out :=
  finish s (scalar2 s (wordOf (.maxu d a b)) 1 d a b fun a b => if b.ule a then a else b)
/-- MUL (Table 06-2). -/
def execMul (d : Dst) (a b : Src) (s : State) : Out :=
  finish s (scalar2 s (wordOf (.mul d a b)) 3 d a b fun a b => a * b)
/-- MULH (Table 06-2). -/
def execMulh (d : Dst) (a b : Src) (s : State) : Out :=
  finish s (scalar2 s (wordOf (.mulh d a b)) 3 d a b fun a b => mulhW a b)
/-- MULHU (Table 06-2). -/
def execMulhu (d : Dst) (a b : Src) (s : State) : Out :=
  finish s (scalar2 s (wordOf (.mulhu d a b)) 3 d a b fun a b => mulhuW a b)
/-- DIV (Table 06-2). -/
def execDiv (d : Dst) (a b : Src) (s : State) : Out :=
  finish s (divide s (wordOf (.div d a b)) d a b fun a b => divW a b)
/-- DIVU (Table 06-2). -/
def execDivu (d : Dst) (a b : Src) (s : State) : Out :=
  finish s (divide s (wordOf (.divu d a b)) d a b fun a b => divuW a b)
/-- REM (Table 06-2). -/
def execRem (d : Dst) (a b : Src) (s : State) : Out :=
  finish s (divide s (wordOf (.rem d a b)) d a b fun a b => remW a b)
/-- REMU (Table 06-2). -/
def execRemu (d : Dst) (a b : Src) (s : State) : Out :=
  finish s (divide s (wordOf (.remu d a b)) d a b fun a b => remuW a b)
/-- CLZ (Table 06-2). -/
def execClz (d : Dst) (a : Src) (s : State) : Out :=
  finish s (scalar1 s (wordOf (.clz d a)) 1 d a fun a => w64 (clzFrom a 64))
/-- CTZ (Table 06-2). -/
def execCtz (d : Dst) (a : Src) (s : State) : Out :=
  finish s (scalar1 s (wordOf (.ctz d a)) 1 d a fun a => w64 (ctzFrom a 64))
/-- POPC (Table 06-2). -/
def execPopc (d : Dst) (a : Src) (s : State) : Out :=
  finish s (scalar1 s (wordOf (.popc d a)) 1 d a fun a => w64 (popFrom a 64))
/-- BEXT (Table 06-2). -/
def execBext (d : Dst) (a b : Src) (s : State) : Out :=
  finish s (scalar2 s (wordOf (.bext d a b)) 2 d a b fun a b => w64 (bextFrom a b 64 0))
/-- BDEP (Table 06-2). -/
def execBdep (d : Dst) (a b : Src) (s : State) : Out :=
  finish s (scalar2 s (wordOf (.bdep d a b)) 2 d a b fun a b => w64 (bdepFrom a b 64 0))

/-! Immediate forms (R99 to R101). -/

/-- ADDI (Table 06-5). -/
def execAddi (d : Dst) (a : Src) (i : BitVec 13) (s : State) : Out :=
  finish s (scalar1 s (wordOf (.addi d a i)) 1 d a fun a => a + imm13 i)
/-- ANDI (Table 06-5). -/
def execAndi (d : Dst) (a : Src) (i : BitVec 13) (s : State) : Out :=
  finish s (scalar1 s (wordOf (.andi d a i)) 1 d a fun a => a &&& imm13 i)
/-- ORI (Table 06-5). -/
def execOri (d : Dst) (a : Src) (i : BitVec 13) (s : State) : Out :=
  finish s (scalar1 s (wordOf (.ori d a i)) 1 d a fun a => a ||| imm13 i)
/-- XORI (Table 06-5). -/
def execXori (d : Dst) (a : Src) (i : BitVec 13) (s : State) : Out :=
  finish s (scalar1 s (wordOf (.xori d a i)) 1 d a fun a => a ^^^ imm13 i)
/-- SLLI (R100). -/
def execSlli (d : Dst) (a : Src) (n : BitVec 6) (s : State) : Out :=
  finish s (scalar1 s (wordOf (.slli d a n)) 1 d a fun a => a <<< n.toNat)
/-- SRLI (R100). -/
def execSrli (d : Dst) (a : Src) (n : BitVec 6) (s : State) : Out :=
  finish s (scalar1 s (wordOf (.srli d a n)) 1 d a fun a => a >>> n.toNat)
/-- SRAI (R100). -/
def execSrai (d : Dst) (a : Src) (n : BitVec 6) (s : State) : Out :=
  finish s (scalar1 s (wordOf (.srai d a n)) 1 d a fun a => a.sshiftRight n.toNat)
/-- SLTI (Table 06-5). -/
def execSlti (d : Dst) (a : Src) (i : BitVec 13) (s : State) : Out :=
  finish s (scalar1 s (wordOf (.slti d a i)) 1 d a fun a => boolWord (a.slt (imm13 i)))
/-- SLTIU (Table 06-5). -/
def execSltiu (d : Dst) (a : Src) (i : BitVec 13) (s : State) : Out :=
  finish s (scalar1 s (wordOf (.sltiu d a i)) 1 d a fun a => boolWord (a.ult (imm13 i)))
/-- LUI (R101). -/
def execLui (d : BitVec 5) (i : BitVec 20) (s : State) : Out :=
  finish s (s.regs [] [d] (.ok (s.upd fun c => { c.wx d (imm20 i) with pc := c.next })))
/-- AUIPC (R101). -/
def execAuipc (d : BitVec 5) (i : BitVec 20) (s : State) : Out :=
  finish s (s.regs [] [d] (.ok (s.upd fun c => { c.wx d (pcWord c.pc + imm20 i) with pc := c.next })))

/-! Control forms (R102 to R104). -/

/-- The REDIRECT cycles of a control transfer (R109, Table 06-11): the next instruction issues after `n` cycles more. -/
def Ctx.redirect (c : Ctx) (now n : Nat) : Ctx := if n = 0 then c else { c with pause := some (.redirect, now + 1 + n) }

/-- The REDIRECT cycles of a conditional branch (Table 06-11): a negative displacement is predicted taken, any other not taken. -/
def branchCost (o : BitVec 13) (taken : Bool) : Nat := if o.msb then (if taken then 1 else 3) else (if taken then 3 else 0)

/-- A conditional branch (R102, R109). -/
def branch (s : State) (a b : BitVec 5) (o : BitVec 13) (f : Word → Word → Bool) : Res :=
  s.regs [a, b] [] (.ok (s.upd fun c =>
    let taken := f (c.rx a) (c.rx b)
    { c with pc := if taken then c.pc + o.signExtend 56 * 4 else c.next }.redirect s.now (branchCost o taken)))

/-- BEQ (R102). -/
def execBeq (a b : BitVec 5) (o : BitVec 13) (s : State) : Out := finish s (branch s a b o fun a b => a == b)
/-- BNE (R102). -/
def execBne (a b : BitVec 5) (o : BitVec 13) (s : State) : Out := finish s (branch s a b o fun a b => a != b)
/-- BLT (R102). -/
def execBlt (a b : BitVec 5) (o : BitVec 13) (s : State) : Out := finish s (branch s a b o fun a b => a.slt b)
/-- BGE (R102). -/
def execBge (a b : BitVec 5) (o : BitVec 13) (s : State) : Out := finish s (branch s a b o fun a b => b.sle a)
/-- BLTU (R102). -/
def execBltu (a b : BitVec 5) (o : BitVec 13) (s : State) : Out := finish s (branch s a b o fun a b => a.ult b)
/-- BGEU (R102). -/
def execBgeu (a b : BitVec 5) (o : BitVec 13) (s : State) : Out := finish s (branch s a b o fun a b => b.ule a)
/-- JAL (R103, R109). -/
def execJal (d : BitVec 5) (o : BitVec 20) (s : State) : Out :=
  finish s (s.regs [] [d] (.ok (s.upd fun c => { c.wx d (pcWord c.next) with pc := c.pc + o.signExtend 56 * 4 }.redirect s.now 1)))
/-- JALR: the target is checked before rd is written (R104, R109). -/
def execJalr (d a : BitVec 5) (i : BitVec 13) (s : State) : Out :=
  let t := s.me.rx a + imm13 i
  finish s (s.regs [a] [d] (
    if t.toNat % 4 ≠ 0 then .trap .misaligned t
    else if bitsOf t.toNat 63 56 ≠ 0 then .trap .windowFault t
    else .ok (s.upd fun c => { c.wx d (pcWord c.next) with pc := t.extractLsb' 0 56 }.redirect s.now 3)))

end Sys2Proof.Machine
end

