-- ==== Sys2Proof/Machine/Slots.lean ====
section
/-!
DEFINITION. What a cluster's shared units grant: scalar, vector and engine slots, lane groups, and the return of loads (R116, R117, R158, R242,
R243, R245).
-/

namespace Sys2Proof.Machine

/-! Forms that complete at a bank unit or with their block (R176, R197, R205). -/

/-- The effect of a form on the block it has read. -/
def formPerform (i : Instr) (s : State) (v : Nat) : Res :=
  match i with
  | .mfmt _ => fmtPerform i s v
  | .xcopy a => xcopyPerform (s.me.rx a) s v
  | .xsub a => walkPerform false (s.me.rx a) s v
  | .xdrain a => walkPerform true (s.me.rx a) s v
  | .sbind a => sbindPerform (s.me.rx a) s v
  | .launch d a _ => launchPerform i d a s v
  | .emit a _ => emitPerform (s.me.rx a).toNat s v
  | .publ _ => publPerform i s v
  | .rdef n a b => rdefPerform n a b s
  | .rpop n => rpopPerform n s
  | .rpush n => rpushPerform n s
  | .texp a b => texpPerform a b s
  | .ttag d a b => ttagPerform d a b s
  | .twait d a b => twaitPerform d a b s
  | _ => .ok s

/-- The cycle from which the next instruction issues after a form that completes at a bank unit or with its block: the one after a TILE form's bank
step, three after the read of a block in the scratchpad (R116, R197, R205). -/
def formPause (i : Instr) (bank : Bool) (now : Nat) : Option (Cause × Nat) :=
  match i with
  | .rdef _ _ _ => some (.tileWait, now + 1)
  | .rpop _ => some (.tileWait, now + 1)
  | .rpush _ => some (.tileWait, now + 1)
  | .texp _ _ => some (.tileWait, now + 1)
  | .ttag _ _ _ => some (.tileWait, now + 1)
  | .twait _ _ _ => some (.tileWait, now + 1)
  | _ => if bank then some (.slotWait, now + bankLatency) else none

/-- A form of a context completes with the value it read; `t` is the state without its access. While something keeps it, it stays, and its cause is
charged. -/
def State.completeForm (s t : State) (sid : Nat) (i : Instr) (v : Nat) (bank : Bool) : State :=
  match formPerform i { t with cur := sid } v with
  | .wait k => s.modCtx sid fun c => { c with act := .stalled k }
  | .ok u => { (settle { t with cur := sid } (.ok u)).modCtx sid fun c => { c with pause := formPause i bank s.now } with cur := s.cur }
  | r => { settle { t with cur := sid } r with cur := s.cur }

/-! The scalar slot (R116). -/

/-- The banks of the lines an access touches; tags lie in the bank of their line. -/
def BankAccess.banks (a : BankAccess) : List Nat := (linesOf a.off (Nat.max 1 a.size)).map fun l => l % 32

/-- A context's oldest pending access performed. -/
def State.grantAccess (s : State) (sid : Nat) (a : BankAccess) : State :=
  let s1 := s.modCtx sid fun c => { c with pend := c.pend.drop 1 }
  match a.op with
  | .form i => s.completeForm s1 sid i (if a.tags then 0 else s.spadRead a.cl a.off a.size) true
  | _ => s1.bankPerform sid a

/-- Whether slot `n` of a cluster's wheel comes in this cycle and has not been granted (R241). -/
def State.slotDue (s : State) (cl n : Nat) : Bool := s.now % 8 == n && decide ((s.clu cl).slotAt ≤ s.now)

/-- The contexts of a cluster in their order, from a pointer. -/
def fromPointer (cl p : Nat) : List Nat := (List.range 10).map fun l => 10 * cl + (p + l) % 10

/-- The grants of a scalar cycle: at most `k` more, to banks not in `used`; the state, and the last context granted. -/
def State.scalarGrants (s : State) : Nat → List Nat → List Nat → State × Option Nat
  | 0, _, _ => (s, none)
  | _, _, [] => (s, none)
  | k + 1, used, sid :: l =>
    match (s.ctx sid).pend with
    | [] => s.scalarGrants (k + 1) used l
    | a :: _ =>
      if (a.banks.any fun b => used.contains b) || s.bankBlocked a then s.scalarGrants (k + 1) used l
      else
        let r := (s.grantAccess sid a).scalarGrants k (used ++ a.banks) l
        (r.1, some (r.2.getD sid))

/-- SCALAR_SLOT_GRANT (R116): a scalar cycle grants up to four accesses to distinct banks; the pointer moves past the last context granted. -/
def execScalarSlotGrant (cl : Nat) (s : State) : Out :=
  if !s.slotDue cl 7 then .next s
  else
    let r := s.scalarGrants 4 [] (fromPointer cl (s.clu cl).sptr)
    .next (match r.2 with
      | some sid => r.1.modClu cl fun c => { c with sptr := (slotLocal sid + 1) % 10, slotAt := s.now + 1 }
      | none => r.1)

/-! Vector slots and lane groups (R242, R245). -/

/-- A bound memory form at a core's sequencer head, which waits for vector slots. -/
def State.vectorHead (s : State) (ci : Nat) : Option SeqEntry :=
  match (s.core ci).seq with
  | e :: _ => if e.bound && isVMem e.i then some e else none
  | [] => none

/-- The scratchpad line of a piece. -/
def pieceLine (p : VPiece × VPlace) : Nat :=
  match p.2 with
  | .bank _ off => off / 16
  | .mem _ => 0

/-- The pieces of a memory form that a vector slot serves, one line in each bank (R159), and the others. -/
def SeqEntry.slotParts (e : SeqEntry) : List (VPiece × VPlace) × List (VPiece × VPlace) :=
  let ls := slotServes (e.left.map pieceLine)
  e.left.partition fun p => ls.contains (pieceLine p)

/-- A vector slot for a memory form at the head: its lines are read or written, and after the last the form leaves the sequencer, a loaded value
usable three cycles later (R159). A store that finds undo memory full keeps the slots and waits (R358). -/
def State.vectorServe (s : State) (ci : Nat) (e : SeqEntry) : State :=
  let ps := e.slotParts
  let store := (vShape e.i).any fun h => h.ds.isSome
  if store && s.vUndoFull ps.1 then s
  else
    let s1 := if store then s.vStoreBank ((s.ctx e.sid).rv (vstoreReg e.i)) ps.1 else s
    let e' := { e with left := ps.2, img := if store then e.img else e.img ||| s.vGet ps.1 }
    let s2 := s1.modHead ci fun _ => e'
    if ps.2.isEmpty then s2.leaveSeq ci (s.now + bankLatency) e' store else s2

/-- The core whose memory form the vector slots serve: the one in service, else the next after the one last served that has one (R242). -/
def State.vectorCore (s : State) (cl : Nat) : Option (Nat × SeqEntry) :=
  let k := s.clu cl
  let order := match k.vcur with
    | some c => [c]
    | none => (List.range 4).map fun n => (k.vlast + 1 + n) % 4
  order.findSome? fun c => (s.vectorHead (4 * cl + c)).map fun e => (c, e)

/-- VECTOR_SLOT_GRANT (R242): a vector slot serves the memory form in service, one whole instruction at a time. -/
def execVectorSlotGrant (cl : Nat) (s : State) : Out :=
  if !(s.slotDue cl 4 || s.slotDue cl 5) then .next s
  else match s.vectorCore cl with
    | none => .next (if (s.clu cl).vcur.isSome then s.modClu cl fun k => { k with vcur := none } else s)
    | some (c, e) =>
      let t := s.vectorServe (4 * cl + c) e
      .next (t.modClu cl fun k => { k with vlast := c, slotAt := s.now + 1, vcur := if (t.vectorHead (4 * cl + c)).isSome then some c else none })

/-- A core's sequencer head bound to a lane group, where it is ready for one (R245); the next instruction of a frame is as a head. -/
def State.laneServe (s : State) (ci : Nat) : Option State :=
  match (s.core ci).seq with
  | [] => none
  | e :: _ =>
    if e.frame then match s.frameNext e with
      | some (i, _) => if usesLanes i then s.framePerform e.sid else none
      | none => none
    else if usesLanes e.i then s.bindHead ci e else none

/-- The weight of a core (Table 12-1). -/
def Cluster.weight (c : Cluster) (n : Nat) : Nat := Nat.max 1 (bitsOf c.clshare.toNat (4 * n + 3) (4 * n))

/-- The lowest-numbered free lane group of a cluster. -/
def Cluster.freeGroup (c : Cluster) (now : Nat) : Option Nat := (List.range 4).find? fun g => decide (c.lanes.getD g 0 ≤ now)

/-- What the lane-group arbiter grants in this cycle: the core, the state after its head has bound, and the deficit then (R245). -/
def State.laneGrant (s : State) (cl : Nat) : Option (Nat × State × Nat) :=
  let k := s.clu cl
  if decide (s.now < k.laneAt) || (k.freeGroup s.now).isNone then none
  else match (if 1 ≤ k.ldef then s.laneServe (4 * cl + k.lptr) else none) with
    | some t => some (k.lptr, t, k.ldef - 1)
    | none => ([1, 2, 3, 0].map fun n => (k.lptr + n) % 4).findSome? fun c => (s.laneServe (4 * cl + c)).map fun t => (c, t, k.weight c - 1)

/-- The lane-group arbiter's grant, at most one in a cycle: the group is held for four beats (R245). -/
def State.laneStep (s : State) (cl : Nat) : State :=
  match s.laneGrant cl with
  | none => s
  | some (c, t, d) => t.modClu cl fun k => { k with
      lptr := c, ldef := d, laneAt := s.now + 1, lanes := k.lanes.set (((s.clu cl).freeGroup s.now).getD 0) (s.now + 4) }

/-- LANE_GROUP_GRANT (R245): the arbiter grants a lane group to a ready head. -/
def execLaneGroupGrant (cl : Nat) (s : State) : Out := .next (s.laneStep cl)

/-- Whether the next instruction of a frame at a core's head uses a lane group. -/
def State.frameLanes (s : State) (ci : Nat) : Bool :=
  match (s.core ci).seq with
  | [] => false
  | e :: _ => e.frame && (s.frameNext e).any fun q => usesLanes q.1

/-- FRAME_REPLAY_PERFORMANCE (R165): the next instruction of the frame that a context replays is performed, as the arbiter grants its core a lane
group, or where it uses none (R245). -/
def execFrameReplayPerformance (sid : Nat) (s : State) : Out :=
  let ci := slotCore sid
  if s.frameLanes ci then .next (if (s.laneGrant (coreCluster ci)).any fun g => 4 * coreCluster ci + g.1 == ci then s.laneStep (coreCluster ci) else s)
  else if s.now < (s.core ci).bindAt then .next s
  else .next (match s.framePerform sid with
    | none => s
    | some t => t.modCore ci fun k => { k with bindAt := s.now + 1 })

/-! Engine slots (R243). -/

/-- The units of requester `r` of a cluster that wait for lines: 0 the block-transfer engine, 1 loader deliveries, 2 storer reads, 3 and up the stream engines.
A stream-in engine asks for every entry that its buffer has room for, each with its own lines (R253); a stream-out engine writes one entry after the
other. -/
def State.engineUnits (s : State) (cl r : Nat) : List EngineLeft :=
  let old := Tab.get [] (s.clu cl).eleft r
  let keep (u : EngineLeft) : EngineLeft := (old.find? fun v => v.work == u.work).getD u
  match r with
  | 0 => old
  | 1 => match s.credits.find? fun c => coreCluster c.dst == cl && c.data.isSome with
    | some c => [keep (mkUnit (.credit c.n) [{ from_ := none, val := (c.data.map Prod.snd).getD 0, to_ := c.data.map Prod.fst, pa := 0, n := c.bytes }])]
    | none => []
  | 2 => match s.drains.find? fun d => coreCluster d.ci == cl && s.takeReady d with
    | some d =>
      let g := s.ring d.ci d.ring
      [keep (mkUnit (.take d.n d.prog) [{ from_ := some (g.tile g.head), val := 0, to_ := none, pa := 0, n := g.size }])]
    | none => []
  | r =>
    let ci := 4 * cl + (r - 3) / 4
    let e := (r - 3) % 4
    let g := Tab.get {} (s.core ci).seng e
    if g.active && decide (g.sid < savedBase) && g.fault.isNone && inSpad g.base && s.streamClear ci g then
      (List.range (Nat.min (if g.out then Nat.min 1 g.buf.length else s.entryRoom ci e) (patternCount g.n - g.moved))).map fun k => keep (g.unit ci e (g.moved + k))
    else []

/-- The lines that a unit waits for at its banks: those it reads, then those it writes, where undo memory has room for them (R358). -/
def State.unitLines (s : State) (cl : Nat) (u : EngineLeft) : List Nat :=
  if u.reads.isEmpty then u.writes.filter fun l => !s.undoFull cl (16 * l) 16 else u.reads

/-- The requester that a bank serves, its unit and its line: the first that waits on it at or after the bank's pointer. -/
def State.bankServes (s : State) (cl : Nat) (ws : List (Nat × List EngineLeft)) (bank : Nat) : Option (Nat × EngineWork × Nat) :=
  let p := Tab.get 0 (s.clu cl).eptr bank
  ((List.range 19).map fun k => (p + k) % 19).findSome? fun r =>
    (ws.find? fun w => w.1 == r).bind fun w => w.2.findSome? fun u => ((s.unitLines cl u).find? fun l => l % 32 == bank).map fun l => (r, u.work, l)

/-- A line of a unit served at its bank: it is read, or the unit's bytes in it are written (R272). -/
def State.serveLine (s : State) (cl r line : Nat) (u : EngineLeft) : State :=
  let us := Tab.get [] (s.clu cl).eleft r
  let put (s : State) (v : EngineLeft) : State := s.setUnits cl r (us.map fun x => if x.work = u.work then v else x)
  if u.reads.isEmpty then
    let s1 := u.pieces.foldl (fun s p => match p.to_ with
      | none => s
      | some o =>
        let lo := Nat.max o (16 * line)
        let n := Nat.min (o + p.n) (16 * line + 16) - lo
        if n = 0 then s else s.spadWrite cl lo n (u.value p / 2 ^ (8 * (lo - o)) % 2 ^ (8 * n))) s
    put s1 { u with writes := u.writes.erase line }
  else put s { u with reads := u.reads.erase line, got := u.got ++ [(line, s.spadRead cl (16 * line) 16)] }

/-- A delivery whose last line is written: its credit is to be made (R193). -/
def State.deliveries (s : State) (cl : Nat) : State :=
  ((Tab.get [] (s.clu cl).eleft 1).filter EngineLeft.done).foldl (fun s u => match u.work with
    | .credit n => { s.dropUnit cl 1 u.work with credits := s.credits.map fun c => if c.n = n then { c with data := none } else c }
    | _ => s) s

/-- ENGINE_SLOT_GRANT (R243): every bank serves one line to its first waiting requester, and its pointer moves past it. DEDUCED (log 6): a unit is a row, a
tile or an entry, and a row's lines are written once those it reads are read. -/
def execEngineSlotGrant (cl : Nat) (s : State) : Out :=
  if !s.slotDue cl 6 then .next s
  else
    let ws := (List.range 19).map fun r => (r, s.engineUnits cl r)
    let served := (List.range 32).filterMap fun b => (s.bankServes cl ws b).map fun x => (b, x)
    if served.isEmpty then .next s
    else
      let s1 := ws.foldl (fun s w => s.setUnits cl w.1 w.2) s
      let s2 := served.foldl (fun s x => match s.unitOf cl x.2.1 x.2.2.1 with
        | some u => s.serveLine cl x.2.1 x.2.2.2 u
        | none => s) s1
      .next ((s2.modClu cl fun c => { c with
        slotAt := s.now + 1, eptr := served.foldl (fun t x => Tab.set 0 t x.1 ((x.2.1 + 1) % 19)) c.eptr }).deliveries cl)

/-! Self-test products that fall due (R366). -/

/-- Whether the memory form at a core's sequencer head waits for room in undo memory or in the restante buffer. -/
def State.vectorStoreWaits (s : State) (ci : Nat) : Bool :=
  match (s.core ci).seq with
  | [] => false
  | e :: _ => isVMem e.i && ((vShape e.i).any fun h => h.ds.isSome) &&
    if e.bound then s.vUndoFull e.slotParts.1
    else (e.plan.any fun ps => s.restFull (coreCluster ci) (vLines ((s.ctx e.sid).rv (vstoreReg e.i)) ps).length)

/-- Whether the transfer at the head of a core's port waits for undo memory. -/
def State.portMoveWaits (s : State) (ci : Nat) : Bool :=
  match (s.core ci).port with
  | [] => false
  | p :: _ => p.started && !p.done && p.stores && s.linesUndoFull (coreCluster ci) (slotServes p.left)

/-- Whether a unit of the engines of a cluster waits for undo memory. -/
def State.unitWaits (s : State) (cl : Nat) : Bool :=
  (List.range 19).any fun r => (s.engineUnits cl r).any fun u => u.reads.isEmpty && u.writes.any fun l => s.undoFull cl (16 * l) 16

/-- Whether a stream engine of a core waits for room in the restante buffer. -/
def State.streamOutWaits (s : State) (ci : Nat) (g : StreamEng) : Bool := g.active && g.out && !g.buf.isEmpty && !inSpad g.base && s.restFull (coreCluster ci) 1

/-- Whether undo memory or the restante buffer of a cluster has no entry left, or too few for what waits to enter it (R358, R361, R366). -/
def State.buffersFull (s : State) (cl : Nat) : Bool :=
  let cores := (List.range 4).map fun c => 4 * cl + c
  decide (Config.undoEntries ≤ (s.clu cl).undo.length) || decide (Config.restanteEntries ≤ s.restUsed cl) ||
    (s.ctxs.any fun e => slotCluster e.1 == cl && (e.2.charge == .undoFull || e.2.charge == .restanteFull || e.2.pend.any s.bankBlocked)) ||
    (cores.any fun ci => s.vectorStoreWaits ci || s.portMoveWaits ci || (s.core ci).seng.any fun g => s.streamOutWaits ci g.2) || s.unitWaits cl

/-- PERIODIC_SELF_TEST_DUE (R366): a self-test product falls due after 256 cycles of array work, and when undo memory or the restante buffer is full
while array work is uncovered. -/
def execPeriodicSelfTestDue (cl : Nat) (s : State) : Out :=
  let a := (s.clu cl).arr
  .next (if decide (256 ≤ a.work) || (a.cover.isSome && !a.due && s.buffersFull cl) then s.modArr cl fun a => { a with due := true } else s)

/-! Loads that return (R117, R158, R175, R176). -/

/-- The oldest scalar load of a context whose data has come. -/
def State.loadBack (s : State) (sid : Nat) : Option Req :=
  (s.reqsOf sid).find? fun r => r.isLoad && r.stage == .performed && !s.crossing r.id

/-- The requests of a vector load that is under way. -/
def State.vloadReqs (s : State) (e : SeqEntry) : List Req := (s.reqsOf e.sid).filter fun r => r.isVload && r.serial == e.serial

/-- The oldest vector load of a context whose lines have all come. -/
def State.vloadBack (s : State) (sid : Nat) : Option SeqEntry :=
  (s.core (slotCore sid)).vout.find? fun e => e.sid == sid && (s.vloadReqs e).all fun r => r.stage == .performed && !s.crossing r.id

/-- A vector load whose lines have come: its destination takes the bytes of the scratchpad and of the lines (R137, R159). -/
def State.vloadDone (s : State) (e : SeqEntry) : State :=
  let ps := e.plan.getD []
  let img := e.img ||| lineGet ((s.vloadReqs e).map fun r => (r.va / 64, r.data)) ps
  let d := vloadDst e.i
  ((s.dropLines e).modCore (slotCore e.sid) fun k => { k with vout := k.vout.filter fun q => !(q.sid == e.sid && q.serial == e.serial) }).applyV
    e.sid e.serial s.now false (.vec d (vMerge ((s.ctx e.sid).old d) ps img, 0))

/-- GLOBAL_LOAD_RETURN (R117, R159): a context's load returns: its register, channel, vector or shape register is written, or its form completes. -/
def execGlobalLoadReturn (sid : Nat) (s : State) : Out :=
  match s.loadBack sid with
  | none => .next (match s.vloadBack sid with
    | some e => s.vloadDone e
    | none => s)
  | some r =>
    let s1 := s.dropReq r.id
    let back (d : Dst) (sg acq : Bool) : State :=
      (s1.deliverAt sid r.serial s.now d (extend sg r.size r.data)).modCtx sid fun c => if acq then c.acquireEnds s.now s.now else c
    .next (match r.kind with
      | .load d sg acq => back d sg acq
      | .devLoad d sg acq => back d sg acq
      | .shape n => s1.setShape sid n s.now r.data
      | .form i => s.completeForm s1 sid i r.data false
      | _ => s)

end Sys2Proof.Machine
end

