-- ==== Sys2Proof/Machine/Dispatch.lean ====
section
/-!
DEFINITION. One arm per instruction: the meaning it has.
-/

namespace Sys2Proof.Machine

/-- The meaning of an instruction or step. -/
def exec (i : Instr) (s : State) : Host.Outcome State Fault Refusal :=
  match i with
  | .add d a b => Sys2Proof.Machine.execAdd d a b s
  | .sub d a b => Sys2Proof.Machine.execSub d a b s
  | .and d a b => Sys2Proof.Machine.execAnd d a b s
  | .or d a b => Sys2Proof.Machine.execOr d a b s
  | .xor d a b => Sys2Proof.Machine.execXor d a b s
  | .andn d a b => Sys2Proof.Machine.execAndn d a b s
  | .sll d a b => Sys2Proof.Machine.execSll d a b s
  | .srl d a b => Sys2Proof.Machine.execSrl d a b s
  | .sra d a b => Sys2Proof.Machine.execSra d a b s
  | .rol d a b => Sys2Proof.Machine.execRol d a b s
  | .slt d a b => Sys2Proof.Machine.execSlt d a b s
  | .sltu d a b => Sys2Proof.Machine.execSltu d a b s
  | .min d a b => Sys2Proof.Machine.execMin d a b s
  | .max d a b => Sys2Proof.Machine.execMax d a b s
  | .minu d a b => Sys2Proof.Machine.execMinu d a b s
  | .maxu d a b => Sys2Proof.Machine.execMaxu d a b s
  | .mul d a b => Sys2Proof.Machine.execMul d a b s
  | .mulh d a b => Sys2Proof.Machine.execMulh d a b s
  | .mulhu d a b => Sys2Proof.Machine.execMulhu d a b s
  | .div d a b => Sys2Proof.Machine.execDiv d a b s
  | .divu d a b => Sys2Proof.Machine.execDivu d a b s
  | .rem d a b => Sys2Proof.Machine.execRem d a b s
  | .remu d a b => Sys2Proof.Machine.execRemu d a b s
  | .clz d a => Sys2Proof.Machine.execClz d a s
  | .ctz d a => Sys2Proof.Machine.execCtz d a s
  | .popc d a => Sys2Proof.Machine.execPopc d a s
  | .bext d a b => Sys2Proof.Machine.execBext d a b s
  | .bdep d a b => Sys2Proof.Machine.execBdep d a b s
  | .addi d a imm => Sys2Proof.Machine.execAddi d a imm s
  | .andi d a imm => Sys2Proof.Machine.execAndi d a imm s
  | .ori d a imm => Sys2Proof.Machine.execOri d a imm s
  | .xori d a imm => Sys2Proof.Machine.execXori d a imm s
  | .slli d a n => Sys2Proof.Machine.execSlli d a n s
  | .srli d a n => Sys2Proof.Machine.execSrli d a n s
  | .srai d a n => Sys2Proof.Machine.execSrai d a n s
  | .slti d a imm => Sys2Proof.Machine.execSlti d a imm s
  | .sltiu d a imm => Sys2Proof.Machine.execSltiu d a imm s
  | .lui d imm => Sys2Proof.Machine.execLui d imm s
  | .auipc d imm => Sys2Proof.Machine.execAuipc d imm s
  | .beq a b o => Sys2Proof.Machine.execBeq a b o s
  | .bne a b o => Sys2Proof.Machine.execBne a b o s
  | .blt a b o => Sys2Proof.Machine.execBlt a b o s
  | .bge a b o => Sys2Proof.Machine.execBge a b o s
  | .bltu a b o => Sys2Proof.Machine.execBltu a b o s
  | .bgeu a b o => Sys2Proof.Machine.execBgeu a b o s
  | .jal d o => Sys2Proof.Machine.execJal d o s
  | .jalr d a imm => Sys2Proof.Machine.execJalr d a imm s
  | .ld d a w o => Sys2Proof.Machine.execLd d a w o s
  | .ldu d a w o => Sys2Proof.Machine.execLdu d a w o s
  | .lda d a w o => Sys2Proof.Machine.execLda d a w o s
  | .st d a w o => Sys2Proof.Machine.execSt d a w o s
  | .stl d a w o => Sys2Proof.Machine.execStl d a w o s
  | .amoAdd d a b w => Sys2Proof.Machine.execAmoAdd d a b w s
  | .amoAnd d a b w => Sys2Proof.Machine.execAmoAnd d a b w s
  | .amoOr d a b w => Sys2Proof.Machine.execAmoOr d a b w s
  | .amoXor d a b w => Sys2Proof.Machine.execAmoXor d a b w s
  | .amoMin d a b w => Sys2Proof.Machine.execAmoMin d a b w s
  | .amoMax d a b w => Sys2Proof.Machine.execAmoMax d a b w s
  | .amoMinu d a b w => Sys2Proof.Machine.execAmoMinu d a b w s
  | .amoMaxu d a b w => Sys2Proof.Machine.execAmoMaxu d a b w s
  | .amoSwap d a b w => Sys2Proof.Machine.execAmoSwap d a b w s
  | .cas d a b w => Sys2Proof.Machine.execCas d a b w s
  | .fence sc c => Sys2Proof.Machine.execFence sc c s
  | .wait d a b w => Sys2Proof.Machine.execWait d a b w s
  | .notify d a all => Sys2Proof.Machine.execNotify d a all s
  | .mma c a b g h m => Sys2Proof.Machine.execMma c a b g h m s
  | .mzero c => Sys2Proof.Machine.execMzero c s
  | .mwait c => Sys2Proof.Machine.execMwait c s
  | .mtest => Sys2Proof.Machine.execMtest s
  | .mlda t n a b => Sys2Proof.Machine.execMlda t n a b s
  | .msta t n a b => Sys2Proof.Machine.execMsta t n a b s
  | .mshape n a => Sys2Proof.Machine.execMshape n a s
  | .mfmt a => Sys2Proof.Machine.execMfmt a s
  | .msave a => Sys2Proof.Machine.execMsave a s
  | .mrstr a => Sys2Proof.Machine.execMrstr a s
  | .rdef n a b => Sys2Proof.Machine.execRdef n a b s
  | .rpop n => Sys2Proof.Machine.execRpop n s
  | .rpush n => Sys2Proof.Machine.execRpush n s
  | .texp a b => Sys2Proof.Machine.execTexp a b s
  | .ttag d a b => Sys2Proof.Machine.execTtag d a b s
  | .twait d a b => Sys2Proof.Machine.execTwait d a b s
  | .xcopy a => Sys2Proof.Machine.execXcopy a s
  | .xsub a => Sys2Proof.Machine.execXsub a s
  | .xunsub a => Sys2Proof.Machine.execXunsub a s
  | .xdrain a => Sys2Proof.Machine.execXdrain a s
  | .xstat d a => Sys2Proof.Machine.execXstat d a s
  | .meet d a b => Sys2Proof.Machine.execMeet d a b s
  | .part => Sys2Proof.Machine.execPart s
  | .peer d n now => Sys2Proof.Machine.execPeer d n now s
  | .peerv d n => Sys2Proof.Machine.execPeerv d n s
  | .rollNone d a b => Sys2Proof.Machine.execRollNone d a b s
  | .rollAdd d a b => Sys2Proof.Machine.execRollAdd d a b s
  | .rollMin d a b => Sys2Proof.Machine.execRollMin d a b s
  | .rollMax d a b => Sys2Proof.Machine.execRollMax d a b s
  | .rollUmin d a b => Sys2Proof.Machine.execRollUmin d a b s
  | .rollUmax d a b => Sys2Proof.Machine.execRollUmax d a b s
  | .rollAnd d a b => Sys2Proof.Machine.execRollAnd d a b s
  | .rollOr d a b => Sys2Proof.Machine.execRollOr d a b s
  | .rollXor d a b => Sys2Proof.Machine.execRollXor d a b s
  | .launch d a b => Sys2Proof.Machine.execLaunch d a b s
  | .tend => Sys2Proof.Machine.execTend s
  | .yield d => Sys2Proof.Machine.execYield d s
  | .sbind a => Sys2Proof.Machine.execSbind a s
  | .chbind n a => Sys2Proof.Machine.execChbind n a s
  | .emit a b => Sys2Proof.Machine.execEmit a b s
  | .wmk a b => Sys2Proof.Machine.execWmk a b s
  | .publ a => Sys2Proof.Machine.execPubl a s
  | .acct d a => Sys2Proof.Machine.execAcct d a s
  | .csrr d c => Sys2Proof.Machine.execCsrr d c s
  | .csrw d a c => Sys2Proof.Machine.execCsrw d a c s
  | .csrs d a c => Sys2Proof.Machine.execCsrs d a c s
  | .csrc d a c => Sys2Proof.Machine.execCsrc d a c s
  | .scall imm => Sys2Proof.Machine.execScall imm s
  | .tret => Sys2Proof.Machine.execTret s
  | .uiret => Sys2Proof.Machine.execUiret s
  | .sleep imm => Sys2Proof.Machine.execSleep imm s
  | .brk imm => Sys2Proof.Machine.execBrk imm s
  | .vadd d a b t k => Sys2Proof.Machine.execVadd d a b t k s
  | .vaddSat d a b t k => Sys2Proof.Machine.execVaddSat d a b t k s
  | .vsub d a b t k => Sys2Proof.Machine.execVsub d a b t k s
  | .vsubSat d a b t k => Sys2Proof.Machine.execVsubSat d a b t k s
  | .vmul d a b t k => Sys2Proof.Machine.execVmul d a b t k s
  | .vmulSat d a b t k => Sys2Proof.Machine.execVmulSat d a b t k s
  | .vfma d a b t k => Sys2Proof.Machine.execVfma d a b t k s
  | .vfms d a b t k => Sys2Proof.Machine.execVfms d a b t k s
  | .vmulh d a b t k => Sys2Proof.Machine.execVmulh d a b t k s
  | .vabs d a m t k => Sys2Proof.Machine.execVabs d a m t k s
  | .vmin d a b t k => Sys2Proof.Machine.execVmin d a b t k s
  | .vmax d a b t k => Sys2Proof.Machine.execVmax d a b t k s
  | .vneg d a m t k => Sys2Proof.Machine.execVneg d a m t k s
  | .vmov d a t k => Sys2Proof.Machine.execVmov d a t k s
  | .vand d a b t k => Sys2Proof.Machine.execVand d a b t k s
  | .vor d a b t k => Sys2Proof.Machine.execVor d a b t k s
  | .vxor d a b t k => Sys2Proof.Machine.execVxor d a b t k s
  | .vshr d a b t k => Sys2Proof.Machine.execVshr d a b t k s
  | .vshl d a b t k => Sys2Proof.Machine.execVshl d a b t k s
  | .vshlSat d a b t k => Sys2Proof.Machine.execVshlSat d a b t k s
  | .vshra d a b t k => Sys2Proof.Machine.execVshra d a b t k s
  | .vsel d a b t k => Sys2Proof.Machine.execVsel d a b t k s
  | .vcmpEq d a b t k => Sys2Proof.Machine.execVcmpEq d a b t k s
  | .vcmpNe d a b t k => Sys2Proof.Machine.execVcmpNe d a b t k s
  | .vcmpLt d a b t k => Sys2Proof.Machine.execVcmpLt d a b t k s
  | .vcmpLe d a b t k => Sys2Proof.Machine.execVcmpLe d a b t k s
  | .vbcast d a t k => Sys2Proof.Machine.execVbcast d a t k s
  | .vred d a o t k => Sys2Proof.Machine.execVred d a o t k s
  | .vcvt d a m t k => Sys2Proof.Machine.execVcvt d a m t k s
  | .vcvtSr d a m t k => Sys2Proof.Machine.execVcvtSr d a m t k s
  | .vperm d a b t k => Sys2Proof.Machine.execVperm d a b t k s
  | .vslide d a b t k => Sys2Proof.Machine.execVslide d a b t k s
  | .vzip d a b t k => Sys2Proof.Machine.execVzip d a b t k s
  | .vunzip d a b t k => Sys2Proof.Machine.execVunzip d a b t k s
  | .vdot d a b t k => Sys2Proof.Machine.execVdot d a b t k s
  | .vplane d a p h u t k => Sys2Proof.Machine.execVplane d a p h u t k s
  | .vqnt d a b t k => Sys2Proof.Machine.execVqnt d a b t k s
  | .vdqnt d a b t k => Sys2Proof.Machine.execVdqnt d a b t k s
  | .vrcp d a t k => Sys2Proof.Machine.execVrcp d a t k s
  | .vrsq d a t k => Sys2Proof.Machine.execVrsq d a t k s
  | .vex2 d a t k => Sys2Proof.Machine.execVex2 d a t k s
  | .vlg2 d a t k => Sys2Proof.Machine.execVlg2 d a t k s
  | .vsin d a t k => Sys2Proof.Machine.execVsin d a t k s
  | .vtanh d a t k => Sys2Proof.Machine.execVtanh d a t k s
  | .vld d a t k => Sys2Proof.Machine.execVld d a t k s
  | .vst d a t k => Sys2Proof.Machine.execVst d a t k s
  | .vlds d a b t k => Sys2Proof.Machine.execVlds d a b t k s
  | .vsts d a b t k => Sys2Proof.Machine.execVsts d a b t k s
  | .vgthr d a b t k => Sys2Proof.Machine.execVgthr d a b t k s
  | .vsctr d a b t k => Sys2Proof.Machine.execVsctr d a b t k s
  | .kand d a b => Sys2Proof.Machine.execKand d a b s
  | .kor d a b => Sys2Proof.Machine.execKor d a b s
  | .knot d a => Sys2Proof.Machine.execKnot d a s
  | .kpopc d a => Sys2Proof.Machine.execKpopc d a s
  | .setfmt n a => Sys2Proof.Machine.execSetfmt n a s
  | .repf l a b => Sys2Proof.Machine.execRepf l a b s
  | .frameReplayPerformance sid => Sys2Proof.Machine.execFrameReplayPerformance sid s
  | .sequencerBind ci => Sys2Proof.Machine.execSequencerBind ci s
  | .laneGroupGrant cl => Sys2Proof.Machine.execLaneGroupGrant cl s
  | .vectorSlotGrant cl => Sys2Proof.Machine.execVectorSlotGrant cl s
  | .scalarSlotGrant cl => Sys2Proof.Machine.execScalarSlotGrant cl s
  | .engineSlotGrant cl => Sys2Proof.Machine.execEngineSlotGrant cl s
  | .matrixGrant cl => Sys2Proof.Machine.execMatrixGrant cl s
  | .mmaStep ci => Sys2Proof.Machine.execMmaStep ci s
  | .portRetire ci => Sys2Proof.Machine.execPortRetire ci s
  | .selfTestProduct cl mismatch fails => Sys2Proof.Machine.execSelfTestProduct cl mismatch fails s
  | .periodicSelfTestDue cl => Sys2Proof.Machine.execPeriodicSelfTestDue cl s
  | .subarrayRetest cl n fails => Sys2Proof.Machine.execSubarrayRetest cl n fails s
  | .icacheFill sid => Sys2Proof.Machine.execIcacheFill sid s
  | .globalLoadReturn sid => Sys2Proof.Machine.execGlobalLoadReturn sid s
  | .translationRequest sid => Sys2Proof.Machine.execTranslationRequest sid s
  | .translationWalkComplete sid => Sys2Proof.Machine.execTranslationWalkComplete sid s
  | .restanteRelease id => Sys2Proof.Machine.execRestanteRelease id s
  | .releaseTranslationReturn id => Sys2Proof.Machine.execReleaseTranslationReturn id s
  | .sliceRequestAccept id => Sys2Proof.Machine.execSliceRequestAccept id s
  | .farCopyInvalidation n => Sys2Proof.Machine.execFarCopyInvalidation n s
  | .scMarkerReturn sid m => Sys2Proof.Machine.execScMarkerReturn sid m s
  | .atomicAnswerReturn id => Sys2Proof.Machine.execAtomicAnswerReturn id s
  | .storeAcknowledge id => Sys2Proof.Machine.execStoreAcknowledge id s
  | .hostWindowWriteAck id => Sys2Proof.Machine.execHostWindowWriteAck id s
  | .deferredTrap sid => Sys2Proof.Machine.execDeferredTrap sid s
  | .userLevelInterrupt sid => Sys2Proof.Machine.execUserLevelInterrupt sid s
  | .engineCompletionEntry ci xid => Sys2Proof.Machine.execEngineCompletionEntry ci xid s
  | .xcopyStart ci xid => Sys2Proof.Machine.execXcopyStart ci xid s
  | .xcopyRow ci xid => Sys2Proof.Machine.execXcopyRow ci xid s
  | .tagCredit n => Sys2Proof.Machine.execTagCredit n s
  | .subscriptionSetup n => Sys2Proof.Machine.execSubscriptionSetup n s
  | .loaderTileSend n => Sys2Proof.Machine.execLoaderTileSend n s
  | .tileFirstByteArrival n ci => Sys2Proof.Machine.execTileFirstByteArrival n ci s
  | .bufferFreeSignal ci ring tag => Sys2Proof.Machine.execBufferFreeSignal ci ring tag s
  | .unsubscribeAtLoader id => Sys2Proof.Machine.execUnsubscribeAtLoader id s
  | .drainStart n => Sys2Proof.Machine.execDrainStart n s
  | .storerTakeTile n => Sys2Proof.Machine.execStorerTakeTile n s
  | .storerTilePerformed n => Sys2Proof.Machine.execStorerTilePerformed n s
  | .streamEngineEntry ci e => Sys2Proof.Machine.execStreamEngineEntry ci e s
  | .streamEngineComplete ci e => Sys2Proof.Machine.execStreamEngineComplete ci e s
  | .commandFetch q => Sys2Proof.Machine.execCommandFetch q s
  | .completionRecordWrite q => Sys2Proof.Machine.execCompletionRecordWrite q s
  | .launchCommand q n => Sys2Proof.Machine.execLaunchCommand q n s
  | .bindStream q n => Sys2Proof.Machine.execBindStream q n s
  | .sourceMark q n => Sys2Proof.Machine.execSourceMark q n s
  | .preempt q n => Sys2Proof.Machine.execPreempt q n s
  | .resume q n => Sys2Proof.Machine.execResume q n s
  | .fenceCommand q n => Sys2Proof.Machine.execFenceCommand q n s
  | .register q n => Sys2Proof.Machine.execRegister q n s
  | .partCreate q n => Sys2Proof.Machine.execPartCreate q n s
  | .partDestroy q n => Sys2Proof.Machine.execPartDestroy q n s
  | .partReset q n => Sys2Proof.Machine.execPartReset q n s
  | .assign q n => Sys2Proof.Machine.execAssign q n s
  | .partResetFreeze p => Sys2Proof.Machine.execPartResetFreeze p s
  | .partResetComplete p => Sys2Proof.Machine.execPartResetComplete p s
  | .negativeAcknowledge n => Sys2Proof.Machine.execNegativeAcknowledge n s
  | .launchDispatch p => Sys2Proof.Machine.execLaunchDispatch p s
  | .launchAging p lid => Sys2Proof.Machine.execLaunchAging p lid s
  | .gangPlacement p lid => Sys2Proof.Machine.execGangPlacement p lid s
  | .placementToken p => Sys2Proof.Machine.execPlacementToken p s
  | .stealRequest n => Sys2Proof.Machine.execStealRequest n s
  | .stealAnswer n => Sys2Proof.Machine.execStealAnswer n s
  | .stealRetry cl lid => Sys2Proof.Machine.execStealRetry cl lid s
  | .poolPlacement cl => Sys2Proof.Machine.execPoolPlacement cl s
  | .taskFirstCycle sid => Sys2Proof.Machine.execTaskFirstCycle sid s
  | .launchCompletion p lid => Sys2Proof.Machine.execLaunchCompletion p lid s
  | .meetNoticeArrival n => Sys2Proof.Machine.execMeetNoticeArrival n s
  | .pairRetry cl => Sys2Proof.Machine.execPairRetry cl s
  | .departureOrder n => Sys2Proof.Machine.execDepartureOrder n s
  | .envelopeArrival n => Sys2Proof.Machine.execEnvelopeArrival n s
  | .returnLuggageArrival n => Sys2Proof.Machine.execReturnLuggageArrival n s
  | .meetWithdrawal sid => Sys2Proof.Machine.execMeetWithdrawal sid s
  | .withdrawalArrival n => Sys2Proof.Machine.execWithdrawalArrival n s
  | .directoryAnswerArrival n => Sys2Proof.Machine.execDirectoryAnswerArrival n s
  | .rollArrival n => Sys2Proof.Machine.execRollArrival n s
  | .rollRelease n => Sys2Proof.Machine.execRollRelease n s
  | .taintHorizon sid => Sys2Proof.Machine.execTaintHorizon sid s
  | .waitTimeout sid => Sys2Proof.Machine.execWaitTimeout sid s
  | .twaitTimeout sid => Sys2Proof.Machine.execTwaitTimeout sid s
  | .sleepTimeout sid => Sys2Proof.Machine.execSleepTimeout sid s
  | .debugRelease sid => Sys2Proof.Machine.execDebugRelease sid s
  | .contextSave sid => Sys2Proof.Machine.execContextSave sid s
  | .contextRestore n => Sys2Proof.Machine.execContextRestore n s
  | .checkpoint => Sys2Proof.Machine.execCheckpoint s
  | .undoFree cl => Sys2Proof.Machine.execUndoFree cl s
  | .strikeDetection cl => Sys2Proof.Machine.execStrikeDetection cl s
  | .rollbackRestoreComplete cl => Sys2Proof.Machine.execRollbackRestoreComplete cl s
  | .accountRecordWrite ci => Sys2Proof.Machine.execAccountRecordWrite ci s
  | .acctRidxRead ci => Sys2Proof.Machine.execAcctRidxRead ci s
  | .streamRecordArrival p n => Sys2Proof.Machine.execStreamRecordArrival p n s
  | .watermarkMark p n => Sys2Proof.Machine.execWatermarkMark p n s
  | .sourceIdle p n src => Sys2Proof.Machine.execSourceIdle p n src s
  | .windowLaunch p n => Sys2Proof.Machine.execWindowLaunch p n s
  | .amendLaunch p n w => Sys2Proof.Machine.execAmendLaunch p n w s
  | .recordPortRefill sid => Sys2Proof.Machine.execRecordPortRefill sid s
  | .publication p n => Sys2Proof.Machine.execPublication p n s
  | .flitSend m => Sys2Proof.Machine.execFlitSend m s
  | .flitArrival m crcOk => Sys2Proof.Machine.execFlitArrival m crcOk s
  | .flitReplay m => Sys2Proof.Machine.execFlitReplay m s
  | .flitAcknowledge m => Sys2Proof.Machine.execFlitAcknowledge m s
  | .laneFailure m => Sys2Proof.Machine.execLaneFailure m s
  | .retrainComplete m ok => Sys2Proof.Machine.execRetrainComplete m ok s
  | .replayReissue m lo hi => Sys2Proof.Machine.execReplayReissue m lo hi s
  | .remoteRequestArrival n => Sys2Proof.Machine.execRemoteRequestArrival n s
  | .remoteResponseArrival n => Sys2Proof.Machine.execRemoteResponseArrival n s
  | .hostWrite aperture addr data => Sys2Proof.Machine.execHostWrite aperture addr data s
  | .hostRead aperture addr => Sys2Proof.Machine.execHostRead aperture addr s
  | .qpidxWrite q v => Sys2Proof.Machine.execQpidxWrite q v s
  | .queueEnable q en => Sys2Proof.Machine.execQueueEnable q en s
  | .cqridxWrite q v => Sys2Proof.Machine.execCqridxWrite q v s
  | .xlinv p v => Sys2Proof.Machine.execXlinv p v s
  | .errorRecordClear p die n => Sys2Proof.Machine.execErrorRecordClear p die n s
  | .rtctlWrite slice v => Sys2Proof.Machine.execRtctlWrite slice v s
  | .clshareWrite cl v => Sys2Proof.Machine.execClshareWrite cl v s
  | .featctlGo => Sys2Proof.Machine.execFeatctlGo s
  | .deviceRegisterWrite p off v => Sys2Proof.Machine.execDeviceRegisterWrite p off v s
  | .monitorVerify sigOk version => Sys2Proof.Machine.execMonitorVerify sigOk version s
  | .hbmTraining ok => Sys2Proof.Machine.execHbmTraining ok s
  | .linkTraining dieOk hostOk => Sys2Proof.Machine.execLinkTraining dieOk hostOk s
  | .clusterSelfTest failed => Sys2Proof.Machine.execClusterSelfTest failed s
  | .serviceFirmwareStart sigOk version => Sys2Proof.Machine.execServiceFirmwareStart sigOk version s
  | .startFailed reason => Sys2Proof.Machine.execStartFailed reason s
  | .stageTimeout => Sys2Proof.Machine.execStageTimeout s
  | .monitorImageLoad sigOk version => Sys2Proof.Machine.execMonitorImageLoad sigOk version s
  | .attestation nonce => Sys2Proof.Machine.execAttestation nonce s
  | .powerOn => Sys2Proof.Machine.execPowerOn s
  | .hostReset => Sys2Proof.Machine.execHostReset s
  | .monitorReset => Sys2Proof.Machine.execMonitorReset s
  | .watchdog => Sys2Proof.Machine.execWatchdog s
  | .thermal => Sys2Proof.Machine.execThermal s
  | .supply => Sys2Proof.Machine.execSupply s
  | .infraUncorrected => Sys2Proof.Machine.execInfraUncorrected s
  | .illegalInstruction w => Sys2Proof.Machine.execIllegalInstruction w s
  | .fetchFault code => Sys2Proof.Machine.execFetchFault code s
  | .launchIdAnswer sid => Sys2Proof.Machine.execLaunchIdAnswer sid s
  | .visitorSlotFree sid => Sys2Proof.Machine.execVisitorSlotFree sid s
  | .responseAcknowledgement n => Sys2Proof.Machine.execResponseAcknowledgement n s
  | .hbmEccError addr corrected syndrome => Sys2Proof.Machine.execHbmEccError addr corrected syndrome s
  | .sramEccCorrection engine die parts syndrome => Sys2Proof.Machine.execSramEccCorrection engine die parts syndrome s
  | .sliceUncorrectedError slice => Sys2Proof.Machine.execSliceUncorrectedError slice s

end Sys2Proof.Machine
end

