-- ==== Sys2Proof/Machine/Schedule.lean ====
section
/-!
DEFINITION. What happens next: which context of a core issues (R63), what the others are charged (R65 to R67), and which step of another agent is
due. Of the orders the spec leaves open this takes one; the agenda of the state takes any other (log 3).
-/

namespace Sys2Proof.Machine

/-! What one context does next. -/

/-- The state an answer goes on with. -/
def outState (s : State) (o : Out) : State :=
  match o with
  | .next t => t
  | _ => s

/-- Whether a cause is a condition of the context itself, which goes before every other (R65, R73). -/
def Cause.ownCondition (k : Cause) : Bool :=
  match k with
  | .frozen => true
  | .rollback => true
  | .preempted => true
  | .travel => true
  | .meetWait => true
  | .rollWait => true
  | .sleep => true
  | .idle => true
  | _ => false

/-- What a context waits for by time in this cycle (R109, R110, R129). -/
def Ctx.paused (c : Ctx) (now : Nat) : Option Cause :=
  match c.pause with
  | some (k, t) => if now < t then some k else none
  | none => none

/-- The cause that keeps a context from issuing its next instruction, whatever it is: a condition of its own, an account stall, a redirected fetch
or the end of its last wait (R65). -/
def State.issueBlock (s : State) (sid : Nat) : Option Cause :=
  let c := s.ctx sid
  let p := c.paused s.now
  if (s.clu (slotCluster sid)).restore.isSome then some .rollback
  else if c.heldForSave then some .preempted
  else if c.act != .running && c.act != .slept && !(c.asleep && s.sleepOver sid) then c.restCause
  else if s.gangHeld sid then some .preempted
  else if p.any Cause.ownCondition then p
  else if (s.core (slotCore sid)).stall.isSome then some .acctFull
  else p

/-- Whether a context's next step needs a line that its core has not cached. -/
def State.lineMissing (s : State) (sid : Nat) : Bool :=
  match (s.ctx sid).cap with
  | some f => decide (f.words.length ≠ f.len) && (f.jump.all fun j => j.1 != f.words.length) && (s.fetch sid).isNone
  | none => (s.fetch sid).isNone

/-- The step of a context that captures a frame: its next line is filled, a word that fails traps, or the capture goes on (R164). -/
def State.captureStep (s : State) (sid : Nat) : Out :=
  if s.lineMissing sid then execIcacheFill sid s else if s.capBad sid then .next (s.capStep sid) else .next (s.capRun sid 18)

/-- The next instruction of a context: its word is fetched, or its line filled; a word that decodes is executed, and any other is illegal (R20,
R89 to R91, R110). -/
def State.fetchStep (s : State) (sid : Nat) : Out :=
  match s.fetch sid with
  | none => match s.fetchFaultOf sid with
    | some t => execFetchFault (BitVec.ofNat 16 t.code) s
    | none => execIcacheFill sid s
  | some w => match decode w with
    | some i => exec i (s.touch sid)
    | none => execIllegalInstruction w (s.touch sid)

/-- The state with a context as the one that runs, its charge not yet known: IDLE is charged to no context (Table 04-1). -/
def State.readied (s : State) (sid : Nat) : State := { s.modCtx sid fun c => { c with charge := .idle } with cur := sid }

/-- Whether a context's turn that gives a state is only a wait for a cause. -/
def State.onlyWaits (s : State) (sid : Nat) (t : State) : Bool :=
  let u := t.modCtx sid fun c => { c with charge := .idle }
  decide ((t.ctx sid).charge ≠ .issue) && (decide (u = s.readied sid) || decide (u = (s.readied sid).touch sid))

/-- What a context that nothing keeps from issuing does next, an earlier instruction's translation apart. -/
def State.freeTurn (s : State) (sid : Nat) : Out :=
  if (s.ctx sid).cap.isSome then (s.readied sid).captureStep sid else (s.readied sid).fetchStep sid

/-- What keeps a context of a core whose run records find no entry in the restante buffer (R361); DEDUCED (log 14): every context of the core that
writes records. -/
def State.recordWait (s : State) (sid : Nat) : Option Cause :=
  if (s.ctx sid).acctOn && s.acctq.any fun a => !a.entered && a.ci == slotCore sid then some .restanteFull else none

/-- What a deferred trap that is due in user mode waits for, while nothing of its context issues: the matrix port is drained first, and a meeting is
parted from (R172, R222, R325). A replaying frame and its followers go on (R166). -/
def State.deferWait (s : State) (sid : Nat) : Option Cause :=
  let c := s.ctx sid
  if !c.fault.pending || c.mode || c.replay.isSome || c.cap.isSome then none
  else (s.trapBlock sid).or (if c.inmeet && c.meet.any (s.partnerTouches sid) then some .fence else none)

/-- What keeps every instruction of a context for the time being. -/
def State.turnWait (s : State) (sid : Nat) : Option Cause := ((s.deferWait sid).or (s.gate sid)).or (s.recordWait sid)

/-- What a context that nothing keeps from issuing does next. While a translation or the checks of an earlier instruction keep every later one, it
waits (R117, R123, R158), and while its core's records find no room (R361), for what its own fields await if they await something (R65); a line is filled meanwhile. -/
def State.turn (s : State) (sid : Nat) : Out :=
  match s.turnWait sid with
  | none => s.freeTurn sid
  | some k =>
    if s.lineMissing sid && (s.fetchFaultOf sid).isNone then s.freeTurn sid
    else if s.onlyWaits sid (outState s (s.freeTurn sid)) then s.freeTurn sid
    else .next ((s.readied sid).modCtx sid fun c => { c with charge := k })

/-! Which context issues. -/

/-- The cause for which a context does not issue in this cycle; none where its next instruction can (R63, R65). -/
def State.waitOf (s : State) (sid : Nat) : Option Cause :=
  match s.issueBlock sid with
  | some k => some k
  | none => match s.turn sid with
    | .next t =>
      let k := (t.ctx sid).charge
      if k = .issue then none else some (if k = .idle then .depend else k)
    | _ => none

/-- The contexts of a core that are ready (R63). -/
def State.readyOf (s : State) (ci : Nat) : List Nat :=
  (s.coreOrder ci).filter fun sid => (s.ctx sid).onCore && (s.waitOf sid).isNone

/-- Whether a context may take its core's slot of this cycle: nothing has issued there, nothing keeps it from issuing, and no context that is ready goes
before it (R63). -/
def State.mayIssue (s : State) (sid : Nat) : Bool :=
  let ci := slotCore sid
  (s.issueBlock sid).isNone && !(s.served.any fun e => e.1 == ci) &&
    s.oldestOf ((s.coreOrder ci).filter fun x => x == sid || ((s.ctx x).onCore && (s.waitOf x).isNone)) == some sid

/-- The contexts of a core that are ready besides one, which lose the slot to it (R67). -/
def State.losers (s : State) (sid : Nat) : List Nat := (s.readyOf (slotCore sid)).filter fun x => x != sid

/-- The state after a context's turn: an issue takes its core's slot of this cycle, which those ready with it lose, and moves the round-robin
pointer past a resident (R63, R67). -/
def State.closeTurn (s : State) (sid : Nat) (pc : BitVec 56) (losers : List Nat) : State :=
  let ci := slotCore sid
  if (s.ctx sid).charge = .issue then
    let s1 := if isVisitor sid then s else s.modCore ci fun k => { k with rr := 1 - slotCode sid % 2 }
    { s1 with served := s1.served ++ [(ci, sid, pc)], lost := s1.lost ++ losers }
  else s

/-- The step of a context, as the model's machine takes it. -/
def State.stepCtx (s : State) (sid : Nat) : Out :=
  match s.turn sid with
  | .next t => .next (t.closeTurn sid (s.ctx sid).pc (s.losers sid))
  | o => o

/-- What a context does in this cycle without issuing: it fills a line, captures words, or goes on with what an instruction that waits has begun. -/
def State.asideOf (s : State) (sid : Nat) : Option State :=
  if (s.issueBlock sid).isSome then none
  else match s.turn sid with
    | .next t => if (t.ctx sid).charge = .issue || s.onlyWaits sid t then none else some t
    | _ => none

/-- The cores that hold a context and have not issued in this cycle, by number. -/
def State.coresLeft (s : State) : List Nat :=
  (s.ctxs.filterMap fun e => if e.2.onCore && !s.served.any fun x => x.1 == slotCore e.1 then some (slotCore e.1) else none).eraseDups

/-- The state after the next thing that a context does without issuing, on a core where none has issued in this cycle. -/
def State.aside (s : State) : Option State :=
  s.coresLeft.findSome? fun ci => ((s.coreOrder ci).filter fun sid => (s.ctx sid).onCore).findSome? s.asideOf

/-- The context that issues next in this cycle: of the first core that has a ready one, the one that R63 chooses. -/
def State.pick (s : State) : Option Nat := s.coresLeft.findSome? fun ci => s.oldestOf (s.readyOf ci)

/-! The end of a cycle. -/

/-- The cause of a context that did not issue in the cycle that ends (R65, R67, R73). -/
def State.idleCause (s : State) (sid : Nat) : Cause :=
  let k := if s.lost.contains sid then .slotLost else (s.waitOf sid).getD .slotLost
  if (s.core (slotCore sid)).stall.isSome && !k.ownCondition then .acctFull else k

/-- Every context that did not issue gets its cause. -/
def State.setCharges (s : State) : State :=
  { s with ctxs := s.ctxs.map fun e => (e.1,
      if e.2.onCore && !s.served.any fun x => x.2.1 == e.1 then { e.2 with charge := s.idleCause e.1 } else e.2) }

/-- The pool of a cluster as its dispatcher evaluates it at the start of a cycle: at most `n` entries, the oldest first, take the slots that are
free at that moment, or their contexts begin to be restored (R250, R330). -/
def State.evalPool (s : State) (cl : Nat) (older : Bool) : Nat → State
  | 0 => s
  | n + 1 => match s.poolPick cl older with
    | none => s
    | some (e, ms) => (match e.saved with
      | some k => outState s (execContextRestore k s)
      | none => s.placeEntry cl e ms).evalPool cl older n

/-- The pools evaluated at the start of a cycle, but in clusters that restore (R250, R360). -/
def State.evalPools (s : State) (older : Bool) : State :=
  ((s.clus.filter fun k => !k.2.pool.isEmpty && k.2.restore.isNone).map Prod.fst).foldl (fun s cl => s.evalPool cl older 8) s

/-- The spanning gangs of a partition take slots and are placed, until the one whose turn it is must wait (R314). -/
def State.evalToken (s : State) (p : Nat) : Nat → State
  | 0 => s
  | n + 1 =>
    let t := outState s (execPlacementToken p s)
    if (t.part p).token.isSome then t else if (s.spanNext p).isNone then t else t.evalToken p n

/-- What the dispatchers place at the start of a cycle (R250): gangs older than the spanning gang whose turn it is, then it, as it may reserve the
slots that are free, then the others (R311, R314). -/
def State.place (s0 : State) : State :=
  let s := if s0.saved.isEmpty then s0 else s0.poolWaiting
  let s1 := s.evalPools true
  ((s1.parts.map Prod.fst).foldl (fun s p => s.evalToken p 16) s1).evalPools false

/-- The cycle ends and the next begins: the storers see the tiles whose FULL is released, and the pools are evaluated (R250, R288); the first
cycle after a package reset reaches stage 1 of the start (R384). -/
def State.endCycle (s : State) : State := s.reachStage.setCharges.tick.copyReleased.place

/-! Which steps of other agents may be due. -/

/-- The meaning of an event row. -/
abbrev Event := State → Out

/-- Events that are due only at the start of a cycle, before any context issues in it: what a shared unit grants or binds in a cycle is what stood
there when the cycle began. -/
def State.atStart (s : State) (l : List Event) : List Event := if s.served.isEmpty then l else []

/-- Whether a cluster is restoring, or fenced: what happens inside it waits, or has stopped (R360, R368). -/
def State.restoring (s : State) (cl : Nat) : Bool := (s.clu cl).restore.isSome || (s.clu cl).fenced

/-- The events of a memory request. -/
def State.reqEvents (s : State) (r : Req) : List Event :=
  let inside := s.restoring (slotCluster r.src)
  match r.stage with
  | .translating => if inside then [] else [execTranslationRequest r.sid]
  | .walking => if inside then [] else [execTranslationWalkComplete r.sid]
  | .faulted _ => if inside then [] else [execTranslationWalkComplete r.sid]
  | .ready => [execReleaseTranslationReturn r.id]
  | .held => [execRestanteRelease r.id]
  | .released => [execReleaseTranslationReturn r.id]
  | .relWalk => [execTranslationWalkComplete r.sid]
  | .sent => if r.arr < s.now then [execSliceRequestAccept r.id, execHostWindowWriteAck r.id, execUnsubscribeAtLoader r.id] else []
  | .performed => (if inside then [] else [execGlobalLoadReturn r.sid, execAtomicAnswerReturn r.id]) ++ [execStoreAcknowledge r.id]

/-- A value put into a list behind those that it does not go before. -/
def insertBefore {α : Type} (before : α → α → Bool) (x : α) : List α → List α
  | [] => [x]
  | y :: l => if before x y then x :: y :: l else y :: insertBefore before x l

/-- A list in order; values of which neither goes before the other keep their places. -/
def sortBefore {α : Type} (before : α → α → Bool) (l : List α) : List α := l.foldl (fun l x => insertBefore before x l) []

/-- What waits at the ports of the slices: the cycle in which it reached them, its rank among what reached them then, and its events (R278). -/
abbrev AtPort := Nat × Nat × List Event

/-- Whether one goes before another at a port (R278). -/
def AtPort.before (x y : AtPort) : Bool := decide (x.1 < y.1) || (decide (x.1 = y.1) && decide (x.2.1 < y.2.1))

/-- The event of a message. -/
def Msg.event (m : Msg) : Event :=
  match m.body with
  | .luggage _ _ _ _ => execReturnLuggageArrival m.id
  | .tile n ci _ => execTileFirstByteArrival n ci
  | .notice _ _ => execMeetNoticeArrival m.id
  | .arrival _ _ => execRollArrival m.id
  | .withdrawal _ _ => execWithdrawalArrival m.id
  | .answer _ _ _ => execDirectoryAnswerArrival m.id
  | .order _ _ _ _ _ _ => execDepartureOrder m.id
  | .envelope _ _ _ => execEnvelopeArrival m.id
  | .release _ _ _ _ => execRollRelease m.id
  | .steal _ _ _ _ => execStealRequest m.id
  | .stolen _ _ _ _ => execStealAnswer m.id

/-- The cluster inside which a message ends, where a restore makes it wait. -/
def Msg.into (m : Msg) : Option Nat :=
  match m.body with
  | .luggage home _ _ _ => some (slotCluster home)
  | .tile _ ci _ => some (coreCluster ci)
  | .envelope v _ _ => some (slotCluster v)
  | _ => none

/-- What orders messages that arrive in one cycle: withdrawals first, then the sender's physical core (R257, R265). -/
def Msg.rank (m : Msg) : Nat :=
  match m.body with
  | .withdrawal _ c => corePhysical (slotCore c.sid)
  | .notice _ c => 10000 + corePhysical (slotCore c.sid)
  | .arrival _ c => 10000 + corePhysical (slotCore c.sid)
  | _ => 20000

/-- Whether a message goes before another. -/
def Msg.before (m k : Msg) : Bool := decide (m.at_ < k.at_) || (decide (m.at_ = k.at_) && decide (m.rank < k.rank))

/-- The events of the messages that have arrived, in their order. DESIGN CHOICE (log 10): where the call of one must wait at the directory, which the
spec does not settle for what follows it, later messages are taken meanwhile; only the withdrawal of that call itself stays behind it. -/
def State.msgEvents (s : State) : List Event :=
  (sortBefore Msg.before (s.net.filter fun m => decide (m.at_ ≤ s.now) && !m.into.any fun cl => (s.clu cl).restore.isSome)).map Msg.event

/-- The events of a context: its waits that end, and what it takes before its next instruction. -/
def State.ctxEvents (s : State) (sid : Nat) (c : Ctx) : List Event :=
  if s.restoring (slotCluster sid) then []
  else
    (match c.act with
     | .placed _ => [execTaskFirstCycle sid]
     | .waitWord _ _ => [execWaitTimeout sid]
     | .waitTag _ _ _ _ => [execTwaitTimeout sid]
     | .sleeping _ => [execSleepTimeout sid]
     | .parked => [execMeetWithdrawal sid]
     | _ => []) ++
    (if c.taints.isEmpty then [] else [execTaintHorizon sid]) ++
    (c.markers.map fun m => execScMarkerReturn sid m.1) ++
    (if c.idWait.isEmpty then [] else [execLaunchIdAnswer sid]) ++
    (if c.win.isSome then [execRecordPortRefill sid] else []) ++
    (if c.preemptReq || c.act == .saved then [execContextSave sid] else []) ++
    (if c.fault.pending then [execDeferredTrap sid] else []) ++
    (if c.uints.isEmpty then [] else [execUserLevelInterrupt sid]) ++
    (if c.replay.isSome && !s.frameLanes (slotCore sid) then s.atStart [execFrameReplayPerformance sid] else [])

/-- The events of a transfer. -/
def Xfer.events (x : Xfer) (ci : Nat) : List Event :=
  let n := ci * 2 ^ 32 + x.xid.toNat
  (match x.kind with
   | .copy => [execXcopyStart ci x.xid.toNat]
   | .sub => [execSubscriptionSetup n]
   | .drain => [execDrainStart n]) ++ [execEngineCompletionEntry ci x.xid.toNat]

/-- The binding at the head of a core's sequencer. All cores' heads bind before the lane-group arbiter and the vector slots see the heads of a cycle
(R242, R245). -/
def State.bindEvents (s : State) (ci : Nat) (k : CoreSt) : List Event :=
  if s.restoring (coreCluster ci) || k.seq.isEmpty then [] else s.atStart [execSequencerBind ci]

/-- The events of a core, its engines' work apart. -/
def State.coreEvents (s : State) (ci : Nat) (k : CoreSt) : List Event :=
  if s.restoring (coreCluster ci) then []
  else
    (k.vout.map fun e => execGlobalLoadReturn e.sid) ++
    (k.xfers.flatMap fun x => x.events ci) ++
    (k.frees.map fun f => execBufferFreeSignal ci f.1 f.2.1) ++
    (k.seng.map fun e => execStreamEngineComplete ci e.1) ++
    (if k.ridxAsk || (k.stall.isSome && s.now % Config.interval == 0) then [execAcctRidxRead ci] else [])

/-- What the engines of a core ask of the slices' ports, each with its rank; an account ring is written also while its cluster restores. -/
def State.engineAsks (s : State) (ci : Nat) : List AtPort :=
  let k := s.core ci
  let asks (n : Nat) (l : List Event) : List AtPort := if l.isEmpty then [] else [(s.now, engineRank ci n, l)]
  (if s.restoring (coreCluster ci) then []
   else
    asks 0 ((k.xfers.filter fun x => x.kind == .copy).map fun x => execXcopyRow ci x.xid.toNat) ++
    asks 1 ((s.drains.filter fun d => d.ci == ci).map fun d => execStorerTakeTile d.n) ++
    (k.seng.flatMap fun e => asks (2 + e.1) [execStreamEngineEntry ci e.1]) ++
    asks 6 ((s.subs.filter fun b => b.ci == ci).map fun b => execLoaderTileSend b.n)) ++
  asks 7 ((s.acctq.filter fun a => a.ci == ci).map fun a => execAccountRecordWrite a.ci)

/-- Everything that waits at the ports, in the order in which they take it: what was left over from earlier cycles first, then the cores' requests, the
engines', and those of the die link (R278). -/
def State.portEvents (s : State) : List Event :=
  let reqs : List AtPort := (s.reqs.filter fun r => r.stage == .sent).map fun r => (r.arr + 1, r.rank, s.reqEvents r)
  let links : List AtPort := (s.arrived.filter fun t => t.resp.isNone).map fun t => (t.at_, linkRank (t.tag / 2 ^ 12 % 8), [execRemoteRequestArrival t.n])
  let cores := (s.cores.map Prod.fst ++ s.drains.map Drain.ci ++ s.subs.map Sub.ci ++ s.acctq.map AcctRec.ci).eraseDups
  (sortBefore AtPort.before (reqs ++ links ++ cores.flatMap s.engineAsks)).flatMap fun x => x.2.2

/-- The clears of records that are due: they go before whatever may write a record in the same cycle (R373). -/
def State.clearEvents (s : State) : List Event :=
  ((s.reqs.filter fun r => r.stage == .sent && r.clearsRecord).flatMap s.reqEvents) ++
  ((s.arrived.filter fun t => t.resp.isNone && (s.req t.req).any Req.clearsRecord).map fun t => execRemoteRequestArrival t.n)

/-- The events of a cluster. -/
def State.cluEvents (s : State) (cl : Nat) (c : Cluster) : List Event :=
  if c.fenced && c.restore.isNone then []
  else if c.restore.isSome then (if c.restore.any fun r => decide (r.at_ + 1024 ≤ s.now) then [execRollbackRestoreComplete cl] else [])
  else
    ((List.range 4).flatMap fun n => if (s.core (4 * cl + n)).port.isEmpty then [] else [execMmaStep (4 * cl + n), execPortRetire (4 * cl + n)]) ++
    s.atStart [execScalarSlotGrant cl, execVectorSlotGrant cl, execLaneGroupGrant cl, execEngineSlotGrant cl, execMatrixGrant cl] ++
    (match c.arr.job with
     | some (.test _) => [execSelfTestProduct cl false 0]
     | some (.retest n) => [execSubarrayRetest cl (BitVec.ofNat 3 n) false]
     | _ => []) ++
    (if 256 ≤ c.arr.work || c.arr.cover.isSome then [execPeriodicSelfTestDue cl] else []) ++
    (if c.undo.isEmpty then [] else [execUndoFree cl]) ++
    c.deques.map fun d => execStealRetry cl d.lid

/-- The event of a command (Table 18-3). -/
def Cmd.events (c : Cmd) (q : Nat) : List Event :=
  match c.op with
  | 1 => [execLaunchCommand q c.n]
  | 2 => [execBindStream q c.n]
  | 3 => [execSourceMark q c.n]
  | 4 => [execPreempt q c.n]
  | 5 => [execResume q c.n]
  | 6 => [execFenceCommand q c.n]
  | 7 => [execRegister q c.n]
  | 0x10 => [execPartCreate q c.n]
  | 0x11 => [execPartDestroy q c.n]
  | 0x12 => [execPartReset q c.n]
  | 0x13 => [execAssign q c.n]
  | _ => []

/-- The events of a queue. -/
def State.queueEvents (q : Nat) (k : Queue) : List Event := [execCommandFetch q] ++ (k.cmds.flatMap fun c => c.events q) ++ [execCompletionRecordWrite q]

/-- What a stream's sources do at the end of a cycle, after its arrival has been taken (R336, R354). -/
def Stream.idles (t : Stream) (p n : Nat) : List Event := (List.range ((t.bound.map Binding.nsrc).getD 0)).map fun i => execSourceIdle p n i

/-- The events of a stream. -/
def Stream.events (t : Stream) (p n : Nat) : List Event :=
  [execStreamRecordArrival p n, execWatermarkMark p n, execPublication p n, execWindowLaunch p n] ++ t.wins.map fun x => execAmendLaunch p n x.w

/-- The events of a partition. -/
def State.partEvents (s : State) (p : Nat) (t : Part) : List Event :=
  (if t.reset.isSome then [execPartResetFreeze p, execPartResetComplete p] else []) ++
  ((s.launches.filter fun l => l.part == p && !l.active).map fun l => execLaunchAging p l.lid) ++ [execLaunchDispatch p] ++
  ((s.launches.filter fun l => l.part == p && l.active).flatMap fun l => [execGangPlacement p l.lid, execLaunchCompletion p l.lid])

/-- The events of a link direction, whose flits arrive whole unless the agenda says otherwise. -/
def linkEvents (m : Nat) : List Event := [execFlitReplay m, execFlitSend m, execFlitArrival m true, execFlitAcknowledge m]

/-- The slots that returning luggage leaves (R264). -/
def State.leftSlots (s : State) : List Nat := s.net.filterMap fun m => match m.body with
  | .luggage _ _ _ f => some f
  | _ => none

/-- Every event that may be due, in the order the model takes them (log 3). -/
def State.candidates (s : State) : List Event :=
  s.clearEvents ++
  (if s.now % Config.interval = 0 then [execCheckpoint] else []) ++
  (s.ctxs.flatMap fun e => s.ctxEvents e.1 e.2) ++
  ((s.ctxs.filter fun e => e.2.ridxDue).map fun e => execAcctRidxRead (slotCore e.1)) ++
  ((s.reqs.filter fun r => r.stage != .sent).flatMap s.reqEvents) ++
  (s.cores.flatMap fun k => s.bindEvents k.1 k.2) ++
  (s.activeClusters.flatMap fun cl => s.cluEvents cl (s.clu cl)) ++
  (s.cores.flatMap fun k => s.coreEvents k.1 k.2) ++
  s.portEvents ++
  (s.invals.map fun v => execFarCopyInvalidation v.n) ++
  (s.links.flatMap fun l => linkEvents l.1) ++
  ((s.arrived.filter fun t => t.resp.isSome).map fun t => execRemoteResponseArrival t.n) ++
  (s.respAcks.map fun n => execResponseAcknowledgement n) ++
  ((s.credits.filter fun c => c.data.isNone && !s.restoring (coreCluster c.dst)).map fun c => execTagCredit c.n) ++
  (s.drains.map fun d => execStorerTilePerformed d.n) ++
  s.msgEvents ++
  ((s.posts.filter fun o => !o.2.pairs.isEmpty).map fun o => execPairRetry o.1) ++
  (s.leftSlots.map fun f => execVisitorSlotFree f) ++
  ((s.saved.filter fun v => v.restoring).map fun v => execContextRestore v.n) ++
  (s.nacks.map fun k => execNegativeAcknowledge k.1) ++
  (s.queues.flatMap fun k => State.queueEvents k.1 k.2) ++
  (s.streams.flatMap fun t => t.2.events (t.1 / 64) (t.1 % 64)) ++
  (s.parts.flatMap fun t => s.partEvents t.1 t.2) ++
  [execStageTimeout] ++ s.streams.flatMap fun t => t.2.idles (t.1 / 64) (t.1 % 64)

/-- The state after the first of a list of events that changes it. -/
def State.firstDue (s : State) : List Event → Option State
  | [] => none
  | i :: l =>
    let t := outState s (i s)
    if t = s then s.firstDue l else some t

/-- The state after the next step of another agent that is due, if there is one. -/
def State.due (s : State) : Option State := s.firstDue s.candidates

/-- The state after a clear of a record that is due (R373). -/
def State.clearDue (s : State) : Option State := s.firstDue s.clearEvents

end Sys2Proof.Machine
end

