-- ==== Sys2Proof/Machine/Step.lean ====
section
/-!
DEFINITION. The step of the machine, and placing one instruction where the step fetches it.
-/

namespace Sys2Proof.Machine

/-- The model's own step without a move from outside: an event that is due, else what a context does without issuing, else the issue of the next
context in this cycle, else the end of the cycle (log 3). -/
def State.autoStep (s : State) : Host.Outcome State Fault Refusal :=
  match s.due.or s.aside with
  | some t => .next t
  | none => match s.pick with
    | some sid => s.stepCtx sid
    | none => .next s.endCycle

/-- The step that a move from outside takes: the event it names, before which a clear of a record that is due is taken (R373), the issue of the context
it names, if that may issue, or what the monitor, the service firmware or the management path does. -/
def State.moveStep (s : State) (m : Move) : Host.Outcome State Fault Refusal :=
  match m with
  | .event i => match s.clearDue with
    | some t => .next { t with agenda := .event i :: t.agenda }
    | none => exec i s
  | .issue sid => if s.mayIssue sid then s.stepCtx sid else .next s
  | .grant p l => .next (s.setGrants p l)
  | .service p off v => .next (s.serviceWrite p off v)
  | .infraRecord die n w => .next (s.readInfra die n w)
  | .infraPage off => .next (s.readInfraPage off)
  | .infraClear die n => .next (s.clearInfra die n)

/-- One step of the machine: PEERs that wait are answered, then the first move of the agenda is taken, or the model's own step. -/
def step (s : State) : Host.Outcome State Fault Refusal :=
  match s.settlePeers.agenda with
  | m :: l => { s.settlePeers with agenda := l }.moveStep m
  | [] => s.settlePeers.autoStep

/-- The state in which the next step issues, from the running context's PC, the instruction of a word (log 9). -/
def State.withFetchWord (s : State) (_nbits w : Nat) : State :=
  let sid := s.cur
  let ci := slotCore sid
  let c := s.ctx sid
  let line : ILine := { va := c.pc.toNat / 64 * 64, pid := c.pid, data := BitVec.ofNat 512 (w % 2 ^ 32 * 2 ^ (8 * (c.pc.toNat % 64))) }
  let s1 := s.modCtx sid fun c => { c with act := .running, cap := none, replay := none, preemptReq := false, pause := none, lastIssue := 0 }
  let s1 := ((coreSlots ci).filter fun x => x != sid).foldl (fun s x => s.modCtx x fun c => { c with lastIssue := Nat.max 1 c.lastIssue }) s1
  let s2 := s1.modCore ci fun k => { k with icache := line :: k.icache.filter fun y => !(y.va == line.va && y.pid == line.pid), stall := none, seq := k.seq.filter fun e => e.sid != sid }
  let s3 := s2.modClu (slotCluster sid) fun k => { k with restore := none }
  { s3 with
    agenda := [.issue sid]
    served := s3.served.filter fun e => e.1 != ci
    reqs := s3.reqs.filter fun r => !(r.sid == sid && !r.ended && r.stage.opens)
    saved := s3.saved.filter fun v => v.back.isSome || !(v.eligible && v.sid / 10 == sid / 10) }

end Sys2Proof.Machine
end

