-- ==== Sys2Proof/Safety.lean ====
section
/-!
DEFINITION. What counts as a safe run, and the terms in which the statements speak of instructions: the value each computing form gives by the
tables of chapter 6, what an instruction leaves as it was, and when it has what it needs.
-/

namespace Sys2Proof.Machine

/-! The invariant. -/

/-- Every memory of the package is in its canonical form. -/
def State.Inv (s : State) : Prop := s.mem.wf = true ∧ s.hostMem.wf = true ∧ ∀ cl, (s.clu cl).spad.wf = true

/-! Values, from the words of the tables of chapter 6: integers in, one narrowing at the end. -/

/-- A number as a word, modulo 2^64. -/
def wordOfInt (n : Int) : Word := BitVec.ofInt 64 n

/-- The places at which a mask has a one, from bit 0 up. -/
def onesOf (m : Word) : List Nat := (List.range 64).filter fun i => m.getLsbD i

/-- A form with two sources: its fields and its value (Tables 06-2 and 03-6). -/
def twoSource : Instr → Option (Dst × Src × Src × (Word → Word → Word))
  | .add d a b => some (d, a, b, fun x y => wordOfInt (x.toInt + y.toInt))
  | .sub d a b => some (d, a, b, fun x y => wordOfInt (x.toInt - y.toInt))
  | .and d a b => some (d, a, b, fun x y => x &&& y)
  | .or d a b => some (d, a, b, fun x y => x ||| y)
  | .xor d a b => some (d, a, b, fun x y => x ^^^ y)
  | .andn d a b => some (d, a, b, fun x y => x &&& ~~~y)
  | .sll d a b => some (d, a, b, fun x y => wordOfInt (x.toNat * 2 ^ (y.toNat % 64)))
  | .srl d a b => some (d, a, b, fun x y => wordOfInt (x.toNat / 2 ^ (y.toNat % 64)))
  | .sra d a b => some (d, a, b, fun x y => wordOfInt (x.toInt / 2 ^ (y.toNat % 64)))
  | .rol d a b => some (d, a, b, fun x y => wordOfInt (x.toNat * 2 ^ (y.toNat % 64) + x.toNat / 2 ^ (64 - y.toNat % 64)))
  | .slt d a b => some (d, a, b, fun x y => if x.toInt < y.toInt then 1 else 0)
  | .sltu d a b => some (d, a, b, fun x y => if x.toNat < y.toNat then 1 else 0)
  | .min d a b => some (d, a, b, fun x y => wordOfInt (Min.min x.toInt y.toInt))
  | .max d a b => some (d, a, b, fun x y => wordOfInt (Max.max x.toInt y.toInt))
  | .minu d a b => some (d, a, b, fun x y => wordOfInt (Min.min x.toNat y.toNat : Nat))
  | .maxu d a b => some (d, a, b, fun x y => wordOfInt (Max.max x.toNat y.toNat : Nat))
  | .mul d a b => some (d, a, b, fun x y => wordOfInt (x.toInt * y.toInt))
  | .mulh d a b => some (d, a, b, fun x y => wordOfInt (x.toInt * y.toInt / 2 ^ 64))
  | .mulhu d a b => some (d, a, b, fun x y => wordOfInt (x.toNat * y.toNat / 2 ^ 64 : Nat))
  | .div d a b => some (d, a, b, fun x y => if y = 0 then wordOfInt (-1) else wordOfInt (x.toInt.tdiv y.toInt))
  | .divu d a b => some (d, a, b, fun x y => if y = 0 then wordOfInt (-1) else wordOfInt (x.toNat / y.toNat : Nat))
  | .rem d a b => some (d, a, b, fun x y => if y = 0 then x else wordOfInt (x.toInt.tmod y.toInt))
  | .remu d a b => some (d, a, b, fun x y => if y = 0 then x else wordOfInt (x.toNat % y.toNat : Nat))
  | .bext d a b => some (d, a, b, fun x y => wordOfInt (((onesOf y).zipIdx.map fun p => if x.getLsbD p.1 then 2 ^ p.2 else 0).sum : Nat))
  | .bdep d a b => some (d, a, b, fun x y => wordOfInt (((onesOf y).zipIdx.map fun p => if x.getLsbD p.2 then 2 ^ p.1 else 0).sum : Nat))
  | _ => none

/-- The cycles after which the result of a register form is usable (Table 06-10). -/
def latencyOf : Instr → Nat
  | .bext _ _ _ => 2
  | .bdep _ _ _ => 2
  | .mul _ _ _ => 3
  | .mulh _ _ _ => 3
  | .mulhu _ _ _ => 3
  | .div _ _ _ => 18
  | .divu _ _ _ => 18
  | .rem _ _ _ => 18
  | .remu _ _ _ => 18
  | _ => 1

/-- A form with one source: its fields and its value (Tables 06-2 and 06-5, R100). -/
def oneSource : Instr → Option (Dst × Src × (Word → Word))
  | .clz d a => some (d, a, fun x => wordOfInt ((List.range 64).findIdx fun i => x.getLsbD (63 - i) : Nat))
  | .ctz d a => some (d, a, fun x => wordOfInt ((List.range 64).findIdx fun i => x.getLsbD i : Nat))
  | .popc d a => some (d, a, fun x => wordOfInt ((onesOf x).length : Nat))
  | .addi d a i => some (d, a, fun x => wordOfInt (x.toInt + i.toInt))
  | .andi d a i => some (d, a, fun x => x &&& wordOfInt i.toInt)
  | .ori d a i => some (d, a, fun x => x ||| wordOfInt i.toInt)
  | .xori d a i => some (d, a, fun x => x ^^^ wordOfInt i.toInt)
  | .slli d a n => some (d, a, fun x => wordOfInt (x.toNat * 2 ^ n.toNat))
  | .srli d a n => some (d, a, fun x => wordOfInt (x.toNat / 2 ^ n.toNat))
  | .srai d a n => some (d, a, fun x => wordOfInt (x.toInt / 2 ^ n.toNat))
  | .slti d a i => some (d, a, fun x => if x.toInt < i.toInt then 1 else 0)
  | .sltiu d a i => some (d, a, fun x => if x.toNat < (wordOfInt i.toInt).toNat then 1 else 0)
  | _ => none

/-- A control or upper-immediate form on registers: the registers it reads, the one it writes with its value, the next PC, and the cycles charged to
REDIRECT after it (R101 to R103, Table 06-11). -/
structure Simple where
  reads : List (BitVec 5)
  dest : Option (BitVec 5)
  value : Word
  next : BitVec 56
  redirects : Nat

/-- An address moved by a number of words, modulo 2^56. -/
def pcMoved (pc : BitVec 56) (words : Int) : BitVec 56 := BitVec.ofInt 56 (pc.toNat + 4 * words)

/-- A conditional branch: a backward one is predicted taken, a forward one not taken; a right prediction of a taken branch costs one cycle, a wrong one
three (R109, Table 06-11). -/
def branchForm (c : Ctx) (a b : BitVec 5) (o : BitVec 13) (taken : Prop) [Decidable taken] : Simple :=
  { reads := [a, b], dest := none, value := 0
    next := if taken then pcMoved c.pc o.toInt else pcMoved c.pc 1
    redirects := if taken then (if o.toInt < 0 then 1 else 3) else if o.toInt < 0 then 3 else 0 }

/-- The forms of R101 to R103 in a context. -/
def simpleForm (c : Ctx) : Instr → Option Simple
  | .lui d i => some ⟨[], some d, wordOfInt (i.toInt * 2 ^ 13), pcMoved c.pc 1, 0⟩
  | .auipc d i => some ⟨[], some d, wordOfInt (c.pc.toNat + i.toInt * 2 ^ 13), pcMoved c.pc 1, 0⟩
  | .jal d o => some ⟨[], some d, wordOfInt (pcMoved c.pc 1).toNat, pcMoved c.pc o.toInt, 1⟩
  | .beq a b o => some (branchForm c a b o (c.rx a = c.rx b))
  | .bne a b o => some (branchForm c a b o (c.rx a ≠ c.rx b))
  | .blt a b o => some (branchForm c a b o ((c.rx a).toInt < (c.rx b).toInt))
  | .bge a b o => some (branchForm c a b o ((c.rx b).toInt ≤ (c.rx a).toInt))
  | .bltu a b o => some (branchForm c a b o ((c.rx a).toNat < (c.rx b).toNat))
  | .bgeu a b o => some (branchForm c a b o ((c.rx b).toNat ≤ (c.rx a).toNat))
  | _ => none

/-! Waits and operands. -/

/-- Whether nothing keeps a form on registers from issuing: none of its registers is awaited, and none it writes belongs to a replaying frame
(R94, R166). -/
abbrev State.regsReady (s : State) (reads writes : List (BitVec 5)) : Prop :=
  s.holds ((reads ++ writes).map BitVec.toNat) [] (writes.map BitVec.toNat) = none

/-- Whether a scalar form's fields may be used: no register awaited, no channel bound so that it cannot be read or written, space for its result beside
the entries that its sources pop, and nothing else of its context to wait for (R80, R81, R94, R141, R166). `rs` are registers it reads beside its fields. -/
abbrev State.fieldsReady (s : State) (d : List Dst) (srcs : List Src) (rs : List Nat) : Prop :=
  s.me.awaits (rs ++ srcs.flatMap srcRes ++ d.flatMap dstRes) = none ∧
    ((srcs.flatMap srcChan).any s.badSrc || (d.flatMap dstChan).any s.badDst) = false ∧
    ((d.flatMap dstChan).any fun n => s.dstFull s.cur s.me.serial ((s.popDescs srcs).map targetOf) n false) = false ∧
    s.others (d.flatMap dstChan ++ srcs.flatMap srcChan) (d.flatMap dstRes) = none

/-! What an instruction leaves as it was. -/

/-- Nothing changes but contexts and cores. -/
def State.sameOutside (s t : State) : Prop := t = { s with ctxs := t.ctxs, cores := t.cores }

/-- Every byte of memory and of the scratchpads reads as before. -/
def State.sameBytes (s t : State) : Prop := ∀ a n, t.physRead a n = s.physRead a n ∧ ∀ cl, t.spadRead cl a n = s.spadRead cl a n

/-- No other context, and no core but for MPROG and its divider, changes. -/
def State.sameOthers (s t : State) : Prop :=
  (∀ j, j ≠ s.cur → t.ctx j = s.ctx j) ∧ ∀ ci, { t.core ci with mprog := 0, divFree := 0 } = { s.core ci with mprog := 0, divFree := 0 }

/-- Of the running context nothing changes but x registers, when they are usable, the history of them that a meeting keeps, the PC, and the accounts
of the issue. -/
def Ctx.sameButRegisters (c d : Ctx) : Prop :=
  d = { c with x := d.x, busy := d.busy, late := d.late, meet := d.meet, pc := d.pc, charge := d.charge, pause := d.pause, lastIssue := d.lastIssue, mret := d.mret, serial := d.serial } ∧
    d.meet = c.meet.map fun m => { m with hist := (d.meet.map Meeting.hist).getD [] }

/-- A computing form's frame: it changes the x register it names, the PC, and nothing else that a program can see. -/
def State.computesOnly (s t : State) (n : BitVec 5) : Prop :=
  s.sameOutside t ∧ s.sameBytes t ∧ s.sameOthers t ∧ s.me.sameButRegisters t.me ∧ ∀ m, m ≠ n → t.me.rx m = s.me.rx m

/-! How an instruction ends. -/

/-- The instruction of the running context has issued, and goes on at `pc`. -/
def State.completes (s t : State) (pc : BitVec 56) : Prop :=
  t.cur = s.cur ∧ t.me.pc = pc ∧ t.me.charge = .issue ∧ t.me.lastIssue = s.now ∧ t.me.act = s.me.act

/-- The x registers of the running context hold what they held. -/
def State.sameX (s t : State) : Prop := ∀ m, t.me.rx m = s.me.rx m

/-- A value lands in an x register: x0 discards it, and every other register keeps its value (R6). -/
def State.writesX (s t : State) (n : BitVec 5) (v : Word) : Prop := ∀ m, t.me.rx m = if m = n ∧ n ≠ 0 then v else s.me.rx m

/-- A result is awaited: a register by its users, a channel's entry by those after it (R94). -/
def State.awaitsDst (s t : State) (d : Dst) (k : Cause) : Prop :=
  match d with
  | .x n => t.me.busy = s.me.busy ++ [(n.toNat, k)]
  | .ch n => t.me.chq.getLast? = some { serial := s.me.serial, desc := (s.me.c[n.toNat]'n.isLt).toNat, at_ := s.now, value := none }

/-- Every register that no x register is: vectors, masks, formats, and the CSRs of Table 01-3. -/
def Ctx.sameSpecial (c d : Ctx) : Prop :=
  d.v = c.v ∧ d.k = c.k ∧ d.fm = c.fm ∧ d.c = c.c ∧ d.fflags = c.fflags ∧ d.rmode = c.rmode ∧ d.srseed = c.srseed ∧ d.meetto = c.meetto ∧ d.rollq = c.rollq ∧
    d.uepc = c.uepc ∧ d.uieEn = c.uieEn ∧ d.xid = c.xid ∧ d.mode = c.mode ∧ d.ui = c.ui ∧ d.msaved = c.msaved ∧ d.inmeet = c.inmeet ∧ d.pmode = c.pmode ∧ d.pui = c.pui ∧
    d.cause = c.cause ∧ d.epc = c.epc ∧ d.tval = c.tval ∧ d.tvec = c.tvec ∧ d.frame = c.frame ∧ d.framepc = c.framepc ∧ d.acctbase = c.acctbase ∧
    d.acctctl = c.acctctl ∧ d.acct = c.acct

/-- Bytes `off` to `off + n` of a cluster's scratchpad hold `v`, and every other byte of every memory reads as before. -/
def State.writesSpad (s t : State) (cl off n v : Nat) : Prop :=
  t.spadRead cl off n = v ∧ (∀ a k, t.physRead a k = s.physRead a k) ∧
    ∀ cl' a k, cl' ≠ cl ∨ a + k ≤ off ∨ off + n ≤ a → t.spadRead cl' a k = s.spadRead cl' a k

/-! Memory forms (R113, R121, R122, R129, R131). -/

/-- A load: destination, base register, bytes, byte offset, whether it extends the sign. -/
def loadOf : Instr → Option (Dst × BitVec 5 × Nat × Int × Bool)
  | .ld d a w o => some (d, a, 2 ^ w.toNat, o.toInt * 2 ^ w.toNat, true)
  | .ldu d a w o => some (d, a, 2 ^ w.toNat, o.toInt * 2 ^ w.toNat, false)
  | .lda d a w o => some (d, a, 2 ^ w.toNat, o.toInt * 2 ^ w.toNat, true)
  | _ => none

/-- A store: source, base register, bytes, byte offset, whether it is a release. -/
def storeOf : Instr → Option (Src × BitVec 5 × Nat × Int × Bool)
  | .st d a w o => some (d, a, 2 ^ w.toNat, o.toInt * 2 ^ w.toNat, false)
  | .stl d a w o => some (d, a, 2 ^ w.toNat, o.toInt * 2 ^ w.toNat, true)
  | _ => none

/-- Whether an instruction is an acquire load (R119). -/
def isAcquire : Instr → Bool
  | .lda _ _ _ _ => true
  | _ => false

/-- A number of `n` bytes read as signed. -/
def signedBytes (n v : Nat) : Int := if 2 ^ (8 * n - 1) ≤ v then (v : Int) - 2 ^ (8 * n) else v

/-- The value of a load of `n` bytes (R113). -/
def loadValue (signed : Bool) (n v : Nat) : Word := wordOfInt (if signed then signedBytes n v else v)

/-- An atomic: destination, address register, operand register, bytes, operator, and the new value from the old one and the operand (Table 07-3). -/
def atomicOf : Instr → Option (BitVec 5 × BitVec 5 × BitVec 5 × Nat × AmoOp × (Nat → Nat → Nat))
  | .amoAdd d a b w => some (d, a, b, if w then 8 else 4, .add, fun x y => (x + y) % 2 ^ (if w then 64 else 32))
  | .amoAnd d a b w => some (d, a, b, if w then 8 else 4, .and, fun x y => x &&& y)
  | .amoOr d a b w => some (d, a, b, if w then 8 else 4, .or, fun x y => x ||| y)
  | .amoXor d a b w => some (d, a, b, if w then 8 else 4, .xor, fun x y => x ^^^ y)
  | .amoMin d a b w => some (d, a, b, if w then 8 else 4, .min, fun x y => if signedBytes (if w then 8 else 4) x ≤ signedBytes (if w then 8 else 4) y then x else y)
  | .amoMax d a b w => some (d, a, b, if w then 8 else 4, .max, fun x y => if signedBytes (if w then 8 else 4) y ≤ signedBytes (if w then 8 else 4) x then x else y)
  | .amoMinu d a b w => some (d, a, b, if w then 8 else 4, .minu, fun x y => Min.min x y)
  | .amoMaxu d a b w => some (d, a, b, if w then 8 else 4, .maxu, fun x y => Max.max x y)
  | .amoSwap d a b w => some (d, a, b, if w then 8 else 4, .swap, fun _ y => y)
  | _ => none

/-- Whether a scalar memory form on registers may issue: none of its registers awaited, no acquire outstanding, and no vector access pending (R94, R119,
R160). -/
abbrev State.memFree (s : State) (reads writes : List (BitVec 5)) : Prop := s.regsReady reads writes ∧ s.memHolds = none

/-- Whether an access may go to the bank unit: no port instruction touches its bytes; a store finds one of four places and undo memory (R116, R185). -/
abbrev State.bankReady (s : State) (a : BankAccess) : Prop :=
  s.portWaits a = false ∧ (a.op.isStore = true → (s.me.pend.filter fun p => p.op.isStore).length < 4 ∧ s.bankBlocked a = false)

/-- An access is pending at the bank unit, after those of its context that were (R116). -/
def State.queuesAccess (s t : State) (a : BankAccess) : Prop := t.me.pend = s.me.pend ++ [a]

/-- Whether the scalar slot of a cluster comes with one access pending there, which can be served: the oldest of slot `sid`, before `l` (R116, R241). -/
abbrev State.servesAlone (s : State) (cl sid : Nat) (a : BankAccess) (l : List BankAccess) : Prop :=
  sid / 10 = cl ∧ s.slotDue cl 7 = true ∧ (s.ctx sid).pend = a :: l ∧ (∀ o, o / 10 = cl → o ≠ sid → (s.ctx o).pend = []) ∧ s.bankBlocked a = false

/-- A request appended to those of the package. -/
def State.appendsRequest (s t : State) (f : Req → Prop) : Prop := ∃ r, f r ∧ r.id = s.nextId ∧ r.sid = s.cur ∧ t.reqs = s.reqs ++ [r] ∧ t.nextId = s.nextId + 1


/-! Matrix, tile and engine forms. -/

/-- Whether a matrix form passes the checks of mode and slot, finds no other owner, awaits nothing, and waits neither for an acquire (R119) nor for an
MRSTR in the port (R91, R7, R175, R188, R189). -/
abbrev State.matrixReady (s : State) (i : Instr) (rs : List (BitVec 5)) (shs : List (BitVec 3)) : Prop :=
  s.matrixTrap i = none ∧ s.ownerWait = false ∧ s.holds (rs.map BitVec.toNat ++ shs.map fun n => 64 + n.toNat) [] [] = none ∧
    (matrixAccess i = true → s.me.acq = none) ∧ (usesShapes i = true → s.restoringMatrix = false)

/-- The running context's core. -/
def State.here (s : State) : Nat := slotCore s.cur

/-- A port instruction has entered the port of its core, last, with the operands it copied, and its context owns the matrix state (R7, R170). -/
def State.entersPort (s t : State) (i : Instr) (f : PortEntry → Prop) : Prop :=
  s.completes t (pcMoved s.me.pc 1) ∧ (t.core s.here).owner = some s.cur ∧ t.me.serial = s.me.serial ∧ s.sameBytes t ∧ s.sameX t ∧
    ∃ p, f p ∧ p.i = i ∧ p.sid = s.cur ∧ p.pc = s.me.pc ∧ p.started = false ∧ p.done = false ∧ (t.core s.here).port = (s.core s.here).port ++ [p]

/-- Whether a tile form may issue: a resident slot, its registers there, and nothing that R119, R160, R185 or R200 has it wait for (R197). -/
abbrev State.tileReady (s : State) (i : Instr) (rs wr : List (BitVec 5)) : Prop :=
  isVisitor s.cur = false ∧ s.regsReady rs wr ∧ s.tileWaits i = none

/-- A tag's fields but WAIT (Table 10-1). -/
structure TagView where
  valid : Bool
  full : Bool
  cons : Bool
  exp : Bool
  ovr : Bool
  bal : Int
  deriving DecidableEq, Repr

/-- The fields of a tag word. -/
def tagView (w : Word) : TagView := { valid := tagValid w, full := tagFull w, cons := tagCons w, exp := tagExp w, ovr := tagOvr w, bal := tagBal w }

/-- A transfer's record has been taken into an engine slot of a context's core, with a place reserved in the inbox (R205). -/
def State.takesSlot (s t : State) (sid : Nat) (kind : XferKind) (xid : BitVec 32) (held : Bool) (prog : Nat) : Prop :=
  (t.core (slotCore sid)).reserved = (s.core (slotCore sid)).reserved + 1 ∧
    ∃ x, x.kind = kind ∧ x.xid = xid ∧ x.sid = sid ∧ x.held = held ∧ x.prog = prog ∧ x.stopped = false ∧ x.result = none ∧
      (t.core (slotCore sid)).xfers = (s.core (slotCore sid)).xfers ++ [x]

/-- The machine with the context of a slot as the one that runs. -/
abbrev State.runs (s : State) (sid : Nat) : State := { s with cur := sid }

/-- A context has taken a trap at home: the status is saved, the mode becomes supervisor, CAUSE, EPC and TVAL are written, and TVEC is next (R324). -/
def Ctx.traps (c d : Ctx) (t : Trap) (tval : Word) (epc : BitVec 56) : Prop :=
  d.act = .running ∧ d.pmode = c.mode ∧ d.pui = c.ui ∧ d.mode = true ∧ d.ui = false ∧ d.cause = wordOfInt (t.code : Nat) ∧ d.epc = epc &&& ~~~3 ∧ d.tval = tval ∧
    d.pc = c.tvec ∧ ∀ m, d.rx m = c.rx m

/-- Whether a trap of a context is taken at once, and at home (R168, R172, R222). -/
abbrev State.trapsNow (s : State) (sid : Nat) : Prop := s.trapBlock sid = none ∧ (s.ctx sid).inmeet = false

/-- A form has issued that completes at the bank unit: its access is pending, and its context waits for it (R116, R197). -/
def State.waitsAtBank (s t : State) (a : BankAccess) : Prop :=
  t.me.pc = s.me.pc ∧ t.me.charge = .issue ∧ t.me.act = .stalled .slotWait ∧ s.queuesAccess t a ∧ s.sameX t ∧ s.sameBytes t

/-- The access of a tile form to its tag (R197). -/
def State.tagAccess (s : State) (i : Instr) : BankAccess :=
  { op := .form i, cl := slotCluster s.cur, tags := true, off := 8 * s.formTag i, size := 8, serial := s.me.serial }

/-- The access of a form to its block in the scratchpad (R176, R205). -/
def State.blockAccess (s : State) (i : Instr) (cl off n : Nat) : BankAccess :=
  { op := .form i, cl := cl, tags := false, off := off, size := n, serial := s.me.serial }

/-- Whether the scalar slot of a cluster comes with one form pending there (R116). -/
abbrev State.servesForm (s : State) (cl sid : Nat) (a : BankAccess) (i : Instr) : Prop :=
  s.servesAlone cl sid a [] ∧ a.op = .form i ∧ (s.ctx sid).act = .stalled .slotWait

/-- A form of a context has completed: it goes on at the next instruction. -/
def State.formDone (s t : State) (sid : Nat) (pend : List BankAccess) : Prop :=
  (t.ctx sid).act = .running ∧ (t.ctx sid).pc = pcMoved (s.ctx sid).pc 1 ∧ (t.ctx sid).pend = pend

/-- Where a block's address lands on scratchpad bytes of the windows 0xF0 and 0xF1. -/
abbrev State.blockAt (s : State) (a : Word) (n cl off : Nat) : Prop :=
  s.window s.cur a n n = .ok (.bank cl off) ∧ (a.toNat / 2 ^ 48 = 0xF0 ∨ a.toNat / 2 ^ 48 = 0xF1) ∧ s.portOverlap s.cur s.me.serial cl off n = false

/-- Whether an instruction is a matrix form. -/
def isMatrix : Instr → Bool
  | .mma _ _ _ _ _ _ => true
  | .mzero _ => true
  | .mwait _ => true
  | .mtest => true
  | .mlda _ _ _ _ => true
  | .msta _ _ _ _ => true
  | .mshape _ _ => true
  | .mfmt _ => true
  | .msave _ => true
  | .mrstr _ => true
  | _ => false

/-! CSR forms (R11, R12, R233). -/

/-- A CSR form: the destination, the source register, the CSR's number, whether it writes, and the word it writes from the old one and x[rs1]. -/
def csrOf : Instr → Option (BitVec 5 × BitVec 5 × BitVec 13 × Bool × (Word → Word → Word))
  | .csrr d n => some (d, 0, n, false, fun o _ => o)
  | .csrw d a n => some (d, a, n, true, fun _ v => v)
  | .csrs d a n => some (d, a, n, decide (a ≠ 0), fun o v => o ||| v)
  | .csrc d a n => some (d, a, n, decide (a ≠ 0), fun o v => o &&& ~~~v)
  | _ => none

/-- What a writable CSR reads as after a write: its fields of Tables 01-3 to 01-6; read-only bits keep what they were, reserved bits are zero. -/
def csrNew (n : Nat) (owner : Bool) (old v : Word) : Word :=
  match n with
  | 0x0001 => v &&& 0x1F
  | 0x0002 => v &&& 0x3
  | 0x0011 => v &&& 0x7FF
  | 0x0021 => (old &&& 0x2) ||| (v &&& 0x1)
  | 0x0022 => v &&& 0xFFFFFFFF
  | 0x1000 => (old &&& ~~~0xC01) ||| (v &&& 0xC01)
  | 0x1001 => v &&& 0x800000000000FFFF
  | 0x1002 => v &&& 0x00FFFFFFFFFFFFFC
  | 0x1004 => v &&& 0x00FFFFFFFFFFFFFC
  | 0x1005 => v &&& 0xFFFFFFFF0000DFFF
  | 0x1006 => v &&& 0x00FFFFFFFFFFFFFC
  | 0x1007 => if owner then v &&& 0x9F000000FFFFFFFF else 0
  | 0x1008 => v &&& 0x00FFFFFFFFFFF000
  | 0x1009 => v &&& 0xFFFF1F01
  | _ => v

/-! Roll calls (R224). -/

/-- A ROLL: the number of its operation, its destination, its key register, its word register. -/
def rollOf : Instr → Option (Nat × BitVec 5 × BitVec 5 × BitVec 5)
  | .rollNone d a b => some (0, d, a, b)
  | .rollAdd d a b => some (1, d, a, b)
  | .rollMin d a b => some (2, d, a, b)
  | .rollMax d a b => some (3, d, a, b)
  | .rollUmin d a b => some (4, d, a, b)
  | .rollUmax d a b => some (5, d, a, b)
  | .rollAnd d a b => some (6, d, a, b)
  | .rollOr d a b => some (7, d, a, b)
  | .rollXor d a b => some (8, d, a, b)
  | _ => none

/-- The running context is parked, and its call is under way to its directory cluster, T_n after now (R217, R224, R261, R266). -/
def State.parks (s t : State) (p : Park → Prop) (body : Nat → Call → MsgBody) : Prop :=
  t.me.act = .parked ∧ t.me.pc = s.me.pc ∧ t.me.charge = .issue ∧ s.sameX t ∧ s.sameBytes t ∧ (∃ q, t.me.park = some q ∧ p q) ∧
    ∃ m c, t.net = s.net ++ [m] ∧ m.at_ = s.now + noticeTime (slotCluster s.cur) (s.dirOf c) ∧ m.body = body (s.dirOf c) c ∧ c.sid = s.cur ∧
      c.part = s.me.part ∧ c.pid = s.me.pid ∧ c.zero = decide (s.me.meetto = 0) ∧ ∃ q, t.me.park = some q ∧ c.key = q.key ∧ c.q = q.quorum ∧ c.op = q.op ∧ c.word = q.word

/-! Vector forms (R138, R139). -/

/-- The x registers of a context hold what they held. -/
def Ctx.sameX (c d : Ctx) : Prop := ∀ m, d.rx m = c.rx m

/-- What an effect leaves of a context's registers. -/
def Ctx.shows (c d : Ctx) : VEffect → Prop
  | .vec (.v n) r => (∀ m, d.rv m = if m = n then r.1 else c.rv m) ∧ d.k = c.k ∧ d.fflags = c.fflags ||| r.2 ∧ c.sameX d
  | .vec (.ch _) r => d.v = c.v ∧ d.k = c.k ∧ d.fflags = c.fflags ||| r.2 ∧ c.sameX d
  | .own n r => (∀ m, d.rv m = if m = n then r.1 else c.rv m) ∧ d.k = c.k ∧ d.fflags = c.fflags ||| r.2 ∧ c.sameX d
  | .mask n r => (∀ m, d.rk m = if m = n then r.1 else c.rk m) ∧ d.v = c.v ∧ d.fflags = c.fflags ||| r.2 ∧ c.sameX d
  | .scalar (.x n) v =>
    (∀ m, d.rx m = if m = n.zeroExtend 5 ∧ n ≠ 0 then v else c.rx m) ∧ d.v = c.v ∧ d.k = c.k ∧ d.fflags = c.fflags
  | .scalar (.ch _) _ => d.v = c.v ∧ d.k = c.k ∧ d.fflags = c.fflags ∧ c.sameX d
  | .none => d.v = c.v ∧ d.k = c.k ∧ d.fflags = c.fflags ∧ c.sameX d

/-- A vector instruction has entered its core's sequencer, last, with what it took at issue (R14, R138, R139). -/
def State.entersSequencer (s t : State) (i : Instr) (xa xb : Word) : Prop :=
  s.completes t (pcMoved s.me.pc 1) ∧ s.sameX t ∧ s.sameBytes t ∧ t.me.v = s.me.v ∧ t.me.k = s.me.k ∧ t.me.fflags = s.me.fflags ∧
    ∃ e, e.i = i ∧ e.sid = s.cur ∧ e.pc = s.me.pc ∧ e.xa = xa ∧ e.xb = xb ∧ e.rm = s.me.rmode ∧ e.seed = s.me.srseed ∧ e.fms = s.me.fm.toList ∧ e.bound = false ∧
      (t.core s.here).seq = (s.core s.here).seq ++ [e]

/-- Whether a vector form may issue: no register awaited, its formats and channels good, nothing that it must wait for (a channel that the sequencer
still uses, a translation or check that is open, a frame that replays, a full sequencer; for a memory form an acquire or a mask still to be
written), and its scalar operands there, with the entries they take (R138 to R142, R158, R166). -/
abbrev State.vectorReady (s : State) (i : Instr) (h : VShape) (xa xb : Word) (tx : List Target) : Prop :=
  vShape i = some h ∧ s.me.awaits (h.xregs ++ h.xouts) = none ∧ s.vecFault s.cur i h = none ∧ s.othersIn (s.seqVChans s.cur) h.xchans h.xouts = none ∧ s.me.replay = none ∧
    s.myCore.seq.length < Config.seqEntries ∧ (isVMem i = true → s.me.acq = none ∧ s.maskPending s.cur h.k = false) ∧
    s.readXs s.cur h = some (xa, xb, tx)

/-- Whether the head of a sequencer finds its registers usable, its channel entries there, and space for its result (R80, R138, R140). -/
abbrev State.headBinds (s : State) (e : SeqEntry) (h : VShape) (a b : VReg) (tv : List Target) : Prop :=
  vShape e.i = some h ∧ e.frame = false ∧ e.bound = false ∧ s.vecReady e.sid e.i h = true ∧ s.readVs e.sid h = some (a, b, tv) ∧
    s.vecDstFull e.sid e.serial tv h = false

/-- Whether a vector form stores a register (R158). -/
def storesVector (i : Instr) : Bool := (vShape i).any fun h => h.ds.isSome

/-! Steps of other agents. -/

/-- A meaning answers a next state with a property. -/
def State.does (s : State) (i : Instr) (p : State → Prop) : Prop := ∃ t, exec i s = .next t ∧ p t

/-- A value lands in an x register of a slot's context: x0 discards it, and every other register keeps its value (R6). -/
def Ctx.getsX (c d : Ctx) (n : BitVec 5) (v : Word) : Prop := ∀ m, d.rx m = if m = n ∧ n ≠ 0 then v else c.rx m

/-- The result of the instruction of a `serial` reaches its context: an x register, usable from cycle `at_` on, or the channel entry that was kept for
it, written then (R94, R106, R116). -/
def Ctx.gives (c d : Ctx) (serial at_ : Nat) (dst : Dst) (v : Word) : Prop :=
  match dst with
  | .x n => c.getsX d n v ∧ (n ≠ 0 → ∃ l ∈ d.late, l.at_ = at_ ∧ l.code = some n.toNat)
  | .ch _ => (∀ m, d.rx m = c.rx m) ∧ ∀ w ∈ d.chq, w.serial = serial → w.value = some v.toNat ∧ w.at_ = at_

/-- The command of a queue at a position. -/
def State.command (s : State) (q n : Nat) : Option Cmd := (s.queue q).cmds.find? fun c => c.n == n

/-- A command is done: it leaves its queue, and its completion awaits its record (R304, R305). -/
def State.completesCommand (s t : State) (q : Nat) (c : Cmd) (status code word1 : Nat) : Prop :=
  (t.queue q).dones = (s.queue q).dones ++ [{ ctag := c.ctag, code := code, status := status, word1 := word1 }] ∧ ∀ d ∈ (t.queue q).cmds, d.n ≠ c.n

/-- An inbox entry has been posted at a core: its tag and words (R9, R211, R238). -/
def State.posts? (s t : State) (ci tag : Nat) (w0 w1 : Word) : Prop :=
  (t.core ci).inbox = (s.core ci).inbox ++ [{ tag := tag, w0 := w0, w1 := w1, half := false }] ∧ (t.core ci).reserved = (s.core ci).reserved - 1

end Sys2Proof.Machine
end

