-- ==== Sys2Proof/Certificates/Slice0/Obligations.lean ====
section
/-!
DEFINITION. The statements for the provers.
-/

open Sys2Proof Sys2Proof.Machine

/-! The scalar forms. -/

/-- The computing forms on registers and channels: with two sources and with one, entries popped, the value of the tables written, the next instruction;
a division waits for its core's divider (Tables 06-2 and 06-5, R100, R106, R107). -/
def Obligations.ComputingFormsGiveTheirValue : Prop :=
  (∀ (i : Instr) (d : Dst) (a b : Src) (f : Word → Word → Word) (s : State) (x y : Word) (t : List Target),
    twoSource i = some (d, a, b, f) → s.readSrcs [] [a, b] = some ([x, y], t) → s.fieldsReady [d] [a, b] [] → (latencyOf i = 18 → s.myCore.divFree ≤ s.now) →
      let l := latencyOf i
      let u := (((s.popAll s.cur t).writeDst l d (f x y)).upd fun c => if l = 1 then c else c.freesAt (s.popDescs [a, b]) (s.now + l)).adv
      exec i s = .next ((if l = 18 then u.updCore fun k => { k with divFree := s.now + 18 } else u).issued false)) ∧
  (∀ (i : Instr) (d : Dst) (a : Src) (f : Word → Word) (s : State) (x : Word) (t : List Target),
    oneSource i = some (d, a, f) → s.readSrcs [] [a] = some ([x], t) → s.fieldsReady [d] [a] [] →
      exec i s = .next ((((s.popAll s.cur t).writeDst 1 d (f x)).adv).issued false)) ∧
  (∀ (i : Instr) (d : Dst) (a b : Src) (f : Word → Word → Word) (s : State) (x y : Word) (t : List Target),
    twoSource i = some (d, a, b, f) → latencyOf i = 18 → s.readSrcs [] [a, b] = some ([x, y], t) → s.fieldsReady [d] [a, b] [] → s.now < s.myCore.divFree →
      exec i s = .next (s.upd fun c => { c with charge := .depend }))

/-- LUI, AUIPC, JAL and the conditional branches; JALR with its checks in their order, then the link and the target (R101 to R104). -/
def Obligations.ControlFormsComplete : Prop :=
  (∀ (i : Instr) (s : State) (f : Simple), simpleForm s.me i = some f → s.regsReady f.reads f.dest.toList →
    exec i s = .next ((s.upd fun c => { (match f.dest with
      | some d => c.wx d f.value
      | none => c) with pc := f.next, pause := if f.redirects = 0 then c.pause else some (.redirect, s.now + 1 + f.redirects) }).issued false)) ∧
  (∀ (d a : BitVec 5) (i : BitVec 13) (s : State), s.regsReady [a] [d] →
    let t : Word := wordOfInt ((s.me.rx a).toInt + i.toInt)
    exec (.jalr d a i) s =
      if t.toNat % 4 ≠ 0 then .next (s.trap .misaligned t s.me.pc)
      else if 2 ^ 56 ≤ t.toNat then .next (s.trap .windowFault t s.me.pc)
      else .next ((s.upd fun c => { c.wx d (wordOfInt (pcMoved c.pc 1).toNat) with
        pc := BitVec.ofNat 56 t.toNat, pause := some (.redirect, s.now + 4) }).issued false))

/-- The frame of the computing forms on registers: whatever next state they answer, only the register named and the PC change. -/
def Obligations.ComputingFormsChangeOnlyTheirRegister : Prop :=
  (∀ (i : Instr) (n a b : BitVec 5) (f : Word → Word → Word) (s t : State),
    twoSource i = some (.x n, .x a, .x b, f) → exec i s = .next t → s.computesOnly t n) ∧
  (∀ (i : Instr) (n a : BitVec 5) (f : Word → Word) (s t : State),
    oneSource i = some (.x n, .x a, f) → exec i s = .next t → s.computesOnly t n) ∧
  (∀ (i : Instr) (s t : State) (f : Simple), simpleForm s.me i = some f → exec i s = .next t → s.computesOnly t (f.dest.getD 0))

/-- x0 reads as zero and discards writes, other registers read what was written; k0 as a mask means no mask, and is written like any other (R6). -/
def Obligations.ZeroRegisters : Prop :=
  (∀ (c : Ctx), c.rx 0 = 0) ∧ (∀ (c : Ctx) (n m : BitVec 5) (v : Word), (c.wx n v).rx m = if m = n ∧ n ≠ 0 then v else c.rx m) ∧
  (∀ (c : Ctx) (v : Word), c.wx 0 v = c) ∧ (∀ (c : Ctx) (r : KReg) (n m : BitVec 3), (c.wk n r).rk m = if m = n then r else c.rk m) ∧
  (∀ (c : Ctx), c.mask 0 = none)

/-- A scalar form whose source channel cannot be read so, or whose destination channel cannot be written so, traps (R81). -/
def Obligations.BadBindingsTrap : Prop :=
  ∀ (i : Instr) (d : Dst) (a b : Src) (f : Word → Word → Word) (s : State),
    twoSource i = some (d, a, b, f) →
    s.me.awaits (srcRes a ++ srcRes b ++ dstRes d) = none →
    ((srcChan a ++ srcChan b).any s.badSrc || (dstChan d).any s.badDst) = true →
      exec i s = .next (s.trap .channelFault (wordOf i) s.me.pc)

/-! The memory forms. -/

/-- A load whose address lands on scratchpad bytes goes to the bank unit, its destination awaited; the scalar slot that serves it gives the bytes,
extended, usable three cycles later (R113, R114, R116, R119). Loads of tile metadata are served there too. -/
def Obligations.LoadsReadTheScratchpad : Prop :=
  (∀ (i : Instr) (d : Dst) (a : BitVec 5) (n : Nat) (o : Int) (sg : Bool) (s : State) (cl off : Nat),
    loadOf i = some (d, a, n, o, sg) → s.fieldsReady [d] [] [a.toNat] → s.memHolds = none →
    s.window s.cur (wordOfInt ((s.me.rx a).toInt + o)) n n = .ok (.bank cl off) →
    let acc : BankAccess := { op := .load d sg (isAcquire i), cl := cl, tags := false, off := off, size := n, serial := s.me.serial }
    s.bankReady acc →
      ∃ t, exec i s = .next t ∧ s.completes t (pcMoved s.me.pc 1) ∧ s.queuesAccess t acc ∧ s.awaitsDst t d .slotWait ∧ (isAcquire i = true → t.me.acq = some .slotWait) ∧
        s.sameX t ∧ s.sameBytes t ∧ s.me.sameSpecial t.me) ∧
  (∀ (s : State) (cl sid : Nat) (a : BankAccess) (l : List BankAccess) (d : Dst) (sg acq : Bool), s.servesAlone cl sid a l → a.op = .load d sg acq →
    s.does (.scalarSlotGrant cl) fun t => (t.ctx sid).pend = l ∧ s.sameBytes t ∧ (∀ o, o ≠ sid → t.ctx o = s.ctx o) ∧
      (s.ctx sid).gives (t.ctx sid) a.serial (s.now + 3) d (loadValue sg a.size (if a.tags then s.tagRead a.cl a.off a.size else s.spadRead a.cl a.off a.size)))

/-- A load of global memory writes the bytes at the translated address, under the context's own stores not yet performed; one of a device register or of
tile metadata writes that register's value (R113, R114, R117, Table 01-7).
That the way to a slice and back takes no time is the model's choice (log 1). -/
def Obligations.LoadsReadMemoryAndRegisters : Prop :=
  ((∀ (i : Instr) (d : Dst) (a : BitVec 5) (n : Nat) (o : Int) (sg : Bool) (s : State) (va : Nat),
    loadOf i = some (d, a, n, o, sg) → s.fieldsReady [d] [] [a.toNat] → s.memHolds = none →
    s.window s.cur (wordOfInt ((s.me.rx a).toInt + o)) n n = .ok (.global va) → s.atomicOverlap s.cur s.me.serial va n = false →
      ∃ t, exec i s = .next t ∧ s.completes t (pcMoved s.me.pc 1) ∧ s.awaitsDst t d .globalWait ∧ (isAcquire i = true → t.me.acq = some .globalWait) ∧
        s.sameX t ∧ s.sameBytes t ∧ s.me.sameSpecial t.me ∧
        s.appendsRequest t fun r => r.kind = .load d sg (isAcquire i) ∧ r.stage = .translating ∧ r.va = va ∧ r.size = n ∧ r.serial = s.me.serial ∧ r.pc = s.me.pc) ∧
  (∀ (s : State) (id : Nat) (r : Req) (d : Dst) (sg acq : Bool), s.req id = some r → r.kind = .load d sg acq → r.stage = .sent → s.crossing id = false →
    s.orderHolds r = false → r.isHost = false → s.fromFarCopy r = true ∨ (homeDie r.pa = clusterDie (slotCluster r.src) ∧ s.takes r = true) →
    s.poisonIn r.pa r.size = none →
      s.does (.sliceRequestAccept id) fun t => s.sameBytes t ∧
        t.req id = some { r with stage := .performed, data := s.loadBytes r.sid r.serial r.va r.pa r.size })) ∧
  (∀ (i : Instr) (d : Dst) (a : BitVec 5) (n : Nat) (o : Int) (sg : Bool) (s : State) (off : Nat),
    loadOf i = some (d, a, n, o, sg) → s.fieldsReady [d] [] [a.toNat] → s.memHolds = none →
      (∀ v, s.window s.cur (wordOfInt ((s.me.rx a).toInt + o)) n n = .ok (.device off) → s.devRead s.cur off n = some v →
        (nearPage off = true → s.devPending s.cur = false →
          ∃ t, exec i s = .next t ∧ s.completes t (pcMoved s.me.pc 1) ∧ s.me.gives t.me s.me.serial (s.now + 4) d (loadValue sg n v) ∧ s.sameBytes t) ∧
        (nearPage off = false →
          ∃ t, exec i s = .next t ∧ s.completes t (pcMoved s.me.pc 1) ∧ s.awaitsDst t d .globalWait ∧ s.sameX t ∧ s.sameBytes t ∧
            s.appendsRequest t fun r => r.kind = .devLoad d sg (isAcquire i) ∧ r.stage = .sent ∧ r.va = off ∧ r.size = n)) ∧
      (s.window s.cur (wordOfInt ((s.me.rx a).toInt + o)) n n = .ok (.tag off) →
        let acc : BankAccess := { op := .load d sg (isAcquire i), cl := slotCluster s.cur, tags := true, off := off, size := n, serial := s.me.serial }
        s.bankReady acc →
          ∃ t, exec i s = .next t ∧ s.completes t (pcMoved s.me.pc 1) ∧ s.queuesAccess t acc ∧ s.awaitsDst t d .slotWait ∧ s.sameX t ∧ s.sameBytes t))

/-- A store to scratchpad bytes goes to the bank unit with its data, and no byte or register changes yet; the slot that serves it writes the low bytes
of the data, and every other byte of every memory is as before (R113, R116, R120). -/
def Obligations.StoresWriteTheScratchpad : Prop :=
  (∀ (i : Instr) (d a : BitVec 5) (n : Nat) (o : Int) (rel : Bool) (s : State) (cl off : Nat),
    storeOf i = some (.x d, a, n, o, rel) → s.memFree [a, d] [] →
    s.window s.cur (wordOfInt ((s.me.rx a).toInt + o)) n n = .ok (.bank cl off) → (rel = true → s.fenceWait s.cur 3 = none) →
    let acc : BankAccess := { op := .store (s.me.rx d), cl := cl, tags := false, off := off, size := n, serial := s.me.serial }
    s.bankReady acc →
      ∃ t, exec i s = .next t ∧ s.completes t (pcMoved s.me.pc 1) ∧ s.queuesAccess t acc ∧ s.sameX t ∧ s.sameBytes t ∧ s.me.sameSpecial t.me) ∧
  (∀ (s : State) (cl sid : Nat) (a : BankAccess) (l : List BankAccess) (v : Word), s.servesAlone cl sid a l → a.op = .store v → a.tags = false →
    s.does (.scalarSlotGrant cl) fun t => (t.ctx sid).pend = l ∧ s.writesSpad t a.cl a.off a.size (v.toNat % 2 ^ (8 * a.size)) ∧
      (∀ o, o ≠ sid → t.ctx o = s.ctx o) ∧ (s.ctx sid).sameX (t.ctx sid) ∧ (s.ctx sid).sameSpecial (t.ctx sid))

/-- A store to global memory enters the restante buffer with its data, and no byte changes until it is performed; one whose data comes from a channel takes
its entry; one to a device register or to tile metadata ends in that register's write (R79, R114, R118, R361). -/
def Obligations.StoresAreHeldOrWriteRegisters : Prop :=
  (∀ (i : Instr) (d a : BitVec 5) (n : Nat) (o : Int) (rel : Bool) (s : State) (va : Nat),
    storeOf i = some (.x d, a, n, o, rel) → s.memFree [a, d] [] →
    s.window s.cur (wordOfInt ((s.me.rx a).toInt + o)) n n = .ok (.global va) → s.restFull (slotCluster s.cur) 1 = false →
      ∃ t, exec i s = .next t ∧ s.completes t (pcMoved s.me.pc 1) ∧ s.sameBytes t ∧ s.sameX t ∧ s.me.sameSpecial t.me ∧
        s.appendsRequest t fun r => r.kind = (if rel then .storeRelease else .store) ∧ r.stage = .held ∧ r.va = va ∧ r.size = n ∧
          r.data = (s.me.rx d).toNat % 2 ^ (8 * n) ∧ r.be = 2 ^ n - 1 ∧ r.pc = s.me.pc) ∧
  ((∀ (i : Instr) (d : Src) (a : BitVec 5) (n : Nat) (o : Int) (rel : Bool) (s : State) (v : Word) (tk : List Target),
    storeOf i = some (d, a, n, o, rel) → s.fieldsReady [] [d] [a.toNat] → s.memHolds = none → s.readSrcs [] [d] = some ([v], tk) →
      (∀ va, s.window s.cur (wordOfInt ((s.me.rx a).toInt + o)) n n = .ok (.global va) → s.restFull (slotCluster s.cur) 1 = false →
        ∃ t, exec i s = .next t ∧ s.completes t (pcMoved s.me.pc 1) ∧ t.me.aq = (s.popAll s.cur tk).me.aq ∧ s.sameBytes t ∧
          s.appendsRequest t fun r => r.va = va ∧ r.size = n ∧ r.data = v.toNat % 2 ^ (8 * n)) ∧
      (∀ off, s.window s.cur (wordOfInt ((s.me.rx a).toInt + o)) n n = .ok (.device off) → s.devMayWrite s.cur off n = true → s.restFull (slotCluster s.cur) 1 = false →
        ∃ t, exec i s = .next t ∧ s.completes t (pcMoved s.me.pc 1) ∧ t.me.aq = (s.popAll s.cur tk).me.aq ∧ s.sameBytes t ∧
          s.appendsRequest t fun r => r.kind = .device ∧ r.stage = .held ∧ r.va = off ∧ r.size = n ∧ r.data = v.toNat % 2 ^ (8 * n)) ∧
      (∀ cl off tags, (s.window s.cur (wordOfInt ((s.me.rx a).toInt + o)) n n = .ok (.bank cl off) ∧ tags = false) ∨
        (s.window s.cur (wordOfInt ((s.me.rx a).toInt + o)) n n = .ok (.tag off) ∧ cl = slotCluster s.cur ∧ tags = true) →
        (rel = true → s.fenceWait s.cur 3 = none) →
        let acc : BankAccess := { op := .store v, cl := cl, tags := tags, off := off, size := n, serial := s.me.serial }
        (s.popAll s.cur tk).bankReady acc →
          ∃ t, exec i s = .next t ∧ s.completes t (pcMoved s.me.pc 1) ∧ s.queuesAccess t acc ∧ t.me.aq = (s.popAll s.cur tk).me.aq ∧ s.sameBytes t)) ∧
  (∀ (s : State) (cl sid : Nat) (a : BankAccess) (l : List BankAccess) (v : Word), s.servesAlone cl sid a l → a.op = .store v → a.tags = true →
    s.does (.scalarSlotGrant cl) fun t => s.sameBytes t ∧ ∀ c, (t.clu c).tags = ((s.tagWrite a.cl a.off a.size v.toNat (s.ctx sid).taints).clu c).tags))

/-- An atomic on scratchpad bytes: rd gets the old value, sign-extended, and the bytes the operator's value; CAS changes them where they were as expected
(R121, R122). -/
def Obligations.AtomicsUpdateTheScratchpad : Prop :=
  ((∀ (i : Instr) (d a b : BitVec 5) (n : Nat) (op : AmoOp) (f : Nat → Nat → Nat) (s : State) (cl off : Nat),
    atomicOf i = some (d, a, b, n, op, f) → s.memFree [a, b] [d] → s.window s.cur (s.me.rx a) n n = .ok (.bank cl off) →
    let acc : BankAccess := { op := .amo op d (s.me.rx b), cl := cl, tags := false, off := off, size := n, serial := s.me.serial }
    s.bankReady acc →
      ∃ t, exec i s = .next t ∧ s.completes t (pcMoved s.me.pc 1) ∧ s.queuesAccess t acc ∧ s.awaitsDst t (.x d) .slotWait ∧ s.sameX t ∧ s.sameBytes t ∧
        s.me.sameSpecial t.me) ∧
  (∀ (i : Instr) (d a b : BitVec 5) (n : Nat) (op : AmoOp) (f : Nat → Nat → Nat) (s : State) (cl sid : Nat) (acc : BankAccess) (l : List BankAccess) (v : Word),
    atomicOf i = some (d, a, b, n, op, f) → s.servesAlone cl sid acc l → acc.op = .amo op d v → acc.size = n → acc.tags = false →
    s.does (.scalarSlotGrant cl) fun t => (t.ctx sid).pend = l ∧
      (s.ctx sid).gives (t.ctx sid) acc.serial (s.now + 3) (.x d) (loadValue true n (s.spadRead acc.cl acc.off n)) ∧
      s.writesSpad t acc.cl acc.off n (f (s.spadRead acc.cl acc.off n) (v.toNat % 2 ^ (8 * n))))) ∧
  ((∀ (d a b : BitVec 5) (w : Bool) (s : State) (cl off : Nat),
    let n := if w then 8 else 4
    s.memFree [a, b, d] [d] → s.window s.cur (s.me.rx a) n n = .ok (.bank cl off) →
    let acc : BankAccess := { op := .cas d (s.me.rx b) (s.me.rx d), cl := cl, tags := false, off := off, size := n, serial := s.me.serial }
    s.bankReady acc →
      ∃ t, exec (.cas d a b w) s = .next t ∧ s.completes t (pcMoved s.me.pc 1) ∧ s.queuesAccess t acc ∧ s.awaitsDst t (.x d) .slotWait ∧ s.sameX t ∧ s.sameBytes t) ∧
  (∀ (s : State) (cl sid : Nat) (a : BankAccess) (l : List BankAccess) (d : BitVec 5) (v e : Word), s.servesAlone cl sid a l → a.op = .cas d v e → a.tags = false →
    let old := s.spadRead a.cl a.off a.size
    s.does (.scalarSlotGrant cl) fun t => (t.ctx sid).pend = l ∧ (s.ctx sid).gives (t.ctx sid) a.serial (s.now + 3) (.x d) (loadValue true a.size old) ∧
      s.writesSpad t a.cl a.off a.size (if old = e.toNat % 2 ^ (8 * a.size) then v.toNat % 2 ^ (8 * a.size) else old)))

/-- An atomic of global memory asks for its translation with its operands, and its register is awaited (R121, R123). -/
def Obligations.GlobalAtomicsAreHeld : Prop :=
  (∀ (i : Instr) (d a b : BitVec 5) (n : Nat) (op : AmoOp) (f : Nat → Nat → Nat) (s : State) (va : Nat),
    atomicOf i = some (d, a, b, n, op, f) → s.memFree [a, b] [d] →
    s.window s.cur (s.me.rx a) n n = .ok (.global va) → s.restFull (slotCluster s.cur) 1 = false →
      ∃ t, exec i s = .next t ∧ s.completes t (pcMoved s.me.pc 1) ∧ s.sameBytes t ∧ s.sameX t ∧ s.awaitsDst t (.x d) .globalWait ∧
        s.appendsRequest t fun r => r.kind = .amo op d ∧ r.stage = .translating ∧ r.va = va ∧ r.size = n ∧ r.data = (s.me.rx b).toNat % 2 ^ (8 * n)) ∧
  (∀ (d a b : BitVec 5) (w : Bool) (s : State) (va : Nat),
    let n := if w then 8 else 4
    s.memFree [a, b, d] [d] → s.window s.cur (s.me.rx a) n n = .ok (.global va) → s.restFull (slotCluster s.cur) 1 = false →
      ∃ t, exec (.cas d a b w) s = .next t ∧ s.completes t (pcMoved s.me.pc 1) ∧ s.sameBytes t ∧ s.sameX t ∧ s.awaitsDst t (.x d) .globalWait ∧
        s.appendsRequest t fun r => r.kind = .cas d ∧ r.stage = .translating ∧ r.va = va ∧ r.size = n ∧ r.data = (s.me.rx b).toNat % 2 ^ (8 * n) ∧
          r.expect = (s.me.rx d).toNat % 2 ^ (8 * n))

/-- FENCE goes on once nothing that its scope covers is open; a FENCE.SC that reaches the other die sends its markers, one on each module behind the
invalidations queued there, and waits until they have returned (R125 to R127).
How the fence's markers are kept is the model's choice (log 3). -/
def Obligations.FencesWaitForTheirScope : Prop :=
  ∀ (sc : Bool) (c : BitVec 3) (s : State), s.others [] [] = none → s.fenceWait s.cur c.toNat = none →
    ((sc = false ∨ c.toNat < 3 ∨ (s.me.fenceSent = true ∧ s.me.markers = [])) →
      ∃ t, exec (.fence sc c) s = .next t ∧ s.completes t (pcMoved s.me.pc 1) ∧ s.sameBytes t ∧ s.sameX t ∧ s.me.sameSpecial t.me) ∧
    (sc = true → 3 ≤ c.toNat → s.me.fenceSent = false →
      ∃ t, exec (.fence sc c) s = .next t ∧ t.me.pc = s.me.pc ∧ t.me.fenceSent = true ∧ s.sameX t ∧ s.sameBytes t ∧
        t.me.markers = (List.range 8).map fun m =>
          (m, (s.invals.filter fun v => v.module == m && v.die == clusterDie (slotCluster s.cur)).map Inval.n)) ∧
    (sc = true → 3 ≤ c.toNat → s.me.fenceSent = true → s.me.markers ≠ [] → exec (.fence sc c) s = .next (s.upd fun c => { c with charge := .fence }))

/-- WAIT: the value differs and rd is 1; the timeout is zero and rd is 2; else the context sleeps with a waiter enqueued. NOTIFY removes the waiters of its
word, the first or all, and gives their number; each of them goes on with rd 0 (R129 to R131). -/
def Obligations.WaitersSleepAndWake : Prop :=
  ((∀ (d a b : BitVec 5) (w : Bool) (s : State) (cl off : Nat),
    let n := if w then 8 else 4
    s.memFree [a, b, d] [d] → s.window s.cur (s.me.rx a) n n = .ok (.bank cl off) → (s.me.rx a).toNat / 2 ^ 48 = 0xF0 →
    let acc : BankAccess := { op := .wait d (s.me.rx b) (s.me.rx d), cl := cl, tags := false, off := off, size := n, serial := s.me.serial }
    s.portWaits acc = false →
      ∃ t, exec (.wait d a b w) s = .next t ∧ t.me.pc = s.me.pc ∧ t.me.charge = .issue ∧ t.me.act = .waitWord d none ∧ s.queuesAccess t acc ∧ s.sameX t ∧ s.sameBytes t) ∧
  (∀ (s : State) (cl sid : Nat) (a : BankAccess) (l : List BankAccess) (d : BitVec 5) (v u : Word), s.servesAlone cl sid a l → a.op = .wait d v u → a.tags = false →
    let c := s.ctx sid
    let old := s.spadRead a.cl a.off a.size
    let wakes (k : Word) : Prop := s.does (.scalarSlotGrant cl) fun t => (t.ctx sid).pend = l ∧ (t.ctx sid).act = .running ∧ (t.ctx sid).pc = pcMoved c.pc 1 ∧
      c.getsX (t.ctx sid) d k ∧ s.sameBytes t
    (old ≠ v.toNat % 2 ^ (8 * a.size) → wakes 1) ∧
    (old = v.toNat % 2 ^ (8 * a.size) → u = 0 → wakes 2) ∧
    (old = v.toNat % 2 ^ (8 * a.size) → u ≠ 0 → s.does (.scalarSlotGrant cl) fun t => (t.ctx sid).pend = l ∧ (t.ctx sid).pc = c.pc ∧
      (t.ctx sid).act = .waitWord d (if u = BitVec.allOnes 64 then none else some (s.now + u.toNat)) ∧
      (t.clu a.cl).waiters = (s.clu a.cl).waiters ++ [{ sid := sid, off := a.off }] ∧ c.sameX (t.ctx sid) ∧ s.sameBytes t))) ∧
  ((∀ (d a : BitVec 5) (all : Bool) (s : State) (cl off : Nat),
    s.memFree [a] [d] → s.window s.cur (s.me.rx a) 4 4 = .ok (.bank cl off) → (s.me.rx a).toNat / 2 ^ 48 = 0xF0 → s.fenceWait s.cur 3 = none →
    let acc : BankAccess := { op := .notify d all, cl := cl, tags := false, off := off, size := 4, serial := s.me.serial }
    s.bankReady acc →
      ∃ t, exec (.notify d a all) s = .next t ∧ s.completes t (pcMoved s.me.pc 1) ∧ s.queuesAccess t acc ∧ s.awaitsDst t (.x d) .slotWait ∧ s.sameX t ∧ s.sameBytes t) ∧
  (∀ (s : State) (cl sid : Nat) (a : BankAccess) (l : List BankAccess) (d : BitVec 5) (all : Bool), s.servesAlone cl sid a l → a.op = .notify d all →
    let ws := notified (s.clu a.cl).waiters a.off all
    s.does (.scalarSlotGrant cl) fun t => (t.ctx sid).pend = l ∧ (t.clu a.cl).waiters = (s.clu a.cl).waiters.filter (fun w => !ws.contains w) ∧ s.sameBytes t ∧
      ((∀ w ∈ ws, w.sid ≠ sid) → (s.ctx sid).gives (t.ctx sid) a.serial (s.now + 3) (.x d) (wordOfInt (ws.length : Nat))) ∧
      ∀ w ∈ ws, w.sid ≠ sid → ∀ r u, (s.ctx w.sid).act = .waitWord r u →
        (t.ctx w.sid).act = .running ∧ (t.ctx w.sid).pc = pcMoved (s.ctx w.sid).pc 1 ∧ (s.ctx w.sid).getsX (t.ctx w.sid) r 0))

/-- What a window admits; an access through 0xF0 that overlaps another resident context's private allocation faults and touches no byte, and one that
overlaps none of them is admitted, its own allocation included (R16 to R19). -/
def Obligations.WindowsAndAllocations : Prop :=
  (∀ (s : State) (sid : Nat) (a : Word) (n k : Nat), 0 < k →
    (a.toNat % k ≠ 0 → s.window sid a n k = .error .misaligned) ∧
    (a.toNat % k = 0 → 2 ^ 56 ≤ a.toNat → s.window sid a n k = .error .windowFault) ∧
    (a.toNat % k = 0 → a.toNat < 0xF0 * 2 ^ 48 → s.window sid a n k = .ok (.global a.toNat)) ∧
    (a.toNat % k = 0 → a.toNat / 2 ^ 48 = 0xF0 → Config.spadBytes < a.toNat % 2 ^ 48 + n → s.window sid a n k = .error .windowFault) ∧
    (a.toNat % k = 0 → a.toNat / 2 ^ 48 = 0xF4 → s.window sid a n k = if 0x8000 < a.toNat % 2 ^ 48 + n then .error .windowFault else .ok (.tag (a.toNat % 2 ^ 48))) ∧
    (a.toNat % k = 0 → a.toNat / 2 ^ 48 = 0xFE → s.window sid a n k = .ok (.device (a.toNat % 2 ^ 48))) ∧
    (a.toNat % k = 0 → (a.toNat / 2 ^ 48 = 0xFF ∨ (0xF5 ≤ a.toNat / 2 ^ 48 ∧ a.toNat / 2 ^ 48 ≤ 0xFD)) → s.window sid a n k = .error .windowFault) ∧
    (a.toNat % k = 0 → (a.toNat / 2 ^ 48 = 0xF2 ∨ a.toNat / 2 ^ 48 = 0xF3) → (s.ctx sid).inmeet = false → s.window sid a n k = .error .windowFault)) ∧
  ((∀ (s : State) (sid : Nat) (a : Word) (n k : Nat), 0 < k → a.toNat % k = 0 → a.toNat / 2 ^ 48 = 0xF0 → a.toNat % 2 ^ 48 + n ≤ Config.spadBytes →
    s.window sid a n k = if s.privHit sid (a.toNat % 2 ^ 48) n then .error .privViolation else .ok (.bank (slotCluster sid) (a.toNat % 2 ^ 48))) ∧
  (∀ (s : State) (sid off n : Nat), let own := if isVisitor sid = true then (s.ctx sid).home else sid
    s.privHit sid off n = true ↔ ∃ l < 8, 10 * slotCluster sid + l ≠ own ∧ (s.ctx (10 * slotCluster sid + l)).act ≠ .free ∧
      (s.ctx (10 * slotCluster sid + l)).privSize ≠ 0 ∧
      off < (s.ctx (10 * slotCluster sid + l)).privBase.toNat + (s.ctx (10 * slotCluster sid + l)).privSize.toNat ∧ (s.ctx (10 * slotCluster sid + l)).privBase.toNat < off + n) ∧
  (∀ (i : Instr) (d : Dst) (a : BitVec 5) (n : Nat) (o : Int) (sg : Bool) (s : State), loadOf i = some (d, a, n, o, sg) → s.fieldsReady [d] [] [a.toNat] →
    s.memHolds = none → s.me.inmeet = false → s.window s.cur (wordOfInt ((s.me.rx a).toInt + o)) n n = .error .privViolation →
      ∃ t, exec i s = .next t ∧ t = s.trap .privViolation (wordOfInt ((s.me.rx a).toInt + o)) s.me.pc ∧ s.sameBytes t) ∧
  (∀ (i : Instr) (d a : BitVec 5) (n : Nat) (o : Int) (rel : Bool) (s : State), storeOf i = some (.x d, a, n, o, rel) → s.memFree [a, d] [] →
    s.me.inmeet = false → s.window s.cur (wordOfInt ((s.me.rx a).toInt + o)) n n = .error .privViolation →
      ∃ t, exec i s = .next t ∧ t = s.trap .privViolation (wordOfInt ((s.me.rx a).toInt + o)) s.me.pc ∧ s.sameBytes t))

/-- The private window: offset o of 0xF1 is scratchpad byte PRIVBASE + o of the context's own cluster, and two contexts whose allocations do not
overlap reach different bytes through one pointer (R17). -/
def Obligations.PrivateWindowReachesOwnAllocation : Prop :=
  (∀ (s : State) (sid : Nat) (a : Word) (n k : Nat), 0 < k → a.toNat % k = 0 → a.toNat / 2 ^ 48 = 0xF1 →
    s.window sid a n k = if isVisitor sid = true ∨ (s.ctx sid).privSize.toNat < a.toNat % 2 ^ 48 + n then .error .windowFault
      else .ok (.bank (slotCluster sid) ((s.ctx sid).privBase.toNat + a.toNat % 2 ^ 48))) ∧
  (∀ (s : State) (p q : Nat) (a : Word) (n k x y : Nat), 0 < k → 0 < n → a.toNat / 2 ^ 48 = 0xF1 →
    ((s.ctx p).privBase.toNat + (s.ctx p).privSize.toNat ≤ (s.ctx q).privBase.toNat ∨
      (s.ctx q).privBase.toNat + (s.ctx q).privSize.toNat ≤ (s.ctx p).privBase.toNat ∨ slotCluster p ≠ slotCluster q) →
    s.window p a n k = .ok (.bank (slotCluster p) x) → s.window q a n k = .ok (.bank (slotCluster q) y) →
      slotCluster p ≠ slotCluster q ∨ x + n ≤ y ∨ y + n ≤ x)

/-! The matrix forms. -/

/-- MMA, MZERO, MTEST, MLDA, MSTA, MSAVE and MRSTR enter the matrix port with copies of their operands once their checks pass and it has room
(R170, R171, R178, R182 to R184, R190).
What waits for an MRSTR in the port is DEDUCED (log 6). -/
def Obligations.PortInstructionsEnterThePort : Prop :=
  ∀ (s : State), s.portFull = false →
    let k := s.matrixState
    (∀ (c : BitVec 2) (a b : BitVec 4) (g h : BitVec 3) (m : BitVec 5), s.matrixReady (.mma c a b g h m) [] [g, h] →
      (s.ring s.here a.toNat).valid = true → (s.ring s.here b.toNat).valid = true →
      shapeBad (Tab.get 0 k.sh g.toNat) (Tab.get 0 k.sh h.toNat) k.fmt (s.ring s.here a.toNat) (s.ring s.here b.toNat) = false →
      planesBad (Tab.get 0 k.sh g.toNat) k.fmt.fa = false → planesBad (Tab.get 0 k.sh h.toNat) k.fmt.fb = false →
      s.groupFault (groupEntries (Tab.get 0 k.sh g.toNat) (Tab.get 0 k.sh h.toNat) k.fmt) = none →
        ∃ t, exec (.mma c a b g h m) s = .next t ∧ s.entersPort t (.mma c a b g h m) fun p =>
          p.sa = Tab.get 0 k.sh g.toNat ∧ p.sb = Tab.get 0 k.sh h.toNat ∧ p.fmt = k.fmt) ∧
    (∀ c, s.matrixReady (.mzero c) [] [] → ∃ t, exec (.mzero c) s = .next t ∧ s.entersPort t (.mzero c) fun _ => True) ∧
    (s.matrixReady .mtest [] [] → ∃ t, exec .mtest s = .next t ∧ s.entersPort t .mtest fun _ => True) ∧
    (∀ (i : Instr) (t : BitVec 4) (n : Bool) (a b : BitVec 5), i = .mlda t n a b ∨ i = .msta t n a b → s.matrixReady i [a, b] [] →
      (s.me.rx a).toNat % accBytes t = 0 → ctlStride (s.me.rx b) % accBytes t = 0 →
      s.scratchCheck false (rowPieces (s.me.rx a) (s.me.rx b) (accBytes t)) = none →
        ∃ u, exec i s = .next u ∧ s.entersPort u i fun p => p.base = s.me.scratchOff (s.me.rx a) ∧ p.ctl = s.me.rx b) ∧
    (∀ (i : Instr) (a : BitVec 5) (saved : Bool), (i = .msave a ∧ saved = true) ∨ (i = .mrstr a ∧ saved = false) → s.matrixReady i [a] [] →
      (s.me.rx a).toNat % 64 = 0 → s.scratchCheck true ((List.range (saveBytes / 64)).map fun n => (s.me.rx a + BitVec.ofNat 64 (64 * n), 64)) = none →
        ∃ u, exec i s = .next u ∧ u.me.msaved = saved ∧ s.entersPort u i fun p => p.base = s.me.scratchOff (s.me.rx a) ∧
          p.shs = ((List.range 8).map fun n => Tab.get 0 k.sh n) ∧ p.fmt = k.fmt ∧ p.mprog = k.mprog)

/-- MWAIT issues once no port instruction of its context names the accumulator; MSHAPE and MFMT read their records; in supervisor mode every matrix form but
MSAVE traps while the matrix state is not saved, and in user mode MSAVE and MRSTR are illegal (R175, R176, R182, R189). -/
def Obligations.MatrixControlForms : Prop :=
  (∀ (s : State),
    (∀ c, s.matrixReady (.mwait c) [] [] →
      ((∀ p ∈ (s.core s.here).port, p.sid = s.cur → p.names c = false) →
        ∃ t, exec (.mwait c) s = .next t ∧ s.completes t (pcMoved s.me.pc 1) ∧ (t.core s.here).owner = some s.cur ∧ s.sameBytes t ∧ s.sameX t) ∧
      ((∃ p ∈ (s.core s.here).port, p.sid = s.cur ∧ p.names c = true) →
        exec (.mwait c) s = .next (s.upd fun d => { d with charge := .matrixWait }))) ∧
    (∀ n a, s.matrixReady (.mshape n a) [a] [n] → s.memHolds = none →
      (∀ cl off, s.blockAt (s.me.rx a) 16 cl off →
        ∃ t, exec (.mshape n a) s = .next t ∧ s.completes t (pcMoved s.me.pc 1) ∧ (t.core s.here).owner = some s.cur ∧ s.sameBytes t ∧ s.sameX t ∧
          s.queuesAccess t { op := .shape n, cl := cl, tags := false, off := off, size := 16, serial := s.me.serial } ∧ t.me.busy = s.me.busy ++ [(64 + n.toNat, .slotWait)]) ∧
      (∀ va, s.window s.cur (s.me.rx a) 16 16 = .ok (.global va) → s.atomicOverlap s.cur s.me.serial va 16 = false →
        ∃ t, exec (.mshape n a) s = .next t ∧ s.completes t (pcMoved s.me.pc 1) ∧ (t.core s.here).owner = some s.cur ∧ s.sameBytes t ∧ s.sameX t ∧
          s.appendsRequest t (fun r => r.kind = .shape n ∧ r.stage = .translating ∧ r.va = va ∧ r.size = 16) ∧ t.me.busy = s.me.busy ++ [(64 + n.toNat, .globalWait)])) ∧
    (∀ a, s.matrixReady (.mfmt a) [a] [] → s.memHolds = none →
      (∀ cl off, s.blockAt (s.me.rx a) 64 cl off →
        ∃ t, exec (.mfmt a) s = .next t ∧ s.waitsAtBank t (s.blockAccess (.mfmt a) cl off 64) ∧ (t.core s.here).owner = some s.cur) ∧
      (∀ va, s.window s.cur (s.me.rx a) 64 64 = .ok (.global va) → s.atomicOverlap s.cur s.me.serial va 64 = false →
        ∃ t, exec (.mfmt a) s = .next t ∧ t.me.pc = s.me.pc ∧ t.me.act = .stalled .globalWait ∧ (t.core s.here).owner = some s.cur ∧ s.sameBytes t ∧ s.sameX t ∧
          s.appendsRequest t fun r => r.kind = .form (.mfmt a) ∧ r.stage = .translating ∧ r.va = va ∧ r.size = 64)) ∧
    (let loads (sid : Nat) (n : BitVec 3) (v : Nat) (t : State) : Prop := s.sameBytes t ∧
        ∀ m, Tab.get 0 (t.core (slotCore sid)).sh m = if m = n.toNat then shapeStored (BitVec.ofNat 128 v) else Tab.get 0 (s.core (slotCore sid)).sh m;
      (∀ cl sid acc l n, s.servesAlone cl sid acc l → acc.op = .shape n → acc.tags = false →
        s.does (.scalarSlotGrant cl) fun t => (t.ctx sid).pend = l ∧ loads sid n (s.spadRead acc.cl acc.off acc.size) t) ∧
      (∀ sid r n, s.loadBack sid = some r → r.kind = .shape n → s.does (.globalLoadReturn sid) fun t => t.req r.id = none ∧ loads sid n r.data t)) ∧
    (let takes (sid : Nat) (v : Nat) (pend : List BankAccess) (a : BitVec 5) (e : Instr) : Prop :=
        (fmtOk v = true → s.does e fun t => s.formDone t sid pend ∧ (t.core (slotCore sid)).fmt = fmtOf v ∧ s.sameBytes t ∧ (s.ctx sid).sameX (t.ctx sid)) ∧
        (fmtOk v = false → s.trapsNow sid → s.does e fun t => (s.ctx sid).traps (t.ctx sid) .formatInvalid (wordOf (.mfmt a)) (s.ctx sid).pc ∧ s.sameBytes t ∧
          (t.core (slotCore sid)).fmt = (s.core (slotCore sid)).fmt);
      (∀ cl sid acc a, s.servesForm cl sid acc (.mfmt a) → acc.tags = false → (s.core (slotCore sid)).owner = some sid →
        takes sid (s.spadRead acc.cl acc.off acc.size) [] a (.scalarSlotGrant cl)) ∧
      (∀ sid r a, s.loadBack sid = some r → r.kind = .form (.mfmt a) → (s.ctx sid).act = .stalled .globalWait → (s.core (slotCore sid)).owner = some sid →
        takes sid r.data (s.ctx sid).pend a (.globalLoadReturn sid)))) ∧
  (∀ (i : Instr) (s : State), isMatrix i = true → isVisitor s.cur = false →
    (s.me.mode = true → s.me.msaved = false → (∀ a, i ≠ .msave a) → exec i s = .next (s.trap .matrixInHandler (wordOf i) s.me.pc)) ∧
    (s.me.mode = false → (∃ a, i = .msave a ∨ i = .mrstr a) → exec i s = .next (s.trap .illegalInstruction (wordOf i) s.me.pc)))

/-- Every matrix form in a visitor slot traps with MATRIX_IN_VISITOR, and leaves the core's matrix state as it was (R188). -/
def Obligations.MatrixFormsTrapInVisitors : Prop :=
  ∀ (i : Instr) (s : State), isMatrix i = true → isVisitor s.cur = true →
    exec i s = .next (s.trap .matrixInVisitor (wordOf i) s.me.pc) ∧
      ∀ t ci, exec i s = .next t → (t.core ci).acc = (s.core ci).acc ∧ (t.core ci).sh = (s.core ci).sh ∧ (t.core ci).fmt = (s.core ci).fmt ∧
        (t.core ci).port = (s.core ci).port ∧ (t.core ci).owner = (s.core ci).owner

/-! The tile forms. -/

/-- RDEF defines a ring and leaves its tags EMPTY and VALID, or faults; RPOP releases the head tile, RPUSH makes the tail tile FULL, and the ring moves on by
one tile (R198 to R200). -/
def Obligations.RingsAreDefinedAndMove : Prop :=
  (∀ (n : BitVec 4) (a b : BitVec 5) (s : State),
    (s.tileReady (.rdef n a b) [a, b] [] → ∃ t, exec (.rdef n a b) s = .next t ∧ s.waitsAtBank t (s.tagAccess (.rdef n a b))) ∧
    (∀ cl sid acc, s.servesForm cl sid acc (.rdef n a b) →
      let x := ((s.ctx sid).rx a).toNat
      let y := ((s.ctx sid).rx b).toNat
      let base := x % 2 ^ 20
      let size := x / 2 ^ 20 % 2 ^ 20
      let tag0 := y % 2 ^ 12
      let count := y / 2 ^ 12 % 2 ^ 13
      let fits := base % 64 = 0 ∧ size % 64 = 0 ∧ 0 < size ∧ 0 < count ∧ tag0 + count ≤ 4096 ∧ base + size * count ≤ Config.spadBytes ∧
        (s.ring (slotCore sid) n.toNat).mode = 0
      (¬fits → s.trapsNow sid → s.does (.scalarSlotGrant cl) fun t =>
        (s.ctx sid).traps (t.ctx sid) .tileFault (wordOfInt (n.toNat : Nat)) (s.ctx sid).pc ∧ s.sameBytes t ∧ (t.core (slotCore sid)).rg = (s.core (slotCore sid)).rg) ∧
      (fits → (s.runs sid).privFirst base (size * count) = none → s.does (.scalarSlotGrant cl) fun t => s.formDone t sid [] ∧ (s.ctx sid).sameX (t.ctx sid) ∧ s.sameBytes t ∧
        (∀ m, t.ring (slotCore sid) m = if m = n.toNat then { base := base, size := size, tag0 := tag0, count := count, valid := true } else s.ring (slotCore sid) m) ∧
        (∀ m < count, tagView (t.tag cl (tag0 + m)) = { valid := true, full := false, cons := false, exp := false, ovr := false, bal := 0 }) ∧
        ∀ m, m < tag0 ∨ tag0 + count ≤ m → t.tag cl m = s.tag cl m))) ∧
  (∀ (n : BitVec 4) (s : State),
    (s.tileReady (.rpop n) [] [] → ∃ t, exec (.rpop n) s = .next t ∧ s.waitsAtBank t (s.tagAccess (.rpop n))) ∧
    (s.tileReady (.rpush n) [] [] → ∃ t, exec (.rpush n) s = .next t ∧ s.waitsAtBank t (s.tagAccess (.rpush n))) ∧
    (∀ cl sid acc,
      let r := s.ring (slotCore sid) n.toNat
      let w := s.tag cl r.headTag
      let v := s.tag cl r.tailTag
      (s.servesForm cl sid acc (.rpop n) → r.valid = true → r.mode ≠ 2 → tagFull w = true → s.does (.scalarSlotGrant cl) fun t =>
        s.formDone t sid [] ∧ (s.ctx sid).sameX (t.ctx sid) ∧ s.sameBytes t ∧ t.ring (slotCore sid) n.toNat = { r with head := (r.head + 1) % r.count } ∧
        tagView (t.tag cl r.headTag) = { tagView w with full := false, exp := false, bal := 0, cons := tagCons w || decide (r.mode = 1) } ∧
        (t.core (slotCore sid)).frees = (s.core (slotCore sid)).frees ++ (if r.mode = 1 then [(n.toNat, r.headTag, s.now, (s.ctx sid).taints)] else [])) ∧
      (s.servesForm cl sid acc (.rpush n) → r.valid = true → r.mode ≠ 1 → tagFillable v = true → s.does (.scalarSlotGrant cl) fun t =>
        s.formDone t sid [] ∧ (s.ctx sid).sameX (t.ctx sid) ∧ s.sameBytes t ∧ t.ring (slotCore sid) n.toNat = { r with tail := (r.tail + 1) % r.count } ∧
        tagView (t.tag cl r.tailTag) = { tagView v with full := true })))

/-- TEXP posts an expectation at the bank unit: the balance falls by the bytes expected, and a balance that comes to zero makes the tile FULL (R193, R197,
R201). -/
def Obligations.TexpPostsAnExpectation : Prop :=
  ∀ (a b : BitVec 5) (s : State),
    (s.tileReady (.texp a b) [a, b] [] → ∃ t, exec (.texp a b) s = .next t ∧ s.waitsAtBank t (s.tagAccess (.texp a b))) ∧
    (∀ cl sid acc, s.servesForm cl sid acc (.texp a b) →
      let m := ((s.ctx sid).rx a).toNat
      let n := ((s.ctx sid).rx b).toNat
      let w := s.tag cl m
      m < 4096 → tagValid w = true → tagFull w = false → tagExp w = false → tagOvr w = false → 0 < n → n ≤ Config.spadBytes → -2 ^ 23 ≤ tagBal w - n → tagBal w ≤ n →
        s.does (.scalarSlotGrant cl) fun t => s.formDone t sid [] ∧ (s.ctx sid).sameX (t.ctx sid) ∧ s.sameBytes t ∧
          tagView (t.tag cl m) = if tagBal w = n then { tagView w with full := true, exp := false, bal := 0 } else { tagView w with exp := true, bal := tagBal w - n })

/-- TTAG gives the tag as it was, and reads, initialises, fills, empties or invalidates it by its operand; TWAIT waits for FULL or EMPTY, with its timeout
(R202, R203).
A tag without a ring follows log 6 (DEDUCED). -/
def Obligations.TagFormsActAndWait : Prop :=
  (∀ (d a b : BitVec 5) (s : State),
    (s.tileReady (.ttag d a b) [a, b] [d] → ∃ t, exec (.ttag d a b) s = .next t ∧ s.waitsAtBank t (s.tagAccess (.ttag d a b))) ∧
    (∀ cl sid acc, s.servesForm cl sid acc (.ttag d a b) →
      let c := s.ctx sid
      let m := (c.rx a).toNat
      let w := s.tag cl m
      let ends (f : TagView → Prop) : Prop := s.does (.scalarSlotGrant cl) fun t =>
        s.formDone t sid [] ∧ c.gives (t.ctx sid) acc.serial (s.now + 3) (.x d) w ∧ s.sameBytes t ∧ f (tagView (t.tag cl m))
      m < 4096 →
        (c.rx b = 0 → ends fun v => v = tagView w) ∧
        (c.rx b = 1 → ends fun v => v = { valid := true, full := false, cons := false, exp := false, ovr := false, bal := 0 }) ∧
        (c.rx b = 2 → tagValid w = true → tagFull w = false → tagExp w = false → tagOvr w = false → tagBal w = 0 → ends fun v => v = { tagView w with full := true }) ∧
        (c.rx b = 3 → tagValid w = true → tagFull w = true → tagExp w = false → ends fun v => v = { tagView w with full := false, bal := 0 }) ∧
        (c.rx b = 4 → ends fun v => v = { valid := false, full := false, cons := false, exp := false, ovr := false, bal := 0 }) ∧
        (5 ≤ (c.rx b).toNat → s.trapsNow sid → s.does (.scalarSlotGrant cl) fun t => c.traps (t.ctx sid) .tileFault (wordOfInt (m : Nat)) c.pc ∧ s.sameBytes t ∧
          t.tag cl m = w))) ∧
  (∀ (d a b : BitVec 5) (s : State),
    (s.tileReady (.twait d a b) [a, b] [d] → ∃ t, exec (.twait d a b) s = .next t ∧ s.waitsAtBank t (s.tagAccess (.twait d a b))) ∧
    (∀ cl sid acc, s.servesForm cl sid acc (.twait d a b) → isVisitor sid = false →
      let c := s.ctx sid
      let m := (c.rx a).toNat % 4096
      let empty := decide ((c.rx a).toNat / 4096 = 1)
      let w := s.tag cl m
      let ends (v : Word) : Prop := s.does (.scalarSlotGrant cl) fun t => s.formDone t sid [] ∧ c.gives (t.ctx sid) acc.serial (s.now + 3) (.x d) v ∧ s.sameBytes t
      (c.rx a).toNat < 2 * 4096 → tagValid w = true →
        (tagFull w ≠ empty → ends 0) ∧
        (tagFull w = empty → c.rx b = 0 → ends 2) ∧
        (tagFull w = empty → c.rx b ≠ 0 → s.does (.scalarSlotGrant cl) fun t => (t.ctx sid).pend = [] ∧ (t.ctx sid).pc = c.pc ∧ c.sameX (t.ctx sid) ∧ s.sameBytes t ∧
          (t.ctx sid).act = .waitTag d m empty (if c.rx b = BitVec.allOnes 64 then none else some (s.now + (c.rx b).toNat)) ∧
          t.tag cl m = w ||| BitVec.ofNat 64 (2 ^ (32 + sid % 10)))))

/-! The engine forms. -/

/-- XCOPY, XSUB and XDRAIN read their block at the bank unit, and there take an engine slot for the transfer it describes, or trap; XUNSUB holds its
request; XSTAT reads a transfer's state (R205 to R210, R213). -/
def Obligations.EngineFormsTakeASlot : Prop :=
  ∀ (s : State),
    (isVisitor s.cur = false →
      (∀ (i : Instr) (a : BitVec 5) cl off, i = .xcopy a ∨ i = .xsub a ∨ i = .xdrain a → s.memFree [a] [] → s.blockAt (s.me.rx a) 64 cl off →
        ∃ t, exec i s = .next t ∧ s.waitsAtBank t (s.blockAccess i cl off 64)) ∧
      (∀ a, s.memFree [a] [] → s.restFull (slotCluster s.cur) 1 = false →
        ∃ t, exec (.xunsub a) s = .next t ∧ s.completes t (pcMoved s.me.pc 1) ∧ s.sameX t ∧ s.sameBytes t ∧
          s.appendsRequest t fun r => r.kind = .unsub ∧ r.stage = .held ∧ r.data = (s.me.rx a).toNat % 2 ^ 32) ∧
      (∀ d a, s.regsReady [a] [d] →
        ∃ t, exec (.xstat d a) s = .next t ∧ s.completes t (pcMoved s.me.pc 1) ∧ s.writesX t d (s.xstat s.here ((s.me.rx a).extractLsb' 0 32)) ∧ s.sameBytes t)) ∧
    (∀ cl sid acc a, s.servesForm cl sid acc (.xcopy a) → acc.tags = false →
      let b := copyBlk (s.spadRead acc.cl acc.off acc.size)
      let p := (s.ctx sid).rx a
      ((s.runs sid).copyFault p b = none → (s.runs sid).xferWait (inSpad b.src || inGlobal b.dst) = none →
        s.does (.scalarSlotGrant cl) fun t => s.formDone t sid [] ∧ (s.ctx sid).sameX (t.ctx sid) ∧ s.sameBytes t ∧
          s.takesSlot t sid .copy b.xid (inSpad b.src || inGlobal b.dst) b.prog) ∧
      (∀ k v, (s.runs sid).copyFault p b = some (k, v) → s.trapsNow sid → s.does (.scalarSlotGrant cl) fun t => (s.ctx sid).traps (t.ctx sid) k v (s.ctx sid).pc ∧
        s.sameBytes t ∧ (t.core (slotCore sid)).xfers = (s.core (slotCore sid)).xfers)) ∧
    (∀ cl sid acc (i : Instr) (a : BitVec 5) (drain : Bool), (i = .xsub a ∧ drain = false) ∨ (i = .xdrain a ∧ drain = true) → s.servesForm cl sid acc i → acc.tags = false →
      let b := walkBlk (s.spadRead acc.cl acc.off acc.size)
      let r := s.ring (slotCore sid) b.ring
      ((s.runs sid).walkBad drain b = false → (s.runs sid).privFirst r.base (r.size * r.count) = none → (s.runs sid).xferWait true = none →
        s.does (.scalarSlotGrant cl) fun t => s.formDone t sid [] ∧ (s.ctx sid).sameX (t.ctx sid) ∧ s.sameBytes t ∧
          s.takesSlot t sid (if drain then .drain else .sub) b.xid true b.prog ∧ t.ring (slotCore sid) b.ring = { r with mode := if drain then 2 else 1 }) ∧
      ((s.runs sid).walkBad drain b = true → s.trapsNow sid → s.does (.scalarSlotGrant cl) fun t =>
        (s.ctx sid).traps (t.ctx sid) .engineInvalid ((s.ctx sid).rx a) (s.ctx sid).pc ∧ s.sameBytes t))

/-! The step, decoding and the memories. -/

/-- A step that issues: for the context that the agenda names, if it may take its core's slot, or that the model's own order names, the word at its PC
is fetched from its line, and a word that decodes is executed by that instruction's meaning, unless something of an earlier instruction or of its core
keeps every instruction of the context; the core's slot of the cycle is then taken, and those ready with it lose it.
The order of the agents within a step, and the fields agenda and served, are the model's choice (log 3). -/
def Obligations.StepRunsTheDecodedInstruction : Prop :=
  ∀ (s0 : State) (sid : Nat) (w : IWord) (i : Instr),
    let r := s0.settlePeers
    let runs (s : State) : Prop :=
      (s.ctx sid).cap = none → s.turnWait sid = none → s.fetch sid = some w → decode w = some i →
        step s0 = match exec i ((s.readied sid).touch sid) with
          | .next t => .next (t.closeTurn sid (s.ctx sid).pc (s.losers sid))
          | o => o
    (∀ l, r.agenda = .issue sid :: l → { r with agenda := l }.mayIssue sid = true → runs { r with agenda := l }) ∧
    (r.agenda = [] → r.due = none → r.aside = none → r.pick = some sid → runs r) ∧
    (∀ (s : State) (x : ILine), findLine (s.core (slotCore sid)).icache (s.ctx sid).pc.toNat (s.ctx sid).pid = some x →
      s.fetch sid = some (BitVec.ofNat 32 (x.data.toNat / 2 ^ (8 * ((s.ctx sid).pc.toNat % 64)))))

/-- Words of each family, written out from the tables of chapter 5 and the worked examples of the spec, decode to what they stand for. -/
def Obligations.WordsOfTheTablesDecode : Prop :=
  decode 0x08102800 = some (.addi (.x 1) (.x 1) 0x800) ∧
  decode 0x04E18347 = some (.srl (.x 14) (.x 12) (.x 13)) ∧
  decode 0x25400400 = some (.lui 20 0x400) ∧
  decode 0x2E940022 = some (.bge 5 0 34) ∧
  decode 0x3C93B000 = some (.st (.x 18) 14 3 0) ∧
  decode 0x480100A0 = some (.mma 0 0 1 0 0 0x14) ∧
  decode 0x4C20C1C1 = some (.msta 1 false 6 7) ∧
  decode 0x50002080 = some (.rdef 0 1 2) ∧
  decode 0x54020000 = some (.xcopy 16) ∧
  decode 0x585142C0 = some (.meet 5 10 11) ∧
  decode 0x5C000001 = some .tend ∧
  decode 0x70000005 = some (.scall 5) ∧
  decode 0x802210E0 = some (.vadd (.v 1) (.v 4) (.v 8) 14 0)

/-- The encoder and the decoder agree: every well-formed instruction that has a word decodes from it, with all its operands. -/
def Obligations.DecodeOfEncodeIsTheInstruction : Prop := ∀ (i : Instr) (w : IWord), wellFormed i = true → encode i = some w → decode w = some i

/-- No word is read as an instruction it does not encode, and what a word decodes to is well-formed. -/
def Obligations.EncodeOfDecodeIsTheWord : Prop := ∀ (w : IWord) (i : Instr), decode w = some i → wellFormed i = true ∧ encode i = some w

/-- Majors 0x00 and 0x3F are permanently illegal: no word in them decodes, and such a word at the head traps with ILLEGAL_INSTRUCTION and the word in
TVAL (R89). -/
def Obligations.PermanentlyIllegalMajors : Prop :=
  (∀ (w : IWord), w.extractLsb' 26 6 = 0 ∨ w.extractLsb' 26 6 = 0x3F → decode w = none) ∧
  (∀ (s : State) (sid : Nat) (w : IWord), (w.extractLsb' 26 6 = 0 ∨ w.extractLsb' 26 6 = 0x3F) → s.fetch sid = some w →
    s.fetchStep sid = .next ((s.touch sid).trap .illegalInstruction (w.zeroExtend 64) (s.touch sid).me.pc)) ∧
  ((0x00000000#32).extractLsb' 26 6 = 0 ∧ (0xFFFFFFFF#32).extractLsb' 26 6 = 0x3F)

/-- Nothing stops the part: every meaning, and every step, answers a next state.
An event whose guard is unmet leaves the state as it is: the model's choice (log 3). -/
def Obligations.EveryMeaningAnswersANextState : Prop := (∀ (i : Instr) (s : State), ∃ t, exec i s = .next t) ∧ ∀ s : State, ∃ t, step s = .next t

/-- What a package reset leaves: STAGE at 0 (Table 26-1), no context, no partition, no queue enabled, no link traffic; and, in the slots, the
registers at the values of Tables 01-3 and 03-3.
The values that the spec does not give are the model's choice (logs 2 and 3). -/
def Obligations.ResetValues : Prop :=
  State.reset.boot.stage = 0 ∧ State.reset.boot.ready = false ∧ (∀ sid, (State.reset.ctx sid).act = .free) ∧ (∀ p, (State.reset.part p).live = false) ∧
  (∀ q, (State.reset.queue q).en = false) ∧ State.reset.reqs = [] ∧ State.reset.net = [] ∧
  (∀ sid, (State.reset.ctx sid).rollq = 2 ∧ (State.reset.ctx sid).meetto = BitVec.allOnes 64 ∧ (State.reset.ctx sid).fflags = 0 ∧ (State.reset.ctx sid).rmode = 0 ∧
    (State.reset.ctx sid).mode = false ∧ (State.reset.ctx sid).rk 0 = BitVec.allOnes 1024 ∧ (State.reset.ctx sid).fm = #v[0x09DC, 0x13D5, 0x005A, 0x004A])

/-- After reset every memory is in its canonical form.
What an unlisted byte reads as is the model's choice (log 4). -/
def Obligations.MemoriesCanonicalAtReset : Prop := State.reset.Inv

/-- Every step keeps the canonical form of every memory.
What an unlisted byte reads as is the model's choice (log 4). -/
def Obligations.StepsKeepMemoriesCanonical : Prop := ∀ s t : State, s.Inv → step s = .next t → t.Inv

/-! CSRs, traps and returns. -/

/-- The CSR forms: the access rules, then the old value to rd and the new value to the CSR, and no other CSR changes; and the CSRs there are, which are those
of Table 01-3 (R11, R12, R233). -/
def Obligations.CsrFormsReadThenWrite : Prop :=
  (∀ (i : Instr) (d a : BitVec 5) (n : BitVec 13) (wr : Bool) (f : Word → Word → Word) (s : State), csrOf i = some (d, a, n, wr, f) →
    let illegal := s.csrRead s.cur n.toNat = none ∨ (n.toNat / 2048 = 2 ∧ s.me.mode = false) ∨ (n.toNat / 2048 = 1 ∧ wr = true)
    (illegal → exec i s = .next (s.trap .illegalInstruction (wordOf i) s.me.pc)) ∧
    (∀ old, ¬illegal → s.csrRead s.cur n.toNat = some old → s.regsReady [a] [d] → s.csrWaits n.toNat = false → s.mprogWaits n.toNat = false →
      ∃ t, exec i s = .next t ∧ s.completes t (pcMoved s.me.pc 1) ∧ s.writesX t d old ∧ s.sameBytes t ∧
        ∀ m, (m = 0x1007 → s.me.mret = false) → t.csrRead t.cur m =
          if m = n.toNat ∧ wr = true then some (csrNew m (s.isOwner s.cur) old (f old (s.me.rx a))) else s.csrRead s.cur m)) ∧
  (∀ (s : State) (sid : Nat) (n : Nat), (s.csrRead sid n).isSome = true ↔ n ∈ [0x0001, 0x0002, 0x0003, 0x0010, 0x0011, 0x0020, 0x0021, 0x0022, 0x0800, 0x0801,
    0x0802, 0x0803, 0x0804, 0x0805, 0x0806, 0x0807, 0x0808, 0x0809, 0x080A, 0x080B, 0x1000, 0x1001, 0x1002, 0x1003, 0x1004, 0x1005, 0x1006, 0x1007, 0x1008, 0x1009])

/-- Taking a trap at home: the status is saved, the mode becomes supervisor, CAUSE, EPC and TVAL are written, TVEC is next, and no other register and no byte
of memory changes; SCALL traps with the next address; BRK halts where halting is enabled, else it traps at its own address (R234, R324). -/
def Obligations.TrapsEnterTheHandler : Prop :=
  (∀ (s : State) (sid : Nat) (own async : Bool) (k : Trap) (v : Word) (e : BitVec 56), s.trapBlock sid = none → (s.ctx sid).inmeet = false →
    let c := s.ctx sid
    let t := s.trapAs sid own async k v e
    let d := t.ctx sid
    d.act = .running ∧ d.pmode = c.mode ∧ d.pui = c.ui ∧ d.mode = true ∧ d.ui = false ∧ d.cause = wordOfInt ((k.code : Nat) + if async then 2 ^ 63 else 0) ∧
      d.epc = e &&& ~~~3 ∧ d.tval = v ∧ d.pc = c.tvec ∧ d.cap = none ∧ d.replay = none ∧
      (c.cap = none → c.replay = none → d.frame = c.frame &&& ~~~0x8000) ∧
      d.x = c.x ∧ d.v = c.v ∧ d.k = c.k ∧ d.fm = c.fm ∧ d.c = c.c ∧ d.aq = c.aq ∧ d.fflags = c.fflags ∧ d.tvec = c.tvec ∧ d.msaved = c.msaved ∧
      (∀ o, o ≠ sid → t.ctx o = s.ctx o) ∧ t = { s with ctxs := t.ctxs, cores := t.cores } ∧
      ∀ ci, t.core ci = if ci = slotCore sid then { s.core ci with seq := (s.core ci).seq.filter fun q => !(q.frame && q.sid == sid) } else s.core ci) ∧
  (∀ (i : BitVec 20) (s : State),
    (s.trapBlock s.cur = none → s.me.inmeet = false →
      ∃ t, exec (.scall i) s = .next t ∧ t.me.pc = s.me.tvec ∧ t.me.mode = true ∧ t.me.pmode = s.me.mode ∧ t.me.cause = 23 ∧ t.me.tval = i.zeroExtend 64 ∧
        t.me.epc = pcMoved s.me.pc 1 &&& ~~~3 ∧ s.sameX t ∧ s.sameBytes t) ∧
    (s.debugHalt = false → s.trapBlock s.cur = none → s.me.inmeet = false →
      ∃ t, exec (.brk i) s = .next t ∧ t.me.pc = s.me.tvec ∧ t.me.mode = true ∧ t.me.pmode = s.me.mode ∧ t.me.cause = 24 ∧ t.me.tval = i.zeroExtend 64 ∧
        t.me.epc = s.me.pc &&& ~~~3 ∧ s.sameX t ∧ s.sameBytes t) ∧
    (s.debugHalt = true → ∃ t, exec (.brk i) s = .next t ∧ t.me.act = .halted ∧ t.me.pc = pcMoved s.me.pc 1 ∧ t.me.mode = s.me.mode ∧ s.sameX t ∧ s.sameBytes t))

/-- TRET: refused in user mode and after MSAVE, else the status and the PC are restored and the V of a fault record whose trap was taken is cleared; where
FRAME names a frame, its REPF is found and the frame is captured again. UIRET: refused in
supervisor mode and outside a user-level handler, else the PC comes from UEPC and UI is cleared (R235, R325). -/
def Obligations.ReturnsRestoreTheStatus : Prop :=
  ∀ s : State,
    (s.me.mode = false → exec .tret s = .next (s.trap .illegalInstruction (wordOf .tret) s.me.pc)) ∧
    (s.me.mode = true → s.me.msaved = true → exec .tret s = .next (s.trap .matrixInHandler (wordOf .tret) s.me.pc)) ∧
    (s.me.mode = true → s.me.msaved = false →
      let back (t : State) : Prop := t.me.mode = s.me.pmode ∧ t.me.ui = s.me.pui ∧ t.me.frame.getLsbD 15 = false ∧ s.sameX t ∧ s.sameBytes t ∧
        (s.me.fault.pending = false → t.me.fault.valid = false ∧ ∀ r ∈ t.reqs, r.sid = s.cur → r.stranded = false);
      (s.me.frame.getLsbD 15 = false → ∃ t, exec .tret s = .next t ∧ s.completes t s.me.epc ∧ back t) ∧
      (∀ w l n st, s.me.frame.getLsbD 15 = true → s.wordBefore = .ok w → decode w = some (.repf l n st) →
        ∃ t, exec .tret s = .next t ∧ s.completes t s.me.framepc ∧ back t ∧ t.me.cap = some (s.me.recapture n st)) ∧
      (∀ w, s.me.frame.getLsbD 15 = true → s.wordBefore = .ok w → (∀ l n st, decode w ≠ some (.repf l n st)) →
        exec .tret s = .next (s.trap .frameIllegal (w.zeroExtend 64) s.me.pc))) ∧
    (s.me.mode = true ∨ s.me.ui = false → exec .uiret s = .next (s.trap .illegalInstruction (wordOf .uiret) s.me.pc)) ∧
    (s.me.mode = false → s.me.ui = true → ∃ t, exec .uiret s = .next t ∧ s.completes t (s.me.uepc.extractLsb' 0 56 &&& ~~~3) ∧ t.me.ui = false ∧
      t.me.mode = false ∧ s.sameX t ∧ s.sameBytes t)

/-- SLEEP, CHBIND and ACCT (R228, R236, R237). -/
def Obligations.SleepBindAndAccount : Prop :=
  ∀ s : State,
    (∀ i, isVisitor s.cur = true → exec (.sleep i) s = .next (s.trap .visitorFault (wordOf (.sleep i)) s.me.pc)) ∧
    (∀ i, isVisitor s.cur = false → (s.sleepOver s.cur = true ∨ s.me.act = .slept) →
      ∃ t, exec (.sleep i) s = .next t ∧ t.me.pc = pcMoved s.me.pc 1 ∧ t.me.act = .running ∧ t.me.charge = .issue ∧ s.sameX t ∧ s.sameBytes t) ∧
    (∀ i, isVisitor s.cur = false → s.sleepOver s.cur = false → s.me.act ≠ .slept →
      (s.me.asleep = false → ∃ t, exec (.sleep i) s = .next t ∧ t.me.pc = s.me.pc ∧ t.me.charge = .sleep ∧
        t.me.act = .sleeping (if i = 0 then none else some (s.now + 64 * i.toNat)) ∧ s.sameX t ∧ s.sameBytes t) ∧
      (s.me.asleep = true → exec (.sleep i) s = .next (s.upd fun c => { c with charge := .sleep }))) ∧
    (∀ n a, isVisitor s.cur = true → exec (.chbind n a) s = .next (s.trap .visitorFault (wordOf (.chbind n a)) s.me.pc)) ∧
    (∀ n a, isVisitor s.cur = false → s.holds [a.toNat] [n] [] = none →
      let v := (s.me.rx a).toNat
      let k := v % 16
      let x := v / 16
      let ok := v < 256 ∧ ((k = 0 ∧ x = 0) ∨ (k = 1 ∧ x < 8) ∨ (k = 2 ∧ x = 0) ∨ (k = 3 ∧ x < 4) ∨ (k = 4 ∧ x < 4) ∨ (k = 5 ∧ x = 0 ∧ s.me.win.isSome = true))
      (¬ok → exec (.chbind n a) s = .next (s.trap .channelFault (wordOf (.chbind n a)) s.me.pc)) ∧
      (ok → ∃ t, exec (.chbind n a) s = .next t ∧ s.completes t (pcMoved s.me.pc 1) ∧ t.me.c = s.me.c.set n.toNat (BitVec.ofNat 8 v) n.isLt ∧ t.me.aq = s.me.aq ∧
        s.sameX t ∧ s.sameBytes t)) ∧
    (∀ d a, s.regsReady [a] [d] →
      let n := (s.me.rx a).toNat % 32
      ∃ t, exec (.acct d a) s = .next t ∧ s.completes t (pcMoved s.me.pc 1) ∧ s.writesX t d (if h : n < 23 then (s.me.acct[n]'(by omega)).zeroExtend 64 else 0) ∧
        s.sameBytes t ∧ t.acctq.length = s.acctq.length + (if (s.me.rx a).getLsbD 8 = true ∧ s.me.run.isSome = true ∧ s.me.acctOn = true then 1 else 0))

/-! Meetings and roll calls. -/

/-- MEET: refused in a visitor slot, at a meeting and with a bad descriptor; else the party parks, and its notice leaves for the directory (R216,
R217). -/
def Obligations.MeetParksItsParty : Prop :=
  ∀ (d a b : BitVec 5) (s : State),
    let x := (s.me.rx b).toNat
    let poff := x % 2 ^ 14
    let plen := x / 2 ^ 14 % 2 ^ 7
    let vmask := (s.me.rx b).extractLsb' 24 16
    let bad := 2 ^ 40 ≤ x ∨ x / 2 ^ 21 % 8 ≠ 0 ∨ 4 < ((List.range 16).filter fun n => vmask.getLsbD n).length ∨ s.me.privSize.toNat < 64 * (poff + plen + 1)
    (isVisitor s.cur = true → exec (.meet d a b) s = .next (s.trap .visitorFault (wordOf (.meet d a b)) s.me.pc)) ∧
    (isVisitor s.cur = false → s.me.inmeet = true → exec (.meet d a b) s = .next (s.trap .meetState (wordOf (.meet d a b)) s.me.pc)) ∧
    (isVisitor s.cur = false → s.me.inmeet = false → s.regsReady [a, b] [d] →
      (bad → exec (.meet d a b) s = .next (s.trap .meetInvalid (wordOf (.meet d a b)) s.me.pc)) ∧
      (¬bad → s.unretired s.cur = false → s.portPending s.cur = false →
        ∃ t, exec (.meet d a b) s = .next t ∧ s.parks t (fun p => p.roll = false ∧ p.key = s.me.rx a ∧ p.d = d ∧ p.poff = poff ∧ p.plen = plen ∧ p.vmask = vmask ∧
          p.deadline = if s.me.meetto = 0 ∨ s.me.meetto = BitVec.allOnes 64 then none else some (s.now + s.me.meetto.toNat)) .notice))

/-- ROLL: refused in a visitor slot, at a meeting, and where ROLLQ or the registers are out of range; else the party parks with its word, and its arrival
leaves for the directory; the combined word is the operation over the words in the order of arrival (R224, R266). -/
def Obligations.RollCallsParkAndCombine : Prop :=
  (∀ (i : Instr) (op : Nat) (d a b : BitVec 5) (s : State), rollOf i = some (op, d, a, b) →
    let q := s.me.rollq.toNat
    let bad := q < 2 ∨ 1024 < q ∨ (d = b ∧ d ≠ 0)
    (isVisitor s.cur = true → exec i s = .next (s.trap .visitorFault (wordOf i) s.me.pc)) ∧
    (isVisitor s.cur = false → s.me.inmeet = true → exec i s = .next (s.trap .meetState (wordOf i) s.me.pc)) ∧
    (isVisitor s.cur = false → s.me.inmeet = false → bad → exec i s = .next (s.trap .meetInvalid (wordOf i) s.me.pc)) ∧
    (isVisitor s.cur = false → s.me.inmeet = false → ¬bad → s.regsReady [a] [d, b] → s.fenceWait s.cur 3 = none → s.unretired s.cur = false →
      ∃ t, exec i s = .next t ∧ s.parks t (fun p => p.roll = true ∧ p.key = s.me.rx a ∧ p.d = d ∧ p.b = b ∧ p.quorum = q ∧ p.op = op ∧ p.word = s.me.rx b) .arrival)) ∧
  ((∀ (w : Word) (l : List Word), rollWord 1 (w :: l) = wordOfInt ((w :: l).map fun x => (x.toNat : Int)).sum) ∧
  (∀ (w : Word) (l : List Word), (rollWord 4 (w :: l)).toNat = ((w :: l).map BitVec.toNat).foldl min w.toNat) ∧
  (∀ (w : Word) (l : List Word), (rollWord 5 (w :: l)).toNat = ((w :: l).map BitVec.toNat).foldl max w.toNat) ∧
  (∀ (w : Word) (l : List Word), (rollWord 2 (w :: l)).toInt = ((w :: l).map BitVec.toInt).foldl min w.toInt) ∧
  (∀ (w : Word) (l : List Word), (rollWord 3 (w :: l)).toInt = ((w :: l).map BitVec.toInt).foldl max w.toInt) ∧
  (∀ (w : Word) (l : List Word) (n : Nat), (rollWord 6 (w :: l)).getLsbD n = (w :: l).all fun x => x.getLsbD n) ∧
  (∀ (w : Word) (l : List Word) (n : Nat), (rollWord 7 (w :: l)).getLsbD n = (w :: l).any fun x => x.getLsbD n) ∧
  (∀ (w : Word) (l : List Word) (n : Nat), (rollWord 8 (w :: l)).getLsbD n = decide (((w :: l).countP fun x => x.getLsbD n) % 2 = 1)) ∧
  ∀ l, rollWord 0 l = 0)

/-- PEER and PEERV: refused once the partner is gone; PEER gives the latest visible write of the register, `.now` else the value at the partner's
MEET, the plain form else waits for a write; PEERV goes to the sequencer, and gives the vector as it travelled (R219, R220).
How the history of the partner's writes is kept is the model's choice (log 3). -/
def Obligations.PeersReadThePartner : Prop :=
  ∀ (s : State),
    (∀ (d n : BitVec 5) (now : Bool), s.memHolds = none → s.regsReady [] [d] →
      (s.partnerOf s.cur = none → exec (.peer d n now) s = .next (s.trap .partnerGone (wordOf (.peer d n now)) s.me.pc)) ∧
      (∀ p q, s.partnerOf s.cur = some (p, q) →
        (∀ v, n ≠ 0 → s.visibleWrite p q n.toNat = some v →
          ∃ t, exec (.peer d n now) s = .next t ∧ s.completes t (pcMoved s.me.pc 1) ∧ s.writesX t d v ∧ s.sameBytes t) ∧
        (n = 0 → ∃ t, exec (.peer d n now) s = .next t ∧ s.completes t (pcMoved s.me.pc 1) ∧ s.writesX t d 0 ∧ s.sameBytes t) ∧
        (n ≠ 0 → s.visibleWrite p q n.toNat = none → now = true →
          ∃ t, exec (.peer d n now) s = .next t ∧ s.completes t (pcMoved s.me.pc 1) ∧ s.writesX t d (q.xs[n.toNat]'n.isLt) ∧ s.sameBytes t) ∧
        (n ≠ 0 → s.visibleWrite p q n.toNat = none → now = false →
          ∃ t, exec (.peer d n now) s = .next t ∧ s.completes t (pcMoved s.me.pc 1) ∧ s.sameX t ∧ s.sameBytes t ∧ t.me.busy = s.me.busy ++ [(d.toNat, .depend)] ∧
            t.me.acq = some .depend))) ∧
    (∀ (d n : BitVec 4),
      (s.partnerOf s.cur = none → exec (.peerv d n) s = .next (s.trap .partnerGone (wordOf (.peerv d n)) s.me.pc)) ∧
      (∀ p q, s.partnerOf s.cur = some (p, q) →
        (q.vmask.getLsbD n.toNat = false → exec (.peerv d n) s = .next (s.trap .meetInvalid (wordOf (.peerv d n)) s.me.pc)) ∧
        (∀ v, q.vmask.getLsbD n.toNat = true → s.vectorReady (.peerv d n) { d := some (.v d) } 0 0 [] → s.me.acq = none →
          q.vs.find? (fun x => x.1 == n.toNat) = some (n.toNat, v) →
            ∃ t, exec (.peerv d n) s = .next t ∧ s.entersSequencer t (.peerv d n) 0 0 ∧ ∀ e, (t.core s.here).seq.getLast? = some e → e.va = some v)) ∧
      (∀ ci e l v, (s.core ci).seq = e :: l → slotCore e.sid = ci → e.i = .peerv d n → e.va = some v → e.frame = false → e.bound = false → (s.core ci).bindAt ≤ s.now →
        s.vecReady e.sid e.i { d := some (.v d) } = true → s.does (.sequencerBind ci) fun t => (t.core ci).seq = l ∧ s.sameBytes t ∧
          (s.ctx e.sid).sameX (t.ctx e.sid) ∧ ∀ m, (t.ctx e.sid).rv m = if m = d then v else (s.ctx e.sid).rv m))

/-- PART: refused at no meeting; a party in place goes on at home, a visitor's state leaves with its parcel, and the partner sees it gone (R221). -/
def Obligations.PartEndsTheMeeting : Prop :=
  ∀ (s : State),
    (s.me.inmeet = false → exec .part s = .next (s.trap .meetState (wordOf .part) s.me.pc)) ∧
    (∀ m, s.me.meet = some m → s.me.inmeet = true → m.partner ≠ s.cur → s.unretired s.cur = false → s.portPending s.cur = false →
      (s.partTakes s.cur m).partnerTouches s.cur m = false →
        (m.inPlace = true → ∃ t, exec .part s = .next t ∧ s.completes t (pcMoved s.me.pc 1) ∧ t.me.inmeet = false ∧ t.me.meet = none ∧ s.sameX t ∧ s.sameBytes t ∧
          (s.atMeeting m.partner m.taint = true → ∀ q, (t.ctx m.partner).meet = some q → q.gone = true)) ∧
        (m.inPlace = false → ∃ t, exec .part s = .next t ∧ t.me.act = .away ∧ s.sameBytes t ∧
          (s.atMeeting m.partner m.taint = true → ∀ q, (t.ctx m.partner).meet = some q → q.gone = true) ∧
          ∃ x c, t.net = s.net ++ [x] ∧ c.x = s.me.x ∧ c.pc = pcMoved s.me.pc 1 ∧ c.fflags = s.me.fflags ∧
            x.body = .luggage s.me.home c (s.spadRead (slotCluster s.cur) m.parcel (64 * (m.plen + 1))) s.cur))

/-! Tasks. -/

/-- LAUNCH holds its launch as an output and gives or awaits its id; TEND ends the task once nothing is open; YIELD offers the core (R225 to R227).
What a YIELD in supervisor mode does is DEDUCED (log 13). -/
def Obligations.TasksLaunchEndAndYield : Prop :=
  (∀ (d a b : BitVec 5) (s : State),
    let i : Instr := .launch d a b
    let x := (s.me.rx a).toNat
    (isVisitor s.cur = true → exec i s = .next (s.trap .visitorFault (wordOf i) s.me.pc)) ∧
    (isVisitor s.cur = false → s.memFree [a, b] [d] →
      (2 ^ 48 ≤ x ∨ s.template s.me.part (x % 2 ^ 16) = none → exec i s = .next (s.trap .launchInvalid (wordOf i) s.me.pc)) ∧
      (x < 2 ^ 48 → s.template s.me.part (x % 2 ^ 16) ≠ none →
        (s.me.rx b = 0 → s.inboxFull s.here = false → s.restFull (slotCluster s.cur) 1 = false →
          ∃ t, exec i s = .next t ∧ s.completes t (pcMoved s.me.pc 1) ∧ s.sameBytes t ∧ s.sameX t ∧ (t.core s.here).reserved = (s.core s.here).reserved + 1 ∧
            s.appendsRequest t (fun r => r.kind = .launch (x % 2 ^ 16) (x / 2 ^ 16) (List.replicate 6 0) s.me.queue.toNat ∧ r.stage = .held) ∧
            t.me.idWait = s.me.idWait ++ [(d, s.nextId)] ∧ t.me.busy = s.me.busy ++ [(d.toNat, .globalWait)]) ∧
        (∀ cl off, s.me.rx b ≠ 0 → s.blockAt (s.me.rx b) 64 cl off → ∃ t, exec i s = .next t ∧ s.waitsAtBank t (s.blockAccess i cl off 64)) ∧
        (∀ va, s.me.rx b ≠ 0 → s.window s.cur (s.me.rx b) 64 64 = .ok (.global va) → s.atomicOverlap s.cur s.me.serial va 64 = false →
          ∃ t, exec i s = .next t ∧ t.me.pc = s.me.pc ∧ t.me.act = .stalled .globalWait ∧ s.sameBytes t ∧ s.sameX t ∧
            s.appendsRequest t fun r => r.kind = .form i ∧ r.stage = .translating ∧ r.va = va ∧ r.size = 64))) ∧
    (let takes (sid v : Nat) (pend : List BankAccess) (e : Instr) : Prop :=
        let y := ((s.ctx sid).rx a).toNat
        (blockWord v 6 = 0 → blockWord v 7 = 0 → s.inboxFull (slotCore sid) = false → s.restFull (slotCluster sid) 1 = false →
          s.does e fun t => s.formDone t sid pend ∧ (s.ctx sid).sameX (t.ctx sid) ∧ s.sameBytes t ∧
            (t.core (slotCore sid)).reserved = (s.core (slotCore sid)).reserved + 1 ∧ (t.ctx sid).idWait = (s.ctx sid).idWait ++ [(d, s.nextId)] ∧
            (t.ctx sid).busy = (s.ctx sid).busy ++ [(d.toNat, .globalWait)] ∧ ∃ r ∈ t.reqs, r.id = s.nextId ∧ r.sid = sid ∧ r.stage = .held ∧
              r.kind = .launch (y % 2 ^ 16) (y / 2 ^ 16) ((List.range 6).map fun k => wordOfInt (blockWord v k : Nat)) (s.ctx sid).queue.toNat) ∧
        (blockWord v 6 ≠ 0 ∨ blockWord v 7 ≠ 0 → s.trapsNow sid → s.does e fun t => (s.ctx sid).traps (t.ctx sid) .launchInvalid (wordOf i) (s.ctx sid).pc ∧ s.sameBytes t);
      (∀ cl sid acc, s.servesForm cl sid acc i → acc.tags = false → takes sid (s.spadRead acc.cl acc.off acc.size) [] (.scalarSlotGrant cl)) ∧
      (∀ sid r, s.loadBack sid = some r → r.kind = .form i → (s.ctx sid).act = .stalled .globalWait → takes sid r.data (s.ctx sid).pend (.globalLoadReturn sid)))) ∧
  (∀ (s : State),
    let s1 := if s.me.mode = true then s.cancelSubs.dropStranded else s.cancelSubs
    (s.me.inmeet = true → exec .tend s = .next (s.trap .meetState (wordOf .tend) s.me.pc)) ∧
    (s.me.inmeet = false → s1.tendWait = none →
      ∃ t, exec .tend s = .next t ∧ t.ctx s.cur = {} ∧ (∀ o, o ≠ s.cur → t.ctx o = s.ctx o) ∧ s.sameBytes t ∧ (t.core s.here).owner ≠ some s.cur ∧
        (∀ e ∈ (t.core s.here).inbox, e.tag ≠ slotTag s.cur) ∧ t.launches = s.launches.map fun l =>
          if l.part = s.me.part ∧ l.lid = s.me.launchId.toNat then
            { l with ends := l.ends ++ [{ gang := s.me.gang.toNat % 2 ^ 32, member := s.me.gang.toNat / 2 ^ 32 % 256, cl := slotCluster s.cur, at_ := s.now }] }
          else l) ∧
    (∀ k, s.me.inmeet = false → s1.tendWait = some k →
      ∃ t, exec .tend s = .next t ∧ t.me.pc = s.me.pc ∧ t.me.act = s.me.act ∧ t.me.charge = k ∧ s.sameX t ∧ s.sameBytes t)) ∧
  (∀ (d : BitVec 5) (s : State),
    (isVisitor s.cur = true → exec (.yield d) s = .next (s.trap .visitorFault (wordOf (.yield d)) s.me.pc)) ∧
    (isVisitor s.cur = false → s.regsReady [] [d] →
      let y := s.me.inmeet = false ∧ s.yieldTo s.here s.me.part = true
      (y → ∃ t, exec (.yield d) s = .next t ∧ s.completes t (pcMoved s.me.pc 1) ∧ s.writesX t d 0 ∧ s.sameBytes t ∧ t.me.preemptReq = true) ∧
      (¬y → ∃ t, exec (.yield d) s = .next t ∧ s.completes t (pcMoved s.me.pc 1) ∧ s.writesX t d 1 ∧ s.sameBytes t ∧ t.me.preemptReq = s.me.preemptReq)))

/-- SBIND reads its descriptor and starts a stream engine; EMIT and PUBL read their record, WMK its time, and hold it as an output of the stream (R230 to
R232). -/
def Obligations.StreamFormsHoldTheirOutput : Prop :=
  ∀ (s : State),
    (isVisitor s.cur = false →
      (∀ a cl off, s.memFree [a] [] → s.blockAt (s.me.rx a) 64 cl off → ∃ t, exec (.sbind a) s = .next t ∧ s.waitsAtBank t (s.blockAccess (.sbind a) cl off 64)) ∧
      (∀ a b, s.memFree [a, b] [] →
        (s.deviceSource s.me.part (s.me.rx a).toNat = true →
          (∀ cl off, s.blockAt (s.me.rx b) 32 cl off → ∃ t, exec (.emit a b) s = .next t ∧ s.waitsAtBank t (s.blockAccess (.emit a b) cl off 32)) ∧
          (s.restFull (slotCluster s.cur) 1 = false → ∃ t, exec (.wmk a b) s = .next t ∧ s.completes t (pcMoved s.me.pc 1) ∧ s.sameX t ∧ s.sameBytes t ∧
            s.appendsRequest t fun r => r.kind = .wmk ((s.me.rx a).toNat % 2 ^ 16) ((s.me.rx a).toNat / 2 ^ 16) ∧ r.stage = .held ∧ r.data = (s.me.rx b).toNat)) ∧
        (s.deviceSource s.me.part (s.me.rx a).toNat = false →
          exec (.emit a b) s = .next (s.trap .streamFault (wordOf (.emit a b)) s.me.pc) ∧ exec (.wmk a b) s = .next (s.trap .streamFault (wordOf (.wmk a b)) s.me.pc))) ∧
      (∀ a, s.memFree [a] [] →
        (∀ w cl off, s.me.win = some w → w.published = false → s.blockAt (s.me.rx a) 16 cl off →
          ∃ t, exec (.publ a) s = .next t ∧ s.waitsAtBank t (s.blockAccess (.publ a) cl off 16)) ∧
        ((s.me.win = none ∨ ∃ w, s.me.win = some w ∧ w.published = true) → exec (.publ a) s = .next (s.trap .streamFault (wordOf (.publ a)) s.me.pc)))) ∧
    (∀ cl sid acc, let c := s.ctx sid
      let v := s.spadRead acc.cl acc.off acc.size
      let ends (t : State) : Prop := s.formDone t sid [] ∧ c.sameX (t.ctx sid) ∧ s.sameBytes t
      acc.tags = false →
        (∀ a, s.servesForm cl sid acc (.sbind a) → let b := streamBlk v
          ((s.runs sid).streamFaultOf (c.rx a) b = none → (s.engOf sid b.eng).active = false → s.inboxFull (slotCore sid) = false →
            s.does (.scalarSlotGrant cl) fun t => ends t ∧ (t.core (slotCore sid)).reserved = (s.core (slotCore sid)).reserved + 1 ∧
              (t.engOf sid b.eng).active = true ∧ (t.engOf sid b.eng).sid = sid ∧ (t.engOf sid b.eng).out = b.out ∧ (t.engOf sid b.eng).wide = b.wide ∧
              (t.engOf sid b.eng).n = b.n ∧ (t.engOf sid b.eng).moved = 0 ∧ (t.engOf sid b.eng).buf = []) ∧
          (∀ k x, (s.runs sid).streamFaultOf (c.rx a) b = some (k, x) → s.trapsNow sid →
            s.does (.scalarSlotGrant cl) fun t => c.traps (t.ctx sid) k x c.pc ∧ s.sameBytes t)) ∧
        (s.restFull (slotCluster sid) 1 = false →
          (∀ a b, s.servesForm cl sid acc (.emit a b) → s.does (.scalarSlotGrant cl) fun t => ends t ∧
            (s.runs sid).appendsRequest t fun r => r.kind = .emit ((c.rx a).toNat % 2 ^ 16) ((c.rx a).toNat / 2 ^ 16) ∧ r.stage = .held ∧ r.data = v) ∧
          (∀ a w, s.servesForm cl sid acc (.publ a) → c.win = some w → s.does (.scalarSlotGrant cl) fun t => ends t ∧ (t.ctx sid).win = some { w with published := true } ∧
            (s.runs sid).appendsRequest t fun r => r.kind = .publ w.stream w.window w.lane w.revision w.amend ∧ r.stage = .held ∧ r.data = v)))

/-! The vector forms. -/

/-- An arithmetic or mask form or KPOPC enters its core's sequencer with the rounding mode, seed and formats of its issue; at the head, with its
registers and channel entries there and space for its result, it binds, by itself or to a lane group, and acts by the tables of chapter 8 (R14, R138,
R139, R140, R245).
The forms: VADD, VADD_SAT, VSUB, VSUB_SAT, VMUL, VMUL_SAT, VFMA, VFMS, VMULH, VABS, VMIN, VMAX, VNEG, VMOV, VAND, VOR, VXOR, VSHR, VSHL, VSHL_SAT,
VSHRA, VSEL, VCMP_EQ, VCMP_NE, VCMP_LT, VCMP_LE, VBCAST, VRED, VCVT, VCVT_SR, VPERM, VSLIDE, VZIP, VUNZIP, VDOT, VPLANE, VQNT, VDQNT, VRCP, VRSQ, VEX2,
VLG2, VSIN, VTANH, KAND, KOR, KNOT and KPOPC.  The choice within the error bound of a special function is a free value (log 5); the choices of logs 22 to 24 are the model's. -/
def Obligations.VectorFormsActOrEnterTheSequencer : Prop :=
  (∀ (i : Instr) (h : VShape) (s : State) (xa xb : Word) (tx : List Target), isVMem i = false → (∀ d n, i ≠ .peerv d n) → (∀ n a, i ≠ .setfmt n a) →
    (∀ l a b, i ≠ .repf l a b) → s.vectorReady i h xa xb tx → ∃ t, exec i s = .next t ∧ s.entersSequencer t i xa xb) ∧
  ∀ (s : State) (cl c : Nat) (e : SeqEntry) (l : List SeqEntry) (h : VShape) (a b : VReg) (tv : List Target), c < 4 → (s.core (4 * cl + c)).seq = e :: l →
    s.headBinds e h a b tv → isVMem e.i = false →
      let acts (t : State) : Prop := (t.core (4 * cl + c)).seq = l ∧ s.sameBytes t ∧
        (s.ctx e.sid).shows (t.ctx e.sid) (vecEffect (s.ctx e.sid) e.env e.seed.toNat e.i (e.va.getD a) b e.xa e.xb);
      (usesLanes e.i = false → (s.core (4 * cl + c)).bindAt ≤ s.now → s.does (.sequencerBind (4 * cl + c)) acts) ∧
      (∀ g, usesLanes e.i = true → (s.clu cl).laneAt ≤ s.now → (s.clu cl).freeGroup s.now = some g →
        (1 ≤ (s.clu cl).ldef ∧ (s.clu cl).lptr = c) ∨ (∀ c', c' ≠ c → s.laneServe (4 * cl + c') = none) → s.does (.laneGroupGrant cl) acts)

/-- A vector memory form whose active lanes pass their checks enters the sequencer: a whole or strided one with its lanes' places and with its global
lines asked for; a gather or scatter is checked at the head. A lane that fails its check traps, when no translation of a lower one is to be known
first, with that lane's address. A form binds when its translations are back and its accesses may follow the earlier ones:
a store's global lines are then held, a load's lines sent. The vector slots read or write its scratchpad lines; a load gives the image of its active
lanes when all has come (R157 to R160, R242).
The forms: VLD, VST, VLDS, VSTS, VGTHR and VSCTR. -/
def Obligations.VectorMemoryFormsMoveTheirLanes : Prop :=
  (∀ (i : Instr) (h : VShape) (s : State) (xa xb : Word) (tx : List Target), isVMem i = true → s.vectorReady i h xa xb tx →
    (∀ st ty m v ps, h.b = none → vmemOf i s.me xa xb 0 = some (st, ty, m, v) → s.vPlan s.cur ty m v = (ps, none) → s.vecPortWaitsOf s.cur s.me.serial ps = false →
      ∃ t, exec i s = .next t ∧ s.entersSequencer t i xa xb ∧ ((t.core s.here).seq.getLast?.bind fun e => e.plan) = some ps ∧
        t.reqs.map (fun r => (r.kind, r.stage, r.va)) = s.reqs.map (fun r => (r.kind, r.stage, r.va)) ++
          (globalLines ps).map fun n => (.vload st, .translating, 64 * n)) ∧
    (∀ st ty m v ps k x, h.b = none → vmemOf i s.me xa xb 0 = some (st, ty, m, v) → s.vPlan s.cur ty m v = (ps, some (k, x)) → badWaits i ps = false →
      exec i s = .next (s.trap k x s.me.pc)) ∧
    (h.b ≠ none → ∃ t, exec i s = .next t ∧ s.entersSequencer t i xa xb ∧ ((t.core s.here).seq.getLast?.bind fun e => e.plan) = none)) ∧
  (∀ (s : State) (ci : Nat) (e : SeqEntry) (l : List SeqEntry) (h : VShape) (a b : VReg) (tv : List Target), (s.core ci).seq = e :: l →
    s.headBinds e h a b tv → isVMem e.i = true → (s.core ci).bindAt ≤ s.now →
      (∀ st ty m v ps, e.plan = none → vmemOf e.i (s.ctx e.sid) e.xa e.xb b = some (st, ty, m, v) → (s.asIssued e).vPlan e.sid ty m v = (ps, none) →
        s.does (.sequencerBind ci) fun t => (t.core ci).seq = { e with plan := some ps, vb := some b, bad := none } :: l ∧ s.sameBytes t ∧
          t.reqs.map (fun r => (r.kind, r.stage, r.va)) = s.reqs.map (fun r => (r.kind, r.stage, r.va)) ++
            (globalLines ps).map fun n => (.vload st, .translating, 64 * n)) ∧
      (∀ ps, e.plan = some ps → s.linesOpen e = false → s.vecBad e = none → s.memReady e h.ds.isSome ps = true → s.vecPortWaitsOf e.sid e.serial ps = false →
        (h.ds = none → s.does (.sequencerBind ci) fun t => s.sameBytes t ∧
          (bankPieces ps ≠ [] → (t.core ci).seq = { e with bound := true, left := bankPieces ps } :: l) ∧
          (∀ r ∈ t.reqs, r.isVload = true → r.sid = e.sid → r.serial = e.serial → r.stage = .sent ∧ r.arr = s.now)) ∧
        (h.ds.isSome = true → s.restFull (slotCluster e.sid) (vLines ((s.ctx e.sid).rv (vstoreReg e.i)) ps).length = false →
          s.does (.sequencerBind ci) fun t => s.sameBytes t ∧
            (t.core ci).seq = (if bankPieces ps = [] then l else { e with bound := true, left := bankPieces ps } :: l) ∧
            t.reqs.map (fun r => (r.stage, r.va, r.data, r.expect)) =
              (s.reqs.filter fun r => !(r.isVload && r.sid == e.sid && r.serial == e.serial)).map (fun r => (r.stage, r.va, r.data, r.expect)) ++
                (vLines ((s.ctx e.sid).rv (vstoreReg e.i)) ps).map fun x => (.held, 64 * x.1, x.2.1, x.2.2)))) ∧
  (∀ (s : State) (cl c : Nat) (e : SeqEntry) (l : List SeqEntry), s.slotDue cl 4 = true ∨ s.slotDue cl 5 = true → s.vectorCore cl = some (c, e) →
    (s.core (4 * cl + c)).seq = e :: l →
      let now := e.slotParts.1
      let rest := e.slotParts.2
      (storesVector e.i = true → s.vUndoFull now = false → s.does (.vectorSlotGrant cl) fun t =>
        (t.core (4 * cl + c)).seq = (if rest = [] then l else { e with left := rest } :: l) ∧ (∀ p n, t.physRead p n = s.physRead p n) ∧
          (∀ cl' p n, t.spadRead cl' p n = (s.vStoreBank ((s.ctx e.sid).rv (vstoreReg e.i)) now).spadRead cl' p n) ∧
          (∀ cl' p n, (∀ q ∈ now, ∀ off, q.2 = .bank cl' off → p + n ≤ off ∨ off + q.1.size ≤ p) → t.spadRead cl' p n = s.spadRead cl' p n)) ∧
      (storesVector e.i = false → s.does (.vectorSlotGrant cl) fun t => s.sameBytes t ∧
        (rest ≠ [] → (t.core (4 * cl + c)).seq = { e with left := rest, img := e.img ||| s.vGet now } :: l) ∧
        (rest = [] → globalLines (e.plan.getD []) = [] → (t.core (4 * cl + c)).seq = l ∧ (s.ctx e.sid).shows (t.ctx e.sid)
          (.vec (vloadDst e.i) (vMerge ((s.ctx e.sid).old (vloadDst e.i)) (e.plan.getD []) (e.img ||| s.vGet now), 0))))) ∧
  ∀ (s : State) (sid : Nat) (e : SeqEntry), s.loadBack sid = none → s.vloadBack sid = some e → s.does (.globalLoadReturn sid) fun t =>
    s.sameBytes t ∧ (s.ctx sid).shows (t.ctx sid) (.vec (vloadDst e.i) (vMerge ((s.ctx sid).old (vloadDst e.i)) (e.plan.getD [])
      (e.img ||| lineGet ((s.vloadReqs e).map fun r => (r.va / 64, r.data)) (e.plan.getD [])), 0))

/-- SETFMT writes a format register; REPF begins a capture at the next word, which FRAMEPC names (R162 to R164). -/
def Obligations.FormatsAndFrames : Prop :=
  ∀ (s : State),
    (∀ (n : BitVec 2) (a : XSrc) (h : VShape) (x y : Word) (tx : List Target), s.vectorReady (.setfmt n a) h x y tx →
      ∃ t, exec (.setfmt n a) s = .next t ∧ s.completes t (pcMoved s.me.pc 1) ∧ t.me.fm = s.me.fm.set n.toNat (x.extractLsb' 0 16) n.isLt ∧ t.me.v = s.me.v ∧
        s.sameX t ∧ s.sameBytes t) ∧
    (∀ (l : BitVec 4) (a b : XSrc), s.gate s.cur = none → s.me.replay = none → s.myCore.seq.length < Config.seqEntries →
      s.vecChanBad s.cur { xa := some a, xb := some b } = false → ∃ t, exec (.repf l a b) s = .next t ∧ s.completes t (pcMoved s.me.pc 1) ∧
        t.me.framepc = pcMoved s.me.pc 1 ∧ s.sameX t ∧ s.sameBytes t ∧
        t.me.cap = some { len := l.toNat + 1, words := [], n := a, stag := b, jump := none, resume := none })

/-- The lanes of the integer forms of Table 08-3: an active lane holds the operator's value modulo 2^w, and every other lane keeps its element (R137,
R144). -/
def Obligations.LanesOfTheIntegerForms : Prop :=
  ∀ (op : VBin) (f : Int → Int → Int) (e : VEnv) (t : TypeCode) (m : Mask) (d a b : VReg), tIsInt t = true →
    (op, f) ∈ [(VBin.add false, fun x y => x + y), (VBin.sub false, fun x y => x - y), (VBin.mul false, fun x y => x * y), (VBin.min, min), (VBin.max, max)] →
      let w := tWidth t
      let r := vBin op e t m d a b
      let value (x : Nat) : Int := if tSigned t = true ∧ 2 ^ (w - 1) ≤ x then (x : Int) - 2 ^ w else x
      r.2 = 0 ∧ ∀ i < tLanes t, (laneGet w r.1.toNat i : Int) =
        if m.active i = true then f (value (laneGet w a.toNat i)) (value (laneGet w b.toNat i)) % 2 ^ w else laneGet w d.toNat i

/-! The shared units of a cluster, and the memory side. -/

/-- The sequencers and the arbiters of a cluster: a frame's next performance at the head of its sequencer, by itself or with a lane group; the pointer and
deficit of the lane-group arbiter, whose grant holds a group for four beats; the vector slots' service of one core's form at a time; and the scalar slot
(R116, R139, R165, R242, R245).
Grants as events whose guard is the arbiter's state are the model's form (log 3). -/
def Obligations.SequencersAndSlotsPerform : Prop :=
  ∀ s : State,
    (∀ sid r e l i h xa xb tx a b tv, (s.core (slotCore sid)).seq = e :: l → e.frame = true → e.sid = sid → (s.ctx sid).replay = some r →
      s.replayStopped sid = false → decode (renumber (r.words.getD r.idx 0) r.iter r.stag) = some i → vShape i = some h → (s.ctx sid).awaits h.xregs = none →
      s.readVs sid h = some (a, b, tv) → (s.popAllV sid tv).readXs sid h = some (xa, xb, tx) → s.vecReady sid i h = true →
      s.vecDstFull sid (s.ctx sid).serial (tv ++ tx) h = false →
        let acts (t : State) : Prop := (t.ctx sid).replay = r.after ∧ (t.core (slotCore sid)).seq = (if r.after = none then l else e :: l) ∧
          (s.ctx sid).shows (t.ctx sid) (vecEffect (s.ctx sid) (s.ctx sid).venv (s.ctx sid).srseed.toNat i a b xa xb);
        (usesLanes i = false → (s.core (slotCore sid)).bindAt ≤ s.now → s.does (.frameReplayPerformance sid) acts) ∧
        (∀ g, let k := s.clu (coreCluster (slotCore sid))
          usesLanes i = true → k.laneAt ≤ s.now → k.freeGroup s.now = some g → 1 ≤ k.ldef → k.lptr = slotCore sid % 4 → s.does (.frameReplayPerformance sid) acts)) ∧
    (∀ cl g t, let k := s.clu cl
      k.laneAt ≤ s.now → k.freeGroup s.now = some g →
      (1 ≤ k.ldef → s.laneServe (4 * cl + k.lptr) = some t → s.does (.laneGroupGrant cl) fun u =>
        (u.clu cl).lptr = k.lptr ∧ (u.clu cl).ldef = k.ldef - 1 ∧ (u.clu cl).laneAt = s.now + 1 ∧ (u.clu cl).lanes = (t.clu cl).lanes.set g (s.now + 4)) ∧
      (k.ldef = 0 → s.laneServe (4 * cl + (k.lptr + 1) % 4) = some t → s.does (.laneGroupGrant cl) fun u =>
        (u.clu cl).lptr = (k.lptr + 1) % 4 ∧ (u.clu cl).ldef = k.weight ((k.lptr + 1) % 4) - 1 ∧ (u.clu cl).laneAt = s.now + 1 ∧
        (u.clu cl).lanes = (t.clu cl).lanes.set g (s.now + 4))) ∧
    (∀ cl e, s.slotDue cl 4 = true ∨ s.slotDue cl 5 = true → (s.clu cl).vcur = none → s.vectorHead (4 * cl + ((s.clu cl).vlast + 1) % 4) = some e →
      s.does (.vectorSlotGrant cl) fun t => (t.clu cl).vlast = ((s.clu cl).vlast + 1) % 4 ∧ (t.clu cl).slotAt = s.now + 1) ∧
    (∀ cl sid a l, s.servesAlone cl sid a l →
      (∀ d sg acq, a.op = .load d sg acq → a.tags = false → s.does (.scalarSlotGrant cl) fun t => (t.ctx sid).pend = l ∧ s.sameBytes t ∧
        (t.clu cl).sptr = (sid % 10 + 1) % 10 ∧ (s.ctx sid).gives (t.ctx sid) a.serial (s.now + 3) d (loadValue sg a.size (s.spadRead a.cl a.off a.size))) ∧
      (∀ v, a.op = .store v → a.tags = false → s.does (.scalarSlotGrant cl) fun t => (t.ctx sid).pend = l ∧
        (t.clu cl).sptr = (sid % 10 + 1) % 10 ∧ s.writesSpad t a.cl a.off a.size (v.toNat % 2 ^ (8 * a.size))))

/-- The engine slots serve one line of every bank: a unit's lines are read, and then written with its bytes; the matrix array: its grants at a boundary, a transfer's matrix slots, an MMA's step, the port's
retirement, and the self-tests (R170, R179, R180, R182, R184, R243, R247, R248, R366, R367).
Grants as events are the model's form (log 3); the columns that an MMA keeps, the cycle in which a head tile counts as FULL and the wait of an MSAVE are its choices (log 18); readings of log 6 are DEDUCED. -/
def Obligations.EnginesAndArraysProceed : Prop :=
  ∀ s : State,
    (∀ cl r u, s.slotDue cl 6 = true → (∀ q, q < 19 → s.engineUnits cl q = if q = r then [u] else []) → r < 19 → u.reads.Nodup → u.writes.Nodup →
      s.unitLines cl u ≠ [] →
      let ls := s.unitLines cl u
      let served (l : Nat) : Prop := ls.find? (fun k => k % 32 == l % 32) = some l
      s.does (.engineSlotGrant cl) fun t => (t.clu cl).slotAt = s.now + 1 ∧ (∀ a n, t.physRead a n = s.physRead a n) ∧
        (∀ b < 32, Tab.get 0 (t.clu cl).eptr b = if (ls.any fun l => l % 32 == b) = true then (r + 1) % 19 else Tab.get 0 (s.clu cl).eptr b) ∧
        (∀ c a k, u.reads ≠ [] ∨ c ≠ cl ∨ (∀ l, served l → a + k ≤ 16 * l ∨ 16 * l + 16 ≤ a) → t.spadRead c a k = s.spadRead c a k) ∧
        (∀ p o i, u.reads = [] → u.pieces = [p] → p.to_ = some o → i < p.n → served ((o + i) / 16) →
          t.spadRead cl (o + i) 1 = u.value p / 2 ^ (8 * i) % 256) ∧
        (r ≠ 1 → ∃ v, Tab.get [] (t.clu cl).eleft r = [v] ∧ v.work = u.work ∧ v.pieces = u.pieces ∧
          (∀ l, l ∈ v.reads ↔ l ∈ u.reads ∧ ¬served l) ∧ (∀ l, l ∈ v.writes ↔ l ∈ u.writes ∧ ¬(u.reads = [] ∧ served l)) ∧
          ∀ l, u.reads ≠ [] → served l → (l, s.spadRead cl (16 * l) 16) ∈ v.got)) ∧
    (∀ cl, let a := (s.clu cl).arr
      let h := 4 * cl + a.holder
      a.job = none → a.upto ≤ s.now →
      (a.due = true → s.does (.matrixGrant cl) fun t => (t.clu cl).arr.job = some (.test none) ∧ (t.clu cl).arr.upto = s.now + 2) ∧
      (∀ f, a.due = false → a.fences.find? (fun f => !f.hard && decide (f.since + 2 ^ 20 ≤ s.now)) = some f → s.does (.matrixGrant cl) fun t =>
        (t.clu cl).arr.job = some (.retest f.n) ∧ (t.clu cl).arr.upto = s.now + 2) ∧
      (∀ p, a.testDue s.now = none → s.interrupted h = false → s.matrixRequest h = some p → (a.run < if a.run = 0 then (s.clu cl).mburst else a.burst) → a.holder < 4 →
        (∀ c x y g h' m, p.i = .mma c x y g h' m → s.does (.matrixGrant cl) fun t => (t.clu cl).arr.job = some (.step h) ∧ (t.clu cl).arr.run = a.run + 1 ∧
          (t.clu cl).arr.cover.isSome = true ∧ (t.clu cl).arr.work + s.now = a.work + (t.clu cl).arr.upto) ∧
        (∀ c, p.i = .mzero c → s.does (.matrixGrant cl) fun t => (∀ r, r < 64 → c = 3 ∨ r / 32 = c.toNat → Tab.get 0 (t.core h).acc r = 0) ∧
          ∀ r, ¬(c = 3 ∨ r / 32 = c.toNat) → r < 64 → Tab.get 0 (t.core h).acc r = Tab.get 0 (s.core h).acc r))) ∧
    (∀ ci p l, let cl := coreCluster ci
      let ls := slotServes p.left
      (s.clu cl).arr.job = some (.move ci) → (s.core ci).port = p :: l → (∀ c, p.i ≠ .mzero c) →
      (p.left = [] → (s.clu cl).arr.upto ≤ s.now → s.does (.matrixGrant cl) fun t => (t.clu cl).arr.job = none ∧ s.sameBytes t ∧ ∃ q, (t.core ci).port = q :: l ∧ q.done = true) ∧
      (∀ ty n x y, ls ≠ [] → p.i = .mlda ty n x y → s.matrixSlot cl = true → s.does (.matrixGrant cl) fun t => (t.clu cl).slotAt = s.now + 1 ∧ s.sameBytes t ∧
        (t.core ci).port = { p with left := p.left.filter fun k => !ls.contains k } :: l ∧
        ∀ r, r / 32 ≠ n.toNat → Tab.get 0 (t.core ci).acc r = Tab.get 0 (s.core ci).acc r) ∧
      (∀ ty n x y, ls ≠ [] → p.i = .msta ty n x y → s.matrixSlot cl = true → s.linesUndoFull cl ls = false → p.base % accBytes ty = 0 → ctlStride p.ctl % accBytes ty = 0 →
        s.does (.matrixGrant cl) fun t => (t.clu cl).slotAt = s.now + 1 ∧ (t.core ci).acc = (s.core ci).acc ∧
          (t.core ci).port = { p with left := p.left.filter fun k => !ls.contains k } :: l ∧ (∀ a k, t.physRead a k = s.physRead a k) ∧
          ∀ c a k, (c = cl → ∀ line ∈ ls, a + k ≤ 16 * line ∨ 16 * line + 16 ≤ a) → t.spadRead c a k = s.spadRead c a k)) ∧
    (∀ ci p l c a b g h m, (s.clu (coreCluster ci)).arr.job = some (.step ci) → (s.clu (coreCluster ci)).arr.upto ≤ s.now → (s.core ci).port = p :: l →
      p.i = .mma c a b g h m →
      s.does (.mmaStep ci) fun t => (t.clu (coreCluster ci)).arr.job = none ∧ s.sameBytes t ∧
        (∀ r, r / 32 ≠ c.toNat → Tab.get 0 (t.core ci).acc r = Tab.get 0 (s.core ci).acc r) ∧
        (p.kdone + p.stepLen < shK p.sa → ∃ q, (t.core ci).port = q :: l ∧ q.kdone = p.kdone + p.stepLen ∧ q.pass = p.pass ∧ q.done = false) ∧
        (shK p.sa ≤ p.kdone + p.stepLen → shN p.sb ≤ p.pass * p.cols + p.cols → ∃ q, (t.core ci).port = q :: l ∧ q.done = true)) ∧
    (∀ ci p l, (s.core ci).port = p :: l → p.done = true → s.does (.portRetire ci) fun t => (t.core ci).port = l ∧ (t.core ci).acc = (s.core ci).acc ∧
      s.sameBytes t ∧ ((∃ c a b g h m, p.i = .mma c a b g h m) → (t.clu (coreCluster ci)).arr.due = true)) ∧
    (∀ cl who f, (s.clu cl).arr.job = some (.test who) → (s.clu cl).arr.upto ≤ s.now → s.does (.selfTestProduct cl false f) fun t =>
      (t.clu cl).arr.job = none ∧ (t.clu cl).arr.due = false ∧ (t.clu cl).arr.work = 0 ∧ (t.clu cl).arr.cover = none ∧
      ∀ ci p l, who = some ci → (s.core ci).port = p :: l → (t.core ci).port = { p with done := true } :: l) ∧
    (∀ cl, (256 ≤ (s.clu cl).arr.work ∨ ((s.clu cl).arr.cover.isSome = true ∧ (12288 ≤ (s.clu cl).undo.length ∨ 512 ≤ s.restUsed cl ∨
        ∃ e ∈ s.ctxs, slotCluster e.1 = cl ∧ (e.2.charge = .undoFull ∨ e.2.charge = .restanteFull)))) →
      s.does (.periodicSelfTestDue cl) fun t => (t.clu cl).arr.due = true) ∧
    (∀ cl (n : BitVec 3) failed, (s.clu cl).arr.job = some (.retest n.toNat) → (s.clu cl).arr.upto ≤ s.now → s.does (.subarrayRetest cl n failed) fun t =>
      (t.clu cl).arr.job = none ∧ (∀ g ∈ (t.clu cl).arr.fences, g.n = n.toNat → g.hard = false → g.passes < 16) ∧
      ∀ g, g.n ≠ n.toNat → (g ∈ (t.clu cl).arr.fences ↔ g ∈ (s.clu cl).arr.fences))

/-- Fetch and its traps, and the translation stations. A line that the PC misses is installed, or the fetch traps with the PC in EPC and TVAL; an illegal word
traps with the word. A station answers a request from its cache, or starts or joins a walk, and a walk's end sends what waits for it on, with its leaf
cached, or traps a scalar access precisely (R20, R89, R91, R110, R117, R318 to R321).
The event form is the model's (log 3), and so is the time of a fill (log 19). -/
def Obligations.FetchesAndTranslations : Prop :=
  ∀ s : State,
    (∀ sid, (s.ctx sid).atBoundary = true → s.fetch sid = none →
      (∀ pa, s.fetchFaultOf sid = none → s.pageKnown (slotCluster sid) (s.ctx sid).part (s.ctx sid).pid sid ((s.ctx sid).fetchVa / 4096) = true →
        s.walkPoison (slotCluster sid) (s.ctx sid).part (s.ctx sid).pid (s.ctx sid).fetchVa = none → s.portFree pa = true → s.translate (slotCluster sid) (s.ctx sid).part (s.ctx sid).pid (s.ctx sid).mode .fetch ((s.ctx sid).pc.toNat / 64 * 64) = .ok pa →
        s.does (.icacheFill sid) fun t => t.fetch sid = some (BitVec.ofNat 32 (s.physRead pa 64 / 2 ^ (8 * ((s.ctx sid).pc.toNat % 64)))) ∧ s.sameBytes t ∧
          t.ctx sid = { s.ctx sid with charge := .redirect, pause := some (.redirect, s.now + 1) }) ∧
      (s.fetchFaultOf sid = none → s.pageKnown (slotCluster sid) (s.ctx sid).part (s.ctx sid).pid sid ((s.ctx sid).fetchVa / 4096) = false →
        (∀ r ∈ s.reqs, r.kind ≠ .xlat) → s.does (.icacheFill sid) fun t => (t.ctx sid).charge = .redirect ∧ (t.ctx sid).pc = (s.ctx sid).pc ∧ s.sameBytes t ∧
          ∃ r, t.reqs = s.reqs ++ [r] ∧ r.kind = .xlat ∧ r.stage = .translating ∧ r.sid = sid ∧ r.va = (s.ctx sid).fetchVa / 4096 * 4096) ∧
      (∀ k, s.fetchFaultOf sid = some k → s.trapsNow sid → s.does (.icacheFill sid) fun t =>
        (s.ctx sid).traps (t.ctx sid) k (pcWord (s.ctx sid).pc) (s.ctx sid).pc ∧ s.sameBytes t)) ∧
    (s.trapsNow s.cur → ∀ n k, (n, k) ∈ [((3 : BitVec 16), Trap.windowFault), (5, .translationFault), (6, .accessFault)] →
      s.does (.fetchFault n) fun t => s.me.traps t.me k (pcWord s.me.pc) s.me.pc ∧ s.sameBytes t) ∧
    (∀ w, s.trapsNow s.cur → s.does (.illegalInstruction w) fun t => s.me.traps t.me .illegalInstruction (w.zeroExtend 64) s.me.pc ∧ s.sameBytes t) ∧
    (∀ sid r, s.nextTrans sid = some r → s.req r.id = some r → (∀ q ∈ s.reqs, ∀ k, q.stage ≠ .faulted k) → (∀ e ∈ (s.core (slotCore sid)).seq, e.bad = none) →
      (∀ x, r.kind ≠ .xlat → s.cached r.station r.part r.pid r.va = some x → leafAllows (s.part r.part) x.leaf.toNat x.bits r.access r.mode = true → s.does (.translationRequest sid) fun t =>
        t.req r.id = some { r with
          pa := leafPa x.leaf.toNat x.bits r.va, stage := if r.isAtomic then .held else if r.isVload then .ready else .sent, arr := if r.isAtomic then 0 else s.now } ∧
          s.sameBytes t) ∧
      (∀ x, r.kind ≠ .xlat → s.cached r.station r.part r.pid r.va = some x → leafAllows (s.part r.part) x.leaf.toNat x.bits r.access r.mode = false → r.isVload = false → s.trapsNow sid →
        s.does (.translationRequest sid) fun t => (s.ctx sid).traps (t.ctx sid) .accessFault (BitVec.ofNat 64 r.va) r.pc ∧ t.req r.id = none ∧ s.sameBytes t) ∧
      (r.kind = .xlat → (s.cached r.station r.part r.pid r.va).isSome = true → s.does (.translationRequest sid) fun t => t.req r.id = none ∧ s.sameBytes t) ∧
      (s.cached r.station r.part r.pid r.va = none → s.does (.translationRequest sid) fun t => s.sameBytes t ∧
        t.req r.id = some (if s.walkRoom r = true then { r with stage := .walking } else { r with arr := s.missAt r }))) ∧
    (∀ sid r, s.reqs.find? (fun r => r.sid == sid && r.inWalk && s.walkTakes r.part r.pid r.va) = some r → s.req r.id = some r → s.reqs.filter (fun q => q.inWalk && q.samePage r) = [r] →
      s.walkPoison (slotCluster r.src) r.part r.pid r.va = none → (∀ q ∈ s.reqs, ∀ k, q.stage ≠ .faulted k) → (∀ e ∈ (s.core (slotCore sid)).seq, e.bad = none) →
      (∀ leaf bits, r.kind = .xlat → r.stage = .walking → s.walk r.part r.pid r.va = .ok (leaf, bits) → s.does (.translationWalkComplete sid) fun t =>
        t.req r.id = none ∧ (t.cached r.station r.part r.pid r.va).isSome = true ∧ s.sameBytes t) ∧
      (∀ leaf bits, r.kind ≠ .xlat → s.walk r.part r.pid r.va = .ok (leaf, bits) → leafAllows (s.part r.part) leaf bits (if r.stage = .walking then r.access else .write) r.mode = true →
        s.does (.translationWalkComplete sid) fun t => s.sameBytes t ∧
          t.cached r.station r.part r.pid r.va = some { part := r.part, pid := r.pid, va := r.va / 2 ^ bits * 2 ^ bits, bits := bits, leaf := wordOfInt (leaf : Nat) } ∧
          t.req r.id = some { r with pa := leafPa leaf bits r.va, arr := if r.stage = .walking ∧ r.isAtomic = true then 0 else s.now, stage :=
            if r.stage = .walking then (if r.isAtomic then .held else if r.isVload then .ready else .sent)
            else if r.kind = .storeRelease then .ready else .sent }) ∧
      (∀ k, r.kind ≠ .xlat → s.walk r.part r.pid r.va = .error k → r.stage = .walking → r.isVload = false → s.trapsNow sid → s.does (.translationWalkComplete sid) fun t =>
        (s.ctx sid).traps (t.ctx sid) k (BitVec.ofNat 64 r.va) r.pc ∧ t.req r.id = none ∧ s.sameBytes t))

/-- What becomes of requests: release, translation, performance at the home slice, answers and acknowledgements, and the deferred fault (R117, R118,
R120, R123, R126, R127, R278, R284, R325, R326, R361).
The event form is the model's (log 3); what becomes of an earlier valid fault record is the model's choice (log 15). -/
def Obligations.RequestsRunTheirCourse : Prop :=
  ∀ (s : State) (id : Nat) (r : Req), s.req id = some r →
    (s.mayRelease r = true →
      (r.isStore = true → s.does (.restanteRelease id) fun t => t.req id = some { r with stage := .released } ∧ s.sameBytes t) ∧
      (r.kind = .device ∨ r.kind = .unsub → s.does (.restanteRelease id) fun t => t.req id = some { r with stage := .sent, arr := s.now } ∧ s.sameBytes t) ∧
      (∀ n k, r.kind = .emit n k → s.does (.restanteRelease id) fun t => t.req id = none ∧ s.sameBytes t ∧
        (Tab.get {} t.streams (64 * r.part + n)).inq.length = (Tab.get {} s.streams (64 * r.part + n)).inq.length + 1)) ∧
    (r.stage = .released → s.faultHolds r = false → r.isStore = true → s.entryTurn r = true →
      (r.isAtomic = true → s.does (.releaseTranslationReturn id) fun t => t.req id = some { r with stage := .sent, arr := s.now } ∧ s.sameBytes t) ∧
      (∀ x, r.isAtomic = false → s.cached r.station r.part r.pid r.va = some x →
        (leafAllows (s.part r.part) x.leaf.toNat x.bits .write r.mode = true → s.does (.releaseTranslationReturn id) fun t => s.sameBytes t ∧
          t.req id = some { r with pa := leafPa x.leaf.toNat x.bits r.va, stage := if r.kind = .storeRelease then .ready else .sent, arr := s.now }) ∧
        (leafAllows (s.part r.part) x.leaf.toNat x.bits .write r.mode = false → r.sid < savedBase → s.does (.releaseTranslationReturn id) fun t =>
          t.req id = none ∧ s.sameBytes t ∧ (t.ctx r.sid).fault.valid = true ∧ (t.ctx r.sid).fault.pending = true ∧ (t.ctx r.sid).fault.pc = r.pc ∧
          (t.ctx r.sid).fault.access = true)) ∧
      (r.isAtomic = false → s.cached r.station r.part r.pid r.va = none → s.does (.releaseTranslationReturn id) fun t => s.sameBytes t ∧
        t.req id = some (if s.walkRoom r = true then { r with stage := .relWalk } else { r with arr := s.missAt r }))) ∧
    (r.stage = .ready → r.kind = .storeRelease → s.releaseReady r = true → s.does (.releaseTranslationReturn id) fun t =>
      t.req id = some { r with stage := .sent, arr := s.now } ∧ s.sameBytes t) ∧
    (r.stage = .sent → s.crossing id = false → s.orderHolds r = false → r.isHost = false → r.kind = .store ∨ r.kind = .storeRelease →
      homeDie r.pa = clusterDie (slotCluster r.src) → s.takes r = true → r.be = allBytes r.size → s.does (.sliceRequestAccept id) fun t =>
        t.req id = some { r with stage := .performed } ∧ t.physRead r.pa r.size = r.data % 2 ^ (8 * r.size)) ∧
    (r.stage = .performed → s.crossing id = false → r.ended = false → s.invalidating id = false → (∀ d, r.kind = .cas d ∨ (∃ op, r.kind = .amo op d) →
      s.does (.atomicAnswerReturn id) fun t => t.req id = none ∧ s.sameBytes t ∧ (s.ctx r.sid).getsX (t.ctx r.sid) d (loadValue true r.size (r.data % 2 ^ (8 * r.size))))) ∧
    (r.stage = .performed → r.isPlainStore = true → r.isHost = false → s.invalidating id = false → s.crossing id = false → s.does (.storeAcknowledge id) fun t =>
      t.req id = none ∧ s.sameBytes t) ∧
    (r.stage = .sent → r.isHost = true → (∀ q ∈ s.earlier r, q.stranded = false → q.isStore = true → q.isHost = true → q.stage = .performed) →
      (r.kind = .store → r.be = allBytes r.size → s.does (.hostWindowWriteAck id) fun t => t.req id = none ∧ t.physRead r.pa r.size = r.data % 2 ^ (8 * r.size)) ∧
      (∀ op d, r.kind = .amo op d → s.does (.hostWindowWriteAck id) fun t => t.req id = some { r with stage := .performed, data := s.physRead r.pa r.size } ∧
        t.physRead r.pa r.size = op.apply r.size (s.physRead r.pa r.size) r.data % 2 ^ (8 * r.size))) ∧
    (∀ n sg acq, s.loadBack r.sid = some r → r.kind = .load (.x n) sg acq → s.does (.globalLoadReturn r.sid) fun t => t.req id = none ∧ s.sameBytes t ∧
      (s.ctx r.sid).getsX (t.ctx r.sid) n (loadValue sg r.size (r.data % 2 ^ (8 * r.size)))) ∧
    (∀ n v, s.invals.find? (fun v => v.n == n) = some v → s.does (.farCopyInvalidation n) fun t => (∀ w ∈ t.invals, w.n ≠ n) ∧
      (∀ c ∈ t.farCopies, ¬(c.die = v.die ∧ c.line = v.line)) ∧ s.sameBytes t) ∧
    (∀ sid m, (∀ k ∈ (s.ctx sid).markers, k.1 = m → ∀ v ∈ s.invals, v.n ∉ k.2) → s.does (.scMarkerReturn sid m) fun t =>
      (∀ k ∈ (t.ctx sid).markers, k.1 ≠ m) ∧ s.sameBytes t) ∧
    (∀ sid, let c := s.ctx sid
      c.fault.pending = true → c.heldForSave = false → c.mode = false → c.replay = none → c.cap = none → c.atBoundary = true → c.inmeet = false → s.trapBlock sid = none →
        s.does (.deferredTrap sid) fun t => (t.ctx sid).pc = c.tvec ∧ (t.ctx sid).act = .running ∧ (t.ctx sid).mode = true ∧ (t.ctx sid).epc = c.pc &&& ~~~3 ∧
          (t.ctx sid).tval = c.fault.va ∧ (t.ctx sid).cause = 0x8000000000000000 ||| (if c.fault.access = true then 6 else 5) ∧
          (t.ctx sid).fault.pending = false ∧ s.sameBytes t)

/-! The engines, and the queues. -/

/-- Transfers: their start; a row, which begins as a unit of lines to be served, or stops the transfer where an access faults, and completes with PROG
and a credit once they are; subscriptions and drains at their start; and the entry at their end (R193, R206 to R211).
The event form is the model's (log 3); readings of log 6 are DEDUCED. -/
def Obligations.TransfersMoveTheirBytes : Prop :=
  ∀ (s : State) (ci xid : Nat) (x : Xfer), s.xfer ci (BitVec.ofNat 32 xid) = some x →
    let id := BitVec.ofNat 32 xid
    let cl := coreCluster ci
    (x.kind = .copy → x.held = true → x.stopped = false → s.releasable cl x.made x.taints = true →
      s.does (.xcopyStart ci xid) fun t => t.xfer ci id = some { x with held := false } ∧ s.sameBytes t) ∧
    (let b := copyBlk (s.spadRead cl x.block 64)
      let gs := b.globals x.prog
      let vas := gs.map fun g => g.2.1.toNat
      (s.rowReady ci x b = true → Tab.get [] (s.clu cl).eleft 0 = [] → s.xlatAsk cl x.part x.pid x.sid vas = none →
        (s.firstFault cl x.part x.pid x.mode gs = none →
          s.portAsk (s.portReads cl (s.engineLines cl x.part x.pid x.mode .read ((gs.filter fun g => g.1 == .read).map fun g => g.2.1))) (engineRank ci 0) = none →
          (s.rowUnit ci x b).done = false → s.does (.xcopyRow ci xid) fun t => Tab.get [] (t.clu cl).eleft 0 = [s.rowUnit ci x b] ∧ t.xfer ci id = some x ∧ s.sameBytes t) ∧
        (∀ c a, s.firstFault cl x.part x.pid x.mode gs = some (c, a) → s.progFull ci x = false → s.does (.xcopyRow ci xid) fun t =>
          t.xfer ci id = some { x with result := some (1, c, a.toNat) } ∧ ∀ p n, t.physRead p n = s.physRead p n)) ∧
      (∀ u, s.unitOf cl 0 (.row ci x.xid.toNat x.prog) = some u → u.work = .row ci x.xid.toNat x.prog → u.done = true →
        let ends (t : State) : Prop := t.xfer ci id = some { x with prog := x.prog + 1 } ∧ (∀ v ∈ Tab.get [] (t.clu cl).eleft 0, v.work ≠ u.work) ∧
          (∀ c a n, t.spadRead c a n = s.spadRead c a n) ∧
          t.credits.length = s.credits.length + if b.tv = true ∧ (u.pieces.map EnginePiece.n).sum ≠ 0 then 1 else 0
        ((∀ p ∈ u.pieces, p.to_.isSome = true) → s.does (.xcopyRow ci xid) fun t => ends t ∧ s.sameBytes t) ∧
        (∀ p, u.pieces = [p] → p.to_ = none → p.pa + p.n ≤ hostBase → lineOf p.pa = lineOf (p.pa + p.n - 1) → s.portAsk [lineOf p.pa] (engineRank ci 0) = none → p.n ≠ 0 →
          s.does (.xcopyRow ci xid) fun t => ends t ∧ t.physRead p.pa p.n = u.value p % 2 ^ (8 * p.n)))) ∧
    (∀ st code det : Nat, s.xferEnd ci x = some (st, code, det) → s.progFull ci x = false → s.does (.engineCompletionEntry ci xid) fun t => t.xfer ci id = none ∧
      s.posts? t ci (slotTag x.sid) (wordOfInt ((xid % 2 ^ 32 * 2 ^ 32 + code * 2 ^ 16 + slotTag x.sid * 2 ^ 8 + st * 2 ^ 4 + x.kind.code : Nat) : Int)) (wordOfInt (det : Nat))) ∧
    (xid < 2 ^ 32 → x.kind = .sub → x.held = true → s.releasable cl x.made x.taints = true → s.ringIdle ci x.ring = true →
      let b := walkBlk (s.spadRead cl x.block 64)
      b.mc = false → s.does (.subscriptionSetup (ci * 2 ^ 32 + xid)) fun t => t.xfer ci id = some { x with held := false } ∧ (t.ring ci b.ring).mode = 1 ∧
        (t.ring ci b.ring).head = x.prog % (s.ring ci b.ring).count ∧ (t.ring ci b.ring).tail = x.prog % (s.ring ci b.ring).count ∧
        ∃ u : Sub, t.subs = s.subs ++ [u] ∧ u.ci = ci ∧ u.xid = id ∧ u.ring = b.ring ∧ u.count = (s.ring ci b.ring).count ∧ u.sent = x.prog ∧ u.active = true ∧
          u.receivers = [{ ci := ci, begun := x.prog, got := x.prog, freed := x.prog }] ∧ u.credit = u.count) ∧
    (xid < 2 ^ 32 → x.kind = .drain → x.held = true → s.releasable cl x.made x.taints = true → s.engineClear ci x = true →
      s.does (.drainStart (ci * 2 ^ 32 + xid)) fun t => t.xfer ci id = some { x with held := false } ∧
        ∃ d : Drain, t.drains = s.drains ++ [d] ∧ d.ci = ci ∧ d.xid = id ∧ d.ring = x.ring ∧ d.prog = x.prog ∧ d.taken = false ∧ d.active = true)

/-- Tiles at the loaders and storers, credits and buffer-free signals, the stream engines, and the user-level interrupt (R193, R208 to R210, R212, R230,
R238).
The event form is the model's (log 3); readings of log 6 are DEDUCED. -/
def Obligations.TilesAndStreamsMove : Prop :=
  ∀ (s : State),
    (∀ n c, s.credits.find? (fun c => c.n == n) = some c → c.data = none →
      let w := s.tag (coreCluster c.dst) c.tag
      let v := tagBal w + c.bytes
      tagValid w = true → tagOvr w = false → tagFull w = false → tagExp w = true → v ≤ 0 → -2 ^ 23 ≤ v → s.does (.tagCredit n) fun t => (∀ d ∈ t.credits, d.n ≠ n) ∧ s.sameBytes t ∧
        tagView (t.tag (coreCluster c.dst) c.tag) = if v = 0 then { tagView w with full := true, exp := false, bal := 0 } else { tagView w with bal := v }) ∧
    (∀ n b x, let w := s.walkNow b.ci b.xid b.block
      let cl := coreCluster b.ci
      let as := (w.elems b.sent).map Prod.snd
      s.sub n = some b → s.xfer b.ci b.xid = some x → b.active = true → b.cancelled = false → b.ended = none → b.credit ≠ 0 → b.sent < w.tiles → x.stopped = false → x.overrun = none →
      s.xlatAsk cl b.part b.pid x.sid (as.map BitVec.toNat) = none → s.firstFault cl b.part b.pid b.mode (as.map fun a => (.read, a, w.e)) = none →
      s.portAsk (s.portReads cl (s.engineLines cl b.part b.pid b.mode .read as)) (engineRank b.ci 6) = none →
        s.does (.loaderTileSend n) fun t => t.sub n = some { b with sent := b.sent + 1 } ∧ t.net.map Msg.body = s.net.map Msg.body ++
          b.receivers.map fun r => .tile n r.ci (s.walkRead cl b.part b.pid b.mode w.e (w.elems b.sent))) ∧
    (∀ n ci m v b, s.net.find? (fun m => match m.body with
        | .tile k c _ => k == n && c == ci
        | _ => false) = some m → m.body = .tile n ci v → s.sub n = some b → s.does (.tileFirstByteArrival n ci) fun t =>
          (t.ring ci b.ring).tail = ((s.ring ci b.ring).tail + 1) % (s.ring ci b.ring).count ∧ (∀ k ∈ t.net, k.id ≠ m.id) ∧ s.sameBytes t ∧
          ∃ c, t.credits = s.credits ++ [c] ∧ c.dst = ci ∧ c.tag = (s.ring ci b.ring).tailTag ∧ c.bytes = (s.ring ci b.ring).size ∧
            c.data = some ((s.ring ci b.ring).tile (s.ring ci b.ring).tail, v)) ∧
    (∀ ci ring tag f, (s.core ci).frees.find? (fun f => f.1 == ring && f.2.1 == tag) = some f → s.releasable (coreCluster ci) f.2.2.1 f.2.2.2 = true →
      s.does (.bufferFreeSignal ci ring tag) fun t => (t.core ci).frees = (s.core ci).frees.erase f ∧ tagCons (t.tag (coreCluster ci) tag) = false ∧ s.sameBytes t) ∧
    (∀ id r, s.req id = some r → r.kind = .unsub → r.stage = .sent → s.does (.unsubscribeAtLoader id) fun t => t.req id = none ∧
      ∀ b ∈ t.subs, b.ci = slotCore r.src → b.xid = BitVec.ofNat 32 r.data → b.ended = none → b.cancelled = true) ∧
    (∀ n d x img u, let w := s.walkNow d.ci d.xid d.block
      let cl := coreCluster d.ci
      let es := w.elems d.prog
      s.drain n = some d → s.xfer d.ci d.xid = some x → s.takeReady d = true → s.headReleased d = some img → s.unitOf cl 2 (.take n d.prog) = some u → u.done = true →
      s.xlatAsk cl d.part d.pid x.sid (es.map fun p => p.2.toNat) = none →
        (s.firstFault cl d.part d.pid d.mode (es.map fun p => (.write, p.2, w.e)) = none →
          let gs := es.map fun p => (s.enginePa cl d.part d.pid d.mode .write p.2, w.e, img / 2 ^ (8 * p.1) % 2 ^ (8 * w.e))
          s.portAsk (((linesOfPieces gs).map Prod.fst).filter fun l => decide (64 * l < hostBase)) (engineRank d.ci 1) = none →
          s.does (.storerTakeTile n) fun t => t.drain n = some { d with taken := true } ∧
            ∀ a k, t.physRead a k = (s.sliceLines (makerEngine d.ci) gs).physRead a k) ∧
        (∀ c a, s.firstFault cl d.part d.pid d.mode (es.map fun p => (.write, p.2, w.e)) = some (c, a) → s.does (.storerTakeTile n) fun t =>
          t.drain n = some { d with active := false } ∧ s.sameBytes t ∧ ∃ y, t.xfer d.ci d.xid = some y ∧ y.result = some (1, c, a.toNat))) ∧
    (∀ n d, s.drain n = some d → d.taken = true → s.does (.storerTilePerformed n) fun t => t.drain n = some { d with taken := false, prog := d.prog + 1, copies := d.copies.filter fun c => c.1 ≠ (s.ring d.ci d.ring).headTag } ∧
      (t.ring d.ci d.ring).head = ((s.ring d.ci d.ring).head + 1) % (s.ring d.ci d.ring).count ∧
      tagFull (t.tag (coreCluster d.ci) (s.ring d.ci d.ring).headTag) = false ∧ s.sameBytes t) ∧
    (∀ ci e u, let g := Tab.get {} (s.core ci).seng e
      g.active = true → s.frozenPart g.part = false → g.sid < savedBase → g.fault = none → g.moved < patternCount g.n → inSpad g.base = true →
      s.unitOf (coreCluster ci) (3 + 4 * (ci % 4) + e) (.entry ci e g.moved) = some u → u.done = true →
        (∀ p, g.out = false → u.pieces = [p] → s.does (.streamEngineEntry ci e) fun t => s.sameBytes t ∧
          Tab.get {} (t.core ci).seng e = { g with moved := g.moved + 1, buf := g.buf ++ [u.value p] }) ∧
        (g.out = true → s.does (.streamEngineEntry ci e) fun t => Tab.get {} (t.core ci).seng e = { g with moved := g.moved + 1, buf := g.buf.drop 1 } ∧ s.sameBytes t)) ∧
    (∀ ci e, let g := Tab.get {} (s.core ci).seng e
      g.active = true → g.sid < savedBase → g.writes = [] → g.fault = none → patternCount g.n ≤ g.moved → g.ended = false → s.does (.streamEngineComplete ci e) fun t =>
        (Tab.get {} (t.core ci).seng e).active = false ∧
        s.posts? t ci (slotTag g.sid) (wordOfInt ((e * 2 ^ 32 + slotTag g.sid * 2 ^ 8 + 9 : Nat) : Int)) (wordOfInt (g.moved : Nat))) ∧
    (∀ sid k h l, (s.ctx sid).uints = (k, h) :: l → (s.ctx sid).uintReady = true → (s.ctx sid).act = .running → (s.ctx sid).fault.pending = false → (s.ctx sid).heldForSave = false →
      s.does (.userLevelInterrupt sid) fun t => (t.ctx sid).pc = h ∧ (t.ctx sid).ui = true ∧ (t.ctx sid).uepc = (s.ctx sid).pc.zeroExtend 64 ∧ (t.ctx sid).xid = k ∧
        (t.ctx sid).uints = l ∧ (s.ctx sid).sameX (t.ctx sid) ∧ s.sameBytes t)

/-- Queues: their registers, fetching, completion records, and the commands FENCE, LAUNCH, REGISTER, PREEMPT and RESUME (R299, R302 to R305, R315).
The event form is the model's (log 3); the clamp of ring sizes is the model's choice (log 7); readings of log 11 are DEDUCED. -/
def Obligations.QueuesRunTheirCommands : Prop :=
  ∀ (s : State) (q : Nat),
    let k := s.queue q
    (∀ v : Word, s.does (.qpidxWrite q v) fun t => (t.queue q).qpidx = v.toNat % 2 ^ 32 ∧
      (t.queue q).en = (k.en && decide ({ k with qpidx := v.toNat % 2 ^ 32 }.ahead ≤ 2 ^ k.log2n)) ∧ s.sameBytes t) ∧
    (∀ en : Bool, s.does (.queueEnable q en) fun t => (t.queue q).en = (en && (k.owner.isSome || q == monitorQueue) && decide (k.ahead ≤ 2 ^ k.log2n)) ∧ s.sameBytes t) ∧
    (∀ v : Word, s.does (.cqridxWrite q v) fun t => (t.queue q).cqridx = v.toNat % 2 ^ 32 ∧ s.sameBytes t) ∧
    (∀ v : Nat, k.en = true → s.boot.ready = true → (s.boot.minimal = true → q = 0 ∨ q = monitorQueue) → k.ahead ≠ 0 → k.cqFull = false → (∀ c ∈ k.cmds, c.op ≠ 6 ∧ c.n ≠ k.qcidx) →
      (k.owner ≠ none ∨ q = monitorQueue) →
      let at_ := k.qbase + wordOfInt ((64 * (k.qcidx % 2 ^ k.log2n) : Nat) : Int)
      s.queueRead q at_ 8 = .ok v → (∀ pa, s.queuePa q .read at_ = .ok pa → lineOf pa ∉ s.taken) →
        let c : Cmd := { n := k.qcidx, w := BitVec.ofNat 512 v, at_ := s.now, started := false }
        (s.cmdOk q c = true → s.does (.commandFetch q) fun t => (t.queue q).cmds = k.cmds ++ [c] ∧ (t.queue q).qcidx = (k.qcidx + 1) % 2 ^ 32) ∧
        (s.cmdOk q c = false → s.does (.commandFetch q) fun t => s.completesCommand t q c 1 codeCmdInvalid 0 ∧ (t.queue q).qcidx = (k.qcidx + 1) % 2 ^ 32)) ∧
    (∀ (d : Done) (l : List Done) (pa : Nat), k.dones = d :: l → k.cqFull = false → s.queuePa q .write (k.cqbase + wordOfInt ((16 * (k.cqwidx % 2 ^ k.cqlog2n) : Nat) : Int)) = .ok pa →
      lineOf pa ∉ s.taken →
      s.does (.completionRecordWrite q) fun t => (t.queue q).dones = l ∧ (t.queue q).cqwidx = (k.cqwidx + 1) % 2 ^ 32 ∧
        t.physRead pa 16 = (d.ctag * 2 ^ 32 + d.code * 2 ^ 16 + d.status + d.word1 * 2 ^ 64) % 2 ^ 128) ∧
    (∀ (n : Nat) (c : Cmd), s.command q n = some c → c.started = true ∨ k.cqFull = false →
      (c.op = 6 → k.cmds.head? = some c → s.does (.fenceCommand q n) fun t => s.completesCommand t q c 0 0 0) ∧
      (c.op = 1 → c.started = false → c.arg < 1024 → s.does (.launchCommand q n) fun t => ∃ l : Launch, t.launches = s.launches ++ [l] ∧ l.part = s.queuePart q ∧
        l.lid = (s.part (s.queuePart q)).nextLid ∧ l.queue = q ∧ l.tix = c.arg ∧ l.origin = .command n ∧ l.gangs = c.word 1 % 2 ^ 32 ∧ l.arrived = s.now) ∧
      (c.op = 1 → c.started = false → 1024 ≤ c.arg → s.does (.launchCommand q n) fun t =>
        s.completesCommand t q c 1 Trap.launchInvalid.code (s.part (s.queuePart q)).nextLid) ∧
      (∀ (v : Nat) e a, c.op = 7 → c.arg < 1024 → s.queueRead q (wordOfInt (c.word 1 : Nat)) 8 = .ok v → recordBad (s.part (s.queuePart q)) (blockWord v) = false →
        s.recordLines q (blockWord v) = .ok (e, a) → (∀ x pa, s.queuePa q .read x = .ok pa → lineOf pa ∉ s.taken) → s.does (.register q n) fun t => s.completesCommand t q c 0 0 0 ∧
          Tab.get none (t.part (s.queuePart q)).tmpl c.arg = some (recordTemplate (blockWord v) e a)) ∧
      (c.op = 4 → c.started = false → s.does (.preempt q n) fun t =>
        (∀ l ∈ t.launches, l.part = s.queuePart q → c.names q l.lid l.queue = true → l.stopped = true) ∧
        ∀ sid, isVisitor sid = false → c.namesCtx q (s.queuePart q) (s.ctx sid) = true → (s.ctx sid).act ≠ .free → (t.ctx sid).preemptReq = true) ∧
      (c.op = 4 → c.started = true → (∀ e ∈ s.ctxs, c.namesCtx q (s.queuePart q) e.2 = false) → (∀ v ∈ s.savedOut, c.namesCtx q (s.queuePart q) v.ctx = false) →
        s.does (.preempt q n) fun t => s.completesCommand t q c 0 0 0) ∧
      (c.op = 5 → (∀ e ∈ s.ctxs, c.namesCtx q (s.queuePart q) e.2 = false) → (∀ v ∈ s.savedOut, c.namesCtx q (s.queuePart q) v.ctx = false) →
        s.does (.resume q n) fun t => s.completesCommand t q c 0 0 0 ∧ ∀ l ∈ t.launches, l.part = s.queuePart q → c.names q l.lid l.queue = true → l.stopped = false))

/-- The monitor's commands: partitions are created, destroyed, reset and given queues; and the course of a reset (R301, R317, R378 to R381).
The event form is the model's (log 3); readings of log 11 are DEDUCED. -/
def Obligations.PartitionsComeAndGo : Prop :=
  ∀ (s : State),
    (∀ q n c, s.command q n = some c → c.started = true ∨ (s.queue q).cqFull = false →
      (c.op = 0x10 → s.createBad c.arg (rectOfWord (c.word 1)) (rectOfWord (c.word 2)) = false → s.does (.partCreate q n) fun t => s.completesCommand t q c 0 0 0 ∧
        (t.part c.arg).live = true ∧ (t.part c.arg).rect0 = rectOfWord (c.word 1) ∧ (t.part c.arg).rect1 = rectOfWord (c.word 2) ∧ (t.part c.arg).agestep = 100 ∧
        ∀ m < 256, (t.queue (256 * c.arg + m)).owner = some c.arg) ∧
      (c.op = 0x10 → s.createBad c.arg (rectOfWord (c.word 1)) (rectOfWord (c.word 2)) = true → s.does (.partCreate q n) fun t => s.completesCommand t q c 1 codeCmdInvalid 0) ∧
      (c.op = 0x11 → c.arg < 32 → (s.part c.arg).live = true → (s.part c.arg).reset = none → s.partIdle c.arg = true → s.does (.partDestroy q n) fun t =>
        s.completesCommand t q c 0 0 0 ∧ (t.part c.arg).live = false ∧ ∀ m, (t.queue m).owner ≠ some c.arg) ∧
      (c.op = 0x12 → c.started = false → c.arg < 32 → (s.part c.arg).live = true → (s.part c.arg).reset = none → s.does (.partReset q n) fun t =>
        (∃ r, (t.part c.arg).reset = some r ∧ r.t0 = s.now ∧ r.t1 = none ∧ r.cmds = [(q, n)]) ∧ ∀ m, (s.queue m).owner = some c.arg → (t.queue m).en = false) ∧
      (c.op = 0x13 → c.arg < 8192 → (s.queue c.arg).en = false → (s.queue c.arg).owner ≠ none → (s.part (c.word 1 % 32)).live = true → s.does (.assign q n) fun t =>
        s.completesCommand t q c 0 0 0 ∧ (t.queue c.arg).owner = some (c.word 1 % 32))) ∧
    (∀ p r, (s.part p).reset = some r → r.t1 = none → (r.t0 + (s.part p).rstctl.toNat ≤ s.now ∨ (s.now ≠ r.t0 ∧ s.partLive p = false)) → s.does (.partResetFreeze p) fun t =>
      (t.part p).reset = some { r with t1 := some s.now } ∧ s.sameBytes t ∧
      (∀ sid, (s.part p).holds (slotCluster sid) = true → (s.ctx sid).act ≠ .free → (t.ctx sid).act = .frozen) ∧
      ∀ r ∈ t.reqs, r.part = p → r.stage = .held → r.made / 256 * 256 + 704 ≤ s.now) ∧
    (∀ p r t1, (s.part p).reset = some r → r.t1 = some t1 → t1 + 1024 ≤ s.now → s.does (.partResetComplete p) fun t =>
      (t.part p).reset = none ∧ (t.part p).tmpl = [] ∧ (∀ l ∈ t.launches, l.part ≠ p) ∧ (∀ sid, (s.part p).holds (slotCluster sid) = true → t.ctx sid = {}) ∧
      ∀ m ∈ t.streams, m.1 / 64 ≠ p) ∧
    (∀ n k, s.nacks.find? (fun k => k.1 == n) = some (n, k) →
      (∀ sid, k = .port sid → s.does (.negativeAcknowledge n) fun t => (t.ctx sid).win = (s.ctx sid).win.map fun w => { w with shut := true }) ∧
      (∀ b, k = .loader b → s.does (.negativeAcknowledge n) fun t => (∀ x ∈ t.subs, x.n ≠ b) ∧ ∀ x ∈ t.nacks, x.1 ≠ n) ∧
      (∀ id, k = .response id → s.does (.negativeAcknowledge n) fun t => t.req id = none ∧ (∀ e ∈ t.outs, e.req ≠ id) ∧
        ∀ e ∈ s.outs, e.req = id → ∀ d ∈ t.dups, d.tag ≠ e.tag))

/-! Placement, meetings, and what happens to contexts. -/

/-- Launches: aging and rank, dispatch, the pools and the token, the start of a task, completion, and work stealing (R225, R250, R290, R299, R300, R306,
R311 to R314, R316).
The event form is the model's (log 3); readings of log 11 are DEDUCED; the dataflow tags are a free value (log 5). -/
def Obligations.LaunchesArePlacedAndEnd : Prop :=
  (∀ (s : State) (p lid : Nat),
    (∀ l, s.launch p lid = some l → l.active = false → ∀ t0, l.oldest = some t0 → s.does (.launchAging p lid) fun t =>
      t.launch p lid = some { l with aged := max l.aged ((s.now - t0) / ((if (s.part p).agestep = 0 then 100 else (s.part p).agestep) * 1800)) }) ∧
    (∀ l, s.nextLaunch p = some l → l ∈ s.launches ∧ l.active = false ∧ ∀ k ∈ s.launches, k.part = p → k.active = false → k.oldest.isSome = true → s.launchHeld k = false →
      s.effPrio k < s.effPrio l ∨ s.effPrio k = s.effPrio l ∧ (l.arrived < k.arrived ∨ l.arrived = k.arrived ∧ l.queue ≤ k.queue)) ∧
    (∀ l, (s.part p).live = true → (s.part p).reset = none → (s.launches.filter fun l => l.part == p && l.active).length < 16 → s.nextLaunch p = some l →
      (∀ tm, s.template p l.tix = some tm → tm.steal = true ∨ tm.size ≤ 2 * (s.logicalCores p).length → s.does (.launchDispatch p) fun t =>
        ∃ k ∈ t.launches, k.part = p ∧ k.lid = l.lid ∧ k.active = true ∧ k.args = l.args ∧ (k.gangs = if l.gangs = 0 then tm.gangs else l.gangs) ∧
          (∀ n, l.origin = .command n → k.tmpl = some tm)) ∧
      (∀ n, l.origin = .command n → s.template p l.tix = none → s.does (.launchDispatch p) fun t => ∀ k ∈ t.launches, ¬(k.part = p ∧ k.lid = l.lid))) ∧
    (∀ l tm, s.launch p lid = some l → l.tmpl = some tm → l.active = true → l.stopped = false → (s.part p).reset = none →
      (tm.steal = false → l.next < l.gangs → l.pooled = 0 → let cores := s.gangCores p l.next tm.size
        let cl := coreCluster (cores.headD 0)
        (∀ c ∈ cores, coreCluster c = cl) → (s.clu cl).pool.length + tm.size ≤ 64 → s.does (.gangPlacement p lid) fun t =>
          t.launch p lid = some { l with next := l.next + 1 } ∧ ∃ es, es.length = tm.size ∧ (t.clu cl).pool = (s.clu cl).pool ++ es ∧
            ∀ m < tm.size, ∃ e, es[m]? = some e ∧ e.part = p ∧ e.lid = lid ∧ e.gang = l.next ∧ e.member = m ∧ e.saved = none ∧
              e.core = some ((s.logicalCores p).getD ((l.next * tm.size + m) % (s.logicalCores p).length) 0)) ∧
      (∀ cl d rs a b, tm.steal = true → s.dirClusters p = [cl] → s.deque cl p lid = some d → d.ranges = rs ++ [(a, b)] → (s.clu cl).dqAt ≠ some s.now →
        (s.clu cl).pool.length + tm.size ≤ 64 → s.does (.gangPlacement p lid) fun t =>
          ((t.deque cl p lid).map fun d => d.ranges) = some (rs ++ if a + 1 < b then [(a + 1, b)] else []) ∧
          ∃ es, es.length = tm.size ∧ (t.clu cl).pool = (s.clu cl).pool ++ es ∧ ∀ e ∈ es, e.part = p ∧ e.lid = lid ∧ e.gang = a ∧ e.core = none)) ∧
    (∀ l tm g, (s.part p).reset = none → (s.part p).token.or (s.spanNext p) = some (lid, g) → s.launch p lid = some l → l.tmpl = some tm →
      let s1 := (s.modPart p fun k => { k with token := some (lid, g) }).reserveSlots p (s.gangCores p g tm.size)
      ((s1.part p).reserved.length < tm.size → s.does (.placementToken p) fun t => (t.part p).token = some (lid, g) ∧ t.ctxs = s.ctxs) ∧
      (tm.size ≤ (s1.part p).reserved.length → s.does (.placementToken p) fun t => (t.part p).token = none ∧ (t.part p).reserved = [] ∧
        ∀ r ∈ (s1.part p).reserved, (t.ctx r.2).act = .placed (s.now + if tm.preload = true then 24 else 4) ∧ (t.ctx r.2).launchId = BitVec.ofNat 32 l.lid)) ∧
    (∀ cl e ms l tm, s.poolNext cl = some (e, ms) → e.saved = none → s.launch e.part e.lid = some l → l.tmpl = some tm → s.does (.poolPlacement cl) fun t =>
      (∀ x ∈ (t.clu cl).pool, ¬(x.part = e.part ∧ x.lid = e.lid ∧ x.gang = e.gang ∧ x.saved = none)) ∧ ∀ m ∈ ms, t.ctx m.2 = s.startCtx l tm e.gang m.1 m.2) ∧
    (∀ (l : Launch) tm g m sid, (∀ n w a, l.origin ≠ .window n w a) → let c := s.startCtx l tm g m sid
      c.pc = tm.entry.extractLsb' 0 56 ∧ c.mode = false ∧ c.ui = false ∧ c.act = .placed (s.now + if tm.preload = true then 24 else 4) ∧
        (∀ n : BitVec 5, c.rx n = if 10 ≤ n.toNat then l.args.getD (n.toNat - 10) 0 else 0) ∧ (∀ n, c.rv n = 0) ∧ (∀ n, c.rk n = if n = 0 then BitVec.allOnes 1024 else 0) ∧
        c.launchId = BitVec.ofNat 32 l.lid ∧ c.pid = l.pid ∧ c.part = l.part ∧ c.tvec = (s.part l.part).dtvec ∧ c.privSize = BitVec.ofNat 20 tm.priv ∧
        c.taskc = #v[BitVec.ofNat 16 (g % 65536), BitVec.ofNat 16 (g / 65536), BitVec.ofNat 16 m] ∧ c.srseed = wordOfInt ((l.lid * 2 ^ 40 + g * 2 ^ 8 + m : Nat) : Int)) ∧
    (∀ sid t0, (s.ctx sid).act = .placed t0 → t0 ≤ s.now → s.does (.taskFirstCycle sid) fun t => t.ctx sid = { s.ctx sid with act := .running, lastIssue := s.now }) ∧
    (∀ l tm, s.launch p lid = some l → l.tmpl = some tm → l.active = true → l.gangs * tm.size ≤ l.ends.length → (∀ e ∈ l.ends, s.releasable e.cl e.at_ [] = true) →
      s.outputsOpen l = false →
      (∀ n c, l.origin = .command n → s.command l.queue n = some c → s.does (.launchCompletion p lid) fun t => t.launch p lid = none ∧
        s.completesCommand t l.queue c 0 0 (lid + l.gangs * 2 ^ 32)) ∧
      (∀ ci r k g sid, l.origin = .word ci r k g → s.launcherSaved p ci k g = false → s.launcherAt p ci k g = some sid → s.does (.launchCompletion p lid) fun t =>
        t.launch p lid = none ∧ s.posts? t ci (slotTag sid) (wordOfInt ((lid * 2 ^ 32 + slotTag sid * 2 ^ 8 + 8 : Nat) : Int)) (wordOfInt (l.gangs : Nat)))) ∧
    (∀ sid d n l, (s.ctx sid).idWait = (d, n) :: l → (∀ a ∈ s.answers, a.1 ≠ n) → s.does (.launchIdAnswer sid) fun t => (t.ctx sid).idWait = l ∧
      (s.ctx sid).getsX (t.ctx sid) d (wordOfInt ((s.part (s.ctx sid).part).nextLid : Nat)) ∧
      (t.part (s.ctx sid).part).nextLid = if (s.part (s.ctx sid).part).nextLid + 1 < 2 ^ 32 then (s.part (s.ctx sid).part).nextLid + 1 else 1)) ∧
  (∀ (s : State) (n : Nat) (m : Msg), s.came n = some m →
    let sends (t : State) (at_ : Nat) (b : MsgBody) : Prop := ∃ k, t.net = (s.net.filter fun x => x.id ≠ n) ++ [k] ∧ k.at_ = at_ ∧ k.body = b
    (∀ p lid thief victim, m.body = .steal p lid thief victim →
      (s.deque victim p lid = none → s.does (.stealRequest n) fun t => sends t (s.now + noticeTime victim thief) (.stolen p lid thief none)) ∧
      (∀ d, s.deque victim p lid = some d → (s.clu victim).dqAt ≠ some s.now → s.ownerCan victim p lid = false →
        (d.ranges = [] ∨ (∃ a b, d.ranges = [(a, b)] ∧ b - a < 2) → s.does (.stealRequest n) fun t =>
          sends t (s.now + noticeTime victim thief) (.stolen p lid thief none) ∧ t.deque victim p lid = s.deque victim p lid) ∧
        (∀ a b l, d.ranges = (a, b) :: l → 2 ≤ b - a → s.does (.stealRequest n) fun t =>
          sends t (s.now + noticeTime victim thief) (.stolen p lid thief (some (a + (b - a) / 2, b))) ∧
          ((t.deque victim p lid).map fun d => d.ranges) = some ((a, a + (b - a) / 2) :: l)) ∧
        (∀ a b l, d.ranges = (a, b) :: l → b - a = 1 → l ≠ [] → s.does (.stealRequest n) fun t =>
          sends t (s.now + noticeTime victim thief) (.stolen p lid thief (some (a, b))) ∧ ((t.deque victim p lid).map fun d => d.ranges) = some l))) ∧
    (∀ p lid thief d, s.deque thief p lid = some d → let cs := s.dirClusters p
      let next (k : Nat) : Nat := cs.getD ((cs.idxOf thief + k + 1) % cs.length) thief
      (∀ a b, m.body = .stolen p lid thief (some (a, b)) → a < b → (s.clu thief).dqAt ≠ some s.now → s.does (.stealAnswer n) fun t =>
        ((t.deque thief p lid).map fun d => (d.ranges, d.waiting)) = some (d.ranges ++ [(a, b)], false)) ∧
      (m.body = .stolen p lid thief none → d.asked < min 8 (cs.length - 1) → s.does (.stealAnswer n) fun t =>
        sends t (s.now + noticeTime thief (next d.asked)) (.steal p lid thief (next d.asked))) ∧
      (m.body = .stolen p lid thief none → min 8 (cs.length - 1) ≤ d.asked → s.does (.stealAnswer n) fun t =>
        t.net = (s.net.filter fun x => x.id ≠ n) ∧ ((t.deque thief p lid).map fun d => d.again) = some (s.now + 256)) ∧
      (s.partOfCluster thief = some p → d.again ≠ 0 → d.again ≤ s.now → d.waiting = false → d.asked = 0 → d.ranges = [] → 2 ≤ cs.length →
        s.does (.stealRetry thief lid) fun t => ∃ k, t.net = s.net ++ [k] ∧ k.at_ = s.now + noticeTime thief (next 0) ∧ k.body = .steal p lid thief (next 0))))

/-- The key directory: what it does with notices, arrivals and withdrawals, the retries of pairings, and when a party withdraws (R217, R224, R257, R258,
R259, R265, R266).
The event form is the model's (log 3); readings of log 10 are DEDUCED. -/
def Obligations.DirectoriesAnswerCalls : Prop :=
  ∀ (s : State) (n : Nat) (m : Msg) (dir : Nat) (c : Call),
    let time (a : Call) : Nat := s.now + noticeTime dir (slotCluster a.sid)
    let left : List Msg := s.net.filter fun x => x.id ≠ n
    let answers (t : State) (code : Nat) : Prop := ∃ k : Msg, t.net = left ++ [k] ∧ k.at_ = time c ∧ k.body = .answer c.sid c.tok code
    let entry (t : State) (e : Nat) : Option DirEntry := Tab.get none (t.post dir).entries e
    (s.came n = some m → n < s.nextId →
      (m.body = .notice dir c →
        (s.probe dir c = none → s.does (.meetNoticeArrival n) fun t => answers t 2) ∧
        (∀ (e : Nat) x, s.probe dir c = some (e, x) → s.closing c = true → s.does (.meetNoticeArrival n) fun t => answers t 3) ∧
        (∀ e : Nat, s.probe dir c = some (e, none) → s.closing c = false →
          (c.zero = true → s.does (.meetNoticeArrival n) fun t => answers t 1) ∧
          (c.zero = false → s.does (.meetNoticeArrival n) fun t => t.net = left ∧ entry t e = some { part := c.part, pid := c.pid, key := c.key, body := .notice c })) ∧
        (∀ (e : Nat) x, s.probe dir c = some (e, some x) → s.closing c = false →
          (∀ (q op : Nat) (l : List Call), x.body = .roll q op l → s.does (.meetNoticeArrival n) fun t => answers t 4) ∧
          (∀ a : Call, x.body = .notice a → (s.post dir).pairs.length < 16 →
            (slotCluster a.sid = slotCluster c.sid → s.does (.meetNoticeArrival n) fun t => entry t e = none ∧ ∃ (k h : Msg) (i : Nat), t.net = left ++ [k, h] ∧ k.at_ = time a ∧ h.at_ = time c ∧
              k.body = .order a.sid a.tok (slotCluster a.sid) none c.sid i ∧ h.body = .order c.sid c.tok (slotCluster a.sid) none a.sid i) ∧
            (∀ cl : Nat, slotCluster a.sid ≠ slotCluster c.sid → s.choosePlace a.part (slotCluster a.sid) (slotCluster c.sid) = some cl → s.does (.meetNoticeArrival n) fun t =>
              entry t e = none ∧ (t.clu cl).vres = [0, 1] ∧ ∃ (k h : Msg) (i : Nat), t.net = left ++ [k, h] ∧ k.at_ = time a ∧ h.at_ = time c ∧
                k.body = .order a.sid a.tok cl (some (10 * cl + 8)) (10 * cl + 9) i ∧ h.body = .order c.sid c.tok cl (some (10 * cl + 9)) (10 * cl + 8) i) ∧
            (slotCluster a.sid ≠ slotCluster c.sid → s.choosePlace a.part (slotCluster a.sid) (slotCluster c.sid) = none → s.does (.meetNoticeArrival n) fun t =>
              entry t e = none ∧ t.net = left ∧ ∃ p : PairRec, (t.post dir).pairs = (s.post dir).pairs ++ [p] ∧ p.a = a ∧ p.b = c ∧ p.at_ = s.now)))) ∧
      (m.body = .arrival dir c → ((s.dropKept dir).post dir).arrivals < 1024 →
        (s.probe dir c = none → s.does (.rollArrival n) fun t => answers t 2) ∧
        (∀ (e : Nat) x, s.probe dir c = some (e, x) → s.closing c = true → s.does (.rollArrival n) fun t => answers t 3) ∧
        (∀ (e : Nat) (x : DirEntry) (a : Call), s.probe dir c = some (e, some x) → s.closing c = false → x.body = .notice a → s.does (.rollArrival n) fun t => answers t 4) ∧
        (∀ (e : Nat) (x : DirEntry) (q op : Nat) (l : List Call), s.probe dir c = some (e, some x) → s.closing c = false → x.body = .roll q op l → (q ≠ c.q ∨ op ≠ c.op) →
          s.does (.rollArrival n) fun t => answers t 4) ∧
        (∀ (e : Nat) (x : Option DirEntry) (l : List Call), s.probe dir c = some (e, x) → s.closing c = false → (x = none ∧ l = [] ∨ x.map DirEntry.body = some (.roll c.q c.op l)) →
          (l.length + 1 < c.q → c.zero = true → s.does (.rollArrival n) fun t => answers t 1) ∧
          (l.length + 1 < c.q → c.zero = false → s.does (.rollArrival n) fun t => t.net = left ∧
            entry t e = some { part := c.part, pid := c.pid, key := c.key, body := .roll c.q c.op (l ++ [c]) }) ∧
          (c.q ≤ l.length + 1 → s.does (.rollArrival n) fun t => entry t e = none ∧ t.net.length = left.length + l.length + 1 ∧ ∃ i : Nat, ∀ (j : Nat) (a : Call), (l ++ [c])[j]? = some a →
            ∃ k : Msg, k ∈ t.net ∧ k.at_ = s.now + j + noticeTime dir (slotCluster a.sid) ∧ k.body = .release a.sid a.tok (rollWord c.op ((l ++ [c]).map fun x => x.word)) i))) ∧
      (m.body = .withdrawal dir c → s.callWaits c.tok = false →
        (s.withdraw dir c.tok = none → s.does (.withdrawalArrival n) fun t => t.net = left ∧ t.posts = s.posts) ∧
        (∀ (e : Nat) (x : DirEntry), entry s e = some x → (∀ y ∈ (s.post dir).entries, y.1 ≠ e → (y.2.bind fun x => x.without c.tok) = none) →
          (∀ a : Call, x.body = .notice a → a.tok = c.tok → s.does (.withdrawalArrival n) fun t => answers t 1 ∧ entry t e = none) ∧
          (∀ (q op : Nat) (l : List Call), x.body = .roll q op l → (∃ a ∈ l, a.tok = c.tok) → s.does (.withdrawalArrival n) fun t => answers t 1 ∧
            entry t e = if (∀ a ∈ l, a.tok = c.tok) then none else some { x with body := .roll q op (l.filter fun a => a.tok != c.tok) })))) ∧
    (∀ (sid : Nat) (p : Park) (u : Nat), (s.ctx sid).act = .parked → (s.ctx sid).park = some p → p.deadline = some u → u ≤ s.now → p.withdrawn = false → (s.ctx sid).heldForSave = false →
      isVisitor sid = false → (s.ctx sid).meet = none → s.does (.meetWithdrawal sid) fun t => (t.ctx sid).park = some { p with withdrawn := true } ∧
        ∃ (k : Msg) (b : Call), t.net = s.net ++ [k] ∧ k.at_ = s.now + noticeTime (slotCluster sid) (s.dirOf b) ∧ k.body = .withdrawal (s.dirOf b) b ∧ b.sid = sid ∧ b.tok = p.tok ∧
          b.key = p.key ∧ b.part = (s.ctx sid).part ∧ b.pid = (s.ctx sid).pid) ∧
    (∀ (p : PairRec) (cl : Nat), (s.post dir).pairs = [p] → slotCluster p.a.sid ≠ slotCluster p.b.sid →
      (p.at_ < s.now → (s.now - p.at_) % 64 = 0 → s.choosePlace p.a.part (slotCluster p.a.sid) (slotCluster p.b.sid) = some cl → s.does (.pairRetry dir) fun t =>
        (t.post dir).pairs = [] ∧ (t.clu cl).vres = [0, 1] ∧ ∃ k h : Msg, t.net = s.net ++ [k, h] ∧ k.at_ = time p.a ∧ h.at_ = time p.b ∧
          k.body = .order p.a.sid p.a.tok cl (some (10 * cl + 8)) (10 * cl + 9) p.taint ∧ h.body = .order p.b.sid p.b.tok cl (some (10 * cl + 9)) (10 * cl + 8) p.taint) ∧
      ((s.now - p.at_) % 64 ≠ 0 → exec (.pairRetry dir) s = .next s))

/-- The parties: a directory's answer, a release, the order to leave or to meet in place, the envelope's arrival, the way home, the visitor slot, and the
taints whose horizons pass (R217, R218, R221, R222, R260, R263, R264, R266, R363).
The event form is the model's (log 3); the cycle in which luggage has left is the model's choice (log 10), whose other readings are DEDUCED. -/
def Obligations.PartiesMeetAndReturn : Prop :=
  ∀ (s : State) (n : Nat) (m : Msg),
    let left : List Msg := s.net.filter fun x => x.id ≠ n
    (∀ sid home tok p, s.came n = some m → (s.clu (slotCluster home)).restore = none → s.partyAt tok = some sid → (s.ctx sid).park = some p →
      (∀ code, m.body = .answer home tok code → s.trapBlock sid = none → (s.ctx sid).inmeet = false →
        (code < 4 → s.does (.directoryAnswerArrival n) fun t => t.net = left ∧ (t.ctx sid).act = .running ∧ (t.ctx sid).park = none ∧ (t.ctx sid).pc = (s.ctx sid).pc + 4 ∧
          (s.ctx sid).getsX (t.ctx sid) p.d (wordOfInt (code : Nat))) ∧
        (4 ≤ code → s.does (.directoryAnswerArrival n) fun t => t.net = left ∧ (t.ctx sid).act = .running ∧ (t.ctx sid).pc = (s.ctx sid).tvec ∧ (t.ctx sid).mode = true ∧
          (t.ctx sid).epc = (s.ctx sid).pc &&& ~~~3 ∧ (t.ctx sid).tval = p.key ∧ (t.ctx sid).cause = wordOfInt (Trap.meetMismatch.code : Nat) ∧ (s.ctx sid).sameX (t.ctx sid))) ∧
      (∀ w i, m.body = .release home tok w i → s.does (.rollRelease n) fun t => t.net = left ∧ (t.ctx sid).act = .running ∧ (t.ctx sid).pc = (s.ctx sid).pc + 4 ∧
        (t.ctx sid).taints = (s.ctx sid).taints ++ [i] ∧
        ∀ r, (t.ctx sid).rx r = if r = p.b ∧ r ≠ 0 then w else if r = p.d ∧ r ≠ 0 then 0 else (s.ctx sid).rx r) ∧
      (∀ place v partner i, m.body = .order home tok place (some v) partner i → s.does (.departureOrder n) fun t => (t.ctx sid).act = .away ∧
        ∃ (k : Msg) (w : Ctx), t.net = left ++ [k] ∧ k.at_ = s.now + travelTime (slotCluster sid) place (512 + 64 * (p.plen + 1) + 512 * (maskVecs p.vmask).length) ∧
          k.body = .envelope v w (s.spadRead (slotCluster sid) ((s.ctx sid).privBase.toNat + 64 * p.poff) (64 * (p.plen + 1))) ∧ w.x = (s.ctx sid).x ∧ w.pc = (s.ctx sid).pc ∧
          w.home = sid ∧ (∀ b, w.rv b = if p.vmask.getLsbD b.toNat = true then (s.ctx sid).rv b else 0)) ∧
      (∀ place partner i, m.body = .order home tok place none partner i → partner ≠ sid →
        ((s.ctx partner).meet = none → s.does (.departureOrder n) fun t => t.net = left ∧ (t.ctx sid).act = (s.ctx sid).act ∧ ((t.ctx sid).meet.map fun q => q.partner) = some partner ∧
          t.ctx partner = s.ctx partner) ∧
        (∀ q pp, (s.ctx sid).act = .parked → (s.ctx partner).meet = some q → q.taint = i → (s.ctx partner).act = .parked → (s.ctx partner).park = some pp → s.does (.departureOrder n) fun t =>
          (t.ctx sid).inmeet = true ∧ (t.ctx partner).inmeet = true ∧ (t.ctx sid).act = .running ∧ (t.ctx partner).act = .running ∧
          (t.ctx sid).pc = (s.ctx sid).pc + 4 ∧ (t.ctx partner).pc = (s.ctx partner).pc + 4 ∧
          (s.ctx sid).getsX (t.ctx sid) p.d 0 ∧ (s.ctx partner).getsX (t.ctx partner) pp.d 0))) ∧
    (∀ v c parcel q, s.came n = some m → m.body = .envelope v c parcel → c.meet = some q → q.partner ≠ v → (s.ctx q.partner).meet = none →
      s.does (.envelopeArrival n) fun t => t.net = left ∧ (t.ctx v).x = c.x ∧ (t.ctx v).v = c.v ∧ (t.ctx v).act = c.act ∧ (t.ctx v).pc = c.pc ∧
        s.writesSpad t q.place q.parcel (64 * (q.plen + 1)) (parcel % 2 ^ (512 * (q.plen + 1)))) ∧
    (∀ h c parcel f q, let off := (s.ctx h).privBase.toNat + 64 * q.poff
      s.came n = some m → m.body = .luggage h c parcel f → c.meet = some q → f ≠ h → s.undoFull (slotCluster h) off (64 * (q.plen + 1)) = false → s.does (.returnLuggageArrival n) fun t =>
        t.net = left ∧ s.writesSpad t (slotCluster h) off (64 * (q.plen + 1)) (parcel % 2 ^ (512 * (q.plen + 1))) ∧
        (t.ctx h).x = c.x ∧ (t.ctx h).inmeet = false ∧ (t.ctx h).meet = none ∧ (t.ctx h).act = .running ∧ (t.ctx h).v = (s.ctx h).v ∧ (t.ctx h).k = (s.ctx h).k ∧
        (t.ctx h).fm = (s.ctx h).fm ∧ (q.trap = none → (t.ctx h).pc = c.pc ∧ (t.ctx h).mode = c.mode) ∧
        ∀ x, q.trap = some x → (t.ctx h).pc = (s.ctx h).tvec ∧ (t.ctx h).mode = true ∧ (t.ctx h).tval = x.tval ∧ (t.ctx h).epc = x.epc &&& ~~~3) ∧
    (∀ v h c parcel q, m ∈ s.net → m.body = .luggage h c parcel v → luggageLeft c ≤ s.now → (s.ctx v).act = .away → (s.ctx v).meet = some q → s.does (.visitorSlotFree v) fun t =>
      t.ctx v = {} ∧ (∀ r ∈ (t.clu (slotCluster v)).vres, r ≠ slotLocal v - 8) ∧ s.sameBytes t) ∧
    (∀ sid, s.does (.taintHorizon sid) fun t => (∀ i, i ∈ (t.ctx sid).taints ↔ i ∈ (s.ctx sid).taints ∧ ∃ x, s.taintTab.find? (fun x => x.1 == i) = some x ∧ ∀ h, x.2.horizon = some h → s.now < h) ∧
      (s.ctx sid).sameX (t.ctx sid) ∧ s.sameBytes t)

/-- Waits that end, contexts saved and restored, checkpoints, and rollbacks (R129, R203, R234, R236, R328, R330, R357 to R360).
The event form is the model's (log 3); readings of logs 13 and 14 are DEDUCED; the order of words in a saved transfer is the model's choice (log 8). -/
def Obligations.ContextsWaitAndRecover : Prop :=
  ∀ (s : State) (sid cl : Nat),
    (∀ d u, (s.ctx sid).act = .waitWord d (some u) → u ≤ s.now → s.does (.waitTimeout sid) fun t => (t.ctx sid).act = .running ∧ (t.ctx sid).pc = (s.ctx sid).pc + 4 ∧
      (s.ctx sid).getsX (t.ctx sid) d 2 ∧ (∀ w ∈ (t.clu (slotCluster sid)).waiters, w.sid ≠ sid) ∧ s.sameBytes t) ∧
    (∀ d g e u, (s.ctx sid).act = .waitTag d g e (some u) → u ≤ s.now → s.does (.twaitTimeout sid) fun t => (t.ctx sid).act = .running ∧
      (t.ctx sid).pc = (s.ctx sid).pc + 4 ∧ (s.ctx sid).getsX (t.ctx sid) d 2 ∧ s.sameBytes t) ∧
    (∀ u, (s.ctx sid).act = .sleeping (some u) → u ≤ s.now → s.does (.sleepTimeout sid) fun t => t.ctx sid = { s.ctx sid with act := .slept } ∧ s.sameBytes t) ∧
    ((s.ctx sid).act = .halted → s.does (.debugRelease sid) fun t => t.ctx sid = { s.ctx sid with act := .running }) ∧
    (s.savedOut.find? (fun v => v.sid == sid && v.ended.isNone) = none → isVisitor sid = false → s.atCut sid = true → s.saveTurn sid = true →
      ((∃ x ∈ (s.core (slotCore sid)).xfers, x.sid = sid ∧ x.stopped = false) → (∀ x ∈ s.goingXfers sid, x.kind = .copy → x.held = false → s.undoFull (slotCluster sid) (x.block + 60) 4 = false) → s.does (.contextSave sid) fun t =>
        ∀ x ∈ (t.core (slotCore sid)).xfers, x.sid = sid → x.stopped = true) ∧
      (∀ q, s.goingXfers sid = [] → s.enginesQuiet sid = true → (s.cutLast sid = true → s.freesHeld (slotCluster sid) = false) → s.portCut sid = some q → s.does (.contextSave sid) fun t => (t.ctx sid).act = .saved ∧
        ∃ v, t.saved = s.saved ++ [v] ∧ v.sid = sid ∧ v.ended = none ∧ v.ctx.x = (s.ctx sid).x ∧ v.ctx.pmode = false ∧
          v.ctx.epc = (match q with
            | some e => e.pc
            | none => (s.ctx sid).pc) &&& ~~~3 ∧
          v.block = (s.part (s.ctx sid).part).ctxsave + (2 * s.logicalCore (s.ctx sid).part (slotCore sid) + slotCode sid) *
            (ceilDiv (0x7500 + 64 * (s.part (s.ctx sid).part).pmax) 4096 * 4096))) ∧
    (∀ v, s.savedOut.find? (fun v => v.sid == sid && v.ended.isNone) = some v → s.restUsed (slotCluster sid) + 6 ≤ 512 →
      (v.todo ≠ [] → s.does (.contextSave sid) fun t => t.ctxs = s.ctxs ∧
        t.reqs.length = s.reqs.length + min v.todo.length (512 - s.restUsed (slotCluster sid))) ∧
      (v.todo = [] → (v.yielded = true → (s.clu (slotCluster sid)).pool.length < 64) → s.does (.contextSave sid) fun t => t.ctx sid = {} ∧
        t.reqs.length = s.reqs.length + 6 ∧ (v.yielded = true → ∃ e ∈ (t.clu (slotCluster sid)).pool, e.saved = some v.n) ∧
        ∃ r ∈ t.reqs, r.kind = .save ∧ r.pa = v.block ∧ r.data.testBit 63 = true)) ∧
    (∀ n v, s.savedOut.find? (fun v => v.n == n) = some v →
      (∀ e ms, v.restoring = false → s.poolNext (slotCluster v.sid) = some (e, ms) → e.saved = some n → s.does (.contextRestore n) fun t => (t.ctx v.sid).act = .saved ∧
        ∀ e ∈ (t.clu (slotCluster v.sid)).pool, e.saved ≠ some n) ∧
      (v.restoring = true → v.todo = [] → (s.fromBlock v).frame.getLsbD 15 = false → s.does (.contextRestore n) fun t => (t.ctx v.sid).act = v.ctx.act ∧
        (∀ r : BitVec 5, (t.ctx v.sid).rx r = if r = 0 then 0 else wordOfInt (s.physRead (v.block + 0x40 + 8 * r.toNat) 8 : Nat)) ∧
        (∀ r : BitVec 4, (t.ctx v.sid).rv r = BitVec.ofNat 4096 (s.physRead (v.block + 0x1400 + 512 * r.toNat) 512)))) ∧
    (s.now % 256 = 0 → (∃ c ∈ s.activeClusters, (s.clu c).restore = none ∧ ∀ k ∈ (s.clu c).ckpts, k.at_ ≠ s.now) → s.does .checkpoint fun t =>
      ∀ c ∈ s.activeClusters, (s.clu c).restore = none → (∀ k ∈ (s.clu c).ckpts, k.at_ ≠ s.now) →
        (∃ k, (t.clu c).ckpts.head? = some k ∧ k.at_ = s.now ∧ k.tags = (s.clu c).tags ∧ k.waiters = (s.clu c).waiters) ∧
        ((s.clu c).arr.cover = none → (t.clu c).ckpts.length ≤ 3)) ∧
    ((s.clu cl).restore = none → (s.clu cl).arr.cover = none → s.does (.undoFree cl) fun t =>
      ∀ u, u ∈ (t.clu cl).undo ↔ u ∈ (s.clu cl).undo ∧ s.now < 256 * u.interval + 704) ∧
    (cl < 1152 → s.taintTab = [] → ((s.clu cl).rbTimes.filter fun u => decide (s.now < u + 1800000)).length < 8 → s.does (.strikeDetection cl) fun t =>
      (t.clu cl).rbTotal = (s.clu cl).rbTotal + 1 ∧ ∀ c ∈ regionOf cl, s.rollsBack c = true → (s.clu c).restore = none →
        ∃ r, (t.clu c).restore = some r ∧ r.target = s.strikeTarget c ∧ r.at_ = s.now ∧ r.located = cl) ∧
    (∀ r, (s.clus.filter fun k => k.2.restore.isSome) = [(cl, s.clu cl)] → (s.clu cl).restore = some r → s.rollsBack cl = true → r.rewinds = [] → s.saved = [] →
      s.entryLog = [] → ((s.clu cl).ckptAt r.target).atoms = [] → s.does (.rollbackRestoreComplete cl) fun t => (t.clu cl).restore = none ∧
        (Tab.rising ((s.clu cl).ckptAt r.target).ctxs = true → ∀ e ∈ ((s.clu cl).ckptAt r.target).ctxs, slotCluster e.1 = cl → isVisitor e.1 = false →
          e.2.sameX (t.ctx e.1) ∧ (t.ctx e.1).pc = e.2.pc) ∧
        (∀ u, ((s.clu cl).undo.filter fun u => decide (r.target ≤ 256 * u.interval)) = [u] → t.spadRead cl (16 * u.line) 16 = u.old.toNat))

/-! Accounts, streams, links, errors, and the start. -/

/-- Account records reach their ring, and RIDX is read again; streams: binding, marks, records, watermarks, idle sources, firing and amending, the record
port, publication (R72, R73, R332, R334 to R337, R339 to R343, R345).
The event form is the model's (log 3); readings of logs 12 and 14 are DEDUCED, among them the padding of the record port and the records kept after a fault. -/
def Obligations.AccountsAndStreams : Prop :=
  (∀ (s : State) (ci : Nat),
    (∀ a pb pr, s.acctq.find? (fun a => a.ci == ci) = some a → s.recordHeld a = false → s.releasable (coreCluster ci) a.made [] = true →
      s.acctAsk ci a.part a.pid [a.base] = none → s.acctPa ci a.part a.pid a.base .atomic = .ok pb →
      let widx := s.physRead pb 8
      let ridx := (s.core ci).ridxOf a.part a.pid a.base
      let va := a.base + 64 + 16 * (widx % (2 ^ a.log2 / 16 - 4))
      acctFree a.log2 widx ridx ≠ 0 → s.acctAsk ci a.part a.pid [va] = none → s.acctPa ci a.part a.pid va .write = .ok pr →
      s.portAsk ([pb, pr].filterMap fun pa => if pa < hostBase then some (lineOf pa) else none) (engineRank ci 7) = none → s.traces = [] → hostBase ≤ pb ∨ pb + 8 ≤ hostBase →
        hostBase ≤ pr ∨ pr + 16 ≤ hostBase → pr + 16 ≤ pb ∨ pb + 8 ≤ pr → s.does (.accountRecordWrite ci) fun t => t.acctq = s.acctq.erase a ∧
          t.physRead pr 16 = a.w0.toNat + a.w1.toNat * 2 ^ 64 ∧ t.physRead pb 8 = (widx + 1) % 2 ^ 64 ∧
          (t.core ci).stall = (if (∃ r ∈ s.ringsOf ci, r.1 = a.part ∧ r.2.1 = a.pid ∧ r.2.2.1 = a.base ∧ acctFree a.log2 (widx + 1) ridx < r.2.2.2.2) ∧ (s.core ci).stall = none
            then s.oldestOn ci else (s.core ci).stall)) ∧
    (∀ a k, s.acctq.find? (fun a => a.ci == ci) = some a → s.recordHeld a = false → s.releasable (coreCluster ci) a.made [] = true →
      s.acctAsk ci a.part a.pid [a.base] = none → s.acctPa ci a.part a.pid a.base .atomic = .error k → s.does (.accountRecordWrite ci) fun t => s.sameBytes t ∧
        t.acctq.length = s.acctq.length ∧ (∀ b ∈ t.acctq, b.ci = ci → b.part = a.part → b.pid = a.pid → b.base = a.base → b.faulted = true) ∧
        ∀ sid ∈ coreSlots ci, (t.ctx sid).act ≠ .free → (t.ctx sid).part = a.part → (t.ctx sid).pid = a.pid → (t.ctx sid).acctbase.toNat = a.base → (t.ctx sid).acctctl.getLsbD 0 = false) ∧
    ((∀ a ∈ s.acctq, a.ci = ci → s.recordHeld a = true ∨ s.releasable (coreCluster ci) a.made [] = false ∨ (s.acctAsk ci a.part a.pid [a.base] = none ∧
      ∃ pb, s.acctPa ci a.part a.pid a.base .atomic = .ok pb ∧ acctFree a.log2 (s.physRead pb 8) ((s.core ci).ridxOf a.part a.pid a.base) = 0 ∧ s.beginsStall a 0 = false)) →
      exec (.accountRecordWrite ci) s = .next s) ∧
    (∀ p pid base log2 h pa pb, s.ringsOf ci = [(p, pid, base, log2, h)] → s.ridxAsked ci = true → s.acctAsk ci p pid [base] = none →
      (∀ a ∈ s.acctq, a.ci = ci → a.part = p ∧ a.pid = pid ∧ a.base = base) → s.acctPa ci p pid (base + 8) .read = .ok pa → s.acctPa ci p pid base .read = .ok pb →
      s.does (.acctRidxRead ci) fun t => (t.core ci).ridxOf p pid base = s.physRead pa 8 ∧ s.sameBytes t ∧
        (h ≤ acctFree log2 (s.physRead pb 8) (s.physRead pa 8) → (t.core ci).stall = none) ∧
        (acctFree log2 (s.physRead pb 8) (s.physRead pa 8) < h → (t.core ci).stall = (s.core ci).stall))) ∧
  (∀ (s : State) (p n : Nat),
    (∀ (q k : Nat) (c : Cmd), p = s.queuePart q → n = c.arg → c.arg < 64 → s.command q k = some c →
      (∀ v : Nat, c.op = 2 → c.word 1 ≠ 0 → (s.stream p n).bound = none → s.queueRead q (wordOfInt (c.word 1 : Nat)) 16 = .ok v →
        (∀ x pa, s.queuePa q .read x = .ok pa → lineOf pa ∉ s.taken) →
        let w := blockWord v
        let b := bindingOf q (s.queue q).qpid w
        (s.bindBad p w b = true → s.does (.bindStream q k) fun t => s.completesCommand t q c 1 codeCmdInvalid 0) ∧
        (s.bindBad p w b = false → s.does (.bindStream q k) fun t => s.completesCommand t q c 0 0 0 ∧ ∃ d : Binding, (t.stream p n).bound = some d ∧ d.queue = q ∧
          d.tmpl = w 0 % 2 ^ 16 ∧ d.lanes = w 0 / 2 ^ 16 % 2 ^ 8 + 1 ∧ d.nsrc = w 0 / 2 ^ 24 % 2 ^ 6 + 1 ∧ d.origin = w 2 ∧ d.size = w 3 ∧ d.late = w 5 ∧
          (t.stream p n).wmark = 0 ∧ ∀ x < d.nsrc, (Tab.get {} (t.stream p n).srcs x).active = true)) ∧
      (c.op = 2 → c.word 1 = 0 → (s.stream p n).bound = none → s.does (.bindStream q k) fun t => s.completesCommand t q c 0 0 0) ∧
      (∀ b : Binding, c.op = 2 → c.word 1 = 0 → (s.stream p n).bound = some b → (s.stream p n).unbind = none → (s.stream p n).inq.all (fun x => !x.isHost) = true → s.does (.bindStream q k) fun t =>
        (t.stream p n).unbind = some (q, k) ∧ ∀ x ∈ (t.stream p n).wins, x.firing ≠ .open_ ∧ x.firing ≠ .due) ∧
      (∀ b : Binding, let src := c.word 1 % 2 ^ 6
        c.op = 3 → c.started = false → (s.stream p n).bound = some b → (s.stream p n).unbind = none → src < b.nsrc → b.device src = false →
          s.does (.sourceMark q k) fun t => (t.stream p n).inq = (s.stream p n).inq ++ [.host src (c.word 2 % 2 ^ 32)
            (if (c.word 1).testBit 8 = true then some (c.word 3) else none) q k])) ∧
    (∀ b : Binding, (s.stream p n).bound = some b → let t0 := s.stream p n
      (∀ (src : Nat) (ws : List Word) (lid : Option Nat) (l : List SIn), t0.inq = .record src ws lid :: l → t0.takenAt ≠ some s.now → (b.dead = 0 ∨ s.taken = []) → b.down = 0xFFFF →
        let e := (ws.getD 0 0).toNat
        let x := Tab.get {} t0.srcs src
        let w := (e - b.origin) / b.size
        (s.does (.streamRecordArrival p n) fun t => (t.stream p n).inq = l ∧
          Tab.get {} (t.stream p n).srcs src = { x with cons := (x.cons + 1) % 2 ^ 32, active := true, beat := s.now }) ∧
        (e < b.origin → s.does (.streamRecordArrival p n) fun t => (t.stream p n).ndead = t0.ndead + 1) ∧
        (b.origin ≤ e → e ≠ 2 ^ 64 - 1 → b.slide = b.size → b.size ≠ 0 → w < 2 ^ 32 → w < t0.oldestOpen b + 2 ^ b.wsLog → t0.recs.length < 2 ^ b.bufLog / 32 →
          t0.wmark < b.origin + (w + 1) * b.size → (∀ y ∈ t0.wins, y.w ≠ w) → s.does (.streamRecordArrival p n) fun t => (t.stream p n).ndead = t0.ndead ∧
            ∃ (i : Nat) (y : Win), y ∈ (t.stream p n).wins ∧ y.w = w ∧ y.lists = [((ws.getD 1 0).toNat % b.lanes, [i])] ∧ ∃ r : SRec, r ∈ (t.stream p n).recs ∧ r.id = i ∧ r.words = ws)) ∧
      (∀ (src v : Nat) (lid : Option Nat) (l : List SIn), t0.inq = .mark src v lid :: l → t0.takenAt ≠ some s.now → src < b.nsrc → b.down = 0xFFFF → s.does (.watermarkMark p n) fun t =>
        let t1 := t.stream p n
        let at_ (k : Nat) : Source := Tab.get {} t1.srcs k
        t1.inq = l ∧ at_ src = { Tab.get {} t0.srcs src with wm := max (Tab.get {} t0.srcs src).wm v, active := true, beat := s.now } ∧
          (∃ k m : Nat, k < b.nsrc ∧ (at_ k).active = true ∧ m = (at_ k).wm ∧ t1.wmark = max t0.wmark m ∧ ∀ j < b.nsrc, (at_ j).active = true → m ≤ (at_ j).wm) ∧
          ∀ y ∈ t1.wins, y.firing = .open_ → t1.wmark < b.endOf y.w) ∧
      (∀ src : Nat, src < b.nsrc → (Tab.get {} t0.srcs src).active = true → (Tab.get {} t0.srcs src).beat + b.idle ≤ s.now → b.down = 0xFFFF → s.does (.sourceIdle p n src) fun t =>
        Tab.get {} (t.stream p n).srcs src = { Tab.get {} t0.srcs src with active := false }) ∧
      (∀ y : Win, t0.wins.find? (fun y => y.firing == .due) = some y → t0.firedAt ≠ some s.now → s.taken = [] → t0.unbind = none → s.pubWaits p n b = false → s.does (.windowLaunch p n) fun t =>
        (∀ z ∈ (t.stream p n).wins, z.w = y.w → z.firing = .running (s.part p).nextLid) ∧ ∃ l : Launch, t.launches = s.launches ++ [l] ∧ l.part = p ∧ l.lid = (s.part p).nextLid ∧
          l.queue = b.queue ∧ l.tix = b.tmpl ∧ l.origin = .window n y.w false ∧ l.gangs = l.lanes.length ∧
          (l.lanes.map fun k : Lane => (k.lane, k.words, k.revision)) = (y.lists.filter fun k : Nat × List Nat => !k.2.isEmpty).map fun k : Nat × List Nat => (k.1, t0.wordsFor k.2, 1)) ∧
      (∀ y : Win, t0.wins.find? (fun x => x.w == y.w) = some y → y.firing = .complete → y.amend = none → s.taken = [] → t0.unbind = none → (∃ k ∈ y.late, k.2 ≠ []) →
        s.does (.amendLaunch p n y.w) fun t => (∀ z ∈ (t.stream p n).wins, z.w = y.w → z.amend = some (s.part p).nextLid ∧ z.late = []) ∧
          ∃ l : Launch, t.launches = s.launches ++ [l] ∧ l.part = p ∧ l.lid = (s.part p).nextLid ∧ l.origin = .window n y.w true ∧
            (l.lanes.map fun k : Lane => (k.lane, k.words, k.revision)) = (y.late.filter fun k : Nat × List Nat => !k.2.isEmpty).map fun k : Nat × List Nat => (k.1, t0.wordsFor k.2, Tab.get 0 y.revs k.1 + 1)) ∧
      (∀ (x : Pub) (l : List Pub), t0.pubs = x :: l → s.taken = [] → s.ringFull p b b.out.toNat b.outLog 32 = false → s.does (.publication p n) fun t => (t.stream p n).pubs = l ∧
        (∀ z ∈ (t.stream p n).wins, z.w = x.w → Tab.get 0 z.revs x.lane = x.revision) ∧
        ∀ a k, t.physRead a k = ((s.unitWrite p b (b.slotOf x.w x.lane) x.value 2).ringPut p b b.out.toNat b.outLog 32
          (x.w + (x.lane + x.revision % 2 ^ 16 * 2 ^ 16 + (if x.amend = true then 2 ^ 32 else 0)) * 2 ^ 64 + x.value * 2 ^ 128)).physRead a k)) ∧
    (∀ (sid : Nat) (k : WindowTask), (s.ctx sid).win = some k → k.shut = false → k.buf.length ≤ k.depth → s.does (.recordPortRefill sid) fun t => ∃ j : WindowTask, (t.ctx sid).win = some j ∧ j.buf.length = k.depth ∧
      j.todo = k.todo.drop (k.depth - k.buf.length) ∧ (∀ i < k.buf.length, j.buf[i]? = k.buf[i]?) ∧
      ∀ i < k.depth - k.buf.length, j.buf[k.buf.length + i]? = some (k.todo.getD i (BitVec.allOnes 64))))

/-- The die link: flits, replay, acknowledgements, retraining, and remote requests with their answers (R391 to R393, R396, R397).
The event form is the model's (log 3); readings of log 14 are DEDUCED. -/
def Obligations.LinksCarryTransactions : Prop :=
  ∀ (s : State) (m : Nat),
    let l := s.link m
    (l.training = false → l.queue ≠ [] → l.replay.length < 128 → l.free ≤ s.now → s.does (.flitSend m) fun t =>
      let f : Flit := { seq := l.seq, ts := l.queue.take 3, at_ := s.now + if l.half then 50 else 48 }
      (t.link m).queue = l.queue.drop 3 ∧ (t.link m).wire = l.wire ++ [f] ∧ (t.link m).replay = l.replay ++ [f] ∧ (t.link m).seq = (l.seq + 1) % 4096) ∧
    (16 ≤ m → exec (.flitArrival m true) s = .next s ∧ s.does (.flitArrival m false) fun t => s.sameBytes t ∧
      (Tab.get {} t.banks (64 + moduleNumber m % 2)).cntC = ((Tab.get {} s.banks (64 + moduleNumber m % 2)).cntC + 1) % 2 ^ 32) ∧
    (∀ f w, m < 16 → l.wire = f :: w → f.at_ ≤ s.now →
      (f.seq = l.expect → l.resend = none → s.does (.flitArrival m true) fun t => (t.link m).wire = w ∧ (t.link m).expect = (l.expect + 1) % 4096 ∧
        (t.link m).acks = l.acks ++ [(f.seq, s.now + if l.half then 50 else 48)] ∧ t.arrived = s.arrived ++ f.ts.map fun x => { x with at_ := s.now }) ∧
      (l.resend ≠ none → s.does (.flitArrival m true) fun t => (t.link m).wire = w ∧ t.arrived = s.arrived ∧ (t.link m).expect = l.expect) ∧
      (f.seq = l.expect → l.resend = none → s.does (.flitArrival m false) fun t => (t.link m).wire = w ∧ (t.link m).resend = some f.seq ∧ t.arrived = s.arrived ∧
        (t.link m).expect = l.expect)) ∧
    (∀ k, l.resend = some k → l.training = false → s.does (.flitReplay m) fun t => (t.link m).resend = none ∧ (t.link m).wire.map (fun f => (f.seq, f.ts)) = (l.replay.dropWhile fun f => f.seq ≠ k).map fun f => (f.seq, f.ts)) ∧
    (∀ k u a, l.acks = (k, u) :: a → u ≤ s.now → s.does (.flitAcknowledge m) fun t => (t.link m).acks = a ∧ (t.link m).replay = l.replay.filter fun f => f.seq ≠ k) ∧
    (l.half = false → s.does (.laneFailure m) fun t => ∀ k ∈ moduleDirs m, (t.link k).half = true ∧ (t.link k).training = true ∧ (t.link k).wire = [] ∧
      (t.link k).replay = (s.link k).replay) ∧
    (l.half = true → s.does (.laneFailure m) fun t => t.boot.cause = 7 ∧ t.boot.stage = 0 ∧ t.now = 0) ∧
    (l.training = true → s.does (.retrainComplete m true) fun t => ∀ k ∈ moduleDirs m, (t.link k).training = false ∧
      (t.link k).resend = (s.link k).replay.head?.map fun f => f.seq) ∧
    (l.training = true → s.does (.retrainComplete m false) fun t => t.boot.cause = 7 ∧ t.boot.stage = 0 ∧ t.now = 0) ∧
    (∀ lo hi, m < 16 → (∃ f ∈ l.replay, lo ≤ f.seq ∧ f.seq ≤ hi) → s.does (.replayReissue m lo hi) fun t => (t.link m).replay = l.replay.filter (fun f => decide (f.seq < lo ∨ hi < f.seq)) ∧
      ∀ f ∈ l.replay, lo ≤ f.seq → f.seq ≤ hi → ∀ x ∈ f.ts, (∃ e ∈ s.outs, e.tag = x.tag ∧ e.done = false) →
        ∃ y ∈ (t.link (linkTo (x.tag / 2 ^ 12 % 32) (1 - x.tag / 2 ^ 17))).queue, y.tag = x.tag ∧ y.req = x.req ∧ y.resp = none) ∧
    (∀ n x, s.arrived.find? (fun x => x.n == n && x.resp.isNone) = some x →
      let answers (t : State) (v : Nat) : Prop := let k := linkTo (x.tag / 2 ^ 12 % 32) (x.tag / 2 ^ 17)
        ∃ y, (t.link k).queue = (s.link k).queue ++ [y] ∧ y.tag = x.tag ∧ y.req = x.req ∧ y.resp = some v
      (∀ d, s.dups.find? (fun d => d.tag == x.tag) = some d → s.does (.remoteRequestArrival n) fun t => answers t d.value ∧ (∀ y ∈ t.arrived, y.n ≠ n) ∧ s.sameBytes t) ∧
      (∀ r, (∀ d ∈ s.dups, d.tag ≠ x.tag) → s.req x.req = some r → s.portTakes (lineOf r.pa) x.at_ (linkRank (x.tag / 2 ^ 12 % 8)) = true → r.kind = .store → r.be = allBytes r.size → hostBase ≤ r.pa ∨ r.pa + r.size ≤ hostBase →
        s.does (.remoteRequestArrival n) fun t => answers t 0 ∧ t.physRead r.pa r.size = r.data % 2 ^ (8 * r.size) ∧ t.req x.req = some { r with stage := .performed })) ∧
    (∀ n x, s.arrived.find? (fun x => x.n == n && x.resp.isSome) = some x →
      ((∀ e ∈ s.outs, e.tag = x.tag → e.done = true) → s.does (.remoteResponseArrival n) fun t => t.outs = s.outs ∧ t.reqs = s.reqs ∧ ∀ y ∈ t.arrived, y.n ≠ n) ∧
      ((∃ e ∈ s.outs, e.tag = x.tag ∧ e.done = false) → s.does (.remoteResponseArrival n) fun t => (∀ e ∈ t.outs, e.tag = x.tag → e.done = true) ∧
        t.respAcks = s.respAcks ++ [x.tag] ∧ ∀ r op g, s.req x.req = some r → r.stage = .sent → r.kind = .amo op g → ∃ v, x.resp = some v ∧
          t.req x.req = some { r with stage := .performed, data := v })) ∧
    (∀ n, n ∈ s.respAcks → s.does (.responseAcknowledgement n) fun t => (∀ d ∈ t.dups, d.tag ≠ n) ∧ (∀ e ∈ t.outs, ¬(e.tag = n ∧ e.done = true)) ∧ t.respAcks = s.respAcks.erase n)

/-- Error events, package resets, the stages of the start and their failures, attestation, and the accesses of the host and the monitor (R240, R279, R284,
R322, R373, R375, R376, R382, R384 to R387, R389, R390).
The event form is the model's (log 3); the firmware's first minimum version is the model's choice (log 2); a signature is a free value (log 5); readings of log 14 are DEDUCED. -/
def Obligations.StartErrorsAndTheHost : Prop :=
  (∀ (s : State),
    (∀ a syn, s.does (.hbmEccError a false syn) fun t => lineOf a ∈ t.poison ∧ (Tab.get {} t.banks (64 + homeDie a)).cntD = ((Tab.get {} s.banks (64 + homeDie a)).cntD + 1) % 2 ^ 32 ∧
      s.sameBytes t) ∧
    (∀ a syn, s.does (.hbmEccError a true syn) fun t => t.poison = s.poison ∧
      (Tab.get {} t.banks (64 + homeDie a)).cntC = ((Tab.get {} s.banks (64 + homeDie a)).cntC + 1) % 2 ^ 32 ∧ s.sameBytes t) ∧
    (∀ e die ps syn, die < 2 → (∀ p ∈ ps, p < 32) → s.does (.sramEccCorrection e die ps syn) fun t =>
      (Tab.get {} t.banks (64 + die)).cntC = ((Tab.get {} s.banks (64 + die)).cntC + 1) % 2 ^ 32 ∧
      (ps.Nodup → ∀ p ∈ ps, (Tab.get {} t.banks (32 * die + p)).cntC = ((Tab.get {} s.banks (32 * die + p)).cntC + 1) % 2 ^ 32) ∧ s.sameBytes t) ∧
    (∀ k, k < 64 → s.does (.sliceUncorrectedError k) fun t => (Tab.get {} t.banks (64 + k / 32)).cntU = ((Tab.get {} s.banks (64 + k / 32)).cntU + 1) % 2 ^ 32 ∧ s.sameBytes t) ∧
    (∀ p die n, s.boot.halted = false → s.does (.errorRecordClear p die n) fun t => (∀ k, Tab.get none (Tab.get {} t.banks (32 * die + p)).recs k =
      if k = n then none else Tab.get none (Tab.get {} s.banks (32 * die + p)).recs k) ∧ s.sameBytes t) ∧
    (let resets (t : State) (cause : Nat) : Prop := t.now = 0 ∧ t.ctxs = [] ∧ t.cores = [] ∧ t.clus = [] ∧ t.banks = [] ∧ t.reqs = [] ∧ t.queues = [] ∧ t.parts = [] ∧
        t.boot.cause = cause ∧ t.boot.prev = s.boot.cause ∧ t.boot.stage = 0 ∧ t.boot.fails = 0 ∧ t.boot.minimal = false ∧ t.boot.minVersion = s.boot.minVersion ∧
        t.boot.attIndex = s.boot.attIndex ∧ t.fuse = s.fuse;
      (s.does .powerOn fun t => resets t 1) ∧ (s.does .hostReset fun t => resets t 2) ∧ (s.does .monitorReset fun t => resets t 3) ∧ (s.does .watchdog fun t => resets t 4) ∧
        (s.does .thermal fun t => resets t 5) ∧ (s.does .supply fun t => resets t 6) ∧ (s.does .infraUncorrected fun t => resets t 8))) ∧
  (∀ (s : State),
    (let b := s.boot
      let runs (k : Nat) : Prop := b.running = k ∧ b.halted = false ∧ b.ready = false
      let on (t : State) (k : Nat) : Prop := t.boot.stage = k ∧ t.boot.since = s.now ∧ t.boot.reason = b.reason
      let fails (t : State) (reason : Nat) : Prop := t.boot.reason = reason ∧ t.boot.fails = min 3 (b.fails + 1) ∧
        if b.running = 1 ∨ b.minimal = true then t.boot.halted = true ∧ t.boot.stage = b.stage
        else t.boot.halted = false ∧ t.boot.stage = 0 ∧ t.boot.cause = 9 ∧ t.now = 0 ∧ (t.boot.minimal = true ↔ 2 ≤ b.fails)
      (runs 1 → (∀ v, s.does (.monitorVerify false v) fun t => fails t 1) ∧ (∀ v, v < b.minVersion → s.does (.monitorVerify true v) fun t => fails t 3) ∧
        ∀ v, b.minVersion ≤ v → s.does (.monitorVerify true v) fun t => on t 2 ∧ t.boot.monVersion = v ∧ t.boot.minVersion = v) ∧
      (runs 2 → (s.does (.hbmTraining true) fun t => on t 3) ∧ s.does (.hbmTraining false) fun t => fails t 4) ∧
      (runs 3 → (s.does (.linkTraining true true) fun t => on t 4) ∧ (∀ h, s.does (.linkTraining false h) fun t => fails t 5) ∧
        s.does (.linkTraining true false) fun t => fails t 6) ∧
      (∀ cores, runs 4 → let s1 := cores.foldl State.fuseCore s
        ((s1.harvestOk 0 && s1.harvestOk 1) = false → s.does (.clusterSelfTest cores) fun t => fails t 7) ∧
        ((s1.harvestOk 0 && s1.harvestOk 1) = true → b.minimal = false → s.does (.clusterSelfTest cores) fun t => on t 5 ∧ ∀ c ∈ cores, c < 4608 → t.fusedOff c = true)) ∧
      (runs 5 → (b.minimal = true → ∀ g v, s.does (.serviceFirmwareStart g v) fun t => on t 6) ∧
        (b.minimal = false → (∀ v, s.does (.serviceFirmwareStart false v) fun t => fails t 2) ∧
          ∀ v, b.minVersion ≤ v → s.does (.serviceFirmwareStart true v) fun t => on t 6 ∧ t.boot.svcVersion = v)) ∧
      (runs b.running → ∀ r : BitVec 16, 1 ≤ r.toNat → r.toNat ≤ 8 → s.does (.startFailed r) fun t => fails t r.toNat) ∧
      (runs b.running → (∃ n, stageBound b.running = some n ∧ b.since + n < s.now) → s.does .stageTimeout fun t => fails t 8) ∧
      (b.halted = true → ∀ v, b.minVersion ≤ v → s.does (.monitorImageLoad true v) fun t => t.boot.halted = false ∧ t.boot.stage = 2 ∧ t.boot.monVersion = v) ∧
      (∀ nonce, 1 < b.stage → b.halted = false → b.attIndex < 2 ^ 20 → s.does (.attestation nonce) fun t => t.boot.attIndex = b.attIndex + 1 ∧
        ∃ sig, t.boot.attested = b.attested ++ [(b.attIndex, nonce, sig)]) ∧
      (b.cfm = false → b.stage = 6 → b.halted = false →
        (b.featacc &&& ~~~(0x1F#128) = 0 → b.featacc.getLsbD 0 = true → s.does .featctlGo fun t => t.boot.cfm = true ∧ t.boot.rej = false ∧ t.boot.stage = 7 ∧ t.boot.ready = true) ∧
        (b.featacc &&& ~~~(0x1F#128) ≠ 0 ∨ b.featacc.getLsbD 0 = false → s.does .featctlGo fun t => t.boot.rej = true ∧ t.boot.cfm = false ∧ t.boot.stage = 6))) ∧
    (∀ a v, a < 2 ^ 39 → s.hostTakes (lineOf a) = true → s.traces = [] → s.does (.hostWrite false a v) fun t => t.physRead (a / 8 * 8) 8 = v.toNat ∧
      ∀ k n, k + n ≤ a / 8 * 8 ∨ a / 8 * 8 + 8 ≤ k → t.physRead k n = s.physRead k n) ∧
    (∀ q v, q < 8192 → s.does (.hostWrite true (0x1000000 + 0x40 * q + 0x10) v) fun t => (t.queue q).qpidx = v.toNat % 2 ^ 32) ∧
    (∀ a, a < 2 ^ 39 → s.hostTakes (lineOf a) = true → s.does (.hostRead false a) fun t => t.hostRead = some (a, wordOfInt (s.physRead (a / 8 * 8) 8 : Nat)) ∧ s.sameBytes t) ∧
    (∀ p (v : Word), s.boot.halted = false → s.walking p = false → s.does (.xlinv p v) fun t => s.sameBytes t ∧ (v.toNat / 2 ^ 16 % 4 = 1 → ∀ n < 16, ∀ x, x ∈ Tab.get [] t.stations n ↔
      x ∈ Tab.get [] s.stations n ∧ ¬(x.part = p ∧ x.pid = v.extractLsb' 0 16))) ∧
    (∀ k (v : Word), s.boot.halted = false → s.feature 2 = true → s.does (.rtctlWrite k v) fun t => let r := Tab.get {} t.traces k
      r.en = v.getLsbD 0 ∧ r.log2 = v.toNat / 2 ^ 8 % 32 ∧ (r.ovf = true ↔ (Tab.get {} s.traces k).ovf = true ∧ v.getLsbD 16 = false)) ∧
    (∀ cl v, s.boot.halted = false → s.does (.clshareWrite cl v) fun t => (t.clu cl).clshare = v &&& 0xF0FFFF ∧ s.sameBytes t) ∧
    (∀ p v, s.boot.halted = false → s.does (.deviceRegisterWrite p 0x918 v) fun t => (t.part p).dacctctl = v.extractLsb' 0 32 &&& 0xFFFF1F01 ∧ s.sameBytes t))
end

