-- ==== Sys2Proof/Laws/Fields.lean ====
section
/-!
SUPPORT. The fields of the words that `encode` writes, and what reading an operand field back gives.
-/

namespace Sys2Proof

/-- A field below a seam. -/
theorem extract_append_low {p m : Nat} (lo k : Nat) (x : BitVec p) (y : BitVec m) (h : lo + k ≤ m) :
    (x ++ y).extractLsb' lo k = y.extractLsb' lo k := by
  ext i hi
  simp only [BitVec.getElem_extractLsb', BitVec.getLsbD_append]
  split
  · rfl
  · omega

/-- A field above a seam. -/
theorem extract_append_high {p m : Nat} (lo k : Nat) (x : BitVec p) (y : BitVec m) (h : m ≤ lo) :
    (x ++ y).extractLsb' lo k = x.extractLsb' (lo - m) k := by
  ext i hi
  simp only [BitVec.getElem_extractLsb', BitVec.getLsbD_append]
  split
  · omega
  · congr 1
    omega

/-- Bits 31:26 of format A. -/
theorem fld_encA_op (op : BitVec 6) (d : BitVec 6) (a : BitVec 7) (b : BitVec 7) (f : BitVec 6) (lo n : Nat) (hl : 26 ≤ lo) :
    fld (encA op d a b f) lo n = BitVec.extractLsb' (lo - 26) n (op) := by
  change BitVec.extractLsb' (n := 6+6+7+7+6) lo n (op ++ d ++ a ++ b ++ f) = _
  rw [extract_append_high _ _ _ _ (by omega), extract_append_high _ _ _ _ (by omega), extract_append_high _ _ _ _ (by omega), extract_append_high _ _ _ _ (by omega)]
  simp only [Nat.sub_sub]

/-- Bits 25:20 of format A. -/
theorem fld_encA_d (op : BitVec 6) (d : BitVec 6) (a : BitVec 7) (b : BitVec 7) (f : BitVec 6) (lo n : Nat) (hl : 20 ≤ lo) (hu : lo + n ≤ 26) :
    fld (encA op d a b f) lo n = BitVec.extractLsb' (lo - 20) n (d) := by
  change BitVec.extractLsb' (n := 6+6+7+7+6) lo n (op ++ d ++ a ++ b ++ f) = _
  rw [extract_append_high _ _ _ _ (by omega), extract_append_high _ _ _ _ (by omega), extract_append_high _ _ _ _ (by omega), extract_append_low _ _ _ _ (by omega)]
  simp only [Nat.sub_sub]

/-- Bits 19:13 of format A. -/
theorem fld_encA_a (op : BitVec 6) (d : BitVec 6) (a : BitVec 7) (b : BitVec 7) (f : BitVec 6) (lo n : Nat) (hl : 13 ≤ lo) (hu : lo + n ≤ 20) :
    fld (encA op d a b f) lo n = BitVec.extractLsb' (lo - 13) n (a) := by
  change BitVec.extractLsb' (n := 6+6+7+7+6) lo n (op ++ d ++ a ++ b ++ f) = _
  rw [extract_append_high _ _ _ _ (by omega), extract_append_high _ _ _ _ (by omega), extract_append_low _ _ _ _ (by omega)]
  simp only [Nat.sub_sub]

/-- Bits 12:6 of format A. -/
theorem fld_encA_b (op : BitVec 6) (d : BitVec 6) (a : BitVec 7) (b : BitVec 7) (f : BitVec 6) (lo n : Nat) (hl : 6 ≤ lo) (hu : lo + n ≤ 13) :
    fld (encA op d a b f) lo n = BitVec.extractLsb' (lo - 6) n (b) := by
  change BitVec.extractLsb' (n := 6+6+7+7+6) lo n (op ++ d ++ a ++ b ++ f) = _
  rw [extract_append_high _ _ _ _ (by omega), extract_append_low _ _ _ _ (by omega)]

/-- Bits 5:0 of format A. -/
theorem fld_encA_f (op : BitVec 6) (d : BitVec 6) (a : BitVec 7) (b : BitVec 7) (f : BitVec 6) (lo n : Nat) (hu : lo + n ≤ 6) :
    fld (encA op d a b f) lo n = BitVec.extractLsb' (lo) n (f) := by
  change BitVec.extractLsb' (n := 6+6+7+7+6) lo n (op ++ d ++ a ++ b ++ f) = _
  rw [extract_append_low _ _ _ _ (by omega)]

/-- Bits 31:26 of format I. -/
theorem fld_encI_op (op : BitVec 6) (d : BitVec 6) (a : BitVec 7) (i : BitVec 13) (lo n : Nat) (hl : 26 ≤ lo) :
    fld (encI op d a i) lo n = BitVec.extractLsb' (lo - 26) n (op) := by
  change BitVec.extractLsb' (n := 6+6+7+13) lo n (op ++ d ++ a ++ i) = _
  rw [extract_append_high _ _ _ _ (by omega), extract_append_high _ _ _ _ (by omega), extract_append_high _ _ _ _ (by omega)]
  simp only [Nat.sub_sub]

/-- Bits 25:20 of format I. -/
theorem fld_encI_d (op : BitVec 6) (d : BitVec 6) (a : BitVec 7) (i : BitVec 13) (lo n : Nat) (hl : 20 ≤ lo) (hu : lo + n ≤ 26) :
    fld (encI op d a i) lo n = BitVec.extractLsb' (lo - 20) n (d) := by
  change BitVec.extractLsb' (n := 6+6+7+13) lo n (op ++ d ++ a ++ i) = _
  rw [extract_append_high _ _ _ _ (by omega), extract_append_high _ _ _ _ (by omega), extract_append_low _ _ _ _ (by omega)]
  simp only [Nat.sub_sub]

/-- Bits 19:13 of format I. -/
theorem fld_encI_a (op : BitVec 6) (d : BitVec 6) (a : BitVec 7) (i : BitVec 13) (lo n : Nat) (hl : 13 ≤ lo) (hu : lo + n ≤ 20) :
    fld (encI op d a i) lo n = BitVec.extractLsb' (lo - 13) n (a) := by
  change BitVec.extractLsb' (n := 6+6+7+13) lo n (op ++ d ++ a ++ i) = _
  rw [extract_append_high _ _ _ _ (by omega), extract_append_low _ _ _ _ (by omega)]

/-- Bits 12:0 of format I. -/
theorem fld_encI_i (op : BitVec 6) (d : BitVec 6) (a : BitVec 7) (i : BitVec 13) (lo n : Nat) (hu : lo + n ≤ 13) :
    fld (encI op d a i) lo n = BitVec.extractLsb' (lo) n (i) := by
  change BitVec.extractLsb' (n := 6+6+7+13) lo n (op ++ d ++ a ++ i) = _
  rw [extract_append_low _ _ _ _ (by omega)]

/-- Bits 31:26 of format U. -/
theorem fld_encU_op (op : BitVec 6) (d : BitVec 6) (i : BitVec 20) (lo n : Nat) (hl : 26 ≤ lo) :
    fld (encU op d i) lo n = BitVec.extractLsb' (lo - 26) n (op) := by
  change BitVec.extractLsb' (n := 6+6+20) lo n (op ++ d ++ i) = _
  rw [extract_append_high _ _ _ _ (by omega), extract_append_high _ _ _ _ (by omega)]
  simp only [Nat.sub_sub]

/-- Bits 25:20 of format U. -/
theorem fld_encU_d (op : BitVec 6) (d : BitVec 6) (i : BitVec 20) (lo n : Nat) (hl : 20 ≤ lo) (hu : lo + n ≤ 26) :
    fld (encU op d i) lo n = BitVec.extractLsb' (lo - 20) n (d) := by
  change BitVec.extractLsb' (n := 6+6+20) lo n (op ++ d ++ i) = _
  rw [extract_append_high _ _ _ _ (by omega), extract_append_low _ _ _ _ (by omega)]

/-- Bits 19:0 of format U. -/
theorem fld_encU_i (op : BitVec 6) (d : BitVec 6) (i : BitVec 20) (lo n : Nat) (hu : lo + n ≤ 20) :
    fld (encU op d i) lo n = BitVec.extractLsb' (lo) n (i) := by
  change BitVec.extractLsb' (n := 6+6+20) lo n (op ++ d ++ i) = _
  rw [extract_append_low _ _ _ _ (by omega)]

/-- Bits 31:26 of format B. -/
theorem fld_encB_op (c : BitVec 3) (a : BitVec 5) (b : BitVec 5) (o : BitVec 13) (lo n : Nat) (hl : 26 ≤ lo) :
    fld (encB c a b o) lo n = BitVec.extractLsb' (lo - 26) n (0x0B#6) := by
  change BitVec.extractLsb' (n := 6+3+5+5+13) lo n (0x0B#6 ++ c ++ a ++ b ++ o) = _
  rw [extract_append_high _ _ _ _ (by omega), extract_append_high _ _ _ _ (by omega), extract_append_high _ _ _ _ (by omega), extract_append_high _ _ _ _ (by omega)]
  simp only [Nat.sub_sub]

/-- Bits 25:23 of format B. -/
theorem fld_encB_c (c : BitVec 3) (a : BitVec 5) (b : BitVec 5) (o : BitVec 13) (lo n : Nat) (hl : 23 ≤ lo) (hu : lo + n ≤ 26) :
    fld (encB c a b o) lo n = BitVec.extractLsb' (lo - 23) n (c) := by
  change BitVec.extractLsb' (n := 6+3+5+5+13) lo n (0x0B#6 ++ c ++ a ++ b ++ o) = _
  rw [extract_append_high _ _ _ _ (by omega), extract_append_high _ _ _ _ (by omega), extract_append_high _ _ _ _ (by omega), extract_append_low _ _ _ _ (by omega)]
  simp only [Nat.sub_sub]

/-- Bits 22:18 of format B. -/
theorem fld_encB_a (c : BitVec 3) (a : BitVec 5) (b : BitVec 5) (o : BitVec 13) (lo n : Nat) (hl : 18 ≤ lo) (hu : lo + n ≤ 23) :
    fld (encB c a b o) lo n = BitVec.extractLsb' (lo - 18) n (a) := by
  change BitVec.extractLsb' (n := 6+3+5+5+13) lo n (0x0B#6 ++ c ++ a ++ b ++ o) = _
  rw [extract_append_high _ _ _ _ (by omega), extract_append_high _ _ _ _ (by omega), extract_append_low _ _ _ _ (by omega)]
  simp only [Nat.sub_sub]

/-- Bits 17:13 of format B. -/
theorem fld_encB_b (c : BitVec 3) (a : BitVec 5) (b : BitVec 5) (o : BitVec 13) (lo n : Nat) (hl : 13 ≤ lo) (hu : lo + n ≤ 18) :
    fld (encB c a b o) lo n = BitVec.extractLsb' (lo - 13) n (b) := by
  change BitVec.extractLsb' (n := 6+3+5+5+13) lo n (0x0B#6 ++ c ++ a ++ b ++ o) = _
  rw [extract_append_high _ _ _ _ (by omega), extract_append_low _ _ _ _ (by omega)]

/-- Bits 12:0 of format B. -/
theorem fld_encB_o (c : BitVec 3) (a : BitVec 5) (b : BitVec 5) (o : BitVec 13) (lo n : Nat) (hu : lo + n ≤ 13) :
    fld (encB c a b o) lo n = BitVec.extractLsb' (lo) n (o) := by
  change BitVec.extractLsb' (n := 6+3+5+5+13) lo n (0x0B#6 ++ c ++ a ++ b ++ o) = _
  rw [extract_append_low _ _ _ _ (by omega)]

/-- Bits 31:26 of format LS. -/
theorem fld_encLS_op (op : BitVec 6) (d : BitVec 7) (a : BitVec 5) (w : BitVec 2) (r : BitVec 3) (o : BitVec 9) (lo n : Nat) (hl : 26 ≤ lo) :
    fld (encLS op d a w r o) lo n = BitVec.extractLsb' (lo - 26) n (op) := by
  change BitVec.extractLsb' (n := 6+7+5+2+3+9) lo n (op ++ d ++ a ++ w ++ r ++ o) = _
  rw [extract_append_high _ _ _ _ (by omega), extract_append_high _ _ _ _ (by omega), extract_append_high _ _ _ _ (by omega), extract_append_high _ _ _ _ (by omega), extract_append_high _ _ _ _ (by omega)]
  simp only [Nat.sub_sub]

/-- Bits 25:19 of format LS. -/
theorem fld_encLS_d (op : BitVec 6) (d : BitVec 7) (a : BitVec 5) (w : BitVec 2) (r : BitVec 3) (o : BitVec 9) (lo n : Nat) (hl : 19 ≤ lo) (hu : lo + n ≤ 26) :
    fld (encLS op d a w r o) lo n = BitVec.extractLsb' (lo - 19) n (d) := by
  change BitVec.extractLsb' (n := 6+7+5+2+3+9) lo n (op ++ d ++ a ++ w ++ r ++ o) = _
  rw [extract_append_high _ _ _ _ (by omega), extract_append_high _ _ _ _ (by omega), extract_append_high _ _ _ _ (by omega), extract_append_high _ _ _ _ (by omega), extract_append_low _ _ _ _ (by omega)]
  simp only [Nat.sub_sub]

/-- Bits 18:14 of format LS. -/
theorem fld_encLS_a (op : BitVec 6) (d : BitVec 7) (a : BitVec 5) (w : BitVec 2) (r : BitVec 3) (o : BitVec 9) (lo n : Nat) (hl : 14 ≤ lo) (hu : lo + n ≤ 19) :
    fld (encLS op d a w r o) lo n = BitVec.extractLsb' (lo - 14) n (a) := by
  change BitVec.extractLsb' (n := 6+7+5+2+3+9) lo n (op ++ d ++ a ++ w ++ r ++ o) = _
  rw [extract_append_high _ _ _ _ (by omega), extract_append_high _ _ _ _ (by omega), extract_append_high _ _ _ _ (by omega), extract_append_low _ _ _ _ (by omega)]
  simp only [Nat.sub_sub]

/-- Bits 13:12 of format LS. -/
theorem fld_encLS_w (op : BitVec 6) (d : BitVec 7) (a : BitVec 5) (w : BitVec 2) (r : BitVec 3) (o : BitVec 9) (lo n : Nat) (hl : 12 ≤ lo) (hu : lo + n ≤ 14) :
    fld (encLS op d a w r o) lo n = BitVec.extractLsb' (lo - 12) n (w) := by
  change BitVec.extractLsb' (n := 6+7+5+2+3+9) lo n (op ++ d ++ a ++ w ++ r ++ o) = _
  rw [extract_append_high _ _ _ _ (by omega), extract_append_high _ _ _ _ (by omega), extract_append_low _ _ _ _ (by omega)]
  simp only [Nat.sub_sub]

/-- Bits 11:9 of format LS. -/
theorem fld_encLS_r (op : BitVec 6) (d : BitVec 7) (a : BitVec 5) (w : BitVec 2) (r : BitVec 3) (o : BitVec 9) (lo n : Nat) (hl : 9 ≤ lo) (hu : lo + n ≤ 12) :
    fld (encLS op d a w r o) lo n = BitVec.extractLsb' (lo - 9) n (r) := by
  change BitVec.extractLsb' (n := 6+7+5+2+3+9) lo n (op ++ d ++ a ++ w ++ r ++ o) = _
  rw [extract_append_high _ _ _ _ (by omega), extract_append_low _ _ _ _ (by omega)]

/-- Bits 8:0 of format LS. -/
theorem fld_encLS_o (op : BitVec 6) (d : BitVec 7) (a : BitVec 5) (w : BitVec 2) (r : BitVec 3) (o : BitVec 9) (lo n : Nat) (hu : lo + n ≤ 9) :
    fld (encLS op d a w r o) lo n = BitVec.extractLsb' (lo) n (o) := by
  change BitVec.extractLsb' (n := 6+7+5+2+3+9) lo n (op ++ d ++ a ++ w ++ r ++ o) = _
  rw [extract_append_low _ _ _ _ (by omega)]

/-- Bits 31:26 of format M. -/
theorem fld_encM_op (c : BitVec 2) (a : BitVec 4) (b : BitVec 4) (g : BitVec 3) (h : BitVec 3) (m : BitVec 5) (f : BitVec 5) (lo n : Nat) (hl : 26 ≤ lo) :
    fld (encM c a b g h m f) lo n = BitVec.extractLsb' (lo - 26) n (0x12#6) := by
  change BitVec.extractLsb' (n := 6+2+4+4+3+3+5+5) lo n (0x12#6 ++ c ++ a ++ b ++ g ++ h ++ m ++ f) = _
  rw [extract_append_high _ _ _ _ (by omega), extract_append_high _ _ _ _ (by omega), extract_append_high _ _ _ _ (by omega), extract_append_high _ _ _ _ (by omega), extract_append_high _ _ _ _ (by omega), extract_append_high _ _ _ _ (by omega), extract_append_high _ _ _ _ (by omega)]
  simp only [Nat.sub_sub]

/-- Bits 25:24 of format M. -/
theorem fld_encM_c (c : BitVec 2) (a : BitVec 4) (b : BitVec 4) (g : BitVec 3) (h : BitVec 3) (m : BitVec 5) (f : BitVec 5) (lo n : Nat) (hl : 24 ≤ lo) (hu : lo + n ≤ 26) :
    fld (encM c a b g h m f) lo n = BitVec.extractLsb' (lo - 24) n (c) := by
  change BitVec.extractLsb' (n := 6+2+4+4+3+3+5+5) lo n (0x12#6 ++ c ++ a ++ b ++ g ++ h ++ m ++ f) = _
  rw [extract_append_high _ _ _ _ (by omega), extract_append_high _ _ _ _ (by omega), extract_append_high _ _ _ _ (by omega), extract_append_high _ _ _ _ (by omega), extract_append_high _ _ _ _ (by omega), extract_append_high _ _ _ _ (by omega), extract_append_low _ _ _ _ (by omega)]
  simp only [Nat.sub_sub]

/-- Bits 23:20 of format M. -/
theorem fld_encM_a (c : BitVec 2) (a : BitVec 4) (b : BitVec 4) (g : BitVec 3) (h : BitVec 3) (m : BitVec 5) (f : BitVec 5) (lo n : Nat) (hl : 20 ≤ lo) (hu : lo + n ≤ 24) :
    fld (encM c a b g h m f) lo n = BitVec.extractLsb' (lo - 20) n (a) := by
  change BitVec.extractLsb' (n := 6+2+4+4+3+3+5+5) lo n (0x12#6 ++ c ++ a ++ b ++ g ++ h ++ m ++ f) = _
  rw [extract_append_high _ _ _ _ (by omega), extract_append_high _ _ _ _ (by omega), extract_append_high _ _ _ _ (by omega), extract_append_high _ _ _ _ (by omega), extract_append_high _ _ _ _ (by omega), extract_append_low _ _ _ _ (by omega)]
  simp only [Nat.sub_sub]

/-- Bits 19:16 of format M. -/
theorem fld_encM_b (c : BitVec 2) (a : BitVec 4) (b : BitVec 4) (g : BitVec 3) (h : BitVec 3) (m : BitVec 5) (f : BitVec 5) (lo n : Nat) (hl : 16 ≤ lo) (hu : lo + n ≤ 20) :
    fld (encM c a b g h m f) lo n = BitVec.extractLsb' (lo - 16) n (b) := by
  change BitVec.extractLsb' (n := 6+2+4+4+3+3+5+5) lo n (0x12#6 ++ c ++ a ++ b ++ g ++ h ++ m ++ f) = _
  rw [extract_append_high _ _ _ _ (by omega), extract_append_high _ _ _ _ (by omega), extract_append_high _ _ _ _ (by omega), extract_append_high _ _ _ _ (by omega), extract_append_low _ _ _ _ (by omega)]
  simp only [Nat.sub_sub]

/-- Bits 15:13 of format M. -/
theorem fld_encM_g (c : BitVec 2) (a : BitVec 4) (b : BitVec 4) (g : BitVec 3) (h : BitVec 3) (m : BitVec 5) (f : BitVec 5) (lo n : Nat) (hl : 13 ≤ lo) (hu : lo + n ≤ 16) :
    fld (encM c a b g h m f) lo n = BitVec.extractLsb' (lo - 13) n (g) := by
  change BitVec.extractLsb' (n := 6+2+4+4+3+3+5+5) lo n (0x12#6 ++ c ++ a ++ b ++ g ++ h ++ m ++ f) = _
  rw [extract_append_high _ _ _ _ (by omega), extract_append_high _ _ _ _ (by omega), extract_append_high _ _ _ _ (by omega), extract_append_low _ _ _ _ (by omega)]
  simp only [Nat.sub_sub]

/-- Bits 12:10 of format M. -/
theorem fld_encM_h (c : BitVec 2) (a : BitVec 4) (b : BitVec 4) (g : BitVec 3) (h : BitVec 3) (m : BitVec 5) (f : BitVec 5) (lo n : Nat) (hl : 10 ≤ lo) (hu : lo + n ≤ 13) :
    fld (encM c a b g h m f) lo n = BitVec.extractLsb' (lo - 10) n (h) := by
  change BitVec.extractLsb' (n := 6+2+4+4+3+3+5+5) lo n (0x12#6 ++ c ++ a ++ b ++ g ++ h ++ m ++ f) = _
  rw [extract_append_high _ _ _ _ (by omega), extract_append_high _ _ _ _ (by omega), extract_append_low _ _ _ _ (by omega)]
  simp only [Nat.sub_sub]

/-- Bits 9:5 of format M. -/
theorem fld_encM_m (c : BitVec 2) (a : BitVec 4) (b : BitVec 4) (g : BitVec 3) (h : BitVec 3) (m : BitVec 5) (f : BitVec 5) (lo n : Nat) (hl : 5 ≤ lo) (hu : lo + n ≤ 10) :
    fld (encM c a b g h m f) lo n = BitVec.extractLsb' (lo - 5) n (m) := by
  change BitVec.extractLsb' (n := 6+2+4+4+3+3+5+5) lo n (0x12#6 ++ c ++ a ++ b ++ g ++ h ++ m ++ f) = _
  rw [extract_append_high _ _ _ _ (by omega), extract_append_low _ _ _ _ (by omega)]

/-- Bits 4:0 of format M. -/
theorem fld_encM_f (c : BitVec 2) (a : BitVec 4) (b : BitVec 4) (g : BitVec 3) (h : BitVec 3) (m : BitVec 5) (f : BitVec 5) (lo n : Nat) (hu : lo + n ≤ 5) :
    fld (encM c a b g h m f) lo n = BitVec.extractLsb' (lo) n (f) := by
  change BitVec.extractLsb' (n := 6+2+4+4+3+3+5+5) lo n (0x12#6 ++ c ++ a ++ b ++ g ++ h ++ m ++ f) = _
  rw [extract_append_low _ _ _ _ (by omega)]

/-- Bits 31:26 of format V. -/
theorem fld_encV_op (op : BitVec 6) (d : BitVec 5) (a : BitVec 6) (b : BitVec 6) (t : BitVec 5) (k : BitVec 3) (s : BitVec 1) (lo n : Nat) (hl : 26 ≤ lo) :
    fld (encV op d a b t k s) lo n = BitVec.extractLsb' (lo - 26) n (op) := by
  change BitVec.extractLsb' (n := 6+5+6+6+5+3+1) lo n (op ++ d ++ a ++ b ++ t ++ k ++ s) = _
  rw [extract_append_high _ _ _ _ (by omega), extract_append_high _ _ _ _ (by omega), extract_append_high _ _ _ _ (by omega), extract_append_high _ _ _ _ (by omega), extract_append_high _ _ _ _ (by omega), extract_append_high _ _ _ _ (by omega)]
  simp only [Nat.sub_sub]

/-- Bits 25:21 of format V. -/
theorem fld_encV_d (op : BitVec 6) (d : BitVec 5) (a : BitVec 6) (b : BitVec 6) (t : BitVec 5) (k : BitVec 3) (s : BitVec 1) (lo n : Nat) (hl : 21 ≤ lo) (hu : lo + n ≤ 26) :
    fld (encV op d a b t k s) lo n = BitVec.extractLsb' (lo - 21) n (d) := by
  change BitVec.extractLsb' (n := 6+5+6+6+5+3+1) lo n (op ++ d ++ a ++ b ++ t ++ k ++ s) = _
  rw [extract_append_high _ _ _ _ (by omega), extract_append_high _ _ _ _ (by omega), extract_append_high _ _ _ _ (by omega), extract_append_high _ _ _ _ (by omega), extract_append_high _ _ _ _ (by omega), extract_append_low _ _ _ _ (by omega)]
  simp only [Nat.sub_sub]

/-- Bits 20:15 of format V. -/
theorem fld_encV_a (op : BitVec 6) (d : BitVec 5) (a : BitVec 6) (b : BitVec 6) (t : BitVec 5) (k : BitVec 3) (s : BitVec 1) (lo n : Nat) (hl : 15 ≤ lo) (hu : lo + n ≤ 21) :
    fld (encV op d a b t k s) lo n = BitVec.extractLsb' (lo - 15) n (a) := by
  change BitVec.extractLsb' (n := 6+5+6+6+5+3+1) lo n (op ++ d ++ a ++ b ++ t ++ k ++ s) = _
  rw [extract_append_high _ _ _ _ (by omega), extract_append_high _ _ _ _ (by omega), extract_append_high _ _ _ _ (by omega), extract_append_high _ _ _ _ (by omega), extract_append_low _ _ _ _ (by omega)]
  simp only [Nat.sub_sub]

/-- Bits 14:9 of format V. -/
theorem fld_encV_b (op : BitVec 6) (d : BitVec 5) (a : BitVec 6) (b : BitVec 6) (t : BitVec 5) (k : BitVec 3) (s : BitVec 1) (lo n : Nat) (hl : 9 ≤ lo) (hu : lo + n ≤ 15) :
    fld (encV op d a b t k s) lo n = BitVec.extractLsb' (lo - 9) n (b) := by
  change BitVec.extractLsb' (n := 6+5+6+6+5+3+1) lo n (op ++ d ++ a ++ b ++ t ++ k ++ s) = _
  rw [extract_append_high _ _ _ _ (by omega), extract_append_high _ _ _ _ (by omega), extract_append_high _ _ _ _ (by omega), extract_append_low _ _ _ _ (by omega)]
  simp only [Nat.sub_sub]

/-- Bits 8:4 of format V. -/
theorem fld_encV_t (op : BitVec 6) (d : BitVec 5) (a : BitVec 6) (b : BitVec 6) (t : BitVec 5) (k : BitVec 3) (s : BitVec 1) (lo n : Nat) (hl : 4 ≤ lo) (hu : lo + n ≤ 9) :
    fld (encV op d a b t k s) lo n = BitVec.extractLsb' (lo - 4) n (t) := by
  change BitVec.extractLsb' (n := 6+5+6+6+5+3+1) lo n (op ++ d ++ a ++ b ++ t ++ k ++ s) = _
  rw [extract_append_high _ _ _ _ (by omega), extract_append_high _ _ _ _ (by omega), extract_append_low _ _ _ _ (by omega)]
  simp only [Nat.sub_sub]

/-- Bits 3:1 of format V. -/
theorem fld_encV_k (op : BitVec 6) (d : BitVec 5) (a : BitVec 6) (b : BitVec 6) (t : BitVec 5) (k : BitVec 3) (s : BitVec 1) (lo n : Nat) (hl : 1 ≤ lo) (hu : lo + n ≤ 4) :
    fld (encV op d a b t k s) lo n = BitVec.extractLsb' (lo - 1) n (k) := by
  change BitVec.extractLsb' (n := 6+5+6+6+5+3+1) lo n (op ++ d ++ a ++ b ++ t ++ k ++ s) = _
  rw [extract_append_high _ _ _ _ (by omega), extract_append_low _ _ _ _ (by omega)]

/-- Bits 0:0 of format V. -/
theorem fld_encV_s (op : BitVec 6) (d : BitVec 5) (a : BitVec 6) (b : BitVec 6) (t : BitVec 5) (k : BitVec 3) (s : BitVec 1) (lo n : Nat) (hu : lo + n ≤ 1) :
    fld (encV op d a b t k s) lo n = BitVec.extractLsb' (lo) n (s) := by
  change BitVec.extractLsb' (n := 6+5+6+6+5+3+1) lo n (op ++ d ++ a ++ b ++ t ++ k ++ s) = _
  rw [extract_append_low _ _ _ _ (by omega)]

end Sys2Proof
end

