-- ==== Sys2Proof/Laws/Tab.lean ====
section
/-!
SUPPORT. Laws of tables and memory: a read after a write, and the canonical form.
-/

namespace Sys2Proof.Machine

variable {α : Type}

/-- Every number of a table is larger than `k`. -/
def Tab.above (k : Nat) (t : Tab α) : Prop := ∀ e ∈ t, k < e.1

theorem Tab.rising_cons (a : Nat) (x : α) (t : Tab α) : Tab.rising ((a, x) :: t) = true ↔ Tab.above a t ∧ Tab.rising t = true := by
  induction t generalizing a x with
  | nil => simp [Tab.rising, Tab.above]
  | cons e t ih =>
    obtain ⟨b, y⟩ := e
    simp only [Tab.rising, Bool.and_eq_true, decide_eq_true_eq, Tab.above, List.mem_cons, forall_eq_or_imp]
    constructor
    · rintro ⟨h, hr⟩
      exact ⟨⟨h, fun e he => lt_trans h (((ih b y).mp hr).1 e he)⟩, hr⟩
    · rintro ⟨⟨h, -⟩, hr⟩
      exact ⟨h, hr⟩

theorem Tab.rising_erase (t : Tab α) (k : Nat) (h : Tab.rising t = true) : Tab.rising (Tab.erase t k) = true := by
  induction t with
  | nil => rfl
  | cons e t ih =>
    obtain ⟨a, x⟩ := e
    obtain ⟨ha, hr⟩ := (Tab.rising_cons a x t).mp h
    have hi := ih hr
    by_cases hk : a = k
    · simpa [Tab.erase, hk] using hi
    · have : Tab.erase ((a, x) :: t) k = (a, x) :: Tab.erase t k := by simp [Tab.erase, hk]
      rw [this, Tab.rising_cons]
      exact ⟨fun e he => ha e (List.mem_of_mem_filter he), hi⟩

theorem Tab.mem_insert (t : Tab α) (k : Nat) (v : α) (e : Nat × α) : e ∈ Tab.insert t k v ↔ e = (k, v) ∨ e ∈ t := by
  induction t with
  | nil => simp [Tab.insert]
  | cons e' t ih =>
    simp only [Tab.insert]
    split
    · simp
    · simp only [List.mem_cons, ih]; tauto

theorem Tab.mem_erase (t : Tab α) (k : Nat) (e : Nat × α) : e ∈ Tab.erase t k ↔ e ∈ t ∧ e.1 ≠ k := by simp [Tab.erase]

theorem Tab.rising_insert (t : Tab α) (k : Nat) (v : α) (h : Tab.rising t = true) (hk : ∀ e ∈ t, e.1 ≠ k) :
    Tab.rising (Tab.insert t k v) = true := by
  induction t with
  | nil => rfl
  | cons e t ih =>
    obtain ⟨a, x⟩ := e
    obtain ⟨ha, hr⟩ := (Tab.rising_cons a x t).mp h
    have hak : a ≠ k := hk (a, x) (by simp)
    simp only [Tab.insert]
    split
    · next hlt =>
      rw [Tab.rising_cons]
      refine ⟨fun e he => ?_, h⟩
      rcases List.mem_cons.mp he with rfl | he
      · exact hlt
      · exact lt_trans hlt (ha e he)
    · next hge =>
      rw [Tab.rising_cons]
      refine ⟨fun e he => ?_, ih hr fun e he => hk e (List.mem_cons_of_mem _ he)⟩
      rcases (Tab.mem_insert t k v e).mp he with rfl | he
      · exact lt_of_le_of_ne (not_lt.mp hge) hak
      · exact ha e he

/-- Setting an entry keeps the canonical form. -/
theorem Tab.wf_set [DecidableEq α] (d : α) (t : Tab α) (k : Nat) (v : α) (h : Tab.wf d t = true) : Tab.wf d (Tab.set d t k v) = true := by
  simp only [Tab.wf, Bool.and_eq_true, List.all_eq_true, decide_eq_true_eq] at h ⊢
  obtain ⟨hr, hd⟩ := h
  unfold Tab.set
  split
  · exact ⟨Tab.rising_erase t k hr, fun e he => hd e ((Tab.mem_erase t k e).mp he).1⟩
  · next hv =>
    refine ⟨Tab.rising_insert _ k v (Tab.rising_erase t k hr) fun e he => ((Tab.mem_erase t k e).mp he).2, fun e he => ?_⟩
    rcases (Tab.mem_insert _ k v e).mp he with rfl | he
    · exact hv
    · exact hd e ((Tab.mem_erase t k e).mp he).1

theorem Tab.get_erase (d : α) (t : Tab α) (k j : Nat) : Tab.get d (Tab.erase t k) j = if j = k then d else Tab.get d t j := by
  induction t with
  | nil => simp [Tab.erase, Tab.get]
  | cons e t ih =>
    obtain ⟨a, x⟩ := e
    by_cases hk : a = k
    · have : Tab.erase ((a, x) :: t) k = Tab.erase t k := by simp [Tab.erase, hk]
      rw [this, ih]
      split
      · rfl
      · next hj => simp [Tab.get, show a ≠ j by omega]
    · have : Tab.erase ((a, x) :: t) k = (a, x) :: Tab.erase t k := by simp [Tab.erase, hk]
      rw [this]
      simp only [Tab.get, ih]
      split <;> split <;> simp_all

theorem Tab.get_insert (d : α) (t : Tab α) (k j : Nat) (v : α) (hk : ∀ e ∈ t, e.1 ≠ k) :
    Tab.get d (Tab.insert t k v) j = if j = k then v else Tab.get d t j := by
  induction t with
  | nil => simp [Tab.insert, Tab.get, eq_comm]
  | cons e t ih =>
    obtain ⟨a, x⟩ := e
    have hak : a ≠ k := hk (a, x) (by simp)
    simp only [Tab.insert]
    split
    · simp [Tab.get, eq_comm]
    · simp only [Tab.get, ih fun e he => hk e (List.mem_cons_of_mem _ he)]
      split <;> split <;> simp_all

/-- What a table reads after an entry is set. -/
theorem Tab.get_set [DecidableEq α] (d : α) (t : Tab α) (k j : Nat) (v : α) :
    Tab.get d (Tab.set d t k v) j = if j = k then v else Tab.get d t j := by
  unfold Tab.set
  split
  · next h => rw [Tab.get_erase, h]
  · rw [Tab.get_insert d _ k j v fun e he => ((Tab.mem_erase t k e).mp he).2, Tab.get_erase]
    split <;> rfl

@[simp] theorem Tab.get_set_self [DecidableEq α] (d : α) (t : Tab α) (k : Nat) (v : α) : Tab.get d (Tab.set d t k v) k = v := by
  simp [Tab.get_set]

/-! Memory. -/

@[simp] theorem Memory.wf_nil : Memory.wf [] = true := rfl

/-- A write keeps the canonical form. -/
theorem Memory.wf_write (m : Memory) (a : Nat) (b : Byte) (h : m.wf = true) : (m.write a b).wf = true := Tab.wf_set _ m a b h

/-- A byte read after a byte written. -/
theorem Memory.read_write (m : Memory) (a j : Nat) (b : Byte) : (m.write a b).read j = if j = a then b else m.read j :=
  Tab.get_set _ m a j b

/-- A write of several bytes keeps the canonical form. -/
theorem Memory.wf_writeN (m : Memory) (a v n : Nat) (h : m.wf = true) : (m.writeN a v n).wf = true := by
  induction n with
  | zero => exact h
  | succ n ih => exact Memory.wf_write _ _ _ ih

/-- A write under byte enables keeps the canonical form. -/
theorem Memory.wf_writeMasked (m : Memory) (a v be n : Nat) (h : m.wf = true) : (m.writeMasked a v be n).wf = true := by
  induction n with
  | zero => exact h
  | succ n ih =>
    simp only [Memory.writeMasked]
    split
    · exact Memory.wf_write _ _ _ ih
    · exact ih

/-- What memory reads after a write of several bytes. -/
theorem Memory.read_writeN (m : Memory) (a v n j : Nat) :
    (m.writeN a v n).read j = if a ≤ j ∧ j < a + n then BitVec.ofNat 8 (v >>> (8 * (j - a))) else m.read j := by
  induction n with
  | zero => simp [Memory.writeN, show ¬(a ≤ j ∧ j < a) by omega]
  | succ n ih =>
    simp only [Memory.writeN, Memory.read_write, ih]
    by_cases hj : j = a + n
    · subst hj; simp
    · simp only [hj, if_false]
      congr 1
      simp only [eq_iff_iff]
      omega

/-- What memory reads after a write under byte enables. -/
theorem Memory.read_writeMasked (m : Memory) (a v be n j : Nat) :
    (m.writeMasked a v be n).read j =
      if a ≤ j ∧ j < a + n ∧ be.testBit (j - a) = true then BitVec.ofNat 8 (v >>> (8 * (j - a))) else m.read j := by
  induction n with
  | zero => simp [Memory.writeMasked, show ¬(a ≤ j ∧ j < a ∧ be.testBit (j - a) = true) by omega]
  | succ n ih =>
    simp only [Memory.writeMasked]
    split
    · next hb =>
      simp only [Memory.read_write, ih]
      by_cases hj : j = a + n
      · subst hj; simp [hb]
      · simp only [hj, if_false]
        congr 1
        simp only [eq_iff_iff]
        constructor <;> rintro ⟨h1, h2, h3⟩ <;> refine ⟨h1, ?_, h3⟩ <;> omega
    · next hb =>
      rw [ih]
      by_cases hj : j = a + n
      · subst hj; simp [hb]
      · congr 1
        simp only [eq_iff_iff]
        constructor <;> rintro ⟨h1, h2, h3⟩ <;> refine ⟨h1, ?_, h3⟩ <;> omega

/-- Bytes outside a write read as before. -/
theorem Memory.readN_writeMasked_outside (m : Memory) (a v be n b k : Nat) (h : b + k ≤ a ∨ a + n ≤ b) :
    (m.writeMasked a v be n).readN b k = m.readN b k := by
  induction k with
  | zero => rfl
  | succ k ih =>
    simp only [Memory.readN]
    rw [ih (by omega), Memory.read_writeMasked, if_neg (by omega)]

end Sys2Proof.Machine
end

