-- ==== Sys2Proof/Laws/State.lean ====
section
/-!
SUPPORT. What the named updates of the state change, one lemma per field: every other field is as it was.
-/

namespace Sys2Proof.Machine

/-! A change of a context: `modCtx`. -/

@[simp] theorem State.modCtx_cores (s : State) (sid : Nat) (f : Ctx → Ctx) : (s.modCtx sid f).cores = s.cores := rfl
@[simp] theorem State.modCtx_clus (s : State) (sid : Nat) (f : Ctx → Ctx) : (s.modCtx sid f).clus = s.clus := rfl
@[simp] theorem State.modCtx_mem (s : State) (sid : Nat) (f : Ctx → Ctx) : (s.modCtx sid f).mem = s.mem := rfl
@[simp] theorem State.modCtx_hostMem (s : State) (sid : Nat) (f : Ctx → Ctx) : (s.modCtx sid f).hostMem = s.hostMem := rfl
@[simp] theorem State.modCtx_reqs (s : State) (sid : Nat) (f : Ctx → Ctx) : (s.modCtx sid f).reqs = s.reqs := rfl
@[simp] theorem State.modCtx_parts (s : State) (sid : Nat) (f : Ctx → Ctx) : (s.modCtx sid f).parts = s.parts := rfl
@[simp] theorem State.modCtx_stations (s : State) (sid : Nat) (f : Ctx → Ctx) : (s.modCtx sid f).stations = s.stations := rfl
@[simp] theorem State.modCtx_taintTab (s : State) (sid : Nat) (f : Ctx → Ctx) : (s.modCtx sid f).taintTab = s.taintTab := rfl
@[simp] theorem State.modCtx_acctq (s : State) (sid : Nat) (f : Ctx → Ctx) : (s.modCtx sid f).acctq = s.acctq := rfl
@[simp] theorem State.modCtx_farCopies (s : State) (sid : Nat) (f : Ctx → Ctx) : (s.modCtx sid f).farCopies = s.farCopies := rfl
@[simp] theorem State.modCtx_poison (s : State) (sid : Nat) (f : Ctx → Ctx) : (s.modCtx sid f).poison = s.poison := rfl
@[simp] theorem State.modCtx_traces (s : State) (sid : Nat) (f : Ctx → Ctx) : (s.modCtx sid f).traces = s.traces := rfl
@[simp] theorem State.modCtx_banks (s : State) (sid : Nat) (f : Ctx → Ctx) : (s.modCtx sid f).banks = s.banks := rfl
@[simp] theorem State.modCtx_links (s : State) (sid : Nat) (f : Ctx → Ctx) : (s.modCtx sid f).links = s.links := rfl
@[simp] theorem State.modCtx_outs (s : State) (sid : Nat) (f : Ctx → Ctx) : (s.modCtx sid f).outs = s.outs := rfl
@[simp] theorem State.modCtx_gens (s : State) (sid : Nat) (f : Ctx → Ctx) : (s.modCtx sid f).gens = s.gens := rfl
@[simp] theorem State.modCtx_dups (s : State) (sid : Nat) (f : Ctx → Ctx) : (s.modCtx sid f).dups = s.dups := rfl
@[simp] theorem State.modCtx_arrived (s : State) (sid : Nat) (f : Ctx → Ctx) : (s.modCtx sid f).arrived = s.arrived := rfl
@[simp] theorem State.modCtx_respAcks (s : State) (sid : Nat) (f : Ctx → Ctx) : (s.modCtx sid f).respAcks = s.respAcks := rfl
@[simp] theorem State.modCtx_invals (s : State) (sid : Nat) (f : Ctx → Ctx) : (s.modCtx sid f).invals = s.invals := rfl
@[simp] theorem State.modCtx_subs (s : State) (sid : Nat) (f : Ctx → Ctx) : (s.modCtx sid f).subs = s.subs := rfl
@[simp] theorem State.modCtx_drains (s : State) (sid : Nat) (f : Ctx → Ctx) : (s.modCtx sid f).drains = s.drains := rfl
@[simp] theorem State.modCtx_credits (s : State) (sid : Nat) (f : Ctx → Ctx) : (s.modCtx sid f).credits = s.credits := rfl
@[simp] theorem State.modCtx_net (s : State) (sid : Nat) (f : Ctx → Ctx) : (s.modCtx sid f).net = s.net := rfl
@[simp] theorem State.modCtx_queues (s : State) (sid : Nat) (f : Ctx → Ctx) : (s.modCtx sid f).queues = s.queues := rfl
@[simp] theorem State.modCtx_launches (s : State) (sid : Nat) (f : Ctx → Ctx) : (s.modCtx sid f).launches = s.launches := rfl
@[simp] theorem State.modCtx_streams (s : State) (sid : Nat) (f : Ctx → Ctx) : (s.modCtx sid f).streams = s.streams := rfl
@[simp] theorem State.modCtx_posts (s : State) (sid : Nat) (f : Ctx → Ctx) : (s.modCtx sid f).posts = s.posts := rfl
@[simp] theorem State.modCtx_snaps (s : State) (sid : Nat) (f : Ctx → Ctx) : (s.modCtx sid f).snaps = s.snaps := rfl
@[simp] theorem State.modCtx_saved (s : State) (sid : Nat) (f : Ctx → Ctx) : (s.modCtx sid f).saved = s.saved := rfl
@[simp] theorem State.modCtx_nacks (s : State) (sid : Nat) (f : Ctx → Ctx) : (s.modCtx sid f).nacks = s.nacks := rfl
@[simp] theorem State.modCtx_answers (s : State) (sid : Nat) (f : Ctx → Ctx) : (s.modCtx sid f).answers = s.answers := rfl
@[simp] theorem State.modCtx_faultLog (s : State) (sid : Nat) (f : Ctx → Ctx) : (s.modCtx sid f).faultLog = s.faultLog := rfl
@[simp] theorem State.modCtx_entryLog (s : State) (sid : Nat) (f : Ctx → Ctx) : (s.modCtx sid f).entryLog = s.entryLog := rfl
@[simp] theorem State.modCtx_boot (s : State) (sid : Nat) (f : Ctx → Ctx) : (s.modCtx sid f).boot = s.boot := rfl
@[simp] theorem State.modCtx_fuse (s : State) (sid : Nat) (f : Ctx → Ctx) : (s.modCtx sid f).fuse = s.fuse := rfl
@[simp] theorem State.modCtx_hostRead (s : State) (sid : Nat) (f : Ctx → Ctx) : (s.modCtx sid f).hostRead = s.hostRead := rfl
@[simp] theorem State.modCtx_mgmtRead (s : State) (sid : Nat) (f : Ctx → Ctx) : (s.modCtx sid f).mgmtRead = s.mgmtRead := rfl
@[simp] theorem State.modCtx_now (s : State) (sid : Nat) (f : Ctx → Ctx) : (s.modCtx sid f).now = s.now := rfl
@[simp] theorem State.modCtx_cur (s : State) (sid : Nat) (f : Ctx → Ctx) : (s.modCtx sid f).cur = s.cur := rfl
@[simp] theorem State.modCtx_served (s : State) (sid : Nat) (f : Ctx → Ctx) : (s.modCtx sid f).served = s.served := rfl
@[simp] theorem State.modCtx_lost (s : State) (sid : Nat) (f : Ctx → Ctx) : (s.modCtx sid f).lost = s.lost := rfl
@[simp] theorem State.modCtx_owed (s : State) (sid : Nat) (f : Ctx → Ctx) : (s.modCtx sid f).owed = s.owed := rfl
@[simp] theorem State.modCtx_taken (s : State) (sid : Nat) (f : Ctx → Ctx) : (s.modCtx sid f).taken = s.taken := rfl
@[simp] theorem State.modCtx_agenda (s : State) (sid : Nat) (f : Ctx → Ctx) : (s.modCtx sid f).agenda = s.agenda := rfl
@[simp] theorem State.modCtx_free (s : State) (sid : Nat) (f : Ctx → Ctx) : (s.modCtx sid f).free = s.free := rfl
@[simp] theorem State.modCtx_nextId (s : State) (sid : Nat) (f : Ctx → Ctx) : (s.modCtx sid f).nextId = s.nextId := rfl
@[simp] theorem State.modCtx_core (s : State) (sid : Nat) (f : Ctx → Ctx) (j : Nat) : (s.modCtx sid f).core j = s.core j := rfl
@[simp] theorem State.modCtx_clu (s : State) (sid : Nat) (f : Ctx → Ctx) (j : Nat) : (s.modCtx sid f).clu j = s.clu j := rfl
@[simp] theorem State.modCtx_part (s : State) (sid : Nat) (f : Ctx → Ctx) (j : Nat) : (s.modCtx sid f).part j = s.part j := rfl

/-! A change of the running context: `upd`. -/

@[simp] theorem State.upd_cores (s : State) (f : Ctx → Ctx) : (s.upd f).cores = s.cores := rfl
@[simp] theorem State.upd_clus (s : State) (f : Ctx → Ctx) : (s.upd f).clus = s.clus := rfl
@[simp] theorem State.upd_mem (s : State) (f : Ctx → Ctx) : (s.upd f).mem = s.mem := rfl
@[simp] theorem State.upd_hostMem (s : State) (f : Ctx → Ctx) : (s.upd f).hostMem = s.hostMem := rfl
@[simp] theorem State.upd_reqs (s : State) (f : Ctx → Ctx) : (s.upd f).reqs = s.reqs := rfl
@[simp] theorem State.upd_parts (s : State) (f : Ctx → Ctx) : (s.upd f).parts = s.parts := rfl
@[simp] theorem State.upd_stations (s : State) (f : Ctx → Ctx) : (s.upd f).stations = s.stations := rfl
@[simp] theorem State.upd_taintTab (s : State) (f : Ctx → Ctx) : (s.upd f).taintTab = s.taintTab := rfl
@[simp] theorem State.upd_acctq (s : State) (f : Ctx → Ctx) : (s.upd f).acctq = s.acctq := rfl
@[simp] theorem State.upd_farCopies (s : State) (f : Ctx → Ctx) : (s.upd f).farCopies = s.farCopies := rfl
@[simp] theorem State.upd_poison (s : State) (f : Ctx → Ctx) : (s.upd f).poison = s.poison := rfl
@[simp] theorem State.upd_traces (s : State) (f : Ctx → Ctx) : (s.upd f).traces = s.traces := rfl
@[simp] theorem State.upd_banks (s : State) (f : Ctx → Ctx) : (s.upd f).banks = s.banks := rfl
@[simp] theorem State.upd_links (s : State) (f : Ctx → Ctx) : (s.upd f).links = s.links := rfl
@[simp] theorem State.upd_outs (s : State) (f : Ctx → Ctx) : (s.upd f).outs = s.outs := rfl
@[simp] theorem State.upd_gens (s : State) (f : Ctx → Ctx) : (s.upd f).gens = s.gens := rfl
@[simp] theorem State.upd_dups (s : State) (f : Ctx → Ctx) : (s.upd f).dups = s.dups := rfl
@[simp] theorem State.upd_arrived (s : State) (f : Ctx → Ctx) : (s.upd f).arrived = s.arrived := rfl
@[simp] theorem State.upd_respAcks (s : State) (f : Ctx → Ctx) : (s.upd f).respAcks = s.respAcks := rfl
@[simp] theorem State.upd_invals (s : State) (f : Ctx → Ctx) : (s.upd f).invals = s.invals := rfl
@[simp] theorem State.upd_subs (s : State) (f : Ctx → Ctx) : (s.upd f).subs = s.subs := rfl
@[simp] theorem State.upd_drains (s : State) (f : Ctx → Ctx) : (s.upd f).drains = s.drains := rfl
@[simp] theorem State.upd_credits (s : State) (f : Ctx → Ctx) : (s.upd f).credits = s.credits := rfl
@[simp] theorem State.upd_net (s : State) (f : Ctx → Ctx) : (s.upd f).net = s.net := rfl
@[simp] theorem State.upd_queues (s : State) (f : Ctx → Ctx) : (s.upd f).queues = s.queues := rfl
@[simp] theorem State.upd_launches (s : State) (f : Ctx → Ctx) : (s.upd f).launches = s.launches := rfl
@[simp] theorem State.upd_streams (s : State) (f : Ctx → Ctx) : (s.upd f).streams = s.streams := rfl
@[simp] theorem State.upd_posts (s : State) (f : Ctx → Ctx) : (s.upd f).posts = s.posts := rfl
@[simp] theorem State.upd_snaps (s : State) (f : Ctx → Ctx) : (s.upd f).snaps = s.snaps := rfl
@[simp] theorem State.upd_saved (s : State) (f : Ctx → Ctx) : (s.upd f).saved = s.saved := rfl
@[simp] theorem State.upd_nacks (s : State) (f : Ctx → Ctx) : (s.upd f).nacks = s.nacks := rfl
@[simp] theorem State.upd_answers (s : State) (f : Ctx → Ctx) : (s.upd f).answers = s.answers := rfl
@[simp] theorem State.upd_faultLog (s : State) (f : Ctx → Ctx) : (s.upd f).faultLog = s.faultLog := rfl
@[simp] theorem State.upd_entryLog (s : State) (f : Ctx → Ctx) : (s.upd f).entryLog = s.entryLog := rfl
@[simp] theorem State.upd_boot (s : State) (f : Ctx → Ctx) : (s.upd f).boot = s.boot := rfl
@[simp] theorem State.upd_fuse (s : State) (f : Ctx → Ctx) : (s.upd f).fuse = s.fuse := rfl
@[simp] theorem State.upd_hostRead (s : State) (f : Ctx → Ctx) : (s.upd f).hostRead = s.hostRead := rfl
@[simp] theorem State.upd_mgmtRead (s : State) (f : Ctx → Ctx) : (s.upd f).mgmtRead = s.mgmtRead := rfl
@[simp] theorem State.upd_now (s : State) (f : Ctx → Ctx) : (s.upd f).now = s.now := rfl
@[simp] theorem State.upd_cur (s : State) (f : Ctx → Ctx) : (s.upd f).cur = s.cur := rfl
@[simp] theorem State.upd_served (s : State) (f : Ctx → Ctx) : (s.upd f).served = s.served := rfl
@[simp] theorem State.upd_lost (s : State) (f : Ctx → Ctx) : (s.upd f).lost = s.lost := rfl
@[simp] theorem State.upd_owed (s : State) (f : Ctx → Ctx) : (s.upd f).owed = s.owed := rfl
@[simp] theorem State.upd_taken (s : State) (f : Ctx → Ctx) : (s.upd f).taken = s.taken := rfl
@[simp] theorem State.upd_agenda (s : State) (f : Ctx → Ctx) : (s.upd f).agenda = s.agenda := rfl
@[simp] theorem State.upd_free (s : State) (f : Ctx → Ctx) : (s.upd f).free = s.free := rfl
@[simp] theorem State.upd_nextId (s : State) (f : Ctx → Ctx) : (s.upd f).nextId = s.nextId := rfl
@[simp] theorem State.upd_core (s : State) (f : Ctx → Ctx) (j : Nat) : (s.upd f).core j = s.core j := rfl
@[simp] theorem State.upd_clu (s : State) (f : Ctx → Ctx) (j : Nat) : (s.upd f).clu j = s.clu j := rfl
@[simp] theorem State.upd_part (s : State) (f : Ctx → Ctx) (j : Nat) : (s.upd f).part j = s.part j := rfl

/-! A change of a core: `modCore`. -/

@[simp] theorem State.modCore_ctxs (s : State) (ci : Nat) (f : CoreSt → CoreSt) : (s.modCore ci f).ctxs = s.ctxs := rfl
@[simp] theorem State.modCore_clus (s : State) (ci : Nat) (f : CoreSt → CoreSt) : (s.modCore ci f).clus = s.clus := rfl
@[simp] theorem State.modCore_mem (s : State) (ci : Nat) (f : CoreSt → CoreSt) : (s.modCore ci f).mem = s.mem := rfl
@[simp] theorem State.modCore_hostMem (s : State) (ci : Nat) (f : CoreSt → CoreSt) : (s.modCore ci f).hostMem = s.hostMem := rfl
@[simp] theorem State.modCore_reqs (s : State) (ci : Nat) (f : CoreSt → CoreSt) : (s.modCore ci f).reqs = s.reqs := rfl
@[simp] theorem State.modCore_parts (s : State) (ci : Nat) (f : CoreSt → CoreSt) : (s.modCore ci f).parts = s.parts := rfl
@[simp] theorem State.modCore_stations (s : State) (ci : Nat) (f : CoreSt → CoreSt) : (s.modCore ci f).stations = s.stations := rfl
@[simp] theorem State.modCore_taintTab (s : State) (ci : Nat) (f : CoreSt → CoreSt) : (s.modCore ci f).taintTab = s.taintTab := rfl
@[simp] theorem State.modCore_acctq (s : State) (ci : Nat) (f : CoreSt → CoreSt) : (s.modCore ci f).acctq = s.acctq := rfl
@[simp] theorem State.modCore_farCopies (s : State) (ci : Nat) (f : CoreSt → CoreSt) : (s.modCore ci f).farCopies = s.farCopies := rfl
@[simp] theorem State.modCore_poison (s : State) (ci : Nat) (f : CoreSt → CoreSt) : (s.modCore ci f).poison = s.poison := rfl
@[simp] theorem State.modCore_traces (s : State) (ci : Nat) (f : CoreSt → CoreSt) : (s.modCore ci f).traces = s.traces := rfl
@[simp] theorem State.modCore_banks (s : State) (ci : Nat) (f : CoreSt → CoreSt) : (s.modCore ci f).banks = s.banks := rfl
@[simp] theorem State.modCore_links (s : State) (ci : Nat) (f : CoreSt → CoreSt) : (s.modCore ci f).links = s.links := rfl
@[simp] theorem State.modCore_outs (s : State) (ci : Nat) (f : CoreSt → CoreSt) : (s.modCore ci f).outs = s.outs := rfl
@[simp] theorem State.modCore_gens (s : State) (ci : Nat) (f : CoreSt → CoreSt) : (s.modCore ci f).gens = s.gens := rfl
@[simp] theorem State.modCore_dups (s : State) (ci : Nat) (f : CoreSt → CoreSt) : (s.modCore ci f).dups = s.dups := rfl
@[simp] theorem State.modCore_arrived (s : State) (ci : Nat) (f : CoreSt → CoreSt) : (s.modCore ci f).arrived = s.arrived := rfl
@[simp] theorem State.modCore_respAcks (s : State) (ci : Nat) (f : CoreSt → CoreSt) : (s.modCore ci f).respAcks = s.respAcks := rfl
@[simp] theorem State.modCore_invals (s : State) (ci : Nat) (f : CoreSt → CoreSt) : (s.modCore ci f).invals = s.invals := rfl
@[simp] theorem State.modCore_subs (s : State) (ci : Nat) (f : CoreSt → CoreSt) : (s.modCore ci f).subs = s.subs := rfl
@[simp] theorem State.modCore_drains (s : State) (ci : Nat) (f : CoreSt → CoreSt) : (s.modCore ci f).drains = s.drains := rfl
@[simp] theorem State.modCore_credits (s : State) (ci : Nat) (f : CoreSt → CoreSt) : (s.modCore ci f).credits = s.credits := rfl
@[simp] theorem State.modCore_net (s : State) (ci : Nat) (f : CoreSt → CoreSt) : (s.modCore ci f).net = s.net := rfl
@[simp] theorem State.modCore_queues (s : State) (ci : Nat) (f : CoreSt → CoreSt) : (s.modCore ci f).queues = s.queues := rfl
@[simp] theorem State.modCore_launches (s : State) (ci : Nat) (f : CoreSt → CoreSt) : (s.modCore ci f).launches = s.launches := rfl
@[simp] theorem State.modCore_streams (s : State) (ci : Nat) (f : CoreSt → CoreSt) : (s.modCore ci f).streams = s.streams := rfl
@[simp] theorem State.modCore_posts (s : State) (ci : Nat) (f : CoreSt → CoreSt) : (s.modCore ci f).posts = s.posts := rfl
@[simp] theorem State.modCore_snaps (s : State) (ci : Nat) (f : CoreSt → CoreSt) : (s.modCore ci f).snaps = s.snaps := rfl
@[simp] theorem State.modCore_saved (s : State) (ci : Nat) (f : CoreSt → CoreSt) : (s.modCore ci f).saved = s.saved := rfl
@[simp] theorem State.modCore_nacks (s : State) (ci : Nat) (f : CoreSt → CoreSt) : (s.modCore ci f).nacks = s.nacks := rfl
@[simp] theorem State.modCore_answers (s : State) (ci : Nat) (f : CoreSt → CoreSt) : (s.modCore ci f).answers = s.answers := rfl
@[simp] theorem State.modCore_faultLog (s : State) (ci : Nat) (f : CoreSt → CoreSt) : (s.modCore ci f).faultLog = s.faultLog := rfl
@[simp] theorem State.modCore_entryLog (s : State) (ci : Nat) (f : CoreSt → CoreSt) : (s.modCore ci f).entryLog = s.entryLog := rfl
@[simp] theorem State.modCore_boot (s : State) (ci : Nat) (f : CoreSt → CoreSt) : (s.modCore ci f).boot = s.boot := rfl
@[simp] theorem State.modCore_fuse (s : State) (ci : Nat) (f : CoreSt → CoreSt) : (s.modCore ci f).fuse = s.fuse := rfl
@[simp] theorem State.modCore_hostRead (s : State) (ci : Nat) (f : CoreSt → CoreSt) : (s.modCore ci f).hostRead = s.hostRead := rfl
@[simp] theorem State.modCore_mgmtRead (s : State) (ci : Nat) (f : CoreSt → CoreSt) : (s.modCore ci f).mgmtRead = s.mgmtRead := rfl
@[simp] theorem State.modCore_now (s : State) (ci : Nat) (f : CoreSt → CoreSt) : (s.modCore ci f).now = s.now := rfl
@[simp] theorem State.modCore_cur (s : State) (ci : Nat) (f : CoreSt → CoreSt) : (s.modCore ci f).cur = s.cur := rfl
@[simp] theorem State.modCore_served (s : State) (ci : Nat) (f : CoreSt → CoreSt) : (s.modCore ci f).served = s.served := rfl
@[simp] theorem State.modCore_lost (s : State) (ci : Nat) (f : CoreSt → CoreSt) : (s.modCore ci f).lost = s.lost := rfl
@[simp] theorem State.modCore_owed (s : State) (ci : Nat) (f : CoreSt → CoreSt) : (s.modCore ci f).owed = s.owed := rfl
@[simp] theorem State.modCore_taken (s : State) (ci : Nat) (f : CoreSt → CoreSt) : (s.modCore ci f).taken = s.taken := rfl
@[simp] theorem State.modCore_agenda (s : State) (ci : Nat) (f : CoreSt → CoreSt) : (s.modCore ci f).agenda = s.agenda := rfl
@[simp] theorem State.modCore_free (s : State) (ci : Nat) (f : CoreSt → CoreSt) : (s.modCore ci f).free = s.free := rfl
@[simp] theorem State.modCore_nextId (s : State) (ci : Nat) (f : CoreSt → CoreSt) : (s.modCore ci f).nextId = s.nextId := rfl
@[simp] theorem State.modCore_ctx (s : State) (ci : Nat) (f : CoreSt → CoreSt) (j : Nat) : (s.modCore ci f).ctx j = s.ctx j := rfl
@[simp] theorem State.modCore_clu (s : State) (ci : Nat) (f : CoreSt → CoreSt) (j : Nat) : (s.modCore ci f).clu j = s.clu j := rfl
@[simp] theorem State.modCore_part (s : State) (ci : Nat) (f : CoreSt → CoreSt) (j : Nat) : (s.modCore ci f).part j = s.part j := rfl

/-! A change of the running context's core: `updCore`. -/

@[simp] theorem State.updCore_ctxs (s : State) (f : CoreSt → CoreSt) : (s.updCore f).ctxs = s.ctxs := rfl
@[simp] theorem State.updCore_clus (s : State) (f : CoreSt → CoreSt) : (s.updCore f).clus = s.clus := rfl
@[simp] theorem State.updCore_mem (s : State) (f : CoreSt → CoreSt) : (s.updCore f).mem = s.mem := rfl
@[simp] theorem State.updCore_hostMem (s : State) (f : CoreSt → CoreSt) : (s.updCore f).hostMem = s.hostMem := rfl
@[simp] theorem State.updCore_reqs (s : State) (f : CoreSt → CoreSt) : (s.updCore f).reqs = s.reqs := rfl
@[simp] theorem State.updCore_parts (s : State) (f : CoreSt → CoreSt) : (s.updCore f).parts = s.parts := rfl
@[simp] theorem State.updCore_stations (s : State) (f : CoreSt → CoreSt) : (s.updCore f).stations = s.stations := rfl
@[simp] theorem State.updCore_taintTab (s : State) (f : CoreSt → CoreSt) : (s.updCore f).taintTab = s.taintTab := rfl
@[simp] theorem State.updCore_acctq (s : State) (f : CoreSt → CoreSt) : (s.updCore f).acctq = s.acctq := rfl
@[simp] theorem State.updCore_farCopies (s : State) (f : CoreSt → CoreSt) : (s.updCore f).farCopies = s.farCopies := rfl
@[simp] theorem State.updCore_poison (s : State) (f : CoreSt → CoreSt) : (s.updCore f).poison = s.poison := rfl
@[simp] theorem State.updCore_traces (s : State) (f : CoreSt → CoreSt) : (s.updCore f).traces = s.traces := rfl
@[simp] theorem State.updCore_banks (s : State) (f : CoreSt → CoreSt) : (s.updCore f).banks = s.banks := rfl
@[simp] theorem State.updCore_links (s : State) (f : CoreSt → CoreSt) : (s.updCore f).links = s.links := rfl
@[simp] theorem State.updCore_outs (s : State) (f : CoreSt → CoreSt) : (s.updCore f).outs = s.outs := rfl
@[simp] theorem State.updCore_gens (s : State) (f : CoreSt → CoreSt) : (s.updCore f).gens = s.gens := rfl
@[simp] theorem State.updCore_dups (s : State) (f : CoreSt → CoreSt) : (s.updCore f).dups = s.dups := rfl
@[simp] theorem State.updCore_arrived (s : State) (f : CoreSt → CoreSt) : (s.updCore f).arrived = s.arrived := rfl
@[simp] theorem State.updCore_respAcks (s : State) (f : CoreSt → CoreSt) : (s.updCore f).respAcks = s.respAcks := rfl
@[simp] theorem State.updCore_invals (s : State) (f : CoreSt → CoreSt) : (s.updCore f).invals = s.invals := rfl
@[simp] theorem State.updCore_subs (s : State) (f : CoreSt → CoreSt) : (s.updCore f).subs = s.subs := rfl
@[simp] theorem State.updCore_drains (s : State) (f : CoreSt → CoreSt) : (s.updCore f).drains = s.drains := rfl
@[simp] theorem State.updCore_credits (s : State) (f : CoreSt → CoreSt) : (s.updCore f).credits = s.credits := rfl
@[simp] theorem State.updCore_net (s : State) (f : CoreSt → CoreSt) : (s.updCore f).net = s.net := rfl
@[simp] theorem State.updCore_queues (s : State) (f : CoreSt → CoreSt) : (s.updCore f).queues = s.queues := rfl
@[simp] theorem State.updCore_launches (s : State) (f : CoreSt → CoreSt) : (s.updCore f).launches = s.launches := rfl
@[simp] theorem State.updCore_streams (s : State) (f : CoreSt → CoreSt) : (s.updCore f).streams = s.streams := rfl
@[simp] theorem State.updCore_posts (s : State) (f : CoreSt → CoreSt) : (s.updCore f).posts = s.posts := rfl
@[simp] theorem State.updCore_snaps (s : State) (f : CoreSt → CoreSt) : (s.updCore f).snaps = s.snaps := rfl
@[simp] theorem State.updCore_saved (s : State) (f : CoreSt → CoreSt) : (s.updCore f).saved = s.saved := rfl
@[simp] theorem State.updCore_nacks (s : State) (f : CoreSt → CoreSt) : (s.updCore f).nacks = s.nacks := rfl
@[simp] theorem State.updCore_answers (s : State) (f : CoreSt → CoreSt) : (s.updCore f).answers = s.answers := rfl
@[simp] theorem State.updCore_faultLog (s : State) (f : CoreSt → CoreSt) : (s.updCore f).faultLog = s.faultLog := rfl
@[simp] theorem State.updCore_entryLog (s : State) (f : CoreSt → CoreSt) : (s.updCore f).entryLog = s.entryLog := rfl
@[simp] theorem State.updCore_boot (s : State) (f : CoreSt → CoreSt) : (s.updCore f).boot = s.boot := rfl
@[simp] theorem State.updCore_fuse (s : State) (f : CoreSt → CoreSt) : (s.updCore f).fuse = s.fuse := rfl
@[simp] theorem State.updCore_hostRead (s : State) (f : CoreSt → CoreSt) : (s.updCore f).hostRead = s.hostRead := rfl
@[simp] theorem State.updCore_mgmtRead (s : State) (f : CoreSt → CoreSt) : (s.updCore f).mgmtRead = s.mgmtRead := rfl
@[simp] theorem State.updCore_now (s : State) (f : CoreSt → CoreSt) : (s.updCore f).now = s.now := rfl
@[simp] theorem State.updCore_cur (s : State) (f : CoreSt → CoreSt) : (s.updCore f).cur = s.cur := rfl
@[simp] theorem State.updCore_served (s : State) (f : CoreSt → CoreSt) : (s.updCore f).served = s.served := rfl
@[simp] theorem State.updCore_lost (s : State) (f : CoreSt → CoreSt) : (s.updCore f).lost = s.lost := rfl
@[simp] theorem State.updCore_owed (s : State) (f : CoreSt → CoreSt) : (s.updCore f).owed = s.owed := rfl
@[simp] theorem State.updCore_taken (s : State) (f : CoreSt → CoreSt) : (s.updCore f).taken = s.taken := rfl
@[simp] theorem State.updCore_agenda (s : State) (f : CoreSt → CoreSt) : (s.updCore f).agenda = s.agenda := rfl
@[simp] theorem State.updCore_free (s : State) (f : CoreSt → CoreSt) : (s.updCore f).free = s.free := rfl
@[simp] theorem State.updCore_nextId (s : State) (f : CoreSt → CoreSt) : (s.updCore f).nextId = s.nextId := rfl
@[simp] theorem State.updCore_ctx (s : State) (f : CoreSt → CoreSt) (j : Nat) : (s.updCore f).ctx j = s.ctx j := rfl
@[simp] theorem State.updCore_clu (s : State) (f : CoreSt → CoreSt) (j : Nat) : (s.updCore f).clu j = s.clu j := rfl
@[simp] theorem State.updCore_part (s : State) (f : CoreSt → CoreSt) (j : Nat) : (s.updCore f).part j = s.part j := rfl

/-! A change of a cluster: `modClu`. -/

@[simp] theorem State.modClu_ctxs (s : State) (cl : Nat) (f : Cluster → Cluster) : (s.modClu cl f).ctxs = s.ctxs := rfl
@[simp] theorem State.modClu_cores (s : State) (cl : Nat) (f : Cluster → Cluster) : (s.modClu cl f).cores = s.cores := rfl
@[simp] theorem State.modClu_mem (s : State) (cl : Nat) (f : Cluster → Cluster) : (s.modClu cl f).mem = s.mem := rfl
@[simp] theorem State.modClu_hostMem (s : State) (cl : Nat) (f : Cluster → Cluster) : (s.modClu cl f).hostMem = s.hostMem := rfl
@[simp] theorem State.modClu_reqs (s : State) (cl : Nat) (f : Cluster → Cluster) : (s.modClu cl f).reqs = s.reqs := rfl
@[simp] theorem State.modClu_parts (s : State) (cl : Nat) (f : Cluster → Cluster) : (s.modClu cl f).parts = s.parts := rfl
@[simp] theorem State.modClu_stations (s : State) (cl : Nat) (f : Cluster → Cluster) : (s.modClu cl f).stations = s.stations := rfl
@[simp] theorem State.modClu_taintTab (s : State) (cl : Nat) (f : Cluster → Cluster) : (s.modClu cl f).taintTab = s.taintTab := rfl
@[simp] theorem State.modClu_acctq (s : State) (cl : Nat) (f : Cluster → Cluster) : (s.modClu cl f).acctq = s.acctq := rfl
@[simp] theorem State.modClu_farCopies (s : State) (cl : Nat) (f : Cluster → Cluster) : (s.modClu cl f).farCopies = s.farCopies := rfl
@[simp] theorem State.modClu_poison (s : State) (cl : Nat) (f : Cluster → Cluster) : (s.modClu cl f).poison = s.poison := rfl
@[simp] theorem State.modClu_traces (s : State) (cl : Nat) (f : Cluster → Cluster) : (s.modClu cl f).traces = s.traces := rfl
@[simp] theorem State.modClu_banks (s : State) (cl : Nat) (f : Cluster → Cluster) : (s.modClu cl f).banks = s.banks := rfl
@[simp] theorem State.modClu_links (s : State) (cl : Nat) (f : Cluster → Cluster) : (s.modClu cl f).links = s.links := rfl
@[simp] theorem State.modClu_outs (s : State) (cl : Nat) (f : Cluster → Cluster) : (s.modClu cl f).outs = s.outs := rfl
@[simp] theorem State.modClu_gens (s : State) (cl : Nat) (f : Cluster → Cluster) : (s.modClu cl f).gens = s.gens := rfl
@[simp] theorem State.modClu_dups (s : State) (cl : Nat) (f : Cluster → Cluster) : (s.modClu cl f).dups = s.dups := rfl
@[simp] theorem State.modClu_arrived (s : State) (cl : Nat) (f : Cluster → Cluster) : (s.modClu cl f).arrived = s.arrived := rfl
@[simp] theorem State.modClu_respAcks (s : State) (cl : Nat) (f : Cluster → Cluster) : (s.modClu cl f).respAcks = s.respAcks := rfl
@[simp] theorem State.modClu_invals (s : State) (cl : Nat) (f : Cluster → Cluster) : (s.modClu cl f).invals = s.invals := rfl
@[simp] theorem State.modClu_subs (s : State) (cl : Nat) (f : Cluster → Cluster) : (s.modClu cl f).subs = s.subs := rfl
@[simp] theorem State.modClu_drains (s : State) (cl : Nat) (f : Cluster → Cluster) : (s.modClu cl f).drains = s.drains := rfl
@[simp] theorem State.modClu_credits (s : State) (cl : Nat) (f : Cluster → Cluster) : (s.modClu cl f).credits = s.credits := rfl
@[simp] theorem State.modClu_net (s : State) (cl : Nat) (f : Cluster → Cluster) : (s.modClu cl f).net = s.net := rfl
@[simp] theorem State.modClu_queues (s : State) (cl : Nat) (f : Cluster → Cluster) : (s.modClu cl f).queues = s.queues := rfl
@[simp] theorem State.modClu_launches (s : State) (cl : Nat) (f : Cluster → Cluster) : (s.modClu cl f).launches = s.launches := rfl
@[simp] theorem State.modClu_streams (s : State) (cl : Nat) (f : Cluster → Cluster) : (s.modClu cl f).streams = s.streams := rfl
@[simp] theorem State.modClu_posts (s : State) (cl : Nat) (f : Cluster → Cluster) : (s.modClu cl f).posts = s.posts := rfl
@[simp] theorem State.modClu_snaps (s : State) (cl : Nat) (f : Cluster → Cluster) : (s.modClu cl f).snaps = s.snaps := rfl
@[simp] theorem State.modClu_saved (s : State) (cl : Nat) (f : Cluster → Cluster) : (s.modClu cl f).saved = s.saved := rfl
@[simp] theorem State.modClu_nacks (s : State) (cl : Nat) (f : Cluster → Cluster) : (s.modClu cl f).nacks = s.nacks := rfl
@[simp] theorem State.modClu_answers (s : State) (cl : Nat) (f : Cluster → Cluster) : (s.modClu cl f).answers = s.answers := rfl
@[simp] theorem State.modClu_faultLog (s : State) (cl : Nat) (f : Cluster → Cluster) : (s.modClu cl f).faultLog = s.faultLog := rfl
@[simp] theorem State.modClu_entryLog (s : State) (cl : Nat) (f : Cluster → Cluster) : (s.modClu cl f).entryLog = s.entryLog := rfl
@[simp] theorem State.modClu_boot (s : State) (cl : Nat) (f : Cluster → Cluster) : (s.modClu cl f).boot = s.boot := rfl
@[simp] theorem State.modClu_fuse (s : State) (cl : Nat) (f : Cluster → Cluster) : (s.modClu cl f).fuse = s.fuse := rfl
@[simp] theorem State.modClu_hostRead (s : State) (cl : Nat) (f : Cluster → Cluster) : (s.modClu cl f).hostRead = s.hostRead := rfl
@[simp] theorem State.modClu_mgmtRead (s : State) (cl : Nat) (f : Cluster → Cluster) : (s.modClu cl f).mgmtRead = s.mgmtRead := rfl
@[simp] theorem State.modClu_now (s : State) (cl : Nat) (f : Cluster → Cluster) : (s.modClu cl f).now = s.now := rfl
@[simp] theorem State.modClu_cur (s : State) (cl : Nat) (f : Cluster → Cluster) : (s.modClu cl f).cur = s.cur := rfl
@[simp] theorem State.modClu_served (s : State) (cl : Nat) (f : Cluster → Cluster) : (s.modClu cl f).served = s.served := rfl
@[simp] theorem State.modClu_lost (s : State) (cl : Nat) (f : Cluster → Cluster) : (s.modClu cl f).lost = s.lost := rfl
@[simp] theorem State.modClu_owed (s : State) (cl : Nat) (f : Cluster → Cluster) : (s.modClu cl f).owed = s.owed := rfl
@[simp] theorem State.modClu_taken (s : State) (cl : Nat) (f : Cluster → Cluster) : (s.modClu cl f).taken = s.taken := rfl
@[simp] theorem State.modClu_agenda (s : State) (cl : Nat) (f : Cluster → Cluster) : (s.modClu cl f).agenda = s.agenda := rfl
@[simp] theorem State.modClu_free (s : State) (cl : Nat) (f : Cluster → Cluster) : (s.modClu cl f).free = s.free := rfl
@[simp] theorem State.modClu_nextId (s : State) (cl : Nat) (f : Cluster → Cluster) : (s.modClu cl f).nextId = s.nextId := rfl
@[simp] theorem State.modClu_ctx (s : State) (cl : Nat) (f : Cluster → Cluster) (j : Nat) : (s.modClu cl f).ctx j = s.ctx j := rfl
@[simp] theorem State.modClu_core (s : State) (cl : Nat) (f : Cluster → Cluster) (j : Nat) : (s.modClu cl f).core j = s.core j := rfl
@[simp] theorem State.modClu_part (s : State) (cl : Nat) (f : Cluster → Cluster) (j : Nat) : (s.modClu cl f).part j = s.part j := rfl

/-! A change of a partition: `modPart`. -/

@[simp] theorem State.modPart_ctxs (s : State) (p : Nat) (f : Part → Part) : (s.modPart p f).ctxs = s.ctxs := rfl
@[simp] theorem State.modPart_cores (s : State) (p : Nat) (f : Part → Part) : (s.modPart p f).cores = s.cores := rfl
@[simp] theorem State.modPart_clus (s : State) (p : Nat) (f : Part → Part) : (s.modPart p f).clus = s.clus := rfl
@[simp] theorem State.modPart_mem (s : State) (p : Nat) (f : Part → Part) : (s.modPart p f).mem = s.mem := rfl
@[simp] theorem State.modPart_hostMem (s : State) (p : Nat) (f : Part → Part) : (s.modPart p f).hostMem = s.hostMem := rfl
@[simp] theorem State.modPart_reqs (s : State) (p : Nat) (f : Part → Part) : (s.modPart p f).reqs = s.reqs := rfl
@[simp] theorem State.modPart_stations (s : State) (p : Nat) (f : Part → Part) : (s.modPart p f).stations = s.stations := rfl
@[simp] theorem State.modPart_taintTab (s : State) (p : Nat) (f : Part → Part) : (s.modPart p f).taintTab = s.taintTab := rfl
@[simp] theorem State.modPart_acctq (s : State) (p : Nat) (f : Part → Part) : (s.modPart p f).acctq = s.acctq := rfl
@[simp] theorem State.modPart_farCopies (s : State) (p : Nat) (f : Part → Part) : (s.modPart p f).farCopies = s.farCopies := rfl
@[simp] theorem State.modPart_poison (s : State) (p : Nat) (f : Part → Part) : (s.modPart p f).poison = s.poison := rfl
@[simp] theorem State.modPart_traces (s : State) (p : Nat) (f : Part → Part) : (s.modPart p f).traces = s.traces := rfl
@[simp] theorem State.modPart_banks (s : State) (p : Nat) (f : Part → Part) : (s.modPart p f).banks = s.banks := rfl
@[simp] theorem State.modPart_links (s : State) (p : Nat) (f : Part → Part) : (s.modPart p f).links = s.links := rfl
@[simp] theorem State.modPart_outs (s : State) (p : Nat) (f : Part → Part) : (s.modPart p f).outs = s.outs := rfl
@[simp] theorem State.modPart_gens (s : State) (p : Nat) (f : Part → Part) : (s.modPart p f).gens = s.gens := rfl
@[simp] theorem State.modPart_dups (s : State) (p : Nat) (f : Part → Part) : (s.modPart p f).dups = s.dups := rfl
@[simp] theorem State.modPart_arrived (s : State) (p : Nat) (f : Part → Part) : (s.modPart p f).arrived = s.arrived := rfl
@[simp] theorem State.modPart_respAcks (s : State) (p : Nat) (f : Part → Part) : (s.modPart p f).respAcks = s.respAcks := rfl
@[simp] theorem State.modPart_invals (s : State) (p : Nat) (f : Part → Part) : (s.modPart p f).invals = s.invals := rfl
@[simp] theorem State.modPart_subs (s : State) (p : Nat) (f : Part → Part) : (s.modPart p f).subs = s.subs := rfl
@[simp] theorem State.modPart_drains (s : State) (p : Nat) (f : Part → Part) : (s.modPart p f).drains = s.drains := rfl
@[simp] theorem State.modPart_credits (s : State) (p : Nat) (f : Part → Part) : (s.modPart p f).credits = s.credits := rfl
@[simp] theorem State.modPart_net (s : State) (p : Nat) (f : Part → Part) : (s.modPart p f).net = s.net := rfl
@[simp] theorem State.modPart_queues (s : State) (p : Nat) (f : Part → Part) : (s.modPart p f).queues = s.queues := rfl
@[simp] theorem State.modPart_launches (s : State) (p : Nat) (f : Part → Part) : (s.modPart p f).launches = s.launches := rfl
@[simp] theorem State.modPart_streams (s : State) (p : Nat) (f : Part → Part) : (s.modPart p f).streams = s.streams := rfl
@[simp] theorem State.modPart_posts (s : State) (p : Nat) (f : Part → Part) : (s.modPart p f).posts = s.posts := rfl
@[simp] theorem State.modPart_snaps (s : State) (p : Nat) (f : Part → Part) : (s.modPart p f).snaps = s.snaps := rfl
@[simp] theorem State.modPart_saved (s : State) (p : Nat) (f : Part → Part) : (s.modPart p f).saved = s.saved := rfl
@[simp] theorem State.modPart_nacks (s : State) (p : Nat) (f : Part → Part) : (s.modPart p f).nacks = s.nacks := rfl
@[simp] theorem State.modPart_answers (s : State) (p : Nat) (f : Part → Part) : (s.modPart p f).answers = s.answers := rfl
@[simp] theorem State.modPart_faultLog (s : State) (p : Nat) (f : Part → Part) : (s.modPart p f).faultLog = s.faultLog := rfl
@[simp] theorem State.modPart_entryLog (s : State) (p : Nat) (f : Part → Part) : (s.modPart p f).entryLog = s.entryLog := rfl
@[simp] theorem State.modPart_boot (s : State) (p : Nat) (f : Part → Part) : (s.modPart p f).boot = s.boot := rfl
@[simp] theorem State.modPart_fuse (s : State) (p : Nat) (f : Part → Part) : (s.modPart p f).fuse = s.fuse := rfl
@[simp] theorem State.modPart_hostRead (s : State) (p : Nat) (f : Part → Part) : (s.modPart p f).hostRead = s.hostRead := rfl
@[simp] theorem State.modPart_mgmtRead (s : State) (p : Nat) (f : Part → Part) : (s.modPart p f).mgmtRead = s.mgmtRead := rfl
@[simp] theorem State.modPart_now (s : State) (p : Nat) (f : Part → Part) : (s.modPart p f).now = s.now := rfl
@[simp] theorem State.modPart_cur (s : State) (p : Nat) (f : Part → Part) : (s.modPart p f).cur = s.cur := rfl
@[simp] theorem State.modPart_served (s : State) (p : Nat) (f : Part → Part) : (s.modPart p f).served = s.served := rfl
@[simp] theorem State.modPart_lost (s : State) (p : Nat) (f : Part → Part) : (s.modPart p f).lost = s.lost := rfl
@[simp] theorem State.modPart_owed (s : State) (p : Nat) (f : Part → Part) : (s.modPart p f).owed = s.owed := rfl
@[simp] theorem State.modPart_taken (s : State) (p : Nat) (f : Part → Part) : (s.modPart p f).taken = s.taken := rfl
@[simp] theorem State.modPart_agenda (s : State) (p : Nat) (f : Part → Part) : (s.modPart p f).agenda = s.agenda := rfl
@[simp] theorem State.modPart_free (s : State) (p : Nat) (f : Part → Part) : (s.modPart p f).free = s.free := rfl
@[simp] theorem State.modPart_nextId (s : State) (p : Nat) (f : Part → Part) : (s.modPart p f).nextId = s.nextId := rfl
@[simp] theorem State.modPart_ctx (s : State) (p : Nat) (f : Part → Part) (j : Nat) : (s.modPart p f).ctx j = s.ctx j := rfl
@[simp] theorem State.modPart_core (s : State) (p : Nat) (f : Part → Part) (j : Nat) : (s.modPart p f).core j = s.core j := rfl
@[simp] theorem State.modPart_clu (s : State) (p : Nat) (f : Part → Part) (j : Nat) : (s.modPart p f).clu j = s.clu j := rfl

/-! The next instruction: `adv`. -/

@[simp] theorem State.adv_cores (s : State) : (s.adv).cores = s.cores := rfl
@[simp] theorem State.adv_clus (s : State) : (s.adv).clus = s.clus := rfl
@[simp] theorem State.adv_mem (s : State) : (s.adv).mem = s.mem := rfl
@[simp] theorem State.adv_hostMem (s : State) : (s.adv).hostMem = s.hostMem := rfl
@[simp] theorem State.adv_reqs (s : State) : (s.adv).reqs = s.reqs := rfl
@[simp] theorem State.adv_parts (s : State) : (s.adv).parts = s.parts := rfl
@[simp] theorem State.adv_stations (s : State) : (s.adv).stations = s.stations := rfl
@[simp] theorem State.adv_taintTab (s : State) : (s.adv).taintTab = s.taintTab := rfl
@[simp] theorem State.adv_acctq (s : State) : (s.adv).acctq = s.acctq := rfl
@[simp] theorem State.adv_farCopies (s : State) : (s.adv).farCopies = s.farCopies := rfl
@[simp] theorem State.adv_poison (s : State) : (s.adv).poison = s.poison := rfl
@[simp] theorem State.adv_traces (s : State) : (s.adv).traces = s.traces := rfl
@[simp] theorem State.adv_banks (s : State) : (s.adv).banks = s.banks := rfl
@[simp] theorem State.adv_links (s : State) : (s.adv).links = s.links := rfl
@[simp] theorem State.adv_outs (s : State) : (s.adv).outs = s.outs := rfl
@[simp] theorem State.adv_gens (s : State) : (s.adv).gens = s.gens := rfl
@[simp] theorem State.adv_dups (s : State) : (s.adv).dups = s.dups := rfl
@[simp] theorem State.adv_arrived (s : State) : (s.adv).arrived = s.arrived := rfl
@[simp] theorem State.adv_respAcks (s : State) : (s.adv).respAcks = s.respAcks := rfl
@[simp] theorem State.adv_invals (s : State) : (s.adv).invals = s.invals := rfl
@[simp] theorem State.adv_subs (s : State) : (s.adv).subs = s.subs := rfl
@[simp] theorem State.adv_drains (s : State) : (s.adv).drains = s.drains := rfl
@[simp] theorem State.adv_credits (s : State) : (s.adv).credits = s.credits := rfl
@[simp] theorem State.adv_net (s : State) : (s.adv).net = s.net := rfl
@[simp] theorem State.adv_queues (s : State) : (s.adv).queues = s.queues := rfl
@[simp] theorem State.adv_launches (s : State) : (s.adv).launches = s.launches := rfl
@[simp] theorem State.adv_streams (s : State) : (s.adv).streams = s.streams := rfl
@[simp] theorem State.adv_posts (s : State) : (s.adv).posts = s.posts := rfl
@[simp] theorem State.adv_snaps (s : State) : (s.adv).snaps = s.snaps := rfl
@[simp] theorem State.adv_saved (s : State) : (s.adv).saved = s.saved := rfl
@[simp] theorem State.adv_nacks (s : State) : (s.adv).nacks = s.nacks := rfl
@[simp] theorem State.adv_answers (s : State) : (s.adv).answers = s.answers := rfl
@[simp] theorem State.adv_faultLog (s : State) : (s.adv).faultLog = s.faultLog := rfl
@[simp] theorem State.adv_entryLog (s : State) : (s.adv).entryLog = s.entryLog := rfl
@[simp] theorem State.adv_boot (s : State) : (s.adv).boot = s.boot := rfl
@[simp] theorem State.adv_fuse (s : State) : (s.adv).fuse = s.fuse := rfl
@[simp] theorem State.adv_hostRead (s : State) : (s.adv).hostRead = s.hostRead := rfl
@[simp] theorem State.adv_mgmtRead (s : State) : (s.adv).mgmtRead = s.mgmtRead := rfl
@[simp] theorem State.adv_now (s : State) : (s.adv).now = s.now := rfl
@[simp] theorem State.adv_cur (s : State) : (s.adv).cur = s.cur := rfl
@[simp] theorem State.adv_served (s : State) : (s.adv).served = s.served := rfl
@[simp] theorem State.adv_lost (s : State) : (s.adv).lost = s.lost := rfl
@[simp] theorem State.adv_owed (s : State) : (s.adv).owed = s.owed := rfl
@[simp] theorem State.adv_taken (s : State) : (s.adv).taken = s.taken := rfl
@[simp] theorem State.adv_agenda (s : State) : (s.adv).agenda = s.agenda := rfl
@[simp] theorem State.adv_free (s : State) : (s.adv).free = s.free := rfl
@[simp] theorem State.adv_nextId (s : State) : (s.adv).nextId = s.nextId := rfl
@[simp] theorem State.adv_core (s : State) (j : Nat) : (s.adv).core j = s.core j := rfl
@[simp] theorem State.adv_clu (s : State) (j : Nat) : (s.adv).clu j = s.clu j := rfl
@[simp] theorem State.adv_part (s : State) (j : Nat) : (s.adv).part j = s.part j := rfl

/-! What the changed part reads. -/

theorem State.modCtx_ctx (s : State) (sid j : Nat) (f : Ctx → Ctx) : (s.modCtx sid f).ctx j = if j = sid then f (s.ctx sid) else s.ctx j :=
  Tab.get_set _ _ _ _ _

@[simp] theorem State.modCtx_self (s : State) (sid : Nat) (f : Ctx → Ctx) : (s.modCtx sid f).ctx sid = f (s.ctx sid) := by
  simp [State.modCtx_ctx]

theorem State.modCtx_other (s : State) (sid j : Nat) (f : Ctx → Ctx) (h : j ≠ sid) : (s.modCtx sid f).ctx j = s.ctx j := by
  simp [State.modCtx_ctx, h]

@[simp] theorem State.upd_me (s : State) (f : Ctx → Ctx) : (s.upd f).me = f s.me := by
  simp [State.upd, State.me]

theorem State.upd_other (s : State) (j : Nat) (f : Ctx → Ctx) (h : j ≠ s.cur) : (s.upd f).ctx j = s.ctx j := State.modCtx_other s s.cur j f h

theorem State.modCore_core (s : State) (ci j : Nat) (f : CoreSt → CoreSt) :
    (s.modCore ci f).core j = if j = ci then f (s.core ci) else s.core j :=
  Tab.get_set _ _ _ _ _

@[simp] theorem State.modCore_self (s : State) (ci : Nat) (f : CoreSt → CoreSt) : (s.modCore ci f).core ci = f (s.core ci) := by
  simp [State.modCore_core]

theorem State.modCore_other (s : State) (ci j : Nat) (f : CoreSt → CoreSt) (h : j ≠ ci) : (s.modCore ci f).core j = s.core j := by
  simp [State.modCore_core, h]

theorem State.modClu_clu (s : State) (cl j : Nat) (f : Cluster → Cluster) :
    (s.modClu cl f).clu j = if j = cl then f (s.clu cl) else s.clu j :=
  Tab.get_set _ _ _ _ _

@[simp] theorem State.modClu_self (s : State) (cl : Nat) (f : Cluster → Cluster) : (s.modClu cl f).clu cl = f (s.clu cl) := by
  simp [State.modClu_clu]

theorem State.modPart_part (s : State) (p j : Nat) (f : Part → Part) :
    (s.modPart p f).part j = if j = p then f (s.part p) else s.part j :=
  Tab.get_set _ _ _ _ _

@[simp] theorem State.modPart_self (s : State) (p : Nat) (f : Part → Part) : (s.modPart p f).part p = f (s.part p) := by
  simp [State.modPart_part]

@[simp] theorem State.adv_me (s : State) : s.adv.me = { s.me with pc := s.me.pc + 4 } := by
  simp [State.adv]

theorem State.adv_other (s : State) (j : Nat) (h : j ≠ s.cur) : s.adv.ctx j = s.ctx j := State.upd_other s j _ h

/-! Reads of bytes. -/

@[simp] theorem State.modCtx_physRead (s : State) (sid : Nat) (f : Ctx → Ctx) (a n : Nat) : (s.modCtx sid f).physRead a n = s.physRead a n := rfl
@[simp] theorem State.modCore_physRead (s : State) (ci : Nat) (f : CoreSt → CoreSt) (a n : Nat) : (s.modCore ci f).physRead a n = s.physRead a n := rfl
@[simp] theorem State.modClu_physRead (s : State) (cl : Nat) (f : Cluster → Cluster) (a n : Nat) : (s.modClu cl f).physRead a n = s.physRead a n := rfl
@[simp] theorem State.modPart_physRead (s : State) (p : Nat) (f : Part → Part) (a n : Nat) : (s.modPart p f).physRead a n = s.physRead a n := rfl
@[simp] theorem State.modCtx_spadRead (s : State) (sid : Nat) (f : Ctx → Ctx) (cl a n : Nat) : (s.modCtx sid f).spadRead cl a n = s.spadRead cl a n := rfl
@[simp] theorem State.modCore_spadRead (s : State) (ci : Nat) (f : CoreSt → CoreSt) (cl a n : Nat) : (s.modCore ci f).spadRead cl a n = s.spadRead cl a n := rfl

/-- A physical write keeps the canonical form of both memories. -/
theorem State.physWrite_wf (s : State) (pa n v be : Nat) (h : s.mem.wf = true) (hh : s.hostMem.wf = true) :
    (s.physWrite pa n v be).mem.wf = true ∧ (s.physWrite pa n v be).hostMem.wf = true := by
  unfold State.physWrite
  split
  · exact ⟨Memory.wf_writeMasked _ _ _ _ _ h, hh⟩
  · exact ⟨h, Memory.wf_writeMasked _ _ _ _ _ hh⟩

/-- A scratchpad store keeps the canonical form. -/
theorem Cluster.store_wf (c : Cluster) (now off size v be : Nat) (h : c.spad.wf = true) : (c.store now off size v be).spad.wf = true :=
  Memory.wf_writeMasked _ _ _ _ _ h

/-- A physical write leaves every byte outside it. -/
theorem State.physWrite_outside (s : State) (pa n v be b k : Nat) (h : b + k ≤ pa ∨ pa + n ≤ b)
    (hb : b + k ≤ hostBase ∨ hostBase ≤ b) : (s.physWrite pa n v be).physRead b k = s.physRead b k := by
  unfold State.physWrite State.physRead
  split <;> split <;> first | rfl | exact Memory.readN_writeMasked_outside _ _ _ _ _ _ _ (by omega)

/-- The memories after reset are in canonical form. -/
theorem State.reset_mem_wf : State.reset.mem.wf = true ∧ State.reset.hostMem.wf = true := ⟨rfl, rfl⟩

end Sys2Proof.Machine
end

