-- ==== Sys2Proof/Laws/Ops.lean ====
section
/-!
SUPPORT. What each shared operation can do: registers, the issue of an instruction, its three other ends, trapping, operand fields, and
accesses at the bank unit.
-/

namespace Sys2Proof.Machine

/-! Numbers. -/

/-- A read of `n` bytes is below 2^(8n). -/
theorem Memory.readN_lt (m : Memory) (a n : Nat) : m.readN a n < 2 ^ (8 * n) := by
  induction n with
  | zero => simp [Memory.readN]
  | succ n ih =>
    simp only [Memory.readN]
    have hb := (m.read (a + n)).isLt
    have e : 2 ^ (8 * (n + 1)) = 2 ^ (8 * n) * 256 := by rw [show 8 * (n + 1) = 8 * n + 8 by ring, pow_add]; norm_num
    rw [e]; nlinarith [Nat.one_le_two_pow (n := 8 * n)]

/-- The next word's address. -/
theorem pc_next (pc : BitVec 56) : pc + 4 = pcMoved pc 1 := by
  unfold pcMoved; apply BitVec.eq_of_toNat_eq; simp [BitVec.toNat_ofInt]; omega

/-! Registers (R6). -/

@[simp] theorem Ctx.rx_zero (c : Ctx) : c.rx 0 = 0 := rfl

/-- A write to x0 is discarded, and every other write is read back. -/
theorem Ctx.wxAt_rx (c : Ctx) (n m : BitVec 5) (v : Word) (k : Nat) : (c.wxAt k n v).rx m = if m = n ∧ n ≠ 0 then v else c.rx m := by
  unfold Ctx.wxAt Ctx.rx
  by_cases hn : n = 0
  · simp [hn]
  · by_cases h : m = n
    · subst h; rw [if_neg hn, if_neg hn, if_pos ⟨rfl, hn⟩]; simp
    · have hv : m.toNat ≠ n.toNat := fun e => h (BitVec.eq_of_toNat_eq e)
      simp only [hn, h, if_false, false_and]
      split
      · rfl
      · rw [Vector.getElem_set_ne]; exact hv.symm

theorem Ctx.wx_rx (c : Ctx) (n m : BitVec 5) (v : Word) : (c.wx n v).rx m = if m = n ∧ n ≠ 0 then v else c.rx m := Ctx.wxAt_rx c n m v c.serial

@[simp] theorem Ctx.wx_zero (c : Ctx) (v : Word) : c.wx 0 v = c := rfl

/-- What a register write leaves: everything but the registers and the history a meeting keeps. -/
theorem Ctx.wxAt_frame (c : Ctx) (n : BitVec 5) (v : Word) (k : Nat) :
    c.wxAt k n v = { c with x := (c.wxAt k n v).x, meet := (c.wxAt k n v).meet } := by
  unfold Ctx.wxAt; split <;> rfl

theorem Ctx.wv_rv (c : Ctx) (n m : BitVec 4) (r : VReg) : (c.wv n r).rv m = if m = n then r else c.rv m := by
  unfold Ctx.wv Ctx.rv
  by_cases h : m = n
  · subst h; simp
  · simp only [h, if_false]; rw [Vector.getElem_set_ne]; intro e; exact h (BitVec.eq_of_toNat_eq e.symm)

theorem Ctx.wk_rk (c : Ctx) (n m : BitVec 3) (r : KReg) : (c.wk n r).rk m = if m = n then r else c.rk m := by
  unfold Ctx.wk Ctx.rk
  by_cases h : m = n
  · subst h; simp
  · simp only [h, if_false]; rw [Vector.getElem_set_ne]; intro e; exact h (BitVec.eq_of_toNat_eq e.symm)

/-! The issue of an instruction (R65, R187). -/

theorem State.issued_me (s : State) (p : Bool) :
    (s.issued p).me = { s.me with charge := .issue, lastIssue := s.now, mret := false, serial := if p then s.me.serial else s.me.serial + 1 } := by
  unfold State.issued; split <;> simp [State.me]

@[simp] theorem State.issued_cur (s : State) (p : Bool) : (s.issued p).cur = s.cur := by
  unfold State.issued; split <;> simp

@[simp] theorem State.issued_now (s : State) (p : Bool) : (s.issued p).now = s.now := by
  unfold State.issued; split <;> simp

theorem State.issued_other (s : State) (p : Bool) (j : Nat) (h : j ≠ s.cur) : (s.issued p).ctx j = s.ctx j := by
  unfold State.issued; split <;> simp [State.modCtx_ctx, h]

@[simp] theorem State.issued_clu (s : State) (p : Bool) (j : Nat) : (s.issued p).clu j = s.clu j := by
  unfold State.issued; split <;> simp

@[simp] theorem State.issued_reqs (s : State) (p : Bool) : (s.issued p).reqs = s.reqs := by
  unfold State.issued; split <;> simp

@[simp] theorem State.issued_mem (s : State) (p : Bool) : (s.issued p).mem = s.mem := by
  unfold State.issued; split <;> simp

@[simp] theorem State.issued_hostMem (s : State) (p : Bool) : (s.issued p).hostMem = s.hostMem := by
  unfold State.issued; split <;> simp

@[simp] theorem State.issued_physRead (s : State) (p : Bool) (a n : Nat) : (s.issued p).physRead a n = s.physRead a n := by
  unfold State.issued; split <;> simp

@[simp] theorem State.issued_spadRead (s : State) (p : Bool) (cl a n : Nat) : (s.issued p).spadRead cl a n = s.spadRead cl a n := by
  unfold State.issued; split <;> simp

/-- Of a core nothing but MPROG changes, and what its port's restores load there. -/
theorem State.issued_core (s : State) (p : Bool) (ci : Nat) :
    { (s.issued p).core ci with mprog := 0, port := [] } = { s.core ci with mprog := 0, port := [] } := by
  unfold State.issued
  split
  · simp only [State.modCtx_core, State.modCore_core]; split
    · rename_i h; subst h; split <;> rfl
    · rfl
  · rfl

/-! The ends of an instruction. -/

@[simp] theorem finish_ok (s t : State) : finish s (.ok t) = .next (t.issued false) := rfl
@[simp] theorem finish_wait (s : State) (k : Cause) : finish s (.wait k) = .next (s.upd fun c => { c with charge := k }) := rfl
@[simp] theorem finish_hold (s t : State) (k : Cause) : finish s (.hold t k) = .next (t.upd fun c => { c with charge := k }) := rfl
@[simp] theorem finish_trap (s : State) (t : Trap) (v : Word) : finish s (.trap t v) = .next (s.trap t v s.me.pc) := rfl
@[simp] theorem finishPort_ok (s t : State) : finishPort s (.ok t) = .next (t.issued true) := rfl
@[simp] theorem finishPort_wait (s : State) (k : Cause) : finishPort s (.wait k) = .next (s.upd fun c => { c with charge := k }) := rfl
@[simp] theorem finishPort_trap (s : State) (t : Trap) (v : Word) : finishPort s (.trap t v) = .next (s.trap t v s.me.pc) := rfl

/-- A meaning over `finish` answers a next state. -/
theorem finish_next (s : State) (r : Res) : ∃ t, finish s r = .next t := by cases r <;> exact ⟨_, rfl⟩
theorem finishPort_next (s : State) (r : Res) : ∃ t, finishPort s r = .next t := by cases r <;> exact ⟨_, rfl⟩

/-- What it answers: the issue, the wait, the hold, or the trap. -/
theorem finish_cases {s t : State} {r : Res} (h : finish s r = .next t) :
    (∃ u, r = .ok u ∧ t = u.issued false) ∨ (∃ k, r = .wait k ∧ t = s.upd fun c => { c with charge := k }) ∨
      (∃ u k, r = .hold u k ∧ t = u.upd fun c => { c with charge := k }) ∨ ∃ x v, r = .trap x v ∧ t = s.trap x v s.me.pc := by
  cases r <;> cases h
  · exact .inl ⟨_, rfl, rfl⟩
  · exact .inr (.inl ⟨_, rfl, rfl⟩)
  · exact .inr (.inr (.inl ⟨_, _, rfl, rfl⟩))
  · exact .inr (.inr (.inr ⟨_, _, rfl, rfl⟩))

/-! Trapping (R324). -/

/-- A trap that nothing holds back, outside a meeting: the frame that replays leaves the sequencer, the context enters its handler as R324 says, and
the handler's first instruction waits for its fetch. -/
theorem State.trapAs_enters (s : State) (sid : Nat) (own async : Bool) (t : Trap) (v : Word) (epc : BitVec 56) (hb : s.trapBlock sid = none)
    (hm : (s.ctx sid).inmeet = false) : s.trapAs sid own async t v epc = (s.stopFrame sid).modCtx sid fun c => { c.trapEnter async t v epc with
      charge := .issue, lastIssue := if own then s.now else c.lastIssue, pause := some (.redirect, s.redirectEnd sid own) } := by
  simp only [State.trapAs, hb, hm]

/-- A trap that waits changes the cause that is charged, and nothing else. -/
theorem State.trapAs_waits (s : State) (sid : Nat) (own async : Bool) (t : Trap) (v : Word) (epc : BitVec 56) (k : Cause) (hb : s.trapBlock sid = some k) :
    s.trapAs sid own async t v epc = s.modCtx sid fun c => { c with charge := k } := by
  simp only [State.trapAs, hb]

/-- A trap at a meeting: the partner is told at once, and once it touches the parcel no more the context parts, with the trap (R221, R222). -/
theorem State.trapAs_parts (s : State) (sid : Nat) (own async : Bool) (t : Trap) (v : Word) (epc : BitVec 56) (m : Meeting) (hb : s.trapBlock sid = none)
    (hm : (s.ctx sid).inmeet = true) (hw : (s.ctx sid).meet = some m) : s.trapAs sid own async t v epc =
      if (s.partTakes sid m).partnerTouches sid m then (s.partTakes sid m).modCtx sid fun c => { c with charge := .fence }
      else ((s.partTakes sid m).partEffect sid epc (some { async := async, t := t, tval := v, epc := epc, cap := (s.ctx sid).cap, framepc := (s.ctx sid).framepc })
        (if own then 1 else 0)).modCtx sid fun c => { c with charge := .issue } := by
  simp only [State.trapAs, hb, hm, hw]

theorem Ctx.trapEnter_rx (c : Ctx) (a : Bool) (t : Trap) (v : Word) (epc : BitVec 56) (m : BitVec 5) : (c.trapEnter a t v epc).rx m = c.rx m := rfl

/-! Operand fields (R78 to R80). -/

@[simp] theorem State.popAll_nil (s : State) (sid : Nat) : s.popAll sid [] = s := rfl
@[simp] theorem State.readSrc_x (s : State) (taken : List Target) (n : BitVec 5) : s.readSrc taken (.x n) = some (s.me.rx n, taken) := rfl
@[simp] theorem State.writeDst_x (s : State) (n : BitVec 5) (v : Word) : s.writeDst 1 (.x n) v = s.upd fun c => c.wx n v := rfl

@[simp] theorem State.modEng_physRead (s : State) (sid e : Nat) (f : StreamEng → StreamEng) (a n : Nat) : (s.modEng sid e f).physRead a n = s.physRead a n := rfl
@[simp] theorem State.modEng_clu (s : State) (sid e : Nat) (f : StreamEng → StreamEng) (j : Nat) : (s.modEng sid e f).clu j = s.clu j := rfl

/-- Channels move no byte of memory. -/
theorem State.popTarget_bytes (s : State) (sid n : Nat) (t : Target) :
    (∀ a k, (s.popTarget sid n t).physRead a k = s.physRead a k) ∧ (∀ j, (s.popTarget sid n t).clu j = s.clu j) ∧ (s.popTarget sid n t).cur = s.cur := by
  cases t <;> exact ⟨fun _ _ => rfl, fun _ => rfl, rfl⟩

theorem State.pushTarget_bytes (s : State) (sid v : Nat) (t : Target) :
    (∀ a k, (s.pushTarget sid v t).physRead a k = s.physRead a k) ∧ (∀ j, (s.pushTarget sid v t).clu j = s.clu j) ∧ (s.pushTarget sid v t).cur = s.cur := by
  cases t <;> exact ⟨fun _ _ => rfl, fun _ => rfl, rfl⟩

theorem State.popAll_bytes (sid : Nat) (l : List Target) (s : State) :
    (∀ a k, (s.popAll sid l).physRead a k = s.physRead a k) ∧ (∀ j, (s.popAll sid l).clu j = s.clu j) ∧ (s.popAll sid l).cur = s.cur := by
  induction l generalizing s with
  | nil => exact ⟨fun _ _ => rfl, fun _ => rfl, rfl⟩
  | cons t l ih =>
    obtain ⟨h1, h2, h3⟩ := ih (s.popTarget sid 1 t)
    obtain ⟨g1, g2, g3⟩ := s.popTarget_bytes sid 1 t
    exact ⟨fun a k => (h1 a k).trans (g1 a k), fun j => (h2 j).trans (g2 j), h3.trans g3⟩

/-- A form whose fields hold nothing back is not stopped there. -/
theorem State.fieldStop_none (s : State) (w : Word) (d : List Dst) (srcs : List Src) (rs : List Nat) (vs : List Word) (t : List Target)
    (h : s.fieldsReady d srcs rs) (hr : s.readSrcs [] srcs = some (vs, t)) : s.fieldStop w d srcs rs [] = none := by
  obtain ⟨h1, h2, h3, h4⟩ := h
  have h5 : s.me.awaitsFor (rs ++ srcs.flatMap srcRes) (d.flatMap dstRes) = none := by simpa [Ctx.awaits, Ctx.awaitsFor] using h1
  simp only [State.fieldStop, h5, h2, h3, hr, h4, firstCause, Option.isNone_some, Bool.false_eq_true, if_false, Option.map_none]

/-- A scalar form of two sources that nothing holds back performs its function. -/
theorem scalar2_ok (s : State) (w : Word) (l : Nat) (d : Dst) (a b : Src) (f : Word → Word → Word) (x y : Word) (t : List Target)
    (hr : s.readSrcs [] [a, b] = some ([x, y], t)) (h : s.fieldsReady [d] [a, b] []) :
    finish s (scalar2 s w l d a b f) = finish s (s.retire l [a, b] t d (f x y)) := by
  simp only [scalar2, s.fieldStop_none w _ _ _ _ _ h hr, hr]

/-- A scalar form of one source that nothing holds back performs its function. -/
theorem scalar1_ok (s : State) (w : Word) (l : Nat) (d : Dst) (a : Src) (f : Word → Word) (x : Word) (t : List Target)
    (hr : s.readSrcs [] [a] = some ([x], t)) (h : s.fieldsReady [d] [a] []) :
    finish s (scalar1 s w l d a f) = finish s (s.retire l [a] t d (f x)) := by
  simp only [scalar1, s.fieldStop_none w _ _ _ _ _ h hr, hr]

/-! The bank unit (R116). -/

/-- A store of whole bytes reads back, and leaves every other byte. -/
theorem State.spadWrite_read (s : State) (cl off n v : Nat) (cl' a k : Nat) (h : cl' ≠ cl ∨ a + k ≤ off ∨ off + n ≤ a) :
    (s.spadWrite cl off n v).spadRead cl' a k = s.spadRead cl' a k := by
  unfold State.spadWrite State.spadRead
  rw [State.modClu_clu]
  split
  · rename_i e; subst e
    exact Memory.readN_writeMasked_outside _ _ _ _ _ _ _ (by rcases h with h | h | h <;> [exact absurd rfl h; exact .inl h; exact .inr h])
  · rfl

@[simp] theorem State.spadWrite_physRead (s : State) (cl off n v a k : Nat) : (s.spadWrite cl off n v).physRead a k = s.physRead a k := rfl
@[simp] theorem State.spadWrite_ctx (s : State) (cl off n v j : Nat) : (s.spadWrite cl off n v).ctx j = s.ctx j := rfl
@[simp] theorem State.spadWrite_core (s : State) (cl off n v j : Nat) : (s.spadWrite cl off n v).core j = s.core j := rfl

/-- A load's performance delivers its bytes, and a store's writes them. -/
theorem State.bankPerform_load (s : State) (sid : Nat) (d : Dst) (sg : Bool) (cl off n ser : Nat) :
    s.bankPerform sid { op := .load d sg false, cl := cl, tags := false, off := off, size := n, serial := ser } =
      (s.deliverAt sid ser (s.now + bankLatency) d (extend sg n (s.spadRead cl off n))).modCtx sid fun c => c := rfl

theorem State.bankPerform_store (s : State) (sid : Nat) (v : Word) (cl off n ser : Nat) :
    s.bankPerform sid { op := .store v, cl := cl, tags := false, off := off, size := n, serial := ser } = s.spadWrite cl off n v.toNat := rfl

/-! Requests to the memory side. -/

@[simp] theorem State.request_ctx (s : State) (k : ReqKind) (st : ReqStage) (va n pa d be e : Nat) (j : Nat) : (s.request k st va n pa d be e).ctx j = s.ctx j := rfl
@[simp] theorem State.request_core (s : State) (k : ReqKind) (st : ReqStage) (va n pa d be e : Nat) (j : Nat) : (s.request k st va n pa d be e).core j = s.core j := rfl
@[simp] theorem State.request_clu (s : State) (k : ReqKind) (st : ReqStage) (va n pa d be e : Nat) (j : Nat) : (s.request k st va n pa d be e).clu j = s.clu j := rfl
@[simp] theorem State.request_physRead (s : State) (k : ReqKind) (st : ReqStage) (va n pa d be e a b : Nat) :
    (s.request k st va n pa d be e).physRead a b = s.physRead a b := rfl

end Sys2Proof.Machine
end

