-- ==== Sys2Proof/Laws/PerInstr.lean ====
section
/-!
SUPPORT. One lemma per constructor: the decoder reads back the word that the encoder writes (R75 to R90).
-/

namespace Sys2Proof

/-! What reading an operand field gives. -/

theorem dstOf_dstBits (d : Dst) : dstOf (dstBits d) = d := by
  cases d with
  | x n => revert n; decide
  | ch n => revert n; decide

theorem vdstOf_vdstBits (d : VDst) : vdstOf (vdstBits d) = d := by
  cases d with
  | v n => revert n; decide
  | ch n => revert n; decide

theorem xdstOf_xdstBits (d : XDst) : xdstOf (xdstBits d) = d := by
  cases d with
  | x n => revert n; decide
  | ch n => revert n; decide

theorem srcOf_srcBits (a : Src) : srcOf (srcBits a) = some a := by
  cases a with
  | x n => revert n; decide
  | ch n p => revert n p; decide

theorem vsrcOf_vsrcBits (a : VSrc) : vsrcOf (vsrcBits a) = some a := by
  cases a with
  | v n => revert n; decide
  | ch n p => revert n p; decide

theorem xsrcOf_xsrcBits (a : XSrc) : xsrcOf (xsrcBits a) = some a := by
  cases a with
  | x n => revert n; decide
  | ch n p => revert n p; decide

theorem dstOf_ldBits (d : Dst) : dstOf ((ldBits d).extractLsb' 6 1 ++ (ldBits d).extractLsb' 0 5) = d := by
  cases d with
  | x n => revert n; decide
  | ch n => revert n; decide

theorem ldBits_peek (d : Dst) : (ldBits d).extractLsb' 5 1 = 0 := by
  cases d with
  | x n => revert n; decide
  | ch n => revert n; decide

theorem low_r6 (n : BitVec 5) : low 5 1 (r6 n) = some n := by revert n; decide
theorem low_r7 (n : BitVec 5) : low 5 2 (r7 n) = some n := by revert n; decide
theorem low_v4 (n : BitVec 4) : low 4 1 (0#1 ++ n) = some n := by revert n; decide
theorem low_4_2 (n : BitVec 4) : low 4 2 (0#2 ++ n) = some n := by revert n; decide
theorem low_4_3 (n : BitVec 4) : low 4 3 (0#3 ++ n) = some n := by revert n; decide
theorem low_3_2 (n : BitVec 3) : low 3 2 (0#2 ++ n) = some n := by revert n; decide
theorem low_3_3 (n : BitVec 3) : low 3 3 (0#3 ++ n) = some n := by revert n; decide
theorem low_2_3 (n : BitVec 2) : low 2 3 (0#3 ++ n) = some n := by revert n; decide

/-- The tile and accumulator of MLDA and MSTA (R183). -/
theorem low_tile (t : BitVec 4) (n : Bool) : low 5 1 (0#1 ++ t ++ BitVec.ofBool n) = some (t ++ BitVec.ofBool n) := by
  revert t n; decide
theorem tile_high (t : BitVec 4) (n : Bool) : (t ++ BitVec.ofBool n).extractLsb' 1 4 = t := by revert t n; decide
theorem tile_low (t : BitVec 4) (n : Bool) : (t ++ BitVec.ofBool n)[0] = n := by revert t n; decide

/-- A field is its two parts. -/
theorem fld_1_8 (w : IWord) : fld w 1 8 = fld w 4 5 ++ fld w 1 3 := by
  apply BitVec.eq_of_getLsbD_eq
  intro i hi
  simp only [fld, BitVec.getLsbD_append, BitVec.getLsbD_extractLsb']
  split
  · next h => simp [h, hi]
  · have h : i - 3 < 5 := by omega
    have h' : 4 + (i - 3) = 1 + i := by omega
    simp [hi, h, h']

/-- The operator of VRED (R150). -/
theorem red_high (o : BitVec 3) : BitVec.extractLsb' 3 3 (0#3 ++ o) = 0 := by revert o; decide
theorem red_low (o : BitVec 3) : BitVec.extractLsb' 0 3 (0#3 ++ o) = o := by revert o; decide

/-- The M field of VPLANE (R155). -/
theorem plane_zero (p : BitVec 3) (h u : Bool) : BitVec.extractLsb' 5 1 (0#1 ++ p ++ BitVec.ofBool h ++ BitVec.ofBool u) = 0 := by
  revert p h u; decide
theorem plane_p (p : BitVec 3) (h u : Bool) : BitVec.extractLsb' 2 3 (0#1 ++ p ++ BitVec.ofBool h ++ BitVec.ofBool u) = p := by
  revert p h u; decide
theorem plane_h (p : BitVec 3) (h u : Bool) : (BitVec.extractLsb' 1 1 (0#1 ++ p ++ BitVec.ofBool h ++ BitVec.ofBool u) == 1#1) = h := by
  revert p h u; decide
theorem plane_u (p : BitVec 3) (h u : Bool) : (BitVec.extractLsb' 0 1 (0#1 ++ p ++ BitVec.ofBool h ++ BitVec.ofBool u) == 1#1) = u := by
  revert p h u; decide

/-- The function and amount of a shift by an immediate (R100). -/
theorem shift_high (c : BitVec 7) (n : BitVec 6) : BitVec.extractLsb' (n := 13) 6 7 (c ++ n) = c := by
  rw [extract_append_high _ _ _ _ (by omega)]; simp
theorem shift_low (c : BitVec 7) (n : BitVec 6) : BitVec.extractLsb' (n := 13) 0 6 (c ++ n) = n := by
  rw [extract_append_low _ _ _ _ (by omega)]; simp

end Sys2Proof

namespace Sys2Proof.Laws.RoundTrip

set_option Elab.async false

/-- The word of a well-formed instruction, if it has one, decodes to it. -/
def Statement (i : Instr) : Prop := wellFormed i = true → ∀ w, encode i = some w → decode w = some i


theorem add : ∀ d a b, Statement (.add d a b) := by
  intro d a b hw w h
  cases h
  simp [-BitVec.extractLsb'_toNat, decA3, decOp, decode, decodeRaw, fld_encA_op, fld_encA_d, fld_encA_a, fld_encA_b, fld_encA_f, dstOf_dstBits, srcOf_srcBits, hw]

theorem sub : ∀ d a b, Statement (.sub d a b) := by
  intro d a b hw w h
  cases h
  simp [-BitVec.extractLsb'_toNat, decA3, decOp, decode, decodeRaw, fld_encA_op, fld_encA_d, fld_encA_a, fld_encA_b, fld_encA_f, dstOf_dstBits, srcOf_srcBits, hw]

theorem and : ∀ d a b, Statement (.and d a b) := by
  intro d a b hw w h
  cases h
  simp [-BitVec.extractLsb'_toNat, decA3, decOp, decode, decodeRaw, fld_encA_op, fld_encA_d, fld_encA_a, fld_encA_b, fld_encA_f, dstOf_dstBits, srcOf_srcBits, hw]

theorem or : ∀ d a b, Statement (.or d a b) := by
  intro d a b hw w h
  cases h
  simp [-BitVec.extractLsb'_toNat, decA3, decOp, decode, decodeRaw, fld_encA_op, fld_encA_d, fld_encA_a, fld_encA_b, fld_encA_f, dstOf_dstBits, srcOf_srcBits, hw]

theorem xor : ∀ d a b, Statement (.xor d a b) := by
  intro d a b hw w h
  cases h
  simp [-BitVec.extractLsb'_toNat, decA3, decOp, decode, decodeRaw, fld_encA_op, fld_encA_d, fld_encA_a, fld_encA_b, fld_encA_f, dstOf_dstBits, srcOf_srcBits, hw]

theorem andn : ∀ d a b, Statement (.andn d a b) := by
  intro d a b hw w h
  cases h
  simp [-BitVec.extractLsb'_toNat, decA3, decOp, decode, decodeRaw, fld_encA_op, fld_encA_d, fld_encA_a, fld_encA_b, fld_encA_f, dstOf_dstBits, srcOf_srcBits, hw]

theorem sll : ∀ d a b, Statement (.sll d a b) := by
  intro d a b hw w h
  cases h
  simp [-BitVec.extractLsb'_toNat, decA3, decOp, decode, decodeRaw, fld_encA_op, fld_encA_d, fld_encA_a, fld_encA_b, fld_encA_f, dstOf_dstBits, srcOf_srcBits, hw]

theorem srl : ∀ d a b, Statement (.srl d a b) := by
  intro d a b hw w h
  cases h
  simp [-BitVec.extractLsb'_toNat, decA3, decOp, decode, decodeRaw, fld_encA_op, fld_encA_d, fld_encA_a, fld_encA_b, fld_encA_f, dstOf_dstBits, srcOf_srcBits, hw]

theorem sra : ∀ d a b, Statement (.sra d a b) := by
  intro d a b hw w h
  cases h
  simp [-BitVec.extractLsb'_toNat, decA3, decOp, decode, decodeRaw, fld_encA_op, fld_encA_d, fld_encA_a, fld_encA_b, fld_encA_f, dstOf_dstBits, srcOf_srcBits, hw]

theorem rol : ∀ d a b, Statement (.rol d a b) := by
  intro d a b hw w h
  cases h
  simp [-BitVec.extractLsb'_toNat, decA3, decOp, decode, decodeRaw, fld_encA_op, fld_encA_d, fld_encA_a, fld_encA_b, fld_encA_f, dstOf_dstBits, srcOf_srcBits, hw]

theorem slt : ∀ d a b, Statement (.slt d a b) := by
  intro d a b hw w h
  cases h
  simp [-BitVec.extractLsb'_toNat, decA3, decOp, decode, decodeRaw, fld_encA_op, fld_encA_d, fld_encA_a, fld_encA_b, fld_encA_f, dstOf_dstBits, srcOf_srcBits, hw]

theorem sltu : ∀ d a b, Statement (.sltu d a b) := by
  intro d a b hw w h
  cases h
  simp [-BitVec.extractLsb'_toNat, decA3, decOp, decode, decodeRaw, fld_encA_op, fld_encA_d, fld_encA_a, fld_encA_b, fld_encA_f, dstOf_dstBits, srcOf_srcBits, hw]

theorem min : ∀ d a b, Statement (.min d a b) := by
  intro d a b hw w h
  cases h
  simp [-BitVec.extractLsb'_toNat, decA3, decOp, decode, decodeRaw, fld_encA_op, fld_encA_d, fld_encA_a, fld_encA_b, fld_encA_f, dstOf_dstBits, srcOf_srcBits, hw]

theorem max : ∀ d a b, Statement (.max d a b) := by
  intro d a b hw w h
  cases h
  simp [-BitVec.extractLsb'_toNat, decA3, decOp, decode, decodeRaw, fld_encA_op, fld_encA_d, fld_encA_a, fld_encA_b, fld_encA_f, dstOf_dstBits, srcOf_srcBits, hw]

theorem minu : ∀ d a b, Statement (.minu d a b) := by
  intro d a b hw w h
  cases h
  simp [-BitVec.extractLsb'_toNat, decA3, decOp, decode, decodeRaw, fld_encA_op, fld_encA_d, fld_encA_a, fld_encA_b, fld_encA_f, dstOf_dstBits, srcOf_srcBits, hw]

theorem maxu : ∀ d a b, Statement (.maxu d a b) := by
  intro d a b hw w h
  cases h
  simp [-BitVec.extractLsb'_toNat, decA3, decOp, decode, decodeRaw, fld_encA_op, fld_encA_d, fld_encA_a, fld_encA_b, fld_encA_f, dstOf_dstBits, srcOf_srcBits, hw]

theorem mul : ∀ d a b, Statement (.mul d a b) := by
  intro d a b hw w h
  cases h
  simp [-BitVec.extractLsb'_toNat, decA3, decOp, decode, decodeRaw, fld_encA_op, fld_encA_d, fld_encA_a, fld_encA_b, fld_encA_f, dstOf_dstBits, srcOf_srcBits, hw]

theorem mulh : ∀ d a b, Statement (.mulh d a b) := by
  intro d a b hw w h
  cases h
  simp [-BitVec.extractLsb'_toNat, decA3, decOp, decode, decodeRaw, fld_encA_op, fld_encA_d, fld_encA_a, fld_encA_b, fld_encA_f, dstOf_dstBits, srcOf_srcBits, hw]

theorem mulhu : ∀ d a b, Statement (.mulhu d a b) := by
  intro d a b hw w h
  cases h
  simp [-BitVec.extractLsb'_toNat, decA3, decOp, decode, decodeRaw, fld_encA_op, fld_encA_d, fld_encA_a, fld_encA_b, fld_encA_f, dstOf_dstBits, srcOf_srcBits, hw]

theorem div : ∀ d a b, Statement (.div d a b) := by
  intro d a b hw w h
  cases h
  simp [-BitVec.extractLsb'_toNat, decA3, decOp, decode, decodeRaw, fld_encA_op, fld_encA_d, fld_encA_a, fld_encA_b, fld_encA_f, dstOf_dstBits, srcOf_srcBits, hw]

theorem divu : ∀ d a b, Statement (.divu d a b) := by
  intro d a b hw w h
  cases h
  simp [-BitVec.extractLsb'_toNat, decA3, decOp, decode, decodeRaw, fld_encA_op, fld_encA_d, fld_encA_a, fld_encA_b, fld_encA_f, dstOf_dstBits, srcOf_srcBits, hw]

theorem rem : ∀ d a b, Statement (.rem d a b) := by
  intro d a b hw w h
  cases h
  simp [-BitVec.extractLsb'_toNat, decA3, decOp, decode, decodeRaw, fld_encA_op, fld_encA_d, fld_encA_a, fld_encA_b, fld_encA_f, dstOf_dstBits, srcOf_srcBits, hw]

theorem remu : ∀ d a b, Statement (.remu d a b) := by
  intro d a b hw w h
  cases h
  simp [-BitVec.extractLsb'_toNat, decA3, decOp, decode, decodeRaw, fld_encA_op, fld_encA_d, fld_encA_a, fld_encA_b, fld_encA_f, dstOf_dstBits, srcOf_srcBits, hw]

theorem clz : ∀ d a, Statement (.clz d a) := by
  intro d a hw w h
  cases h
  simp [-BitVec.extractLsb'_toNat, decA2, decOp, decode, decodeRaw, onlyIf, fld_encA_op, fld_encA_d, fld_encA_a, fld_encA_b, fld_encA_f, dstOf_dstBits, srcOf_srcBits, hw]

theorem ctz : ∀ d a, Statement (.ctz d a) := by
  intro d a hw w h
  cases h
  simp [-BitVec.extractLsb'_toNat, decA2, decOp, decode, decodeRaw, onlyIf, fld_encA_op, fld_encA_d, fld_encA_a, fld_encA_b, fld_encA_f, dstOf_dstBits, srcOf_srcBits, hw]

theorem popc : ∀ d a, Statement (.popc d a) := by
  intro d a hw w h
  cases h
  simp [-BitVec.extractLsb'_toNat, decA2, decOp, decode, decodeRaw, onlyIf, fld_encA_op, fld_encA_d, fld_encA_a, fld_encA_b, fld_encA_f, dstOf_dstBits, srcOf_srcBits, hw]

theorem bext : ∀ d a b, Statement (.bext d a b) := by
  intro d a b hw w h
  cases h
  simp [-BitVec.extractLsb'_toNat, decA3, decOp, decode, decodeRaw, fld_encA_op, fld_encA_d, fld_encA_a, fld_encA_b, fld_encA_f, dstOf_dstBits, srcOf_srcBits, hw]

theorem bdep : ∀ d a b, Statement (.bdep d a b) := by
  intro d a b hw w h
  cases h
  simp [-BitVec.extractLsb'_toNat, decA3, decOp, decode, decodeRaw, fld_encA_op, fld_encA_d, fld_encA_a, fld_encA_b, fld_encA_f, dstOf_dstBits, srcOf_srcBits, hw]

theorem addi : ∀ d a i, Statement (.addi d a i) := by
  intro d a i hw w h
  cases h
  simp [-BitVec.extractLsb'_toNat, decI, decode, decodeRaw, fld_encI_op, fld_encI_d, fld_encI_a, fld_encI_i, dstOf_dstBits, srcOf_srcBits, hw]

theorem andi : ∀ d a i, Statement (.andi d a i) := by
  intro d a i hw w h
  cases h
  simp [-BitVec.extractLsb'_toNat, decI, decode, decodeRaw, fld_encI_op, fld_encI_d, fld_encI_a, fld_encI_i, dstOf_dstBits, srcOf_srcBits, hw]

theorem ori : ∀ d a i, Statement (.ori d a i) := by
  intro d a i hw w h
  cases h
  simp [-BitVec.extractLsb'_toNat, decI, decode, decodeRaw, fld_encI_op, fld_encI_d, fld_encI_a, fld_encI_i, dstOf_dstBits, srcOf_srcBits, hw]

theorem xori : ∀ d a i, Statement (.xori d a i) := by
  intro d a i hw w h
  cases h
  simp [-BitVec.extractLsb'_toNat, decI, decode, decodeRaw, fld_encI_op, fld_encI_d, fld_encI_a, fld_encI_i, dstOf_dstBits, srcOf_srcBits, hw]

theorem slli : ∀ d a n, Statement (.slli d a n) := by
  intro d a n hw w h
  cases h
  simp [-BitVec.extractLsb'_toNat, decShift, decShiftI, decode, decodeRaw, fld_encI_op, fld_encI_d, fld_encI_a, fld_encI_i, dstOf_dstBits, srcOf_srcBits, shift_high, shift_low, hw]

theorem srli : ∀ d a n, Statement (.srli d a n) := by
  intro d a n hw w h
  cases h
  simp [-BitVec.extractLsb'_toNat, decShift, decShiftI, decode, decodeRaw, fld_encI_op, fld_encI_d, fld_encI_a, fld_encI_i, dstOf_dstBits, srcOf_srcBits, shift_high, shift_low, hw]

theorem srai : ∀ d a n, Statement (.srai d a n) := by
  intro d a n hw w h
  cases h
  simp [-BitVec.extractLsb'_toNat, decShift, decShiftI, decode, decodeRaw, fld_encI_op, fld_encI_d, fld_encI_a, fld_encI_i, dstOf_dstBits, srcOf_srcBits, shift_high, shift_low, hw]

theorem slti : ∀ d a i, Statement (.slti d a i) := by
  intro d a i hw w h
  cases h
  simp [-BitVec.extractLsb'_toNat, decI, decode, decodeRaw, fld_encI_op, fld_encI_d, fld_encI_a, fld_encI_i, dstOf_dstBits, srcOf_srcBits, hw]

theorem sltiu : ∀ d a i, Statement (.sltiu d a i) := by
  intro d a i hw w h
  cases h
  simp [-BitVec.extractLsb'_toNat, decI, decode, decodeRaw, fld_encI_op, fld_encI_d, fld_encI_a, fld_encI_i, dstOf_dstBits, srcOf_srcBits, hw]

theorem lui : ∀ d i, Statement (.lui d i) := by
  intro d i hw w h
  cases h
  simp [-BitVec.extractLsb'_toNat, decU, decode, decodeRaw, fld_encU_op, fld_encU_d, fld_encU_i, low_r6, hw]

theorem auipc : ∀ d i, Statement (.auipc d i) := by
  intro d i hw w h
  cases h
  simp [-BitVec.extractLsb'_toNat, decU, decode, decodeRaw, fld_encU_op, fld_encU_d, fld_encU_i, low_r6, hw]

theorem beq : ∀ a b o, Statement (.beq a b o) := by
  intro a b o hw w h
  cases h
  simp [-BitVec.extractLsb'_toNat, decB, decBranch, decode, decodeRaw, fld_encB_op, fld_encB_c, fld_encB_a, fld_encB_b, fld_encB_o, hw]

theorem bne : ∀ a b o, Statement (.bne a b o) := by
  intro a b o hw w h
  cases h
  simp [-BitVec.extractLsb'_toNat, decB, decBranch, decode, decodeRaw, fld_encB_op, fld_encB_c, fld_encB_a, fld_encB_b, fld_encB_o, hw]

theorem blt : ∀ a b o, Statement (.blt a b o) := by
  intro a b o hw w h
  cases h
  simp [-BitVec.extractLsb'_toNat, decB, decBranch, decode, decodeRaw, fld_encB_op, fld_encB_c, fld_encB_a, fld_encB_b, fld_encB_o, hw]

theorem bge : ∀ a b o, Statement (.bge a b o) := by
  intro a b o hw w h
  cases h
  simp [-BitVec.extractLsb'_toNat, decB, decBranch, decode, decodeRaw, fld_encB_op, fld_encB_c, fld_encB_a, fld_encB_b, fld_encB_o, hw]

theorem bltu : ∀ a b o, Statement (.bltu a b o) := by
  intro a b o hw w h
  cases h
  simp [-BitVec.extractLsb'_toNat, decB, decBranch, decode, decodeRaw, fld_encB_op, fld_encB_c, fld_encB_a, fld_encB_b, fld_encB_o, hw]

theorem bgeu : ∀ a b o, Statement (.bgeu a b o) := by
  intro a b o hw w h
  cases h
  simp [-BitVec.extractLsb'_toNat, decB, decBranch, decode, decodeRaw, fld_encB_op, fld_encB_c, fld_encB_a, fld_encB_b, fld_encB_o, hw]

theorem jal : ∀ d o, Statement (.jal d o) := by
  intro d o hw w h
  cases h
  simp [-BitVec.extractLsb'_toNat, decU, decode, decodeRaw, fld_encU_op, fld_encU_d, fld_encU_i, low_r6, hw]

theorem jalr : ∀ d a i, Statement (.jalr d a i) := by
  intro d a i hw w h
  cases h
  simp [-BitVec.extractLsb'_toNat, decS, decode, decodeRaw, fld_encI_op, fld_encI_d, fld_encI_a, fld_encI_i, low_r6, low_r7, hw]

theorem ld : ∀ d a w o, Statement (.ld d a w o) := by
  intro d a w o hw w h
  cases h
  simp [-BitVec.extractLsb'_toNat, decL, decLoad, decode, decodeRaw, onlyIf, fld_encLS_op, fld_encLS_d, fld_encLS_a, fld_encLS_w, fld_encLS_r, fld_encLS_o, dstOf_ldBits, ldBits_peek, hw]

theorem ldu : ∀ d a w o, Statement (.ldu d a w o) := by
  intro d a w o hw w h
  cases h
  simp [-BitVec.extractLsb'_toNat, decL, decLoad, decode, decodeRaw, onlyIf, fld_encLS_op, fld_encLS_d, fld_encLS_a, fld_encLS_w, fld_encLS_r, fld_encLS_o, dstOf_ldBits, ldBits_peek, hw]

theorem lda : ∀ d a w o, Statement (.lda d a w o) := by
  intro d a w o hw w h
  cases h
  simp [-BitVec.extractLsb'_toNat, decL, decLoad, decode, decodeRaw, onlyIf, fld_encLS_op, fld_encLS_d, fld_encLS_a, fld_encLS_w, fld_encLS_r, fld_encLS_o, dstOf_ldBits, ldBits_peek, hw]

theorem st : ∀ d a w o, Statement (.st d a w o) := by
  intro d a w o hw w h
  cases h
  simp [-BitVec.extractLsb'_toNat, decSt, decStore, decode, decodeRaw, fld_encLS_op, fld_encLS_d, fld_encLS_a, fld_encLS_w, fld_encLS_r, fld_encLS_o, srcOf_srcBits, hw]

theorem stl : ∀ d a w o, Statement (.stl d a w o) := by
  intro d a w o hw w h
  cases h
  simp [-BitVec.extractLsb'_toNat, decSt, decStore, decode, decodeRaw, fld_encLS_op, fld_encLS_d, fld_encLS_a, fld_encLS_w, fld_encLS_r, fld_encLS_o, srcOf_srcBits, hw]

theorem amoAdd : ∀ d a b w, Statement (.amoAdd d a b w) := by
  intro d a b w hw w h
  cases h
  cases w <;>
  simp [-BitVec.extractLsb'_toNat, decAmo, decR3, decode, decodeRaw, fld_encA_op, fld_encA_d, fld_encA_a, fld_encA_b, fld_encA_f, low_r6, low_r7, hw]

theorem amoAnd : ∀ d a b w, Statement (.amoAnd d a b w) := by
  intro d a b w hw w h
  cases h
  cases w <;>
  simp [-BitVec.extractLsb'_toNat, decAmo, decR3, decode, decodeRaw, fld_encA_op, fld_encA_d, fld_encA_a, fld_encA_b, fld_encA_f, low_r6, low_r7, hw]

theorem amoOr : ∀ d a b w, Statement (.amoOr d a b w) := by
  intro d a b w hw w h
  cases h
  cases w <;>
  simp [-BitVec.extractLsb'_toNat, decAmo, decR3, decode, decodeRaw, fld_encA_op, fld_encA_d, fld_encA_a, fld_encA_b, fld_encA_f, low_r6, low_r7, hw]

theorem amoXor : ∀ d a b w, Statement (.amoXor d a b w) := by
  intro d a b w hw w h
  cases h
  cases w <;>
  simp [-BitVec.extractLsb'_toNat, decAmo, decR3, decode, decodeRaw, fld_encA_op, fld_encA_d, fld_encA_a, fld_encA_b, fld_encA_f, low_r6, low_r7, hw]

theorem amoMin : ∀ d a b w, Statement (.amoMin d a b w) := by
  intro d a b w hw w h
  cases h
  cases w <;>
  simp [-BitVec.extractLsb'_toNat, decAmo, decR3, decode, decodeRaw, fld_encA_op, fld_encA_d, fld_encA_a, fld_encA_b, fld_encA_f, low_r6, low_r7, hw]

theorem amoMax : ∀ d a b w, Statement (.amoMax d a b w) := by
  intro d a b w hw w h
  cases h
  cases w <;>
  simp [-BitVec.extractLsb'_toNat, decAmo, decR3, decode, decodeRaw, fld_encA_op, fld_encA_d, fld_encA_a, fld_encA_b, fld_encA_f, low_r6, low_r7, hw]

theorem amoMinu : ∀ d a b w, Statement (.amoMinu d a b w) := by
  intro d a b w hw w h
  cases h
  cases w <;>
  simp [-BitVec.extractLsb'_toNat, decAmo, decR3, decode, decodeRaw, fld_encA_op, fld_encA_d, fld_encA_a, fld_encA_b, fld_encA_f, low_r6, low_r7, hw]

theorem amoMaxu : ∀ d a b w, Statement (.amoMaxu d a b w) := by
  intro d a b w hw w h
  cases h
  cases w <;>
  simp [-BitVec.extractLsb'_toNat, decAmo, decR3, decode, decodeRaw, fld_encA_op, fld_encA_d, fld_encA_a, fld_encA_b, fld_encA_f, low_r6, low_r7, hw]

theorem amoSwap : ∀ d a b w, Statement (.amoSwap d a b w) := by
  intro d a b w hw w h
  cases h
  cases w <;>
  simp [-BitVec.extractLsb'_toNat, decAmo, decR3, decode, decodeRaw, fld_encA_op, fld_encA_d, fld_encA_a, fld_encA_b, fld_encA_f, low_r6, low_r7, hw]

theorem cas : ∀ d a b w, Statement (.cas d a b w) := by
  intro d a b w hw w h
  cases h
  cases w <;>
  simp [-BitVec.extractLsb'_toNat, decAmo, decR3, decode, decodeRaw, fld_encA_op, fld_encA_d, fld_encA_a, fld_encA_b, fld_encA_f, low_r6, low_r7, hw]

theorem fence : ∀ sc c, Statement (.fence sc c) := by
  intro sc c hw w h
  cases h
  revert hw sc c
  decide

theorem wait : ∀ d a b w, Statement (.wait d a b w) := by
  intro d a b w hw w h
  cases h
  cases w <;>
  simp [-BitVec.extractLsb'_toNat, decR3, decSync, decode, decodeRaw, fld_encA_op, fld_encA_d, fld_encA_a, fld_encA_b, fld_encA_f, low_r6, low_r7, hw]

theorem notify : ∀ d a all, Statement (.notify d a all) := by
  intro d a all hw w h
  cases h
  cases all <;>
  simp [-BitVec.extractLsb'_toNat, decRda, decSync, decode, decodeRaw, onlyIf, fld_encA_op, fld_encA_d, fld_encA_a, fld_encA_b, fld_encA_f, low_r6, low_r7, hw]

theorem mma : ∀ c a b g h m, Statement (.mma c a b g h m) := by
  intro c a b g h m hw w h
  cases h
  simp [-BitVec.extractLsb'_toNat, decMatrix, decode, decodeRaw, fld_encM_op, fld_encM_c, fld_encM_a, fld_encM_b, fld_encM_g, fld_encM_h, fld_encM_m, fld_encM_f, hw]

theorem mzero : ∀ c, Statement (.mzero c) := by
  intro c hw w h
  cases h
  revert hw c
  decide

theorem mwait : ∀ c, Statement (.mwait c) := by
  intro c hw w h
  cases h
  revert hw c
  decide

theorem mtest : Statement (.mtest) := by
  intro hw w h
  cases h
  revert hw
  decide

theorem mlda : ∀ t n a b, Statement (.mlda t n a b) := by
  intro t n a b hw w h
  cases h
  simp [-BitVec.extractLsb'_toNat, decMatrixCtl, decTileMove, decode, decodeRaw, fld_encA_op, fld_encA_d, fld_encA_a, fld_encA_b, fld_encA_f, low_r7, low_tile, tile_high, tile_low, hw]

theorem msta : ∀ t n a b, Statement (.msta t n a b) := by
  intro t n a b hw w h
  cases h
  simp [-BitVec.extractLsb'_toNat, decMatrixCtl, decTileMove, decode, decodeRaw, fld_encA_op, fld_encA_d, fld_encA_a, fld_encA_b, fld_encA_f, low_r7, low_tile, tile_high, tile_low, hw]

theorem mshape : ∀ n a, Statement (.mshape n a) := by
  intro n a hw w h
  cases h
  simp [-BitVec.extractLsb'_toNat, decMatrixCtl, decode, decodeRaw, onlyIf, fld_encA_op, fld_encA_d, fld_encA_a, fld_encA_b, fld_encA_f, low_r7, low_3_3, hw]

theorem mfmt : ∀ a, Statement (.mfmt a) := by
  intro a hw w h
  cases h
  simp [-BitVec.extractLsb'_toNat, decMatrixCtl, decRa, decode, decodeRaw, onlyIf, fld_encA_op, fld_encA_d, fld_encA_a, fld_encA_b, fld_encA_f, low_r7, hw]

theorem msave : ∀ a, Statement (.msave a) := by
  intro a hw w h
  cases h
  simp [-BitVec.extractLsb'_toNat, decMatrixCtl, decRa, decode, decodeRaw, onlyIf, fld_encA_op, fld_encA_d, fld_encA_a, fld_encA_b, fld_encA_f, low_r7, hw]

theorem mrstr : ∀ a, Statement (.mrstr a) := by
  intro a hw w h
  cases h
  simp [-BitVec.extractLsb'_toNat, decMatrixCtl, decRa, decode, decodeRaw, onlyIf, fld_encA_op, fld_encA_d, fld_encA_a, fld_encA_b, fld_encA_f, low_r7, hw]

theorem rdef : ∀ n a b, Statement (.rdef n a b) := by
  intro n a b hw w h
  cases h
  simp [-BitVec.extractLsb'_toNat, decRing, decTile, decode, decodeRaw, fld_encA_op, fld_encA_d, fld_encA_a, fld_encA_b, fld_encA_f, low_r7, low_4_2, hw]

theorem rpop : ∀ n, Statement (.rpop n) := by
  intro n hw w h
  cases h
  revert hw n
  decide

theorem rpush : ∀ n, Statement (.rpush n) := by
  intro n hw w h
  cases h
  revert hw n
  decide

theorem texp : ∀ a b, Statement (.texp a b) := by
  intro a b hw w h
  cases h
  simp [-BitVec.extractLsb'_toNat, decRab, decTile, decode, decodeRaw, onlyIf, fld_encA_op, fld_encA_d, fld_encA_a, fld_encA_b, fld_encA_f, low_r7, hw]

theorem ttag : ∀ d a b, Statement (.ttag d a b) := by
  intro d a b hw w h
  cases h
  simp [-BitVec.extractLsb'_toNat, decR3, decTile, decode, decodeRaw, fld_encA_op, fld_encA_d, fld_encA_a, fld_encA_b, fld_encA_f, low_r6, low_r7, hw]

theorem twait : ∀ d a b, Statement (.twait d a b) := by
  intro d a b hw w h
  cases h
  simp [-BitVec.extractLsb'_toNat, decR3, decTile, decode, decodeRaw, fld_encA_op, fld_encA_d, fld_encA_a, fld_encA_b, fld_encA_f, low_r6, low_r7, hw]

theorem xcopy : ∀ a, Statement (.xcopy a) := by
  intro a hw w h
  cases h
  simp [-BitVec.extractLsb'_toNat, decEngine, decRa, decode, decodeRaw, onlyIf, fld_encA_op, fld_encA_d, fld_encA_a, fld_encA_b, fld_encA_f, low_r7, hw]

theorem xsub : ∀ a, Statement (.xsub a) := by
  intro a hw w h
  cases h
  simp [-BitVec.extractLsb'_toNat, decEngine, decRa, decode, decodeRaw, onlyIf, fld_encA_op, fld_encA_d, fld_encA_a, fld_encA_b, fld_encA_f, low_r7, hw]

theorem xunsub : ∀ a, Statement (.xunsub a) := by
  intro a hw w h
  cases h
  simp [-BitVec.extractLsb'_toNat, decEngine, decRa, decode, decodeRaw, onlyIf, fld_encA_op, fld_encA_d, fld_encA_a, fld_encA_b, fld_encA_f, low_r7, hw]

theorem xdrain : ∀ a, Statement (.xdrain a) := by
  intro a hw w h
  cases h
  simp [-BitVec.extractLsb'_toNat, decEngine, decRa, decode, decodeRaw, onlyIf, fld_encA_op, fld_encA_d, fld_encA_a, fld_encA_b, fld_encA_f, low_r7, hw]

theorem xstat : ∀ d a, Statement (.xstat d a) := by
  intro d a hw w h
  cases h
  simp [-BitVec.extractLsb'_toNat, decEngine, decRda, decode, decodeRaw, onlyIf, fld_encA_op, fld_encA_d, fld_encA_a, fld_encA_b, fld_encA_f, low_r6, low_r7, hw]

theorem meet : ∀ d a b, Statement (.meet d a b) := by
  intro d a b hw w h
  cases h
  simp [-BitVec.extractLsb'_toNat, decMeeting, decR3, decode, decodeRaw, fld_encA_op, fld_encA_d, fld_encA_a, fld_encA_b, fld_encA_f, low_r6, low_r7, hw]

theorem part : Statement (.part) := by
  intro hw w h
  cases h
  revert hw
  decide

theorem peer : ∀ d n now, Statement (.peer d n now) := by
  intro d n now hw w h
  cases h
  cases now <;>
  simp [-BitVec.extractLsb'_toNat, decMeeting, decPeer, decode, decodeRaw, onlyIf, fld_encA_op, fld_encA_d, fld_encA_a, fld_encA_b, fld_encA_f, low_r6, low_r7, hw]

theorem peerv : ∀ d n, Statement (.peerv d n) := by
  intro d n hw w h
  cases h
  simp [-BitVec.extractLsb'_toNat, decMeeting, decPeerv, decode, decodeRaw, onlyIf, fld_encA_op, fld_encA_d, fld_encA_a, fld_encA_b, fld_encA_f, low_4_2, low_4_3, hw]

theorem rollNone : ∀ d a b, Statement (.rollNone d a b) := by
  intro d a b hw w h
  cases h
  simp [-BitVec.extractLsb'_toNat, decMeeting, decR3, decode, decodeRaw, fld_encA_op, fld_encA_d, fld_encA_a, fld_encA_b, fld_encA_f, low_r6, low_r7, hw]

theorem rollAdd : ∀ d a b, Statement (.rollAdd d a b) := by
  intro d a b hw w h
  cases h
  simp [-BitVec.extractLsb'_toNat, decMeeting, decR3, decode, decodeRaw, fld_encA_op, fld_encA_d, fld_encA_a, fld_encA_b, fld_encA_f, low_r6, low_r7, hw]

theorem rollMin : ∀ d a b, Statement (.rollMin d a b) := by
  intro d a b hw w h
  cases h
  simp [-BitVec.extractLsb'_toNat, decMeeting, decR3, decode, decodeRaw, fld_encA_op, fld_encA_d, fld_encA_a, fld_encA_b, fld_encA_f, low_r6, low_r7, hw]

theorem rollMax : ∀ d a b, Statement (.rollMax d a b) := by
  intro d a b hw w h
  cases h
  simp [-BitVec.extractLsb'_toNat, decMeeting, decR3, decode, decodeRaw, fld_encA_op, fld_encA_d, fld_encA_a, fld_encA_b, fld_encA_f, low_r6, low_r7, hw]

theorem rollUmin : ∀ d a b, Statement (.rollUmin d a b) := by
  intro d a b hw w h
  cases h
  simp [-BitVec.extractLsb'_toNat, decMeeting, decR3, decode, decodeRaw, fld_encA_op, fld_encA_d, fld_encA_a, fld_encA_b, fld_encA_f, low_r6, low_r7, hw]

theorem rollUmax : ∀ d a b, Statement (.rollUmax d a b) := by
  intro d a b hw w h
  cases h
  simp [-BitVec.extractLsb'_toNat, decMeeting, decR3, decode, decodeRaw, fld_encA_op, fld_encA_d, fld_encA_a, fld_encA_b, fld_encA_f, low_r6, low_r7, hw]

theorem rollAnd : ∀ d a b, Statement (.rollAnd d a b) := by
  intro d a b hw w h
  cases h
  simp [-BitVec.extractLsb'_toNat, decMeeting, decR3, decode, decodeRaw, fld_encA_op, fld_encA_d, fld_encA_a, fld_encA_b, fld_encA_f, low_r6, low_r7, hw]

theorem rollOr : ∀ d a b, Statement (.rollOr d a b) := by
  intro d a b hw w h
  cases h
  simp [-BitVec.extractLsb'_toNat, decMeeting, decR3, decode, decodeRaw, fld_encA_op, fld_encA_d, fld_encA_a, fld_encA_b, fld_encA_f, low_r6, low_r7, hw]

theorem rollXor : ∀ d a b, Statement (.rollXor d a b) := by
  intro d a b hw w h
  cases h
  simp [-BitVec.extractLsb'_toNat, decMeeting, decR3, decode, decodeRaw, fld_encA_op, fld_encA_d, fld_encA_a, fld_encA_b, fld_encA_f, low_r6, low_r7, hw]

theorem launch : ∀ d a b, Statement (.launch d a b) := by
  intro d a b hw w h
  cases h
  simp [-BitVec.extractLsb'_toNat, decR3, decTask, decode, decodeRaw, fld_encA_op, fld_encA_d, fld_encA_a, fld_encA_b, fld_encA_f, low_r6, low_r7, hw]

theorem tend : Statement (.tend) := by
  intro hw w h
  cases h
  revert hw
  decide

theorem yield : ∀ d, Statement (.yield d) := by
  intro d hw w h
  cases h
  revert hw d
  decide

theorem sbind : ∀ a, Statement (.sbind a) := by
  intro a hw w h
  cases h
  simp [-BitVec.extractLsb'_toNat, decRa, decTask, decode, decodeRaw, onlyIf, fld_encA_op, fld_encA_d, fld_encA_a, fld_encA_b, fld_encA_f, low_r7, hw]

theorem chbind : ∀ n a, Statement (.chbind n a) := by
  intro n a hw w h
  cases h
  simp [-BitVec.extractLsb'_toNat, decRda, decTask, decode, decodeRaw, onlyIf, fld_encA_op, fld_encA_d, fld_encA_a, fld_encA_b, fld_encA_f, low_r6, low_r7, hw]

theorem emit : ∀ a b, Statement (.emit a b) := by
  intro a b hw w h
  cases h
  simp [-BitVec.extractLsb'_toNat, decRab, decTask, decode, decodeRaw, onlyIf, fld_encA_op, fld_encA_d, fld_encA_a, fld_encA_b, fld_encA_f, low_r7, hw]

theorem wmk : ∀ a b, Statement (.wmk a b) := by
  intro a b hw w h
  cases h
  simp [-BitVec.extractLsb'_toNat, decRab, decTask, decode, decodeRaw, onlyIf, fld_encA_op, fld_encA_d, fld_encA_a, fld_encA_b, fld_encA_f, low_r7, hw]

theorem publ : ∀ a, Statement (.publ a) := by
  intro a hw w h
  cases h
  simp [-BitVec.extractLsb'_toNat, decRa, decTask, decode, decodeRaw, onlyIf, fld_encA_op, fld_encA_d, fld_encA_a, fld_encA_b, fld_encA_f, low_r7, hw]

theorem acct : ∀ d a, Statement (.acct d a) := by
  intro d a hw w h
  cases h
  simp [-BitVec.extractLsb'_toNat, decRda, decTask, decode, decodeRaw, onlyIf, fld_encA_op, fld_encA_d, fld_encA_a, fld_encA_b, fld_encA_f, low_r6, low_r7, hw]

theorem csrr : ∀ d c, Statement (.csrr d c) := by
  intro d c hw w h
  cases h
  simp [-BitVec.extractLsb'_toNat, decS1, decode, decodeRaw, onlyIf, fld_encI_op, fld_encI_d, fld_encI_a, fld_encI_i, low_r6, hw]

theorem csrw : ∀ d a c, Statement (.csrw d a c) := by
  intro d a c hw w h
  cases h
  simp [-BitVec.extractLsb'_toNat, decS, decode, decodeRaw, fld_encI_op, fld_encI_d, fld_encI_a, fld_encI_i, low_r6, low_r7, hw]

theorem csrs : ∀ d a c, Statement (.csrs d a c) := by
  intro d a c hw w h
  cases h
  simp [-BitVec.extractLsb'_toNat, decS, decode, decodeRaw, fld_encI_op, fld_encI_d, fld_encI_a, fld_encI_i, low_r6, low_r7, hw]

theorem csrc : ∀ d a c, Statement (.csrc d a c) := by
  intro d a c hw w h
  cases h
  simp [-BitVec.extractLsb'_toNat, decS, decode, decodeRaw, fld_encI_op, fld_encI_d, fld_encI_a, fld_encI_i, low_r6, low_r7, hw]

theorem scall : ∀ i, Statement (.scall i) := by
  intro i hw w h
  cases h
  simp [-BitVec.extractLsb'_toNat, decSys, decode, decodeRaw, fld_encU_op, fld_encU_d, fld_encU_i, hw]

theorem tret : Statement (.tret) := by
  intro hw w h
  cases h
  simp [-BitVec.extractLsb'_toNat, decSys, decode, decodeRaw, onlyIf, fld_encU_op, fld_encU_d, fld_encU_i, hw]

theorem uiret : Statement (.uiret) := by
  intro hw w h
  cases h
  simp [-BitVec.extractLsb'_toNat, decSys, decode, decodeRaw, onlyIf, fld_encU_op, fld_encU_d, fld_encU_i, hw]

theorem sleep : ∀ i, Statement (.sleep i) := by
  intro i hw w h
  cases h
  simp [-BitVec.extractLsb'_toNat, decSys, decode, decodeRaw, fld_encU_op, fld_encU_d, fld_encU_i, hw]

theorem brk : ∀ i, Statement (.brk i) := by
  intro i hw w h
  cases h
  simp [-BitVec.extractLsb'_toNat, decSys, decode, decodeRaw, fld_encU_op, fld_encU_d, fld_encU_i, hw]

theorem vadd : ∀ d a b t k, Statement (.vadd d a b t k) := by
  intro d a b t k hw w h
  cases h
  simp [-BitVec.extractLsb'_toNat, decV3, decVector, decode, decodeRaw, fld_encV_op, fld_encV_d, fld_encV_a, fld_encV_b, fld_encV_t, fld_encV_k, fld_encV_s, vdstOf_vdstBits, vsrcOf_vsrcBits, hw]

theorem vaddSat : ∀ d a b t k, Statement (.vaddSat d a b t k) := by
  intro d a b t k hw w h
  cases h
  simp [-BitVec.extractLsb'_toNat, decV3, decVector, decode, decodeRaw, fld_encV_op, fld_encV_d, fld_encV_a, fld_encV_b, fld_encV_t, fld_encV_k, fld_encV_s, vdstOf_vdstBits, vsrcOf_vsrcBits, hw]

theorem vsub : ∀ d a b t k, Statement (.vsub d a b t k) := by
  intro d a b t k hw w h
  cases h
  simp [-BitVec.extractLsb'_toNat, decV3, decVector, decode, decodeRaw, fld_encV_op, fld_encV_d, fld_encV_a, fld_encV_b, fld_encV_t, fld_encV_k, fld_encV_s, vdstOf_vdstBits, vsrcOf_vsrcBits, hw]

theorem vsubSat : ∀ d a b t k, Statement (.vsubSat d a b t k) := by
  intro d a b t k hw w h
  cases h
  simp [-BitVec.extractLsb'_toNat, decV3, decVector, decode, decodeRaw, fld_encV_op, fld_encV_d, fld_encV_a, fld_encV_b, fld_encV_t, fld_encV_k, fld_encV_s, vdstOf_vdstBits, vsrcOf_vsrcBits, hw]

theorem vmul : ∀ d a b t k, Statement (.vmul d a b t k) := by
  intro d a b t k hw w h
  cases h
  simp [-BitVec.extractLsb'_toNat, decV3, decVector, decode, decodeRaw, fld_encV_op, fld_encV_d, fld_encV_a, fld_encV_b, fld_encV_t, fld_encV_k, fld_encV_s, vdstOf_vdstBits, vsrcOf_vsrcBits, hw]

theorem vmulSat : ∀ d a b t k, Statement (.vmulSat d a b t k) := by
  intro d a b t k hw w h
  cases h
  simp [-BitVec.extractLsb'_toNat, decV3, decVector, decode, decodeRaw, fld_encV_op, fld_encV_d, fld_encV_a, fld_encV_b, fld_encV_t, fld_encV_k, fld_encV_s, vdstOf_vdstBits, vsrcOf_vsrcBits, hw]

theorem vfma : ∀ d a b t k, Statement (.vfma d a b t k) := by
  intro d a b t k hw w h
  cases h
  simp [-BitVec.extractLsb'_toNat, decVector, decVs3, decode, decodeRaw, fld_encV_op, fld_encV_d, fld_encV_a, fld_encV_b, fld_encV_t, fld_encV_k, fld_encV_s, vsrcOf_vsrcBits, low_v4, hw]

theorem vfms : ∀ d a b t k, Statement (.vfms d a b t k) := by
  intro d a b t k hw w h
  cases h
  simp [-BitVec.extractLsb'_toNat, decVector, decVs3, decode, decodeRaw, fld_encV_op, fld_encV_d, fld_encV_a, fld_encV_b, fld_encV_t, fld_encV_k, fld_encV_s, vsrcOf_vsrcBits, low_v4, hw]

theorem vmulh : ∀ d a b t k, Statement (.vmulh d a b t k) := by
  intro d a b t k hw w h
  cases h
  simp [-BitVec.extractLsb'_toNat, decV3, decVector, decode, decodeRaw, fld_encV_op, fld_encV_d, fld_encV_a, fld_encV_b, fld_encV_t, fld_encV_k, fld_encV_s, vdstOf_vdstBits, vsrcOf_vsrcBits, hw]

theorem vabs : ∀ d a m t k, Statement (.vabs d a m t k) := by
  intro d a m t k hw w h
  cases h
  cases m <;>
  simp [-BitVec.extractLsb'_toNat, decVector, decVm1, decode, decodeRaw, onlyIf, fld_encV_op, fld_encV_d, fld_encV_a, fld_encV_b, fld_encV_t, fld_encV_k, fld_encV_s, vdstOf_vdstBits, vsrcOf_vsrcBits, hw]

theorem vmin : ∀ d a b t k, Statement (.vmin d a b t k) := by
  intro d a b t k hw w h
  cases h
  simp [-BitVec.extractLsb'_toNat, decV3, decVector, decode, decodeRaw, fld_encV_op, fld_encV_d, fld_encV_a, fld_encV_b, fld_encV_t, fld_encV_k, fld_encV_s, vdstOf_vdstBits, vsrcOf_vsrcBits, hw]

theorem vmax : ∀ d a b t k, Statement (.vmax d a b t k) := by
  intro d a b t k hw w h
  cases h
  simp [-BitVec.extractLsb'_toNat, decV3, decVector, decode, decodeRaw, fld_encV_op, fld_encV_d, fld_encV_a, fld_encV_b, fld_encV_t, fld_encV_k, fld_encV_s, vdstOf_vdstBits, vsrcOf_vsrcBits, hw]

theorem vneg : ∀ d a m t k, Statement (.vneg d a m t k) := by
  intro d a m t k hw w h
  cases h
  cases m <;>
  simp [-BitVec.extractLsb'_toNat, decVector, decVm1, decode, decodeRaw, onlyIf, fld_encV_op, fld_encV_d, fld_encV_a, fld_encV_b, fld_encV_t, fld_encV_k, fld_encV_s, vdstOf_vdstBits, vsrcOf_vsrcBits, hw]

theorem vmov : ∀ d a t k, Statement (.vmov d a t k) := by
  intro d a t k hw w h
  cases h
  simp [-BitVec.extractLsb'_toNat, decVector, decVm0, decode, decodeRaw, onlyIf, fld_encV_op, fld_encV_d, fld_encV_a, fld_encV_b, fld_encV_t, fld_encV_k, fld_encV_s, vdstOf_vdstBits, vsrcOf_vsrcBits, hw]

theorem vand : ∀ d a b t k, Statement (.vand d a b t k) := by
  intro d a b t k hw w h
  cases h
  simp [-BitVec.extractLsb'_toNat, decV3, decVector, decode, decodeRaw, fld_encV_op, fld_encV_d, fld_encV_a, fld_encV_b, fld_encV_t, fld_encV_k, fld_encV_s, vdstOf_vdstBits, vsrcOf_vsrcBits, hw]

theorem vor : ∀ d a b t k, Statement (.vor d a b t k) := by
  intro d a b t k hw w h
  cases h
  simp [-BitVec.extractLsb'_toNat, decV3, decVector, decode, decodeRaw, fld_encV_op, fld_encV_d, fld_encV_a, fld_encV_b, fld_encV_t, fld_encV_k, fld_encV_s, vdstOf_vdstBits, vsrcOf_vsrcBits, hw]

theorem vxor : ∀ d a b t k, Statement (.vxor d a b t k) := by
  intro d a b t k hw w h
  cases h
  simp [-BitVec.extractLsb'_toNat, decV3, decVector, decode, decodeRaw, fld_encV_op, fld_encV_d, fld_encV_a, fld_encV_b, fld_encV_t, fld_encV_k, fld_encV_s, vdstOf_vdstBits, vsrcOf_vsrcBits, hw]

theorem vshr : ∀ d a b t k, Statement (.vshr d a b t k) := by
  intro d a b t k hw w h
  cases h
  simp [-BitVec.extractLsb'_toNat, decV3, decVector, decode, decodeRaw, fld_encV_op, fld_encV_d, fld_encV_a, fld_encV_b, fld_encV_t, fld_encV_k, fld_encV_s, vdstOf_vdstBits, vsrcOf_vsrcBits, hw]

theorem vshl : ∀ d a b t k, Statement (.vshl d a b t k) := by
  intro d a b t k hw w h
  cases h
  simp [-BitVec.extractLsb'_toNat, decV3, decVector, decode, decodeRaw, fld_encV_op, fld_encV_d, fld_encV_a, fld_encV_b, fld_encV_t, fld_encV_k, fld_encV_s, vdstOf_vdstBits, vsrcOf_vsrcBits, hw]

theorem vshlSat : ∀ d a b t k, Statement (.vshlSat d a b t k) := by
  intro d a b t k hw w h
  cases h
  simp [-BitVec.extractLsb'_toNat, decV3, decVector, decode, decodeRaw, fld_encV_op, fld_encV_d, fld_encV_a, fld_encV_b, fld_encV_t, fld_encV_k, fld_encV_s, vdstOf_vdstBits, vsrcOf_vsrcBits, hw]

theorem vshra : ∀ d a b t k, Statement (.vshra d a b t k) := by
  intro d a b t k hw w h
  cases h
  simp [-BitVec.extractLsb'_toNat, decV3, decVector, decode, decodeRaw, fld_encV_op, fld_encV_d, fld_encV_a, fld_encV_b, fld_encV_t, fld_encV_k, fld_encV_s, vdstOf_vdstBits, vsrcOf_vsrcBits, hw]

theorem vsel : ∀ d a b t k, Statement (.vsel d a b t k) := by
  intro d a b t k hw w h
  cases h
  simp [-BitVec.extractLsb'_toNat, decV3, decVector, decode, decodeRaw, fld_encV_op, fld_encV_d, fld_encV_a, fld_encV_b, fld_encV_t, fld_encV_k, fld_encV_s, vdstOf_vdstBits, vsrcOf_vsrcBits, hw]

theorem vcmpEq : ∀ d a b t k, Statement (.vcmpEq d a b t k) := by
  intro d a b t k hw w h
  cases h
  simp [-BitVec.extractLsb'_toNat, decVector, decVk3, decode, decodeRaw, fld_encV_op, fld_encV_d, fld_encV_a, fld_encV_b, fld_encV_t, fld_encV_k, fld_encV_s, vsrcOf_vsrcBits, low_3_2, hw]

theorem vcmpNe : ∀ d a b t k, Statement (.vcmpNe d a b t k) := by
  intro d a b t k hw w h
  cases h
  simp [-BitVec.extractLsb'_toNat, decVector, decVk3, decode, decodeRaw, fld_encV_op, fld_encV_d, fld_encV_a, fld_encV_b, fld_encV_t, fld_encV_k, fld_encV_s, vsrcOf_vsrcBits, low_3_2, hw]

theorem vcmpLt : ∀ d a b t k, Statement (.vcmpLt d a b t k) := by
  intro d a b t k hw w h
  cases h
  simp [-BitVec.extractLsb'_toNat, decVector, decVk3, decode, decodeRaw, fld_encV_op, fld_encV_d, fld_encV_a, fld_encV_b, fld_encV_t, fld_encV_k, fld_encV_s, vsrcOf_vsrcBits, low_3_2, hw]

theorem vcmpLe : ∀ d a b t k, Statement (.vcmpLe d a b t k) := by
  intro d a b t k hw w h
  cases h
  simp [-BitVec.extractLsb'_toNat, decVector, decVk3, decode, decodeRaw, fld_encV_op, fld_encV_d, fld_encV_a, fld_encV_b, fld_encV_t, fld_encV_k, fld_encV_s, vsrcOf_vsrcBits, low_3_2, hw]

theorem vbcast : ∀ d a t k, Statement (.vbcast d a t k) := by
  intro d a t k hw w h
  cases h
  simp [-BitVec.extractLsb'_toNat, decVbcast, decVector, decode, decodeRaw, onlyIf, fld_encV_op, fld_encV_d, fld_encV_a, fld_encV_b, fld_encV_t, fld_encV_k, fld_encV_s, vdstOf_vdstBits, xsrcOf_xsrcBits, hw]

theorem vred : ∀ d a o t k, Statement (.vred d a o t k) := by
  intro d a o t k hw w h
  cases h
  simp [-BitVec.extractLsb'_toNat, decVector, decVred, decode, decodeRaw, onlyIf, fld_encV_op, fld_encV_d, fld_encV_a, fld_encV_b, fld_encV_t, fld_encV_k, fld_encV_s, vdstOf_vdstBits, vsrcOf_vsrcBits, red_high, red_low, hw]

theorem vcvt : ∀ d a m t k, Statement (.vcvt d a m t k) := by
  intro d a m t k hw w h
  cases h
  simp [-BitVec.extractLsb'_toNat, decVector, decVm, decode, decodeRaw, fld_encV_op, fld_encV_d, fld_encV_a, fld_encV_b, fld_encV_t, fld_encV_k, fld_encV_s, vdstOf_vdstBits, vsrcOf_vsrcBits, hw]

theorem vcvtSr : ∀ d a m t k, Statement (.vcvtSr d a m t k) := by
  intro d a m t k hw w h
  cases h
  simp [-BitVec.extractLsb'_toNat, decVector, decVm, decode, decodeRaw, fld_encV_op, fld_encV_d, fld_encV_a, fld_encV_b, fld_encV_t, fld_encV_k, fld_encV_s, vdstOf_vdstBits, vsrcOf_vsrcBits, hw]

theorem vperm : ∀ d a b t k, Statement (.vperm d a b t k) := by
  intro d a b t k hw w h
  cases h
  simp [-BitVec.extractLsb'_toNat, decV3, decVector, decode, decodeRaw, fld_encV_op, fld_encV_d, fld_encV_a, fld_encV_b, fld_encV_t, fld_encV_k, fld_encV_s, vdstOf_vdstBits, vsrcOf_vsrcBits, hw]

theorem vslide : ∀ d a b t k, Statement (.vslide d a b t k) := by
  intro d a b t k hw w h
  cases h
  simp [-BitVec.extractLsb'_toNat, decVector, decVx, decode, decodeRaw, fld_encV_op, fld_encV_d, fld_encV_a, fld_encV_b, fld_encV_t, fld_encV_k, fld_encV_s, vdstOf_vdstBits, vsrcOf_vsrcBits, xsrcOf_xsrcBits, hw]

theorem vzip : ∀ d a b t k, Statement (.vzip d a b t k) := by
  intro d a b t k hw w h
  cases h
  simp [-BitVec.extractLsb'_toNat, decV3, decVector, decode, decodeRaw, fld_encV_op, fld_encV_d, fld_encV_a, fld_encV_b, fld_encV_t, fld_encV_k, fld_encV_s, vdstOf_vdstBits, vsrcOf_vsrcBits, hw]

theorem vunzip : ∀ d a b t k, Statement (.vunzip d a b t k) := by
  intro d a b t k hw w h
  cases h
  simp [-BitVec.extractLsb'_toNat, decV3, decVector, decode, decodeRaw, fld_encV_op, fld_encV_d, fld_encV_a, fld_encV_b, fld_encV_t, fld_encV_k, fld_encV_s, vdstOf_vdstBits, vsrcOf_vsrcBits, hw]

theorem vdot : ∀ d a b t k, Statement (.vdot d a b t k) := by
  intro d a b t k hw w h
  cases h
  simp [-BitVec.extractLsb'_toNat, decVector, decVs3, decode, decodeRaw, fld_encV_op, fld_encV_d, fld_encV_a, fld_encV_b, fld_encV_t, fld_encV_k, fld_encV_s, vsrcOf_vsrcBits, low_v4, hw]

theorem vplane : ∀ d a p h u t k, Statement (.vplane d a p h u t k) := by
  intro d a p h u t k hw w h
  cases h
  simp [-BitVec.extractLsb'_toNat, decVector, decVplane, decode, decodeRaw, onlyIf, fld_encV_op, fld_encV_d, fld_encV_a, fld_encV_b, fld_encV_t, fld_encV_k, fld_encV_s, vdstOf_vdstBits, vsrcOf_vsrcBits, plane_zero, plane_p, plane_h, plane_u, hw]

theorem vqnt : ∀ d a b t k, Statement (.vqnt d a b t k) := by
  intro d a b t k hw w h
  cases h
  simp [-BitVec.extractLsb'_toNat, decVector, decVx, decode, decodeRaw, fld_encV_op, fld_encV_d, fld_encV_a, fld_encV_b, fld_encV_t, fld_encV_k, fld_encV_s, vdstOf_vdstBits, vsrcOf_vsrcBits, xsrcOf_xsrcBits, hw]

theorem vdqnt : ∀ d a b t k, Statement (.vdqnt d a b t k) := by
  intro d a b t k hw w h
  cases h
  simp [-BitVec.extractLsb'_toNat, decVector, decVx, decode, decodeRaw, fld_encV_op, fld_encV_d, fld_encV_a, fld_encV_b, fld_encV_t, fld_encV_k, fld_encV_s, vdstOf_vdstBits, vsrcOf_vsrcBits, xsrcOf_xsrcBits, hw]

theorem vrcp : ∀ d a t k, Statement (.vrcp d a t k) := by
  intro d a t k hw w h
  cases h
  simp [-BitVec.extractLsb'_toNat, decVector, decVm0, decode, decodeRaw, onlyIf, fld_encV_op, fld_encV_d, fld_encV_a, fld_encV_b, fld_encV_t, fld_encV_k, fld_encV_s, vdstOf_vdstBits, vsrcOf_vsrcBits, hw]

theorem vrsq : ∀ d a t k, Statement (.vrsq d a t k) := by
  intro d a t k hw w h
  cases h
  simp [-BitVec.extractLsb'_toNat, decVector, decVm0, decode, decodeRaw, onlyIf, fld_encV_op, fld_encV_d, fld_encV_a, fld_encV_b, fld_encV_t, fld_encV_k, fld_encV_s, vdstOf_vdstBits, vsrcOf_vsrcBits, hw]

theorem vex2 : ∀ d a t k, Statement (.vex2 d a t k) := by
  intro d a t k hw w h
  cases h
  simp [-BitVec.extractLsb'_toNat, decVector, decVm0, decode, decodeRaw, onlyIf, fld_encV_op, fld_encV_d, fld_encV_a, fld_encV_b, fld_encV_t, fld_encV_k, fld_encV_s, vdstOf_vdstBits, vsrcOf_vsrcBits, hw]

theorem vlg2 : ∀ d a t k, Statement (.vlg2 d a t k) := by
  intro d a t k hw w h
  cases h
  simp [-BitVec.extractLsb'_toNat, decVector, decVm0, decode, decodeRaw, onlyIf, fld_encV_op, fld_encV_d, fld_encV_a, fld_encV_b, fld_encV_t, fld_encV_k, fld_encV_s, vdstOf_vdstBits, vsrcOf_vsrcBits, hw]

theorem vsin : ∀ d a t k, Statement (.vsin d a t k) := by
  intro d a t k hw w h
  cases h
  simp [-BitVec.extractLsb'_toNat, decVector, decVm0, decode, decodeRaw, onlyIf, fld_encV_op, fld_encV_d, fld_encV_a, fld_encV_b, fld_encV_t, fld_encV_k, fld_encV_s, vdstOf_vdstBits, vsrcOf_vsrcBits, hw]

theorem vtanh : ∀ d a t k, Statement (.vtanh d a t k) := by
  intro d a t k hw w h
  cases h
  simp [-BitVec.extractLsb'_toNat, decVector, decVm0, decode, decodeRaw, onlyIf, fld_encV_op, fld_encV_d, fld_encV_a, fld_encV_b, fld_encV_t, fld_encV_k, fld_encV_s, vdstOf_vdstBits, vsrcOf_vsrcBits, hw]

theorem vld : ∀ d a t k, Statement (.vld d a t k) := by
  intro d a t k hw w h
  cases h
  simp [-BitVec.extractLsb'_toNat, decVector, decVl, decode, decodeRaw, noSrc, fld_encV_op, fld_encV_d, fld_encV_a, fld_encV_b, fld_encV_t, fld_encV_k, fld_encV_s, vdstOf_vdstBits, low_4_2, hw]

theorem vst : ∀ d a t k, Statement (.vst d a t k) := by
  intro d a t k hw w h
  cases h
  simp [-BitVec.extractLsb'_toNat, decVector, decVst, decode, decodeRaw, noSrc, fld_encV_op, fld_encV_d, fld_encV_a, fld_encV_b, fld_encV_t, fld_encV_k, fld_encV_s, low_v4, low_4_2, hw]

theorem vlds : ∀ d a b t k, Statement (.vlds d a b t k) := by
  intro d a b t k hw w h
  cases h
  simp [-BitVec.extractLsb'_toNat, decVector, decVl, decode, decodeRaw, fld_encV_op, fld_encV_d, fld_encV_a, fld_encV_b, fld_encV_t, fld_encV_k, fld_encV_s, vdstOf_vdstBits, xsrcOf_xsrcBits, low_4_2, hw]

theorem vsts : ∀ d a b t k, Statement (.vsts d a b t k) := by
  intro d a b t k hw w h
  cases h
  simp [-BitVec.extractLsb'_toNat, decVector, decVst, decode, decodeRaw, fld_encV_op, fld_encV_d, fld_encV_a, fld_encV_b, fld_encV_t, fld_encV_k, fld_encV_s, xsrcOf_xsrcBits, low_v4, low_4_2, hw]

theorem vgthr : ∀ d a b t k, Statement (.vgthr d a b t k) := by
  intro d a b t k hw w h
  cases h
  simp [-BitVec.extractLsb'_toNat, decVector, decVl, decode, decodeRaw, fld_encV_op, fld_encV_d, fld_encV_a, fld_encV_b, fld_encV_t, fld_encV_k, fld_encV_s, vdstOf_vdstBits, vsrcOf_vsrcBits, low_4_2, hw]

theorem vsctr : ∀ d a b t k, Statement (.vsctr d a b t k) := by
  intro d a b t k hw w h
  cases h
  simp [-BitVec.extractLsb'_toNat, decVector, decVst, decode, decodeRaw, fld_encV_op, fld_encV_d, fld_encV_a, fld_encV_b, fld_encV_t, fld_encV_k, fld_encV_s, vsrcOf_vsrcBits, low_v4, low_4_2, hw]

theorem kand : ∀ d a b, Statement (.kand d a b) := by
  intro d a b hw w h
  cases h
  simp [-BitVec.extractLsb'_toNat, decK3, decNoMask, decVector, decode, decodeRaw, fld_encV_op, fld_encV_d, fld_encV_a, fld_encV_b, fld_encV_t, fld_encV_k, fld_encV_s, low_3_2, low_3_3, fld_1_8, hw]

theorem kor : ∀ d a b, Statement (.kor d a b) := by
  intro d a b hw w h
  cases h
  simp [-BitVec.extractLsb'_toNat, decK3, decNoMask, decVector, decode, decodeRaw, fld_encV_op, fld_encV_d, fld_encV_a, fld_encV_b, fld_encV_t, fld_encV_k, fld_encV_s, low_3_2, low_3_3, fld_1_8, hw]

theorem knot : ∀ d a, Statement (.knot d a) := by
  intro d a hw w h
  cases h
  simp [-BitVec.extractLsb'_toNat, decKnot, decNoMask, decVector, decode, decodeRaw, onlyIf, fld_encV_op, fld_encV_d, fld_encV_a, fld_encV_b, fld_encV_t, fld_encV_k, fld_encV_s, low_3_2, low_3_3, fld_1_8, hw]

theorem kpopc : ∀ d a, Statement (.kpopc d a) := by
  intro d a hw w h
  cases h
  simp [-BitVec.extractLsb'_toNat, decKpopc, decNoMask, decVector, decode, decodeRaw, onlyIf, fld_encV_op, fld_encV_d, fld_encV_a, fld_encV_b, fld_encV_t, fld_encV_k, fld_encV_s, xdstOf_xdstBits, low_3_3, fld_1_8, hw]

theorem setfmt : ∀ n a, Statement (.setfmt n a) := by
  intro n a hw w h
  cases h
  simp [-BitVec.extractLsb'_toNat, decNoMask, decSetfmt, decVector, decode, decodeRaw, onlyIf, fld_encV_op, fld_encV_d, fld_encV_a, fld_encV_b, fld_encV_t, fld_encV_k, fld_encV_s, xsrcOf_xsrcBits, low_2_3, fld_1_8, hw]

theorem repf : ∀ l a b, Statement (.repf l a b) := by
  intro l a b hw w h
  cases h
  simp [-BitVec.extractLsb'_toNat, decNoMask, decRepf, decVector, decode, decodeRaw, fld_encV_op, fld_encV_d, fld_encV_a, fld_encV_b, fld_encV_t, fld_encV_k, fld_encV_s, xsrcOf_xsrcBits, low_v4, fld_1_8, hw]

theorem frameReplayPerformance : ∀ sid, Statement (.frameReplayPerformance sid) := by
  intro _ _ w h
  cases h

theorem sequencerBind : ∀ ci, Statement (.sequencerBind ci) := by
  intro _ _ w h
  cases h

theorem laneGroupGrant : ∀ cl, Statement (.laneGroupGrant cl) := by
  intro _ _ w h
  cases h

theorem vectorSlotGrant : ∀ cl, Statement (.vectorSlotGrant cl) := by
  intro _ _ w h
  cases h

theorem scalarSlotGrant : ∀ cl, Statement (.scalarSlotGrant cl) := by
  intro _ _ w h
  cases h

theorem engineSlotGrant : ∀ cl, Statement (.engineSlotGrant cl) := by
  intro _ _ w h
  cases h

theorem matrixGrant : ∀ cl, Statement (.matrixGrant cl) := by
  intro _ _ w h
  cases h

theorem mmaStep : ∀ ci, Statement (.mmaStep ci) := by
  intro _ _ w h
  cases h

theorem portRetire : ∀ ci, Statement (.portRetire ci) := by
  intro _ _ w h
  cases h

theorem selfTestProduct : ∀ cl mismatch fails, Statement (.selfTestProduct cl mismatch fails) := by
  intro _ _ _ _ w h
  cases h

theorem periodicSelfTestDue : ∀ cl, Statement (.periodicSelfTestDue cl) := by
  intro _ _ w h
  cases h

theorem subarrayRetest : ∀ cl n fails, Statement (.subarrayRetest cl n fails) := by
  intro _ _ _ _ w h
  cases h

theorem icacheFill : ∀ sid, Statement (.icacheFill sid) := by
  intro _ _ w h
  cases h

theorem globalLoadReturn : ∀ sid, Statement (.globalLoadReturn sid) := by
  intro _ _ w h
  cases h

theorem translationRequest : ∀ sid, Statement (.translationRequest sid) := by
  intro _ _ w h
  cases h

theorem translationWalkComplete : ∀ sid, Statement (.translationWalkComplete sid) := by
  intro _ _ w h
  cases h

theorem restanteRelease : ∀ id, Statement (.restanteRelease id) := by
  intro _ _ w h
  cases h

theorem releaseTranslationReturn : ∀ id, Statement (.releaseTranslationReturn id) := by
  intro _ _ w h
  cases h

theorem sliceRequestAccept : ∀ id, Statement (.sliceRequestAccept id) := by
  intro _ _ w h
  cases h

theorem farCopyInvalidation : ∀ n, Statement (.farCopyInvalidation n) := by
  intro _ _ w h
  cases h

theorem scMarkerReturn : ∀ sid m, Statement (.scMarkerReturn sid m) := by
  intro _ _ _ w h
  cases h

theorem atomicAnswerReturn : ∀ id, Statement (.atomicAnswerReturn id) := by
  intro _ _ w h
  cases h

theorem storeAcknowledge : ∀ id, Statement (.storeAcknowledge id) := by
  intro _ _ w h
  cases h

theorem hostWindowWriteAck : ∀ id, Statement (.hostWindowWriteAck id) := by
  intro _ _ w h
  cases h

theorem deferredTrap : ∀ sid, Statement (.deferredTrap sid) := by
  intro _ _ w h
  cases h

theorem userLevelInterrupt : ∀ sid, Statement (.userLevelInterrupt sid) := by
  intro _ _ w h
  cases h

theorem engineCompletionEntry : ∀ ci xid, Statement (.engineCompletionEntry ci xid) := by
  intro _ _ _ w h
  cases h

theorem xcopyStart : ∀ ci xid, Statement (.xcopyStart ci xid) := by
  intro _ _ _ w h
  cases h

theorem xcopyRow : ∀ ci xid, Statement (.xcopyRow ci xid) := by
  intro _ _ _ w h
  cases h

theorem tagCredit : ∀ n, Statement (.tagCredit n) := by
  intro _ _ w h
  cases h

theorem subscriptionSetup : ∀ n, Statement (.subscriptionSetup n) := by
  intro _ _ w h
  cases h

theorem loaderTileSend : ∀ n, Statement (.loaderTileSend n) := by
  intro _ _ w h
  cases h

theorem tileFirstByteArrival : ∀ n ci, Statement (.tileFirstByteArrival n ci) := by
  intro _ _ _ w h
  cases h

theorem bufferFreeSignal : ∀ ci ring tag, Statement (.bufferFreeSignal ci ring tag) := by
  intro _ _ _ _ w h
  cases h

theorem unsubscribeAtLoader : ∀ id, Statement (.unsubscribeAtLoader id) := by
  intro _ _ w h
  cases h

theorem drainStart : ∀ n, Statement (.drainStart n) := by
  intro _ _ w h
  cases h

theorem storerTakeTile : ∀ n, Statement (.storerTakeTile n) := by
  intro _ _ w h
  cases h

theorem storerTilePerformed : ∀ n, Statement (.storerTilePerformed n) := by
  intro _ _ w h
  cases h

theorem streamEngineEntry : ∀ ci e, Statement (.streamEngineEntry ci e) := by
  intro _ _ _ w h
  cases h

theorem streamEngineComplete : ∀ ci e, Statement (.streamEngineComplete ci e) := by
  intro _ _ _ w h
  cases h

theorem commandFetch : ∀ q, Statement (.commandFetch q) := by
  intro _ _ w h
  cases h

theorem completionRecordWrite : ∀ q, Statement (.completionRecordWrite q) := by
  intro _ _ w h
  cases h

theorem launchCommand : ∀ q n, Statement (.launchCommand q n) := by
  intro _ _ _ w h
  cases h

theorem bindStream : ∀ q n, Statement (.bindStream q n) := by
  intro _ _ _ w h
  cases h

theorem sourceMark : ∀ q n, Statement (.sourceMark q n) := by
  intro _ _ _ w h
  cases h

theorem preempt : ∀ q n, Statement (.preempt q n) := by
  intro _ _ _ w h
  cases h

theorem resume : ∀ q n, Statement (.resume q n) := by
  intro _ _ _ w h
  cases h

theorem fenceCommand : ∀ q n, Statement (.fenceCommand q n) := by
  intro _ _ _ w h
  cases h

theorem register : ∀ q n, Statement (.register q n) := by
  intro _ _ _ w h
  cases h

theorem partCreate : ∀ q n, Statement (.partCreate q n) := by
  intro _ _ _ w h
  cases h

theorem partDestroy : ∀ q n, Statement (.partDestroy q n) := by
  intro _ _ _ w h
  cases h

theorem partReset : ∀ q n, Statement (.partReset q n) := by
  intro _ _ _ w h
  cases h

theorem assign : ∀ q n, Statement (.assign q n) := by
  intro _ _ _ w h
  cases h

theorem partResetFreeze : ∀ p, Statement (.partResetFreeze p) := by
  intro _ _ w h
  cases h

theorem partResetComplete : ∀ p, Statement (.partResetComplete p) := by
  intro _ _ w h
  cases h

theorem negativeAcknowledge : ∀ n, Statement (.negativeAcknowledge n) := by
  intro _ _ w h
  cases h

theorem launchDispatch : ∀ p, Statement (.launchDispatch p) := by
  intro _ _ w h
  cases h

theorem launchAging : ∀ p lid, Statement (.launchAging p lid) := by
  intro _ _ _ w h
  cases h

theorem gangPlacement : ∀ p lid, Statement (.gangPlacement p lid) := by
  intro _ _ _ w h
  cases h

theorem placementToken : ∀ p, Statement (.placementToken p) := by
  intro _ _ w h
  cases h

theorem stealRequest : ∀ n, Statement (.stealRequest n) := by
  intro _ _ w h
  cases h

theorem stealAnswer : ∀ n, Statement (.stealAnswer n) := by
  intro _ _ w h
  cases h

theorem stealRetry : ∀ cl lid, Statement (.stealRetry cl lid) := by
  intro _ _ _ w h
  cases h

theorem poolPlacement : ∀ cl, Statement (.poolPlacement cl) := by
  intro _ _ w h
  cases h

theorem taskFirstCycle : ∀ sid, Statement (.taskFirstCycle sid) := by
  intro _ _ w h
  cases h

theorem launchCompletion : ∀ p lid, Statement (.launchCompletion p lid) := by
  intro _ _ _ w h
  cases h

theorem meetNoticeArrival : ∀ n, Statement (.meetNoticeArrival n) := by
  intro _ _ w h
  cases h

theorem pairRetry : ∀ cl, Statement (.pairRetry cl) := by
  intro _ _ w h
  cases h

theorem departureOrder : ∀ n, Statement (.departureOrder n) := by
  intro _ _ w h
  cases h

theorem envelopeArrival : ∀ n, Statement (.envelopeArrival n) := by
  intro _ _ w h
  cases h

theorem returnLuggageArrival : ∀ n, Statement (.returnLuggageArrival n) := by
  intro _ _ w h
  cases h

theorem meetWithdrawal : ∀ sid, Statement (.meetWithdrawal sid) := by
  intro _ _ w h
  cases h

theorem withdrawalArrival : ∀ n, Statement (.withdrawalArrival n) := by
  intro _ _ w h
  cases h

theorem directoryAnswerArrival : ∀ n, Statement (.directoryAnswerArrival n) := by
  intro _ _ w h
  cases h

theorem rollArrival : ∀ n, Statement (.rollArrival n) := by
  intro _ _ w h
  cases h

theorem rollRelease : ∀ n, Statement (.rollRelease n) := by
  intro _ _ w h
  cases h

theorem taintHorizon : ∀ sid, Statement (.taintHorizon sid) := by
  intro _ _ w h
  cases h

theorem waitTimeout : ∀ sid, Statement (.waitTimeout sid) := by
  intro _ _ w h
  cases h

theorem twaitTimeout : ∀ sid, Statement (.twaitTimeout sid) := by
  intro _ _ w h
  cases h

theorem sleepTimeout : ∀ sid, Statement (.sleepTimeout sid) := by
  intro _ _ w h
  cases h

theorem debugRelease : ∀ sid, Statement (.debugRelease sid) := by
  intro _ _ w h
  cases h

theorem contextSave : ∀ sid, Statement (.contextSave sid) := by
  intro _ _ w h
  cases h

theorem contextRestore : ∀ n, Statement (.contextRestore n) := by
  intro _ _ w h
  cases h

theorem checkpoint : Statement (.checkpoint) := by
  intro _ w h
  cases h

theorem undoFree : ∀ cl, Statement (.undoFree cl) := by
  intro _ _ w h
  cases h

theorem strikeDetection : ∀ cl, Statement (.strikeDetection cl) := by
  intro _ _ w h
  cases h

theorem rollbackRestoreComplete : ∀ cl, Statement (.rollbackRestoreComplete cl) := by
  intro _ _ w h
  cases h

theorem accountRecordWrite : ∀ ci, Statement (.accountRecordWrite ci) := by
  intro _ _ w h
  cases h

theorem acctRidxRead : ∀ ci, Statement (.acctRidxRead ci) := by
  intro _ _ w h
  cases h

theorem streamRecordArrival : ∀ p n, Statement (.streamRecordArrival p n) := by
  intro _ _ _ w h
  cases h

theorem watermarkMark : ∀ p n, Statement (.watermarkMark p n) := by
  intro _ _ _ w h
  cases h

theorem sourceIdle : ∀ p n src, Statement (.sourceIdle p n src) := by
  intro _ _ _ _ w h
  cases h

theorem windowLaunch : ∀ p n, Statement (.windowLaunch p n) := by
  intro _ _ _ w h
  cases h

theorem amendLaunch : ∀ p n w, Statement (.amendLaunch p n w) := by
  intro _ _ _ _ w h
  cases h

theorem recordPortRefill : ∀ sid, Statement (.recordPortRefill sid) := by
  intro _ _ w h
  cases h

theorem publication : ∀ p n, Statement (.publication p n) := by
  intro _ _ _ w h
  cases h

theorem flitSend : ∀ m, Statement (.flitSend m) := by
  intro _ _ w h
  cases h

theorem flitArrival : ∀ m crcOk, Statement (.flitArrival m crcOk) := by
  intro _ _ _ w h
  cases h

theorem flitReplay : ∀ m, Statement (.flitReplay m) := by
  intro _ _ w h
  cases h

theorem flitAcknowledge : ∀ m, Statement (.flitAcknowledge m) := by
  intro _ _ w h
  cases h

theorem laneFailure : ∀ m, Statement (.laneFailure m) := by
  intro _ _ w h
  cases h

theorem retrainComplete : ∀ m ok, Statement (.retrainComplete m ok) := by
  intro _ _ _ w h
  cases h

theorem replayReissue : ∀ m lo hi, Statement (.replayReissue m lo hi) := by
  intro _ _ _ _ w h
  cases h

theorem remoteRequestArrival : ∀ n, Statement (.remoteRequestArrival n) := by
  intro _ _ w h
  cases h

theorem remoteResponseArrival : ∀ n, Statement (.remoteResponseArrival n) := by
  intro _ _ w h
  cases h

theorem hostWrite : ∀ aperture addr data, Statement (.hostWrite aperture addr data) := by
  intro _ _ _ _ w h
  cases h

theorem hostRead : ∀ aperture addr, Statement (.hostRead aperture addr) := by
  intro _ _ _ w h
  cases h

theorem qpidxWrite : ∀ q v, Statement (.qpidxWrite q v) := by
  intro _ _ _ w h
  cases h

theorem queueEnable : ∀ q en, Statement (.queueEnable q en) := by
  intro _ _ _ w h
  cases h

theorem cqridxWrite : ∀ q v, Statement (.cqridxWrite q v) := by
  intro _ _ _ w h
  cases h

theorem xlinv : ∀ p v, Statement (.xlinv p v) := by
  intro _ _ _ w h
  cases h

theorem errorRecordClear : ∀ p die n, Statement (.errorRecordClear p die n) := by
  intro _ _ _ _ w h
  cases h

theorem rtctlWrite : ∀ slice v, Statement (.rtctlWrite slice v) := by
  intro _ _ _ w h
  cases h

theorem clshareWrite : ∀ cl v, Statement (.clshareWrite cl v) := by
  intro _ _ _ w h
  cases h

theorem featctlGo : Statement (.featctlGo) := by
  intro _ w h
  cases h

theorem deviceRegisterWrite : ∀ p off v, Statement (.deviceRegisterWrite p off v) := by
  intro _ _ _ _ w h
  cases h

theorem monitorVerify : ∀ sigOk version, Statement (.monitorVerify sigOk version) := by
  intro _ _ _ w h
  cases h

theorem hbmTraining : ∀ ok, Statement (.hbmTraining ok) := by
  intro _ _ w h
  cases h

theorem linkTraining : ∀ dieOk hostOk, Statement (.linkTraining dieOk hostOk) := by
  intro _ _ _ w h
  cases h

theorem clusterSelfTest : ∀ failed, Statement (.clusterSelfTest failed) := by
  intro _ _ w h
  cases h

theorem serviceFirmwareStart : ∀ sigOk version, Statement (.serviceFirmwareStart sigOk version) := by
  intro _ _ _ w h
  cases h

theorem startFailed : ∀ reason, Statement (.startFailed reason) := by
  intro _ _ w h
  cases h

theorem stageTimeout : Statement (.stageTimeout) := by
  intro _ w h
  cases h

theorem monitorImageLoad : ∀ sigOk version, Statement (.monitorImageLoad sigOk version) := by
  intro _ _ _ w h
  cases h

theorem attestation : ∀ nonce, Statement (.attestation nonce) := by
  intro _ _ w h
  cases h

theorem powerOn : Statement (.powerOn) := by
  intro _ w h
  cases h

theorem hostReset : Statement (.hostReset) := by
  intro _ w h
  cases h

theorem monitorReset : Statement (.monitorReset) := by
  intro _ w h
  cases h

theorem watchdog : Statement (.watchdog) := by
  intro _ w h
  cases h

theorem thermal : Statement (.thermal) := by
  intro _ w h
  cases h

theorem supply : Statement (.supply) := by
  intro _ w h
  cases h

theorem infraUncorrected : Statement (.infraUncorrected) := by
  intro _ w h
  cases h

theorem illegalInstruction : ∀ w, Statement (.illegalInstruction w) := by
  intro _ _ w h
  cases h

theorem fetchFault : ∀ code, Statement (.fetchFault code) := by
  intro _ _ w h
  cases h

theorem launchIdAnswer : ∀ sid, Statement (.launchIdAnswer sid) := by
  intro _ _ w h
  cases h

theorem visitorSlotFree : ∀ sid, Statement (.visitorSlotFree sid) := by
  intro _ _ w h
  cases h

theorem responseAcknowledgement : ∀ n, Statement (.responseAcknowledgement n) := by
  intro _ _ w h
  cases h

theorem hbmEccError : ∀ addr corrected syndrome, Statement (.hbmEccError addr corrected syndrome) := by
  intro _ _ _ _ w h
  cases h

theorem sramEccCorrection : ∀ engine die parts syndrome, Statement (.sramEccCorrection engine die parts syndrome) := by
  intro _ _ _ _ _ w h
  cases h

theorem sliceUncorrectedError : ∀ slice, Statement (.sliceUncorrectedError slice) := by
  intro _ _ w h
  cases h

end Sys2Proof.Laws.RoundTrip
end

