-- ==== Sys2Proof/Tests/Slice0.lean ====
section
/-!
SUPPORT. Tests: words of the encoding tables, terms that the checks refuse, single steps with results from the spec, and, for every statement for the
provers, states that meet its hypotheses.
-/

namespace Sys2Proof.Tests

open Sys2Proof Sys2Proof.Machine

set_option Elab.async false

/-! Small states. -/

/-- A context that runs at 0x1000 with the registers given. -/
def ctx0 (x : List (Fin 32 × Word)) : Ctx := { act := .running, pc := 0x1000, x := x.foldl (fun v p => v.set p.1 p.2) (Vector.replicate 32 0) }
/-- One context, in slot 0 of cluster 0. -/
def in0 (c : Ctx) : State := { ctxs := [(0, c)] }
def at0 (x : List (Fin 32 × Word)) : State := in0 (ctx0 x)
/-- A page of partition 0 at 0x10000, readable, writable and executable in user mode, at physical 0x20000, cached at the
stations of cluster 0 and of the units outside the clusters. -/
def paged (s : State) : State :=
  let x : Xlat := { part := 0, pid := 0, va := 0x10000, bits := 12, leaf := 0x2003F }
  { s with stations := [(0, [x]), (stationOf unitCluster, [x])], parts := [(0, { grants := [(0x20000, 0x1000)] })] }
/-- Whether a meaning answers a next state with a property. -/
def after (i : Instr) (s : State) (p : State → Bool) : Bool :=
  match exec i s with
  | .next t => p t
  | _ => false
theorem next_of_after {i : Instr} {s : State} {p : State → Bool} (h : after i s p = true) : ∃ t, exec i s = .next t ∧ p t = true := by
  unfold after at h
  split at h <;> simp_all
/-- With one context in the table every other slot is empty. -/
theorem ctx_other {s : State} {k o : Nat} {c : Ctx} (h : s.ctxs = [(k, c)]) (ho : o ≠ k) : s.ctx o = {} := by
  unfold State.ctx; rw [h]; simp [Tab.get, Ne.symm ho]
/-- The access of slot 0 pending at the bank unit of cluster 0. -/
def access (op : BankOp) (off n : Nat) (tags : Bool) : BankAccess := { op := op, cl := 0, tags := tags, off := off, size := n, serial := 0 }
/-- Slot 0 of a state of one context, with one access pending, at the cycle of the scalar slot. -/
def pendingIn (s : State) (a : BankAccess) (act : Activity) : State := { s with ctxs := [(0, { s.ctx 0 with act := act, pend := [a] })], now := 7 }
/-- It is the one that the slot serves. -/
theorem pending_serves (s : State) (a : BankAccess) (act : Activity) (h : (pendingIn s a act).slotDue 0 7 = true ∧ (pendingIn s a act).bankBlocked a = false) :
    (pendingIn s a act).servesAlone 0 0 a [] :=
  ⟨rfl, h.1, rfl, fun _ _ ho => by rw [ctx_other rfl ho], h.2⟩
/-- A form that waits for the slot is served. -/
theorem form_served (s : State) (i : Instr) (off n : Nat) (tags : Bool)
    (h : (pendingIn s (access (.form i) off n tags) (.stalled .slotWait)).slotDue 0 7 = true ∧
      (pendingIn s (access (.form i) off n tags) (.stalled .slotWait)).bankBlocked (access (.form i) off n tags) = false) :
    (pendingIn s (access (.form i) off n tags) (.stalled .slotWait)).servesForm 0 0 (access (.form i) off n tags) i :=
  ⟨pending_serves _ _ _ h, rfl, rfl⟩

/-- Tables 05-1 and 05-3: rd c3, rs1 x17, rs2 x6; CLZ, CTZ and POPC with a zero rs2; BEXT and BDEP last. -/
theorem test_decode_op_forms : ([
    (0b000001_100011_0010001_0000110_000000, .add (.ch 3) (.x 17) (.x 6)),
    (0b000001_100011_0010001_0000110_000001, .sub (.ch 3) (.x 17) (.x 6)),
    (0b000001_100011_0010001_0000110_000010, .and (.ch 3) (.x 17) (.x 6)),
    (0b000001_100011_0010001_0000110_000011, .or (.ch 3) (.x 17) (.x 6)),
    (0b000001_100011_0010001_0000110_000100, .xor (.ch 3) (.x 17) (.x 6)),
    (0b000001_100011_0010001_0000110_000101, .andn (.ch 3) (.x 17) (.x 6)),
    (0b000001_100011_0010001_0000110_000110, .sll (.ch 3) (.x 17) (.x 6)),
    (0b000001_100011_0010001_0000110_000111, .srl (.ch 3) (.x 17) (.x 6)),
    (0b000001_100011_0010001_0000110_001000, .sra (.ch 3) (.x 17) (.x 6)),
    (0b000001_100011_0010001_0000110_001001, .rol (.ch 3) (.x 17) (.x 6)),
    (0b000001_100011_0010001_0000110_001010, .slt (.ch 3) (.x 17) (.x 6)),
    (0b000001_100011_0010001_0000110_001011, .sltu (.ch 3) (.x 17) (.x 6)),
    (0b000001_100011_0010001_0000110_001100, .min (.ch 3) (.x 17) (.x 6)),
    (0b000001_100011_0010001_0000110_001101, .max (.ch 3) (.x 17) (.x 6)),
    (0b000001_100011_0010001_0000110_001110, .minu (.ch 3) (.x 17) (.x 6)),
    (0b000001_100011_0010001_0000110_001111, .maxu (.ch 3) (.x 17) (.x 6)),
    (0b000001_100011_0010001_0000110_010000, .mul (.ch 3) (.x 17) (.x 6)),
    (0b000001_100011_0010001_0000110_010001, .mulh (.ch 3) (.x 17) (.x 6)),
    (0b000001_100011_0010001_0000110_010010, .mulhu (.ch 3) (.x 17) (.x 6)),
    (0b000001_100011_0010001_0000110_010011, .div (.ch 3) (.x 17) (.x 6)),
    (0b000001_100011_0010001_0000110_010100, .divu (.ch 3) (.x 17) (.x 6)),
    (0b000001_100011_0010001_0000110_010101, .rem (.ch 3) (.x 17) (.x 6)),
    (0b000001_100011_0010001_0000110_010110, .remu (.ch 3) (.x 17) (.x 6)),
    (0b000001_001001_1100100_0000000_010111, .clz (.x 9) (.ch 4 true)),
    (0b000001_001001_1100100_0000000_011000, .ctz (.x 9) (.ch 4 true)),
    (0b000001_001001_1100100_0000000_011001, .popc (.x 9) (.ch 4 true)),
    (0b000001_001001_0000001_1000010_011010, .bext (.x 9) (.x 1) (.ch 2 false)),
    (0b000001_001001_0000001_1000010_011011, .bdep (.x 9) (.x 1) (.ch 2 false))
  ] : List (IWord × Instr)).all (fun p => decide (decode p.1 = some p.2) && decide (encode p.2 = some p.1)) = true := by decide

/-- Table 05-4 and the words of chapter 21. -/
theorem test_decode_immediate_forms : ([
    (0b000010_000111_1000101_1100000000000, .addi (.x 7) (.ch 5 false) 0x1800),
    (0b000011_000111_1000101_1100000000000, .andi (.x 7) (.ch 5 false) 0x1800),
    (0b000100_000111_1000101_1100000000000, .ori (.x 7) (.ch 5 false) 0x1800),
    (0b000101_000111_1000101_1100000000000, .xori (.x 7) (.ch 5 false) 0x1800),
    (0b000110_000111_0001000_0000000100001, .slli (.x 7) (.x 8) 33),
    (0b000110_000111_0001000_0000001100001, .srli (.x 7) (.x 8) 33),
    (0b000110_000111_0001000_0000010100001, .srai (.x 7) (.x 8) 33),
    (0b000111_100001_0001000_0000000000001, .slti (.ch 1) (.x 8) 1),
    (0b001000_100001_0001000_1111111111111, .sltiu (.ch 1) (.x 8) 0x1FFF),
    (0b001001_010100_10000000000000000001, .lui 20 0x80001),
    (0b001010_010100_00000000000000000101, .auipc 20 5)
  ] : List (IWord × Instr)).all (fun p => decide (decode p.1 = some p.2) && decide (encode p.2 = some p.1)) = true := by decide

/-- Tables 05-1 and 05-4. -/
theorem test_decode_control_forms : ([
    (0b001011_000_00101_11110_1111111111100, .beq 5 30 0x1FFC),
    (0b001011_001_00101_11110_1111111111100, .bne 5 30 0x1FFC),
    (0b001011_100_00101_11110_1111111111100, .blt 5 30 0x1FFC),
    (0b001011_101_00101_11110_1111111111100, .bge 5 30 0x1FFC),
    (0b001011_110_00101_11110_1111111111100, .bltu 5 30 0x1FFC),
    (0b001011_111_00101_11110_1111111111100, .bgeu 5 30 0x1FFC),
    (0b001100_000001_11111111111111110000, .jal 1 0xFFFF0),
    (0b001101_000001_0000010_0000001000000, .jalr 1 2 0x40)
  ] : List (IWord × Instr)).all (fun p => decide (decode p.1 = some p.2) && decide (encode p.2 = some p.1)) = true := by decide

/-- Table 05-4: ACQ and Z of a load, REL of a store. -/
theorem test_decode_loads_and_stores : ([
    (0b001110_0000100_00001_11_000_000000010, .ld (.x 4) 1 3 2),
    (0b001110_1000100_00001_10_010_111111111, .ldu (.ch 4) 1 2 0x1FF),
    (0b001110_0000100_00001_00_100_100000000, .lda (.x 4) 1 0 0x100),
    (0b001111_1100110_11111_01_000_000000111, .st (.ch 6 true) 31 1 7),
    (0b001111_1000110_11111_11_100_000000111, .stl (.ch 6 false) 31 3 7)
  ] : List (IWord × Instr)).all (fun p => decide (decode p.1 = some p.2) && decide (encode p.2 = some p.1)) = true := by decide

/-- Table 05-5: func6[5] is the width. -/
theorem test_decode_atomics : ([
    (0b010000_000011_0000100_0000101_000000, .amoAdd 3 4 5 false),
    (0b010000_000011_0000100_0000101_100001, .amoAnd 3 4 5 true),
    (0b010000_000011_0000100_0000101_000010, .amoOr 3 4 5 false),
    (0b010000_000011_0000100_0000101_100011, .amoXor 3 4 5 true),
    (0b010000_000011_0000100_0000101_000100, .amoMin 3 4 5 false),
    (0b010000_000011_0000100_0000101_100101, .amoMax 3 4 5 true),
    (0b010000_000011_0000100_0000101_000110, .amoMinu 3 4 5 false),
    (0b010000_000011_0000100_0000101_100111, .amoMaxu 3 4 5 true),
    (0b010000_000011_0000100_0000101_001000, .amoSwap 3 4 5 false),
    (0b010000_000011_0000100_0000101_101001, .cas 3 4 5 true)
  ] : List (IWord × Instr)).all (fun p => decide (decode p.1 = some p.2) && decide (encode p.2 = some p.1)) = true := by decide

/-- Table 05-5. -/
theorem test_decode_synchronisation : ([
    (0b010001_000000_0000000_0000000_001100, .fence true 4),
    (0b010001_000000_0000000_0000000_000001, .fence false 1),
    (0b010001_000011_0000100_0000101_010001, .wait 3 4 5 true),
    (0b010001_000011_0000100_0000000_100001, .notify 3 4 true)
  ] : List (IWord × Instr)).all (fun p => decide (decode p.1 = some p.2) && decide (encode p.2 = some p.1)) = true := by decide

/-- Table 05-5 and the third worked encoding of chapter 5; the element codes of R183. -/
theorem test_decode_matrix_forms : ([
    (0x49230580, .mma 1 2 3 0 1 0x0C),
    (0b010010_11_0000_0000_000_000_00000_00001, .mzero 3),
    (0b010010_01_0000_0000_000_000_00000_00010, .mwait 1),
    (0b010010_00_0000_0000_000_000_00000_00011, .mtest),
    (0x4C110240, .mlda 0 true 8 9),
    (0x4C20C1C1, .msta 1 false 6 7),
    (0x4C002002, .mshape 0 1),
    (0b010011_000000_0000101_0000000_000011, .mfmt 5),
    (0x4C00A004, .msave 5),
    (0x4C00A005, .mrstr 5)
  ] : List (IWord × Instr)).all (fun p => decide (decode p.1 = some p.2) && decide (encode p.2 = some p.1)) = true := by decide

/-- Table 05-5 and the words of chapter 22. -/
theorem test_decode_tile_and_engine_forms : ([
    (0x50002080, .rdef 0 1 2),
    (0b010100_000111_0000000_0000000_000001, .rpop 7),
    (0b010100_000111_0000000_0000000_000010, .rpush 7),
    (0b010100_000000_0000100_0000101_000011, .texp 4 5),
    (0b010100_000011_0000100_0000101_000100, .ttag 3 4 5),
    (0b010100_000011_0000100_0000101_000101, .twait 3 4 5),
    (0x54020000, .xcopy 16),
    (0x54030001, .xsub 24),
    (0b010101_000000_0001001_0000000_000010, .xunsub 9),
    (0b010101_000000_0001001_0000000_000011, .xdrain 9),
    (0b010101_000010_0001001_0000000_000100, .xstat 2 9)
  ] : List (IWord × Instr)).all (fun p => decide (decode p.1 = some p.2) && decide (encode p.2 = some p.1)) = true := by decide

/-- Table 05-5; PEERV with vector registers, PEER.now by its flag. -/
theorem test_decode_meeting_forms : ([
    (0x585142C0, .meet 5 10 11),
    (0x58000001, .part),
    (0x5850E002, .peer 5 7 false),
    (0x58206003, .peerv 2 3),
    (0b010110_010011_0001011_0001100_010000, .rollNone 19 11 12),
    (0b010110_010011_0001011_0001100_010001, .rollAdd 19 11 12),
    (0b010110_010011_0001011_0001100_010010, .rollMin 19 11 12),
    (0b010110_010011_0001011_0001100_010011, .rollMax 19 11 12),
    (0b010110_010011_0001011_0001100_010100, .rollUmin 19 11 12),
    (0b010110_010011_0001011_0001100_010101, .rollUmax 19 11 12),
    (0b010110_010011_0001011_0001100_010110, .rollAnd 19 11 12),
    (0b010110_010011_0001011_0001100_010111, .rollOr 19 11 12),
    (0b010110_010011_0001011_0001100_011000, .rollXor 19 11 12)
  ] : List (IWord × Instr)).all (fun p => decide (decode p.1 = some p.2) && decide (encode p.2 = some p.1)) = true := by decide

/-- Table 05-5. -/
theorem test_decode_task_forms : ([
    (0x5C5142C0, .launch 5 10 11),
    (0x5C000001, .tend),
    (0x5C500002, .yield 5),
    (0b010111_000000_0000100_0000000_000011, .sbind 4),
    (0x5C02E004, .chbind 0 23),
    (0b010111_000000_0000100_0000101_000101, .emit 4 5),
    (0b010111_000000_0000100_0000101_000110, .wmk 4 5),
    (0b010111_000000_0000100_0000000_000111, .publ 4),
    (0b010111_000011_0000100_0000000_001000, .acct 3 4)
  ] : List (IWord × Instr)).all (fun p => decide (decode p.1 = some p.2) && decide (encode p.2 = some p.1)) = true := by decide

/-- Tables 05-1 and 05-5. -/
theorem test_decode_system_forms : ([
    (0x60500001, .csrr 5 1),
    (0x64026011, .csrw 0 19 0x11),
    (0b011010_000101_0000110_1000000000000, .csrs 5 6 0x1000),
    (0b011011_000101_0000110_1000000000000, .csrc 5 6 0x1000),
    (0x70000005, .scall 5),
    (0x70100000, .tret),
    (0b011100_000010_00000000000000000000, .uiret),
    (0b011100_000011_11111111111111111111, .sleep 0xFFFFF),
    (0x70400001, .brk 1)
  ] : List (IWord × Instr)).all (fun p => decide (decode p.1 = some p.2) && decide (encode p.2 = some p.1)) = true := by decide

/-- Tables 05-6 and 05-7, with the words of chapters 5 and 22. -/
theorem test_decode_vector_forms : ([
    (0x802210E0, .vadd (.v 1) (.v 4) (.v 8) 14 0),
    (0x8041E862, .vadd (.v 2) (.v 3) (.ch 4 true) 6 1),
    (0b100000_10101_000010_110011_01000_000_0, .vadd (.ch 5) (.v 2) (.ch 3 true) 8 0),
    (0b100000_10101_000010_110011_01000_000_1, .vaddSat (.ch 5) (.v 2) (.ch 3 true) 8 0),
    (0b100001_10101_000010_110011_01000_000_0, .vsub (.ch 5) (.v 2) (.ch 3 true) 8 0),
    (0b100001_10101_000010_110011_01000_000_1, .vsubSat (.ch 5) (.v 2) (.ch 3 true) 8 0),
    (0b100010_10101_000010_110011_01000_000_0, .vmul (.ch 5) (.v 2) (.ch 3 true) 8 0),
    (0b100010_10101_000010_110011_01000_000_1, .vmulSat (.ch 5) (.v 2) (.ch 3 true) 8 0),
    (0b100101_10101_000010_110011_01000_000_0, .vmin (.ch 5) (.v 2) (.ch 3 true) 8 0),
    (0b100101_10101_000010_110011_01000_000_1, .vmax (.ch 5) (.v 2) (.ch 3 true) 8 0),
    (0b100111_10101_000010_110011_01000_000_0, .vand (.ch 5) (.v 2) (.ch 3 true) 8 0),
    (0b100111_10101_000010_110011_01000_000_1, .vor (.ch 5) (.v 2) (.ch 3 true) 8 0),
    (0b101000_00110_100010_000011_00101_100_0, .vxor (.v 6) (.ch 2 false) (.v 3) 5 4),
    (0b101000_00110_100010_000011_00101_100_1, .vshr (.v 6) (.ch 2 false) (.v 3) 5 4),
    (0b101001_00110_100010_000011_00101_100_0, .vshl (.v 6) (.ch 2 false) (.v 3) 5 4),
    (0b101001_00110_100010_000011_00101_100_1, .vshlSat (.v 6) (.ch 2 false) (.v 3) 5 4),
    (0b101010_00110_100010_000011_00101_100_0, .vshra (.v 6) (.ch 2 false) (.v 3) 5 4),
    (0b101010_00110_100010_000011_00101_100_1, .vsel (.v 6) (.ch 2 false) (.v 3) 5 4),
    (0b100100_00110_100010_000011_00101_100_0, .vmulh (.v 6) (.ch 2 false) (.v 3) 5 4),
    (0b101111_00110_100010_000011_00101_100_0, .vperm (.v 6) (.ch 2 false) (.v 3) 5 4),
    (0b110000_00110_100010_000011_00101_100_0, .vzip (.v 6) (.ch 2 false) (.v 3) 5 4),
    (0b110000_00110_100010_000011_00101_100_1, .vunzip (.v 6) (.ch 2 false) (.v 3) 5 4)
  ] : List (IWord × Instr)).all (fun p => decide (decode p.1 = some p.2) && decide (encode p.2 = some p.1)) = true := by decide

/-- Table 05-7 and R144 to R154: the M field of VABS, VRED, VCVT and VPLANE, the K field of VCMP. -/
theorem test_decode_vector_forms_with_modifiers : ([
    (0x8C0210E0, .vfma 0 (.v 4) (.v 8) 14 0),
    (0b100011_00010_000011_000100_01100_111_1, .vfms 2 (.v 3) (.v 4) 12 7),
    (0b100100_00010_000011_000001_00100_001_1, .vabs (.v 2) (.v 3) true 4 1),
    (0b100110_00010_000011_000000_01100_001_0, .vneg (.v 2) (.v 3) false 12 1),
    (0b100110_00010_000011_000000_00000_001_1, .vmov (.v 2) (.v 3) 0 1),
    (0b101011_00111_000011_000100_01001_010_0, .vcmpEq 7 (.v 3) (.v 4) 9 2),
    (0b101011_00111_000011_000100_01001_010_1, .vcmpNe 7 (.v 3) (.v 4) 9 2),
    (0b101100_00111_000011_000100_01001_010_0, .vcmpLt 7 (.v 3) (.v 4) 9 2),
    (0b101100_00111_000011_000100_01001_010_1, .vcmpLe 7 (.v 3) (.v 4) 9 2),
    (0b101101_00010_001001_000000_00111_000_0, .vbcast (.v 2) (.x 9) 7 0),
    (0b101101_00010_001001_000100_00111_000_1, .vred (.v 2) (.v 9) 4 7 0),
    (0b101110_00010_001001_101110_01000_000_0, .vcvt (.v 2) (.v 9) 0x2E 8 0),
    (0b101110_00010_001001_001110_01100_000_1, .vcvtSr (.v 2) (.v 9) 0x0E 12 0),
    (0b101111_00010_000011_100100_01110_000_1, .vslide (.v 2) (.v 3) (.ch 4 false) 14 0),
    (0b110001_00010_000011_000100_00100_000_0, .vdot 2 (.v 3) (.v 4) 4 0),
    (0b110001_00010_000011_010011_00011_000_1, .vplane (.v 2) (.v 3) 4 true true 3 0)
  ] : List (IWord × Instr)).all (fun p => decide (decode p.1 = some p.2) && decide (encode p.2 = some p.1)) = true := by decide

/-- Table 05-7. -/
theorem test_decode_special_memory_and_mask_forms : ([
    (0b110010_00010_000011_000100_00101_000_0, .vqnt (.v 2) (.v 3) (.x 4) 5 0),
    (0b110010_00010_000011_000100_00001_000_1, .vdqnt (.v 2) (.v 3) (.x 4) 1 0),
    (0b110011_00010_000011_000000_01110_000_0, .vrcp (.v 2) (.v 3) 14 0),
    (0b110011_00010_000011_000000_01110_000_1, .vrsq (.v 2) (.v 3) 14 0),
    (0b110100_00010_000011_000000_01110_000_0, .vex2 (.v 2) (.v 3) 14 0),
    (0b110100_00010_000011_000000_01110_000_1, .vlg2 (.v 2) (.v 3) 14 0),
    (0b110101_00010_000011_000000_01110_000_0, .vsin (.v 2) (.v 3) 14 0),
    (0b110101_00010_000011_000000_01110_000_1, .vtanh (.v 2) (.v 3) 14 0),
    (0b110110_10010_000011_000000_01110_000_0, .vld (.ch 2) 3 14 0),
    (0b110110_00010_000011_000000_01110_101_1, .vst 2 3 14 5),
    (0b110111_00010_000011_000100_01110_101_0, .vlds (.v 2) 3 (.x 4) 14 5),
    (0b110111_00010_000011_000100_01110_101_1, .vsts 2 3 (.x 4) 14 5),
    (0b111000_00010_000011_000100_01110_101_0, .vgthr (.v 2) 3 (.v 4) 14 5),
    (0b111000_00010_000011_000100_01110_101_1, .vsctr 2 3 (.v 4) 14 5),
    (0b111001_00001_000010_000011_00000_000_0, .kand 1 2 3),
    (0b111001_00001_000010_000011_00000_000_1, .kor 1 2 3),
    (0b111010_00001_000010_000000_00000_000_0, .knot 1 2),
    (0b111010_01001_000010_000000_00000_000_1, .kpopc (.x 9) 2),
    (0b111011_00011_001001_000000_00000_000_0, .setfmt 3 (.x 9)),
    (0xEC228C01, .repf 1 (.x 5) (.x 6))
  ] : List (IWord × Instr)).all (fun p => decide (decode p.1 = some p.2) && decide (encode p.2 = some p.1)) = true := by decide
/-- Words of R89, R90 and the worked encodings of chapter 5 that are no instruction: the permanently illegal majors, a reserved major, `func6` 0x1C, PK on
a register, a channel destination under a mask, `acc2` 0b10, a nonzero unused field, a reserved type code. -/
theorem test_decode_refuses : ([0x00000000, 0xFFFFFFFF, 0x74000000, 0x045861DC, 0x045869C0, 0x82A1E862, 0x4A230580, 0x58000041, 0x802211C0] : List IWord).all
    (fun w => decide (decode w = none)) = true := by decide

/-- An ill-formed term for each check of the scalar and matrix forms: LDU.d, a reserved scope, acc2 beyond what the form admits, an unlisted element
type. -/
theorem test_wellFormed_scalar : ([.ldu (.x 1) 2 3 0, .fence true 5, .mma 2 0 0 0 0 0, .mma 3 0 0 0 0 0, .mzero 2, .mwait 2, .mlda 3 false 1 2, .msta 7 false 1 2] : List Instr).all
    (fun i => !wellFormed i) = true := by decide

/-- An ill-formed term for each check of the vector forms: a channel destination under a mask, and for each class of types of Table 08-1 one outside it,
then the modifiers. -/
theorem test_wellFormed_vector : ([.vadd (.ch 5) (.v 3) (.v 4) 6 1, .vadd (.v 1) (.v 2) (.v 3) 28 0, .vfma 1 (.v 2) (.v 3) 28 0, .vmulh (.v 1) (.v 2) (.v 3) 12 0,
    .vabs (.v 1) (.v 2) true 14 0, .vmov (.v 1) (.v 2) 28 0, .vshr (.v 1) (.v 2) (.v 3) 14 0, .vcmpEq 1 (.v 2) (.v 3) 31 0, .vred (.v 1) (.v 2) 6 8 0, .vred (.v 1) (.v 2) 3 14 0,
    .vcvt (.v 1) (.v 2) 28 14 0, .vcvtSr (.v 1) (.v 2) 8 14 0, .vdot 1 (.v 2) (.v 3) 8 0, .vplane (.v 1) (.v 2) 4 false true 0 0, .vplane (.v 1) (.v 2) 2 false false 0 0,
    .vqnt (.v 1) (.v 2) (.x 3) 4 0, .vrcp (.v 1) (.v 2) 15 0, .vlds (.v 1) 2 (.x 3) 0 0, .vgthr (.v 1) 2 (.v 3) 4 0, .vst 1 2 28 0] : List Instr).all
    (fun i => !wellFormed i) = true := by decide

/-! Hypotheses of the statements met. -/

theorem meets_ComputingFormsGiveTheirValue : let s := in0 { ctx0 [(5, 7), (6, 9)] with c := (Vector.replicate 32 0).set 3 0x11, aq := (Vector.replicate 8 []).set 1 [4] }
    (s.readSrcs [] [.x 5, .x 6] = some ([7, 9], []) ∧ s.fieldsReady [.x 3] [.x 5, .x 6] []) ∧
    (s.readSrcs [] [.ch 3 false, .x 6] = some ([4, 9], [.aq 1]) ∧ s.fieldsReady [.ch 3] [.ch 3 false, .x 6] []) ∧
    (s.readSrcs [] [.ch 4 true] = some ([0], []) ∧ s.fieldsReady [.x 0] [.ch 4 true] []) ∧ latencyOf (.div (.x 3) (.x 5) (.x 6)) = 18 ∧ s.myCore.divFree ≤ s.now ∧
    (let u : State := { s with cores := [(0, { divFree := 18 })] }; u.readSrcs [] [.x 5, .x 6] = some ([7, 9], []) ∧ u.fieldsReady [.x 3] [.x 5, .x 6] [] ∧ u.now < u.myCore.divFree) := by decide +kernel

theorem meets_ControlFormsComplete : let s := at0 [(5, 0x2001), (6, 0x2002), (7, 0x8000000000000000)]
    s.regsReady [5, 6] [] ∧ s.regsReady [] [1] ∧ s.regsReady [6] [1] ∧ (wordOfInt ((s.me.rx 6).toInt + (2 : BitVec 13).toInt)).toNat % 4 = 0 ∧
    (wordOfInt ((s.me.rx 5).toInt + (0 : BitVec 13).toInt)).toNat % 4 ≠ 0 ∧ 2 ^ 56 ≤ (wordOfInt ((s.me.rx 7).toInt + (0 : BitVec 13).toInt)).toNat := by decide +kernel

theorem meets_BadBindingsTrap : let s := in0 { ctx0 [] with c := (Vector.replicate 32 0).set 3 0x24 }
    s.me.awaits (srcRes (.ch 3 false) ++ srcRes (.x 5) ++ dstRes (.x 1)) = none ∧
    ((srcChan (.ch 3 false) ++ srcChan (.x 5)).any s.badSrc || (dstChan (.x 1)).any s.badDst) = true := by decide +kernel

theorem meets_LoadsReadTheScratchpad :
    (let s := at0 [(5, 0xF0000000000100)];
      s.fieldsReady [.x 4] [] [(5 : BitVec 5).toNat] ∧ s.memHolds = none ∧ s.window 0 (wordOfInt ((s.me.rx 5).toInt + 8)) 8 8 = .ok (.bank 0 0x108) ∧
      s.bankReady (access (.load (.x 4) true false) 0x108 8 false)) ∧
    (pendingIn (at0 []) (access (.load (.x 4) true false) 0x108 8 false) .running).servesAlone 0 0 (access (.load (.x 4) true false) 0x108 8 false) [] :=
  ⟨by decide +kernel, pending_serves _ _ _ (by decide +kernel)⟩

theorem meets_LoadsReadMemoryAndRegisters : let s := paged (at0 [(5, 0x10008), (6, 0xFE000000000000), (7, 0xF4000000000010), (8, 0xFE0000000F0000)])
    (s.fieldsReady [.x 4] [] [(5 : BitVec 5).toNat] ∧ s.memHolds = none ∧ s.window 0 (wordOfInt ((s.me.rx 5).toInt + 8)) 8 8 = .ok (.global 0x10010) ∧
      s.atomicOverlap 0 0 0x10010 8 = false) ∧
    (s.window 0 (wordOfInt ((s.me.rx 6).toInt + 0)) 8 8 = .ok (.device 0) ∧ nearPage 0 = false ∧ (s.devRead 0 0 8).isSome = true ∧
      s.window 0 (wordOfInt ((s.me.rx 8).toInt + 0)) 8 8 = .ok (.device 0xF0000) ∧ nearPage 0xF0000 = true ∧ s.devPending 0 = false ∧ (s.devRead 0 0xF0000 8).isSome = true) ∧
    (s.window 0 (wordOfInt ((s.me.rx 7).toInt + 0)) 8 8 = .ok (.tag 0x10) ∧ s.bankReady (access (.load (.x 4) true false) 0x10 8 true)) := by
  decide +kernel

theorem meets_StoresWriteTheScratchpad :
    (let s := at0 [(5, 0xF0000000000100), (6, 1)];
      s.memFree [5, 6] [] ∧ s.window 0 (wordOfInt ((s.me.rx 5).toInt + (-1) * 8)) 8 8 = .ok (.bank 0 0xF8) ∧ s.fenceWait 0 3 = none ∧
      s.bankReady (access (.store 1) 0xF8 8 false)) ∧
    (pendingIn (at0 []) (access (.store 1) 0xF8 8 false) .running).servesAlone 0 0 (access (.store 1) 0xF8 8 false) [] :=
  ⟨by decide +kernel, pending_serves _ _ _ (by decide +kernel)⟩

theorem meets_StoresAreHeldOrWriteRegisters :
    (let s := paged (in0 { ctx0 [(5, 0x10008), (8, 0xFE0000000F1000), (7, 0xF4000000000010), (9, 0xF0000000000100)] with
        mode := true, c := (Vector.replicate 32 0).set 3 0x11, aq := (Vector.replicate 8 []).set 1 [4] });
      s.memFree [5, 6] [] ∧ s.window 0 (wordOfInt ((s.me.rx 5).toInt + 0)) 8 8 = .ok (.global 0x10008) ∧ s.restFull 0 1 = false ∧
      s.fieldsReady [] [.ch 3 false] [(5 : BitVec 5).toNat] ∧ s.memHolds = none ∧ s.readSrcs [] [.ch 3 false] = some ([4], [.aq 1]) ∧ s.fenceWait 0 3 = none ∧
      s.window 0 (wordOfInt ((s.me.rx 8).toInt + 0)) 8 8 = .ok (.device 0xF1000) ∧ s.devMayWrite 0 0xF1000 8 = true ∧
      s.window 0 (wordOfInt ((s.me.rx 7).toInt + 0)) 8 8 = .ok (.tag 0x10) ∧ s.window 0 (wordOfInt ((s.me.rx 9).toInt + 0)) 8 8 = .ok (.bank 0 0x100) ∧
      (s.popAll 0 [.aq 1]).bankReady (access (.store 4) 0x10 8 true) ∧
      (s.popAll 0 [.aq 1]).bankReady (access (.store 4) 0x100 8 false)) ∧
    (pendingIn (at0 []) (access (.store 4) 0x10 8 true) .running).servesAlone 0 0 (access (.store 4) 0x10 8 true) [] :=
  ⟨by decide +kernel, pending_serves _ _ _ (by decide +kernel)⟩

theorem meets_AtomicsUpdateTheScratchpad :
    (let s := at0 [(5, 0xF00000000BFFFC), (6, 1)];
      s.memFree [5, 6] [4] ∧ s.memFree [5, 6, 4] [4] ∧ s.window 0 (s.me.rx 5) 4 4 = .ok (.bank 0 0xBFFFC) ∧
      s.bankReady (access (.amo .add 4 1) 0xBFFFC 4 false) ∧ s.bankReady (access (.cas 4 1 0) 0xBFFFC 4 false) ∧
      (atomicOf (.amoAdd 4 5 6 false)).isSome = true) ∧
    (pendingIn (at0 []) (access (.amo .add 4 1) 0xBFFFC 4 false) .running).servesAlone 0 0 (access (.amo .add 4 1) 0xBFFFC 4 false) [] ∧
    (pendingIn (at0 []) (access (.cas 4 1 0) 0xBFFFC 4 false) .running).servesAlone 0 0 (access (.cas 4 1 0) 0xBFFFC 4 false) [] :=
  ⟨by decide +kernel, pending_serves _ _ _ (by decide +kernel), pending_serves _ _ _ (by decide +kernel)⟩

theorem meets_GlobalAtomicsAreHeld : let s := paged (at0 [(5, 0x10FF8), (6, 1)])
    s.memFree [5, 6] [4] ∧ s.memFree [5, 6, 4] [4] ∧ s.window 0 (s.me.rx 5) 8 8 = .ok (.global 0x10FF8) ∧ s.restFull 0 1 = false := by decide +kernel

theorem meets_FencesWaitForTheirScope :
    (let s := at0 []; s.others [] [] = none ∧ s.fenceWait 0 4 = none ∧ s.me.fenceSent = false) ∧
    (let s := in0 { ctx0 [] with fenceSent := true }; s.others [] [] = none ∧ s.fenceWait 0 3 = none ∧ s.me.fenceSent = true ∧ s.me.markers.isEmpty = true) ∧
    (let s := in0 { ctx0 [] with fenceSent := true, markers := [(3, [1])] }; s.others [] [] = none ∧ s.fenceWait 0 3 = none ∧ s.me.fenceSent = true ∧ s.me.markers.isEmpty = false) := by decide +kernel

theorem meets_WaitersSleepAndWake :
    (let s := at0 [(5, 0xF0000000000100), (6, 1)];
      s.memFree [5, 6, 4] [4] ∧ s.window 0 (s.me.rx 5) 8 8 = .ok (.bank 0 0x100) ∧ (s.me.rx 5).toNat / 2 ^ 48 = 0xF0 ∧
      s.portWaits (access (.wait 4 1 0) 0x100 8 false) = false ∧ s.memFree [5] [4] ∧ s.window 0 (s.me.rx 5) 4 4 = .ok (.bank 0 0x100) ∧
      s.fenceWait 0 3 = none ∧ s.bankReady (access (.notify 4 true) 0x100 4 false)) ∧
    (let s := pendingIn (at0 []) (access (.wait 4 1 0) 0x100 8 false) (.waitWord 4 none);
      s.spadRead 0 0x100 8 ≠ (1 : Word).toNat % 2 ^ 64 ∧ s.spadRead 0 0x100 8 = (0 : Word).toNat % 2 ^ 64) ∧
    (pendingIn (at0 []) (access (.wait 4 1 0) 0x100 8 false) (.waitWord 4 none)).servesAlone 0 0 (access (.wait 4 1 0) 0x100 8 false) [] ∧
    (pendingIn (at0 []) (access (.notify 4 true) 0x100 4 false) .running).servesAlone 0 0 (access (.notify 4 true) 0x100 4 false) [] ∧
    notified [{ sid := 0, off := 0x100 }, { sid := 1, off := 0x100 }] 0x100 true = [{ sid := 0, off := 0x100 }, { sid := 1, off := 0x100 }] :=
  ⟨by decide +kernel, by decide +kernel, pending_serves _ _ _ (by decide +kernel), pending_serves _ _ _ (by decide +kernel), by decide⟩

/-- Addresses at the ends of the windows; another context of cluster 0 holds bytes 0x1000 to 0x1FFF. -/
theorem meets_WindowsAndAllocations : let s : State := { ctxs := [(0, ctx0 [(5, 0xF0000000001FF8)]), (1, { act := .running, privBase := 0x1000, privSize := 0x1000 })] }
    s.window 0 0x10001 8 8 = .error .misaligned ∧ s.window 0 0x100000000000000 8 8 = .error .windowFault ∧ s.window 0 0xEFFFFFFFFFFFF8 8 8 = .ok (.global 0xEFFFFFFFFFFFF8) ∧
    s.window 0 0xF00000000BFFF8 8 8 = .ok (.bank 0 0xBFFF8) ∧ s.window 0 0xF00000000C0000 8 8 = .error .windowFault ∧ s.window 0 0xF4000000007FF8 8 8 = .ok (.tag 0x7FF8) ∧
    s.window 0 0xF4000000008000 8 8 = .error .windowFault ∧ s.window 0 0xF5000000000000 8 8 = .error .windowFault ∧ s.window 0 0xFD000000000000 8 8 = .error .windowFault ∧
    s.window 0 0xFE000000000000 8 8 = .ok (.device 0) ∧ s.window 0 0xFF000000000000 8 8 = .error .windowFault ∧ s.window 0 0xF2000000000000 8 8 = .error .windowFault ∧
    s.privHit 0 0x1FF8 8 = true ∧ s.privHit 0 0xFF8 8 = false ∧ s.privHit 0 0x2000 8 = false ∧ s.privHit 1 0x1FF8 8 = false ∧ s.memHolds = none ∧
    s.fieldsReady [.x 4] [] [(5 : BitVec 5).toNat] ∧ s.memFree [5, 6] [] ∧ s.me.inmeet = false ∧ s.window 0 (wordOfInt ((s.me.rx 5).toInt + 0)) 8 8 = .error .privViolation := by decide +kernel

theorem meets_PrivateWindowReachesOwnAllocation : let s : State := { ctxs := [(0, { act := .running, privBase := 0x2000, privSize := 0x1000 }), (1, { act := .running, privBase := 0x1000, privSize := 0x1000 })] }
    (s.ctx 1).privBase.toNat + (s.ctx 1).privSize.toNat ≤ (s.ctx 0).privBase.toNat ∧ s.window 0 0xF1000000000FF8 8 8 = .ok (.bank 0 0x2FF8) ∧
    s.window 1 0xF1000000000FF8 8 8 = .ok (.bank 0 0x1FF8) ∧ s.window 0 0xF1000000001000 8 8 = .error .windowFault ∧ s.window 8 0xF1000000000000 8 8 = .error .windowFault := by decide

/-- Words laid out from a scratchpad offset, 8 bytes each. -/
def words (off : Nat) (l : List Nat) : Memory := Memory.writeN [] off (l.foldr (fun w n => w + 2 ^ 64 * n) 0) (8 * l.length)
/-- Cluster 0 with scratchpad words at an offset. -/
def withWords (s : State) (off : Nat) (l : List Nat) : State := { s with clus := [(0, { (s.clu 0) with spad := words off l })] }

/-- A shape of one element, stride 1. -/
def shape1 : BitVec 128 := 0x808000800
def ring1 (base : Nat) : Ring := { base := base, size := 64, tag0 := 0, count := 2, valid := true }
/-- An entry in the port of core 0. -/
def entry0 (i : Instr) : PortEntry :=
  { sid := 0, i := i, pc := 0xFFC, sa := shape1, sb := shape1, fmt := {}, tabs := [], base := 0, ctl := 0, serial := 0, pass := 0, kdone := 0, cols := 0, started := false, done := false, at_ := 0 }
/-- A request of slot 0. -/
def req0 (k : ReqKind) (g : ReqStage) : Req :=
  { id := 0, sid := 0, kind := k, stage := g, va := 0x10008, size := 8, pa := 0x20008, data := 5, be := 255, expect := 0, pc := 0xFFC, made := 0, pid := 0, part := 0, mode := false, serial := 0
    handler := false, stranded := false, taints := [], src := 0, lid := 0 }
def withReq (k : ReqKind) (g : ReqStage) (now : Nat) : State := { paged (at0 []) with reqs := [req0 k g], nextId := 1, now := now }

theorem meets_PortInstructionsEnterThePort :
    (let s : State := { at0 [(5, 0xF0000000001000), (6, 0x3F1F00000100)] with cores := [(0, { owner := some 0, sh := [(0, shape1), (1, shape1)], rg := [(2, ring1 0), (3, ring1 0x100)] })] };
      let k := s.matrixState;
      s.portFull = false ∧ s.matrixReady (.mma 1 2 3 0 1 0) [] [0, 1] ∧ (s.ring 0 2).valid = true ∧ (s.ring 0 3).valid = true ∧
      shapeBad (Tab.get 0 k.sh 0) (Tab.get 0 k.sh 1) k.fmt (s.ring 0 2) (s.ring 0 3) = false ∧ planesBad (Tab.get 0 k.sh 0) k.fmt.fa = false ∧ planesBad (Tab.get 0 k.sh 1) k.fmt.fb = false ∧
      s.groupFault (groupEntries (Tab.get 0 k.sh 0) (Tab.get 0 k.sh 1) k.fmt) = none ∧ s.matrixReady (.mzero 3) [] [] ∧ s.matrixReady .mtest [] [] ∧
      s.matrixReady (.msta 0 false 5 6) [5, 6] [] ∧ (s.me.rx 5).toNat % accBytes 0 = 0 ∧ ctlStride (s.me.rx 6) % accBytes 0 = 0 ∧
      s.scratchCheck false (rowPieces (s.me.rx 5) (s.me.rx 6) (accBytes 0)) = none) ∧
    (let s := in0 { ctx0 [(5, 0xF0000000001000)] with mode := true, msaved := true };
      s.portFull = false ∧ s.matrixReady (.msave 5) [5] [] ∧ s.matrixReady (.mrstr 5) [5] [] ∧ (s.me.rx 5).toNat % 64 = 0 ∧
      s.scratchCheck true ((List.range (saveBytes / 64)).map fun n => (s.me.rx 5 + BitVec.ofNat 64 (64 * n), 64)) = none) := by decide +kernel

theorem meets_MatrixControlForms_issue :
    (let s := withWords (paged (at0 [(5, 0xF0000000000100), (6, 0x10000)])) 0x100 [0, 0, 0, 0, 0, 0, 0, 0];
      s.matrixReady (.mwait 1) [] [] ∧ (∀ p ∈ (s.core s.here).port, p.sid = s.cur → p.names 1 = false) ∧ s.matrixReady (.mshape 7 5) [5] [7] ∧ s.memHolds = none ∧
      s.blockAt (s.me.rx 5) 16 0 0x100 ∧ s.matrixReady (.mfmt 5) [5] [] ∧ s.blockAt (s.me.rx 5) 64 0 0x100 ∧ s.window 0 (s.me.rx 6) 16 16 = .ok (.global 0x10000) ∧
      s.atomicOverlap 0 0 0x10000 16 = false ∧ s.window 0 (s.me.rx 6) 64 64 = .ok (.global 0x10000) ∧ s.atomicOverlap 0 0 0x10000 64 = false) ∧
    (let s : State := { at0 [] with cores := [(0, { owner := some 0, port := [entry0 (.mzero 3)] })] };
      s.matrixReady (.mwait 1) [] [] ∧ ∃ p ∈ (s.core s.here).port, p.sid = s.cur ∧ p.names 1 = true) ∧
    (let s := in0 { ctx0 [] with mode := true }; isMatrix .mtest = true ∧ isVisitor s.cur = false ∧ s.me.mode = true ∧ s.me.msaved = false) ∧
    (let s := at0 []; isMatrix (.mrstr 5) = true ∧ isVisitor s.cur = false ∧ s.me.mode = false) := by decide +kernel
/-- The words of a format context, good and bad, in the scratchpad. -/
def withFmt (l : List Nat) : State := { withWords (at0 [(5, 0xF0000000000100)]) 0x100 l with cores := [(0, { owner := some 0 })] }
theorem meets_MatrixControlForms_take :
    (pendingIn (at0 []) (access (.shape 7) 0x100 16 false) .running).servesAlone 0 0 (access (.shape 7) 0x100 16 false) [] ∧
    (withReq (.shape 7) .performed 0).loadBack 0 = some (req0 (.shape 7) .performed) ∧
    (pendingIn (withFmt [0, 0, 0, 0, 0, 0, 0, 0]) (access (.form (.mfmt 5)) 0x100 64 false) (.stalled .slotWait)).servesForm 0 0 (access (.form (.mfmt 5)) 0x100 64 false) (.mfmt 5) ∧
    (let s := pendingIn (withFmt [0, 0, 0, 0, 0, 0, 0, 0]) (access (.form (.mfmt 5)) 0x100 64 false) (.stalled .slotWait);
      (s.core (slotCore 0)).owner = some 0 ∧ fmtOk (s.spadRead 0 0x100 64) = true) ∧
    (let s := pendingIn (withFmt [7]) (access (.form (.mfmt 5)) 0x100 64 false) (.stalled .slotWait); fmtOk (s.spadRead 0 0x100 64) = false ∧ s.trapsNow 0) ∧
    (let s : State := { withReq (.form (.mfmt 5)) .performed 0 with ctxs := [(0, { ctx0 [] with act := .stalled .globalWait })], cores := [(0, { owner := some 0 })] };
      s.loadBack 0 = some (req0 (.form (.mfmt 5)) .performed) ∧ (s.ctx 0).act = .stalled .globalWait ∧ (s.core (slotCore 0)).owner = some 0) :=
  ⟨pending_serves _ _ _ (by decide +kernel), by decide +kernel, form_served _ _ _ _ _ (by decide +kernel), by decide +kernel, by decide +kernel, by decide +kernel⟩

theorem meets_MatrixFormsTrapInVisitors : let s : State := { ctxs := [(9, ctx0 [])], cur := 9 }; isMatrix (.mfmt 3) = true ∧ isVisitor s.cur = true := by decide

/-- Slot 0 with a tile form pending at the tags, with the registers, rings and tags given. -/
def tiled (x : List (Fin 32 × Word)) (rg : Tab Ring) (tags : Tab Word) (i : Instr) : State :=
  pendingIn { at0 x with cores := [(0, { rg := rg })], clus := [(0, { tags := tags })] } (access (.form i) 0 8 true) (.stalled .slotWait)
/-- Every tile form so pending is served, whatever the machine holds. -/
theorem tiled_served (x : List (Fin 32 × Word)) (rg : Tab Ring) (tags : Tab Word) (i : Instr) : (tiled x rg tags i).servesForm 0 0 (access (.form i) 0 8 true) i :=
  form_served _ i 0 8 true ⟨rfl, by simp [State.bankBlocked, access]⟩

theorem meets_RingsAreDefinedAndMove :
    (let s := at0 [(5, 0x04000100), (6, 0x2FFE)]; s.tileReady (.rdef 2 5 6) [5, 6] [] ∧ s.tileReady (.rpop 2) [] [] ∧ s.tileReady (.rpush 2) [] []) ∧
    (let s := tiled [(5, 0x04000100), (6, 0x2FFE), (7, 0x0400013F)] [] [] (.rdef 2 5 6);
      ((s.ctx 0).rx 5).toNat % 2 ^ 20 % 64 = 0 ∧ ((s.ctx 0).rx 5).toNat / 2 ^ 20 % 2 ^ 20 = 64 ∧ ((s.ctx 0).rx 6).toNat % 2 ^ 12 = 4094 ∧ ((s.ctx 0).rx 6).toNat / 2 ^ 12 % 2 ^ 13 = 2 ∧
      (s.ring 0 2).mode = 0 ∧ (s.runs 0).privFirst 0x100 128 = none ∧ ((s.ctx 0).rx 7).toNat % 2 ^ 20 % 64 ≠ 0 ∧ s.trapsNow 0) ∧
    (let s := tiled [] [(2, ring1 0)] [(0, 0x0A000000)] (.rpop 2); (s.ring 0 2).valid = true ∧ (s.ring 0 2).mode ≠ 2 ∧ tagFull (s.tag 0 (s.ring 0 2).headTag) = true) ∧
    (let s := tiled [] [(2, ring1 0)] [(0, 0x08000000)] (.rpush 2); (s.ring 0 2).valid = true ∧ (s.ring 0 2).mode ≠ 1 ∧ tagFillable (s.tag 0 (s.ring 0 2).tailTag) = true) := by decide +kernel

/-- The tag expects nothing, or holds bytes that came before their expectation. -/
theorem meets_TexpPostsAnExpectation : (at0 []).tileReady (.texp 5 6) [5, 6] [] ∧
    (let s := tiled [(5, 4095), (6, 64), (7, 0)] [] [(0, 0x08000040), (4095, 0x08000000)] (.texp 5 6);
      ((s.ctx 0).rx 6).toNat = 64 ∧ tagBal (s.tag 0 0) = 64 ∧ tagBal (s.tag 0 4095) = 0 ∧
      [0, 4095].all (fun m => tagValid (s.tag 0 m) && !tagFull (s.tag 0 m) && !tagExp (s.tag 0 m) && !tagOvr (s.tag 0 m)) = true) := by decide +kernel

theorem meets_TagFormsActAndWait :
    ((at0 []).tileReady (.ttag 4 5 6) [5, 6] [4] ∧ (at0 []).tileReady (.twait 4 10 0) [10, 0] [4]) ∧
    (let s := tiled [(5, 1), (6, 2), (7, 3), (8, 4), (9, 5), (10, 0x1001), (11, 0xFFFFFFFFFFFFFFFF)] [] [(1, 0x08000000), (3, 0x0A000000)] (.ttag 4 5 6);
      tagValid (s.tag 0 1) = true ∧ tagFull (s.tag 0 1) = false ∧ tagExp (s.tag 0 1) = false ∧ tagOvr (s.tag 0 1) = false ∧ tagBal (s.tag 0 1) = 0 ∧
      tagFull (s.tag 0 3) = true ∧ tagValid (s.tag 0 3) = true ∧ tagExp (s.tag 0 3) = false ∧ 5 ≤ ((s.ctx 0).rx 9).toNat ∧ s.trapsNow 0 ∧ isVisitor 0 = false ∧
      ((s.ctx 0).rx 10).toNat < 2 * 4096 ∧ tagValid (s.tag 0 (((s.ctx 0).rx 10).toNat % 4096)) = true ∧ (s.ctx 0).rx 0 = 0 ∧ (s.ctx 0).rx 11 ≠ 0) := ⟨by decide +kernel, by decide +kernel⟩

def copyWords : List Nat := [0xF0000000001000, 0xF0000000002000, 0x3000100020001, 0x800000008, 0x800000008, 0, 0, 7]
def walkWords : List Nat := [0x10000, 0x3000100010008, 0, 0x1000000000000, 0x1000000000000, 0x200000000, 7, 0]
/-- Slot 0 with an engine form pending at its block. -/
def blocked (ws : List Nat) (i : Instr) : State :=
  pendingIn { withWords (at0 [(5, 0xF0000000000100)]) 0x100 ws with cores := [(0, { rg := [(2, ring1 0)] })] } (access (.form i) 0x100 64 false) (.stalled .slotWait)

theorem meets_EngineFormsTakeASlot :
    (let s := at0 [(5, 0xF0000000000100), (6, 7)];
      isVisitor s.cur = false ∧ s.memFree [5] [] ∧ s.blockAt (s.me.rx 5) 64 0 0x100 ∧ s.restFull 0 1 = false ∧ s.regsReady [6] [4]) ∧
    ((blocked copyWords (.xcopy 5)).servesForm 0 0 (access (.form (.xcopy 5)) 0x100 64 false) (.xcopy 5) ∧
      (blocked walkWords (.xsub 5)).servesForm 0 0 (access (.form (.xsub 5)) 0x100 64 false) (.xsub 5) ∧
      (blocked walkWords (.xdrain 5)).servesForm 0 0 (access (.form (.xdrain 5)) 0x100 64 false) (.xdrain 5)) ∧
    (let s := blocked copyWords (.xcopy 5);
      let b := copyBlk (s.spadRead 0 0x100 64);
      (s.runs 0).copyFault ((s.ctx 0).rx 5) b = none ∧ (s.runs 0).xferWait (inSpad b.src || inGlobal b.dst) = none ∧ b.xid = 7) ∧
    (let s := blocked (copyWords.set 0 0xF0000000001001) (.xcopy 5); ((s.runs 0).copyFault ((s.ctx 0).rx 5) (copyBlk (s.spadRead 0 0x100 64))).isSome = true ∧ s.trapsNow 0) ∧
    (let s : State := (blocked walkWords (.xsub 5)).modClu 0 fun c => { c with tags := [(0, 0x08000000), (1, 0x08000000)] };
      let b := walkBlk (s.spadRead 0 0x100 64);
      (s.runs 0).walkBad false b = false ∧ (s.runs 0).walkBad true b = false ∧ (s.runs 0).privFirst (s.ring 0 b.ring).base 128 = none ∧ (s.runs 0).xferWait true = none) ∧
    (let s := blocked (walkWords.set 1 0x3000100010001) (.xsub 5); (s.runs 0).walkBad false (walkBlk (s.spadRead 0 0x100 64)) = true ∧ s.trapsNow 0) :=
  ⟨by decide +kernel, ⟨form_served _ _ _ _ _ (by decide +kernel), form_served _ _ _ _ _ (by decide +kernel), form_served _ _ _ _ _ (by decide +kernel)⟩, by decide +kernel, by decide +kernel,
    by decide +kernel, by decide +kernel⟩

theorem meets_StepRunsTheDecodedInstruction :
    (let s0 := (at0 []).withFetchWord 32 0x08102800;
      let r := s0.settlePeers;
      let s : State := { r with agenda := [] };
      r.agenda = [.issue 0] ∧ s.issueBlock 0 = none ∧ (s.ctx 0).cap = none ∧ s.gate 0 = none ∧ s.fetch 0 = some 0x08102800 ∧ decode 0x08102800 = some (.addi (.x 1) (.x 1) 0x800) ∧
      (findLine (s.core (slotCore 0)).icache (s.ctx 0).pc.toNat (s.ctx 0).pid).isSome = true) ∧
    (let s0 : State := { (at0 []).withFetchWord 32 0x08102800 with agenda := [], now := 1 };
      let r := s0.settlePeers;
      r.agenda = [] ∧ r.due.isNone = true ∧ r.pick = some 0 ∧ (r.ctx 0).cap = none ∧ r.gate 0 = none ∧ r.fetch 0 = some 0x08102800) := by decide +kernel

theorem meets_PermanentlyIllegalMajors : let s := (at0 []).withFetchWord 32 0xFFFFFFFF
    (0xFFFFFFFF#32).extractLsb' 26 6 = 0x3F ∧ s.fetch 0 = some 0xFFFFFFFF := by decide +kernel

theorem meets_DecodeOfEncodeIsTheInstruction : wellFormed (.fence true 4) = true ∧ encode (.fence true 4) = some 0x4400000C ∧ decode 0x4400000C = some (.fence true 4) := by decide

/-- The reset state meets the invariant, and so does one with a byte listed in each memory. -/
theorem meets_StepsKeepMemoriesCanonical : State.reset.Inv ∧ ({ State.reset with mem := [(5, 1)], hostMem := [(7, 2)], clus := [(3, { spad := [(0, 9)] })] } : State).Inv := by
  refine ⟨⟨rfl, rfl, fun _ => rfl⟩, rfl, rfl, fun cl => ?_⟩
  unfold State.clu Tab.get Tab.get
  split <;> rfl

/-- A CSR of each kind: one that is written, a supervisor one in user mode, a read-only one, one that is none. -/
theorem meets_CsrFormsReadThenWrite : let s := at0 [(5, 3)]
    (csrOf (.csrw 4 5 0x0001)).isSome = true ∧ s.csrRead 0 1 = some 0 ∧ s.regsReady [5] [4] ∧ s.csrWaits 1 = false ∧ s.mprogWaits 1 = false ∧ s.me.mret = false ∧
    (0x1001 / 2048 = 2 ∧ s.me.mode = false) ∧ (0x0800 / 2048 = 1) ∧ s.csrRead 0 0x7FF = none := by decide +kernel

theorem meets_TrapsEnterTheHandler :
    (let s := at0 []; s.trapBlock 0 = none ∧ (s.ctx 0).inmeet = false ∧ s.debugHalt = false ∧ (s.ctx 0).cap = none ∧ (s.ctx 0).replay = none) ∧
    (let s : State := { at0 [] with boot := { cfm := true, featacc := 0x1F, dbghalt := 1 } }; s.debugHalt = true) := by decide +kernel

theorem meets_ReturnsRestoreTheStatus :
    (let s := in0 { ctx0 [] with mode := true }; s.me.mode = true ∧ s.me.msaved = false ∧ s.me.frame.getLsbD 15 = false ∧ s.me.cap = none) ∧
    (let s := in0 { ctx0 [] with mode := true, msaved := true }; s.me.mode = true ∧ s.me.msaved = true) ∧
    (let s := in0 { ctx0 [] with ui := true }; s.me.mode = false ∧ s.me.ui = true) ∧ (at0 []).me.mode = false ∧ (at0 []).me.ui = false := by decide +kernel

theorem meets_SleepBindAndAccount :
    (let s : State := { ctxs := [(8, ctx0 [])], cur := 8 }; isVisitor s.cur = true) ∧
    (let s := at0 [(5, 0x31), (6, 0x100), (7, 0x05)];
      isVisitor s.cur = false ∧ s.sleepOver 0 = false ∧ s.me.asleep = false ∧ s.me.act ≠ .slept ∧ s.holds [(5 : BitVec 5).toNat] [3] [] = none ∧ s.regsReady [5] [4] ∧
      s.holds [(6 : BitVec 5).toNat] [3] [] = none ∧ s.holds [(7 : BitVec 5).toNat] [3] [] = none ∧ s.regsReady [5] [4] ∧ (in0 { ctx0 [] with act := .slept }).me.act = .slept) ∧
    (let s := in0 { ctx0 [] with uieEn := true, uints := [(1, 0x100)] }; s.sleepOver 0 = true) := by decide +kernel

theorem meets_MeetParksItsParty :
    (let s : State := { ctxs := [(8, ctx0 [])], cur := 8 }; isVisitor s.cur = true) ∧ (let s := in0 { ctx0 [] with inmeet := true }; isVisitor s.cur = false ∧ s.me.inmeet = true) ∧
    (let s := in0 { ctx0 [(5, 0x1234), (6, 0x0F001FC000), (7, 0x10000000000)] with privSize := 0x2000 };
      isVisitor s.cur = false ∧ s.me.inmeet = false ∧ s.regsReady [5, 6] [4] ∧ s.regsReady [5, 7] [4] ∧ s.unretired 0 = false ∧ s.portPending 0 = false ∧
      (s.me.rx 6).toNat < 2 ^ 40 ∧ (s.me.rx 6).toNat / 2 ^ 21 % 8 = 0 ∧ ((List.range 16).filter fun n => ((s.me.rx 6).extractLsb' 24 16).getLsbD n).length = 4 ∧
      64 * ((s.me.rx 6).toNat % 2 ^ 14 + (s.me.rx 6).toNat / 2 ^ 14 % 2 ^ 7 + 1) ≤ s.me.privSize.toNat ∧ 2 ^ 40 ≤ (s.me.rx 7).toNat) := by decide +kernel

/-- ROLLQ at 2 and at 1,024 admits a roll call; at 1, and with one register twice, it does not. -/
theorem meets_RollCallsParkAndCombine :
    (let s := in0 { ctx0 [(5, 9), (6, 4)] with rollq := 1024 };
      rollOf (.rollAdd 3 5 6) = some (1, 3, 5, 6) ∧ isVisitor s.cur = false ∧ s.me.inmeet = false ∧ s.me.rollq.toNat = 1024 ∧ s.regsReady [5] [3, 6] ∧ s.fenceWait 0 3 = none ∧ s.unretired 0 = false) ∧
    (at0 []).me.rollq.toNat = 2 ∧ (in0 { ctx0 [] with rollq := 1 }).me.rollq.toNat < 2 ∧ rollOf (.rollXor 6 5 6) = some (8, 6, 5, 6) := by decide +kernel

/-- A sequencer entry of slot 0. -/
def seqE (i : Instr) (xa : Word) (bound : Bool) : SeqEntry :=
  { sid := 0, i := i, pc := 0xFFC, xa := xa, xb := 0, rm := 0, seed := 0, fms := [0x09DC, 0x13D5, 0x005A, 0x004A], va := none, vb := none, bound := bound, serial := 0 }
/-- A meeting in place with the context of a slot. -/
def meeting (partner : Nat) : Meeting :=
  { partner := partner, place := 0, inPlace := true, vmask := 0x2, poff := 0, plen := 0, parcel := 0, partnerPlen := 0, partnerParcel := 0, hist := [(7, 0, 5)],
    xs := Vector.replicate 32 3, vs := [(1, 9)], peers := [], gone := false, parting := false, trap := none, taint := 1 }
/-- Slots 0 and 1 at a meeting in place. -/
def met : State := { ctxs := [(0, { ctx0 [] with inmeet := true, meet := some (meeting 1) }), (1, { ctx0 [] with inmeet := true, meet := some (meeting 0) })] }

theorem meets_PeersReadThePartner :
    (met.memHolds = none ∧ met.regsReady [] [5] ∧ met.partnerOf 0 = some (1, meeting 0) ∧ met.visibleWrite 1 (meeting 0) 7 = some 5 ∧ met.visibleWrite 1 (meeting 0) 8 = none) ∧
    (at0 []).partnerOf 0 = none ∧
    (met.vectorReady (.peerv 2 1) { d := some (.v 2) } 0 0 [] ∧ met.me.acq = none ∧ (meeting 0).vmask.getLsbD 1 = true ∧ (meeting 0).vmask.getLsbD 0 = false ∧
      (meeting 0).vs.find? (fun x => x.1 == 1) = some (1, 9)) ∧
    (let s : State := { met with cores := [(0, { seq := [{ seqE (.peerv 2 1) 0 false with va := some 9 }] })] };
      (s.core 0).seq = [{ seqE (.peerv 2 1) 0 false with va := some 9 }] ∧ slotCore 0 = 0 ∧ (s.core 0).bindAt ≤ s.now ∧ s.vecReady 0 (.peerv 2 1) { d := some (.v 2) } = true) := by decide +kernel

/-- In place, and in a visitor slot of the meeting. -/
theorem meets_PartEndsTheMeeting :
    (at0 []).me.inmeet = false ∧
    (met.me.meet = some (meeting 1) ∧ met.me.inmeet = true ∧ (meeting 1).partner ≠ met.cur ∧ met.unretired 0 = false ∧ met.portPending 0 = false ∧
      (met.partTakes 0 (meeting 1)).partnerTouches 0 (meeting 1) = false ∧ (meeting 1).inPlace = true ∧ met.atMeeting 1 1 = true) ∧
    (let m := { meeting 9 with inPlace := false };
      let s : State := { ctxs := [(8, { ctx0 [] with inmeet := true, meet := some m, home := 20 })], cur := 8 };
      s.me.meet = some m ∧ s.me.inmeet = true ∧ m.partner ≠ s.cur ∧ s.unretired 8 = false ∧ s.portPending 8 = false ∧ (s.partTakes 8 m).partnerTouches 8 m = false ∧ m.inPlace = false) := by
  decide +kernel

def template1 : Template := { entry := 0x2000, amend := 0x2000, gangs := 2, size := 1, prio := 0, steal := false, dataflow := false, preload := false, priv := 64, lineE := none, lineA := none }

theorem meets_TasksLaunchEndAndYield_launch :
    (let s : State := { paged (at0 [(5, 0x20003), (6, 0x1000000000000), (7, 0x400), (8, 0xF0000000000100), (9, 0x10000)]) with parts := [(0, { live := true, tmpl := [(3, some template1)] })] };
      isVisitor s.cur = false ∧ s.memFree [5, 0] [4] ∧ 2 ^ 48 ≤ (s.me.rx 6).toNat ∧ s.template 0 ((s.me.rx 7).toNat % 2 ^ 16) = none ∧
      (s.me.rx 5).toNat < 2 ^ 48 ∧ s.template 0 ((s.me.rx 5).toNat % 2 ^ 16) ≠ none ∧ s.me.rx 0 = 0 ∧ s.inboxFull s.here = false ∧ s.restFull 0 1 = false ∧
      s.me.rx 8 ≠ 0 ∧ s.blockAt (s.me.rx 8) 64 0 0x100 ∧ s.me.rx 9 ≠ 0 ∧ s.window 0 (s.me.rx 9) 64 64 = .ok (.global 0x10000) ∧ s.atomicOverlap 0 0 0x10000 64 = false) ∧
    ((blocked [] (.launch 4 5 6)).servesForm 0 0 (access (.form (.launch 4 5 6)) 0x100 64 false) (.launch 4 5 6) ∧
      blockWord ((blocked [1, 2, 3, 4, 5, 6, 0, 0] (.launch 4 5 6)).spadRead 0 0x100 64) 6 = 0 ∧ blockWord ((blocked [1, 2, 3, 4, 5, 6, 0, 9] (.launch 4 5 6)).spadRead 0 0x100 64) 7 ≠ 0 ∧
      (blocked [] (.launch 4 5 6)).trapsNow 0) ∧
    (let s : State := { withReq (.form (.launch 4 5 6)) .performed 0 with ctxs := [(0, { ctx0 [] with act := .stalled .globalWait })] };
      s.loadBack 0 = some (req0 (.form (.launch 4 5 6)) .performed) ∧ (s.ctx 0).act = .stalled .globalWait ∧ s.inboxFull (slotCore 0) = false) :=
  ⟨by decide +kernel, ⟨form_served _ _ _ _ _ (by decide +kernel), by decide +kernel, by decide +kernel, by decide +kernel⟩, by decide +kernel⟩

theorem meets_TasksLaunchEndAndYield_end :
    ((at0 []).me.inmeet = false ∧ (at0 []).cancelSubs.dropStranded.tendWait = none ∧ met.me.inmeet = true) ∧
    (let s := in0 { ctx0 [] with busy := [(5, .globalWait)] }; s.me.inmeet = false ∧ s.cancelSubs.dropStranded.tendWait = some .fence) ∧
    (let s := at0 []; isVisitor s.cur = false ∧ s.regsReady [] [5] ∧ s.yieldTo s.here s.me.part = false) := by decide +kernel

/-- A pool with a task of another launch, which waits for a slot on the core. -/
theorem meets_YieldThatYields :
    let s : State := { at0 [] with
      clus := [(0, { pool := [{ part := 0, lid := 9, gang := 0, member := 0, core := none, saved := none, tags := [] }] })], parts := [(0, { live := true, rect0 := some ⟨0, 0, 0, 0⟩ })],
      launches := [{ part := 0, lid := 9, queue := 0, origin := .command 0, tix := 0, tmpl := some template1, gangs := 1, args := [], prio := none, pid := 0, arrived := 0, active := true }] }
    isVisitor s.cur = false ∧ s.regsReady [] [5] ∧ s.me.inmeet = false ∧ s.yieldTo s.here s.me.part = true := by decide +kernel

def binding1 : Binding :=
  { queue := 0, pid := 0, tmpl := 3, lanes := 1, nsrc := 2, sliding := false, devmask := 2, origin := 0, size := 100, slide := 100, late := 10, out := 0x10000, dead := 0, ing := 0, state := 0, recs := 0
    outLog := 12, deadLog := 12, ingLog := 12, wsLog := 4, bufLog := 12, down := 0xFFFF, downsrc := 0, idle := 1000 }

def windowTask : WindowTask := { stream := 1, window := 0, lane := 0, revision := 1, amend := false, port := 0, todo := [], buf := [], len := 0, shut := false, published := false }
def streamWords : List Nat := [0xF0000000001000, 0x1000100010004, 8, 0, 0, 0, 0, 0]

theorem meets_StreamFormsHoldTheirOutput :
    (let s : State := { at0 [(5, 0xF0000000000100), (6, 0x10001), (7, 1)] with streams := [(1, { bound := some binding1 })] };
      isVisitor s.cur = false ∧ s.memFree [5] [] ∧ s.blockAt (s.me.rx 5) 64 0 0x100 ∧ s.memFree [6, 5] [] ∧ s.deviceSource 0 (s.me.rx 6).toNat = true ∧
      s.deviceSource 0 (s.me.rx 7).toNat = false ∧ s.blockAt (s.me.rx 5) 32 0 0x100 ∧ s.restFull 0 1 = false ∧ s.me.win = none) ∧
    (let s := in0 { ctx0 [(5, 0xF0000000000100)] with win := some windowTask };
      s.memFree [5] [] ∧ s.me.win = some windowTask ∧ windowTask.published = false ∧ s.blockAt (s.me.rx 5) 16 0 0x100) ∧
    ((blocked streamWords (.sbind 5)).servesForm 0 0 (access (.form (.sbind 5)) 0x100 64 false) (.sbind 5) ∧
      (pendingIn (at0 []) (access (.form (.emit 6 5)) 0x100 32 false) (.stalled .slotWait)).servesForm 0 0 (access (.form (.emit 6 5)) 0x100 32 false) (.emit 6 5) ∧
      (pendingIn (in0 { ctx0 [] with win := some windowTask }) (access (.form (.publ 5)) 0x100 16 false) (.stalled .slotWait)).servesForm 0 0
        (access (.form (.publ 5)) 0x100 16 false) (.publ 5)) ∧
    (let s := blocked streamWords (.sbind 5);
      let b := streamBlk (s.spadRead 0 0x100 64);
      (s.runs 0).streamFaultOf ((s.ctx 0).rx 5) b = none ∧ (s.engOf 0 b.eng).active = false ∧ s.inboxFull (slotCore 0) = false ∧ s.restFull 0 1 = false) ∧
    (let s := blocked (streamWords.set 0 0xF5000000001000) (.sbind 5); ((s.runs 0).streamFaultOf ((s.ctx 0).rx 5) (streamBlk (s.spadRead 0 0x100 64))).isSome = true ∧ s.trapsNow 0) :=
  ⟨by decide +kernel, by decide +kernel, ⟨form_served _ _ _ _ _ (by decide +kernel), form_served _ _ _ _ _ (by decide +kernel), form_served _ _ _ _ _ (by decide +kernel)⟩, by decide +kernel,
    by decide +kernel⟩

def withSeq (l : List SeqEntry) : State := { at0 [] with cores := [(0, { seq := l })] }
def vaddShape : VShape := { d := some (.v 2), a := some (.v 4), b := some (.v 8), t := 14, k := 0 }
def vadd : Instr := .vadd (.v 2) (.v 4) (.v 8) 14 0

theorem meets_VectorFormsActOrEnterTheSequencer :
    (let i : Instr := .vred (.v 1) (.v 2) 0 8 0; isVMem i = false ∧ (at0 []).vectorReady i { d := some (.v 1), a := some (.v 2), t := 8, k := 0 } 0 0 []) ∧
    (let s := withSeq [seqE (.kand 1 2 3) 0 false];
      (vShape (.kand 1 2 3)).isSome = true ∧ ((vShape (.kand 1 2 3)).any fun h => decide (s.headBinds (seqE (.kand 1 2 3) 0 false) h 0 0 [])) = true ∧ usesLanes (.kand 1 2 3) = false ∧
      (s.core (4 * 0 + 0)).bindAt ≤ s.now) ∧
    (let s := withSeq [seqE vadd 0 false];
      s.headBinds (seqE vadd 0 false) vaddShape 0 0 [] ∧ isVMem vadd = false ∧ usesLanes vadd = true ∧ (s.clu 0).laneAt ≤ s.now ∧ (s.clu 0).freeGroup s.now = some 0 ∧
      (s.clu 0).lptr = 0 ∧ ([1, 2, 3].all fun c => (s.laneServe (4 * 0 + c)).isNone) = true) := by decide +kernel

/-- A vector load at the head with its lanes' places, and one whose lines are in service. -/
def vld (plan : Option (List (VPiece × VPlace))) (bound : Bool) (left : List (VPiece × VPlace)) : SeqEntry :=
  { seqE (.vld (.v 1) 5 15 0) 0xF0000000001000 bound with plan := plan, left := left }
def piece1 : VPiece × VPlace := ({ addr := 0xF0000000001000, size := 8, bits := 64, pos := 0 }, .bank 0 0x1000)

theorem meets_VectorMemoryFormsMoveTheirLanes_issue : let s := at0 [(5, 0xF0000000001000)]
    ([Instr.vld (.v 1) 5 15 0, .vst 1 5 15 0].all fun i => match vShape i with
      | some h => isVMem i && decide (s.vectorReady i h 0xF0000000001000 0 []) && decide (h.b = none) && match vmemOf i s.me 0xF0000000001000 0 0 with
        | some (_, ty, m, v) => match s.vPlan 0 ty m v with
          | (ps, none) => decide (ps.length = 64) && !s.vecPortWaitsOf 0 0 ps
          | _ => false
        | none => false
      | none => false) = true ∧
    (let u := at0 [(5, 0xF0000000001001)];
      match vShape (.vld (.v 1) 5 15 0), vmemOf (.vld (.v 1) 5 15 0) u.me 0xF0000000001001 0 0, vmemOf (.vlds (.v 1) 5 (.x 0) 6 0) u.me 0xF0000000001001 0 0 with
      | some h, some _, some (_, ty, m, v) => decide (u.vectorReady (.vld (.v 1) 5 15 0) h 0xF0000000001001 0 [] ∧ h.b = none) && (u.vPlan 0 ty m v).2.isSome &&
          !badWaits (.vlds (.v 1) 5 (.x 0) 6 0) (u.vPlan 0 ty m v).1
      | _, _, _ => false) = true ∧
    ([Instr.vgthr (.v 1) 5 (.v 3) 6 0].all fun i => match vShape i with
      | some h => isVMem i && decide (s.vectorReady i h 0xF0000000001000 0 []) && h.b.isSome
      | none => false) = true := by decide +kernel
theorem meets_VectorMemoryFormsMoveTheirLanes_head :
    (let e := { seqE (.vgthr (.v 1) 5 (.v 3) 6 0) 0xF0000000001000 false with plan := none };
      let s := withSeq [e];
      e.plan.isNone = true ∧ ((vShape e.i).any fun h => decide (s.headBinds e h 0 0 [])) = true ∧ isVMem e.i = true ∧ (s.core 0).bindAt ≤ s.now ∧
      ((vmemOf e.i (s.ctx 0) e.xa e.xb 0).any fun x => ((s.asIssued e).vPlan 0 x.2.1 x.2.2.1 x.2.2.2).2.isNone) = true) ∧
    (let e := vld (some [piece1]) false [];
      let s := withSeq [e];
      ((vShape e.i).any fun h => decide (s.headBinds e h 0 0 [])) = true ∧ s.linesOpen e = false ∧ (s.vecBad e).isNone = true ∧ s.memReady e false [piece1] = true ∧
      s.vecPortWaitsOf 0 0 [piece1] = false) ∧
    (let e : SeqEntry := { vld (some [piece1]) false [] with i := .vst 1 5 15 0 };
      let s := withSeq [e];
      ((vShape e.i).any fun h => decide (s.headBinds e h 0 0 []) && h.ds.isSome) = true ∧ s.linesOpen e = false ∧ (s.vecBad e).isNone = true ∧ s.memReady e true [piece1] = true ∧
      s.restFull 0 (vLines ((s.ctx 0).rv (vstoreReg e.i)) [piece1]).length = false) := by decide +kernel
theorem meets_VectorMemoryFormsMoveTheirLanes_slots :
    (let e := vld (some [piece1]) true [piece1];
      let s : State := { withSeq [e] with now := 4 };
      s.slotDue 0 4 = true ∧ s.vectorCore 0 = some (0, e) ∧ storesVector e.i = false ∧ e.slotParts.2 = [] ∧ globalLines (e.plan.getD []) = []) ∧
    (let e : SeqEntry := { vld (some [piece1]) true [piece1] with i := .vst 1 5 15 0 };
      let s : State := { withSeq [e] with now := 5 };
      s.slotDue 0 5 = true ∧ s.vectorCore 0 = some (0, e) ∧ storesVector e.i = true ∧ s.vUndoFull e.slotParts.1 = false) ∧
    (let e := vld (some [({ addr := 0x10000, size := 8, bits := 64, pos := 0 }, .mem 0x10000)]) true [];
      let s : State := { at0 [] with cores := [(0, { vout := [e] })] };
      s.loadBack 0 = none ∧ s.vloadBack 0 = some e) := by decide +kernel

theorem meets_FormatsAndFrames : let s := at0 [(5, 0x13D5)]
    s.vectorReady (.setfmt 3 (.x 5)) { xa := some (.x 5) } 0x13D5 0 [] ∧ s.gate 0 = none ∧ s.me.replay.isNone = true ∧ s.myCore.seq.length < Config.seqEntries ∧
    s.vecChanBad 0 { xa := some (.x 5), xb := some (.x 6) } = false := by decide +kernel

theorem meets_LanesOfTheIntegerForms : tIsInt 1 = true ∧ tIsInt 10 = true ∧ tSigned 10 = true ∧ tSigned 1 = false ∧ tWidth 1 = 4 ∧ tWidth 10 = 64 := by decide

theorem meets_SequencersAndSlotsPerform :
    (let r : Replay := { words := [0x802210E0], n := 2, stag := 1, iter := 1, idx := 0, fromChannel := false, guarded := [] };
      let e := { seqE vadd 0 false with frame := true };
      let s : State := { in0 { ctx0 [] with replay := some r } with cores := [(0, { seq := [e] })], clus := [(0, { ldef := 1 })] };
      (s.core 0).seq = [e] ∧ (s.ctx 0).replay = some r ∧ decode (renumber 0x802210E0 1 1) = some vadd ∧ vShape vadd = some vaddShape ∧ (s.ctx 0).awaits vaddShape.xregs = none ∧
      s.replayStopped 0 = false ∧ s.readVs 0 vaddShape = some (0, 0, []) ∧ (s.popAllV 0 []).readXs 0 vaddShape = some (0, 0, []) ∧ s.vecReady 0 vadd vaddShape = true ∧ s.vecDstFull 0 0 ([] ++ []) vaddShape = false ∧
      (s.clu 0).laneAt ≤ s.now ∧ (s.clu 0).freeGroup s.now = some 0 ∧ 1 ≤ (s.clu 0).ldef ∧ (s.clu 0).lptr = slotCore 0 % 4) ∧
    (let s := (withSeq [seqE vadd 0 false]).modClu 0 fun c => { c with ldef := 1 };
      let u := (withSeq [seqE vadd 0 false]).modClu 0 fun c => { c with lptr := 3 };
      (s.clu 0).freeGroup s.now = some 0 ∧ 1 ≤ (s.clu 0).ldef ∧ (s.laneServe (4 * 0 + (s.clu 0).lptr)).isSome = true ∧
      (u.clu 0).ldef = 0 ∧ (u.laneServe (4 * 0 + ((u.clu 0).lptr + 1) % 4)).isSome = true) ∧
    (let e := vld (some [piece1]) true [piece1];
      let s : State := { withSeq [e] with now := 4 };
      s.slotDue 0 4 = true ∧ (s.clu 0).vcur = none ∧ s.vectorHead (4 * 0 + ((s.clu 0).vlast + 1) % 4) = some e) ∧
    (pendingIn (at0 []) (access (.store 7) 0x100 8 false) .running).servesAlone 0 0 (access (.store 7) 0x100 8 false) [] :=
  ⟨by decide +kernel, by decide +kernel, by decide +kernel, pending_serves _ _ _ (by decide +kernel)⟩

theorem meets_EnginesAndArraysProceed_engine : let s : State := { at0 [] with now := 6, cores := [(0, { seng := [(2, { active := true, base := 0xF0000000001000, n := [1, 1, 1, 1], stride := [8, 0, 0, 0] })] })] }
    s.slotDue 0 6 = true ∧ (match s.engineUnits 0 5 with
      | [u] => decide (u.reads.Nodup ∧ u.writes.Nodup ∧ s.unitLines 0 u ≠ [])
      | _ => false) = true ∧ (List.range 19).all (fun q => q == 5 || (s.engineUnits 0 q).isEmpty) = true := by decide +kernel
theorem meets_EnginesAndArraysProceed_write :
    let u := mkUnit (.row 0 7 0) [{ from_ := none, val := 0x1122, to_ := some 0x1008, pa := 0, n := 2 }]
    let s : State := { at0 [] with now := 6, clus := [(0, { eleft := [(0, [u])] })] }
    s.slotDue 0 6 = true ∧ s.engineUnits 0 0 = [u] ∧ (List.range 19).all (fun q => q == 0 || (s.engineUnits 0 q).isEmpty) = true ∧ u.reads = [] ∧ u.writes.Nodup ∧
      (s.unitLines 0 u).find? (fun k => k % 32 == ((0x1008 + 1) / 16) % 32) = some ((0x1008 + 1) / 16) := by decide +kernel
theorem meets_EnginesAndArraysProceed_array :
    (let s := (at0 []).modClu 0 fun c => { c with arr := { due := true } }; (s.clu 0).arr.job = none ∧ (s.clu 0).arr.upto ≤ s.now ∧ (s.clu 0).arr.due = true) ∧
    (let s : State := { at0 [] with now := 1, cores := [(0, { port := [entry0 (.mzero 3)] })] };
      (s.clu 0).arr.testDue s.now = none ∧ s.interrupted 0 = false ∧ s.matrixRequest 0 = some (entry0 (.mzero 3)) ∧ (s.clu 0).arr.run = 0 ∧ 0 < (s.clu 0).mburst ∧ (s.clu 0).arr.holder < 4) ∧
    (let p := { entry0 (.msta 0 false 5 6) with started := true, left := [0x100], base := 0x1000, ctl := 0x100 };
      let s : State := { at0 [] with cores := [(0, { port := [p] })], clus := [(0, { arr := { job := some (.move 0) } })] };
      (s.clu 0).arr.job = some (.move 0) ∧ (s.core 0).port = [p] ∧ slotServes p.left ≠ [] ∧ s.matrixSlot 0 = true ∧ s.linesUndoFull 0 (slotServes p.left) = false ∧ p.base % accBytes 0 = 0 ∧ ctlStride p.ctl % accBytes 0 = 0) ∧
    (let p := { entry0 (.mma 1 2 3 0 1 0) with started := true, cols := 64 };
      let s : State := { at0 [] with cores := [(0, { port := [p] })], clus := [(0, { arr := { job := some (.step 0) } })] };
      (s.clu (coreCluster 0)).arr.job = some (.step 0) ∧ (s.core 0).port = [p] ∧ shK p.sa ≤ p.kdone + p.stepLen ∧ shN p.sb ≤ p.pass * p.cols + p.cols) ∧
    (let p := { entry0 .mtest with done := true };
      let s : State := { at0 [] with cores := [(0, { port := [p] })], clus := [(0, { arr := { job := some (.test none), work := 256 } })] };
      (s.core 0).port = [p] ∧ p.done = true ∧ (s.clu 0).arr.job = some (.test none) ∧ 256 ≤ (s.clu 0).arr.work) ∧
    (let s : State := { in0 { ctx0 [] with charge := .undoFull } with clus := [(0, { arr := { cover := some 256 } })] };
      (s.clu 0).arr.cover.isSome = true ∧ ∃ e ∈ s.ctxs, slotCluster e.1 = 0 ∧ (e.2.charge = .undoFull ∨ e.2.charge = .restanteFull)) ∧
    (let f : SubFence := { n := 7, hard := false, since := 0 };
      let s : State := { at0 [] with now := 1048576, clus := [(0, { arr := { fences := [f] } })] };
      (s.clu 0).arr.fences.find? (fun f => !f.hard && decide (f.since + 2 ^ 20 ≤ s.now)) = some f ∧ (s.clu 0).arr.job = none ∧ (s.clu 0).arr.due = false) ∧
    (let s : State := { at0 [] with clus := [(0, { arr := { job := some (.retest 7), fences := [{ n := 7, hard := false, since := 0 }, { n := 2, hard := false, since := 0 }] } })] };
      (s.clu 0).arr.job = some (.retest (7 : BitVec 3).toNat) ∧ (s.clu 0).arr.upto ≤ s.now) := by
  refine ⟨?_, ?_, ?_, ?_, ?_, ?_, ?_, ?_⟩ <;> decide +kernel

theorem meets_FetchesAndTranslations :
    (let s := paged (in0 { ctx0 [] with pc := 0x10FFC }); (s.ctx 0).atBoundary = true ∧ s.fetch 0 = none ∧ s.fetchFaultOf 0 = none ∧ s.translate 0 0 0 false .fetch (0x10FFC / 64 * 64) = .ok 0x20FC0 ∧
      s.pageKnown 0 0 0 0 ((s.ctx 0).fetchVa / 4096) = true ∧ s.walkPoison 0 0 0 (s.ctx 0).fetchVa = none ∧ s.portFree 0x20FC0 = true) ∧
    (let s : State := { paged (in0 { ctx0 [] with pc := 0x10FFC }) with stations := [], parts := [(0, { proctab := 0x30000 })], mem := Memory.writeN [] 0x30000 0x8000000000031000 8 };
      s.fetch 0 = none ∧ s.fetchFaultOf 0 = none ∧ s.pageKnown 0 0 0 0 ((s.ctx 0).fetchVa / 4096) = false ∧ s.reqs.isEmpty = true) ∧
    (let s := in0 { ctx0 [] with pc := 0xF0000000000000 }; s.fetch 0 = none ∧ (s.fetchFaultOf 0).isSome = true ∧ s.trapsNow 0) ∧
    (let s := withReq (.amo .add 4) .translating 0;
      s.nextTrans 0 = some (req0 (.amo .add 4) .translating) ∧ s.req 0 = some (req0 (.amo .add 4) .translating) ∧
      ((s.cached 0 0 0 0x10008).map fun x => leafAllows (s.part 0) x.leaf.toNat x.bits (req0 (.amo .add 4) .translating).access false) = some true ∧
      ({ s with parts := [] } : State).trapsNow 0 ∧
      ((s.cached 0 0 0 0x10008).map fun x => leafAllows (({ s with parts := [] } : State).part 0) x.leaf.toNat x.bits (req0 (.amo .add 4) .translating).access false) = some false) ∧
    (let s : State := { withReq (.amo .add 4) .translating 0 with stations := [] };
      s.cached (req0 (.amo .add 4) .translating).station 0 0 0x10008 = none ∧ s.nextTrans 0 = some (req0 (.amo .add 4) .translating)) ∧
    (let s := withReq .xlat .translating 0; s.nextTrans 0 = some (req0 .xlat .translating) ∧ (s.cached (req0 .xlat .translating).station 0 0 0x10008).isSome = true) := by decide +kernel
/-- No request of `withReq` has faulted. -/
theorem withReq_not_faulted (k : ReqKind) (g : ReqStage) (now : Nat) (h : ∀ t, g ≠ .faulted t) : ∀ q ∈ (withReq k g now).reqs, ∀ t, q.stage ≠ .faulted t := by
  intro q hq t
  simp only [withReq, List.mem_singleton] at hq
  subst hq; exact h t

/-- A process table at 0x30000, four levels of tables from 0x31000 to 0x35000, and a page at physical 0x20000. -/
theorem meets_walk :
    let s : State := { withReq (.amo .add 4) .walking 0 with
      stations := [], parts := [(0, { proctab := 0x30000, grants := [(0x20000, 0x16000)] })]
      mem := Memory.writeN (Memory.writeN (Memory.writeN (Memory.writeN (Memory.writeN (Memory.writeN [] 0x30000 0x8000000000031000 8) 0x31000 0x32001 8) 0x32000 0x33001 8) 0x33000 0x34001 8)
        0x34000 0x35001 8) 0x35080 0x2003F 8 }
    s.reqs.find? (fun r => r.sid == 0 && r.inWalk && s.walkTakes r.part r.pid r.va) = some (req0 (.amo .add 4) .walking) ∧
    s.reqs.filter (fun q => q.inWalk && q.samePage (req0 (.amo .add 4) .walking)) = [req0 (.amo .add 4) .walking] ∧
    s.walkPoison 0 0 0 0x10008 = none ∧ s.walk 0 0 0x10008 = .ok (0x2003F, 12) ∧ leafAllows (s.part 0) 0x2003F 12 .atomic false = true ∧
    (({ s with mem := [] } : State).walk 0 0 0x10008).isOk = false ∧ s.trapsNow 0 := by decide +kernel

theorem meets_RequestsRunTheirCourse_release :
    (let s := withReq .store .held 704; s.req 0 = some (req0 .store .held) ∧ s.mayRelease (req0 .store .held) = true ∧ (req0 .store .held).isStore = true) ∧
    (withReq .device .held 704).mayRelease (req0 .device .held) = true ∧ (withReq .unsub .held 704).mayRelease (req0 .unsub .held) = true ∧ (withReq (.emit 1 1) .held 704).mayRelease (req0 (.emit 1 1) .held) = true ∧
    (let r := req0 .store .released;
      let s := withReq .store .released 704;
      let u : State := { s with parts := [] };
      s.faultHolds r = false ∧ r.isStore = true ∧ s.entryTurn r = true ∧ r.isAtomic = false ∧ r.sid < savedBase ∧
      ((s.cached r.station r.part r.pid r.va).map fun x => leafAllows (s.part r.part) x.leaf.toNat x.bits .write r.mode) = some true ∧
      u.req 0 = some r ∧ u.faultHolds r = false ∧ u.entryTurn r = true ∧
      ((u.cached r.station r.part r.pid r.va).map fun x => leafAllows (u.part r.part) x.leaf.toNat x.bits .write r.mode) = some false) ∧
    (let r := req0 (.amo .add 4) .released;
      let s := withReq (.amo .add 4) .released 704;
      s.faultHolds r = false ∧ r.isStore = true ∧ s.entryTurn r = true ∧ r.isAtomic = true) ∧
    (let r := req0 .store .released;
      let s : State := { withReq .store .released 704 with stations := [] };
      s.req 0 = some r ∧ s.faultHolds r = false ∧ s.entryTurn r = true ∧ s.cached r.station r.part r.pid r.va = none) ∧
    (withReq .storeRelease .ready 704).releaseReady (req0 .storeRelease .ready) = true := by
  refine ⟨?_, ?_, ?_, ?_, ?_, ?_, ?_, ?_⟩ <;> decide +kernel
theorem meets_RequestsRunTheirCourse_perform :
    (let r := req0 .store .sent;
      let s := withReq .store .sent 704;
      s.crossing 0 = false ∧ s.orderHolds r = false ∧ r.isHost = false ∧ homeDie r.pa = clusterDie 0 ∧ s.takes r = true ∧ r.be = allBytes 8) ∧
    (let r := req0 (.amo .add 4) .performed;
      let s := withReq (.amo .add 4) .performed 704;
      s.crossing 0 = false ∧ r.ended = false ∧ s.invalidating 0 = false ∧ (req0 .store .performed).isPlainStore = true ∧ (req0 .store .performed).isHost = false) ∧
    (∀ k ∈ [ReqKind.store, .amo .add 4], let r := { req0 k .sent with pa := hostBase + 8 };
      let s : State := { at0 [] with reqs := [r], nextId := 1 };
      s.req 0 = some r ∧ r.isHost = true ∧ s.earlier r = [] ∧ r.be = allBytes 8) ∧
    ((withReq (.load (.x 4) true false) .performed 0).loadBack 0 = some (req0 (.load (.x 4) true false) .performed)) ∧
    (let v : Inval := { n := 3, die := 1, line := 0x800, req := 9, sid := 0, module := 0 };
      let s : State := { in0 { ctx0 [] with markers := [(2, [4])] } with invals := [v] };
      s.invals.find? (fun v => v.n == 3) = some v ∧ ∀ k ∈ (s.ctx 0).markers, k.1 = 2 → ∀ v ∈ s.invals, v.n ∉ k.2) ∧
    (let s := in0 { ctx0 [] with fault := { valid := true, pending := true } };
      let c := s.ctx 0;
      c.fault.pending = true ∧ c.heldForSave = false ∧ c.mode = false ∧ c.replay.isNone = true ∧ c.cap.isNone = true ∧ c.atBoundary = true ∧ c.inmeet = false ∧ s.trapBlock 0 = none) := by
  refine ⟨?_, ?_, ?_, ?_, ?_, ?_⟩ <;> decide +kernel

def xfer0 (k : XferKind) (held : Bool) (prog : Nat) : Xfer :=
  { kind := k, xid := 7, sid := 0, block := 0x100, pc := 0xFFC, pid := 0, part := 0, mode := false, priv := 0, made := 0, held := held, stopped := false, ring := 2, prog := prog, result := none
    overrun := none, serial := 0, taints := [] }
/-- One transfer of core 0 with its block, and its ring at its RDEF state. -/
def withXfer (x : Xfer) (ws : List Nat) (now : Nat) : State :=
  { at0 [] with cores := [(0, { xfers := [x], rg := [(2, ring1 0)] })], clus := [(0, { spad := words 0x100 ws, tags := [(0, 0x08000000), (1, 0x08000000)] })], now := now }

theorem meets_TransfersMoveTheirBytes :
    (let x := xfer0 .copy true 0;
      let s := withXfer x copyWords 704;
      s.xfer 0 (BitVec.ofNat 32 7) = some x ∧ x.held = true ∧ x.stopped = false ∧ s.releasable 0 x.made x.taints = true) ∧
    (let x := xfer0 .copy false 1;
      let s := withXfer x copyWords 704;
      let b := copyBlk (s.spadRead 0 x.block 64);
      s.rowReady 0 x b = true ∧ Tab.get [] (s.clu 0).eleft 0 = [] ∧ (s.xlatAsk 0 0 0 0 ((b.globals 1).map fun g => g.2.1.toNat)).isNone = true ∧ s.firstFault 0 0 0 false (b.globals 1) = none ∧
      (s.portAsk (s.portReads 0 (s.engineLines 0 0 0 false .read (((b.globals 1).filter fun g => g.1 == .read).map fun g => g.2.1))) (engineRank 0 0)).isNone = true ∧
      (s.rowUnit 0 x b).done = false ∧ (∀ p ∈ (s.rowUnit 0 x b).pieces, p.to_.isSome = true)) ∧
    (let x := xfer0 .copy false 0;
      let s := withXfer x (copyWords.set 1 0x10000) 704;
      let b := copyBlk (s.spadRead 0 x.block 64);
      let v : State := { s with reqs := [{ req0 .xlat .ready with va := 0x10000 }] };
      (s.xlatAsk 0 0 0 0 ((b.globals 0).map fun g => g.2.1.toNat)).isSome = true ∧ v.rowReady 0 x b = true ∧
      (v.xlatAsk 0 0 0 0 ((b.globals 0).map fun g => g.2.1.toNat)).isNone = true ∧ (v.firstFault 0 0 0 false (b.globals 0)).isSome = true ∧ v.progFull 0 x = false) ∧
    (let x := xfer0 .copy false 1;
      let u : EngineLeft := { work := .row 0 7 1, pieces := [{ from_ := none, val := 5, to_ := none, pa := 0x20000, n := 8 }], reads := [], writes := [], got := [] };
      let s := (withXfer x copyWords 704).setUnits 0 0 [u];
      s.unitOf 0 0 (.row 0 x.xid.toNat x.prog) = some u ∧ u.done = true ∧ lineOf 0x20000 = lineOf (0x20000 + 8 - 1) ∧ (s.portAsk [lineOf 0x20000] (engineRank 0 0)).isNone = true) ∧
    (let x := xfer0 .copy false 2; (withXfer x copyWords 704).xferEnd 0 x = some (0, 0, 0x2000000010000) ∧ (withXfer x copyWords 704).progFull 0 x = false) ∧
    (let x := xfer0 .sub true 0;
      let s := withXfer x walkWords 704;
      s.xfer 0 7 = some x ∧ s.releasable 0 x.made x.taints = true ∧ s.ringIdle 0 x.ring = true ∧ (walkBlk (s.spadRead 0 x.block 64)).mc = false) ∧
    (let x := xfer0 .drain true 0;
      let s := withXfer x walkWords 704;
      s.xfer 0 7 = some x ∧ s.releasable 0 x.made x.taints = true ∧ s.engineClear 0 x = true) := by decide +kernel

def sub0 : Sub :=
  { n := 3, ci := 0, xid := 7, block := walkWords.foldr (fun w n => w + 2 ^ 64 * n) 0, ring := 2, count := 2, receivers := [{ ci := 0 }], sent := 0, active := true, cancelled := false, pid := 0, part := 0, mode := false }
def drain0 (taken : Bool) : Drain :=
  { n := 3, ci := 0, xid := 7, block := sub0.block, ring := 2, prog := 0, taken := taken, active := true, pid := 0, part := 0, mode := false }

theorem meets_TilesAndStreamsMove :
    (let c : Credit := { n := 3, ci := 0, xid := 7, dst := 0, tag := 1, bytes := 64, data := none };
      let s : State := { at0 [] with credits := [c], clus := [(0, { tags := [(1, 0x09FFFFC0)] })] };
      s.credits.find? (fun c => c.n == 3) = some c ∧ tagValid (s.tag 0 1) = true ∧ tagOvr (s.tag 0 1) = false ∧ tagFull (s.tag 0 1) = false ∧ tagExp (s.tag 0 1) = true ∧ tagBal (s.tag 0 1) + 64 = 0) ∧
    (let s : State := { paged (withXfer (xfer0 .sub false 0) walkWords 704) with subs := [sub0] };
      s.sub 3 = some sub0 ∧ sub0.credit ≠ 0 ∧ sub0.sent < (s.walkNow 0 7 sub0.block).tiles ∧ s.xfer 0 7 = some (xfer0 .sub false 0) ∧
      (let as := ((s.walkNow 0 7 sub0.block).elems 0).map Prod.snd;
        (s.xlatAsk 0 0 0 0 (as.map BitVec.toNat)).isNone = true ∧ s.firstFault 0 0 0 false (as.map fun a => (.read, a, (s.walkNow 0 7 sub0.block).e)) = none ∧
        (s.portAsk (s.portReads 0 (s.engineLines 0 0 0 false .read as)) (engineRank 0 6)).isNone = true)) ∧
    (let m : Msg := { id := 9, at_ := 0, body := .tile 3 0 5 };
      let s : State := { withXfer (xfer0 .sub false 0) walkWords 704 with subs := [sub0], net := [m] };
      s.net.find? (fun m => match m.body with
        | .tile k c _ => k == 3 && c == 0
        | _ => false) = some m ∧ s.sub 3 = some sub0) ∧
    (let s : State := { at0 [] with cores := [(0, { frees := [(2, 1, 0, [])] })], now := 704 };
      (s.core 0).frees.find? (fun f => f.1 == 2 && f.2.1 == 1) = some (2, 1, 0, []) ∧ s.releasable 0 0 [] = true) ∧
    ((withReq .unsub .sent 704).req 0 = some (req0 .unsub .sent)) ∧
    (let d : Drain := { drain0 false with copies := [(0, 0, 5)] };
      let s : State := { paged (withXfer (xfer0 .drain false 0) walkWords 704) with
        drains := [d], clus := [(0, { spad := words 0x100 walkWords, tags := [(0, 0x0A000000)], eleft := [(2, [mkUnit (.take 3 0) []])] })] };
      let w := s.walkNow 0 7 d.block;
      let gs := (w.elems 0).map fun p => (s.enginePa 0 0 0 false .write p.2, w.e, 5 / 2 ^ (8 * p.1) % 2 ^ (8 * w.e));
      let v : State := { s with stations := [], reqs := [{ req0 .xlat .ready with va := 0x10000 }] };
      s.drain 3 = some d ∧ s.takeReady d = true ∧ s.headReleased d = some 5 ∧ (s.unitOf 0 2 (.take 3 0)).any EngineLeft.done = true ∧
      (s.xlatAsk 0 0 0 0 ((w.elems 0).map fun p => p.2.toNat)).isNone = true ∧ s.firstFault 0 0 0 false ((w.elems 0).map fun p => (.write, p.2, w.e)) = none ∧
      (s.portAsk (((linesOfPieces gs).map Prod.fst).filter fun l => decide (64 * l < hostBase)) (engineRank 0 1)).isNone = true ∧
      (v.firstFault 0 0 0 false ((w.elems 0).map fun p => (.write, p.2, w.e))).isSome = true ∧ v.takeReady d = true) ∧
    (let s : State := { at0 [] with drains := [drain0 true] }; s.drain 3 = some (drain0 true)) ∧
    (let g : StreamEng := { active := true, base := 0xF0000000001000, n := [2, 1, 1, 1], stride := [8, 0, 0, 0], moved := 1 };
      let u := { g.unit 0 1 1 with reads := [], got := [(0x100, 5)] };
      let s : State := { at0 [] with cores := [(0, { seng := [(1, g)] })], clus := [(0, { eleft := [(4, [u])] })] };
      Tab.get {} (s.core 0).seng 1 = g ∧ g.sid < savedBase ∧ g.moved < patternCount g.n ∧ s.frozenPart g.part = false ∧ s.unitOf (coreCluster 0) (3 + 4 * (0 % 4) + 1) (.entry 0 1 g.moved) = some u ∧
      u.done = true ∧ u.pieces.length = 1 ∧ patternCount g.n ≤ ({ g with moved := 2 } : StreamEng).moved) ∧
    (let s := in0 { ctx0 [] with uieEn := true, uints := [(7, 0x400)] };
      (s.ctx 0).uintReady = true ∧ (s.ctx 0).act = .running ∧ (s.ctx 0).fault.pending = false ∧ (s.ctx 0).heldForSave = false) := by
  refine ⟨?_, ?_, ?_, ?_, ?_, ?_, ?_, ?_, ?_⟩ <;> decide +kernel

/-- A command of a queue that partition 0 owns, the first of its queue. -/
def cmd0 (w0 w1 : Nat) (started : Bool) : Cmd := { n := 0, w := BitVec.ofNat 512 (w0 + 2 ^ 64 * w1), at_ := 0, started := started }
def withCmd (c : Cmd) : State :=
  { paged {} with queues := [(5, { owner := some 0, en := true, cmds := [c] })], parts := [(0, { live := true, rect0 := some ⟨0, 0, 1, 1⟩, grants := [(0x20000, 0x1000)] })], boot := { ready := true, stage := 7 } }

theorem meets_QueuesRunTheirCommands :
    (let s : State := { paged {} with
        queues := [(5, { owner := some 0, en := true, qpidx := 1, qbase := 0x10000, cqbase := 0x10400, dones := [{ ctag := 1, code := 0, status := 0, word1 := 0 }] })], boot := { ready := true, stage := 7 } };
      let k := s.queue 5;
      k.en = true ∧ s.boot.ready = true ∧ s.boot.minimal = false ∧ k.ahead ≠ 0 ∧ k.cqFull = false ∧ k.cmds = [] ∧ k.owner ≠ none ∧ s.queueRead 5 k.qbase 8 = .ok 0 ∧
      s.cmdOk 5 (cmd0 0 0 false) = false ∧ s.cmdOk 5 (cmd0 6 0 false) = true ∧ s.queuePa 5 .write k.cqbase = .ok 0x20400) ∧
    ((withCmd (cmd0 6 0 false)).command 5 0 = some (cmd0 6 0 false) ∧ (cmd0 6 0 false).op = 6 ∧ ((withCmd (cmd0 6 0 false)).queue 5).cmds.head? = some (cmd0 6 0 false)) ∧
    ((cmd0 0x03FF0001 0 false).op = 1 ∧ (cmd0 0x03FF0001 0 false).arg = 1023 ∧ (cmd0 0x04000001 0 false).arg = 1024) ∧
    (let s : State := { withCmd (cmd0 7 0x10000 false) with mem := Memory.writeN [] 0x20000 (0x2000 + 2 ^ 128 * 1) 64 };
      (cmd0 7 0x10000 false).op = 7 ∧ s.queueRead 5 0x10000 8 = .ok (0x2000 + 2 ^ 128 * 1) ∧ recordBad (s.part 0) (blockWord (0x2000 + 2 ^ 128 * 1)) = false ∧
      s.recordLines 5 (blockWord (0x2000 + 2 ^ 128 * 1)) = .ok (none, none)) ∧
    ((cmd0 4 9 false).op = 4 ∧ (cmd0 5 9 false).op = 5 ∧ (∀ e ∈ (withCmd (cmd0 4 9 true)).ctxs, (cmd0 4 9 true).namesCtx 5 0 e.2 = false) ∧ (withCmd (cmd0 4 9 true)).savedOut.length = 0) := by
  refine ⟨?_, ?_, ?_, ?_, ?_⟩ <;> decide +kernel

theorem meets_PartitionsComeAndGo :
    (let s : State := {}; s.createBad 31 (some ⟨0, 0, 1, 1⟩) none = false ∧ rectOfWord 0x8000000001010000 = some ⟨0, 0, 1, 1⟩ ∧ s.createBad 32 (some ⟨0, 0, 1, 1⟩) none = true ∧ s.createBad 0 none none = true) ∧
    (let s := withCmd (cmd0 0x11 0 false); (cmd0 0x11 0 false).op = 0x11 ∧ (s.part 0).live = true ∧ (s.part 0).reset = none ∧ s.partIdle 0 = true ∧ (s.queue 6).en = false ∧ (s.queue 5).owner ≠ none) ∧
    (let s : State := { ctxs := [(0, ctx0 [])], parts := [(0, { live := true, rect0 := some ⟨0, 0, 1, 1⟩, rstctl := 5, reset := some { t0 := 10, t1 := none, cmds := [] } })], now := 15 };
      (s.part 0).reset = some { t0 := 10, t1 := none, cmds := [] } ∧ 10 + (s.part 0).rstctl.toNat ≤ s.now ∧ s.partLive 0 = true ∧ (s.part 0).holds 0 = true ∧ (s.ctx 0).act ≠ .free) ∧
    (let s : State := { nacks := [(4, .response 9)] }; s.nacks.find? (fun k => k.1 == 4) = some (4, .response 9)) := by
  refine ⟨?_, ?_, ?_, ?_⟩ <;> decide +kernel

def launch1 (active : Bool) (tm : Option Template) (next : Nat) : Launch :=
  { part := 0, lid := 4, queue := 5, origin := .command 0, tix := 3, tmpl := tm, gangs := 2, args := [8, 9], prio := none, pid := 0, arrived := 1, oldest := some 1, active := active, next := next }
def withLaunch (l : Launch) : State :=
  { parts := [(0, { live := true, rect0 := some ⟨0, 0, 1, 1⟩, tmpl := [(3, some template1)] })], launches := [l], now := 900
    queues := [(5, { owner := some 0, en := true, cmds := [cmd0 0x00030001 0 true] })] }

theorem meets_LaunchesArePlacedAndEnd_dispatch :
    (let l := launch1 false none 0;
      let s := withLaunch l;
      s.launch 0 4 = some l ∧ l.active = false ∧ s.nextLaunch 0 = some l ∧ (s.part 0).live = true ∧ (s.part 0).reset.isNone = true ∧ (s.launches.filter fun l => l.part == 0 && l.active).length < 16 ∧
      s.template 0 l.tix = some template1 ∧ template1.size ≤ 2 * (s.logicalCores 0).length) ∧
    (let l := launch1 true (some template1) 1;
      let s := withLaunch l;
      s.launch 0 4 = some l ∧ l.next < l.gangs ∧ l.pooled = 0 ∧ l.stopped = false ∧ (∀ c ∈ s.gangCores 0 1 1, coreCluster c = coreCluster ((s.gangCores 0 1 1).headD 0)) ∧
      (s.clu (coreCluster ((s.gangCores 0 1 1).headD 0))).pool.length + 1 ≤ 64) ∧
    (let tm := { template1 with steal := true };
      let l := launch1 true (some tm) 0;
      let s : State := { withLaunch l with parts := [(0, { live := true, rect0 := some ⟨0, 0, 0, 0⟩ })], clus := [(0, { deques := [{ part := 0, lid := 4, ranges := [(0, 2)] }] })] };
      s.dirClusters 0 = [0] ∧ s.deque 0 0 4 = some { part := 0, lid := 4, ranges := [(0, 2)] } ∧ (s.clu 0).dqAt ≠ some s.now ∧ (s.clu 0).pool.length + tm.size ≤ 64) ∧
    (let tm := { template1 with size := 8 };
      let l := launch1 true (some tm) 1;
      let s := withLaunch l;
      (s.part 0).token.or (s.spanNext 0) = some (4, 1) ∧ ((s.modPart 0 fun k => { k with token := some (4, 1) }).reserveSlots 0 (s.gangCores 0 1 8) |>.part 0).reserved.length = 8) := by
  refine ⟨?_, ?_, ?_, ?_⟩ <;> decide +kernel

theorem meets_LaunchesArePlacedAndEnd_tasks :
    (let l := launch1 true (some template1) 2;
      let s : State := { withLaunch l with clus := [(0, { pool := [{ part := 0, lid := 4, gang := 0, member := 0, core := some 0, saved := none, tags := [] }] })] };
      ((s.poolNext 0).map fun p => (p.1.lid, p.1.saved, p.2)) = some (4, none, [(0, 0)])) ∧
    (let s := in0 { ctx0 [] with act := .placed 0 }; (s.ctx 0).act = .placed 0 ∧ 0 ≤ s.now) ∧
    (let e (g : Nat) : TaskEnd := { gang := g, member := 0, cl := 0, at_ := 5 };
      let l := { launch1 true (some template1) 2 with ends := [e 0, e 1] };
      let s := withLaunch l;
      l.gangs * template1.size ≤ l.ends.length ∧ (∀ e ∈ l.ends, s.releasable e.cl e.at_ [] = true) ∧ s.outputsOpen l = false ∧ s.command 5 0 = some (cmd0 0x00030001 0 true)) ∧
    (let e (g : Nat) : TaskEnd := { gang := g, member := 0, cl := 0, at_ := 5 };
      let l := { launch1 true (some template1) 2 with ends := [e 0, e 1], origin := .word 0 0 9 0 };
      let s : State := { withLaunch l with ctxs := [(0, { ctx0 [] with launchId := 9 })] };
      (∀ e ∈ l.ends, s.releasable e.cl e.at_ [] = true) ∧ s.launcherSaved 0 0 9 0 = false ∧ s.launcherAt 0 0 9 0 = some 0) ∧
    (let s := in0 { ctx0 [] with idWait := [(4, 6)] }; (s.ctx 0).idWait = [(4, 6)] ∧ ∀ a ∈ s.answers, a.1 ≠ 6) := by
  refine ⟨?_, ?_, ?_, ?_, ?_⟩ <;> decide +kernel

/-- Two clusters of a partition; a message of a steal. -/
def withSteal (b : MsgBody) (v : List (Nat × Nat)) (t : Deque) : State :=
  { parts := [(0, { live := true, rect0 := some ⟨0, 0, 1, 0⟩ })], net := [{ id := 2, at_ := 5, body := b }], now := 9, nextId := 3, clus := [(0, { deques := [t] }), (1, { deques := [{ part := 0, lid := 4, ranges := v }] })] }

theorem meets_LaunchesArePlacedAndEnd_steal :
    (let t : Deque := { part := 0, lid := 4, ranges := [], waiting := true, asked := 1 };
      let s := withSteal (.steal 0 4 0 1) [(2, 7)] t;
      s.came 2 = some { id := 2, at_ := 5, body := .steal 0 4 0 1 } ∧ s.deque 1 0 4 = some { part := 0, lid := 4, ranges := [(2, 7)] } ∧ (s.clu 1).dqAt ≠ some s.now ∧ s.ownerCan 1 0 4 = false ∧
      (withSteal (.steal 0 4 0 1) [(2, 3), (6, 7)] t).deque 1 0 4 = some { part := 0, lid := 4, ranges := [(2, 3), (6, 7)] }) ∧
    (let t : Deque := { part := 0, lid := 4, ranges := [], waiting := true, asked := 1 };
      let s := withSteal (.stolen 0 4 0 (some (2, 4))) [] t;
      s.came 2 = some { id := 2, at_ := 5, body := .stolen 0 4 0 (some (2, 4)) } ∧ s.deque 0 0 4 = some t ∧ min 8 ((s.dirClusters 0).length - 1) ≤ t.asked) ∧
    (let t : Deque := { part := 0, lid := 4, ranges := [], again := 5 };
      let s := withSteal (.stolen 0 4 0 none) [] t;
      s.partOfCluster 0 = some 0 ∧ s.deque 0 0 4 = some t ∧ t.again ≠ 0 ∧ t.again ≤ s.now ∧ t.waiting = false ∧ t.asked = 0 ∧ t.ranges = [] ∧ 2 ≤ (s.dirClusters 0).length ∧ t.asked < min 8 ((s.dirClusters 0).length - 1)) := by
  refine ⟨?_, ?_, ?_⟩ <;> decide +kernel

def call1 (sid q : Nat) (zero : Bool) : Call := { sid := sid, tok := sid, part := 0, pid := 0, key := 5, q := q, op := 1, word := 3, zero := zero }
/-- A message at directory cluster 0 of a partition of four clusters, whose entry 5 holds what is given. -/
def atDir (b : MsgBody) (d : Option DirBody) : State :=
  { parts := [(0, { live := true, rect0 := some ⟨0, 0, 1, 1⟩ })], net := [{ id := 2, at_ := 5, body := b }], nextId := 3, now := 9
    posts := [(0, { entries := match d with
      | some x => [(5, some { part := 0, pid := 0, key := 5, body := x })]
      | none => [] })] }

theorem meets_DirectoriesAnswerCalls :
    (let c := call1 10 2 false;
      let s := atDir (.notice 0 c) none;
      s.came 2 = some { id := 2, at_ := 5, body := .notice 0 c } ∧ 2 < s.nextId ∧ ((s.probe 0 c).map fun p => p.2) = some none ∧ s.closing c = false ∧ c.zero = false ∧ (call1 10 2 true).zero = true) ∧
    (let c := call1 10 2 false;
      let s := { atDir (.notice 0 c) none with parts := [(0, { live := true, rect0 := some ⟨0, 0, 1, 1⟩, reset := some { t0 := 0, t1 := none, cmds := [] } })] };
      (s.probe 0 c).isSome = true ∧ s.closing c = true) ∧
    (let c := call1 10 2 false;
      let e := (((atDir (.notice 0 c) none).probe 0 c).map fun p => p.1).getD 0;
      let s : State := { atDir (.notice 0 c) none with posts := [(0, { entries := [(e, some { part := 0, pid := 0, key := 5, body := .notice (call1 20 2 false) })] })] };
      ((s.probe 0 c).map fun p => p.2.map DirEntry.body) = some (some (.notice (call1 20 2 false))) ∧ (s.post 0).pairs.length < 16 ∧ slotCluster 10 ≠ slotCluster 20 ∧ (s.choosePlace 0 (slotCluster 20) (slotCluster 10)).isSome = true ∧
      (s.withdraw 0 20).isSome = true ∧ (s.withdraw 0 21).isNone = true ∧ s.callWaits 20 = false) ∧
    (let c := call1 10 2 false;
      let e := (((atDir (.arrival 0 c) none).probe 0 c).map fun p => p.1).getD 0;
      let s : State := { atDir (.arrival 0 c) none with posts := [(0, { entries := [(e, some { part := 0, pid := 0, key := 5, body := .roll 2 1 [call1 20 2 false] })] })] };
      s.came 2 = some { id := 2, at_ := 5, body := .arrival 0 c } ∧ ((s.dropKept 0).post 0).arrivals < 1024 ∧
      ((s.probe 0 c).map fun p => p.2.map DirEntry.body) = some (some (.roll c.q c.op [call1 20 2 false])) ∧ c.q ≤ [call1 20 2 false].length + 1 ∧ s.closing c = false) ∧
    (let p : Park := { roll := false, tok := 0, key := 5, d := 3, b := 0, word := 0, quorum := 0, op := 0, poff := 0, plen := 0, vmask := 0, deadline := some 9, withdrawn := false };
      let s : State := { in0 { ctx0 [] with act := .parked, park := some p } with now := 9 };
      (s.ctx 0).act = .parked ∧ (s.ctx 0).park = some p ∧ (s.ctx 0).heldForSave = false ∧ isVisitor 0 = false ∧ (s.ctx 0).meet.isNone = true) ∧
    (let p : PairRec := { a := call1 10 2 false, b := call1 20 2 false, taint := 1, at_ := 0 };
      let s : State := { atDir (.withdrawal 0 (call1 10 2 false)) none with posts := [(0, { pairs := [p] })], now := 64 };
      (s.post 0).pairs = [p] ∧ slotCluster p.a.sid ≠ slotCluster p.b.sid ∧ p.at_ < s.now ∧ (s.now - p.at_) % 64 = 0 ∧ (s.choosePlace p.a.part (slotCluster p.a.sid) (slotCluster p.b.sid)).isSome = true) := by
  refine ⟨?_, ?_, ?_, ?_, ?_, ?_⟩ <;> decide +kernel

def park1 (tok : Nat) : Park := { roll := false, tok := tok, key := 5, d := 3, b := 6, word := 0, quorum := 0, op := 0, poff := 1, plen := 1, vmask := 0x8001, deadline := none, withdrawn := false }
/-- Slots 0 and 1 parked, and a message to slot 0. -/
def parked01 (b : MsgBody) : State :=
  { ctxs := [(0, { ctx0 [] with act := .parked, park := some (park1 7), privSize := 0x1000 }), (1, { ctx0 [] with act := .parked, park := some (park1 8), meet := some { meeting 0 with taint := 4 } })], net := [{ id := 2, at_ := 5, body := b }], nextId := 3, now := 9 }

theorem meets_PartiesMeetAndReturn :
    (let s := parked01 (.answer 0 7 3);
      s.came 2 = some { id := 2, at_ := 5, body := .answer 0 7 3 } ∧ (s.clu (slotCluster 0)).restore.isNone = true ∧ s.partyAt 7 = some 0 ∧ (s.ctx 0).park = some (park1 7) ∧ s.trapBlock 0 = none ∧ (s.ctx 0).inmeet = false) ∧
    ((parked01 (.release 0 7 1 4)).came 2).isSome = true ∧ ((parked01 (.order 0 7 1 (some 18) 19 4)).came 2).isSome = true ∧
    (let s := parked01 (.order 0 7 0 none 1 4);
      ((s.ctx 1).meet.map fun q => q.taint) = some 4 ∧ (s.ctx 1).act = .parked ∧ (s.ctx 1).park = some (park1 8) ∧ (s.ctx 2).meet.isNone = true) ∧
    (let q := { meeting 9 with parcel := parcelKey 0, inPlace := false };
      let s := parked01 (.envelope 8 { ctx0 [] with meet := some q } 5);
      (s.came 2).isSome = true ∧ s.undoFull q.place q.parcel (64 * (q.plen + 1)) = false ∧ q.partner ≠ 8 ∧ (s.ctx q.partner).meet.isNone = true) ∧
    (let q := { meeting 9 with trap := some { async := false, t := .partnerGone, tval := 1, epc := 0x1000, cap := none, framepc := 0 } };
      let s := parked01 (.luggage 0 { ctx0 [] with meet := some q } 5 8);
      (s.came 2).isSome = true ∧ (8 : Nat) ≠ 0 ∧ s.undoFull 0 ((s.ctx 0).privBase.toNat + 64 * q.poff) (64 * (q.plen + 1)) = false) ∧
    (let q := { meeting 9 with inPlace := false };
      let c : Ctx := { ctx0 [] with meet := some q };
      let m : Msg := { id := 2, at_ := 2000, body := .luggage 20 c 5 8 };
      let s : State := { ctxs := [(8, { c with act := .away })], net := [m], now := 1000 };
      m ∈ s.net ∧ luggageLeft c ≤ s.now ∧ (s.ctx 8).act = .away ∧ (s.ctx 8).meet = some q) := by
  refine ⟨?_, ?_, ?_, ?_, ?_, ?_, ?_⟩ <;> decide +kernel

theorem meets_ContextsWaitAndRecover_waits :
    (let s : State := { in0 { ctx0 [] with act := .waitWord 4 (some 50) } with now := 50 }; (s.ctx 0).act = .waitWord 4 (some 50) ∧ 50 ≤ s.now) ∧
    (let s : State := { in0 { ctx0 [] with act := .waitTag 4 1 true (some 50) } with now := 50 }; (s.ctx 0).act = .waitTag 4 1 true (some 50) ∧ 50 ≤ s.now) ∧
    (let s : State := { in0 { ctx0 [] with act := .sleeping (some 50) } with now := 50 }; (s.ctx 0).act = .sleeping (some 50) ∧ 50 ≤ s.now) ∧ (in0 { ctx0 [] with act := .halted }).me.act = .halted := by
  refine ⟨?_, ?_, ?_, ?_⟩ <;> decide +kernel

def saved1 (restoring : Bool) (todo : List (Nat × Nat)) (ended : Option Nat) : Saved :=
  { n := 3, part := 0, lid := 4, sid := 0, ctx := ctx0 [], inbox := [], owner := false, block := 0x20000, image := none, todo := todo, at_ := 0, ended := ended, eligible := true, yielded := false
    restoring := restoring, back := none }

theorem meets_ContextsWaitAndRecover_saves :
    (let s := in0 { ctx0 [] with preemptReq := true };
      (s.savedOut.find? (fun v => v.sid == 0 && v.ended.isNone)).isNone = true ∧ s.atCut 0 = true ∧ s.saveTurn 0 = true ∧ s.goingXfers 0 = [] ∧ s.enginesQuiet 0 = true ∧ s.freesHeld 0 = false ∧ s.portCut 0 = some none) ∧
    (let s : State := { withXfer (xfer0 .copy false 0) copyWords 0 with ctxs := [(0, { ctx0 [] with preemptReq := true })] };
      s.atCut 0 = true ∧ s.saveTurn 0 = true ∧ (∃ x ∈ (s.core 0).xfers, x.sid = 0 ∧ x.stopped = false) ∧ (∀ x ∈ s.goingXfers 0, x.kind = .copy → x.held = false → s.undoFull 0 (x.block + 60) 4 = false)) ∧
    (let s : State := { saved := [saved1 false [(0x20000, 0)] none] };
      s.savedOut.find? (fun v => v.sid == 0 && v.ended.isNone) = some (saved1 false [(0x20000, 0)] none) ∧ s.restUsed 0 + 6 ≤ 512 ∧
      ({ saved := [saved1 false [] none] } : State).savedOut.find? (fun v => v.sid == 0 && v.ended.isNone) = some (saved1 false [] none)) ∧
    (let s : State := { saved := [saved1 false [] (some 0)], clus := [(0, { pool := [{ part := 0, lid := 4, gang := 0, member := 0, core := none, saved := some 3, tags := [] }] })], parts := [(0, { live := true, rect0 := some ⟨0, 0, 0, 0⟩ })], launches := [launch1 true (some template1) 2] };
      s.savedOut.find? (fun v => v.n == 3) = some (saved1 false [] (some 0)) ∧ ((s.poolNext 0).map fun p => p.1.saved) = some (some 3)) ∧
    (let s : State := { saved := [saved1 true [] (some 0)] };
      s.savedOut.find? (fun v => v.n == 3) = some (saved1 true [] (some 0)) ∧ (s.fromBlock (saved1 true [] (some 0))).frame.getLsbD 15 = false) := by
  refine ⟨?_, ?_, ?_, ?_, ?_⟩ <;> decide +kernel

theorem meets_ContextsWaitAndRecover_rollbacks :
    (let s := at0 []; s.now % 256 = 0 ∧ (∃ c ∈ s.activeClusters, (s.clu c).restore.isNone = true ∧ ∀ k ∈ (s.clu c).ckpts, k.at_ ≠ s.now) ∧ (s.clu 0).arr.cover.isNone = true) ∧
    (let s : State := { at0 [] with now := 1000 }; s.rollsBack 1151 = true ∧ s.taintTab.isEmpty = true ∧ ((s.clu 1151).rbTimes.filter fun u => decide (s.now < u + 1800000)).length < 8) ∧
    (let r : Restore := { target := 256, at_ := 1000, located := 0, fails := 0, rewinds := [] };
      let k : Ckpt := { at_ := 256, ctxs := [(0, ctx0 [(5, 1)])], cores := [], tags := [], waiters := [], credits := [], loads := [], atoms := [], subs := [] };
      let s : State := { at0 [] with now := 1300, clus := [(0, { restore := some r, ckpts := [k], undo := [{ interval := 2, line := 7, old := 5 }] })] };
      (s.clus.filter fun k => k.2.restore.isSome) = [(0, s.clu 0)] ∧ (s.clu 0).restore = some r ∧ s.rollsBack 0 = true ∧ r.rewinds.isEmpty = true ∧ s.saved.isEmpty = true ∧ s.entryLog.isEmpty = true ∧
      ((s.clu 0).ckptAt 256).atoms = [] ∧ Tab.rising ((s.clu 0).ckptAt 256).ctxs = true ∧ ((s.clu 0).undo.filter fun u => decide (256 ≤ 256 * u.interval)).length = 1) := by
  refine ⟨?_, ?_, ?_⟩ <;> decide +kernel

theorem meets_AccountsAndStreams_accounts :
    (let a : AcctRec := { ci := 0, base := 0x10000, log2 := 12, pid := 0, part := 0, w0 := 1, w1 := 2, made := 0, entered := true };
      let free := acctFree a.log2 0 ((at0 []).core 0 |>.ridxOf 0 0 a.base);
      let s : State := { paged (at0 []) with acctq := [a], now := 704 };
      s.acctq.find? (fun a => a.ci == 0) = some a ∧ s.releasable 0 a.made [] = true ∧ s.acctPa 0 0 0 0x10000 .atomic = .ok 0x20000 ∧ s.recordHeld a = false ∧ free ≠ 0 ∧ (s.acctAsk 0 0 0 [0x10000]).isNone = true ∧ (s.acctAsk 0 0 0 [0x10040]).isNone = true ∧
      (s.portAsk ([0x20000, 0x20040].map lineOf) (engineRank 0 7)).isNone = true ∧ (({ s with parts := [] } : State).acctPa 0 0 0 0x10000 .atomic).isOk = false ∧ s.acctPa 0 0 0 0x10040 .write = .ok 0x20040 ∧ s.physRead 0x20000 8 = 0 ∧ s.traces.isEmpty = true) ∧
    (let s := paged (in0 { ctx0 [] with acctbase := 0x10000, acctctl := 0x20C01, ridxDue := true });
      s.ringsOf 0 = [(0, 0, 0x10000, 12, 2)] ∧ s.ridxAsked 0 = true ∧ (s.acctAsk 0 0 0 [0x10000]).isNone = true ∧ s.acctPa 0 0 0 0x10008 .read = .ok 0x20008 ∧ s.acctPa 0 0 0 0x10000 .read = .ok 0x20000) := by
  refine ⟨?_, ?_⟩ <;> decide +kernel

def withStream (t : Stream) (now : Nat) : State := { paged {} with queues := [(0, { owner := some 0, en := true })], streams := [(1, t)], now := now }
def win1 (f : Firing) : Win := { w := 0, firing := f, lists := [(0, [1])], late := [(0, [2])], joined := [], amend := none, revs := [] }

theorem meets_AccountsAndStreams_streams :
    (let v := 3 + 2 ^ 192 * 100 + 2 ^ 384 * 0xC + 2 ^ 448 * 0xC + 2 ^ 512 * 0xC + 2 ^ 576 * 1 + 2 ^ 640 * 0xC;
      let s : State := { withCmd (cmd0 0x10002 0x10000 false) with
        mem := Memory.writeN [] 0x20000 v 128
        parts := [(0, { live := true, rect0 := some ⟨0, 0, 1, 1⟩, grants := [(0x20000, 0x1000)], tmpl := [(3, some template1)] })] };
      s.queuePart 5 = 0 ∧ (cmd0 0x10002 0x10000 false).arg = 1 ∧ (cmd0 0x10002 0x10000 false).op = 2 ∧ (s.stream 0 1).bound.isNone = true ∧ s.queueRead 5 0x10000 16 = .ok v ∧
      s.bindBad 0 (blockWord v) (bindingOf 5 (s.queue 5).qpid (blockWord v)) = false ∧ s.bindBad 0 (blockWord 3) (bindingOf 5 0 (blockWord 3)) = true) ∧
    (let s := withStream { bound := some binding1, inq := [.record 1 [50, 0, 0, 0] none] } 7;
      binding1.dead = 0 ∧ (s.stream 0 1).inq = [.record 1 [50, 0, 0, 0] none] ∧ (s.stream 0 1).takenAt ≠ some s.now ∧ binding1.down = 0xFFFF ∧ binding1.origin ≤ 50 ∧ binding1.slide = binding1.size ∧
      50 / binding1.size < (s.stream 0 1).oldestOpen binding1 + 2 ^ binding1.wsLog ∧ (s.stream 0 1).wmark < binding1.origin + (50 / binding1.size + 1) * binding1.size) ∧
    (let s := withStream { bound := some binding1, inq := [.mark 1 120 none] } 7; (s.stream 0 1).inq = [.mark 1 120 none] ∧ (s.stream 0 1).takenAt ≠ some s.now) ∧
    (let s := withStream { bound := some binding1 } 1000; (Tab.get {} (s.stream 0 1).srcs 0).active = true ∧ (Tab.get {} (s.stream 0 1).srcs 0).beat + binding1.idle ≤ s.now) ∧
    (let s := withStream { bound := some binding1, wins := [win1 .due] } 7;
      (s.stream 0 1).wins.find? (fun y => y.firing == .due) = some (win1 .due) ∧ (s.stream 0 1).firedAt ≠ some s.now ∧ s.taken.isEmpty = true ∧ (s.stream 0 1).unbind.isNone = true ∧ s.pubWaits 0 1 binding1 = false) ∧
    (let s := withStream { bound := some binding1, wins := [win1 .complete] } 7;
      (s.stream 0 1).wins.find? (fun x => x.w == 0) = some (win1 .complete) ∧ (win1 .complete).amend = none ∧ (∃ k ∈ (win1 .complete).late, k.2 ≠ [])) ∧
    (let s := withStream { bound := some binding1, pubs := [{ w := 0, lane := 0, revision := 1, amend := false, value := 5, lid := 4 }] } 7;
      (s.stream 0 1).pubs.length = 1 ∧ s.ringFull 0 binding1 binding1.out.toNat binding1.outLog 32 = false) ∧
    (let w : WindowTask := { stream := 1, window := 0, lane := 0, revision := 1, amend := false, port := 0, todo := [1, 2], buf := [7], len := 2, shut := false, published := false };
      let s := in0 { ctx0 [] with win := some w };
      (s.ctx 0).win = some w ∧ w.shut = false ∧ w.buf.length ≤ w.depth) := by
  refine ⟨?_, ?_, ?_, ?_, ?_, ?_, ?_, ?_⟩ <;> decide +kernel

def trans1 (resp : Option Nat) : Trans := { n := 3, tag := 0x12340, req := 0, part := none, addr := 0x20008, resp := resp }

theorem meets_LinksCarryTransactions :
    (let s : State := { links := [(2, { queue := [trans1 none] })] }; (s.link 2).training = false ∧ (s.link 2).queue ≠ [] ∧ (s.link 2).replay.length < 128 ∧ (s.link 2).free ≤ s.now) ∧
    (let f : Flit := { seq := 0, ts := [trans1 none] };
      let s : State := { links := [(2, { wire := [f], replay := [f] }), (3, { wire := [f], replay := [f], resend := some 0 })] };
      (s.link 2).wire = [f] ∧ f.at_ ≤ s.now ∧ f.seq = (s.link 2).expect ∧ (s.link 2).resend = none ∧ (s.link 3).resend ≠ none ∧ (s.link 3).training = false ∧ (s.link 2).half = false ∧ ∃ f ∈ (s.link 2).replay, 0 ≤ f.seq ∧ f.seq ≤ 0) ∧
    (let s : State := { links := [(2, { acks := [(5, 0)], half := true, training := true })], respAcks := [7] }; (s.link 2).acks = [(5, s.now)] ∧ (s.link 2).half = true ∧ (s.link 2).training = true ∧ 7 ∈ s.respAcks) ∧
    (let s : State := { withReq .store .sent 704 with arrived := [trans1 none], outs := [{ tag := 0x12340, req := 0, done := false }] };
      s.arrived.find? (fun x => x.n == 3 && x.resp.isNone) = some (trans1 none) ∧ (∀ d ∈ s.dups, d.tag ≠ (trans1 none).tag) ∧ s.portTakes (lineOf (req0 .store .sent).pa) (trans1 none).at_ (linkRank ((trans1 none).tag / 2 ^ 12 % 8)) = true ∧ s.req 0 = some (req0 .store .sent) ∧ (req0 .store .sent).be = allBytes 8) ∧
    (let s : State := { withReq (.amo .add 4) .sent 704 with arrived := [trans1 (some 5)], outs := [{ tag := 0x12340, req := 0, done := false }] };
      s.arrived.find? (fun x => x.n == 3 && x.resp.isSome) = some (trans1 (some 5)) ∧ ∃ e ∈ s.outs, e.tag = (trans1 (some 5)).tag ∧ e.done = false) := by
  refine ⟨?_, ?_, ?_, ?_, ?_⟩ <;> decide +kernel

theorem meets_StartErrorsAndTheHost :
    (State.reset.boot.running = 1 ∧ State.reset.hostTakes 0 = true ∧ State.reset.boot.halted = false ∧ State.reset.boot.ready = false ∧ State.reset.boot.minVersion ≤ 3 ∧ State.reset.traces.isEmpty = true ∧ State.reset.walking 0 = false) ∧
    (let s : State := { boot := { stage := 4 } }; (s.harvestOk 0 && s.harvestOk 1) = true) ∧
    (let s : State := { boot := { stage := 4 } }; let t := (List.range 65).foldl State.fuseCore s; (t.harvestOk 0 && t.harvestOk 1) = false) ∧
    (let s : State := { boot := { stage := 6, featacc := 0x1F } }; s.boot.cfm = false ∧ s.boot.featacc &&& ~~~(0x1F#128) = 0 ∧ s.boot.featacc.getLsbD 0 = true) ∧
    (let s : State := { boot := { stage := 6, featacc := 0x20 } }; s.boot.featacc &&& ~~~(0x1F#128) ≠ 0) ∧
    (let s : State := { boot := { stage := 7, cfm := true, featacc := 0x1F } }; s.feature 2 = true) ∧
    ({ boot := { stage := 2 } } : State).boot.attIndex < 2 ^ 20 ∧ (∃ n, stageBound 1 = some n) ∧ ({ boot := { halted := true } } : State).boot.halted = true := by
  refine ⟨?_, ?_, ?_, ?_, ?_, ?_, ?_, ⟨_, rfl⟩, ?_⟩ <;> decide +kernel

/-! Single steps and shared operations; every result is from the spec's tables and worked examples, or by hand from them. -/

/-- The register that a form leaves in x4 when x5 and x6 hold the two words given. -/
def x4 (i : Instr) (a b : Word) (r : Word) : Bool := after i (at0 [(5, a), (6, b)]) fun t => t.me.rx 4 == r && t.me.pc == 0x1004
/-- Table 03-6 and R97: corners of division, products and shifts. -/
theorem test_division : x4 (.div (.x 4) (.x 5) (.x 6)) 7 0 0xFFFFFFFFFFFFFFFF ∧ x4 (.rem (.x 4) (.x 5) (.x 6)) 7 0 7 ∧
    x4 (.div (.x 4) (.x 5) (.x 6)) 0x8000000000000000 0xFFFFFFFFFFFFFFFF 0x8000000000000000 ∧ x4 (.rem (.x 4) (.x 5) (.x 6)) 0x8000000000000000 0xFFFFFFFFFFFFFFFF 0 ∧
    x4 (.div (.x 4) (.x 5) (.x 6)) 0xFFFFFFFFFFFFFFF9 2 0xFFFFFFFFFFFFFFFD ∧ x4 (.rem (.x 4) (.x 5) (.x 6)) 0xFFFFFFFFFFFFFFF9 2 0xFFFFFFFFFFFFFFFF ∧
    x4 (.divu (.x 4) (.x 5) (.x 6)) 7 0 0xFFFFFFFFFFFFFFFF ∧ x4 (.remu (.x 4) (.x 5) (.x 6)) 7 2 1 := by decide +kernel
theorem test_products_and_shifts : x4 (.mulh (.x 4) (.x 5) (.x 6)) 0xFFFFFFFFFFFFFFFF 2 0xFFFFFFFFFFFFFFFF ∧ x4 (.mulhu (.x 4) (.x 5) (.x 6)) 0xFFFFFFFFFFFFFFFF 2 1 ∧
    x4 (.sra (.x 4) (.x 5) (.x 6)) 0x8000000000000000 67 0xF000000000000000 ∧ x4 (.srl (.x 4) (.x 5) (.x 6)) 0x8000000000000000 67 0x1000000000000000 ∧
    x4 (.rol (.x 4) (.x 5) (.x 6)) 0x8000000000000001 1 3 ∧ x4 (.slt (.x 4) (.x 5) (.x 6)) 0xFFFFFFFFFFFFFFFF 0 1 ∧ x4 (.sltu (.x 4) (.x 5) (.x 6)) 0xFFFFFFFFFFFFFFFF 0 0 ∧
    x4 (.clz (.x 4) (.x 5)) 0 0 64 ∧ x4 (.ctz (.x 4) (.x 5)) 8 0 3 ∧ x4 (.popc (.x 4) (.x 5)) 0xF0F 0 8 ∧
    x4 (.bext (.x 4) (.x 5) (.x 6)) 0xABCD 0xF0F0 0xAC ∧ x4 (.bdep (.x 4) (.x 5) (.x 6)) 0xAC 0xF0F0 0xA0C0 := by decide +kernel
/-- R79: an entry taken from a channel goes with the instruction, a peeked one stays. -/
theorem test_channel_taken : let s := in0 { ctx0 [(7, 3)] with c := (Vector.replicate 32 0).set 3 0x11, aq := (Vector.replicate 8 []).set 1 [4, 9] }
    after (.add (.x 5) (.ch 3 false) (.x 7)) s (fun t => t.me.rx 5 == 7 && t.me.aq == (Vector.replicate 8 []).set 1 [9]) ∧
    after (.add (.x 5) (.ch 3 true) (.x 7)) s (fun t => t.me.rx 5 == 7 && t.me.aq == s.me.aq) := by decide +kernel
/-- R90, and the words of "Worked encodings": 0x0458_69C0 traps with the word in TVAL. -/
theorem test_illegal_word : (match step ((in0 { ctx0 [] with tvec := 0x8000 }).withFetchWord 32 0x045869C0) with
    | .next t => decide (t.me.pc = 0x8000 ∧ t.me.cause.toNat % 2 ^ 16 = 1 ∧ t.me.tval = 0x045869C0 ∧ t.me.epc = 0x1000 ∧ t.me.mode = true)
    | _ => false) = true := by decide +kernel
/-- A fetched word runs: ADDI x6, x5, 1 after reset. -/
theorem test_step_after_reset : (match step (State.reset.withFetchWord 32 0x0860A001) with
    | .next t => decide ((t.ctx 0).rx 6 = 1)
    | _ => false) = true := by decide +kernel

/-- The example of R16 to R18: PRIVBASE 0x4_0000, PRIVSIZE 0x2000; the next 8 KiB belong to a second context. -/
theorem test_windows : let s : State := { ctxs := [(0, { ctx0 [] with privBase := 0x40000, privSize := 0x2000 }), (1, { ctx0 [] with privBase := 0x42000, privSize := 0x2000 })] }
    s.window 0 0xF1000000000140 8 8 = .ok (.bank 0 0x40140) ∧ s.window 0 0xF1000000002000 8 8 = .error .windowFault ∧ s.window 0 0xF0000000042100 4 4 = .error .privViolation ∧
    s.window 0 0xF0000000040100 4 4 = .ok (.bank 0 0x40100) ∧ s.window 0 0x1F1000000000000 8 8 = .error .windowFault := by decide
/-- What a scalar access leaves after the scalar slot has served it (R116). -/
def granted (i : Instr) (s : State) (p : State → Bool) : Bool :=
  after i s fun t => match exec (.scalarSlotGrant 0) { t with now := 7 } with
    | .next u => p u
    | _ => false
/-- R113: loads extend by their form, the low byte first; a store writes its bytes alone. -/
theorem test_loads_extend : let s := withWords (at0 [(5, 0xF0000000000100)]) 0x100 [0x8000000080FF01]
    granted (.ld (.x 4) 5 0 1) s (fun t => t.me.rx 4 == 0xFFFFFFFFFFFFFFFF) ∧ granted (.ldu (.x 4) 5 0 1) s (fun t => t.me.rx 4 == 0xFF) ∧ granted (.ld (.x 4) 5 1 1) s (fun t => t.me.rx 4 == 0x80) := by decide +kernel
theorem test_store_bytes : let s := withWords (at0 [(5, 0xF0000000000108), (6, 0xAABB)]) 0x100 [0x1111111111111111]
    granted (.st (.x 6) 5 1 0x1FE) s (fun t => t.spadRead 0 0x100 8 == 0x1111AABB11111111) := by decide +kernel
/-- an AMO returns the old value, here sign-extended from 32 bits, and leaves the neighbour word alone. -/
theorem test_amo : let s := withWords (at0 [(5, 0xF0000000000100), (6, 1)]) 0x100 [0x1FFFFFFFF]
    granted (.amoAdd 4 5 6 false) s (fun t => t.me.rx 4 == 0xFFFFFFFFFFFFFFFF && t.spadRead 0 0x100 8 == 0x100000000) := by decide +kernel

/-- R224's example: 4, 7 and −2 under add give 9; the other operations by hand. -/
theorem test_rollcall : rollWord 1 [4, 7, 0xFFFFFFFFFFFFFFFE] = 9 ∧ rollWord 2 [4, 7, 0xFFFFFFFFFFFFFFFE] = 0xFFFFFFFFFFFFFFFE ∧ rollWord 4 [4, 7, 0xFFFFFFFFFFFFFFFE] = 4 ∧
    rollWord 8 [4, 7] = 3 ∧ rollWord 6 [4, 6] = 4 ∧ rollWord 7 [4, 3] = 7 := by decide
/-- R256 and R261's example: two whole dies, key 0x1234, PID 7. -/
theorem test_directory : let s : State := { parts := [(0, { live := true, rect0 := some { x0 := 0, y0 := 0, x1 := 23, y1 := 23 }, rect1 := some { x0 := 0, y0 := 0, x1 := 23, y1 := 23 } })] }
    let c : Call := { sid := 0, tok := 1, part := 0, pid := 7, key := 0x1234, q := 0, op := 0, word := 0, zero := false }
    keyFold 0x1234 7 = 4659 ∧ (s.dirClusters 0).length = 1152 ∧ s.dirOf c = clusterAt 0 3 2 ∧ s.firstProbe c = 4 := by decide +kernel
theorem test_travel : noticeTime (clusterAt 0 1 2) (clusterAt 0 3 2) = 16 ∧ noticeTime (clusterAt 1 20 18) (clusterAt 0 3 2) = 125 ∧ noticeTime (clusterAt 0 0 0) (clusterAt 0 4 0) = 14 := by decide
/-- Chapter 12's example of lane groups: CLSHARE 0x84_4413; core 1 first, then core 0 three times. -/
theorem test_lane_grants : let e (sid : Nat) : SeqEntry := { seqE (.vadd (.v 1) (.v 2) (.v 3) 14 0) 0 false with sid := sid }
    let s : State := { ctxs := [(0, ctx0 []), (2, ctx0 [])], clus := [(0, { clshare := 0x844413, lptr := 0, ldef := 0 })], cores := [(0, { seq := [e 0, e 0, e 0] }), (1, { seq := [e 2, e 2] })] }
    let go (s : State) : State := match exec (.laneGroupGrant 0) { s with now := s.now + 8 } with
      | .next t => t
      | _ => s
    let p (s : State) : Nat × Nat := ((s.clu 0).lptr, (s.clu 0).ldef)
    p (go s) = (1, 0) ∧ p (go (go s)) = (0, 2) ∧ p (go (go (go s))) = (0, 1) ∧ p (go (go (go (go s)))) = (0, 0) ∧ p (go (go (go (go (go s))))) = (1, 0) := by decide +kernel

/-- R60's example: a BF16 chunk with 2^24 + 1 − 2^24 added to 1.0 gives 2.0. -/
theorem test_bf16_chunk : mmaFloat fmtBf16 fmtBf16 false false 0x3F800000 [(0x4580, 0x4580), (0x3F80, 0x3F80), (0xC580, 0x4580), (0, 0), (0, 0)] = 0x40000000 := by decide +kernel
/-- Table 03-1's notes: E4M3 0x7E is 448 and 0xFE −448; E2M1's largest is 6. -/
theorem test_small_formats : (fmtE4M3.value 0x7E).eq (.ofInt 448) ∧ (fmtE4M3.value 0xFE).eq (.ofInt (-448)) ∧ (fmtE2M1.value 7).eq (.ofInt 6) ∧ (fmtE2M1.value 1).eq (.fin false 1 (-1)) := by decide +kernel
/-- R53, R54: 2^24 + 1 in binary32 under each rounding, and overflow. -/
theorem test_binary32_rounding : fmt32.fadd .rne false 0x4B800000 0x3F800000 = (0x4B800000, flNX) ∧ fmt32.fadd .rup false 0x4B800000 0x3F800000 = (0x4B800001, flNX) ∧
    (fmt32.fmul .rne false 0x7F000000 0x7F000000) = (0x7F800000, flOF ||| flNX) ∧ (fmt32.fmul .rtz false 0x7F000000 0x7F000000) = (0x7F7FFFFF, flOF ||| flNX) := by decide +kernel
/-- R175's example of a shape record. -/
theorem test_shape_record : let r : BitVec 128 := 0x00000080100040E7; shM r = 8 ∧ shN r = 8 ∧ shK r = 8 ∧ shEstride r = 2 ∧ shRstride r = 16 ∧ shOffset r = 0 ∧ shOffset (r + 0x10000000000000000) = 1 := by decide +kernel

/-- The clipped copy of chapter 10: rows 0 and 1 move 2 elements each, and the entry reports PROG 2 of 4 rows clipped. -/
def clipWords : List Nat := [0x4000000060, 0xF0000000001000, 0x15000100040004, 0x14, 8, 0x6000A00040008, 0x500000000000000, 0x2A]
theorem test_clipped_copy : let b := copyBlk (clipWords.foldr (fun w n => w + 2 ^ 64 * n) 0)
    (b.row 0).length = 2 ∧ (b.row 1).length = 2 ∧ b.row 2 = [] ∧ b.row 3 = [] ∧ b.e = 2 ∧ b.tag = 5 ∧ b.tv = true ∧ b.xid = 0x2A ∧ b.clipped = 0x2000000020000 := by decide +kernel
theorem test_clipped_entry : let x : Xfer := { xfer0 .copy false 4 with xid := 0x2A }
    let s := withXfer x clipWords 704
    (match exec (.engineCompletionEntry 0 0x2A) s with
    | .next t => decide ((t.core 0).inbox.map (fun e => (e.w0, e.w1)) = [(0x0000002A00000001, 0x0002000000020000)])
    | _ => false) = true := by decide +kernel
/-- R193, R201, R198: TEXP 8 and two credits of 4 fill the tag in every order. -/
theorem test_tag_orders : let s : State := { clus := [(0, { tags := [(5, 0x08000000)] })] }
    tagFull (((s.creditTag 0 5 4).creditTag 0 5 4).tag 0 5) = false ∧ tagBal (((s.creditTag 0 5 4).creditTag 0 5 4).tag 0 5) = 8 ∧
    tagFull ((((s.creditTag 0 5 4).creditTag 0 5 4).expectTag 0 5 8).tag 0 5) = true ∧ tagFull ((((s.expectTag 0 5 8).creditTag 0 5 4).creditTag 0 5 4).tag 0 5) = true ∧
    tagBal (((s.creditTag 0 5 4).expectTag 0 5 8).tag 0 5) = -4 ∧ tagFull ((((s.creditTag 0 5 4).expectTag 0 5 8).creditTag 0 5 4).tag 0 5) = true := by decide +kernel

/-- R234, R339: SCALL saves the PC of the next instruction, the status, and enters supervisor mode at TVEC. -/
theorem test_scall : let s := in0 { ctx0 [] with tvec := 0x8000 }
    after (.scall 5) s (fun t => t.me.pc == 0x8000 && t.me.mode && t.me.epc == 0x1004 && t.me.tval == 5) := by decide +kernel
/-- R233: CSRS reads the old value and sets bits. -/
theorem test_csr_set : after (.csrs 5 6 1) (in0 { ctx0 [(6, 3)] with fflags := 4 }) (fun t => t.me.rx 5 == 4 && t.me.fflags == 7) := by decide +kernel

/-- Table 08-3 by hand: 8-bit saturation, wrapping, full-width shifts; R152: the rounding of the smallest binary32 sums. -/
theorem test_lane_integers : VBin.int (.add true) true 8 0x7F 1 = 0x7F ∧ VBin.int (.add false) true 8 0x7F 1 = 0x80 ∧ VBin.int (.sub true) false 8 1 2 = 0 ∧
    VBin.int .mulh true 16 0xFFFF 2 = 0xFFFF ∧ VBin.int .mulh false 16 0xFFFF 2 = 1 ∧ VBin.int (.shl false) true 8 1 8 = 0 ∧ VBin.int .shra true 8 0x80 9 = 0xFF ∧
    VBin.int .shr true 8 0x80 8 = 0 ∧ VBin.int (.shl true) true 8 3 6 = 0x7F ∧ VBin.int .min true 8 0xFF 1 = 0xFF ∧ VBin.int .min false 8 0xFF 1 = 1 := by decide
/-- What a vector form leaves after it has entered the sequencer and a lane group has taken it (R139, R245). -/
def lanes (i : Instr) (s : State) (p : State → Bool) : Bool :=
  after i s fun t => match exec (.laneGroupGrant 0) { t with now := 1 } with
    | .next u => p u
    | _ => false
/-- VADD.s16 under a mask: lanes without their mask bit keep the destination's old value (R137). -/
theorem test_vadd_masked : let s := in0 { ctx0 [] with v := ((Vector.replicate 16 0).set 2 0x00010002).set 3 0x0005FFFF, k := (Vector.replicate 8 0).set 1 1 }
    lanes (.vadd (.v 1) (.v 2) (.v 3) 6 0) s (fun t => t.me.v[1] == 0x00060001) ∧ lanes (.vadd (.v 2) (.v 2) (.v 3) 6 1) s (fun t => t.me.v[2] == 0x00010001) := by decide +kernel
/-- R50, by hand: codes 3 and 5, zero points 1 and 2, scales 1.0: (3 − 1)(5 − 2) = 6. -/
theorem test_group_product : mmaInt (.fin false 1 0) (.fin false 1 0) 1 2 false 0 [(3, 5)] = 0x40C00000 := by decide +kernel
/-- R65 and the example of chapter 4: at equal ages the round-robin pointer decides. -/
theorem test_oldest : let s : State := { ctxs := [(0, ctx0 []), (1, ctx0 [])] }; s.oldestOf [0, 1] = some 0 ∧ (s.modCtx 0 fun c => { c with lastIssue := 1 }).oldestOf [0, 1] = some 1 := by decide +kernel
/-- R339, R342: TRET goes back to EPC in the mode that STATUS saved. -/
theorem test_tret : after .tret (in0 { ctx0 [] with mode := true, epc := 0x2004 }) (fun t => t.me.pc == 0x2004) := by decide +kernel
/-- R234: BRK traps with BREAKPOINT where halting is not enabled. -/
theorem test_brk : after (.brk 7) (in0 { ctx0 [] with tvec := 0x8000 }) (fun t => t.me.pc == 0x8000 && t.me.epc == 0x1000 && t.me.tval == 7) := by decide +kernel

/-- The worked words of chapters 7, 9, 10 and 11. -/
theorem test_worked_words : [0x38317000, 0x3C3A39FF, 0x3F20E002, 0x5020A180, 0x50200001, 0x50300002, 0x5000E203, 0x5090E004, 0x50A0E2C5, 0x54018000, 0x5401A001, 0x5401C002, 0x5401E003, 0x5501C004].map (fun w => decode (BitVec.ofNat 32 w)) =
    [some (.ld (.x 6) 5 3 0), some (.stl (.x 7) 8 3 0x1FF), some (.st (.ch 4 true) 3 2 2), some (.rdef 2 5 6), some (.rpop 2), some (.rpush 3), some (.texp 7 8), some (.ttag 9 7 0), some (.twait 10 7 11),
     some (.xcopy 12), some (.xsub 13), some (.xunsub 14), some (.xdrain 15), some (.xstat 16 14)] := by decide +kernel
theorem test_worked_words_system : [0x5C018003, 0x5C318004, 0x5C0142C5, 0x5C0142C6, 0x5C018007, 0x5C50C008, 0x6400C002, 0x6850C021, 0x6C00C001, 0x70200000, 0x70300010, 0x70400000, 0x4C20A002].map (fun w => decode (BitVec.ofNat 32 w)) =
    [some (.sbind 12), some (.chbind 3 12), some (.emit 10 11), some (.wmk 10 11), some (.publ 12), some (.acct 5 6), some (.csrw 0 6 2), some (.csrs 5 6 0x21), some (.csrc 0 6 1), some .uiret, some (.sleep 16),
     some (.brk 0), some (.mshape 2 5)] := by decide +kernel
/-- The neighbours that chapter 5 calls illegal, and the second form of MMA that R90 item 8 refuses. -/
theorem test_illegal_neighbours : [0x045869C0, 0x045861DC, 0x82A1E862, 0x4A230580, 0, 0xFFFFFFFF].map (fun w => (decode (BitVec.ofNat 32 w)).isNone) = [true, true, true, true, true, true] := by decide +kernel

theorem meets_ComputingFormsChangeOnlyTheirRegister :
    (∃ t, exec (.add (.x 4) (.x 5) (.x 6)) (at0 [(5, 7), (6, 9)]) = .next t ∧ (t.me.rx 4 == 16) = true) ∧ (∃ t, exec (.clz (.x 4) (.x 5)) (at0 [(5, 7)]) = .next t ∧ (t.me.rx 4 == 61) = true) ∧
    (∃ t, exec (.addi (.x 4) (.x 5) 1) (at0 [(5, 7)]) = .next t ∧ (t.me.rx 4 == 8) = true) ∧ (∃ t, exec (.jal 1 1) (at0 []) = .next t ∧ (t.me.rx 1 == 0x1004) = true) :=
  ⟨next_of_after (by decide +kernel), next_of_after (by decide +kernel), next_of_after (by decide +kernel), next_of_after (by decide +kernel)⟩
theorem meets_EncodeOfDecodeIsTheWord : decode 0x0860A001 = some (.addi (.x 6) (.x 5) 1) := by decide

end Sys2Proof.Tests
end

section
/-!
PROOFS. The zero registers (R6) and the private window (R17).
-/

namespace Sys2Proof.Machine

/-! Registers (R6). -/

@[simp] theorem Ctx.mask_zero (c : Ctx) : c.mask 0 = none := rfl

/-- Settles O4, from what a read returns after a write. -/
theorem zeroRegisters : Obligations.ZeroRegisters :=
  ⟨Ctx.rx_zero, Ctx.wx_rx, Ctx.wx_zero, fun c r n m => Ctx.wk_rk c n m r, Ctx.mask_zero⟩

/-! The window of a pointer (R16). -/

/-- A pointer whose bits [63:48] are one byte `w` selects window `w`. -/
theorem bitsOf_window (a : Word) {w : Nat} (h : a.toNat / 2 ^ 48 = w) (hw : w < 256) : bitsOf a.toNat 55 48 = w := by
  simp only [bitsOf, Nat.shiftRight_eq_div_pow, h]
  exact Nat.mod_eq_of_lt hw

/-- A pointer whose bits [63:48] are one byte has zeros in bits [63:56]. -/
theorem bitsOf_aboveWindow (a : Word) {w : Nat} (h : a.toNat / 2 ^ 48 = w) (hw : w < 256) : bitsOf a.toNat 63 56 = 0 := by
  have hdiv : a.toNat >>> 56 = 0 := by rw [Nat.shiftRight_eq_div_pow]; omega
  simp [bitsOf, hdiv]

/-- Misalignment faults before any window check. -/
theorem State.window_misaligned (s : State) (sid : Nat) (a : Word) (n k : Nat) (h : a.toNat % k ≠ 0) :
    s.window sid a n k = .error .misaligned := by
  simp only [State.window, if_pos h]

/-! The private window (R17). -/

/-- An aligned pointer into 0xF1, of any context. -/
theorem State.window_private (s : State) (sid : Nat) (a : Word) (n k : Nat) (hal : a.toNat % k = 0) (hw : a.toNat / 2 ^ 48 = 0xF1) :
    s.window sid a n k = if isVisitor sid = true ∨ (s.ctx sid).privSize.toNat < a.toNat % 2 ^ 48 + n then .error .windowFault
      else .ok (.bank (slotCluster sid) ((s.ctx sid).privBase.toNat + a.toNat % 2 ^ 48)) := by
  have htop := bitsOf_window a hw (by decide)
  have hzero := bitsOf_aboveWindow a hw (by decide)
  simp [State.window, hal, htop, hzero]

/-- An access through 0xF1 that is admitted is a resident's, and lies in its own allocation. -/
theorem State.window_private_inv {s : State} {sid : Nat} {a : Word} {n k cl x : Nat} (hw : a.toNat / 2 ^ 48 = 0xF1)
    (h : s.window sid a n k = .ok (.bank cl x)) :
    isVisitor sid = false ∧ cl = slotCluster sid ∧ x = (s.ctx sid).privBase.toNat + a.toNat % 2 ^ 48 ∧
      a.toNat % 2 ^ 48 + n ≤ (s.ctx sid).privSize.toNat := by
  by_cases hal : a.toNat % k = 0
  · rw [s.window_private sid a n k hal hw] at h
    split at h
    · cases h
    · next hin =>
      obtain ⟨hres, hfit⟩ := not_or.mp hin
      cases h
      exact ⟨Bool.eq_false_of_not_eq_true hres, rfl, rfl, Nat.le_of_not_lt hfit⟩
  · rw [s.window_misaligned sid a n k hal] at h
    cases h

/-- Settles O15: each access lies in its own context's allocation, so allocations that are disjoint keep the accesses apart. -/
theorem privateWindowReachesOwnAllocation : Obligations.PrivateWindowReachesOwnAllocation := by
  unfold Obligations.PrivateWindowReachesOwnAllocation
  refine ⟨fun s sid a n k _ hal hw => s.window_private sid a n k hal hw, ?_⟩
  intro s p q a n k x y _ _ hw hdisjoint hp hq
  obtain ⟨-, -, hx, hpin⟩ := State.window_private_inv hw hp
  obtain ⟨-, -, hy, hqin⟩ := State.window_private_inv hw hq
  obtain hpq | hqp | hcl := hdisjoint
  · right; left; omega
  · right; right; omega
  · exact .inl hcl

end Sys2Proof.Machine
end

section
/-!
PROOFS. The permanently illegal majors (R89).
-/

namespace Sys2Proof

/-- Table 05-7 ends at major 0x3B: no vector form has a later major. -/
theorem decVector_eq_none_of_le {n : Nat} (h : 56 ≤ n) (w : IWord) : decVector n w = none := by
  obtain ⟨k, rfl⟩ := Nat.exists_eq_add_of_le' h
  rfl

/-- A word in major 0x00 is no instruction. -/
theorem decodeRaw_eq_none_of_major_zero (w : IWord) (h : fld w 26 6 = 0) : decodeRaw w = none := by
  simp only [decodeRaw, h]
  rfl

/-- A word in major 0x3F is no instruction: past the scalar majors, and past the vector ones for either sub bit. -/
theorem decodeRaw_eq_none_of_major_allOnes (w : IWord) (h : fld w 26 6 = 0x3F) : decodeRaw w = none := by
  have hvec : decodeRaw w = decVector (62 + (fld w 0 1).toNat) w := by
    simp only [decodeRaw, h]
    rfl
  rw [hvec]
  exact decVector_eq_none_of_le (by omega) w

/-- No word in a permanently illegal major decodes. -/
theorem decode_eq_none_of_illegal_major (w : IWord) (h : fld w 26 6 = 0 ∨ fld w 26 6 = 0x3F) : decode w = none := by
  have hraw : decodeRaw w = none := h.elim (decodeRaw_eq_none_of_major_zero w) (decodeRaw_eq_none_of_major_allOnes w)
  rw [decode, hraw, Option.bind_none]

end Sys2Proof

namespace Sys2Proof.Machine

/-- A fetched word that does not decode traps, with the word in TVAL and the PC at which it stands as the saved one (R91). -/
theorem State.fetchStep_of_decode_none {s : State} {sid : Nat} {w : IWord} (hfetch : s.fetch sid = some w) (hdec : decode w = none) :
    s.fetchStep sid = .next ((s.touch sid).trap .illegalInstruction (w.zeroExtend 64) (s.touch sid).me.pc) := by
  simp only [State.fetchStep, hfetch, hdec]
  rfl

/-- Settles O27: the word does not decode, and what does not decode traps. -/
theorem permanentlyIllegalMajors : Obligations.PermanentlyIllegalMajors := by
  unfold Obligations.PermanentlyIllegalMajors
  refine ⟨decode_eq_none_of_illegal_major, fun s sid w hmajor hfetch => ?_, by decide⟩
  exact State.fetchStep_of_decode_none hfetch (decode_eq_none_of_illegal_major w hmajor)

end Sys2Proof.Machine
end

section
/-!
PROOFS. What a trap leaves of a core, and the matrix forms in a visitor slot (R188).
-/

namespace Sys2Proof.Machine

/-! What a trap's parts leave of a core: a run record, PART's effect (R221) and the stop of a replay (R168). -/

@[simp] theorem State.send_core (s : State) (n : Nat) (b : MsgBody) (ci : Nat) : (s.send n b).core ci = s.core ci := rfl
@[simp] theorem State.moveReqs_core (s : State) (sid to_ ci : Nat) : (s.moveReqs sid to_).core ci = s.core ci := rfl
@[simp] theorem State.setHorizon_core (s : State) (id n ci : Nat) : (s.setHorizon id n).core ci = s.core ci := rfl
@[simp] theorem State.addRecord_core (s : State) (a : AcctRec) (ci : Nat) : (s.addRecord a).core ci = s.core ci := rfl

@[simp] theorem State.closeRun_core (s : State) (sid ci : Nat) : (s.closeRun sid).core ci = s.core ci := by
  unfold State.closeRun State.closeRunAt
  dsimp only
  split
  · rfl
  · split <;> simp

@[simp] theorem State.runCycle_core (s : State) (sid : Nat) (k : Cause) (pc : BitVec 56) (ci : Nat) :
    (s.runCycle sid k pc).core ci = s.core ci := by
  unfold State.runCycle
  dsimp only
  split
  · rfl
  · split
    · rw [apply_ite (State.core · ci)]
      simp
    · rfl

@[simp] theorem State.lastCycle_core (s : State) (sid ci : Nat) : (s.lastCycle sid).core ci = s.core ci := by
  simp [State.lastCycle]

@[simp] theorem State.partTakes_core (s : State) (sid : Nat) (m : Meeting) (ci : Nat) : (s.partTakes sid m).core ci = s.core ci := by
  unfold State.partTakes
  dsimp only
  split <;> rfl

@[simp] theorem State.partInPlace_core (s : State) (sid : Nat) (m : Meeting) (npc : BitVec 56) (tr : Option TrapInfo) (dep ci : Nat) :
    (s.partInPlace sid m npc tr dep).core ci = s.core ci := by
  unfold State.partInPlace
  dsimp only
  split <;> rfl

@[simp] theorem State.partVisitor_core (s : State) (sid : Nat) (m : Meeting) (npc : BitVec 56) (tr : Option TrapInfo) (dep ci : Nat) :
    (s.partVisitor sid m npc tr dep).core ci = s.core ci := by
  unfold State.partVisitor
  dsimp only
  split <;> simp

@[simp] theorem State.partEffect_core (s : State) (sid : Nat) (npc : BitVec 56) (tr : Option TrapInfo) (dep ci : Nat) :
    (s.partEffect sid npc tr dep).core ci = s.core ci := by
  unfold State.partEffect
  cases (s.ctx sid).meet with
  | none => rfl
  | some m => dsimp only; split <;> split <;> simp

/-- A replay that stops takes its frame out of its core's sequencer, and changes nothing else of a core. -/
theorem State.stopFrame_core (s : State) (sid ci : Nat) : ∃ q, (s.stopFrame sid).core ci = { s.core ci with seq := q } := by
  rw [State.stopFrame, State.modCore_core]
  split
  · next h => exact ⟨_, by rw [h]⟩
  · exact ⟨_, rfl⟩

/-- A trap changes nothing of any core but the sequencer, which a frame that replays leaves: whether the trap waits (R168, R172), sends the
context home from a meeting (R222), or enters the handler (R324). -/
theorem State.trapAs_core (s : State) (sid : Nat) (own async : Bool) (t : Trap) (v : Word) (epc : BitVec 56) (ci : Nat) :
    ∃ q, (s.trapAs sid own async t v epc).core ci = { s.core ci with seq := q } := by
  unfold State.trapAs
  split
  · exact ⟨_, rfl⟩
  · split
    · refine ⟨(s.core ci).seq, ?_⟩
      dsimp only
      split <;> simp
    · exact s.stopFrame_core sid ci

/-! The matrix forms as one family (R91, R188). -/

/-- What comes first in a matrix form is its mode and slot. -/
theorem State.matrixForm_of_matrixTrap {s : State} {i : Instr} {t : Trap} (h : s.matrixTrap i = some t) (rs : List (BitVec 5))
    (more : List (Option Cause)) (r : Res) : s.matrixForm i rs more r = .trap t (wordOf i) := by
  simp only [State.matrixForm, h]

/-- Every matrix form, a port instruction or not, goes through the family's checks. -/
theorem exec_eq_matrixForm {i : Instr} (h : isMatrix i = true) (s : State) :
    ∃ rs more r, exec i s = finish s (s.matrixForm i rs more r) ∨ exec i s = finishPort s (s.matrixForm i rs more r) := by
  cases i
  case mma => exact ⟨_, _, _, .inr rfl⟩
  case mzero => exact ⟨_, _, _, .inr rfl⟩
  case mwait => exact ⟨_, _, _, .inl rfl⟩
  case mtest => exact ⟨_, _, _, .inr rfl⟩
  case mlda => exact ⟨_, _, _, .inr rfl⟩
  case msta => exact ⟨_, _, _, .inr rfl⟩
  case mshape => exact ⟨_, _, _, .inl rfl⟩
  case mfmt => exact ⟨_, _, _, .inl rfl⟩
  case msave => exact ⟨_, _, _, .inr rfl⟩
  case mrstr => exact ⟨_, _, _, .inr rfl⟩
  all_goals cases h

/-- A matrix form whose mode or slot is wrong traps. -/
theorem exec_of_matrixTrap {i : Instr} {s : State} {t : Trap} (hi : isMatrix i = true) (h : s.matrixTrap i = some t) :
    exec i s = .next (s.trap t (wordOf i) s.me.pc) := by
  obtain ⟨rs, more, r, he | he⟩ := exec_eq_matrixForm hi s
  · rw [he, State.matrixForm_of_matrixTrap h, finish_trap]
  · rw [he, State.matrixForm_of_matrixTrap h, finishPort_trap]

/-- The slot is looked at before the mode. -/
theorem State.matrixTrap_of_isVisitor {s : State} (h : isVisitor s.cur = true) (i : Instr) : s.matrixTrap i = some .matrixInVisitor := by
  simp only [State.matrixTrap, h, if_true]

/-- Settles O18: the slot is the family's first check, and a trap leaves a core all but its sequencer. -/
theorem matrixFormsTrapInVisitors : Obligations.MatrixFormsTrapInVisitors := by
  unfold Obligations.MatrixFormsTrapInVisitors
  intro i s hi hv
  have htrap := exec_of_matrixTrap hi (State.matrixTrap_of_isVisitor hv i)
  refine ⟨htrap, fun t ci ht => ?_⟩
  obtain rfl : s.trap .matrixInVisitor (wordOf i) s.me.pc = t := Host.Outcome.next.inj (htrap.symm.trans ht)
  obtain ⟨q, hcore⟩ : ∃ q, (s.trap .matrixInVisitor (wordOf i) s.me.pc).core ci = { s.core ci with seq := q } := s.trapAs_core ..
  simp only [hcore, and_self]

end Sys2Proof.Machine
end


section
/-!
PROOFS. The decoder and the encoder are inverse to each other (R75 to R90).
-/

namespace Sys2Proof.Machine

open Laws

/-- The decoder reads back the word of every well-formed instruction; a step of another agent has no word (R75 to R90). -/
theorem roundTrip (i : Instr) : RoundTrip.Statement i := by
  cases i
  case add => exact RoundTrip.add _ _ _
  case sub => exact RoundTrip.sub _ _ _
  case and => exact RoundTrip.and _ _ _
  case or => exact RoundTrip.or _ _ _
  case xor => exact RoundTrip.xor _ _ _
  case andn => exact RoundTrip.andn _ _ _
  case sll => exact RoundTrip.sll _ _ _
  case srl => exact RoundTrip.srl _ _ _
  case sra => exact RoundTrip.sra _ _ _
  case rol => exact RoundTrip.rol _ _ _
  case slt => exact RoundTrip.slt _ _ _
  case sltu => exact RoundTrip.sltu _ _ _
  case min => exact RoundTrip.min _ _ _
  case max => exact RoundTrip.max _ _ _
  case minu => exact RoundTrip.minu _ _ _
  case maxu => exact RoundTrip.maxu _ _ _
  case mul => exact RoundTrip.mul _ _ _
  case mulh => exact RoundTrip.mulh _ _ _
  case mulhu => exact RoundTrip.mulhu _ _ _
  case div => exact RoundTrip.div _ _ _
  case divu => exact RoundTrip.divu _ _ _
  case rem => exact RoundTrip.rem _ _ _
  case remu => exact RoundTrip.remu _ _ _
  case clz => exact RoundTrip.clz _ _
  case ctz => exact RoundTrip.ctz _ _
  case popc => exact RoundTrip.popc _ _
  case bext => exact RoundTrip.bext _ _ _
  case bdep => exact RoundTrip.bdep _ _ _
  case addi => exact RoundTrip.addi _ _ _
  case andi => exact RoundTrip.andi _ _ _
  case ori => exact RoundTrip.ori _ _ _
  case xori => exact RoundTrip.xori _ _ _
  case slli => exact RoundTrip.slli _ _ _
  case srli => exact RoundTrip.srli _ _ _
  case srai => exact RoundTrip.srai _ _ _
  case slti => exact RoundTrip.slti _ _ _
  case sltiu => exact RoundTrip.sltiu _ _ _
  case lui => exact RoundTrip.lui _ _
  case auipc => exact RoundTrip.auipc _ _
  case beq => exact RoundTrip.beq _ _ _
  case bne => exact RoundTrip.bne _ _ _
  case blt => exact RoundTrip.blt _ _ _
  case bge => exact RoundTrip.bge _ _ _
  case bltu => exact RoundTrip.bltu _ _ _
  case bgeu => exact RoundTrip.bgeu _ _ _
  case jal => exact RoundTrip.jal _ _
  case jalr => exact RoundTrip.jalr _ _ _
  case ld => exact RoundTrip.ld _ _ _ _
  case ldu => exact RoundTrip.ldu _ _ _ _
  case lda => exact RoundTrip.lda _ _ _ _
  case st => exact RoundTrip.st _ _ _ _
  case stl => exact RoundTrip.stl _ _ _ _
  case amoAdd => exact RoundTrip.amoAdd _ _ _ _
  case amoAnd => exact RoundTrip.amoAnd _ _ _ _
  case amoOr => exact RoundTrip.amoOr _ _ _ _
  case amoXor => exact RoundTrip.amoXor _ _ _ _
  case amoMin => exact RoundTrip.amoMin _ _ _ _
  case amoMax => exact RoundTrip.amoMax _ _ _ _
  case amoMinu => exact RoundTrip.amoMinu _ _ _ _
  case amoMaxu => exact RoundTrip.amoMaxu _ _ _ _
  case amoSwap => exact RoundTrip.amoSwap _ _ _ _
  case cas => exact RoundTrip.cas _ _ _ _
  case fence => exact RoundTrip.fence _ _
  case wait => exact RoundTrip.wait _ _ _ _
  case notify => exact RoundTrip.notify _ _ _
  case mma => exact RoundTrip.mma _ _ _ _ _ _
  case mzero => exact RoundTrip.mzero _
  case mwait => exact RoundTrip.mwait _
  case mtest => exact RoundTrip.mtest
  case mlda => exact RoundTrip.mlda _ _ _ _
  case msta => exact RoundTrip.msta _ _ _ _
  case mshape => exact RoundTrip.mshape _ _
  case mfmt => exact RoundTrip.mfmt _
  case msave => exact RoundTrip.msave _
  case mrstr => exact RoundTrip.mrstr _
  case rdef => exact RoundTrip.rdef _ _ _
  case rpop => exact RoundTrip.rpop _
  case rpush => exact RoundTrip.rpush _
  case texp => exact RoundTrip.texp _ _
  case ttag => exact RoundTrip.ttag _ _ _
  case twait => exact RoundTrip.twait _ _ _
  case xcopy => exact RoundTrip.xcopy _
  case xsub => exact RoundTrip.xsub _
  case xunsub => exact RoundTrip.xunsub _
  case xdrain => exact RoundTrip.xdrain _
  case xstat => exact RoundTrip.xstat _ _
  case meet => exact RoundTrip.meet _ _ _
  case part => exact RoundTrip.part
  case peer => exact RoundTrip.peer _ _ _
  case peerv => exact RoundTrip.peerv _ _
  case rollNone => exact RoundTrip.rollNone _ _ _
  case rollAdd => exact RoundTrip.rollAdd _ _ _
  case rollMin => exact RoundTrip.rollMin _ _ _
  case rollMax => exact RoundTrip.rollMax _ _ _
  case rollUmin => exact RoundTrip.rollUmin _ _ _
  case rollUmax => exact RoundTrip.rollUmax _ _ _
  case rollAnd => exact RoundTrip.rollAnd _ _ _
  case rollOr => exact RoundTrip.rollOr _ _ _
  case rollXor => exact RoundTrip.rollXor _ _ _
  case launch => exact RoundTrip.launch _ _ _
  case tend => exact RoundTrip.tend
  case yield => exact RoundTrip.yield _
  case sbind => exact RoundTrip.sbind _
  case chbind => exact RoundTrip.chbind _ _
  case emit => exact RoundTrip.emit _ _
  case wmk => exact RoundTrip.wmk _ _
  case publ => exact RoundTrip.publ _
  case acct => exact RoundTrip.acct _ _
  case csrr => exact RoundTrip.csrr _ _
  case csrw => exact RoundTrip.csrw _ _ _
  case csrs => exact RoundTrip.csrs _ _ _
  case csrc => exact RoundTrip.csrc _ _ _
  case scall => exact RoundTrip.scall _
  case tret => exact RoundTrip.tret
  case uiret => exact RoundTrip.uiret
  case sleep => exact RoundTrip.sleep _
  case brk => exact RoundTrip.brk _
  case vadd => exact RoundTrip.vadd _ _ _ _ _
  case vaddSat => exact RoundTrip.vaddSat _ _ _ _ _
  case vsub => exact RoundTrip.vsub _ _ _ _ _
  case vsubSat => exact RoundTrip.vsubSat _ _ _ _ _
  case vmul => exact RoundTrip.vmul _ _ _ _ _
  case vmulSat => exact RoundTrip.vmulSat _ _ _ _ _
  case vfma => exact RoundTrip.vfma _ _ _ _ _
  case vfms => exact RoundTrip.vfms _ _ _ _ _
  case vmulh => exact RoundTrip.vmulh _ _ _ _ _
  case vabs => exact RoundTrip.vabs _ _ _ _ _
  case vmin => exact RoundTrip.vmin _ _ _ _ _
  case vmax => exact RoundTrip.vmax _ _ _ _ _
  case vneg => exact RoundTrip.vneg _ _ _ _ _
  case vmov => exact RoundTrip.vmov _ _ _ _
  case vand => exact RoundTrip.vand _ _ _ _ _
  case vor => exact RoundTrip.vor _ _ _ _ _
  case vxor => exact RoundTrip.vxor _ _ _ _ _
  case vshr => exact RoundTrip.vshr _ _ _ _ _
  case vshl => exact RoundTrip.vshl _ _ _ _ _
  case vshlSat => exact RoundTrip.vshlSat _ _ _ _ _
  case vshra => exact RoundTrip.vshra _ _ _ _ _
  case vsel => exact RoundTrip.vsel _ _ _ _ _
  case vcmpEq => exact RoundTrip.vcmpEq _ _ _ _ _
  case vcmpNe => exact RoundTrip.vcmpNe _ _ _ _ _
  case vcmpLt => exact RoundTrip.vcmpLt _ _ _ _ _
  case vcmpLe => exact RoundTrip.vcmpLe _ _ _ _ _
  case vbcast => exact RoundTrip.vbcast _ _ _ _
  case vred => exact RoundTrip.vred _ _ _ _ _
  case vcvt => exact RoundTrip.vcvt _ _ _ _ _
  case vcvtSr => exact RoundTrip.vcvtSr _ _ _ _ _
  case vperm => exact RoundTrip.vperm _ _ _ _ _
  case vslide => exact RoundTrip.vslide _ _ _ _ _
  case vzip => exact RoundTrip.vzip _ _ _ _ _
  case vunzip => exact RoundTrip.vunzip _ _ _ _ _
  case vdot => exact RoundTrip.vdot _ _ _ _ _
  case vplane => exact RoundTrip.vplane _ _ _ _ _ _ _
  case vqnt => exact RoundTrip.vqnt _ _ _ _ _
  case vdqnt => exact RoundTrip.vdqnt _ _ _ _ _
  case vrcp => exact RoundTrip.vrcp _ _ _ _
  case vrsq => exact RoundTrip.vrsq _ _ _ _
  case vex2 => exact RoundTrip.vex2 _ _ _ _
  case vlg2 => exact RoundTrip.vlg2 _ _ _ _
  case vsin => exact RoundTrip.vsin _ _ _ _
  case vtanh => exact RoundTrip.vtanh _ _ _ _
  case vld => exact RoundTrip.vld _ _ _ _
  case vst => exact RoundTrip.vst _ _ _ _
  case vlds => exact RoundTrip.vlds _ _ _ _ _
  case vsts => exact RoundTrip.vsts _ _ _ _ _
  case vgthr => exact RoundTrip.vgthr _ _ _ _ _
  case vsctr => exact RoundTrip.vsctr _ _ _ _ _
  case kand => exact RoundTrip.kand _ _ _
  case kor => exact RoundTrip.kor _ _ _
  case knot => exact RoundTrip.knot _ _
  case kpopc => exact RoundTrip.kpopc _ _
  case setfmt => exact RoundTrip.setfmt _ _
  case repf => exact RoundTrip.repf _ _ _
  all_goals
    intro _ _ h
    cases h

/-- Settles O25, constructor by constructor. -/
theorem decodeOfEncodeIsTheInstruction : Obligations.DecodeOfEncodeIsTheInstruction := by
  unfold Obligations.DecodeOfEncodeIsTheInstruction
  exact fun i w hi hw => roundTrip i hi w hw

end Sys2Proof.Machine

namespace Sys2Proof

/-! Fields that join to a word (Table 05-1). -/

/-- Two adjacent fields are one field. -/
theorem fld_append_fld (w : IWord) (lo m n hi : Nat) (h : hi = lo + m) : fld w hi n ++ fld w lo m = fld w lo (n + m) := by
  apply BitVec.eq_of_getLsbD_eq
  intro i hlt
  simp only [fld, BitVec.getLsbD_append, BitVec.getLsbD_extractLsb', h]
  by_cases him : i < m
  · simp [him, hlt]
  · have hin : i - m < n := by omega
    have hpos : lo + m + (i - m) = lo + i := by omega
    simp [him, hlt, hin, hpos]

/-- The field of all 32 bits is the word. -/
theorem fld_zero_32 (w : IWord) : fld w 0 32 = w := by
  apply BitVec.eq_of_getLsbD_eq
  intro i hi
  simp [fld, hi]

theorem encA_fld (w : IWord) : encA (fld w 26 6) (fld w 20 6) (fld w 13 7) (fld w 6 7) (fld w 0 6) = w := by
  rw [encA, fld_append_fld w 20 6 6 26 rfl, fld_append_fld w 13 7 _ 20 rfl, fld_append_fld w 6 7 _ 13 rfl, fld_append_fld w 0 6 _ 6 rfl]
  exact fld_zero_32 w

theorem encI_fld (w : IWord) : encI (fld w 26 6) (fld w 20 6) (fld w 13 7) (fld w 0 13) = w := by
  rw [encI, fld_append_fld w 20 6 6 26 rfl, fld_append_fld w 13 7 _ 20 rfl, fld_append_fld w 0 13 _ 13 rfl]
  exact fld_zero_32 w

theorem encU_fld (w : IWord) : encU (fld w 26 6) (fld w 20 6) (fld w 0 20) = w := by
  rw [encU, fld_append_fld w 20 6 6 26 rfl, fld_append_fld w 0 20 _ 20 rfl]
  exact fld_zero_32 w

theorem encB_fld (w : IWord) (h : fld w 26 6 = 0x0B) : encB (fld w 23 3) (fld w 18 5) (fld w 13 5) (fld w 0 13) = w := by
  rw [encB, show 0x0B#6 = fld w 26 6 from h.symm, fld_append_fld w 23 3 6 26 rfl, fld_append_fld w 18 5 _ 23 rfl, fld_append_fld w 13 5 _ 18 rfl, fld_append_fld w 0 13 _ 13 rfl]
  exact fld_zero_32 w

theorem encLS_fld (w : IWord) : encLS (fld w 26 6) (fld w 19 7) (fld w 14 5) (fld w 12 2) (fld w 9 3) (fld w 0 9) = w := by
  rw [encLS, fld_append_fld w 19 7 6 26 rfl, fld_append_fld w 14 5 _ 19 rfl, fld_append_fld w 12 2 _ 14 rfl, fld_append_fld w 9 3 _ 12 rfl,
    fld_append_fld w 0 9 _ 9 rfl]
  exact fld_zero_32 w

theorem encM_fld (w : IWord) (h : fld w 26 6 = 0x12) :
    encM (fld w 24 2) (fld w 20 4) (fld w 16 4) (fld w 13 3) (fld w 10 3) (fld w 5 5) (fld w 0 5) = w := by
  rw [encM, show 0x12#6 = fld w 26 6 from h.symm, fld_append_fld w 24 2 6 26 rfl, fld_append_fld w 20 4 _ 24 rfl, fld_append_fld w 16 4 _ 20 rfl, fld_append_fld w 13 3 _ 16 rfl,
    fld_append_fld w 10 3 _ 13 rfl, fld_append_fld w 5 5 _ 10 rfl, fld_append_fld w 0 5 _ 5 rfl]
  exact fld_zero_32 w

theorem encV_fld (w : IWord) : encV (fld w 26 6) (fld w 21 5) (fld w 15 6) (fld w 9 6) (fld w 4 5) (fld w 1 3) (fld w 0 1) = w := by
  rw [encV, fld_append_fld w 21 5 6 26 rfl, fld_append_fld w 15 6 _ 21 rfl, fld_append_fld w 9 6 _ 15 rfl, fld_append_fld w 4 5 _ 9 rfl,
    fld_append_fld w 1 3 _ 4 rfl, fld_append_fld w 0 1 _ 1 rfl]
  exact fld_zero_32 w

/-- A field that is zero has parts that are zero. -/
theorem fld_eq_zero_of_fld_eq_zero {w : IWord} {lo n : Nat} (h : fld w lo n = 0) (lo' n' : Nat) (hin : lo ≤ lo' ∧ lo' + n' ≤ lo + n) : fld w lo' n' = 0 := by
  apply BitVec.eq_of_getLsbD_eq
  intro i hi
  obtain ⟨hlo, hup⟩ := hin
  have hbit : (fld w lo n).getLsbD (lo' - lo + i) = false := by rw [h]; exact BitVec.getLsbD_zero
  have hlt : lo' - lo + i < n := by omega
  have hpos : lo + (lo' - lo + i) = lo' + i := by omega
  simpa [fld, hi, hlt, hpos] using hbit

/-! What an operand field's bits are, once it is read (R78, R90). -/

theorem dstBits_dstOf (f : BitVec 6) : dstBits (dstOf f) = f := by revert f; decide
theorem vdstBits_vdstOf (f : BitVec 5) : vdstBits (vdstOf f) = f := by revert f; decide
theorem xdstBits_xdstOf (f : BitVec 5) : xdstBits (xdstOf f) = f := by revert f; decide

theorem srcBits_of_srcOf {f : BitVec 7} {a : Src} (h : srcOf f = some a) : srcBits a = f := by
  have hall : ∀ f, (srcOf f).all (fun a => srcBits a == f) = true := by decide
  simpa [h] using hall f

theorem vsrcBits_of_vsrcOf {f : BitVec 6} {a : VSrc} (h : vsrcOf f = some a) : vsrcBits a = f := by
  have hall : ∀ f, (vsrcOf f).all (fun a => vsrcBits a == f) = true := by decide
  simpa [h] using hall f

theorem xsrcBits_of_xsrcOf {f : BitVec 6} {a : XSrc} (h : xsrcOf f = some a) : xsrcBits a = f := by
  have hall : ∀ f, (xsrcOf f).all (fun a => xsrcBits a == f) = true := by decide
  simpa [h] using hall f

theorem append_of_low {n m : Nat} {f : BitVec (m + n)} {x : BitVec n} (h : low n m f = some x) : 0#m ++ x = f := by
  unfold low at h
  split at h
  · next hz =>
    obtain rfl := Option.some.inj h
    apply BitVec.eq_of_getLsbD_eq
    intro i hi
    have hbit : (f.extractLsb' n m).getLsbD (i - n) = false := by rw [hz]; exact BitVec.getLsbD_zero
    simp only [BitVec.getLsbD_append, BitVec.getLsbD_extractLsb']
    by_cases hin : i < n
    · simp [hin]
    · have hlt : i - n < m := by omega
      have hpos : n + (i - n) = i := by omega
      simpa [hin, hlt, hpos] using hbit.symm
  · cases h

theorem r6_of_low {f : BitVec 6} {x : BitVec 5} (h : low 5 1 f = some x) : r6 x = f := append_of_low h
theorem r7_of_low {f : BitVec 7} {x : BitVec 5} (h : low 5 2 f = some x) : r7 x = f := append_of_low h

theorem onlyIf_eq_some {c : Bool} {i j : Instr} : onlyIf c i = some j ↔ c = true ∧ i = j := by cases c <;> simp [onlyIf]

theorem ofBool_beq_one (b : BitVec 1) : BitVec.ofBool (b == 1) = b := by revert b; decide

theorem ofBool_getLsbD_zero (f : BitVec 5) : f.extractLsb' 1 4 ++ BitVec.ofBool (f.getLsbD 0) = f := by revert f; decide

/-- The destination of a load, whose PK bit is zero. -/
theorem ldBits_dstOf (w : IWord) (h : fld w 24 1 = 0) : ldBits (dstOf (fld w 25 1 ++ fld w 19 5)) = fld w 19 7 := by
  have hall : ∀ (c : BitVec 1) (n : BitVec 5), ldBits (dstOf (c ++ n)) = c ++ 0#1 ++ n := by decide
  rw [hall, show (0#1) = fld w 24 1 from h.symm, fld_append_fld w 24 1 1 25 rfl, fld_append_fld w 19 5 _ 24 rfl]

/-! One lemma per format: what it reads, its constructor writes back. -/

theorem encode_of_decA3 {op f : BitVec 6} {k} {w : IWord} {i : Instr} (h : decA3 k w = some i)
    (hk : ∀ d a b, encode (k d a b) = some (encA op (dstBits d) (srcBits a) (srcBits b) f)) (ho : fld w 26 6 = op) (hf : fld w 0 6 = f) : encode i = some w := by
  simp only [decA3, Option.bind_eq_some_iff, Option.some.injEq] at h
  obtain ⟨a, ha, b, hb, rfl⟩ := h
  rw [hk, dstBits_dstOf, srcBits_of_srcOf ha, srcBits_of_srcOf hb, ← ho, ← hf, encA_fld]

theorem encode_of_decA2 {op f : BitVec 6} {k} {w : IWord} {i : Instr} (h : decA2 k w = some i)
    (hk : ∀ d a, encode (k d a) = some (encA op (dstBits d) (srcBits a) 0 f)) (ho : fld w 26 6 = op) (hf : fld w 0 6 = f) : encode i = some w := by
  simp only [decA2, Option.bind_eq_some_iff, onlyIf_eq_some, beq_iff_eq] at h
  obtain ⟨a, ha, hb, rfl⟩ := h
  rw [hk, dstBits_dstOf, srcBits_of_srcOf ha, ← hb, ← ho, ← hf, encA_fld]

theorem encode_of_decI {op : BitVec 6} {k} {w : IWord} {i : Instr} (h : decI k w = some i)
    (hk : ∀ d a i, encode (k d a i) = some (encI op (dstBits d) (srcBits a) i)) (ho : fld w 26 6 = op) : encode i = some w := by
  simp only [decI, Option.bind_eq_some_iff, Option.some.injEq] at h
  obtain ⟨a, ha, rfl⟩ := h
  rw [hk, dstBits_dstOf, srcBits_of_srcOf ha, ← ho, encI_fld]

theorem encode_of_decU {op : BitVec 6} {k} {w : IWord} {i : Instr} (h : decU k w = some i)
    (hk : ∀ d i, encode (k d i) = some (encU op (r6 d) i)) (ho : fld w 26 6 = op) : encode i = some w := by
  simp only [decU, Option.bind_eq_some_iff, Option.some.injEq] at h
  obtain ⟨d, hd, rfl⟩ := h
  rw [hk, r6_of_low hd, ← ho, encU_fld]

theorem encode_of_decB {r : BitVec 3} {k} {w : IWord} {i : Instr} (h : decB k w = some i)
    (hk : ∀ a b o, encode (k a b o) = some (encB r a b o)) (ho : fld w 26 6 = 0x0B) (hr : fld w 23 3 = r) : encode i = some w := by
  simp only [decB, Option.some.injEq] at h
  obtain rfl := h
  rw [hk, ← hr, encB_fld w ho]

theorem encode_of_decS {op : BitVec 6} {k} {w : IWord} {i : Instr} (h : decS k w = some i)
    (hk : ∀ d a i, encode (k d a i) = some (encI op (r6 d) (r7 a) i)) (ho : fld w 26 6 = op) : encode i = some w := by
  simp only [decS, Option.bind_eq_some_iff, Option.some.injEq] at h
  obtain ⟨d, hd, a, ha, rfl⟩ := h
  rw [hk, r6_of_low hd, r7_of_low ha, ← ho, encI_fld]

theorem encode_of_decS1 {op : BitVec 6} {k} {w : IWord} {i : Instr} (h : decS1 k w = some i)
    (hk : ∀ d i, encode (k d i) = some (encI op (r6 d) 0 i)) (ho : fld w 26 6 = op) : encode i = some w := by
  simp only [decS1, Option.bind_eq_some_iff, onlyIf_eq_some, beq_iff_eq] at h
  obtain ⟨d, hd, ha, rfl⟩ := h
  rw [hk, r6_of_low hd, ← ha, ← ho, encI_fld]

theorem encode_of_decL {op : BitVec 6} {r : BitVec 3} {k} {w : IWord} {i : Instr} (h : decL k w = some i)
    (hk : ∀ d a v o, encode (k d a v o) = some (encLS op (ldBits d) a v r o)) (ho : fld w 26 6 = op) (hr : fld w 9 3 = r) : encode i = some w := by
  simp only [decL, onlyIf_eq_some, beq_iff_eq] at h
  obtain ⟨hp, rfl⟩ := h
  rw [hk, ldBits_dstOf w hp, ← ho, ← hr, encLS_fld]

theorem encode_of_decSt {op : BitVec 6} {r : BitVec 3} {k} {w : IWord} {i : Instr} (h : decSt k w = some i)
    (hk : ∀ d a v o, encode (k d a v o) = some (encLS op (srcBits d) a v r o)) (ho : fld w 26 6 = op) (hr : fld w 9 3 = r) : encode i = some w := by
  simp only [decSt, Option.bind_eq_some_iff, Option.some.injEq] at h
  obtain ⟨d, hd, rfl⟩ := h
  rw [hk, srcBits_of_srcOf hd, ← ho, ← hr, encLS_fld]

theorem encode_of_decR3 {op f : BitVec 6} {k} {w : IWord} {i : Instr} (h : decR3 k w = some i)
    (hk : ∀ d a b, encode (k d a b) = some (encA op (r6 d) (r7 a) (r7 b) f)) (ho : fld w 26 6 = op) (hf : fld w 0 6 = f) : encode i = some w := by
  simp only [decR3, Option.bind_eq_some_iff, Option.some.injEq] at h
  obtain ⟨d, hd, a, ha, b, hb, rfl⟩ := h
  rw [hk, r6_of_low hd, r7_of_low ha, r7_of_low hb, ← ho, ← hf, encA_fld]

theorem encode_of_decRda {op f : BitVec 6} {k} {w : IWord} {i : Instr} (h : decRda k w = some i)
    (hk : ∀ d a, encode (k d a) = some (encA op (r6 d) (r7 a) 0 f)) (ho : fld w 26 6 = op) (hf : fld w 0 6 = f) : encode i = some w := by
  simp only [decRda, Option.bind_eq_some_iff, onlyIf_eq_some, beq_iff_eq] at h
  obtain ⟨d, hd, a, ha, hb, rfl⟩ := h
  rw [hk, r6_of_low hd, r7_of_low ha, ← hb, ← ho, ← hf, encA_fld]

theorem encode_of_decRab {op f : BitVec 6} {k} {w : IWord} {i : Instr} (h : decRab k w = some i)
    (hk : ∀ a b, encode (k a b) = some (encA op 0 (r7 a) (r7 b) f)) (ho : fld w 26 6 = op) (hf : fld w 0 6 = f) : encode i = some w := by
  simp only [decRab, Option.bind_eq_some_iff, onlyIf_eq_some, beq_iff_eq] at h
  obtain ⟨a, ha, b, hb, hd, rfl⟩ := h
  rw [hk, r7_of_low ha, r7_of_low hb, ← hd, ← ho, ← hf, encA_fld]

theorem encode_of_decRa {op f : BitVec 6} {k} {w : IWord} {i : Instr} (h : decRa k w = some i)
    (hk : ∀ a, encode (k a) = some (encA op 0 (r7 a) 0 f)) (ho : fld w 26 6 = op) (hf : fld w 0 6 = f) : encode i = some w := by
  simp only [decRa, Option.bind_eq_some_iff, onlyIf_eq_some, beq_iff_eq, Bool.and_eq_true] at h
  obtain ⟨a, ha, ⟨hd, hb⟩, rfl⟩ := h
  rw [hk, r7_of_low ha, ← hd, ← hb, ← ho, ← hf, encA_fld]

theorem encode_of_decRing {op f : BitVec 6} {k} {w : IWord} {i : Instr} (h : decRing k w = some i)
    (hk : ∀ n a b, encode (k n a b) = some (encA op (0#2 ++ n) (r7 a) (r7 b) f)) (ho : fld w 26 6 = op) (hf : fld w 0 6 = f) : encode i = some w := by
  simp only [decRing, Option.bind_eq_some_iff, Option.some.injEq] at h
  obtain ⟨n, hn, a, ha, b, hb, rfl⟩ := h
  rw [hk, append_of_low hn, r7_of_low ha, r7_of_low hb, ← ho, ← hf, encA_fld]

theorem encode_of_decV3 {op : BitVec 6} {s : BitVec 1} {k} {w : IWord} {i : Instr} (h : decV3 k w = some i)
    (hk : ∀ d a b t m, encode (k d a b t m) = some (encV op (vdstBits d) (vsrcBits a) (vsrcBits b) t m s)) (ho : fld w 26 6 = op) (hs : fld w 0 1 = s) : encode i = some w := by
  simp only [decV3, Option.bind_eq_some_iff, Option.some.injEq] at h
  obtain ⟨a, ha, b, hb, rfl⟩ := h
  rw [hk, vdstBits_vdstOf, vsrcBits_of_vsrcOf ha, vsrcBits_of_vsrcOf hb, ← ho, ← hs, encV_fld]

theorem encode_of_decVs3 {op : BitVec 6} {s : BitVec 1} {k} {w : IWord} {i : Instr} (h : decVs3 k w = some i)
    (hk : ∀ d a b t m, encode (k d a b t m) = some (encV op (0#1 ++ d) (vsrcBits a) (vsrcBits b) t m s)) (ho : fld w 26 6 = op) (hs : fld w 0 1 = s) : encode i = some w := by
  simp only [decVs3, Option.bind_eq_some_iff, Option.some.injEq] at h
  obtain ⟨d, hd, a, ha, b, hb, rfl⟩ := h
  rw [hk, append_of_low hd, vsrcBits_of_vsrcOf ha, vsrcBits_of_vsrcOf hb, ← ho, ← hs, encV_fld]

theorem encode_of_decVk3 {op : BitVec 6} {s : BitVec 1} {k} {w : IWord} {i : Instr} (h : decVk3 k w = some i)
    (hk : ∀ d a b t m, encode (k d a b t m) = some (encV op (0#2 ++ d) (vsrcBits a) (vsrcBits b) t m s)) (ho : fld w 26 6 = op) (hs : fld w 0 1 = s) : encode i = some w := by
  simp only [decVk3, Option.bind_eq_some_iff, Option.some.injEq] at h
  obtain ⟨d, hd, a, ha, b, hb, rfl⟩ := h
  rw [hk, append_of_low hd, vsrcBits_of_vsrcOf ha, vsrcBits_of_vsrcOf hb, ← ho, ← hs, encV_fld]

theorem encode_of_decVm {op : BitVec 6} {s : BitVec 1} {k} {w : IWord} {i : Instr} (h : decVm k w = some i)
    (hk : ∀ d a v t m, encode (k d a v t m) = some (encV op (vdstBits d) (vsrcBits a) v t m s)) (ho : fld w 26 6 = op) (hs : fld w 0 1 = s) : encode i = some w := by
  simp only [decVm, Option.bind_eq_some_iff, Option.some.injEq] at h
  obtain ⟨a, ha, rfl⟩ := h
  rw [hk, vdstBits_vdstOf, vsrcBits_of_vsrcOf ha, ← ho, ← hs, encV_fld]

theorem encode_of_decVm1 {op : BitVec 6} {s : BitVec 1} {k} {w : IWord} {i : Instr} (h : decVm1 k w = some i)
    (hk : ∀ d a v t m, encode (k d a v t m) = some (encV op (vdstBits d) (vsrcBits a) (0#5 ++ BitVec.ofBool v) t m s)) (ho : fld w 26 6 = op) (hs : fld w 0 1 = s) : encode i = some w := by
  simp only [decVm1, Option.bind_eq_some_iff, onlyIf_eq_some, beq_iff_eq] at h
  obtain ⟨a, ha, hz, rfl⟩ := h
  rw [hk, vdstBits_vdstOf, vsrcBits_of_vsrcOf ha, ofBool_beq_one, show 0#5 = fld w 10 5 from hz.symm, fld_append_fld w 9 1 5 10 rfl, ← ho, ← hs, encV_fld]

theorem encode_of_decVm0 {op : BitVec 6} {s : BitVec 1} {k} {w : IWord} {i : Instr} (h : decVm0 k w = some i)
    (hk : ∀ d a t m, encode (k d a t m) = some (encV op (vdstBits d) (vsrcBits a) 0 t m s)) (ho : fld w 26 6 = op) (hs : fld w 0 1 = s) : encode i = some w := by
  simp only [decVm0, Option.bind_eq_some_iff, onlyIf_eq_some, beq_iff_eq] at h
  obtain ⟨a, ha, hz, rfl⟩ := h
  rw [hk, vdstBits_vdstOf, vsrcBits_of_vsrcOf ha, ← hz, ← ho, ← hs, encV_fld]

theorem encode_of_decVx {op : BitVec 6} {s : BitVec 1} {k} {w : IWord} {i : Instr} (h : decVx k w = some i)
    (hk : ∀ d a b t m, encode (k d a b t m) = some (encV op (vdstBits d) (vsrcBits a) (xsrcBits b) t m s)) (ho : fld w 26 6 = op) (hs : fld w 0 1 = s) : encode i = some w := by
  simp only [decVx, Option.bind_eq_some_iff, Option.some.injEq] at h
  obtain ⟨a, ha, b, hb, rfl⟩ := h
  rw [hk, vdstBits_vdstOf, vsrcBits_of_vsrcOf ha, xsrcBits_of_xsrcOf hb, ← ho, ← hs, encV_fld]

theorem encode_of_decRd {op f : BitVec 6} {k} {w : IWord} {i : Instr} (h : decRd k w = some i)
    (hk : ∀ d, encode (k d) = some (encA op (r6 d) 0 0 f)) (ho : fld w 26 6 = op) (hf : fld w 0 6 = f) : encode i = some w := by
  simp only [decRd, Option.bind_eq_some_iff, onlyIf_eq_some, beq_iff_eq] at h
  obtain ⟨d, hd, hz, rfl⟩ := h
  have hw := encA_fld w
  rw [fld_eq_zero_of_fld_eq_zero hz 13 7 (by omega), fld_eq_zero_of_fld_eq_zero hz 6 7 (by omega), ho, hf] at hw
  rw [hk, r6_of_low hd, hw]

theorem encode_of_decR0 {op f : BitVec 6} {k} {w : IWord} {i : Instr} (h : decR0 k w = some i)
    (hk : encode (k) = some (encA op 0 0 0 f)) (ho : fld w 26 6 = op) (hf : fld w 0 6 = f) : encode i = some w := by
  simp only [decR0, onlyIf_eq_some, beq_iff_eq] at h
  obtain ⟨hz, rfl⟩ := h
  have hw := encA_fld w
  rw [fld_eq_zero_of_fld_eq_zero hz 20 6 (by omega), fld_eq_zero_of_fld_eq_zero hz 13 7 (by omega), fld_eq_zero_of_fld_eq_zero hz 6 7 (by omega), ho, hf] at hw
  rw [hk, hw]

theorem encode_of_decRing0 {op f : BitVec 6} {k} {w : IWord} {i : Instr} (h : decRing0 k w = some i)
    (hk : ∀ n, encode (k n) = some (encA op (0#2 ++ n) 0 0 f)) (ho : fld w 26 6 = op) (hf : fld w 0 6 = f) : encode i = some w := by
  simp only [decRing0, Option.bind_eq_some_iff, onlyIf_eq_some, beq_iff_eq] at h
  obtain ⟨n, hn, hz, rfl⟩ := h
  have hw := encA_fld w
  rw [fld_eq_zero_of_fld_eq_zero hz 13 7 (by omega), fld_eq_zero_of_fld_eq_zero hz 6 7 (by omega), ho, hf] at hw
  rw [hk, append_of_low hn, hw]

/-- A vector load's second source reads as `bits` writes it. -/
theorem encode_of_decVl {α : Type} {g : BitVec 6 → Option α} {bits : α → BitVec 6} (hg : ∀ {f x}, g f = some x → bits x = f) {op : BitVec 6} {s : BitVec 1} {k}
    {w : IWord} {i : Instr} (h : decVl g k w = some i) (hk : ∀ d a b t m, encode (k d a b t m) = some (encV op (vdstBits d) (0#2 ++ a) (bits b) t m s))
    (ho : fld w 26 6 = op) (hs : fld w 0 1 = s) : encode i = some w := by
  simp only [decVl, Option.bind_eq_some_iff, Option.some.injEq] at h
  obtain ⟨a, ha, b, hb, rfl⟩ := h
  rw [hk, vdstBits_vdstOf, append_of_low ha, hg hb, ← ho, ← hs, encV_fld]

/-- A vector store's second source reads as `bits` writes it. -/
theorem encode_of_decVst {α : Type} {g : BitVec 6 → Option α} {bits : α → BitVec 6} (hg : ∀ {f x}, g f = some x → bits x = f) {op : BitVec 6} {s : BitVec 1} {k}
    {w : IWord} {i : Instr} (h : decVst g k w = some i) (hk : ∀ d a b t m, encode (k d a b t m) = some (encV op (0#1 ++ d) (0#2 ++ a) (bits b) t m s))
    (ho : fld w 26 6 = op) (hs : fld w 0 1 = s) : encode i = some w := by
  simp only [decVst, Option.bind_eq_some_iff, Option.some.injEq] at h
  obtain ⟨d, hd, a, ha, b, hb, rfl⟩ := h
  rw [hk, append_of_low hd, append_of_low ha, hg hb, ← ho, ← hs, encV_fld]

/-- An unused second source is zero. -/
theorem zero_of_noSrc {f : BitVec 6} {x : Unit} (h : noSrc f = some x) : 0 = f := by
  unfold noSrc at h
  split at h
  · next hz => exact hz.symm
  · cases h

/-! One lemma per table: each row writes back the word it reads. -/

theorem encode_of_decOp {w : IWord} {i : Instr} (ho : fld w 26 6 = 0x01) (h : decOp w = some i) : encode i = some w := by
  unfold decOp at h
  split at h
  · exact encode_of_decA3 h (fun _ _ _ => rfl) ho (BitVec.eq_of_toNat_eq ‹_›)
  · exact encode_of_decA3 h (fun _ _ _ => rfl) ho (BitVec.eq_of_toNat_eq ‹_›)
  · exact encode_of_decA3 h (fun _ _ _ => rfl) ho (BitVec.eq_of_toNat_eq ‹_›)
  · exact encode_of_decA3 h (fun _ _ _ => rfl) ho (BitVec.eq_of_toNat_eq ‹_›)
  · exact encode_of_decA3 h (fun _ _ _ => rfl) ho (BitVec.eq_of_toNat_eq ‹_›)
  · exact encode_of_decA3 h (fun _ _ _ => rfl) ho (BitVec.eq_of_toNat_eq ‹_›)
  · exact encode_of_decA3 h (fun _ _ _ => rfl) ho (BitVec.eq_of_toNat_eq ‹_›)
  · exact encode_of_decA3 h (fun _ _ _ => rfl) ho (BitVec.eq_of_toNat_eq ‹_›)
  · exact encode_of_decA3 h (fun _ _ _ => rfl) ho (BitVec.eq_of_toNat_eq ‹_›)
  · exact encode_of_decA3 h (fun _ _ _ => rfl) ho (BitVec.eq_of_toNat_eq ‹_›)
  · exact encode_of_decA3 h (fun _ _ _ => rfl) ho (BitVec.eq_of_toNat_eq ‹_›)
  · exact encode_of_decA3 h (fun _ _ _ => rfl) ho (BitVec.eq_of_toNat_eq ‹_›)
  · exact encode_of_decA3 h (fun _ _ _ => rfl) ho (BitVec.eq_of_toNat_eq ‹_›)
  · exact encode_of_decA3 h (fun _ _ _ => rfl) ho (BitVec.eq_of_toNat_eq ‹_›)
  · exact encode_of_decA3 h (fun _ _ _ => rfl) ho (BitVec.eq_of_toNat_eq ‹_›)
  · exact encode_of_decA3 h (fun _ _ _ => rfl) ho (BitVec.eq_of_toNat_eq ‹_›)
  · exact encode_of_decA3 h (fun _ _ _ => rfl) ho (BitVec.eq_of_toNat_eq ‹_›)
  · exact encode_of_decA3 h (fun _ _ _ => rfl) ho (BitVec.eq_of_toNat_eq ‹_›)
  · exact encode_of_decA3 h (fun _ _ _ => rfl) ho (BitVec.eq_of_toNat_eq ‹_›)
  · exact encode_of_decA3 h (fun _ _ _ => rfl) ho (BitVec.eq_of_toNat_eq ‹_›)
  · exact encode_of_decA3 h (fun _ _ _ => rfl) ho (BitVec.eq_of_toNat_eq ‹_›)
  · exact encode_of_decA3 h (fun _ _ _ => rfl) ho (BitVec.eq_of_toNat_eq ‹_›)
  · exact encode_of_decA3 h (fun _ _ _ => rfl) ho (BitVec.eq_of_toNat_eq ‹_›)
  · exact encode_of_decA2 h (fun _ _ => rfl) ho (BitVec.eq_of_toNat_eq ‹_›)
  · exact encode_of_decA2 h (fun _ _ => rfl) ho (BitVec.eq_of_toNat_eq ‹_›)
  · exact encode_of_decA2 h (fun _ _ => rfl) ho (BitVec.eq_of_toNat_eq ‹_›)
  · exact encode_of_decA3 h (fun _ _ _ => rfl) ho (BitVec.eq_of_toNat_eq ‹_›)
  · exact encode_of_decA3 h (fun _ _ _ => rfl) ho (BitVec.eq_of_toNat_eq ‹_›)
  · cases h

theorem encode_of_decBranch {w : IWord} {i : Instr} (ho : fld w 26 6 = 0x0B) (h : decBranch w = some i) : encode i = some w := by
  unfold decBranch at h
  split at h
  · exact encode_of_decB h (fun _ _ _ => rfl) ho (BitVec.eq_of_toNat_eq ‹_›)
  · exact encode_of_decB h (fun _ _ _ => rfl) ho (BitVec.eq_of_toNat_eq ‹_›)
  · exact encode_of_decB h (fun _ _ _ => rfl) ho (BitVec.eq_of_toNat_eq ‹_›)
  · exact encode_of_decB h (fun _ _ _ => rfl) ho (BitVec.eq_of_toNat_eq ‹_›)
  · exact encode_of_decB h (fun _ _ _ => rfl) ho (BitVec.eq_of_toNat_eq ‹_›)
  · exact encode_of_decB h (fun _ _ _ => rfl) ho (BitVec.eq_of_toNat_eq ‹_›)
  · cases h

theorem encode_of_decLoad {w : IWord} {i : Instr} (ho : fld w 26 6 = 0x0E) (h : decLoad w = some i) : encode i = some w := by
  unfold decLoad at h
  split at h
  · exact encode_of_decL h (fun _ _ _ _ => rfl) ho (BitVec.eq_of_toNat_eq ‹_›)
  · exact encode_of_decL h (fun _ _ _ _ => rfl) ho (BitVec.eq_of_toNat_eq ‹_›)
  · exact encode_of_decL h (fun _ _ _ _ => rfl) ho (BitVec.eq_of_toNat_eq ‹_›)
  · cases h

theorem encode_of_decStore {w : IWord} {i : Instr} (ho : fld w 26 6 = 0x0F) (h : decStore w = some i) : encode i = some w := by
  unfold decStore at h
  split at h
  · exact encode_of_decSt h (fun _ _ _ _ => rfl) ho (BitVec.eq_of_toNat_eq ‹_›)
  · exact encode_of_decSt h (fun _ _ _ _ => rfl) ho (BitVec.eq_of_toNat_eq ‹_›)
  · cases h

theorem encode_of_decEngine {w : IWord} {i : Instr} (ho : fld w 26 6 = 0x15) (h : decEngine w = some i) : encode i = some w := by
  unfold decEngine at h
  split at h
  · exact encode_of_decRa h (fun _ => rfl) ho (BitVec.eq_of_toNat_eq ‹_›)
  · exact encode_of_decRa h (fun _ => rfl) ho (BitVec.eq_of_toNat_eq ‹_›)
  · exact encode_of_decRa h (fun _ => rfl) ho (BitVec.eq_of_toNat_eq ‹_›)
  · exact encode_of_decRa h (fun _ => rfl) ho (BitVec.eq_of_toNat_eq ‹_›)
  · exact encode_of_decRda h (fun _ _ => rfl) ho (BitVec.eq_of_toNat_eq ‹_›)
  · cases h

theorem encode_of_decTile {w : IWord} {i : Instr} (ho : fld w 26 6 = 0x14) (h : decTile w = some i) : encode i = some w := by
  unfold decTile at h
  split at h
  · exact encode_of_decRing h (fun _ _ _ => rfl) ho (BitVec.eq_of_toNat_eq ‹_›)
  · exact encode_of_decRing0 h (fun _ => rfl) ho (BitVec.eq_of_toNat_eq ‹_›)
  · exact encode_of_decRing0 h (fun _ => rfl) ho (BitVec.eq_of_toNat_eq ‹_›)
  · exact encode_of_decRab h (fun _ _ => rfl) ho (BitVec.eq_of_toNat_eq ‹_›)
  · exact encode_of_decR3 h (fun _ _ _ => rfl) ho (BitVec.eq_of_toNat_eq ‹_›)
  · exact encode_of_decR3 h (fun _ _ _ => rfl) ho (BitVec.eq_of_toNat_eq ‹_›)
  · cases h

theorem encode_of_decTask {w : IWord} {i : Instr} (ho : fld w 26 6 = 0x17) (h : decTask w = some i) : encode i = some w := by
  unfold decTask at h
  split at h
  · exact encode_of_decR3 h (fun _ _ _ => rfl) ho (BitVec.eq_of_toNat_eq ‹_›)
  · exact encode_of_decR0 h rfl ho (BitVec.eq_of_toNat_eq ‹_›)
  · exact encode_of_decRd h (fun _ => rfl) ho (BitVec.eq_of_toNat_eq ‹_›)
  · exact encode_of_decRa h (fun _ => rfl) ho (BitVec.eq_of_toNat_eq ‹_›)
  · exact encode_of_decRda h (fun _ _ => rfl) ho (BitVec.eq_of_toNat_eq ‹_›)
  · exact encode_of_decRab h (fun _ _ => rfl) ho (BitVec.eq_of_toNat_eq ‹_›)
  · exact encode_of_decRab h (fun _ _ => rfl) ho (BitVec.eq_of_toNat_eq ‹_›)
  · exact encode_of_decRa h (fun _ => rfl) ho (BitVec.eq_of_toNat_eq ‹_›)
  · exact encode_of_decRda h (fun _ _ => rfl) ho (BitVec.eq_of_toNat_eq ‹_›)
  · cases h

/-- A field of `n` bits is its number. -/
theorem fld_eq_of_toNat {w : IWord} {lo n k : Nat} (h : (fld w lo n).toNat = k) : fld w lo n = BitVec.ofNat n k := by
  rw [← h, BitVec.ofNat_toNat, BitVec.setWidth_eq]

theorem encode_of_decShift {c : BitVec 7} {k} {w : IWord} {i : Instr} (h : decShift k w = some i)
    (hk : ∀ d a n, encode (k d a n) = some (encI 0x06 (dstBits d) (srcBits a) (c ++ n))) (ho : fld w 26 6 = 0x06) (hc : fld w 6 7 = c) : encode i = some w := by
  simp only [decShift, Option.bind_eq_some_iff, Option.some.injEq] at h
  obtain ⟨a, ha, rfl⟩ := h
  rw [hk, dstBits_dstOf, srcBits_of_srcOf ha, ← hc, fld_append_fld w 0 6 7 6 rfl, show (0x06 : BitVec 6) = fld w 26 6 from ho.symm, encI_fld]

theorem encode_of_decShiftI {w : IWord} {i : Instr} (ho : fld w 26 6 = 0x06) (h : decShiftI w = some i) : encode i = some w := by
  unfold decShiftI at h
  split at h
  · exact encode_of_decShift h (fun _ _ _ => rfl) ho (BitVec.eq_of_toNat_eq ‹_›)
  · exact encode_of_decShift h (fun _ _ _ => rfl) ho (BitVec.eq_of_toNat_eq ‹_›)
  · exact encode_of_decShift h (fun _ _ _ => rfl) ho (BitVec.eq_of_toNat_eq ‹_›)
  · cases h

/-- The function field of an atomic is its width and its operator. -/
theorem fld_amo {w : IWord} {n : Nat} (h : (fld w 0 5).toNat = n) : fld w 0 6 = BitVec.ofBool (fld w 5 1 == 1) ++ BitVec.ofNat 5 n := by
  rw [ofBool_beq_one, ← fld_eq_of_toNat h, fld_append_fld w 0 5 1 5 rfl]

theorem encode_of_decAmo {w : IWord} {i : Instr} (ho : fld w 26 6 = 0x10) (h : decAmo w = some i) : encode i = some w := by
  unfold decAmo at h
  dsimp only at h
  split at h
  · exact encode_of_decR3 h (fun _ _ _ => rfl) ho (fld_amo ‹_›)
  · exact encode_of_decR3 h (fun _ _ _ => rfl) ho (fld_amo ‹_›)
  · exact encode_of_decR3 h (fun _ _ _ => rfl) ho (fld_amo ‹_›)
  · exact encode_of_decR3 h (fun _ _ _ => rfl) ho (fld_amo ‹_›)
  · exact encode_of_decR3 h (fun _ _ _ => rfl) ho (fld_amo ‹_›)
  · exact encode_of_decR3 h (fun _ _ _ => rfl) ho (fld_amo ‹_›)
  · exact encode_of_decR3 h (fun _ _ _ => rfl) ho (fld_amo ‹_›)
  · exact encode_of_decR3 h (fun _ _ _ => rfl) ho (fld_amo ‹_›)
  · exact encode_of_decR3 h (fun _ _ _ => rfl) ho (fld_amo ‹_›)
  · exact encode_of_decR3 h (fun _ _ _ => rfl) ho (fld_amo ‹_›)
  · cases h

/-- The function field of a FENCE, a WAIT or a NOTIFY is its form and its operands. -/
theorem fld_sync {w : IWord} {n : Nat} (h : (fld w 4 2).toNat = n) : BitVec.ofNat 2 n ++ fld w 0 4 = fld w 0 6 := by
  rw [← fld_eq_of_toNat h, fld_append_fld w 0 4 2 4 rfl]

/-- The function field of a WAIT or a NOTIFY, whose bits 3 to 1 are zero. -/
theorem fld_waiter {w : IWord} {n : Nat} (h : (fld w 4 2).toNat = n) (hz : fld w 1 3 = 0) :
    fld w 0 6 = BitVec.ofNat 2 n ++ 0#3 ++ BitVec.ofBool (fld w 0 1 == 1) := by
  rw [ofBool_beq_one, ← fld_eq_of_toNat h, show 0#3 = fld w 1 3 from hz.symm, fld_append_fld w 1 3 2 4 rfl, fld_append_fld w 0 1 _ 1 rfl]

theorem encode_of_decSync {w : IWord} {i : Instr} (ho : fld w 26 6 = 0x11) (h : decSync w = some i) : encode i = some w := by
  unfold decSync at h
  split at h
  · next hn =>
    simp only [onlyIf_eq_some, beq_iff_eq] at h
    obtain ⟨hz, rfl⟩ := h
    have hf : fld w 0 6 = 0#2 ++ BitVec.ofBool (fld w 3 1 == 1) ++ fld w 0 3 := by
      rw [ofBool_beq_one, show 0#2 = fld w 4 2 from (fld_eq_of_toNat hn).symm, fld_append_fld w 3 1 2 4 rfl, fld_append_fld w 0 3 _ 3 rfl]
    have hw := encA_fld w
    rw [fld_eq_zero_of_fld_eq_zero hz 20 6 (by omega), fld_eq_zero_of_fld_eq_zero hz 13 7 (by omega), fld_eq_zero_of_fld_eq_zero hz 6 7 (by omega), ho, hf] at hw
    exact congrArg some hw
  · next hn =>
    split at h
    · next hz => exact encode_of_decR3 h (fun _ _ _ => rfl) ho (fld_waiter hn hz)
    · cases h
  · next hn =>
    split at h
    · next hz => exact encode_of_decRda h (fun _ _ => rfl) ho (fld_waiter hn hz)
    · cases h
  · cases h

theorem encode_of_decMatrix {w : IWord} {i : Instr} (ho : fld w 26 6 = 0x12) (h : decMatrix w = some i) : encode i = some w := by
  have hw := encM_fld w ho
  unfold decMatrix at h
  split at h
  · next hn =>
    obtain rfl := Option.some.inj h
    rw [fld_eq_of_toNat hn] at hw
    exact congrArg some hw
  · next hn =>
    simp only [onlyIf_eq_some, beq_iff_eq] at h
    obtain ⟨hz, rfl⟩ := h
    rw [fld_eq_of_toNat hn, fld_eq_zero_of_fld_eq_zero hz 20 4 (by omega), fld_eq_zero_of_fld_eq_zero hz 16 4 (by omega), fld_eq_zero_of_fld_eq_zero hz 13 3 (by omega),
      fld_eq_zero_of_fld_eq_zero hz 10 3 (by omega), fld_eq_zero_of_fld_eq_zero hz 5 5 (by omega)] at hw
    exact congrArg some hw
  · next hn =>
    simp only [onlyIf_eq_some, beq_iff_eq] at h
    obtain ⟨hz, rfl⟩ := h
    rw [fld_eq_of_toNat hn, fld_eq_zero_of_fld_eq_zero hz 20 4 (by omega), fld_eq_zero_of_fld_eq_zero hz 16 4 (by omega), fld_eq_zero_of_fld_eq_zero hz 13 3 (by omega),
      fld_eq_zero_of_fld_eq_zero hz 10 3 (by omega), fld_eq_zero_of_fld_eq_zero hz 5 5 (by omega)] at hw
    exact congrArg some hw
  · next hn =>
    simp only [onlyIf_eq_some, beq_iff_eq] at h
    obtain ⟨hz, rfl⟩ := h
    rw [fld_eq_of_toNat hn, fld_eq_zero_of_fld_eq_zero hz 24 2 (by omega), fld_eq_zero_of_fld_eq_zero hz 20 4 (by omega), fld_eq_zero_of_fld_eq_zero hz 16 4 (by omega),
      fld_eq_zero_of_fld_eq_zero hz 13 3 (by omega), fld_eq_zero_of_fld_eq_zero hz 10 3 (by omega), fld_eq_zero_of_fld_eq_zero hz 5 5 (by omega)] at hw
    exact congrArg some hw
  · cases h

theorem encode_of_decTileMove {f : BitVec 6} {k} {w : IWord} {i : Instr} (h : decTileMove k w = some i)
    (hk : ∀ t n a b, encode (k t n a b) = some (encA 0x13 (0#1 ++ t ++ BitVec.ofBool n) (r7 a) (r7 b) f)) (ho : fld w 26 6 = 0x13) (hf : fld w 0 6 = f) :
    encode i = some w := by
  have hjoin : ∀ d : BitVec 5, 0#1 ++ d.extractLsb' 1 4 ++ BitVec.ofBool (d.getLsbD 0) = r6 d := by decide
  simp only [decTileMove, Option.bind_eq_some_iff, Option.some.injEq] at h
  obtain ⟨d, hd, a, ha, b, hb, rfl⟩ := h
  rw [hk, hjoin, r6_of_low hd, r7_of_low ha, r7_of_low hb, ← hf, show (0x13 : BitVec 6) = fld w 26 6 from ho.symm, encA_fld]

theorem encode_of_decMatrixCtl {w : IWord} {i : Instr} (ho : fld w 26 6 = 0x13) (h : decMatrixCtl w = some i) : encode i = some w := by
  unfold decMatrixCtl at h
  split at h
  · exact encode_of_decTileMove h (fun _ _ _ _ => rfl) ho (BitVec.eq_of_toNat_eq ‹_›)
  · exact encode_of_decTileMove h (fun _ _ _ _ => rfl) ho (BitVec.eq_of_toNat_eq ‹_›)
  · next hn =>
    simp only [Option.bind_eq_some_iff, onlyIf_eq_some, beq_iff_eq] at h
    obtain ⟨n, hs, a, ha, hb, rfl⟩ := h
    have hw := encA_fld w
    rw [← append_of_low hs, ← r7_of_low ha, hb, ho, fld_eq_of_toNat hn] at hw
    exact congrArg some hw
  · exact encode_of_decRa h (fun _ => rfl) ho (BitVec.eq_of_toNat_eq ‹_›)
  · exact encode_of_decRa h (fun _ => rfl) ho (BitVec.eq_of_toNat_eq ‹_›)
  · exact encode_of_decRa h (fun _ => rfl) ho (BitVec.eq_of_toNat_eq ‹_›)
  · cases h

theorem encode_of_decPeer {w : IWord} {i : Instr} (ho : fld w 26 6 = 0x16) (hf : fld w 0 6 = 2) (h : decPeer w = some i) : encode i = some w := by
  simp only [decPeer, Option.bind_eq_some_iff, onlyIf_eq_some, beq_iff_eq] at h
  obtain ⟨d, hd, n, hn, hz, rfl⟩ := h
  have hb : 0#6 ++ BitVec.ofBool (fld w 6 1 == 1) = fld w 6 7 := by
    rw [ofBool_beq_one, show 0#6 = fld w 7 6 from hz.symm, fld_append_fld w 6 1 6 7 rfl]
  have hw := encA_fld w
  rw [← r6_of_low hd, ← r7_of_low hn, ← hb, ho, hf] at hw
  exact congrArg some hw

theorem encode_of_decPeerv {w : IWord} {i : Instr} (ho : fld w 26 6 = 0x16) (hf : fld w 0 6 = 3) (h : decPeerv w = some i) : encode i = some w := by
  simp only [decPeerv, Option.bind_eq_some_iff, onlyIf_eq_some, beq_iff_eq] at h
  obtain ⟨d, hd, n, hn, hz, rfl⟩ := h
  have hw := encA_fld w
  rw [← append_of_low hd, ← append_of_low hn, hz, ho, hf] at hw
  exact congrArg some hw

theorem encode_of_decMeeting {w : IWord} {i : Instr} (ho : fld w 26 6 = 0x16) (h : decMeeting w = some i) : encode i = some w := by
  unfold decMeeting at h
  split at h
  · exact encode_of_decR3 h (fun _ _ _ => rfl) ho (BitVec.eq_of_toNat_eq ‹_›)
  · exact encode_of_decR0 h rfl ho (BitVec.eq_of_toNat_eq ‹_›)
  · exact encode_of_decPeer ho (BitVec.eq_of_toNat_eq ‹_›) h
  · exact encode_of_decPeerv ho (BitVec.eq_of_toNat_eq ‹_›) h
  · exact encode_of_decR3 h (fun _ _ _ => rfl) ho (BitVec.eq_of_toNat_eq ‹_›)
  · exact encode_of_decR3 h (fun _ _ _ => rfl) ho (BitVec.eq_of_toNat_eq ‹_›)
  · exact encode_of_decR3 h (fun _ _ _ => rfl) ho (BitVec.eq_of_toNat_eq ‹_›)
  · exact encode_of_decR3 h (fun _ _ _ => rfl) ho (BitVec.eq_of_toNat_eq ‹_›)
  · exact encode_of_decR3 h (fun _ _ _ => rfl) ho (BitVec.eq_of_toNat_eq ‹_›)
  · exact encode_of_decR3 h (fun _ _ _ => rfl) ho (BitVec.eq_of_toNat_eq ‹_›)
  · exact encode_of_decR3 h (fun _ _ _ => rfl) ho (BitVec.eq_of_toNat_eq ‹_›)
  · exact encode_of_decR3 h (fun _ _ _ => rfl) ho (BitVec.eq_of_toNat_eq ‹_›)
  · exact encode_of_decR3 h (fun _ _ _ => rfl) ho (BitVec.eq_of_toNat_eq ‹_›)
  · cases h

theorem encode_of_decSys {w : IWord} {i : Instr} (ho : fld w 26 6 = 0x1C) (h : decSys w = some i) : encode i = some w := by
  have hw := encU_fld w
  rw [ho] at hw
  unfold decSys at h
  split at h
  · next hn =>
    obtain rfl := Option.some.inj h
    rw [fld_eq_of_toNat hn] at hw
    exact congrArg some hw
  · next hn =>
    simp only [onlyIf_eq_some, beq_iff_eq] at h
    obtain ⟨hz, rfl⟩ := h
    rw [fld_eq_of_toNat hn, hz] at hw
    exact congrArg some hw
  · next hn =>
    simp only [onlyIf_eq_some, beq_iff_eq] at h
    obtain ⟨hz, rfl⟩ := h
    rw [fld_eq_of_toNat hn, hz] at hw
    exact congrArg some hw
  · next hn =>
    obtain rfl := Option.some.inj h
    rw [fld_eq_of_toNat hn] at hw
    exact congrArg some hw
  · next hn =>
    obtain rfl := Option.some.inj h
    rw [fld_eq_of_toNat hn] at hw
    exact congrArg some hw
  · cases h

/-! The vector forms outside the shared formats. -/

theorem encode_of_decVbcast {w : IWord} {i : Instr} (h : decVbcast w = some i) (ho : fld w 26 6 = 0x2D) (hs : fld w 0 1 = 0) : encode i = some w := by
  simp only [decVbcast, Option.bind_eq_some_iff, onlyIf_eq_some, beq_iff_eq] at h
  obtain ⟨a, ha, hz, rfl⟩ := h
  have hw := encV_fld w
  rw [← vdstBits_vdstOf (fld w 21 5), ← xsrcBits_of_xsrcOf ha, hz, ho, hs] at hw
  exact congrArg some hw

theorem encode_of_decVred {w : IWord} {i : Instr} (h : decVred w = some i) (ho : fld w 26 6 = 0x2D) (hs : fld w 0 1 = 1) : encode i = some w := by
  simp only [decVred, Option.bind_eq_some_iff, onlyIf_eq_some, beq_iff_eq] at h
  obtain ⟨a, ha, hz, rfl⟩ := h
  have hb : 0#3 ++ fld w 9 3 = fld w 9 6 := by rw [show 0#3 = fld w 12 3 from hz.symm, fld_append_fld w 9 3 3 12 rfl]
  have hw := encV_fld w
  rw [← vdstBits_vdstOf (fld w 21 5), ← vsrcBits_of_vsrcOf ha, ← hb, ho, hs] at hw
  exact congrArg some hw

theorem encode_of_decVplane {w : IWord} {i : Instr} (h : decVplane w = some i) (ho : fld w 26 6 = 0x31) (hs : fld w 0 1 = 1) : encode i = some w := by
  simp only [decVplane, Option.bind_eq_some_iff, onlyIf_eq_some, beq_iff_eq] at h
  obtain ⟨a, ha, hz, rfl⟩ := h
  have hb : 0#1 ++ fld w 11 3 ++ BitVec.ofBool (fld w 10 1 == 1) ++ BitVec.ofBool (fld w 9 1 == 1) = fld w 9 6 := by
    rw [ofBool_beq_one, ofBool_beq_one, show 0#1 = fld w 14 1 from hz.symm, fld_append_fld w 11 3 1 14 rfl, fld_append_fld w 10 1 _ 11 rfl, fld_append_fld w 9 1 _ 10 rfl]
  have hw := encV_fld w
  rw [← vdstBits_vdstOf (fld w 21 5), ← vsrcBits_of_vsrcOf ha, ← hb, ho, hs] at hw
  exact congrArg some hw

/-- A form without type and mask holds zero there. -/
theorem decNoMask_eq_some {f : IWord → Option Instr} {w : IWord} {i : Instr} (h : decNoMask f w = some i) : fld w 4 5 = 0 ∧ fld w 1 3 = 0 ∧ f w = some i := by
  unfold decNoMask at h
  split at h
  · next hz => exact ⟨fld_eq_zero_of_fld_eq_zero hz 4 5 (by omega), fld_eq_zero_of_fld_eq_zero hz 1 3 (by omega), h⟩
  · cases h

theorem encode_of_decK3 {s : BitVec 1} {k} {w : IWord} {i : Instr} (h : decNoMask (decK3 k) w = some i)
    (hk : ∀ d a b, encode (k d a b) = some (encV 0x39 (0#2 ++ d) (0#3 ++ a) (0#3 ++ b) 0 0 s)) (ho : fld w 26 6 = 0x39) (hs : fld w 0 1 = s) :
    encode i = some w := by
  obtain ⟨ht, hm, h⟩ := decNoMask_eq_some h
  simp only [decK3, Option.bind_eq_some_iff, Option.some.injEq] at h
  obtain ⟨d, hd, a, ha, b, hb, rfl⟩ := h
  have hw := encV_fld w
  rw [← append_of_low hd, ← append_of_low ha, ← append_of_low hb, ht, hm, ho, hs] at hw
  rw [hk]
  exact congrArg some hw

theorem encode_of_decKnot {w : IWord} {i : Instr} (h : decNoMask decKnot w = some i) (ho : fld w 26 6 = 0x3A) (hs : fld w 0 1 = 0) : encode i = some w := by
  obtain ⟨ht, hm, h⟩ := decNoMask_eq_some h
  simp only [decKnot, Option.bind_eq_some_iff, onlyIf_eq_some, beq_iff_eq] at h
  obtain ⟨d, hd, a, ha, hb, rfl⟩ := h
  have hw := encV_fld w
  rw [← append_of_low hd, ← append_of_low ha, hb, ht, hm, ho, hs] at hw
  exact congrArg some hw

theorem encode_of_decKpopc {w : IWord} {i : Instr} (h : decNoMask decKpopc w = some i) (ho : fld w 26 6 = 0x3A) (hs : fld w 0 1 = 1) : encode i = some w := by
  obtain ⟨ht, hm, h⟩ := decNoMask_eq_some h
  simp only [decKpopc, Option.bind_eq_some_iff, onlyIf_eq_some, beq_iff_eq] at h
  obtain ⟨a, ha, hb, rfl⟩ := h
  have hw := encV_fld w
  rw [← xdstBits_xdstOf (fld w 21 5), ← append_of_low ha, hb, ht, hm, ho, hs] at hw
  exact congrArg some hw

theorem encode_of_decSetfmt {w : IWord} {i : Instr} (h : decNoMask decSetfmt w = some i) (ho : fld w 26 6 = 0x3B) (hs : fld w 0 1 = 0) : encode i = some w := by
  obtain ⟨ht, hm, h⟩ := decNoMask_eq_some h
  simp only [decSetfmt, Option.bind_eq_some_iff, onlyIf_eq_some, beq_iff_eq] at h
  obtain ⟨n, hn, a, ha, hb, rfl⟩ := h
  have hw := encV_fld w
  rw [← append_of_low hn, ← xsrcBits_of_xsrcOf ha, hb, ht, hm, ho, hs] at hw
  exact congrArg some hw

theorem encode_of_decRepf {w : IWord} {i : Instr} (h : decNoMask decRepf w = some i) (ho : fld w 26 6 = 0x3B) (hs : fld w 0 1 = 1) : encode i = some w := by
  obtain ⟨ht, hm, h⟩ := decNoMask_eq_some h
  simp only [decRepf, Option.bind_eq_some_iff, Option.some.injEq] at h
  obtain ⟨l, hl, a, ha, b, hb, rfl⟩ := h
  have hw := encV_fld w
  rw [← append_of_low hl, ← xsrcBits_of_xsrcOf ha, ← xsrcBits_of_xsrcOf hb, ht, hm, ho, hs] at hw
  exact congrArg some hw

/-- Row `n` of Table 05-7 is major 0x20 + n / 2 with sub bit n % 2. -/
theorem encode_of_decVector {n : Nat} {w : IWord} {i : Instr} (hm : (fld w 26 6).toNat = 32 + n / 2) (hsub : (fld w 0 1).toNat = n % 2)
    (h : decVector n w = some i) : encode i = some w := by
  have ho := fld_eq_of_toNat hm
  have hs := fld_eq_of_toNat hsub
  unfold decVector at h
  split at h
  · exact encode_of_decV3 h (fun _ _ _ _ _ => rfl) ho hs
  · exact encode_of_decV3 h (fun _ _ _ _ _ => rfl) ho hs
  · exact encode_of_decV3 h (fun _ _ _ _ _ => rfl) ho hs
  · exact encode_of_decV3 h (fun _ _ _ _ _ => rfl) ho hs
  · exact encode_of_decV3 h (fun _ _ _ _ _ => rfl) ho hs
  · exact encode_of_decV3 h (fun _ _ _ _ _ => rfl) ho hs
  · exact encode_of_decVs3 h (fun _ _ _ _ _ => rfl) ho hs
  · exact encode_of_decVs3 h (fun _ _ _ _ _ => rfl) ho hs
  · exact encode_of_decV3 h (fun _ _ _ _ _ => rfl) ho hs
  · exact encode_of_decVm1 h (fun _ _ _ _ _ => rfl) ho hs
  · exact encode_of_decV3 h (fun _ _ _ _ _ => rfl) ho hs
  · exact encode_of_decV3 h (fun _ _ _ _ _ => rfl) ho hs
  · exact encode_of_decVm1 h (fun _ _ _ _ _ => rfl) ho hs
  · exact encode_of_decVm0 h (fun _ _ _ _ => rfl) ho hs
  · exact encode_of_decV3 h (fun _ _ _ _ _ => rfl) ho hs
  · exact encode_of_decV3 h (fun _ _ _ _ _ => rfl) ho hs
  · exact encode_of_decV3 h (fun _ _ _ _ _ => rfl) ho hs
  · exact encode_of_decV3 h (fun _ _ _ _ _ => rfl) ho hs
  · exact encode_of_decV3 h (fun _ _ _ _ _ => rfl) ho hs
  · exact encode_of_decV3 h (fun _ _ _ _ _ => rfl) ho hs
  · exact encode_of_decV3 h (fun _ _ _ _ _ => rfl) ho hs
  · exact encode_of_decV3 h (fun _ _ _ _ _ => rfl) ho hs
  · exact encode_of_decVk3 h (fun _ _ _ _ _ => rfl) ho hs
  · exact encode_of_decVk3 h (fun _ _ _ _ _ => rfl) ho hs
  · exact encode_of_decVk3 h (fun _ _ _ _ _ => rfl) ho hs
  · exact encode_of_decVk3 h (fun _ _ _ _ _ => rfl) ho hs
  · exact encode_of_decVbcast h ho hs
  · exact encode_of_decVred h ho hs
  · exact encode_of_decVm h (fun _ _ _ _ _ => rfl) ho hs
  · exact encode_of_decVm h (fun _ _ _ _ _ => rfl) ho hs
  · exact encode_of_decV3 h (fun _ _ _ _ _ => rfl) ho hs
  · exact encode_of_decVx h (fun _ _ _ _ _ => rfl) ho hs
  · exact encode_of_decV3 h (fun _ _ _ _ _ => rfl) ho hs
  · exact encode_of_decV3 h (fun _ _ _ _ _ => rfl) ho hs
  · exact encode_of_decVs3 h (fun _ _ _ _ _ => rfl) ho hs
  · exact encode_of_decVplane h ho hs
  · exact encode_of_decVx h (fun _ _ _ _ _ => rfl) ho hs
  · exact encode_of_decVx h (fun _ _ _ _ _ => rfl) ho hs
  · exact encode_of_decVm0 h (fun _ _ _ _ => rfl) ho hs
  · exact encode_of_decVm0 h (fun _ _ _ _ => rfl) ho hs
  · exact encode_of_decVm0 h (fun _ _ _ _ => rfl) ho hs
  · exact encode_of_decVm0 h (fun _ _ _ _ => rfl) ho hs
  · exact encode_of_decVm0 h (fun _ _ _ _ => rfl) ho hs
  · exact encode_of_decVm0 h (fun _ _ _ _ => rfl) ho hs
  · exact encode_of_decVl (bits := fun _ => 0) zero_of_noSrc h (fun _ _ _ _ _ => rfl) ho hs
  · exact encode_of_decVst (bits := fun _ => 0) zero_of_noSrc h (fun _ _ _ _ _ => rfl) ho hs
  · exact encode_of_decVl xsrcBits_of_xsrcOf h (fun _ _ _ _ _ => rfl) ho hs
  · exact encode_of_decVst xsrcBits_of_xsrcOf h (fun _ _ _ _ _ => rfl) ho hs
  · exact encode_of_decVl vsrcBits_of_vsrcOf h (fun _ _ _ _ _ => rfl) ho hs
  · exact encode_of_decVst vsrcBits_of_vsrcOf h (fun _ _ _ _ _ => rfl) ho hs
  · exact encode_of_decK3 h (fun _ _ _ => rfl) ho hs
  · exact encode_of_decK3 h (fun _ _ _ => rfl) ho hs
  · exact encode_of_decKnot h ho hs
  · exact encode_of_decKpopc h ho hs
  · exact encode_of_decSetfmt h ho hs
  · exact encode_of_decRepf h ho hs
  · cases h

/-! The major map (Tables 05-2 to 05-7). -/

/-- No word is read as an instruction it does not encode. -/
theorem encode_of_decodeRaw {w : IWord} {i : Instr} (h : decodeRaw w = some i) : encode i = some w := by
  unfold decodeRaw at h
  split at h
  · exact encode_of_decOp (BitVec.eq_of_toNat_eq ‹_›) h
  · exact encode_of_decI h (fun _ _ _ => rfl) (BitVec.eq_of_toNat_eq ‹_›)
  · exact encode_of_decI h (fun _ _ _ => rfl) (BitVec.eq_of_toNat_eq ‹_›)
  · exact encode_of_decI h (fun _ _ _ => rfl) (BitVec.eq_of_toNat_eq ‹_›)
  · exact encode_of_decI h (fun _ _ _ => rfl) (BitVec.eq_of_toNat_eq ‹_›)
  · exact encode_of_decShiftI (BitVec.eq_of_toNat_eq ‹_›) h
  · exact encode_of_decI h (fun _ _ _ => rfl) (BitVec.eq_of_toNat_eq ‹_›)
  · exact encode_of_decI h (fun _ _ _ => rfl) (BitVec.eq_of_toNat_eq ‹_›)
  · exact encode_of_decU h (fun _ _ => rfl) (BitVec.eq_of_toNat_eq ‹_›)
  · exact encode_of_decU h (fun _ _ => rfl) (BitVec.eq_of_toNat_eq ‹_›)
  · exact encode_of_decBranch (BitVec.eq_of_toNat_eq ‹_›) h
  · exact encode_of_decU h (fun _ _ => rfl) (BitVec.eq_of_toNat_eq ‹_›)
  · exact encode_of_decS h (fun _ _ _ => rfl) (BitVec.eq_of_toNat_eq ‹_›)
  · exact encode_of_decLoad (BitVec.eq_of_toNat_eq ‹_›) h
  · exact encode_of_decStore (BitVec.eq_of_toNat_eq ‹_›) h
  · exact encode_of_decAmo (BitVec.eq_of_toNat_eq ‹_›) h
  · exact encode_of_decSync (BitVec.eq_of_toNat_eq ‹_›) h
  · exact encode_of_decMatrix (BitVec.eq_of_toNat_eq ‹_›) h
  · exact encode_of_decMatrixCtl (BitVec.eq_of_toNat_eq ‹_›) h
  · exact encode_of_decTile (BitVec.eq_of_toNat_eq ‹_›) h
  · exact encode_of_decEngine (BitVec.eq_of_toNat_eq ‹_›) h
  · exact encode_of_decMeeting (BitVec.eq_of_toNat_eq ‹_›) h
  · exact encode_of_decTask (BitVec.eq_of_toNat_eq ‹_›) h
  · exact encode_of_decS1 h (fun _ _ => rfl) (BitVec.eq_of_toNat_eq ‹_›)
  · exact encode_of_decS h (fun _ _ _ => rfl) (BitVec.eq_of_toNat_eq ‹_›)
  · exact encode_of_decS h (fun _ _ _ => rfl) (BitVec.eq_of_toNat_eq ‹_›)
  · exact encode_of_decS h (fun _ _ _ => rfl) (BitVec.eq_of_toNat_eq ‹_›)
  · exact encode_of_decSys (BitVec.eq_of_toNat_eq ‹_›) h
  · next hm =>
    split at h
    · cases h
    · have hsub : (fld w 0 1).toNat < 2 := (fld w 0 1).isLt
      exact encode_of_decVector (by omega) (by omega) h

/-- What a word decodes to has passed the checks of its operands. -/
theorem decode_eq_some_iff {w : IWord} {i : Instr} : decode w = some i ↔ decodeRaw w = some i ∧ wellFormed i = true := by
  simp only [decode, Option.bind_eq_some_iff]
  constructor
  · rintro ⟨j, hraw, hj⟩
    split at hj
    · next hwf => cases hj; exact ⟨hraw, hwf⟩
    · cases hj
  · rintro ⟨hraw, hwf⟩
    exact ⟨i, hraw, if_pos hwf⟩

/-- Settles O26: the decoder refuses what is not well-formed, and each row of its tables writes back the word it reads. -/
theorem encodeOfDecodeIsTheWord : Obligations.EncodeOfDecodeIsTheWord := by
  unfold Obligations.EncodeOfDecodeIsTheWord
  intro w i h
  obtain ⟨hraw, hwf⟩ := decode_eq_some_iff.mp h
  exact ⟨hwf, encode_of_decodeRaw hraw⟩

end Sys2Proof
end


section
/-!
PROOFS. The bytes of the package: which operations leave every byte of memory as it was.
-/

namespace Sys2Proof.Machine

/-- The bytes of the package: HBM, the host window, and each cluster's scratchpad. -/
def State.bytes (s : State) : Memory × Memory × (Nat → Memory) := (s.mem, s.hostMem, fun cl => (s.clu cl).spad)

/-- A state with the same bytes reads the same everywhere. -/
theorem State.sameBytes_of_bytes {s t : State} (h : t.bytes = s.bytes) : s.sameBytes t := by
  obtain ⟨hmem, hhost, hspad⟩ : t.mem = s.mem ∧ t.hostMem = s.hostMem ∧ (fun cl => (t.clu cl).spad) = fun cl => (s.clu cl).spad := by
    simpa [State.bytes] using h
  exact fun a n => ⟨by simp only [State.physRead, hmem, hhost], fun cl => by simp only [State.spadRead, congrFun hspad cl]⟩

/-- A state with the same bytes is as canonical. -/
theorem State.inv_of_bytes {s t : State} (hs : s.Inv) (h : t.bytes = s.bytes) : t.Inv := by
  obtain ⟨hmem, hhost, hspad⟩ : t.mem = s.mem ∧ t.hostMem = s.hostMem ∧ (fun cl => (t.clu cl).spad) = fun cl => (s.clu cl).spad := by
    simpa [State.bytes] using h
  obtain ⟨h1, h2, h3⟩ := hs
  exact ⟨hmem ▸ h1, hhost ▸ h2, fun cl => congrFun hspad cl ▸ h3 cl⟩

@[simp] theorem State.bytes_ite (c : Prop) [Decidable c] (s t : State) : (if c then s else t).bytes = if c then s.bytes else t.bytes :=
  apply_ite State.bytes c s t

/-- Steps that move no byte, taken one after another, move none. -/
@[simp] theorem State.bytes_foldl {α : Type} (f : State → α → State) (l : List α) (s : State) (h : ∀ s a, (f s a).bytes = s.bytes) :
    (l.foldl f s).bytes = s.bytes := by
  induction l generalizing s with
  | nil => rfl
  | cons a l ih => exact (ih (f s a)).trans (h s a)

@[simp] theorem State.bytes_modClu (s : State) (cl : Nat) (f : Cluster → Cluster) (h : (f (s.clu cl)).spad = (s.clu cl).spad) : (s.modClu cl f).bytes = s.bytes := by
  have hspad : ∀ c, ((s.modClu cl f).clu c).spad = (s.clu c).spad := by
    intro c
    rw [State.modClu_clu]
    split
    · next hc => rw [hc, h]
    · rfl
  simp only [State.bytes, funext hspad]
  rfl

/-- A change of other parts moves no byte. -/
@[simp] theorem State.bytes_mk (s : State) {ctxs cores reqs parts stations taintTab acctq farCopies poison traces banks links outs gens dups arrived respAcks invals subs drains credits net queues launches streams posts snaps saved nacks answers faultLog entryLog boot fuse hostRead mgmtRead now cur served lost owed taken agenda free nextId} :
    State.bytes ⟨ctxs, cores, s.clus, s.mem, s.hostMem, reqs, parts, stations, taintTab, acctq, farCopies, poison, traces, banks, links, outs, gens, dups, arrived, respAcks, invals, subs, drains, credits, net, queues, launches, streams, posts, snaps, saved, nacks, answers, faultLog, entryLog, boot, fuse, hostRead, mgmtRead, now, cur, served, lost, owed, taken, agenda, free, nextId⟩ = s.bytes := by
  simp only [State.bytes, State.clu]

/-- Changing the entries of a table, and no number, changes what each number reads as. -/
theorem Tab.get_map {α β : Type} (d : α) (d' : β) (g : Nat × α → β) (h : ∀ k, g (k, d) = d') (t : Tab α) (k : Nat) :
    Tab.get d' (t.map fun e => (e.1, g e)) k = g (k, Tab.get d t k) := by
  induction t with
  | nil => exact (h k).symm
  | cons e t ih =>
    simp only [List.map_cons, Tab.get]
    split
    · next hk => rw [← hk]
    · exact ih

/-- Changing every listed cluster but for its bytes leaves the bytes. -/
theorem Tab.spad_get_map (g : Nat × Cluster → Cluster) (h : ∀ e, (g e).spad = e.2.spad) (t : Tab Cluster) (cl : Nat) :
    (Tab.get {} (t.map fun e => (e.1, g e)) cl).spad = (Tab.get {} t cl).spad := by
  induction t with
  | nil => rfl
  | cons e t ih =>
    simp only [List.map_cons, Tab.get]
    split
    · exact h e
    · exact ih

/-- A change of the clusters but for their scratchpads, with other parts, moves no byte. -/
theorem State.bytes_mkClus (s : State) (t : Tab Cluster) (h : ∀ cl, (Tab.get {} t cl).spad = (Tab.get {} s.clus cl).spad) {ctxs cores reqs parts stations taintTab acctq farCopies poison traces banks links outs gens dups arrived respAcks invals subs drains credits net queues launches streams posts snaps saved nacks answers faultLog entryLog boot fuse hostRead mgmtRead now cur served lost owed taken agenda free nextId} :
    State.bytes ⟨ctxs, cores, t, s.mem, s.hostMem, reqs, parts, stations, taintTab, acctq, farCopies, poison, traces, banks, links, outs, gens, dups, arrived, respAcks, invals, subs, drains, credits, net, queues, launches, streams, posts, snaps, saved, nacks, answers, faultLog, entryLog, boot, fuse, hostRead, mgmtRead, now, cur, served, lost, owed, taken, agenda, free, nextId⟩ = s.bytes := by
  simp only [State.bytes, State.clu, h]
/-! One lemma per operation that moves no byte, in the order of the model. -/

@[simp] theorem State.bytes_modCtx (s : State) (sid : Nat) (f : Ctx → Ctx) : (s.modCtx sid f).bytes = s.bytes := rfl

@[simp] theorem State.bytes_upd (s : State) (f : Ctx → Ctx) : (s.upd f).bytes = s.bytes := rfl

@[simp] theorem State.bytes_modHolder (s : State) (sid : Nat) (f : Ctx → Ctx) : (s.modHolder sid f).bytes = s.bytes := by
  simp [State.modHolder]

@[simp] theorem State.bytes_modCore (s : State) (ci : Nat) (f : CoreSt → CoreSt) : (s.modCore ci f).bytes = s.bytes := rfl

@[simp] theorem State.bytes_updCore (s : State) (f : CoreSt → CoreSt) : (s.updCore f).bytes = s.bytes := rfl

@[simp] theorem State.bytes_modPart (s : State) (p : Nat) (f : Part → Part) : (s.modPart p f).bytes = s.bytes := rfl

@[simp] theorem State.bytes_adv (s : State) : (s.adv).bytes = s.bytes := rfl

@[simp] theorem State.bytes_send (s : State) (at_ : Nat) (b : MsgBody) : (s.send at_ b).bytes = s.bytes := rfl

@[simp] theorem State.bytes_addNacks (s : State) (l : List Nack) : (s.addNacks l).bytes = s.bytes := rfl

@[simp] theorem State.bytes_request (s : State) (kind : ReqKind) (stage : ReqStage) (va size pa data be expect : Nat) : (s.request kind stage va size pa data be expect).bytes = s.bytes := rfl

@[simp] theorem State.bytes_modReq (s : State) (id : Nat) (f : Req → Req) : (s.modReq id f).bytes = s.bytes := rfl

@[simp] theorem State.bytes_dropReq (s : State) (id : Nat) : (s.dropReq id).bytes = s.bytes := rfl

@[simp] theorem State.bytes_addRecord (s : State) (a : AcctRec) : (s.addRecord a).bytes = s.bytes := rfl

@[simp] theorem State.bytes_enterRecords (s : State) : (s.enterRecords).bytes = s.bytes := by
  simp [State.enterRecords]

@[simp] theorem State.bytes_closeRunAt (s : State) (sid made : Nat) : (s.closeRunAt sid made).bytes = s.bytes := by
  unfold State.closeRunAt
  dsimp only
  split <;> simp

@[simp] theorem State.bytes_closeRun (s : State) (sid : Nat) : (s.closeRun sid).bytes = s.bytes := by
  simp [State.closeRun]

@[simp] theorem State.bytes_runCycle (s : State) (sid : Nat) (k : Cause) (pc : BitVec 56) : (s.runCycle sid k pc).bytes = s.bytes := by
  unfold State.runCycle
  dsimp only
  repeat' split
  all_goals simp

@[simp] theorem State.bytes_lastCycle (s : State) (sid : Nat) : (s.lastCycle sid).bytes = s.bytes := by
  simp [State.lastCycle]

@[simp] theorem State.bytes_moveReqs (s : State) (sid to_ : Nat) : (s.moveReqs sid to_).bytes = s.bytes := rfl

@[simp] theorem State.bytes_setHorizon (s : State) (id n : Nat) : (s.setHorizon id n).bytes = s.bytes := rfl

@[simp] theorem State.bytes_partInPlace (s : State) (sid : Nat) (m : Meeting) (npc : BitVec 56) (tr : Option TrapInfo) (dep : Nat) : (s.partInPlace sid m npc tr dep).bytes = s.bytes := by
  simp [State.partInPlace]

@[simp] theorem State.bytes_partVisitor (s0 : State) (sid : Nat) (m : Meeting) (npc : BitVec 56) (tr : Option TrapInfo) (dep : Nat) : (s0.partVisitor sid m npc tr dep).bytes = s0.bytes := by
  simp [State.partVisitor]

@[simp] theorem State.bytes_partEffect (s : State) (sid : Nat) (npc : BitVec 56) (tr : Option TrapInfo) (dep : Nat) : (s.partEffect sid npc tr dep).bytes = s.bytes := by
  unfold State.partEffect
  split <;> simp

@[simp] theorem State.bytes_partTakes (s : State) (sid : Nat) (m : Meeting) : (s.partTakes sid m).bytes = s.bytes := by
  simp [State.partTakes]

@[simp] theorem State.bytes_trapBegins (s : State) (sid : Nat) : (s.trapBegins sid).bytes = s.bytes := by
  unfold State.trapBegins
  split <;> simp

@[simp] theorem State.bytes_stopFrame (s : State) (sid : Nat) : (s.stopFrame sid).bytes = s.bytes := rfl

@[simp] theorem State.bytes_trapAs (s : State) (sid : Nat) (own async : Bool) (t : Trap) (tval : Word) (epc : BitVec 56) : (s.trapAs sid own async t tval epc).bytes = s.bytes := by
  unfold State.trapAs
  repeat' split
  all_goals simp

@[simp] theorem State.bytes_trapOf (s : State) (sid : Nat) (t : Trap) (tval : Word) (epc : BitVec 56) : (s.trapOf sid t tval epc).bytes = s.bytes := by
  simp [State.trapOf]

@[simp] theorem State.bytes_trapHead (s : State) (sid : Nat) (t : Trap) (tval : Word) (epc : BitVec 56) : (s.trapHead sid t tval epc).bytes = s.bytes := by
  simp [State.trapHead]

@[simp] theorem State.bytes_trap (s : State) (t : Trap) (tval : Word) (epc : BitVec 56) : (s.trap t tval epc).bytes = s.bytes := by
  simp [State.trap]

@[simp] theorem State.bytes_issued (s : State) (port : Bool) : (s.issued port).bytes = s.bytes := by
  simp [State.issued]

@[simp] theorem State.bytes_clearRecord (s : State) (b n : Nat) : (s.clearRecord b n).bytes = s.bytes := rfl

@[simp] theorem State.bytes_accept (s : State) (pa : Nat) : (s.accept pa).bytes = s.bytes := by
  simp [State.accept]

@[simp] theorem State.bytes_invalidate (s : State) (by_ : Option (Nat × Nat)) (pa : Nat) : (s.invalidate by_ pa).bytes = s.bytes := by
  unfold State.invalidate
  dsimp only
  split
  · simp
  · exact State.bytes_foldl _ _ _ fun s a => by simp

@[simp] theorem State.bytes_unpoison (s : State) (rs : List (Nat × Nat)) : (s.unpoison rs).bytes = s.bytes := rfl

@[simp] theorem State.bytes_cacheXlat (s : State) (st : Nat) (x : Xlat) : (s.cacheXlat st x).bytes = s.bytes := rfl

@[simp] theorem State.bytes_walked (s : State) (st part : Nat) (pid : BitVec 16) (va : Nat) : (s.walked st part pid va).bytes = s.bytes := by
  unfold State.walked
  split <;> simp

@[simp] theorem State.bytes_xlatDone (s : State) (part : Nat) (pid : BitVec 16) (sid : Nat) (vas : List Nat) : (s.xlatDone part pid sid vas).bytes = s.bytes := rfl

@[simp] theorem State.bytes_modEng (s : State) (sid e : Nat) (f : StreamEng → StreamEng) : (s.modEng sid e f).bytes = s.bytes := rfl

@[simp] theorem State.bytes_pushTarget (s : State) (sid v : Nat) (t : Target) : (s.pushTarget sid v t).bytes = s.bytes := by
  cases t <;> simp [State.pushTarget]

@[simp] theorem State.bytes_landWrites (s : State) (sid : Nat) : (s.landWrites sid).bytes = s.bytes := by
  simp [State.landWrites]

@[simp] theorem State.bytes_writeChan (s : State) (sid ser at_ : Nat) (n : BitVec 5) (v : Option Nat) : (s.writeChan sid ser at_ n v).bytes = s.bytes := by
  simp [State.writeChan]

@[simp] theorem State.bytes_fillChan (s : State) (sid ser at_ v : Nat) (mem : Bool := false) : (s.fillChan sid ser at_ v mem).bytes = s.bytes := by
  simp [State.fillChan]

@[simp] theorem State.bytes_landAll (s : State) : (s.landAll).bytes = s.bytes := by
  simp [State.landAll]

@[simp] theorem State.bytes_unpop (s : State) (sid d : Nat) (v : Word) : (s.unpop sid d v).bytes = s.bytes := by
  unfold State.unpop
  split <;> simp

@[simp] theorem State.bytes_popTarget (s : State) (sid n : Nat) (t : Target) : (s.popTarget sid n t).bytes = s.bytes := by
  cases t <;> simp [State.popTarget]

@[simp] theorem State.bytes_popAll (s : State) (sid : Nat) (taken : List Target) : (s.popAll sid taken).bytes = s.bytes := by
  simp [State.popAll]

@[simp] theorem State.bytes_writeDst (s : State) (l : Nat) (d : Dst) (v : Word) : (s.writeDst l d v).bytes = s.bytes := by
  unfold State.writeDst
  split <;> simp

@[simp] theorem State.bytes_wakeTags (s : State) (cl n : Nat) (all : Bool) (v : Word) : (s.wakeTags cl n all v).bytes = s.bytes := by
  unfold State.wakeTags
  refine State.bytes_foldl _ _ _ fun s a => ?_
  split
  · split
    · exact (State.bytes_modClu _ _ _ rfl).trans (by simp)
    · rfl
  · rfl

@[simp] theorem State.bytes_putTag (s : State) (cl n : Nat) (w : Word) (taints : List Nat := []) : (s.putTag cl n w taints).bytes = s.bytes := by
  simp [State.putTag]

@[simp] theorem State.bytes_creditTag (s : State) (cl n bytes : Nat) (taints : List Nat := []) : (s.creditTag cl n bytes taints).bytes = s.bytes := by
  simp [State.creditTag]

@[simp] theorem State.bytes_expectTag (s : State) (cl n bytes : Nat) (taints : List Nat := []) : (s.expectTag cl n bytes taints).bytes = s.bytes := by
  simp [State.expectTag]

@[simp] theorem State.bytes_modRing (s : State) (ci n : Nat) (f : Ring → Ring) : (s.modRing ci n f).bytes = s.bytes := rfl

@[simp] theorem State.bytes_popRing (s : State) (ci n : Nat) (taints : List Nat) : (s.popRing ci n taints).bytes = s.bytes := by
  simp [State.popRing]

@[simp] theorem State.bytes_tagWrite (s : State) (cl off size v : Nat) (taints : List Nat := []) : (s.tagWrite cl off size v taints).bytes = s.bytes := by
  simp [State.tagWrite]

@[simp] theorem State.bytes_deliverAt (s : State) (sid ser at_ : Nat) (d : Dst) (v : Word) : (s.deliverAt sid ser at_ d v).bytes = s.bytes := by
  cases d <;> simp [State.deliverAt]

@[simp] theorem State.bytes_awaitDst (s : State) (d : Dst) (k : Cause) : (s.awaitDst d k).bytes = s.bytes := by
  unfold State.awaitDst
  split <;> simp

@[simp] theorem State.bytes_wakeAll (s : State) (ws : List Waiter) : (s.wakeAll ws).bytes = s.bytes := by
  unfold State.wakeAll
  exact State.bytes_foldl _ _ _ fun s w => by simp

@[simp] theorem State.bytes_setShape (s : State) (sid : Nat) (n : BitVec 3) (at_ v : Nat) : (s.setShape sid n at_ v).bytes = s.bytes := by
  simp [State.setShape]

@[simp] theorem State.bytes_vecWrite (s : State) (sid ser at_ : Nat) (frame : Bool) (n : BitVec 4) (v : Nat) : (s.vecWrite sid ser at_ frame n v).bytes = s.bytes := by
  simp [State.vecWrite]

@[simp] theorem State.bytes_popAllV (s : State) (sid : Nat) (taken : List Target) : (s.popAllV sid taken).bytes = s.bytes := by
  simp [State.popAllV]

@[simp] theorem State.bytes_vecRequest (s : State) (e : SeqEntry) (kind : ReqKind) (stage : ReqStage) (line data be bits : Nat) : (s.vecRequest e kind stage line data be bits).bytes = s.bytes := rfl

@[simp] theorem State.bytes_holdLine (s : State) (e : SeqEntry) (l : VLine) : (s.holdLine e l).bytes = s.bytes := rfl

@[simp] theorem State.bytes_askLines (s : State) (e : SeqEntry) (store : Bool) (ps : List (VPiece × VPlace)) : (s.askLines e store ps).bytes = s.bytes := by
  unfold State.askLines
  exact State.bytes_foldl _ _ _ fun s w => by simp

@[simp] theorem State.bytes_enqueueV (s : State) (e : SeqEntry) (h : VShape) : (s.enqueueV e h).bytes = s.bytes := by
  simp [State.enqueueV]

@[simp] theorem State.bytes_dropHead (s : State) (ci : Nat) : (s.dropHead ci).bytes = s.bytes := rfl

@[simp] theorem State.bytes_modHead (s : State) (ci : Nat) (f : SeqEntry → SeqEntry) : (s.modHead ci f).bytes = s.bytes := rfl

@[simp] theorem State.bytes_applyV (s : State) (sid ser at_ : Nat) (frame : Bool) (f : VEffect) : (s.applyV sid ser at_ frame f).bytes = s.bytes := by
  unfold State.applyV
  split <;> simp

@[simp] theorem State.bytes_vecPerform (s : State) (e : SeqEntry) (h : VShape) (env : VEnv) (seed : Nat) (a b : VReg) (taken : List Target) : (s.vecPerform e h env seed a b taken).bytes = s.bytes := by
  simp [State.vecPerform]

@[simp] theorem State.bytes_touch (s : State) (sid : Nat) : (s.touch sid).bytes = s.bytes := by
  unfold State.touch
  dsimp only
  split <;> simp

@[simp] theorem State.bytes_capComplete (s : State) (sid : Nat) (f : Capture) : (s.capComplete sid f).bytes = s.bytes := by
  unfold State.capComplete
  dsimp only
  repeat' split
  all_goals simp

@[simp] theorem State.bytes_capWord (s : State) (sid : Nat) (f : Capture) : (s.capWord sid f).bytes = s.bytes := by
  unfold State.capWord
  repeat' split
  all_goals simp

@[simp] theorem State.bytes_capStep (s : State) (sid : Nat) : (s.capStep sid).bytes = s.bytes := by
  unfold State.capStep
  repeat' split
  all_goals simp

@[simp] theorem State.bytes_csrWrite (s : State) (sid : Nat) (n : Nat) (v : Word) : (s.csrWrite sid n v).bytes = s.bytes := by
  unfold State.csrWrite
  split <;> simp

@[simp] theorem State.bytes_unstrand (s : State) (sid : Nat) : (s.unstrand sid).bytes = s.bytes := by
  simp [State.unstrand]

@[simp] theorem State.bytes_askRidx (s : State) : (s.askRidx).bytes = s.bytes := by
  unfold State.askRidx
  split
  · exact (State.bytes_foldl _ _ _ fun s a => by simp).trans (by simp)
  · rfl

@[simp] theorem State.bytes_keepViews (s : State) : (s.keepViews).bytes = s.bytes := by
  unfold State.keepViews
  split
  · rfl
  · refine s.bytes_mkClus _ (Tab.spad_get_map (fun e => { e.2 with ckpts := _ }) (fun _ => ?_) _)
    rfl

@[simp] theorem State.bytes_tick (s : State) : (s.tick).bytes = s.bytes := by
  unfold State.tick
  simp only [State.bytes_askRidx, State.bytes_landAll, State.bytes_mk, State.bytes_enterRecords]
  refine (State.bytes_foldl _ _ _ fun s a => ?_).trans (by simp)
  split <;> simp

@[simp] theorem State.bytes_acctSeen (s : State) (ci part : Nat) (pid : BitVec 16) (vas : List Nat) : (s.acctSeen ci part pid vas).bytes = s.bytes := rfl

@[simp] theorem State.bytes_beginStall (s : State) (a : AcctRec) (free : Nat) : (s.beginStall a free).bytes = s.bytes := by
  simp [State.beginStall]

@[simp] theorem State.bytes_bankIssue (s : State) (a : BankAccess) (d : Option Dst) : (s.bankIssue a d).bytes = s.bytes := by
  unfold State.bankIssue
  split <;> simp

@[simp] theorem State.bytes_acquires (s : State) (acq : Bool) (k : Cause) : (s.acquires acq k).bytes = s.bytes := by
  simp [State.acquires]

@[simp] theorem State.bytes_takeOwner (s : State) : (s.takeOwner).bytes = s.bytes := rfl

@[simp] theorem State.bytes_modPortHead (s : State) (ci : Nat) (f : PortEntry → PortEntry) : (s.modPortHead ci f).bytes = s.bytes := rfl

@[simp] theorem State.bytes_zeroAcc (s : State) (ci : Nat) (c : BitVec 2) : (s.zeroAcc ci c).bytes = s.bytes := rfl

@[simp] theorem State.bytes_modArr (s : State) (cl : Nat) (f : MatArray → MatArray) : (s.modArr cl f).bytes = s.bytes := by
  simp [State.modArr]

@[simp] theorem State.bytes_stepRead (s : State) (ci : Nat) (p : PortEntry) : (s.stepRead ci p).bytes = s.bytes := by
  simp [State.stepRead]

@[simp] theorem State.bytes_clearWait (s : State) (sid t : Nat) : (s.clearWait sid t).bytes = s.bytes := by
  simp [State.clearWait]

@[simp] theorem State.bytes_postEntry (s : State) (ci tag : Nat) (w0 w1 : Word) : (s.postEntry ci tag w0 w1).bytes = s.bytes := rfl

@[simp] theorem State.bytes_modXfer (s : State) (ci : Nat) (xid : BitVec 32) (f : Xfer → Xfer) : (s.modXfer ci xid f).bytes = s.bytes := rfl

@[simp] theorem State.bytes_engineReads (s : State) (cl : Nat) (rd : List Nat) : (s.engineReads cl rd).bytes = s.bytes := by
  simp [State.engineReads]

@[simp] theorem State.bytes_addCredit (s : State) (ci : Nat) (xid : BitVec 32) (dst tag bytes : Nat) (data : Option (Nat × Nat)) : (s.addCredit ci xid dst tag bytes data).bytes = s.bytes := rfl

@[simp] theorem State.bytes_setUnits (s : State) (cl r : Nat) (l : List EngineLeft) : (s.setUnits cl r l).bytes = s.bytes := by
  simp [State.setUnits]

@[simp] theorem State.bytes_dropUnit (s : State) (cl r : Nat) (w : EngineWork) : (s.dropUnit cl r w).bytes = s.bytes := by
  simp [State.dropUnit]

@[simp] theorem State.bytes_dropEntries (s : State) (ci e : Nat) : (s.dropEntries ci e).bytes = s.bytes := by
  simp [State.dropEntries]

@[simp] theorem State.bytes_modSub (s : State) (n : Nat) (f : Sub → Sub) : (s.modSub n f).bytes = s.bytes := rfl

@[simp] theorem State.bytes_modDrain (s : State) (n : Nat) (f : Drain → Drain) : (s.modDrain n f).bytes = s.bytes := rfl

@[simp] theorem State.bytes_copyReleased (s : State) : (s.copyReleased).bytes = s.bytes := rfl

@[simp] theorem State.bytes_modQueue (s : State) (q : Nat) (f : Queue → Queue) : (s.modQueue q f).bytes = s.bytes := rfl

@[simp] theorem State.bytes_setXlinv (s : State) (p v : Nat) : (s.setXlinv p v).bytes = s.bytes := rfl

@[simp] theorem State.bytes_configStore (s : State) (p off v : Nat) : (s.configStore p off v).bytes = s.bytes := by
  unfold State.configStore
  split <;> simp

@[simp] theorem State.bytes_modTrace (s : State) (n : Nat) (f : RaceTrace → RaceTrace) : (s.modTrace n f).bytes = s.bytes := rfl

@[simp] theorem State.bytes_setRtctl (s : State) (slice v : Nat) : (s.setRtctl slice v).bytes = s.bytes := by
  simp [State.setRtctl]

@[simp] theorem State.bytes_traceStore (s : State) (slice off v : Nat) : (s.traceStore slice off v).bytes = s.bytes := by
  simp [State.traceStore]

@[simp] theorem State.bytes_setClshare (s : State) (cl v : Nat) : (s.setClshare cl v).bytes = s.bytes := by
  simp [State.setClshare]

@[simp] theorem State.bytes_featGo (s : State) : (s.featGo).bytes = s.bytes := by
  simp [State.featGo]

@[simp] theorem State.bytes_startStore (s : State) (w : Writer) (off v : Nat) : (s.startStore w off v).bytes = s.bytes := by
  unfold State.startStore
  split
  · rfl
  · split
    · exact State.bytes_mk s
    · split
      · exact State.bytes_mk s
      · split
        · exact State.bytes_featGo s
        · rfl
  · split
    · exact State.bytes_mk s
    · rfl

@[simp] theorem State.bytes_dropLines (s : State) (e : SeqEntry) : (s.dropLines e).bytes = s.bytes := rfl

@[simp] theorem State.bytes_giveBack (s : State) (e : SeqEntry) : (s.giveBack e).bytes = s.bytes := by
  unfold State.giveBack
  split <;> simp

@[simp] theorem State.bytes_dropVec (s : State) (e : SeqEntry) : (s.dropVec e).bytes = s.bytes := by
  simp [State.dropVec]

@[simp] theorem State.bytes_leaveSeq (s : State) (ci at_ : Nat) (e : SeqEntry) (store : Bool) : (s.leaveSeq ci at_ e store).bytes = s.bytes := by
  unfold State.leaveSeq
  dsimp only
  split
  · simp
  · split <;> simp

@[simp] theorem State.bytes_asIssued (s : State) (e : SeqEntry) : (s.asIssued e).bytes = s.bytes := rfl

@[simp] theorem State.bytes_trapWhen (s t : State) (sid : Nat) (k : Trap) (v : Word) (pc : BitVec 56) (h : t.bytes = s.bytes) : (s.trapWhen t sid k v pc).bytes = s.bytes := by
  unfold State.trapWhen
  split
  · rfl
  · split
    · simp
    · simp [h]

@[simp] theorem State.bytes_checkGather (s : State) (ci : Nat) (e : SeqEntry) (b : VReg) : (s.checkGather ci e b).bytes = s.bytes := by
  unfold State.checkGather
  dsimp only
  repeat' split
  all_goals simp

@[simp] theorem State.bytes_fetchTrap (s : State) (sid : Nat) (t : Trap) : (s.fetchTrap sid t).bytes = s.bytes := by
  simp [State.fetchTrap]

@[simp] theorem State.bytes_fillLine (s : State) (sid pa : Nat) : (s.fillLine sid pa).bytes = s.bytes := by
  simp [State.fillLine]

@[simp] theorem State.bytes_transFault (s : State) (r : Req) (t : Trap) : (s.transFault r t).bytes = s.bytes := rfl

@[simp] theorem State.bytes_transDone (s : State) (r : Req) (leaf bits : Nat) : (s.transDone r leaf bits).bytes = s.bytes := by
  simp [State.transDone]

@[simp] theorem State.bytes_miss (s : State) (r : Req) (g : ReqStage) : (s.miss r g).bytes = s.bytes := by
  simp [State.miss]

theorem State.bytes_of_scalarTrap {s t : State} {sid : Nat} (h : s.scalarTrap sid = some t) : t.bytes = s.bytes := by
  obtain ⟨r, -, hr⟩ := List.exists_of_findSome?_eq_some h
  split at hr
  · obtain rfl := Option.some.inj hr
    exact State.bytes_trapWhen _ _ _ _ _ _ (by simp)
  · cases hr

theorem State.bytes_of_vecTrap {s t : State} {sid : Nat} (h : s.vecTrap sid = some t) : t.bytes = s.bytes := by
  obtain ⟨e, -, he⟩ := List.exists_of_findSome?_eq_some h
  split at he
  · cases he
  · obtain ⟨b, -, rfl⟩ := Option.map_eq_some_iff.mp he
    simp

@[simp] theorem State.bytes_faultSettle (s : State) (sid : Nat) : (s.faultSettle sid).bytes = s.bytes := by
  unfold State.faultSettle
  cases hs : s.scalarTrap sid with
  | some t => exact State.bytes_of_scalarTrap hs
  | none =>
    cases hv : s.vecTrap sid with
    | some t => exact State.bytes_of_vecTrap hv
    | none => rfl

@[simp] theorem State.bytes_addLaunch (s : State) (l : Launch) : (s.addLaunch l).bytes = s.bytes := rfl

@[simp] theorem State.bytes_streamIn (s : State) (p n : Nat) (i : SIn) : (s.streamIn p n i).bytes = s.bytes := rfl

@[simp] theorem State.bytes_strand (s : State) (sid : Nat) : (s.strand sid).bytes = s.bytes := rfl

@[simp] theorem State.bytes_streamFault (s : State) (ci e code va : Nat) : (s.streamFault ci e code va).bytes = s.bytes := rfl

@[simp] theorem State.bytes_entryFault (s : State) (r : Req) (t : Trap) : (s.entryFault r t).bytes = s.bytes := by
  unfold State.entryFault
  split <;> simp

@[simp] theorem State.bytes_entrySent (s : State) (r : Req) (pa : Nat) : (s.entrySent r pa).bytes = s.bytes := rfl

@[simp] theorem State.bytes_entryDone (s : State) (r : Req) (leaf bits : Nat) : (s.entryDone r leaf bits).bytes = s.bytes := by
  simp [State.entryDone]

@[simp] theorem State.bytes_walkDone (s : State) (r : Req) (leaf bits : Nat) : (s.walkDone r leaf bits).bytes = s.bytes := by
  simp [State.walkDone]

@[simp] theorem State.bytes_walkFault (s : State) (r : Req) (t : Trap) : (s.walkFault r t).bytes = s.bytes := by
  simp [State.walkFault]

@[simp] theorem State.bytes_performed (s : State) (r : Req) (v : Nat) : (s.performed r v).bytes = s.bytes := by
  unfold State.performed
  split <;> simp

@[simp] theorem State.bytes_modLink (s : State) (m : Nat) (f : LinkDir → LinkDir) : (s.modLink m f).bytes = s.bytes := rfl

@[simp] theorem State.bytes_queueTrans (s : State) (m tag req : Nat) (part : Option Nat) (addr : Nat) (resp : Option Nat) : (s.queueTrans m tag req part addr resp).bytes = s.bytes := rfl

@[simp] theorem State.bytes_sendRemote (s : State) (r : Req) : (s.sendRemote r).bytes = s.bytes := by
  unfold State.sendRemote
  dsimp only
  split <;> simp

@[simp] theorem State.bytes_respond (s : State) (t : Trans) (v : Nat) : (s.respond t v).bytes = s.bytes := rfl

@[simp] theorem State.bytes_modBoot (s : State) (f : Boot → Boot) : (s.modBoot f).bytes = s.bytes := rfl

@[simp] theorem State.bytes_reachStage (s : State) : (s.reachStage).bytes = s.bytes := rfl

@[simp] theorem State.bytes_stageDone (s : State) : (s.stageDone).bytes = s.bytes := rfl

@[simp] theorem State.bytes_fuseCore (s : State) (ci : Nat) : (s.fuseCore ci).bytes = s.bytes := rfl

@[simp] theorem State.bytes_setGrants (s : State) (p : Nat) (ranges : List (Nat × Nat)) : (s.setGrants p ranges).bytes = s.bytes := by
  simp [State.setGrants]

@[simp] theorem State.bytes_readInfra (s : State) (die n word : Nat) : (s.readInfra die n word).bytes = s.bytes := rfl

@[simp] theorem State.bytes_readInfraPage (s : State) (off : Nat) : (s.readInfraPage off).bytes = s.bytes := rfl

@[simp] theorem State.bytes_clearInfra (s : State) (die n : Nat) : (s.clearInfra die n).bytes = s.bytes := by
  simp [State.clearInfra]

@[simp] theorem State.bytes_modPost (s : State) (cl : Nat) (f : Post → Post) : (s.modPost cl f).bytes = s.bytes := rfl

@[simp] theorem State.bytes_setEntry (s : State) (cl e : Nat) (x : Option DirEntry) : (s.setEntry cl e x).bytes = s.bytes := rfl

@[simp] theorem State.bytes_dropMsg (s : State) (n : Nat) : (s.dropMsg n).bytes = s.bytes := rfl

@[simp] theorem State.bytes_answerCall (s : State) (dir : Nat) (c : Call) (code : Nat) : (s.answerCall dir c code).bytes = s.bytes := rfl

@[simp] theorem State.bytes_parkWith (s : State) (p : Park) (snap : Ctx) (parcel off bytes : Nat) (body : Nat → Call → MsgBody) : (s.parkWith p snap parcel off bytes body).bytes = s.bytes := rfl

@[simp] theorem State.bytes_dropKept (s : State) (dir : Nat) : (s.dropKept dir).bytes = s.bytes := rfl

@[simp] theorem State.bytes_newTaint (s : State) (roll : Bool) (key : Word) (cs : List Call) : (s.newTaint roll key cs).1.bytes = s.bytes := by
  simp [State.newTaint]

@[simp] theorem State.bytes_rollDone (s : State) (dir e : Nat) (x : DirEntry) (op : Nat) (l : List Call) : (s.rollDone dir e x op l).bytes = s.bytes := by
  unfold State.rollDone
  exact (State.bytes_foldl _ _ _ fun s a => by simp).trans (by simp)

@[simp] theorem State.bytes_takeAnswer (s : State) (sid tok code : Nat) : (s.takeAnswer sid tok code).bytes = s.bytes := by
  unfold State.takeAnswer
  split <;> simp

@[simp] theorem State.bytes_beginMeet (s : State) (sid : Nat) (q : Meeting) : (s.beginMeet sid q).bytes = s.bytes := rfl

@[simp] theorem State.bytes_meetIfBoth (s : State) (sid : Nat) : (s.meetIfBoth sid).bytes = s.bytes := by
  unfold State.meetIfBoth
  repeat' split
  all_goals simp

@[simp] theorem State.bytes_freeVisitor (s : State) (sid taint left : Nat) : (s.freeVisitor sid taint left).bytes = s.bytes := by
  unfold State.freeVisitor
  split <;> simp

@[simp] theorem State.bytes_settlePeer (s : State) (sid : Nat) : (s.settlePeer sid).bytes = s.bytes := by
  unfold State.settlePeer
  split
  · rfl
  · refine State.bytes_foldl _ _ _ fun s a => ?_
    split
    · rfl
    · split <;> simp

@[simp] theorem State.bytes_pruneHist (s : State) (sid : Nat) : (s.pruneHist sid).bytes = s.bytes := rfl

@[simp] theorem State.bytes_settlePeers (s : State) : (s.settlePeers).bytes = s.bytes := by
  simp [State.settlePeers]

@[simp] theorem State.bytes_cancelSubs (s : State) : (s.cancelSubs).bytes = s.bytes := by
  simp [State.cancelSubs]

@[simp] theorem State.bytes_dropStranded (s : State) : (s.dropStranded).bytes = s.bytes := by
  simp [State.dropStranded]

@[simp] theorem State.bytes_endTask (s : State) : (s.endTask).bytes = s.bytes := by
  simp [State.endTask]

@[simp] theorem State.bytes_modStream (s : State) (ci e : Nat) (f : StreamEng → StreamEng) : (s.modStream ci e f).bytes = s.bytes := rfl

@[simp] theorem State.bytes_streamHold (s : State) (ci e : Nat) (g : StreamEng) (a : Word) (n v : Nat) : (s.streamHold ci e g a n v).bytes = s.bytes := by
  simp [State.streamHold]

@[simp] theorem State.bytes_dropEntry (s : State) (ci : Nat) : (s.dropEntry ci).bytes = s.bytes := rfl

@[simp] theorem State.bytes_queueSeen (s : State) (q : Nat) (p : Word) (n : Nat) : (s.queueSeen q p n).bytes = s.bytes := by
  simp [State.queueSeen]

@[simp] theorem State.bytes_finishCmd (s : State) (q n status code word1 : Nat) : (s.finishCmd q n status code word1).bytes = s.bytes := rfl

@[simp] theorem State.bytes_startCmd (s : State) (q n : Nat) : (s.startCmd q n).bytes = s.bytes := rfl

@[simp] theorem State.bytes_dropToken (s : State) (p : Nat) (stopped : Nat → Bool) : (s.dropToken p stopped).bytes = s.bytes := rfl

@[simp] theorem State.bytes_poolSaved (s : State) (v : Saved) : (s.poolSaved v).bytes = s.bytes := by
  unfold State.poolSaved
  exact (State.bytes_mk _).trans (State.bytes_modClu _ _ _ rfl)

@[simp] theorem State.bytes_poolWaiting (s : State) : (s.poolWaiting).bytes = s.bytes := by
  simp [State.poolWaiting]

@[simp] theorem State.bytes_abortCmds (s : State) (p : Nat) (which : Cmd → Bool) (status code : Nat) : (s.abortCmds p which status code).bytes = s.bytes := by
  unfold State.abortCmds
  exact State.bytes_foldl _ _ _ fun s a => State.bytes_foldl _ _ _ fun s b => by simp

@[simp] theorem State.bytes_closeCalls (s : State) (p : Nat) : (s.closeCalls p).bytes = s.bytes := by
  unfold State.closeCalls
  exact State.bytes_foldl _ _ _ fun s a => (State.bytes_foldl _ _ _ fun s b => by simp).trans (by simp)

@[simp] theorem State.bytes_freezePart (s : State) (p : Nat) : (s.freezePart p).bytes = s.bytes := by
  unfold State.freezePart
  refine s.bytes_mkClus _ (Tab.spad_get_map _ (fun e => ?_) _)
  split <;> rfl

@[simp] theorem State.bytes_abortLaunch (s : State) (l : Launch) : (s.abortLaunch l).bytes = s.bytes := by
  unfold State.abortLaunch
  split <;> simp

@[simp] theorem State.bytes_modStreamOf (s : State) (p n : Nat) (f : Stream → Stream) : (s.modStreamOf p n f).bytes = s.bytes := rfl

@[simp] theorem State.bytes_modWin (s : State) (p n w : Nat) (f : Win → Win) : (s.modWin p n w f).bytes = s.bytes := rfl

@[simp] theorem State.bytes_unitSeen (s : State) (p : Nat) (b : Binding) (va : Nat) : (s.unitSeen p b va).bytes = s.bytes := by
  unfold State.unitSeen
  split <;> simp

@[simp] theorem State.bytes_outMark (s : State) (p n : Nat) (b : Binding) : (s.outMark p n b).bytes = s.bytes := by
  unfold State.outMark
  dsimp only
  repeat' split
  all_goals simp

@[simp] theorem State.bytes_streamTidy (s : State) (p n : Nat) : (s.streamTidy p n).bytes = s.bytes := by
  unfold State.streamTidy
  split <;> simp

@[simp] theorem State.bytes_modLaunch (s : State) (p lid : Nat) (f : Launch → Launch) : (s.modLaunch p lid f).bytes = s.bytes := rfl

@[simp] theorem State.bytes_dropLaunch (s : State) (p lid : Nat) : (s.dropLaunch p lid).bytes = s.bytes := rfl

@[simp] theorem State.bytes_markOldest (s : State) (q : Nat) : (s.markOldest q).bytes = s.bytes := by
  unfold State.markOldest
  split <;> simp

@[simp] theorem State.bytes_postLaunch (s : State) (p ci lid gang id status code detail : Nat) : (s.postLaunch p ci lid gang id status code detail).bytes = s.bytes := by
  unfold State.postLaunch
  split <;> simp

@[simp] theorem State.bytes_endLaunch (s : State) (l : Launch) (status code : Nat) : (s.endLaunch l status code).bytes = s.bytes := by
  have hclus : ∀ (t : State) (g : Nat × Cluster → Cluster), (∀ e, (g e).spad = e.2.spad) → State.bytes { t with clus := t.clus.map fun e => (e.1, g e) } = t.bytes :=
    fun t g h => t.bytes_mkClus _ (Tab.spad_get_map g h _)
  unfold State.endLaunch
  dsimp only
  split
  all_goals
    simp only [State.bytes_finishCmd, State.bytes_postLaunch, State.bytes_streamTidy, State.bytes_modWin]
    refine (hclus _ _ fun e => ?_).trans (State.bytes_dropLaunch ..)
    split <;> rfl

@[simp] theorem State.bytes_pushRange (s : State) (cl p lid : Nat) (r : Nat × Nat) : (s.pushRange cl p lid r).bytes = s.bytes := by
  unfold State.pushRange
  refine State.bytes_modClu _ _ _ ?_
  dsimp only
  split <;> rfl

@[simp] theorem State.bytes_dealRanges (s : State) (p lid size g : Nat) : (s.dealRanges p lid size g).bytes = s.bytes := by
  unfold State.dealRanges
  refine (State.bytes_foldl _ _ _ fun s a => ?_).trans (State.bytes_foldl _ _ _ fun s a => by simp)
  split <;> simp

@[simp] theorem State.bytes_placeGang (s : State) (l : Launch) (g : Nat) (ms : List (Nat × Nat)) : (s.placeGang l g ms).bytes = s.bytes := by
  unfold State.placeGang
  split
  · rfl
  · exact (State.bytes_foldl _ _ _ fun s a => by simp).trans (State.bytes_foldl _ _ _ fun s a => by simp)

@[simp] theorem State.bytes_placeEntry (s : State) (cl : Nat) (e : PoolEntry) (ms : List (Nat × Nat)) : (s.placeEntry cl e ms).bytes = s.bytes := by
  unfold State.placeEntry
  split <;> simp

@[simp] theorem State.bytes_modDeque (s : State) (cl p lid : Nat) (op : Bool) (f : Deque → Deque) : (s.modDeque cl p lid op f).bytes = s.bytes := by
  simp [State.modDeque]

@[simp] theorem State.bytes_askNext (s : State) (cl p lid : Nat) : (s.askNext cl p lid).bytes = s.bytes := by
  unfold State.askNext
  split <;> simp

theorem State.bytes_of_poolGang {s t : State} {cl : Nat} {es : List PoolEntry} (h : s.poolGang cl es = some t) : t.bytes = s.bytes := by
  unfold State.poolGang at h
  split at h
  · cases h
  · obtain rfl := Option.some.inj h
    exact State.bytes_modClu _ _ _ rfl

@[simp] theorem State.bytes_ownerTake (s : State) (l : Launch) (t : Template) (cl : Nat) : (s.ownerTake l t cl).bytes = s.bytes := by
  unfold State.ownerTake
  split
  · rfl
  · split
    · rfl
    · split
      · split <;> simp
      · split
        · rfl
        · next hp => simp [State.bytes_of_poolGang hp]

@[simp] theorem State.bytes_unpool (s : State) (p lid g : Nat) : (s.unpool p lid g).bytes = s.bytes := by
  unfold State.unpool
  refine (State.bytes_modLaunch ..).trans (s.bytes_mkClus _ (Tab.spad_get_map (fun k => { k.2 with pool := _ }) (fun _ => ?_) _))
  rfl

@[simp] theorem State.bytes_reserveSlots (s : State) (p : Nat) (cores : List (Nat × Nat)) : (s.reserveSlots p cores).bytes = s.bytes := by
  unfold State.reserveSlots
  refine State.bytes_foldl _ _ _ fun s a => ?_
  split
  · rfl
  · split <;> simp

@[simp] theorem State.bytes_takeMark (s : State) (p n : Nat) (b : Binding) (src : Nat) (v : Option Nat) (l : List SIn) : (s.takeMark p n b src v l).bytes = s.bytes := by
  simp [State.takeMark]

@[simp] theorem State.bytes_windowLaunch (s : State) (p n : Nat) (b : Binding) (w : Nat) (amend : Bool) (lanes : List Lane) : (s.windowLaunch p n b w amend lanes).bytes = s.bytes := rfl

@[simp] theorem State.bytes_dropWaiter (s : State) (sid : Nat) : (s.dropWaiter sid).bytes = s.bytes := by
  unfold State.dropWaiter
  split <;> simp

@[simp] theorem State.bytes_rename (s : State) (ci from_ to_ : Nat) : (s.rename ci from_ to_).bytes = s.bytes := rfl

@[simp] theorem State.bytes_cutContext (s : State) (sid : Nat) (p : Option PortEntry) : (s.cutContext sid p).bytes = s.bytes := by
  simp [State.cutContext]

@[simp] theorem State.bytes_pushLines (s : State) (v : Saved) (ls : List (Nat × Nat)) : (s.pushLines v ls).bytes = s.bytes := rfl

@[simp] theorem State.bytes_modSaved (s : State) (n : Nat) (f : Saved → Saved) : (s.modSaved n f).bytes = s.bytes := rfl

@[simp] theorem State.bytes_saveMore (s : State) (v : Saved) : (s.saveMore v).bytes = s.bytes := by
  simp [State.saveMore]

@[simp] theorem State.bytes_asCtx (s : State) (sid : Nat) (f : State → State) (h : ∀ t, (f t).bytes = t.bytes) : (s.asCtx sid f).bytes = s.bytes := by
  simp [State.asCtx, h]

@[simp] theorem State.bytes_resumeFrame (s : State) (sid : Nat) (frame : Word) : (s.resumeFrame sid frame).bytes = s.bytes := by
  unfold State.resumeFrame
  split
  · rfl
  · refine State.bytes_asCtx _ _ _ fun t => ?_
    dsimp only
    split
    · simp
    · split <;> simp

@[simp] theorem State.bytes_imageTables (s : State) (cl base : Nat) : (s.imageTables cl base).bytes = s.bytes := by
  unfold State.imageTables
  exact (State.bytes_mk _).trans ((State.bytes_foldl _ _ _ fun s a => by simp).trans (State.bytes_modClu _ _ _ rfl))

@[simp] theorem State.bytes_beginRestore (s : State) (v : Saved) : (s.beginRestore v).bytes = s.bytes := by
  simp [State.beginRestore]

@[simp] theorem State.bytes_endRestore (s : State) (v : Saved) : (s.endRestore v).bytes = s.bytes := by
  unfold State.endRestore
  split <;> simp

@[simp] theorem State.bytes_withdrawAll (s : State) (which : Call → Bool) : (s.withdrawAll which).bytes = s.bytes := rfl

@[simp] theorem State.bytes_dropCalls (s : State) (which : Call → Bool) : (s.dropCalls which).bytes = s.bytes := rfl

@[simp] theorem State.bytes_withdrawRestored (s : State) : (s.withdrawRestored).bytes = s.bytes := rfl

@[simp] theorem State.bytes_discardSince (s : State) (sid from_ : Nat) : (s.discardSince sid from_).bytes = s.bytes := rfl

@[simp] theorem State.bytes_dropVisitor (s : State) (v from_ : Nat) : (s.dropVisitor v from_).bytes = s.bytes := by
  simp [State.dropVisitor]

@[simp] theorem State.bytes_rewindSaved (s : State) (v : Saved) (p : Snap) : (s.rewindSaved v p).bytes = s.bytes := by
  unfold State.rewindSaved
  dsimp only
  split <;> simp

@[simp] theorem State.bytes_recreateRoll (s : State) (dir : Nat) (k : RollKept) (ps : List Snap) : (s.recreateRoll dir k ps).bytes = s.bytes := by
  unfold State.recreateRoll
  split
  · rfl
  · dsimp only
    split
    · rfl
    · split
      · exact (State.bytes_foldl _ _ _ fun s a => by simp).trans (by simp)
      · simp

@[simp] theorem State.bytes_clearTaint (s : State) (id : Nat) (t : Taint) : (s.clearTaint id t).bytes = s.bytes := by
  have hsits : ∀ (t : State) (l : List (Nat × Ctx)) (g : Nat × Ctx → Nat), (l.foldl (fun s e => s.dropVisitor e.1 (g e)) t).bytes = t.bytes :=
    fun t l g => State.bytes_foldl _ _ _ fun s e => by simp
  unfold State.clearTaint
  dsimp only
  split
  · refine (State.bytes_modClu _ _ _ rfl).trans ((State.bytes_mk _).trans ((State.bytes_foldl _ _ _ fun s m => ?_).trans (hsits ..)))
    split
    · simp
    · rfl
  · refine (State.bytes_mk _).trans ((State.bytes_foldl _ _ _ fun s m => ?_).trans (hsits ..))
    split
    · simp
    · rfl

@[simp] theorem State.bytes_purge (s : State) : (s.purge).bytes = s.bytes := rfl

@[simp] theorem State.bytes_dropMade (s : State) (cl target : Nat) : (s.dropMade cl target).bytes = s.bytes := rfl

@[simp] theorem State.bytes_startRestore (s : State) (located target : Nat) (fails : BitVec 8) (cl : Nat) : (s.startRestore located target fails cl).bytes = s.bytes := by
  simp [State.startRestore]

@[simp] theorem State.bytes_restoreReqs (s : State) (cl : Nat) (k : Ckpt) : (s.restoreReqs cl k).bytes = s.bytes := rfl

@[simp] theorem bytes_Ckpt.view (k : Ckpt) (s : State) : (Ckpt.view k s).bytes = s.bytes := rfl

@[simp] theorem State.bytes_resend (s : State) (cl : Nat) (k : Ckpt) : (s.resend cl k).bytes = s.bytes := by
  unfold State.resend
  refine (State.bytes_foldl _ _ _ fun s b => State.bytes_foldl _ _ _ fun s r => ?_).trans (by simp)
  split
  · rfl
  · exact (State.bytes_foldl _ _ _ fun s i => by simp).trans (by simp)

@[simp] theorem State.bytes_redrain (s : State) (cl : Nat) (k : Ckpt) : (s.redrain cl k).bytes = s.bytes := rfl

@[simp] theorem State.bytes_unplace (s : State) (cl : Nat) (k : TaskId) : (s.unplace cl k).bytes = s.bytes := by
  unfold State.unplace
  repeat' split
  all_goals simp

@[simp] theorem State.bytes_unsave (s : State) (v : Saved) (was : Ctx) : (s.unsave v was).bytes = s.bytes := rfl

@[simp] theorem State.bytes_takeBack (s : State) (cl : Nat) (k : Ckpt) : (s.takeBack cl k).bytes = s.bytes := by
  simp [State.takeBack]

@[simp] theorem State.bytes_restoreCtxs (s : State) (cl : Nat) (k : Ckpt) : (s.restoreCtxs cl k).bytes = s.bytes := by
  simp [State.restoreCtxs]

@[simp] theorem State.bytes_rollbackRuns (s : State) (k : Ckpt) (ci : Nat) : (s.rollbackRuns k ci).bytes = s.bytes := by
  unfold State.rollbackRuns
  split
  · rfl
  · dsimp only
    split
    · rfl
    · exact State.bytes_foldl _ _ _ fun s a => by simp

@[simp] theorem State.bytes_settleCalls (s : State) (cl : Nat) (k : Ckpt) : (s.settleCalls cl k).bytes = s.bytes := by
  unfold State.settleCalls
  refine (State.bytes_foldl _ _ _ fun s e => ?_).trans (by simp)
  split
  · rfl
  · split
    · rfl
    · simp

theorem State.bytes_of_framePerform {s t : State} {sid : Nat} (h : s.framePerform sid = some t) : t.bytes = s.bytes := by
  unfold State.framePerform at h
  split at h
  · cases h
  · split at h
    · cases h
    · split at h
      · cases h
      · dsimp only at h
        split at h
        · cases h
        · split at h
          · cases h
          · split at h
            · cases h
            · split at h
              · cases h
              · obtain rfl := Option.some.inj h
                simp

theorem State.bytes_of_bindMem {s t : State} {ci : Nat} {e : SeqEntry} {h : VShape} {ps : List (VPiece × VPlace)} {tv : List Target} (hb : s.bindMem ci e h ps tv = some t) :
    t.bytes = s.bytes := by
  simp only [State.bindMem, Option.ite_none_left_eq_some, Option.some.injEq] at hb
  obtain ⟨-, rfl⟩ := hb
  rw [State.bytes_ite, State.bytes_leaveSeq, ite_self]
  split
  · exact (State.bytes_foldl _ _ _ fun s l => by simp).trans (by simp)
  · simp

theorem State.bytes_of_bindHead {s t : State} {ci : Nat} {e : SeqEntry} (h : s.bindHead ci e = some t) : t.bytes = s.bytes := by
  unfold State.bindHead at h
  split at h
  · obtain rfl := Option.some.inj h
    simp
  · split at h
    · cases h
    · split at h
      · cases h
      · split at h
        · split at h
          · obtain rfl := Option.some.inj h
            simp
          · exact State.bytes_of_bindMem h
        · split at h
          · cases h
          · obtain rfl := Option.some.inj h
            simp

theorem State.bytes_of_laneServe {s t : State} {ci : Nat} (h : s.laneServe ci = some t) : t.bytes = s.bytes := by
  unfold State.laneServe at h
  split at h
  · cases h
  · split at h
    · split at h
      · split at h
        · exact State.bytes_of_framePerform h
        · cases h
      · cases h
    · split at h
      · exact State.bytes_of_bindHead h
      · cases h

theorem State.bytes_of_laneGrant {s : State} {cl : Nat} {g : Nat × State × Nat} (h : s.laneGrant cl = some g) : g.2.1.bytes = s.bytes := by
  unfold State.laneGrant at h
  dsimp only at h
  split at h
  · cases h
  · split at h
    · next hs =>
      obtain rfl := Option.some.inj h
      split at hs
      · exact State.bytes_of_laneServe hs
      · cases hs
    · obtain ⟨c, -, hc⟩ := List.exists_of_findSome?_eq_some h
      obtain ⟨t, ht, rfl⟩ := Option.map_eq_some_iff.mp hc
      exact State.bytes_of_laneServe ht

@[simp] theorem State.bytes_laneStep (s : State) (cl : Nat) : (s.laneStep cl).bytes = s.bytes := by
  unfold State.laneStep
  split
  · rfl
  · next hg => exact (State.bytes_modClu _ _ _ rfl).trans (State.bytes_of_laneGrant hg)

@[simp] theorem State.bytes_deliveries (s : State) (cl : Nat) : (s.deliveries cl).bytes = s.bytes := by
  unfold State.deliveries
  dsimp only
  refine State.bytes_foldl _ _ _ fun s a => ?_
  split <;> simp

@[simp] theorem State.bytes_vloadDone (s : State) (e : SeqEntry) : (s.vloadDone e).bytes = s.bytes := by
  simp [State.vloadDone]

@[simp] theorem State.bytes_readied (s : State) (sid : Nat) : (s.readied sid).bytes = s.bytes := rfl

@[simp] theorem State.bytes_closeTurn (s : State) (sid : Nat) (pc : BitVec 56) (losers : List Nat) : (s.closeTurn sid pc losers).bytes = s.bytes := by
  simp [State.closeTurn]

@[simp] theorem State.bytes_setCharges (s : State) : (s.setCharges).bytes = s.bytes := rfl

@[simp] theorem State.bytes_withFetchWord (s : State) (_nbits w : Nat) : (s.withFetchWord _nbits w).bytes = s.bytes := by
  unfold State.withFetchWord
  refine (State.bytes_mk _).trans ((State.bytes_modClu _ _ _ rfl).trans ((State.bytes_modCore ..).trans ?_))
  exact (State.bytes_foldl _ _ _ fun s a => by simp).trans (by simp)

end Sys2Proof.Machine
end


section
/-!
PROOFS. What keeps every memory in its canonical form: the units and agents that write bytes, after the rest that write none.
-/

namespace Sys2Proof.Machine

@[simp] theorem State.bytes_record (s : State) (b : Nat) (r : ErrRec) : (s.record b r).bytes = s.bytes := rfl

@[simp] theorem State.bytes_recordPart (s : State) (die p : Nat) (r : ErrRec) : (s.recordPart die p r).bytes = s.bytes := rfl

@[simp] theorem State.bytes_recordInfra (s : State) (die : Nat) (r : ErrRec) : (s.recordInfra die r).bytes = s.bytes := rfl

@[simp] theorem State.bytes_freeze (s : State) (sid : Nat) (pc : BitVec 56) (line : Nat) : (s.freeze sid pc line).bytes = s.bytes := by
  simp [State.freeze]

@[simp] theorem State.bytes_acctFault (s : State) (a : AcctRec) : (s.acctFault a).bytes = s.bytes := by
  simp [State.acctFault]

@[simp] theorem State.bytes_grantPort (s : State) (ci at_ : Nat) : (s.grantPort ci at_).bytes = s.bytes := by
  unfold State.grantPort
  dsimp only
  split
  · rfl
  · next p _ =>
    generalize p.i = i
    cases i
    case mma => exact (State.bytes_modArr ..).trans (State.bytes_modPortHead ..)
    case mtest => exact (State.bytes_modArr ..).trans (State.bytes_modPortHead ..)
    case mzero => exact (State.bytes_modArr ..).trans ((State.bytes_modPortHead ..).trans (State.bytes_zeroAcc ..))
    all_goals exact (State.bytes_modArr ..).trans (State.bytes_modPortHead ..)

@[simp] theorem State.bytes_boundary (s : State) (cl : Nat) : (s.boundary cl).bytes = s.bytes := by
  unfold State.boundary
  dsimp only
  repeat' split
  all_goals simp

@[simp] theorem State.bytes_newXfer (s : State) (kind : XferKind) (xid : BitVec 32) (a : Word) (held : Bool) (ring prog : Nat) : (s.newXfer kind xid a held ring prog).bytes = s.bytes := rfl

@[simp] theorem State.bytes_overrun (s : State) (q : Nat) : (s.overrun q).bytes = s.bytes := by
  unfold State.overrun
  dsimp only
  repeat' split
  all_goals simp

@[simp] theorem State.bytes_setQpidx (s : State) (q v : Nat) : (s.setQpidx q v).bytes = s.bytes := by
  simp [State.setQpidx]

@[simp] theorem State.bytes_setEn (s : State) (q : Nat) (en : Bool) : (s.setEn q en).bytes = s.bytes := by
  simp [State.setEn]

@[simp] theorem State.bytes_setCqridx (s : State) (q v : Nat) : (s.setCqridx q v).bytes = s.bytes := by
  simp [State.setCqridx]

@[simp] theorem State.bytes_queueStore (s : State) (q off v : Nat) : (s.queueStore q off v).bytes = s.bytes := by
  unfold State.queueStore
  split <;> simp

@[simp] theorem State.bytes_regStore (s : State) (w : Writer) (p : Page) (off v mask : Nat) : (s.regStore w p off v mask).bytes = s.bytes := by
  unfold State.regStore
  repeat' split
  all_goals simp

@[simp] theorem State.bytes_devWrite (s : State) (w : Writer) (off size v : Nat) : (s.devWrite w off size v).bytes = s.bytes := by
  unfold State.devWrite
  split <;> simp

@[simp] theorem State.bytes_leave (s : State) (r : Req) : (s.leave r).bytes = s.bytes := by
  unfold State.leave
  split <;> simp

@[simp] theorem State.bytes_entryPoison (s : State) (r : Req) (l : Nat) : (s.entryPoison r l).bytes = s.bytes := by
  unfold State.entryPoison
  split <;> simp

@[simp] theorem State.bytes_registerStore (s : State) (r : Req) : (s.registerStore r).bytes = s.bytes := by
  simp [State.registerStore]

@[simp] theorem State.bytes_linkRecord (s : State) (engine cls code detail die : Nat) (fs : List Flit) : (s.linkRecord engine cls code detail die fs).bytes = s.bytes := by
  unfold State.linkRecord
  dsimp only
  split
  all_goals
    rw [State.bytes_recordInfra]
    exact State.bytes_foldl _ _ _ fun s p => State.bytes_foldl _ _ _ fun s d => by simp

@[simp] theorem State.bytes_recordService (s : State) : (s.recordService).bytes = s.bytes := rfl

@[simp] theorem State.bytes_serviceWrite (s : State) (p off : Nat) (v : Word) : (s.serviceWrite p off v).bytes = s.bytes := by
  simp [State.serviceWrite]

@[simp] theorem State.bytes_moduleRecord (s : State) (cls code m : Nat) : (s.moduleRecord cls code m).bytes = s.bytes := by
  simp [State.moduleRecord]

@[simp] theorem State.bytes_recordShared (s : State) (die : Nat) (ps : List Nat) (r : ErrRec) : (s.recordShared die ps r).bytes = s.bytes := by
  unfold State.recordShared
  exact (State.bytes_foldl _ _ _ fun s a => by simp).trans (by simp)

@[simp] theorem State.bytes_orderTo (s : State) (dir : Nat) (c : Call) (place : Nat) (vslot : Option Nat) (partner taint : Nat) : (s.orderTo dir c place vslot partner taint).bytes = s.bytes := rfl

@[simp] theorem State.bytes_taintPlace (s : State) (id place : Nat) : (s.taintPlace id place).bytes = s.bytes := rfl

theorem State.bytes_of_placePair {s t : State} {dir : Nat} {p : PairRec} (h : s.placePair dir p = some t) : t.bytes = s.bytes := by
  unfold State.placePair at h
  dsimp only at h
  split at h
  · obtain rfl := Option.some.inj h
    simp
  · obtain ⟨cl, -, rfl⟩ := Option.map_eq_some_iff.mp h
    simp

@[simp] theorem State.bytes_pair (s : State) (dir e : Nat) (a b : Call) : (s.pair dir e a b).bytes = s.bytes := by
  unfold State.pair
  dsimp only
  split
  · next hp => simp [State.bytes_of_placePair hp]
  · simp

@[simp] theorem State.bytes_depart (s0 : State) (sid : Nat) (p : Park) (place vslot partner taint : Nat) : (s0.depart sid p place vslot partner taint).bytes = s0.bytes := by
  simp [State.depart]

@[simp] theorem State.bytes_answerId (s : State) (sid : Nat) : (s.answerId sid).bytes = s.bytes := by
  unfold State.answerId
  dsimp only
  split <;> simp

@[simp] theorem State.bytes_recallRecord (s : State) (t : Taint) : (s.recallRecord t).bytes = s.bytes := by
  unfold State.recallRecord
  split <;> simp

@[simp] theorem State.bytes_regionRecords (s : State) (located : Nat) (region : List Nat) (cls code detail : Nat) : (s.regionRecords located region cls code detail).bytes = s.bytes := by
  unfold State.regionRecords
  dsimp only
  split
  · simp
  · exact State.bytes_foldl _ _ _ fun s p => by simp

@[simp] theorem State.bytes_escalate (s : State) (located target : Nat) : (s.escalate located target).bytes = s.bytes := by
  simp [State.escalate]

@[simp] theorem State.bytes_answerAgain (s : State) (cl : Nat) (k : Ckpt) : (s.answerAgain cl k).bytes = s.bytes := by
  unfold State.answerAgain
  refine (State.bytes_foldl _ _ _ fun s e => by simp).trans (State.bytes_foldl _ _ _ fun s a => ?_)
  split
  · split <;> simp
  · rfl

@[simp] theorem State.bytes_fenceSub (s : State) (cl n : Nat) : (s.fenceSub cl n).bytes = s.bytes := by
  unfold State.fenceSub
  split <;> simp
/-! What keeps the canonical form where bytes are written. -/

theorem State.inv_foldl {α : Type} {f : State → α → State} (h : ∀ s a, s.Inv → (f s a).Inv) (l : List α) {s : State} (hs : s.Inv) : (l.foldl f s).Inv := by
  induction l generalizing s with
  | nil => exact hs
  | cons a l ih => exact ih (h s a hs)

theorem State.inv_modClu {s : State} (hs : s.Inv) (cl : Nat) (f : Cluster → Cluster) (hf : (f (s.clu cl)).spad.wf = true) : (s.modClu cl f).Inv := by
  obtain ⟨hmem, hhost, hspad⟩ := hs
  refine ⟨hmem, hhost, fun c => ?_⟩
  rw [State.modClu_clu]
  split
  · exact hf
  · exact hspad c

theorem State.inv_spadWrite {s : State} (hs : s.Inv) (cl off n v : Nat) : (s.spadWrite cl off n v).Inv := by
  obtain ⟨hmem, hhost, hspad⟩ := hs
  exact State.inv_modClu ⟨hmem, hhost, hspad⟩ cl _ (Memory.wf_writeMasked _ _ _ _ _ (hspad cl))

theorem State.inv_physWrite {s : State} (hs : s.Inv) (pa n v be : Nat) : (s.physWrite pa n v be).Inv := by
  obtain ⟨hmem, hhost, hspad⟩ := hs
  unfold State.physWrite
  split
  · exact ⟨Memory.wf_writeMasked _ _ _ _ _ hmem, hhost, hspad⟩
  · exact ⟨hmem, Memory.wf_writeMasked _ _ _ _ _ hhost, hspad⟩

theorem State.inv_acceptWrite {s : State} (hs : s.Inv) (m : Maker) (pa n be : Nat) : (s.acceptWrite m pa n be).Inv := by
  unfold State.acceptWrite
  dsimp only
  split
  · exact State.inv_of_bytes hs (by simp)
  · split
    · exact State.inv_of_bytes hs (by simp)
    · exact State.inv_of_bytes (State.inv_physWrite (State.inv_of_bytes hs (by simp)) _ _ _ _) (State.bytes_mk _)

theorem State.inv_sliceStore {s : State} (hs : s.Inv) (m : Maker) (by_ : Option (Nat × Nat)) (pa n v be : Nat) : (s.sliceStore m by_ pa n v be).Inv := by
  unfold State.sliceStore
  split
  · exact State.inv_physWrite hs _ _ _ _
  · exact State.inv_of_bytes (State.inv_physWrite (State.inv_acceptWrite hs m pa n be) pa n v be) (by simp)

theorem State.inv_sliceLines {s : State} (hs : s.Inv) (m : Maker) (ps : List (Nat × Nat × Nat)) : (s.sliceLines m ps).Inv :=
  State.inv_foldl (fun _ _ h => State.inv_sliceStore h _ _ _ _ _ _) _ hs

theorem State.inv_bankWrite {s : State} (hs : s.Inv) (a : BankAccess) (v : Nat) (taints : List Nat) : (s.bankWrite a v taints).Inv := by
  unfold State.bankWrite
  split
  · exact State.inv_of_bytes hs (by simp)
  · exact State.inv_spadWrite hs _ _ _ _

theorem State.inv_bankPerform {s : State} (hs : s.Inv) (sid : Nat) (a : BankAccess) : (s.bankPerform sid a).Inv := by
  unfold State.bankPerform
  dsimp only
  split
  · exact State.inv_of_bytes hs (by simp)
  · exact State.inv_bankWrite hs _ _ _
  · exact State.inv_of_bytes (State.inv_bankWrite hs _ _ _) (State.bytes_deliverAt ..)
  · refine State.inv_of_bytes ?_ (State.bytes_deliverAt ..)
    split
    · exact State.inv_bankWrite hs _ _ _
    · exact hs
  · exact State.inv_of_bytes hs (by simp)
  · exact State.inv_of_bytes hs (by simp)
  · exact State.inv_of_bytes hs (by simp)
  · exact hs

theorem State.inv_vStoreBank {s : State} (hs : s.Inv) (src : VReg) (ps : List (VPiece × VPlace)) : (s.vStoreBank src ps).Inv := by
  refine State.inv_foldl (fun s p h => ?_) _ hs
  dsimp only
  split
  · exact State.inv_spadWrite h _ _ _ _
  · exact h

theorem State.inv_moveLine {s : State} (hs : s.Inv) (ci : Nat) (p : PortEntry) (line : Nat) : (s.moveLine ci p line).Inv := by
  unfold State.moveLine
  dsimp only
  generalize p.i = i
  cases i
  case mlda => exact State.inv_of_bytes hs (State.bytes_modCore ..)
  case msta =>
    refine State.inv_foldl (fun s i h => ?_) _ hs
    split
    · exact h
    · exact State.inv_spadWrite h _ _ _ _
  case msave => exact State.inv_spadWrite hs _ _ _ _
  case mrstr => exact State.inv_of_bytes hs (State.bytes_modCore ..)
  all_goals exact hs

theorem State.inv_portMove {s : State} (hs : s.Inv) (ci : Nat) (p : PortEntry) : (s.portMove ci p).Inv := by
  unfold State.portMove
  dsimp only
  split
  · split
    · exact hs
    · refine State.inv_of_bytes ?_ ((State.bytes_modArr ..).trans (State.bytes_modPortHead ..))
      generalize p.i = i
      cases i
      case mrstr => exact State.inv_of_bytes hs (State.bytes_modCore ..)
      all_goals exact hs
  · split
    · exact State.inv_of_bytes hs (State.bytes_modArr ..)
    · split
      · exact hs
      · refine State.inv_of_bytes (State.inv_foldl (fun s l h => State.inv_moveLine h ci p l) _ hs) ((State.bytes_modClu _ _ _ rfl).trans (State.bytes_modPortHead ..))

theorem State.inv_writeProg {s : State} (hs : s.Inv) (ci : Nat) (x : Xfer) (prog : Nat) : (s.writeProg ci x prog).Inv := State.inv_spadWrite hs _ _ _ _

/-- Waiting at a port moves no byte. -/
theorem State.bytes_of_portAsk {s t : State} {ls : List Nat} {rank : Nat} (h : s.portAsk ls rank = some t) : t.bytes = s.bytes := by
  simp only [State.portAsk, Option.ite_none_left_eq_some, Option.some.injEq] at h
  obtain ⟨-, rfl⟩ := h
  exact State.bytes_mk s

/-- Asking for translations moves no byte. -/
theorem State.bytes_of_xlatAsk {s t : State} {cl part : Nat} {pid : BitVec 16} {sid : Nat} {vas : List Nat} (h : s.xlatAsk cl part pid sid vas = some t) :
    t.bytes = s.bytes := by
  simp only [State.xlatAsk, Option.ite_none_left_eq_some, Option.some.injEq] at h
  obtain ⟨-, rfl⟩ := h
  exact State.bytes_foldl _ _ _ fun s p => State.bytes_mk s

theorem State.bytes_of_acctAsk {s t : State} {ci part : Nat} {pid : BitVec 16} {vas : List Nat} (h : s.acctAsk ci part pid vas = some t) : t.bytes = s.bytes :=
  State.bytes_of_xlatAsk h

theorem State.inv_endRow {s : State} (hs : s.Inv) (ci : Nat) (x : Xfer) (b : CopyBlk) (u : EngineLeft) : (s.endRow ci x b u).Inv := by
  unfold State.endRow
  dsimp only
  split
  · next hp => exact State.inv_of_bytes hs (State.bytes_of_portAsk hp)
  · split
    · exact State.inv_of_bytes (State.inv_sliceLines hs _ _) ((State.bytes_addCredit ..).trans ((State.bytes_modXfer ..).trans (State.bytes_dropUnit ..)))
    · exact State.inv_of_bytes (State.inv_sliceLines hs _ _) ((State.bytes_modXfer ..).trans (State.bytes_dropUnit ..))

theorem State.inv_startRow {s : State} (hs : s.Inv) (ci : Nat) (x : Xfer) (b : CopyBlk) : (s.startRow ci x b).Inv := by
  unfold State.startRow
  dsimp only
  split
  · next hx => exact State.inv_of_bytes hs (State.bytes_of_xlatAsk hx)
  · split
    · split
      · exact hs
      · exact State.inv_of_bytes (State.inv_writeProg (State.inv_of_bytes hs (State.bytes_xlatDone ..)) _ _ _) (State.bytes_modXfer ..)
    · split
      · next hp => exact State.inv_of_bytes hs (State.bytes_of_portAsk hp)
      · have hunits := State.inv_of_bytes (t := (s.engineReads (coreCluster ci) (s.engineLines (coreCluster ci) x.part x.pid x.mode .read
          (((b.globals x.prog).filter fun g => g.1 == .read).map fun g => g.2.1))).setUnits (coreCluster ci) 0 [s.rowUnit ci x b]) hs (by simp)
        split
        · exact State.inv_endRow hunits _ _ _ _
        · exact hunits

theorem State.inv_performAt {s : State} (hs : s.Inv) (r : Req) : (s.performAt r).1.Inv := by
  unfold State.performAt
  split
  · exact State.inv_sliceStore hs _ _ _ _ _ _
  · split
    · exact State.inv_sliceStore hs _ _ _ _ _ _
    · dsimp only
      split
      · exact State.inv_sliceStore hs _ _ _ _ _ _
      · exact State.inv_acceptWrite hs _ _ _ _
    · exact State.inv_sliceStore hs _ _ _ _ _ _
    · exact State.inv_sliceLines hs _ _
    · exact State.inv_of_bytes hs (by simp)

theorem State.inv_performHome {s : State} (hs : s.Inv) (r : Req) : (s.performHome r).Inv := by
  unfold State.performHome
  split
  · exact State.inv_of_bytes hs (by simp)
  · exact State.inv_of_bytes (State.inv_performAt hs r) (State.bytes_performed ..)

theorem State.inv_packageReset {s : State} (hs : s.Inv) (cause : Nat) : (s.packageReset cause).Inv := by
  obtain ⟨hmem, hhost, -⟩ := hs
  exact ⟨hmem, hhost, fun _ => rfl⟩

theorem State.inv_startFail {s : State} (hs : s.Inv) (reason : Nat) : (s.startFail reason).Inv := by
  unfold State.startFail
  dsimp only
  split
  · exact State.inv_of_bytes hs (by simp)
  · exact State.inv_packageReset (State.inv_of_bytes hs (by simp)) _

theorem State.inv_verified {s : State} (hs : s.Inv) (sigOk : Bool) (version : BitVec 32) (sig : Nat) (f : Boot → Boot) : (s.verified sigOk version sig f).Inv := by
  unfold State.verified
  split
  · exact State.inv_startFail hs _
  · split
    · exact State.inv_startFail hs _
    · exact State.inv_of_bytes hs (by simp)

theorem State.inv_linkDown {s : State} (hs : s.Inv) (m : Nat) : (s.linkDown m).Inv := State.inv_packageReset (State.inv_of_bytes hs (by simp)) _

theorem State.inv_unitWrite {s : State} (hs : s.Inv) (p : Nat) (b : Binding) (va v n : Nat) : (s.unitWrite p b va v n).Inv := by
  unfold State.unitWrite
  split
  · exact State.inv_sliceStore hs _ _ _ _ _ _
  · exact hs

theorem State.inv_ringPut {s : State} (hs : s.Inv) (p : Nat) (b : Binding) (base log2 e v : Nat) : (s.ringPut p b base log2 e v).Inv :=
  State.inv_unitWrite (State.inv_unitWrite (State.inv_of_bytes hs (by simp)) _ _ _ _ _) _ _ _ _ _

theorem State.inv_deadRecord {s : State} (hs : s.Inv) (p n : Nat) (b : Binding) (src reason : Nat) (ws : List Word) : (s.deadRecord p n b src reason ws).Inv := by
  unfold State.deadRecord
  dsimp only
  split
  · exact State.inv_of_bytes hs (by simp)
  · exact State.inv_ringPut (State.inv_of_bytes hs (by simp)) _ _ _ _ _ _

theorem State.inv_placeRecord {s : State} (hs : s.Inv) (p n : Nat) (b : Binding) (src : Nat) (ws : List Word) : (s.placeRecord p n b src ws).Inv := by
  have hdead : ∀ reason, (s.deadRecord p n b src reason ws).Inv := fun reason => State.inv_deadRecord hs _ _ _ _ _ _
  unfold State.placeRecord
  extract_lets
  split
  · exact hdead 3
  · split
    · exact hdead 2
    · split
      · exact hdead 1
      · split
        · exact hdead 0
        · exact State.inv_of_bytes (State.inv_of_bytes hs (State.bytes_modStreamOf ..)) (State.bytes_mk _)

theorem State.inv_takeRecord {s : State} (hs : s.Inv) (p n : Nat) (b : Binding) (src : Nat) (ws : Option (List Word)) : (s.takeRecord p n b src ws).Inv := by
  unfold State.takeRecord
  refine State.inv_of_bytes ?_ ((State.bytes_streamTidy ..).trans (State.bytes_modStreamOf ..))
  have hbeat : (s.modStreamOf p n fun t => t.beat src s.now fun x => { x with cons := (x.cons + 1) % 2 ^ 32 }).Inv := State.inv_of_bytes hs (by simp)
  cases ws with
  | none => exact hbeat
  | some l => exact State.inv_placeRecord hbeat _ _ _ _ _

theorem State.inv_stopXfers {s : State} (hs : s.Inv) (sid : Nat) : (s.stopXfers sid).Inv := by
  refine State.inv_foldl (fun s x h => State.inv_of_bytes ?_ (State.bytes_modXfer ..)) _ hs
  split
  · exact State.inv_writeProg h _ _ _
  · exact h

theorem State.inv_copyLines (l : List (Nat × Nat)) {s : State} (hs : s.Inv) (cl : Nat) : (s.copyLines cl l).1.Inv := by
  induction l generalizing s with
  | nil => exact hs
  | cons e l ih =>
    unfold State.copyLines
    split
    · exact hs
    · exact ih (State.inv_spadWrite hs _ _ _ _)

theorem State.inv_rewind {s : State} (hs : s.Inv) (p : Snap) : (s.rewind p).Inv := by
  have hdrop : ∀ (l : List Nat) (at_ : Nat), (l.foldl (fun s v => s.dropVisitor v at_) s).bytes = s.bytes := fun l at_ => State.bytes_foldl _ _ _ fun s v => by simp
  unfold State.rewind
  dsimp only
  split
  · exact State.inv_of_bytes hs (by simp [hdrop])
  · split
    · exact State.inv_of_bytes hs (by simp [hdrop])
    · split
      · exact State.inv_of_bytes hs (by simp [hdrop])
      · exact State.inv_spadWrite (State.inv_of_bytes hs (by simp [hdrop])) _ _ _ _

theorem State.inv_rewindParty {s : State} (hs : s.Inv) (p : Snap) : (s.rewindParty p).Inv := by
  unfold State.rewindParty
  dsimp only
  split
  · split
    · exact hs
    · exact State.inv_of_bytes hs (by simp)
  · exact State.inv_rewind hs p

theorem State.inv_recallAll {s : State} (hs : s.Inv) (region : List Nat) : (s.recallAll region).Inv := by
  unfold State.recallAll
  dsimp only
  refine State.inv_foldl (fun s k h => State.inv_of_bytes h (by simp)) _ ?_
  refine State.inv_of_bytes (State.inv_foldl (fun s p h => State.inv_rewindParty h p) _ ?_) (State.bytes_mk _)
  exact State.inv_foldl (fun s i h => State.inv_of_bytes h (by simp)) _ hs

theorem State.inv_escalate {s : State} (hs : s.Inv) (located target : Nat) : (s.escalate located target).Inv := by
  unfold State.escalate
  refine State.inv_of_bytes ?_ ((State.bytes_regionRecords ..).trans (State.bytes_mk _))
  exact State.inv_foldl (fun s cl h => State.inv_of_bytes h (by simp)) _ hs

theorem State.inv_detect {s : State} (hs : s.Inv) (cl target : Nat) (fails : BitVec 8) : (s.detect cl target fails).Inv := by
  unfold State.detect
  dsimp only
  split
  · exact hs
  · split
    · exact State.inv_escalate (State.inv_of_bytes hs (by simp)) _ _
    · refine State.inv_of_bytes (State.inv_recallAll (State.inv_foldl (fun s c h => State.inv_of_bytes h (by simp)) _ (State.inv_of_bytes hs ?_)) _)
        ((State.bytes_regionRecords ..).trans (State.bytes_withdrawRestored ..))
      simp

/-- Writing undo memory's lines back keeps the canonical form. -/
theorem Cluster.wf_unwrite (c : Cluster) (target : Nat) (h : c.spad.wf = true) : (c.unwrite target).spad.wf = true := by
  have hfold : ∀ (l : List UndoLine) (m : Memory), m.wf = true → (l.foldl (fun m u => Memory.writeN m (16 * u.line) u.old.toNat 16) m).wf = true := by
    intro l
    induction l with
    | nil => exact fun m hm => hm
    | cons u l ih => exact fun m hm => ih _ (Memory.wf_writeN _ _ _ _ hm)
  exact hfold _ _ h

theorem State.inv_restoreCluster {s : State} (hs : s.Inv) (cl : Nat) (r : Restore) : (s.restoreCluster cl r).Inv := by
  unfold State.restoreCluster
  dsimp only
  refine State.inv_foldl (fun s n h => State.inv_of_bytes h (by simp)) _ (State.inv_of_bytes ?_ (State.bytes_settleCalls ..))
  refine State.inv_foldl (fun s p h => State.inv_rewind h p) _ (State.inv_foldl (fun s ci h => State.inv_of_bytes h (by simp)) _ ?_)
  refine State.inv_of_bytes (State.inv_of_bytes ?_ ((State.bytes_answerAgain ..).trans ((State.bytes_redrain ..).trans ((State.bytes_resend ..).trans (State.bytes_restoreCtxs ..))))) (State.bytes_mk _)
  have hs2 : ∀ (t : State), t.bytes = s.bytes → (t.clu cl).spad.wf = true := fun t ht => (State.inv_of_bytes hs ht).2.2 cl
  exact State.inv_modClu (State.inv_of_bytes hs (by simp)) cl _ (Cluster.wf_unwrite _ _ (hs2 _ (by simp)))

theorem State.inv_vectorServe {s : State} (hs : s.Inv) (ci : Nat) (e : SeqEntry) : (s.vectorServe ci e).Inv := by
  have hstore : ∀ (c : Bool) src ps, (if c then s.vStoreBank src ps else s).Inv := by
    intro c src ps
    split
    · exact State.inv_vStoreBank hs _ _
    · exact hs
  unfold State.vectorServe
  dsimp only
  split
  · exact hs
  · split
    · exact State.inv_of_bytes (hstore _ _ _) ((State.bytes_leaveSeq ..).trans (State.bytes_modHead ..))
    · exact State.inv_of_bytes (hstore _ _ _) (State.bytes_modHead ..)

theorem State.inv_serveLine {s : State} (hs : s.Inv) (cl r line : Nat) (u : EngineLeft) : (s.serveLine cl r line u).Inv := by
  unfold State.serveLine
  dsimp only
  split
  · refine State.inv_of_bytes (State.inv_foldl (fun s p h => ?_) _ hs) (State.bytes_setUnits ..)
    split
    · exact h
    · split
      · exact h
      · exact State.inv_spadWrite h _ _ _ _
  · exact State.inv_of_bytes hs (by simp)

theorem State.inv_of_writeRecord {s t : State} {a : AcctRec} (hs : s.Inv) (h : s.writeRecord a = some t) : t.Inv := by
  unfold State.writeRecord at h
  dsimp only at h
  split at h
  · cases h
  · split at h
    · next ht => obtain rfl := Option.some.inj h; exact State.inv_of_bytes hs (State.bytes_of_acctAsk ht)
    · split at h
      · obtain rfl := Option.some.inj h; exact State.inv_of_bytes hs (by simp)
      · split at h
        · split at h
          · obtain rfl := Option.some.inj h; exact State.inv_of_bytes hs (by simp)
          · cases h
        · split at h
          · next ht => obtain rfl := Option.some.inj h; exact State.inv_of_bytes hs (State.bytes_of_acctAsk ht)
          · split at h
            · obtain rfl := Option.some.inj h; exact State.inv_of_bytes hs (by simp)
            · split at h
              · next ht => obtain rfl := Option.some.inj h; exact State.inv_of_bytes hs (State.bytes_of_portAsk ht)
              · obtain rfl := Option.some.inj h
                exact State.inv_of_bytes (State.inv_sliceStore (State.inv_sliceStore (State.inv_of_bytes hs (State.bytes_mk _)) _ _ _ _ _ _) _ _ _ _ _ _) (State.bytes_beginStall ..)

end Sys2Proof.Machine
end


section
/-!
PROOFS. What the bodies of meanings, and most meanings, leave of memory: no byte of it moves.
-/

namespace Sys2Proof.Machine

/-! What the bodies of meanings leave of memory. -/

/-- An answer of an instruction's body moves no byte. -/
def Res.Keeps (s : State) : Res → Prop
  | .ok t => t.bytes = s.bytes
  | .hold t _ => t.bytes = s.bytes
  | _ => True

@[simp] theorem Res.keeps_ok (s t : State) : Res.Keeps s (.ok t) ↔ t.bytes = s.bytes := Iff.rfl
@[simp] theorem Res.keeps_hold (s t : State) (k : Cause) : Res.Keeps s (.hold t k) ↔ t.bytes = s.bytes := Iff.rfl
@[simp] theorem Res.keeps_wait (s : State) (k : Cause) : Res.Keeps s (.wait k) := trivial
@[simp] theorem Res.keeps_trap (s : State) (t : Trap) (v : Word) : Res.Keeps s (.trap t v) := trivial

/-- A meaning answers a next state, and has moved no byte. -/
def Out.Keeps (s : State) : Out → Prop
  | .next t => t.bytes = s.bytes
  | _ => False

@[simp] theorem Out.keeps_next (s t : State) : Out.Keeps s (.next t) ↔ t.bytes = s.bytes := Iff.rfl

theorem keeps_finish {s : State} {r : Res} (h : Res.Keeps s r) : Out.Keeps s (finish s r) := by
  cases r with
  | ok t => simpa [finish] using h
  | wait k => simp [finish]
  | hold t k => simpa [finish] using h
  | trap t v => simp [finish]

theorem keeps_finishPort {s : State} {r : Res} (h : Res.Keeps s r) : Out.Keeps s (finishPort s r) := by
  cases r with
  | ok t => simpa [finishPort] using h
  | wait k => simp [finishPort, finish]
  | hold t k => simpa [finishPort, finish] using h
  | trap t v => simp [finishPort, finish]

/-- Cycles charged and instructions settled after a body move no byte. -/
theorem bytes_settle {s : State} {r : Res} (h : Res.Keeps s r) : (settle s r).bytes = s.bytes := by
  cases r with
  | ok t => simpa [settle] using h
  | wait k => simp [settle]
  | hold t k => simpa [settle] using h
  | trap t v => simp [settle]
@[simp] theorem State.keeps_retire (s : State) (l : Nat) (srcs : List Src) (taken : List Target) (d : Dst) (v : Word) : Res.Keeps s (State.retire s l srcs taken d v) := by
  simp [State.retire]

theorem State.keeps_of_fieldStop {s : State} {w : Word} {d : List Dst} {srcs : List Src} {rs : List Nat} {more : List (Option Cause)} {r : Res} (h : s.fieldStop w d srcs rs more = some r) :
    Res.Keeps s r := by
  unfold State.fieldStop at h
  split at h
  · obtain rfl := Option.some.inj h
    simp
  · split at h
    · obtain rfl := Option.some.inj h
      simp
    · split at h
      · obtain rfl := Option.some.inj h
        simp
      · split at h
        · obtain rfl := Option.some.inj h
          simp
        · obtain ⟨k, -, rfl⟩ := Option.map_eq_some_iff.mp h
          simp

@[simp] theorem keeps_scalar1 (s : State) (w : Word) (l : Nat) (d : Dst) (a : Src) (f : Word → Word) : Res.Keeps s (scalar1 s w l d a f) := by
  unfold scalar1
  split
  · next h => exact State.keeps_of_fieldStop h
  · split <;> simp

@[simp] theorem keeps_scalar2 (s : State) (w : Word) (l : Nat) (d : Dst) (a b : Src) (f : Word → Word → Word) : Res.Keeps s (scalar2 s w l d a b f) := by
  unfold scalar2
  split
  · next h => exact State.keeps_of_fieldStop h
  · split <;> simp

theorem State.keeps_regs (s : State) (rs : List (BitVec 5)) (wr : List (BitVec 5)) (r : Res) (h : Res.Keeps s r) : Res.Keeps s (State.regs s rs wr r) := by
  unfold State.regs
  repeat' split
  all_goals simp [h]

theorem State.keeps_memForm (s : State) (rs wr : List (BitVec 5)) (more : List (Option Cause)) (r : Res) (h : Res.Keeps s r) : Res.Keeps s (State.memForm s rs wr more r) := by
  unfold State.memForm
  repeat' split
  all_goals simp [h]

theorem State.keeps_of_vecStop {s : State} {i : Instr} {h : VShape} {r : Res} (hr : s.vecStop i h = some r) : Res.Keeps s r := by
  unfold State.vecStop at hr
  split at hr
  · obtain rfl := Option.some.inj hr
    simp
  · split at hr
    · obtain rfl := Option.some.inj hr
      simp
    · split at hr
      · obtain rfl := Option.some.inj hr
        simp
      · obtain ⟨k, -, rfl⟩ := Option.map_eq_some_iff.mp hr
        simp

@[simp] theorem State.keeps_vecIssue (s : State) (i : Instr) : Res.Keeps s (State.vecIssue s i) := by
  unfold State.vecIssue
  split
  · simp
  · split
    · next hr => exact State.keeps_of_vecStop hr
    · split <;> simp

@[simp] theorem State.keeps_vmemIssue (s : State) (i : Instr) : Res.Keeps s (State.vmemIssue s i) := by
  unfold State.vmemIssue
  split
  · simp
  · split
    · next hr => exact State.keeps_of_vecStop hr
    · split
      · simp
      · extract_lets
        split
        · simp
        · extract_lets
          split
          · simp
          · split <;> simp

@[simp] theorem State.keeps_csrForm (s : State) (i : Instr) (d a : BitVec 5) (n : BitVec 13) (write : Bool) (f : Word → Word) : Res.Keeps s (State.csrForm s i d a n write f) := by
  unfold State.csrForm
  split
  · simp
  · refine State.keeps_regs _ _ _ _ ?_
    split
    · simp
    · split <;> simp

@[simp] theorem State.keeps_tretForm (s : State) : Res.Keeps s (State.tretForm s) := by
  unfold State.tretForm
  dsimp only
  repeat' split
  all_goals simp

@[simp] theorem State.keeps_bankForm (s : State) (a : BankAccess) (d : Option Dst) : Res.Keeps s (State.bankForm s a d) := by
  simp [State.bankForm]

@[simp] theorem State.keeps_loadBank (s : State) (d : Dst) (a : BankAccess) (acq : Bool) : Res.Keeps s (State.loadBank s d a acq) := by
  simp [State.loadBank]

@[simp] theorem State.keeps_loadDevice (s : State) (d : Dst) (ea : Word) (off n : Nat) (sg acq : Bool) : Res.Keeps s (State.loadDevice s d ea off n sg acq) := by
  unfold State.loadDevice
  repeat' split
  all_goals simp

@[simp] theorem State.keeps_loadAt (s : State) (d : Dst) (ea : Word) (n : Nat) (sg acq : Bool) : Res.Keeps s (State.loadAt s d ea n sg acq) := by
  unfold State.loadAt
  split <;> simp

@[simp] theorem State.keeps_loadForm (s : State) (i : Instr) (d : Dst) (a : BitVec 5) (w : BitVec 2) (o : BitVec 9) (sg acq : Bool) : Res.Keeps s (State.loadForm s i d a w o sg acq) := by
  unfold State.loadForm
  extract_lets
  split
  · next h => exact State.keeps_of_fieldStop h
  · simp

@[simp] theorem State.keeps_storeAt (s : State) (v : Word) (taken : List Target) (ea : Word) (n : Nat) (rel : Bool) : Res.Keeps s (State.storeAt s v taken ea n rel) := by
  unfold State.storeAt
  split
  · simp
  · simp [State.bankForm]
  · simp [State.bankForm]
  · split <;> simp
  · simp

@[simp] theorem State.keeps_storeForm (s : State) (i : Instr) (d : Src) (a : BitVec 5) (w : BitVec 2) (o : BitVec 9) (rel : Bool) : Res.Keeps s (State.storeForm s i d a w o rel) := by
  unfold State.storeForm
  extract_lets
  split
  · next h => exact State.keeps_of_fieldStop h
  · split <;> simp

@[simp] theorem State.keeps_atomicAt (s : State) (d : BitVec 5) (ea : Word) (n : Nat) (bop : BankOp) (kind : ReqKind) (v e : Word) : Res.Keeps s (State.atomicAt s d ea n bop kind v e) := by
  unfold State.atomicAt
  split <;> simp

@[simp] theorem State.keeps_amoForm (s : State) (op : AmoOp) (d a b : BitVec 5) (w : Bool) : Res.Keeps s (State.amoForm s op d a b w) := by
  unfold State.amoForm
  exact State.keeps_memForm _ _ _ _ _ (by simp)

@[simp] theorem State.keeps_fence (s : State) (sc : Bool) (c : BitVec 3) : Res.Keeps s (State.fence s sc c) := by
  unfold State.fence
  repeat' split
  all_goals simp

@[simp] theorem State.keeps_waitForm (s : State) (d a b : BitVec 5) (w : Bool) : Res.Keeps s (State.waitForm s d a b w) := by
  unfold State.waitForm
  refine State.keeps_memForm _ _ _ _ _ ?_
  split
  · simp
  · split <;> simp
  · simp

@[simp] theorem State.keeps_notifyForm (s : State) (d a : BitVec 5) (all : Bool) : Res.Keeps s (State.notifyForm s d a all) := by
  unfold State.notifyForm
  refine State.keeps_memForm _ _ _ _ _ ?_
  split
  · simp
  · split <;> simp
  · simp

theorem State.keeps_matrixForm (s : State) (i : Instr) (rs : List (BitVec 5)) (more : List (Option Cause)) (r : Res) (h : Res.Keeps s r) : Res.Keeps s (State.matrixForm s i rs more r) := by
  unfold State.matrixForm
  repeat' split
  all_goals simp [h]

@[simp] theorem State.keeps_enterPort (s : State) (p : PortEntry) : Res.Keeps s (State.enterPort s p) := by
  simp [State.enterPort]

@[simp] theorem State.keeps_portIssue (s : State) (p : PortEntry) : Res.Keeps s (State.portIssue s p) := by
  unfold State.portIssue
  split <;> simp

@[simp] theorem State.keeps_accMove (s : State) (i : Instr) (t : BitVec 4) (a b : BitVec 5) : Res.Keeps s (State.accMove s i t a b) := by
  unfold State.accMove
  dsimp only
  repeat' split
  all_goals simp [State.keeps_regs, State.keeps_memForm, State.keeps_matrixForm]

@[simp] theorem State.keeps_areaMove (s : State) (i : Instr) (a : BitVec 5) (saved : Bool) : Res.Keeps s (State.areaMove s i a saved) := by
  unfold State.areaMove
  refine State.keeps_matrixForm _ _ _ _ _ ?_
  dsimp only
  split
  · simp
  · split
    · simp
    · split
      · next u hu =>
        have hk : Res.Keeps s (.ok u) := hu ▸ s.keeps_portIssue _
        simpa using hk
      · exact s.keeps_portIssue _

@[simp] theorem State.keeps_blockForm (s : State) (i : Instr) (a : Word) (size : Nat) (global : Bool) : Res.Keeps s (State.blockForm s i a size global) := by
  unfold State.blockForm
  repeat' split
  all_goals simp

@[simp] theorem State.keeps_shapeAt (s : State) (n : BitVec 3) (a : Word) : Res.Keeps s (State.shapeAt s n a) := by
  unfold State.shapeAt
  repeat' split
  all_goals simp

@[simp] theorem keeps_fmtPerform (i : Instr) (s : State) (v : Nat) : Res.Keeps s (fmtPerform i s v) := by
  unfold fmtPerform
  split <;> simp

@[simp] theorem State.keeps_tileForm (s : State) (i : Instr) (rs wr : List (BitVec 5)) : Res.Keeps s (State.tileForm s i rs wr) := by
  unfold State.tileForm
  split
  · simp
  · refine State.keeps_regs _ _ _ _ ?_
    split <;> simp

@[simp] theorem keeps_rdefPerform (n : BitVec 4) (a b : BitVec 5) (s : State) : Res.Keeps s (rdefPerform n a b s) := by
  unfold rdefPerform
  dsimp only
  repeat' split
  all_goals simp

@[simp] theorem keeps_rpopPerform (n : BitVec 4) (s : State) : Res.Keeps s (rpopPerform n s) := by
  unfold rpopPerform
  dsimp only
  repeat' split
  all_goals simp

@[simp] theorem keeps_rpushPerform (n : BitVec 4) (s : State) : Res.Keeps s (rpushPerform n s) := by
  unfold rpushPerform
  dsimp only
  repeat' split
  all_goals simp

@[simp] theorem keeps_texpPerform (a b : BitVec 5) (s : State) : Res.Keeps s (texpPerform a b s) := by
  unfold texpPerform
  dsimp only
  repeat' split
  all_goals simp

@[simp] theorem keeps_ttagPerform (d a b : BitVec 5) (s : State) : Res.Keeps s (ttagPerform d a b s) := by
  unfold ttagPerform
  dsimp only
  repeat' split
  all_goals simp

@[simp] theorem keeps_twaitPerform (d a b : BitVec 5) (s : State) : Res.Keeps s (twaitPerform d a b s) := by
  unfold twaitPerform
  dsimp only
  repeat' split
  all_goals simp

@[simp] theorem keeps_xcopyPerform (a : Word) (s : State) (v : Nat) : Res.Keeps s (xcopyPerform a s v) := by
  unfold xcopyPerform
  dsimp only
  repeat' split
  all_goals simp

@[simp] theorem State.keeps_engineForm (s : State) (i : Instr) (a : BitVec 5) : Res.Keeps s (State.engineForm s i a) := by
  unfold State.engineForm
  split
  · simp
  · exact State.keeps_memForm _ _ _ _ _ (by simp)

@[simp] theorem keeps_walkPerform (drain : Bool) (a : Word) (s : State) (v : Nat) : Res.Keeps s (walkPerform drain a s v) := by
  unfold walkPerform
  dsimp only
  repeat' split
  all_goals simp

@[simp] theorem State.keeps_meetForm (s : State) (d a b : BitVec 5) : Res.Keeps s (State.meetForm s d a b) := by
  unfold State.meetForm
  dsimp only
  repeat' split
  all_goals simp [State.keeps_regs, State.keeps_memForm, State.keeps_matrixForm]

@[simp] theorem State.keeps_rollForm (s : State) (i : Instr) (op : Nat) (d a b : BitVec 5) : Res.Keeps s (State.rollForm s i op d a b) := by
  unfold State.rollForm
  dsimp only
  repeat' split
  all_goals simp [State.keeps_regs, State.keeps_memForm, State.keeps_matrixForm]

@[simp] theorem keeps_launchPerform (i : Instr) (d a : BitVec 5) (s : State) (v : Nat) : Res.Keeps s (launchPerform i d a s v) := by
  unfold launchPerform
  repeat' split
  all_goals simp

@[simp] theorem keeps_sbindPerform (a : Word) (s : State) (v : Nat) : Res.Keeps s (sbindPerform a s v) := by
  unfold sbindPerform
  dsimp only
  repeat' split
  all_goals simp

@[simp] theorem State.keeps_streamOutput (s : State) (k : ReqKind) (v : Nat) : Res.Keeps s (State.streamOutput s k v) := by
  unfold State.streamOutput
  split <;> simp

@[simp] theorem keeps_emitPerform (x : Nat) (s : State) (v : Nat) : Res.Keeps s (emitPerform x s v) := by
  simp [emitPerform]

@[simp] theorem keeps_publPerform (i : Instr) (s : State) (v : Nat) : Res.Keeps s (publPerform i s v) := by
  unfold publPerform
  split
  · simp
  · next w _ =>
    have hk := s.keeps_streamOutput (.publ w.stream w.window w.lane w.revision w.amend) v
    split
    · next u hu => simpa [hu] using hk
    · exact hk

@[simp] theorem keeps_divide (s : State) (w : Word) (d : Dst) (a b : Src) (f : Word → Word → Word) : Res.Keeps s (divide s w d a b f) := by
  unfold divide
  have hk := keeps_scalar2 s w 18 d a b f
  split
  · next u hu =>
    rw [hu] at hk
    split
    · simp
    · simpa using hk
  · exact hk

@[simp] theorem keeps_branch (s : State) (a b : BitVec 5) (o : BitVec 13) (f : Word → Word → Bool) : Res.Keeps s (branch s a b o f) := by
  unfold branch
  dsimp only
  repeat' split
  all_goals simp [State.keeps_regs, State.keeps_memForm, State.keeps_matrixForm]

@[simp] theorem keeps_formPerform (i : Instr) (s : State) (v : Nat) : Res.Keeps s (formPerform i s v) := by
  cases i
  case mfmt => exact keeps_fmtPerform ..
  case xcopy => exact keeps_xcopyPerform ..
  case xsub => exact keeps_walkPerform ..
  case xdrain => exact keeps_walkPerform ..
  case sbind => exact keeps_sbindPerform ..
  case launch => exact keeps_launchPerform ..
  case emit => exact keeps_emitPerform ..
  case publ => exact keeps_publPerform ..
  case rdef => exact keeps_rdefPerform ..
  case rpop => exact keeps_rpopPerform ..
  case rpush => exact keeps_rpushPerform ..
  case texp => exact keeps_texpPerform ..
  case ttag => exact keeps_ttagPerform ..
  case twait => exact keeps_twaitPerform ..
  all_goals rfl
theorem keeps_execCsrr (d : BitVec 5) (c : BitVec 13) (s : State) : Out.Keeps s (execCsrr d c s) := keeps_finish (by simp)

theorem keeps_execCsrw (d a : BitVec 5) (c : BitVec 13) (s : State) : Out.Keeps s (execCsrw d a c s) := keeps_finish (by simp)

theorem keeps_execCsrs (d a : BitVec 5) (c : BitVec 13) (s : State) : Out.Keeps s (execCsrs d a c s) := keeps_finish (by simp)

theorem keeps_execCsrc (d a : BitVec 5) (c : BitVec 13) (s : State) : Out.Keeps s (execCsrc d a c s) := keeps_finish (by simp)

theorem keeps_execScall (i : BitVec 20) (s : State) : Out.Keeps s (execScall i s) := by
  simp [execScall]

theorem keeps_execBrk (i : BitVec 20) (s : State) : Out.Keeps s (execBrk i s) := by
  unfold execBrk
  split <;> simp

theorem keeps_execUiret (s : State) : Out.Keeps s (execUiret s) := by
  unfold execUiret
  dsimp only
  repeat' split
  all_goals simp

theorem keeps_execSleep (i : BitVec 20) (s : State) : Out.Keeps s (execSleep i s) := by
  unfold execSleep
  repeat' split
  all_goals simp

theorem keeps_execChbind (n a : BitVec 5) (s : State) : Out.Keeps s (execChbind n a s) := by
  unfold execChbind
  dsimp only
  repeat' split
  all_goals simp

theorem keeps_execAcct (d a : BitVec 5) (s : State) : Out.Keeps s (execAcct d a s) := by
  unfold execAcct
  refine keeps_finish (State.keeps_regs _ _ _ _ ?_)
  simp

theorem keeps_execSleepTimeout (sid : Nat) (s : State) : Out.Keeps s (execSleepTimeout sid s) := by
  unfold execSleepTimeout
  split <;> simp

theorem keeps_execDebugRelease (sid : Nat) (s : State) : Out.Keeps s (execDebugRelease sid s) := by
  simp [execDebugRelease]

theorem keeps_execLd (d : Dst) (a : BitVec 5) (w : BitVec 2) (o : BitVec 9) (s : State) : Out.Keeps s (execLd d a w o s) := keeps_finish (by simp)

theorem keeps_execLdu (d : Dst) (a : BitVec 5) (w : BitVec 2) (o : BitVec 9) (s : State) : Out.Keeps s (execLdu d a w o s) := keeps_finish (by simp)

theorem keeps_execLda (d : Dst) (a : BitVec 5) (w : BitVec 2) (o : BitVec 9) (s : State) : Out.Keeps s (execLda d a w o s) := keeps_finish (by simp)

theorem keeps_execSt (d : Src) (a : BitVec 5) (w : BitVec 2) (o : BitVec 9) (s : State) : Out.Keeps s (execSt d a w o s) := keeps_finish (by simp)

theorem keeps_execStl (d : Src) (a : BitVec 5) (w : BitVec 2) (o : BitVec 9) (s : State) : Out.Keeps s (execStl d a w o s) := keeps_finish (by simp)

theorem keeps_execAmoAdd (d a b : BitVec 5) (w : Bool) (s : State) : Out.Keeps s (execAmoAdd d a b w s) := keeps_finish (by simp)

theorem keeps_execAmoAnd (d a b : BitVec 5) (w : Bool) (s : State) : Out.Keeps s (execAmoAnd d a b w s) := keeps_finish (by simp)

theorem keeps_execAmoOr (d a b : BitVec 5) (w : Bool) (s : State) : Out.Keeps s (execAmoOr d a b w s) := keeps_finish (by simp)

theorem keeps_execAmoXor (d a b : BitVec 5) (w : Bool) (s : State) : Out.Keeps s (execAmoXor d a b w s) := keeps_finish (by simp)

theorem keeps_execAmoMin (d a b : BitVec 5) (w : Bool) (s : State) : Out.Keeps s (execAmoMin d a b w s) := keeps_finish (by simp)

theorem keeps_execAmoMax (d a b : BitVec 5) (w : Bool) (s : State) : Out.Keeps s (execAmoMax d a b w s) := keeps_finish (by simp)

theorem keeps_execAmoMinu (d a b : BitVec 5) (w : Bool) (s : State) : Out.Keeps s (execAmoMinu d a b w s) := keeps_finish (by simp)

theorem keeps_execAmoMaxu (d a b : BitVec 5) (w : Bool) (s : State) : Out.Keeps s (execAmoMaxu d a b w s) := keeps_finish (by simp)

theorem keeps_execAmoSwap (d a b : BitVec 5) (w : Bool) (s : State) : Out.Keeps s (execAmoSwap d a b w s) := keeps_finish (by simp)

theorem keeps_execCas (d a b : BitVec 5) (w : Bool) (s : State) : Out.Keeps s (execCas d a b w s) := by
  unfold execCas
  refine keeps_finish (State.keeps_memForm _ _ _ _ _ ?_)
  simp

theorem keeps_execFence (sc : Bool) (c : BitVec 3) (s : State) : Out.Keeps s (execFence sc c s) := keeps_finish (by simp)

theorem keeps_execWait (d a b : BitVec 5) (w : Bool) (s : State) : Out.Keeps s (execWait d a b w s) := keeps_finish (by simp)

theorem keeps_execNotify (d a : BitVec 5) (all : Bool) (s : State) : Out.Keeps s (execNotify d a all s) := keeps_finish (by simp)

theorem keeps_execMzero (c : BitVec 2) (s : State) : Out.Keeps s (execMzero c s) := by
  unfold execMzero
  refine keeps_finishPort (State.keeps_matrixForm _ _ _ _ _ ?_)
  simp

theorem keeps_execMtest (s : State) : Out.Keeps s (execMtest s) := by
  unfold execMtest
  refine keeps_finishPort (State.keeps_matrixForm _ _ _ _ _ ?_)
  simp

theorem keeps_execMlda (t : BitVec 4) (n : Bool) (a b : BitVec 5) (s : State) : Out.Keeps s (execMlda t n a b s) := keeps_finishPort (by simp)

theorem keeps_execMsta (t : BitVec 4) (n : Bool) (a b : BitVec 5) (s : State) : Out.Keeps s (execMsta t n a b s) := keeps_finishPort (by simp)

theorem keeps_execMsave (a : BitVec 5) (s : State) : Out.Keeps s (execMsave a s) := keeps_finishPort (by simp)

theorem keeps_execMrstr (a : BitVec 5) (s : State) : Out.Keeps s (execMrstr a s) := keeps_finishPort (by simp)

theorem keeps_execMmaStep (ci : Nat) (s : State) : Out.Keeps s (execMmaStep ci s) := by
  unfold execMmaStep
  dsimp only
  repeat' split
  all_goals simp

theorem keeps_execPortRetire (ci : Nat) (s : State) : Out.Keeps s (execPortRetire ci s) := by
  unfold execPortRetire
  repeat' split
  all_goals simp

theorem keeps_execRdef (n : BitVec 4) (a b : BitVec 5) (s : State) : Out.Keeps s (execRdef n a b s) := keeps_finish (by simp)

theorem keeps_execRpop (n : BitVec 4) (s : State) : Out.Keeps s (execRpop n s) := keeps_finish (by simp)

theorem keeps_execRpush (n : BitVec 4) (s : State) : Out.Keeps s (execRpush n s) := keeps_finish (by simp)

theorem keeps_execTexp (a b : BitVec 5) (s : State) : Out.Keeps s (execTexp a b s) := keeps_finish (by simp)

theorem keeps_execTtag (d a b : BitVec 5) (s : State) : Out.Keeps s (execTtag d a b s) := keeps_finish (by simp)

theorem keeps_execTwait (d a b : BitVec 5) (s : State) : Out.Keeps s (execTwait d a b s) := keeps_finish (by simp)

theorem keeps_execTwaitTimeout (sid : Nat) (s : State) : Out.Keeps s (execTwaitTimeout sid s) := by
  unfold execTwaitTimeout
  split <;> simp

theorem keeps_execWaitTimeout (sid : Nat) (s : State) : Out.Keeps s (execWaitTimeout sid s) := by
  unfold execWaitTimeout
  split <;> simp

theorem keeps_execXcopy (a : BitVec 5) (s : State) : Out.Keeps s (execXcopy a s) := keeps_finish (by simp)

theorem keeps_execXsub (a : BitVec 5) (s : State) : Out.Keeps s (execXsub a s) := keeps_finish (by simp)

theorem keeps_execXdrain (a : BitVec 5) (s : State) : Out.Keeps s (execXdrain a s) := keeps_finish (by simp)

theorem keeps_execXcopyStart (ci xid : Nat) (s : State) : Out.Keeps s (execXcopyStart ci xid s) := by
  unfold execXcopyStart
  dsimp only
  repeat' split
  all_goals simp

theorem keeps_execTagCredit (n : Nat) (s : State) : Out.Keeps s (execTagCredit n s) := by
  unfold execTagCredit
  dsimp only
  repeat' split
  all_goals simp

theorem keeps_execTileFirstByteArrival (n ci : Nat) (s : State) : Out.Keeps s (execTileFirstByteArrival n ci s) := by
  unfold execTileFirstByteArrival
  repeat' split
  all_goals simp

theorem keeps_execBufferFreeSignal (ci ring tag : Nat) (s : State) : Out.Keeps s (execBufferFreeSignal ci ring tag s) := by
  unfold execBufferFreeSignal
  repeat' split
  all_goals simp

theorem keeps_execUnsubscribeAtLoader (id : Nat) (s : State) : Out.Keeps s (execUnsubscribeAtLoader id s) := by
  unfold execUnsubscribeAtLoader
  repeat' split
  all_goals simp

theorem keeps_execDrainStart (n : Nat) (s : State) : Out.Keeps s (execDrainStart n s) := by
  unfold execDrainStart
  dsimp only
  repeat' split
  all_goals simp

theorem keeps_execStorerTilePerformed (n : Nat) (s : State) : Out.Keeps s (execStorerTilePerformed n s) := by
  unfold execStorerTilePerformed
  repeat' split
  all_goals simp

theorem keeps_execUserLevelInterrupt (sid : Nat) (s : State) : Out.Keeps s (execUserLevelInterrupt sid s) := by
  unfold execUserLevelInterrupt
  dsimp only
  repeat' split
  all_goals simp

theorem keeps_execQpidxWrite (q : Nat) (v : Word) (s : State) : Out.Keeps s (execQpidxWrite q v s) := by
  simp [execQpidxWrite]

theorem keeps_execQueueEnable (q : Nat) (en : Bool) (s : State) : Out.Keeps s (execQueueEnable q en s) := by
  simp [execQueueEnable]

theorem keeps_execCqridxWrite (q : Nat) (v : Word) (s : State) : Out.Keeps s (execCqridxWrite q v s) := by
  simp [execCqridxWrite]

theorem keeps_execXlinv (p : Nat) (v : Word) (s : State) : Out.Keeps s (execXlinv p v s) := by
  simp [execXlinv]

theorem keeps_execRtctlWrite (slice : Nat) (v : Word) (s : State) : Out.Keeps s (execRtctlWrite slice v s) := by
  simp [execRtctlWrite]

theorem keeps_execClshareWrite (cl : Nat) (v : Word) (s : State) : Out.Keeps s (execClshareWrite cl v s) := by
  simp [execClshareWrite]

theorem keeps_execErrorRecordClear (p die n : Nat) (s : State) : Out.Keeps s (execErrorRecordClear p die n s) := by
  simp [execErrorRecordClear]

theorem keeps_execFeatctlGo (s : State) : Out.Keeps s (execFeatctlGo s) := by
  simp [execFeatctlGo]

theorem keeps_execDeviceRegisterWrite (p off : Nat) (v : Word) (s : State) : Out.Keeps s (execDeviceRegisterWrite p off v s) := by
  simp [execDeviceRegisterWrite]

theorem keeps_execHostRead (aperture : Bool) (addr : Nat) (s : State) : Out.Keeps s (execHostRead aperture addr s) := by
  simp [execHostRead]

theorem keeps_execVadd (d : VDst) (a b : VSrc) (t : BitVec 5) (k : BitVec 3) (s : State) : Out.Keeps s (execVadd d a b t k s) := keeps_finish (by simp)

theorem keeps_execVaddSat (d : VDst) (a b : VSrc) (t : BitVec 5) (k : BitVec 3) (s : State) : Out.Keeps s (execVaddSat d a b t k s) := keeps_finish (by simp)

theorem keeps_execVsub (d : VDst) (a b : VSrc) (t : BitVec 5) (k : BitVec 3) (s : State) : Out.Keeps s (execVsub d a b t k s) := keeps_finish (by simp)

theorem keeps_execVsubSat (d : VDst) (a b : VSrc) (t : BitVec 5) (k : BitVec 3) (s : State) : Out.Keeps s (execVsubSat d a b t k s) := keeps_finish (by simp)

theorem keeps_execVmul (d : VDst) (a b : VSrc) (t : BitVec 5) (k : BitVec 3) (s : State) : Out.Keeps s (execVmul d a b t k s) := keeps_finish (by simp)

theorem keeps_execVmulSat (d : VDst) (a b : VSrc) (t : BitVec 5) (k : BitVec 3) (s : State) : Out.Keeps s (execVmulSat d a b t k s) := keeps_finish (by simp)

theorem keeps_execVfma (d : BitVec 4) (a b : VSrc) (t : BitVec 5) (k : BitVec 3) (s : State) : Out.Keeps s (execVfma d a b t k s) := keeps_finish (by simp)

theorem keeps_execVfms (d : BitVec 4) (a b : VSrc) (t : BitVec 5) (k : BitVec 3) (s : State) : Out.Keeps s (execVfms d a b t k s) := keeps_finish (by simp)

theorem keeps_execVmulh (d : VDst) (a b : VSrc) (t : BitVec 5) (k : BitVec 3) (s : State) : Out.Keeps s (execVmulh d a b t k s) := keeps_finish (by simp)

theorem keeps_execVabs (d : VDst) (a : VSrc) (m : Bool) (t : BitVec 5) (k : BitVec 3) (s : State) : Out.Keeps s (execVabs d a m t k s) := keeps_finish (by simp)

theorem keeps_execVmin (d : VDst) (a b : VSrc) (t : BitVec 5) (k : BitVec 3) (s : State) : Out.Keeps s (execVmin d a b t k s) := keeps_finish (by simp)

theorem keeps_execVmax (d : VDst) (a b : VSrc) (t : BitVec 5) (k : BitVec 3) (s : State) : Out.Keeps s (execVmax d a b t k s) := keeps_finish (by simp)

theorem keeps_execVneg (d : VDst) (a : VSrc) (m : Bool) (t : BitVec 5) (k : BitVec 3) (s : State) : Out.Keeps s (execVneg d a m t k s) := keeps_finish (by simp)

theorem keeps_execVmov (d : VDst) (a : VSrc) (t : BitVec 5) (k : BitVec 3) (s : State) : Out.Keeps s (execVmov d a t k s) := keeps_finish (by simp)

theorem keeps_execVand (d : VDst) (a b : VSrc) (t : BitVec 5) (k : BitVec 3) (s : State) : Out.Keeps s (execVand d a b t k s) := keeps_finish (by simp)

theorem keeps_execVor (d : VDst) (a b : VSrc) (t : BitVec 5) (k : BitVec 3) (s : State) : Out.Keeps s (execVor d a b t k s) := keeps_finish (by simp)

theorem keeps_execVxor (d : VDst) (a b : VSrc) (t : BitVec 5) (k : BitVec 3) (s : State) : Out.Keeps s (execVxor d a b t k s) := keeps_finish (by simp)

theorem keeps_execVshr (d : VDst) (a b : VSrc) (t : BitVec 5) (k : BitVec 3) (s : State) : Out.Keeps s (execVshr d a b t k s) := keeps_finish (by simp)

theorem keeps_execVshl (d : VDst) (a b : VSrc) (t : BitVec 5) (k : BitVec 3) (s : State) : Out.Keeps s (execVshl d a b t k s) := keeps_finish (by simp)

theorem keeps_execVshlSat (d : VDst) (a b : VSrc) (t : BitVec 5) (k : BitVec 3) (s : State) : Out.Keeps s (execVshlSat d a b t k s) := keeps_finish (by simp)

theorem keeps_execVshra (d : VDst) (a b : VSrc) (t : BitVec 5) (k : BitVec 3) (s : State) : Out.Keeps s (execVshra d a b t k s) := keeps_finish (by simp)

theorem keeps_execVsel (d : VDst) (a b : VSrc) (t : BitVec 5) (k : BitVec 3) (s : State) : Out.Keeps s (execVsel d a b t k s) := keeps_finish (by simp)

theorem keeps_execVcmpEq (d : BitVec 3) (a b : VSrc) (t : BitVec 5) (k : BitVec 3) (s : State) : Out.Keeps s (execVcmpEq d a b t k s) := keeps_finish (by simp)

theorem keeps_execVcmpNe (d : BitVec 3) (a b : VSrc) (t : BitVec 5) (k : BitVec 3) (s : State) : Out.Keeps s (execVcmpNe d a b t k s) := keeps_finish (by simp)

theorem keeps_execVcmpLt (d : BitVec 3) (a b : VSrc) (t : BitVec 5) (k : BitVec 3) (s : State) : Out.Keeps s (execVcmpLt d a b t k s) := keeps_finish (by simp)

theorem keeps_execVcmpLe (d : BitVec 3) (a b : VSrc) (t : BitVec 5) (k : BitVec 3) (s : State) : Out.Keeps s (execVcmpLe d a b t k s) := keeps_finish (by simp)

theorem keeps_execVbcast (d : VDst) (a : XSrc) (t : BitVec 5) (k : BitVec 3) (s : State) : Out.Keeps s (execVbcast d a t k s) := keeps_finish (by simp)

theorem keeps_execVred (d : VDst) (a : VSrc) (o : BitVec 3) (t : BitVec 5) (k : BitVec 3) (s : State) : Out.Keeps s (execVred d a o t k s) := keeps_finish (by simp)

theorem keeps_execVcvt (d : VDst) (a : VSrc) (m : BitVec 6) (t : BitVec 5) (k : BitVec 3) (s : State) : Out.Keeps s (execVcvt d a m t k s) := keeps_finish (by simp)

theorem keeps_execVcvtSr (d : VDst) (a : VSrc) (m : BitVec 6) (t : BitVec 5) (k : BitVec 3) (s : State) : Out.Keeps s (execVcvtSr d a m t k s) := keeps_finish (by simp)

theorem keeps_execVperm (d : VDst) (a b : VSrc) (t : BitVec 5) (k : BitVec 3) (s : State) : Out.Keeps s (execVperm d a b t k s) := keeps_finish (by simp)

theorem keeps_execVslide (d : VDst) (a : VSrc) (b : XSrc) (t : BitVec 5) (k : BitVec 3) (s : State) : Out.Keeps s (execVslide d a b t k s) := keeps_finish (by simp)

theorem keeps_execVzip (d : VDst) (a b : VSrc) (t : BitVec 5) (k : BitVec 3) (s : State) : Out.Keeps s (execVzip d a b t k s) := keeps_finish (by simp)

theorem keeps_execVunzip (d : VDst) (a b : VSrc) (t : BitVec 5) (k : BitVec 3) (s : State) : Out.Keeps s (execVunzip d a b t k s) := keeps_finish (by simp)

theorem keeps_execVdot (d : BitVec 4) (a b : VSrc) (t : BitVec 5) (k : BitVec 3) (s : State) : Out.Keeps s (execVdot d a b t k s) := keeps_finish (by simp)

theorem keeps_execVplane (d : VDst) (a : VSrc) (p : BitVec 3) (h u : Bool) (t : BitVec 5) (k : BitVec 3) (s : State) : Out.Keeps s (execVplane d a p h u t k s) := keeps_finish (by simp)

theorem keeps_execVqnt (d : VDst) (a : VSrc) (b : XSrc) (t : BitVec 5) (k : BitVec 3) (s : State) : Out.Keeps s (execVqnt d a b t k s) := keeps_finish (by simp)

theorem keeps_execVdqnt (d : VDst) (a : VSrc) (b : XSrc) (t : BitVec 5) (k : BitVec 3) (s : State) : Out.Keeps s (execVdqnt d a b t k s) := keeps_finish (by simp)

theorem keeps_execVrcp (d : VDst) (a : VSrc) (t : BitVec 5) (k : BitVec 3) (s : State) : Out.Keeps s (execVrcp d a t k s) := keeps_finish (by simp)

theorem keeps_execVrsq (d : VDst) (a : VSrc) (t : BitVec 5) (k : BitVec 3) (s : State) : Out.Keeps s (execVrsq d a t k s) := keeps_finish (by simp)

theorem keeps_execVex2 (d : VDst) (a : VSrc) (t : BitVec 5) (k : BitVec 3) (s : State) : Out.Keeps s (execVex2 d a t k s) := keeps_finish (by simp)

theorem keeps_execVlg2 (d : VDst) (a : VSrc) (t : BitVec 5) (k : BitVec 3) (s : State) : Out.Keeps s (execVlg2 d a t k s) := keeps_finish (by simp)

theorem keeps_execVsin (d : VDst) (a : VSrc) (t : BitVec 5) (k : BitVec 3) (s : State) : Out.Keeps s (execVsin d a t k s) := keeps_finish (by simp)

theorem keeps_execVtanh (d : VDst) (a : VSrc) (t : BitVec 5) (k : BitVec 3) (s : State) : Out.Keeps s (execVtanh d a t k s) := keeps_finish (by simp)

theorem keeps_execVld (d : VDst) (a : BitVec 4) (t : BitVec 5) (k : BitVec 3) (s : State) : Out.Keeps s (execVld d a t k s) := keeps_finish (by simp)

theorem keeps_execVst (d a : BitVec 4) (t : BitVec 5) (k : BitVec 3) (s : State) : Out.Keeps s (execVst d a t k s) := keeps_finish (by simp)

theorem keeps_execVlds (d : VDst) (a : BitVec 4) (b : XSrc) (t : BitVec 5) (k : BitVec 3) (s : State) : Out.Keeps s (execVlds d a b t k s) := keeps_finish (by simp)

theorem keeps_execVsts (d a : BitVec 4) (b : XSrc) (t : BitVec 5) (k : BitVec 3) (s : State) : Out.Keeps s (execVsts d a b t k s) := keeps_finish (by simp)

theorem keeps_execVgthr (d : VDst) (a : BitVec 4) (b : VSrc) (t : BitVec 5) (k : BitVec 3) (s : State) : Out.Keeps s (execVgthr d a b t k s) := keeps_finish (by simp)

theorem keeps_execVsctr (d a : BitVec 4) (b : VSrc) (t : BitVec 5) (k : BitVec 3) (s : State) : Out.Keeps s (execVsctr d a b t k s) := keeps_finish (by simp)

theorem keeps_execKand (d a b : BitVec 3) (s : State) : Out.Keeps s (execKand d a b s) := keeps_finish (by simp)

theorem keeps_execKor (d a b : BitVec 3) (s : State) : Out.Keeps s (execKor d a b s) := keeps_finish (by simp)

theorem keeps_execKnot (d a : BitVec 3) (s : State) : Out.Keeps s (execKnot d a s) := keeps_finish (by simp)

theorem keeps_execKpopc (d : XDst) (a : BitVec 3) (s : State) : Out.Keeps s (execKpopc d a s) := keeps_finish (by simp)

theorem keeps_execRepf (l : BitVec 4) (a b : XSrc) (s : State) : Out.Keeps s (execRepf l a b s) := by
  unfold execRepf
  dsimp only
  repeat' split
  all_goals simp

theorem keeps_execFetchFault (code : BitVec 16) (s : State) : Out.Keeps s (execFetchFault code s) := by
  unfold execFetchFault
  split <;> simp

theorem keeps_execIllegalInstruction (w : IWord) (s : State) : Out.Keeps s (execIllegalInstruction w s) := by
  simp [execIllegalInstruction]

theorem keeps_execTranslationRequest (sid : Nat) (s : State) : Out.Keeps s (execTranslationRequest sid s) := by
  unfold execTranslationRequest
  repeat' split
  all_goals simp

theorem keeps_execRestanteRelease (id : Nat) (s : State) : Out.Keeps s (execRestanteRelease id s) := by
  unfold execRestanteRelease
  repeat' split
  all_goals simp

theorem keeps_execReleaseTranslationReturn (id : Nat) (s : State) : Out.Keeps s (execReleaseTranslationReturn id s) := by
  unfold execReleaseTranslationReturn
  repeat' split
  all_goals simp

theorem keeps_execTranslationWalkComplete (sid : Nat) (s : State) : Out.Keeps s (execTranslationWalkComplete sid s) := by
  unfold execTranslationWalkComplete
  repeat' split
  all_goals simp

theorem keeps_execDeferredTrap (sid : Nat) (s : State) : Out.Keeps s (execDeferredTrap sid s) := by
  unfold execDeferredTrap
  dsimp only
  repeat' split
  all_goals simp

theorem keeps_execFarCopyInvalidation (n : Nat) (s : State) : Out.Keeps s (execFarCopyInvalidation n s) := by
  unfold execFarCopyInvalidation
  split <;> simp

theorem keeps_execScMarkerReturn (sid m : Nat) (s : State) : Out.Keeps s (execScMarkerReturn sid m s) := by
  simp [execScMarkerReturn]

theorem keeps_execAtomicAnswerReturn (id : Nat) (s : State) : Out.Keeps s (execAtomicAnswerReturn id s) := by
  unfold execAtomicAnswerReturn
  repeat' split
  all_goals simp

theorem keeps_execStoreAcknowledge (id : Nat) (s : State) : Out.Keeps s (execStoreAcknowledge id s) := by
  unfold execStoreAcknowledge
  split <;> simp

theorem keeps_execFlitSend (m : Nat) (s : State) : Out.Keeps s (execFlitSend m s) := by
  unfold execFlitSend
  dsimp only
  repeat' split
  all_goals simp

theorem keeps_execFlitArrival (m : Nat) (crcOk : Bool) (s : State) : Out.Keeps s (execFlitArrival m crcOk s) := by
  unfold execFlitArrival
  dsimp only
  repeat' split
  all_goals simp

theorem keeps_execFlitReplay (m : Nat) (s : State) : Out.Keeps s (execFlitReplay m s) := by
  unfold execFlitReplay
  dsimp only
  repeat' split
  all_goals simp

theorem keeps_execFlitAcknowledge (m : Nat) (s : State) : Out.Keeps s (execFlitAcknowledge m s) := by
  unfold execFlitAcknowledge
  split <;> simp

theorem keeps_execRemoteResponseArrival (n : Nat) (s : State) : Out.Keeps s (execRemoteResponseArrival n s) := by
  unfold execRemoteResponseArrival
  dsimp only
  repeat' split
  all_goals simp

theorem keeps_execResponseAcknowledgement (n : Nat) (s : State) : Out.Keeps s (execResponseAcknowledgement n s) := by
  simp [execResponseAcknowledgement]

theorem keeps_execAttestation (nonce : BitVec 256) (s : State) : Out.Keeps s (execAttestation nonce s) := by
  unfold execAttestation
  dsimp only
  repeat' split
  all_goals simp

theorem keeps_execHbmEccError (addr : Nat) (corrected : Bool) (syndrome : Word) (s : State) : Out.Keeps s (execHbmEccError addr corrected syndrome s) := by
  simp [execHbmEccError]

theorem keeps_execSramEccCorrection (engine : BitVec 4) (die : Nat) (parts : List Nat) (syndrome : Word) (s : State) : Out.Keeps s (execSramEccCorrection engine die parts syndrome s) := by
  simp [execSramEccCorrection]

theorem keeps_execSliceUncorrectedError (slice : Nat) (s : State) : Out.Keeps s (execSliceUncorrectedError slice s) := by
  simp [execSliceUncorrectedError]

theorem keeps_execMeet (d a b : BitVec 5) (s : State) : Out.Keeps s (execMeet d a b s) := keeps_finish (by simp)

theorem keeps_execRollNone (d a b : BitVec 5) (s : State) : Out.Keeps s (execRollNone d a b s) := keeps_finish (by simp)

theorem keeps_execRollAdd (d a b : BitVec 5) (s : State) : Out.Keeps s (execRollAdd d a b s) := keeps_finish (by simp)

theorem keeps_execRollMin (d a b : BitVec 5) (s : State) : Out.Keeps s (execRollMin d a b s) := keeps_finish (by simp)

theorem keeps_execRollMax (d a b : BitVec 5) (s : State) : Out.Keeps s (execRollMax d a b s) := keeps_finish (by simp)

theorem keeps_execRollUmin (d a b : BitVec 5) (s : State) : Out.Keeps s (execRollUmin d a b s) := keeps_finish (by simp)

theorem keeps_execRollUmax (d a b : BitVec 5) (s : State) : Out.Keeps s (execRollUmax d a b s) := keeps_finish (by simp)

theorem keeps_execRollAnd (d a b : BitVec 5) (s : State) : Out.Keeps s (execRollAnd d a b s) := keeps_finish (by simp)

theorem keeps_execRollOr (d a b : BitVec 5) (s : State) : Out.Keeps s (execRollOr d a b s) := keeps_finish (by simp)

theorem keeps_execRollXor (d a b : BitVec 5) (s : State) : Out.Keeps s (execRollXor d a b s) := keeps_finish (by simp)

theorem keeps_execMeetWithdrawal (sid : Nat) (s : State) : Out.Keeps s (execMeetWithdrawal sid s) := by
  unfold execMeetWithdrawal
  dsimp only
  repeat' split
  all_goals simp

theorem keeps_execTaintHorizon (sid : Nat) (s : State) : Out.Keeps s (execTaintHorizon sid s) := by
  simp [execTaintHorizon]

theorem keeps_execPart (s : State) : Out.Keeps s (execPart s) := by
  unfold execPart
  dsimp only
  repeat' split
  all_goals simp

theorem keeps_execLaunchIdAnswer (sid : Nat) (s : State) : Out.Keeps s (execLaunchIdAnswer sid s) := by
  simp [execLaunchIdAnswer]

theorem keeps_execTend (s : State) : Out.Keeps s (execTend s) := by
  unfold execTend
  dsimp only
  repeat' split
  all_goals simp

theorem keeps_execSbind (a : BitVec 5) (s : State) : Out.Keeps s (execSbind a s) := keeps_finish (by simp)

theorem keeps_execStreamEngineComplete (ci e : Nat) (s : State) : Out.Keeps s (execStreamEngineComplete ci e s) := by
  unfold execStreamEngineComplete
  dsimp only
  repeat' split
  all_goals simp

theorem keeps_execFenceCommand (q n : Nat) (s : State) : Out.Keeps s (execFenceCommand q n s) := by
  unfold execFenceCommand
  split <;> simp

theorem keeps_execLaunchCommand (q n : Nat) (s : State) : Out.Keeps s (execLaunchCommand q n s) := by
  unfold execLaunchCommand
  repeat' split
  all_goals simp

theorem keeps_execResume (q n : Nat) (s : State) : Out.Keeps s (execResume q n s) := by
  unfold execResume
  dsimp only
  repeat' split
  all_goals simp

theorem keeps_execPartDestroy (q n : Nat) (s : State) : Out.Keeps s (execPartDestroy q n s) := by
  unfold execPartDestroy
  repeat' split
  all_goals simp

theorem keeps_execAssign (q n : Nat) (s : State) : Out.Keeps s (execAssign q n s) := by
  unfold execAssign
  dsimp only
  repeat' split
  all_goals simp

theorem keeps_execPartReset (q n : Nat) (s : State) : Out.Keeps s (execPartReset q n s) := by
  unfold execPartReset
  repeat' split
  all_goals simp

theorem keeps_execPartResetFreeze (p : Nat) (s : State) : Out.Keeps s (execPartResetFreeze p s) := by
  unfold execPartResetFreeze
  repeat' split
  all_goals simp

theorem keeps_execNegativeAcknowledge (n : Nat) (s : State) : Out.Keeps s (execNegativeAcknowledge n s) := by
  unfold execNegativeAcknowledge
  repeat' split
  all_goals simp

theorem keeps_execLaunchAging (p lid : Nat) (s : State) : Out.Keeps s (execLaunchAging p lid s) := by
  simp [execLaunchAging]

theorem keeps_execLaunchCompletion (p lid : Nat) (s : State) : Out.Keeps s (execLaunchCompletion p lid s) := by
  unfold execLaunchCompletion
  dsimp only
  repeat' split
  all_goals simp

theorem keeps_execLaunchDispatch (p : Nat) (s : State) : Out.Keeps s (execLaunchDispatch p s) := by
  unfold execLaunchDispatch
  dsimp only
  repeat' split
  all_goals simp

theorem keeps_execPoolPlacement (cl : Nat) (s : State) : Out.Keeps s (execPoolPlacement cl s) := by
  unfold execPoolPlacement
  repeat' split
  all_goals simp

theorem keeps_execTaskFirstCycle (sid : Nat) (s : State) : Out.Keeps s (execTaskFirstCycle sid s) := by
  unfold execTaskFirstCycle
  split <;> simp

theorem keeps_execPlacementToken (p : Nat) (s : State) : Out.Keeps s (execPlacementToken p s) := by
  unfold execPlacementToken
  dsimp only
  repeat' split
  all_goals simp

theorem keeps_execStealRequest (n : Nat) (s : State) : Out.Keeps s (execStealRequest n s) := by
  unfold execStealRequest
  repeat' split
  all_goals simp

theorem keeps_execStealAnswer (n : Nat) (s : State) : Out.Keeps s (execStealAnswer n s) := by
  unfold execStealAnswer
  repeat' split
  all_goals simp

theorem keeps_execStealRetry (cl lid : Nat) (s : State) : Out.Keeps s (execStealRetry cl lid s) := by
  unfold execStealRetry
  repeat' split
  all_goals simp

theorem keeps_execSourceMark (q n : Nat) (s : State) : Out.Keeps s (execSourceMark q n s) := by
  unfold execSourceMark
  dsimp only
  repeat' split
  all_goals simp

theorem keeps_execWatermarkMark (p n : Nat) (s : State) : Out.Keeps s (execWatermarkMark p n s) := by
  unfold execWatermarkMark
  dsimp only
  repeat' split
  all_goals simp

theorem keeps_execSourceIdle (p n src : Nat) (s : State) : Out.Keeps s (execSourceIdle p n src s) := by
  unfold execSourceIdle
  dsimp only
  repeat' split
  all_goals simp

theorem keeps_execRecordPortRefill (sid : Nat) (s : State) : Out.Keeps s (execRecordPortRefill sid s) := by
  simp [execRecordPortRefill]

theorem keeps_execCheckpoint (s : State) : Out.Keeps s (execCheckpoint s) := by
  unfold execCheckpoint
  dsimp only
  repeat' split
  all_goals simp

theorem keeps_execUndoFree (cl : Nat) (s : State) : Out.Keeps s (execUndoFree cl s) := by
  simp [execUndoFree]

theorem keeps_execSubarrayRetest (cl : Nat) (n : BitVec 3) (fails : Bool) (s : State) : Out.Keeps s (execSubarrayRetest cl n fails s) := by
  unfold execSubarrayRetest
  split <;> simp

theorem keeps_execAdd (d : Dst) (a b : Src) (s : State) : Out.Keeps s (execAdd d a b s) := keeps_finish (by simp)

theorem keeps_execSub (d : Dst) (a b : Src) (s : State) : Out.Keeps s (execSub d a b s) := keeps_finish (by simp)

theorem keeps_execAnd (d : Dst) (a b : Src) (s : State) : Out.Keeps s (execAnd d a b s) := keeps_finish (by simp)

theorem keeps_execOr (d : Dst) (a b : Src) (s : State) : Out.Keeps s (execOr d a b s) := keeps_finish (by simp)

theorem keeps_execXor (d : Dst) (a b : Src) (s : State) : Out.Keeps s (execXor d a b s) := keeps_finish (by simp)

theorem keeps_execAndn (d : Dst) (a b : Src) (s : State) : Out.Keeps s (execAndn d a b s) := keeps_finish (by simp)

theorem keeps_execSll (d : Dst) (a b : Src) (s : State) : Out.Keeps s (execSll d a b s) := keeps_finish (by simp)

theorem keeps_execSrl (d : Dst) (a b : Src) (s : State) : Out.Keeps s (execSrl d a b s) := keeps_finish (by simp)

theorem keeps_execSra (d : Dst) (a b : Src) (s : State) : Out.Keeps s (execSra d a b s) := keeps_finish (by simp)

theorem keeps_execRol (d : Dst) (a b : Src) (s : State) : Out.Keeps s (execRol d a b s) := keeps_finish (by simp)

theorem keeps_execSlt (d : Dst) (a b : Src) (s : State) : Out.Keeps s (execSlt d a b s) := keeps_finish (by simp)

theorem keeps_execSltu (d : Dst) (a b : Src) (s : State) : Out.Keeps s (execSltu d a b s) := keeps_finish (by simp)

theorem keeps_execMin (d : Dst) (a b : Src) (s : State) : Out.Keeps s (execMin d a b s) := keeps_finish (by simp)

theorem keeps_execMax (d : Dst) (a b : Src) (s : State) : Out.Keeps s (execMax d a b s) := keeps_finish (by simp)

theorem keeps_execMinu (d : Dst) (a b : Src) (s : State) : Out.Keeps s (execMinu d a b s) := keeps_finish (by simp)

theorem keeps_execMaxu (d : Dst) (a b : Src) (s : State) : Out.Keeps s (execMaxu d a b s) := keeps_finish (by simp)

theorem keeps_execMul (d : Dst) (a b : Src) (s : State) : Out.Keeps s (execMul d a b s) := keeps_finish (by simp)

theorem keeps_execMulh (d : Dst) (a b : Src) (s : State) : Out.Keeps s (execMulh d a b s) := keeps_finish (by simp)

theorem keeps_execMulhu (d : Dst) (a b : Src) (s : State) : Out.Keeps s (execMulhu d a b s) := keeps_finish (by simp)

theorem keeps_execDiv (d : Dst) (a b : Src) (s : State) : Out.Keeps s (execDiv d a b s) := keeps_finish (by simp)

theorem keeps_execDivu (d : Dst) (a b : Src) (s : State) : Out.Keeps s (execDivu d a b s) := keeps_finish (by simp)

theorem keeps_execRem (d : Dst) (a b : Src) (s : State) : Out.Keeps s (execRem d a b s) := keeps_finish (by simp)

theorem keeps_execRemu (d : Dst) (a b : Src) (s : State) : Out.Keeps s (execRemu d a b s) := keeps_finish (by simp)

theorem keeps_execClz (d : Dst) (a : Src) (s : State) : Out.Keeps s (execClz d a s) := keeps_finish (by simp)

theorem keeps_execCtz (d : Dst) (a : Src) (s : State) : Out.Keeps s (execCtz d a s) := keeps_finish (by simp)

theorem keeps_execPopc (d : Dst) (a : Src) (s : State) : Out.Keeps s (execPopc d a s) := keeps_finish (by simp)

theorem keeps_execBext (d : Dst) (a b : Src) (s : State) : Out.Keeps s (execBext d a b s) := keeps_finish (by simp)

theorem keeps_execBdep (d : Dst) (a b : Src) (s : State) : Out.Keeps s (execBdep d a b s) := keeps_finish (by simp)

theorem keeps_execAddi (d : Dst) (a : Src) (i : BitVec 13) (s : State) : Out.Keeps s (execAddi d a i s) := keeps_finish (by simp)

theorem keeps_execAndi (d : Dst) (a : Src) (i : BitVec 13) (s : State) : Out.Keeps s (execAndi d a i s) := keeps_finish (by simp)

theorem keeps_execOri (d : Dst) (a : Src) (i : BitVec 13) (s : State) : Out.Keeps s (execOri d a i s) := keeps_finish (by simp)

theorem keeps_execXori (d : Dst) (a : Src) (i : BitVec 13) (s : State) : Out.Keeps s (execXori d a i s) := keeps_finish (by simp)

theorem keeps_execSlli (d : Dst) (a : Src) (n : BitVec 6) (s : State) : Out.Keeps s (execSlli d a n s) := keeps_finish (by simp)

theorem keeps_execSrli (d : Dst) (a : Src) (n : BitVec 6) (s : State) : Out.Keeps s (execSrli d a n s) := keeps_finish (by simp)

theorem keeps_execSrai (d : Dst) (a : Src) (n : BitVec 6) (s : State) : Out.Keeps s (execSrai d a n s) := keeps_finish (by simp)

theorem keeps_execSlti (d : Dst) (a : Src) (i : BitVec 13) (s : State) : Out.Keeps s (execSlti d a i s) := keeps_finish (by simp)

theorem keeps_execSltiu (d : Dst) (a : Src) (i : BitVec 13) (s : State) : Out.Keeps s (execSltiu d a i s) := keeps_finish (by simp)

theorem keeps_execLui (d : BitVec 5) (i : BitVec 20) (s : State) : Out.Keeps s (execLui d i s) := by
  unfold execLui
  refine keeps_finish (State.keeps_regs _ _ _ _ ?_)
  simp

theorem keeps_execAuipc (d : BitVec 5) (i : BitVec 20) (s : State) : Out.Keeps s (execAuipc d i s) := by
  unfold execAuipc
  refine keeps_finish (State.keeps_regs _ _ _ _ ?_)
  simp

theorem keeps_execBeq (a b : BitVec 5) (o : BitVec 13) (s : State) : Out.Keeps s (execBeq a b o s) := keeps_finish (by simp)

theorem keeps_execBne (a b : BitVec 5) (o : BitVec 13) (s : State) : Out.Keeps s (execBne a b o s) := keeps_finish (by simp)

theorem keeps_execBlt (a b : BitVec 5) (o : BitVec 13) (s : State) : Out.Keeps s (execBlt a b o s) := keeps_finish (by simp)

theorem keeps_execBge (a b : BitVec 5) (o : BitVec 13) (s : State) : Out.Keeps s (execBge a b o s) := keeps_finish (by simp)

theorem keeps_execBltu (a b : BitVec 5) (o : BitVec 13) (s : State) : Out.Keeps s (execBltu a b o s) := keeps_finish (by simp)

theorem keeps_execBgeu (a b : BitVec 5) (o : BitVec 13) (s : State) : Out.Keeps s (execBgeu a b o s) := keeps_finish (by simp)

theorem keeps_execJal (d : BitVec 5) (o : BitVec 20) (s : State) : Out.Keeps s (execJal d o s) := by
  unfold execJal
  refine keeps_finish (State.keeps_regs _ _ _ _ ?_)
  simp

theorem keeps_execLaneGroupGrant (cl : Nat) (s : State) : Out.Keeps s (execLaneGroupGrant cl s) := by
  simp [execLaneGroupGrant]

theorem keeps_execPeriodicSelfTestDue (cl : Nat) (s : State) : Out.Keeps s (execPeriodicSelfTestDue cl s) := by
  simp [execPeriodicSelfTestDue]
end Sys2Proof.Machine
end


section
/-!
PROOFS. More meanings that move no byte, where a case split or a lemma about an answered state is needed.
-/

namespace Sys2Proof.Machine


theorem Res.keeps_owned {s : State} {r : Res} (h : Res.Keeps s r) : Res.Keeps s r.owned := by
  cases r with
  | ok t => simpa [Res.owned] using h
  | _ => exact h

theorem keeps_execTret (s : State) : Out.Keeps s (execTret s) := by
  unfold execTret
  split
  · next u hu =>
    have hk : Res.Keeps s (.ok u) := hu ▸ State.keeps_tretForm s
    simpa using hk
  · exact keeps_finish (State.keeps_tretForm s)

theorem keeps_execMma (c : BitVec 2) (a b : BitVec 4) (g h : BitVec 3) (m : BitVec 5) (s : State) : Out.Keeps s (execMma c a b g h m s) := by
  unfold execMma
  extract_lets
  refine keeps_finishPort (State.keeps_matrixForm _ _ _ _ _ ?_)
  repeat' split
  all_goals simp

theorem keeps_execMwait (c : BitVec 2) (s : State) : Out.Keeps s (execMwait c s) := by
  unfold execMwait
  refine keeps_finish (State.keeps_matrixForm _ _ _ _ _ ?_)
  split <;> simp

theorem keeps_execMshape (n : BitVec 3) (a : BitVec 5) (s : State) : Out.Keeps s (execMshape n a s) := by
  unfold execMshape
  exact keeps_finish (State.keeps_matrixForm _ _ _ _ _ (Res.keeps_owned (by simp)))

theorem keeps_execMfmt (a : BitVec 5) (s : State) : Out.Keeps s (execMfmt a s) := by
  unfold execMfmt
  exact keeps_finish (State.keeps_matrixForm _ _ _ _ _ (Res.keeps_owned (by simp)))

theorem keeps_execXunsub (a : BitVec 5) (s : State) : Out.Keeps s (execXunsub a s) := by
  unfold execXunsub
  refine keeps_finish ?_
  split
  · simp
  · exact State.keeps_memForm _ _ _ _ _ (by simp)

theorem keeps_execXstat (d a : BitVec 5) (s : State) : Out.Keeps s (execXstat d a s) := by
  unfold execXstat
  refine keeps_finish ?_
  split
  · simp
  · exact State.keeps_regs _ _ _ _ (by simp)

theorem keeps_execAcctRidxRead (ci : Nat) (s : State) : Out.Keeps s (execAcctRidxRead ci s) := by
  unfold execAcctRidxRead
  extract_lets rings step q s1
  have hstep : ∀ p r, (step p r).1.bytes = p.1.bytes := by
    intro p r
    simp only [step]
    split <;> simp
  have hq : ∀ (l : List (Nat × BitVec 16 × Nat × Nat × Nat)) p, (l.foldl step p).1.bytes = p.1.bytes := by
    intro l
    induction l with
    | nil => exact fun _ => rfl
    | cons a l ih => exact fun p => (ih (step p a)).trans (hstep p a)
  split
  · simp
  · split
    · next t ht =>
      obtain ⟨r, -, hr⟩ := List.exists_of_findSome?_eq_some ht
      exact State.bytes_of_acctAsk hr
    · refine (State.bytes_modCore ..).trans ?_
      exact (State.bytes_foldl _ _ _ fun s sid => by split <;> simp).trans (hq rings (s, false))

theorem keeps_execSubscriptionSetup (n : Nat) (s : State) : Out.Keeps s (execSubscriptionSetup n s) := by
  unfold execSubscriptionSetup
  extract_lets
  split
  · simp
  · split
    · simp
    · extract_lets v b r rs ok s2
      split
      · simp +zetaDelta
      · refine (Out.keeps_next ..).mpr ((State.bytes_mk s2).trans ?_)
        exact (State.bytes_foldl _ _ _ fun s c => State.bytes_modRing ..).trans (State.bytes_modXfer ..)

theorem keeps_execSetfmt (n : BitVec 2) (a : XSrc) (s : State) : Out.Keeps s (execSetfmt n a s) := by
  unfold execSetfmt
  refine keeps_finish ?_
  split
  · next h => exact State.keeps_of_vecStop h
  · split <;> simp

theorem keeps_execSequencerBind (ci : Nat) (s : State) : Out.Keeps s (execSequencerBind ci s) := by
  unfold execSequencerBind
  split
  · simp
  · split
    · simp
    · refine (Out.keeps_next ..).mpr ?_
      split
      · rfl
      · next h => simpa using State.bytes_of_bindHead h

theorem keeps_execIcacheFill (sid : Nat) (s : State) : Out.Keeps s (execIcacheFill sid s) := by
  unfold execIcacheFill
  extract_lets c cl waits
  have hw : ∀ t : State, t.bytes = s.bytes → Out.Keeps s (waits t) := fun t ht => by simpa [waits] using ht
  split
  · simp
  · split
    · simp
    · split
      · next h => exact hw _ (State.bytes_of_xlatAsk h)
      · split
        · simp
        · split
          · simp
          · split
            · exact hw _ rfl
            · simp

theorem keeps_execReplayReissue (m lo hi : Nat) (s : State) : Out.Keeps s (execReplayReissue m lo hi s) := by
  unfold execReplayReissue
  extract_lets l lost
  split
  · exact State.bytes_foldl _ _ _ fun s t => by simp
  · split
    · simp
    · refine (Out.keeps_next ..).mpr ?_
      refine (State.bytes_foldl _ _ _ fun s t => by simp).trans ?_
      exact (State.bytes_foldl _ _ _ fun s t => by simp).trans (State.bytes_modLink ..)

theorem State.keeps_toParty (s : State) (n home tok : Nat) (f : Nat → State) (h : ∀ sid, (f sid).bytes = s.bytes) : Out.Keeps s (s.toParty n home tok f) := by
  unfold State.toParty
  repeat' split
  all_goals simp [h]

theorem keeps_execPairRetry (cl : Nat) (s : State) : Out.Keeps s (execPairRetry cl s) := by
  unfold execPairRetry
  refine State.bytes_foldl _ _ _ fun s p => ?_
  repeat' split
  · next h => simpa using State.bytes_of_placePair h
  all_goals rfl

theorem State.bytes_of_takeNotice {s t : State} {dir : Nat} {c : Call} (h : s.takeNotice dir c = some t) : t.bytes = s.bytes := by
  unfold State.takeNotice at h
  repeat' split at h
  all_goals first
    | (obtain rfl := Option.some.inj h; simp)
    | exact absurd h (by simp)

theorem State.bytes_of_takeArrival {s t : State} {dir : Nat} {c : Call} (h : s.takeArrival dir c = some t) : t.bytes = s.bytes := by
  unfold State.takeArrival at h
  extract_lets s1 at h
  have h1 : s1.bytes = s.bytes := State.bytes_dropKept ..
  split at h
  · exact absurd h (by simp)
  · split at h
    · obtain rfl := Option.some.inj h
      simp [h1]
    · split at h
      · obtain rfl := Option.some.inj h
        simp [h1]
      · extract_lets add at h
        have hadd : ∀ l, (add l).bytes = s.bytes := by
          intro l
          simp only [add]
          split
          · simp [h1]
          · split <;> simp [h1]
        repeat' split at h
        all_goals
          obtain rfl := Option.some.inj h
          simp [h1, hadd]

theorem State.bytes_of_withdraw {s t : State} {dir tok : Nat} (h : s.withdraw dir tok = some t) : t.bytes = s.bytes := by
  obtain ⟨r, -, rfl⟩ := Option.map_eq_some_iff.mp h
  exact State.bytes_setEntry ..

theorem keeps_execMeetNoticeArrival (n : Nat) (s : State) : Out.Keeps s (execMeetNoticeArrival n s) := by
  unfold execMeetNoticeArrival
  split
  · refine (Out.keeps_next ..).mpr ?_
    split
    · next h => simpa using State.bytes_of_takeNotice h
    · rfl
  · simp

theorem keeps_execRollArrival (n : Nat) (s : State) : Out.Keeps s (execRollArrival n s) := by
  unfold execRollArrival
  split
  · refine (Out.keeps_next ..).mpr ?_
    split
    · next h => simpa using State.bytes_of_takeArrival h
    · rfl
  · simp

theorem keeps_execWithdrawalArrival (n : Nat) (s : State) : Out.Keeps s (execWithdrawalArrival n s) := by
  unfold execWithdrawalArrival
  split
  · refine (Out.keeps_next ..).mpr ?_
    split
    · rfl
    · split
      · next h => simpa using State.bytes_of_withdraw h
      · simp
  · simp

theorem keeps_execDirectoryAnswerArrival (n : Nat) (s : State) : Out.Keeps s (execDirectoryAnswerArrival n s) := by
  unfold execDirectoryAnswerArrival
  split
  · exact State.keeps_toParty _ _ _ _ _ fun sid => by split <;> simp
  · simp

theorem keeps_execRollRelease (n : Nat) (s : State) : Out.Keeps s (execRollRelease n s) := by
  unfold execRollRelease
  split
  · exact State.keeps_toParty _ _ _ _ _ fun sid => by simp
  · simp

theorem keeps_execDepartureOrder (n : Nat) (s : State) : Out.Keeps s (execDepartureOrder n s) := by
  unfold execDepartureOrder
  split
  · refine State.keeps_toParty _ _ _ _ _ fun sid => ?_
    split
    · rfl
    · split <;> simp +zetaDelta
  · simp

theorem State.bytes_getD {o : Option State} {s : State} (h : ∀ t, o = some t → t.bytes = s.bytes) : (o.getD s).bytes = s.bytes := by
  cases o with
  | none => rfl
  | some t => exact h t rfl

theorem keeps_execVisitorSlotFree (sid : Nat) (s : State) : Out.Keeps s (execVisitorSlotFree sid s) := by
  unfold execVisitorSlotFree
  refine (Out.keeps_next ..).mpr (State.bytes_getD fun t ht => ?_)
  obtain ⟨m, -, hm⟩ := List.exists_of_findSome?_eq_some ht
  repeat' split at hm
  · obtain rfl := Option.some.inj hm
    simp
  all_goals exact absurd hm (by simp)

theorem keeps_execPeer (d n : BitVec 5) (now : Bool) (s : State) : Out.Keeps s (execPeer d n now s) := by
  unfold execPeer
  refine keeps_finish (State.keeps_memForm _ _ _ _ _ ?_)
  split
  · simp
  · extract_lets give
    split
    · simp [give]
    · split
      · simp [give]
      · split <;> simp [give]

theorem keeps_execPeerv (d n : BitVec 4) (s : State) : Out.Keeps s (execPeerv d n s) := by
  unfold execPeerv
  extract_lets i h
  refine keeps_finish ?_
  split
  · simp
  · split
    · simp
    · split
      · next hr => exact State.keeps_of_vecStop hr
      · split <;> simp

theorem keeps_execLaunch (d a b : BitVec 5) (s : State) : Out.Keeps s (execLaunch d a b s) := by
  unfold execLaunch
  extract_lets i
  refine keeps_finish ?_
  split
  · simp
  · refine State.keeps_memForm _ _ _ _ _ ?_
    extract_lets x
    split
    · simp
    · split <;> simp

theorem keeps_execEmit (a b : BitVec 5) (s : State) : Out.Keeps s (execEmit a b s) := by
  unfold execEmit
  extract_lets i
  refine keeps_finish ?_
  split
  · simp
  · refine State.keeps_memForm _ _ _ _ _ ?_
    extract_lets x
    split <;> simp

theorem keeps_execWmk (a b : BitVec 5) (s : State) : Out.Keeps s (execWmk a b s) := by
  unfold execWmk
  extract_lets i
  refine keeps_finish ?_
  split
  · simp
  · refine State.keeps_memForm _ _ _ _ _ ?_
    extract_lets x
    split <;> simp

theorem keeps_execPubl (a : BitVec 5) (s : State) : Out.Keeps s (execPubl a s) := by
  unfold execPubl
  extract_lets i
  refine keeps_finish ?_
  split
  · simp
  · refine State.keeps_memForm _ _ _ _ _ ?_
    split
    · simp
    · split <;> simp

theorem keeps_execStreamEngineEntry (ci e : Nat) (s : State) : Out.Keeps s (execStreamEngineEntry ci e s) := by
  unfold execStreamEngineEntry
  extract_lets g cl w r vas took
  have htook : ∀ t buf, (took t buf).bytes = t.bytes := fun t buf => by simp [took]
  split
  · simp
  · split
    · split
      · split
        · simp
        · split <;> simp [htook]
      · simp
    · split
      · split
        · simp
        · split
          · next h => exact State.bytes_of_xlatAsk h
          · split
            · simp
            · split
              · next h => exact State.bytes_of_portAsk h
              · simp [htook]
      · split
        · simp
        · refine (Out.keeps_next ..).mpr ?_
          split <;> simp [htook]

theorem State.bytes_ported {s t : State} (h : t.bytes = s.bytes) : (s.ported t).bytes = s.bytes := by
  unfold State.ported
  split
  · rfl
  · exact h

theorem keeps_execCommandFetch (q : Nat) (s : State) : Out.Keeps s (execCommandFetch q s) := by
  unfold execCommandFetch
  extract_lets k
  split
  · simp
  · split
    · simp
    · refine (Out.keeps_next ..).mpr (State.bytes_ported ?_)
      extract_lets
      split <;> simp +zetaDelta

theorem keeps_execRegister (q n : Nat) (s : State) : Out.Keeps s (execRegister q n s) := by
  unfold execRegister
  split
  · simp
  · extract_lets p fail
    have hf : ∀ code, Out.Keeps s (fail code) := fun code => by simp [fail]
    split
    · exact hf _
    · split
      · exact hf _
      · extract_lets w
        split
        · exact hf _
        · split
          · exact hf _
          · refine (Out.keeps_next ..).mpr (State.bytes_ported ?_)
            simp +zetaDelta

theorem keeps_execBindStream (q n : Nat) (s : State) : Out.Keeps s (execBindStream q n s) := by
  unfold execBindStream
  split
  · simp
  · extract_lets p fail
    have hf : ∀ code, Out.Keeps s (fail code) := fun code => by simp [fail]
    split
    · exact hf _
    · split
      · split
        · simp
        · split
          · split <;> simp
          · split <;> simp
      · split
        · exact hf _
        · split
          · exact hf _
          · extract_lets w b
            split
            · exact hf _
            · refine (Out.keeps_next ..).mpr (State.bytes_ported ?_)
              simp

theorem keeps_execPartCreate (q n : Nat) (s : State) : Out.Keeps s (execPartCreate q n s) := by
  unfold execPartCreate
  split
  · simp
  · extract_lets r0 r1
    split
    · simp
    · refine (Out.keeps_next ..).mpr ((State.bytes_finishCmd ..).trans ?_)
      exact (State.bytes_foldl _ _ _ fun s k => by simp).trans (State.bytes_modPart ..)

theorem State.bytes_poolTasks (l : List PoolEntry) (s : State) : (s.poolTasks l).1.bytes = s.bytes := by
  induction l generalizing s with
  | nil => rfl
  | cons e l ih =>
    unfold State.poolTasks
    split
    · rfl
    · next t ht => exact (ih t).trans (State.bytes_of_poolGang ht)

theorem keeps_execGangPlacement (p lid : Nat) (s : State) : Out.Keeps s (execGangPlacement p lid s) := by
  unfold execGangPlacement
  split
  · simp
  · split
    · simp
    · split
      · simp
      · split
        · exact State.bytes_foldl _ _ _ fun s cl => State.bytes_ownerTake ..
        · split
          · simp
          · extract_lets cores r
            exact (State.bytes_modLaunch ..).trans (State.bytes_poolTasks ..)

theorem keeps_execYield (d : BitVec 5) (s : State) : Out.Keeps s (execYield d s) := by
  unfold execYield
  refine keeps_finish ?_
  split
  · simp
  · exact State.keeps_regs _ _ _ _ (by simp)

theorem keeps_execJalr (d a : BitVec 5) (i : BitVec 13) (s : State) : Out.Keeps s (execJalr d a i s) := by
  unfold execJalr
  extract_lets t
  refine keeps_finish (State.keeps_regs _ _ _ _ ?_)
  repeat' split
  all_goals simp

theorem keeps_execFrameReplayPerformance (sid : Nat) (s : State) : Out.Keeps s (execFrameReplayPerformance sid s) := by
  unfold execFrameReplayPerformance
  extract_lets ci
  split
  · simp
  · split
    · simp
    · refine (Out.keeps_next ..).mpr ?_
      split
      · rfl
      · next h => simpa using State.bytes_of_framePerform h

@[simp] theorem State.bytes_capRun (s : State) (sid n : Nat) : (s.capRun sid n).bytes = s.bytes := by
  induction n generalizing s with
  | zero => rfl
  | succ n ih =>
    unfold State.capRun
    split
    · rfl
    · exact (ih _).trans (State.bytes_capStep ..)

theorem State.keeps_captureStep (s : State) (sid : Nat) : Out.Keeps s (s.captureStep sid) := by
  unfold State.captureStep
  split
  · exact keeps_execIcacheFill ..
  · split <;> simp

end Sys2Proof.Machine
end


section
/-!
PROOFS. The meanings that write bytes keep every memory in its canonical form.
-/

namespace Sys2Proof.Machine


/-- What a meaning answers keeps every memory in its canonical form. -/
def Out.Inv : Out → Prop
  | .next t => t.Inv
  | _ => True

@[simp] theorem Out.inv_next (t : State) : Out.Inv (.next t) ↔ t.Inv := Iff.rfl

theorem Out.inv_of_keeps {s : State} {o : Out} (hs : s.Inv) (h : Out.Keeps s o) : o.Inv := by
  cases o with
  | next t => exact State.inv_of_bytes hs h
  | _ => exact h.elim

theorem State.inv_ported {s t : State} (hs : s.Inv) (ht : t.Inv) : (s.ported t).Inv := by
  unfold State.ported
  split
  · exact hs
  · exact ht

theorem State.inv_ite {c : Prop} [Decidable c] {s t : State} (hs : s.Inv) (ht : t.Inv) : (if c then s else t).Inv := by
  split
  · exact hs
  · exact ht

theorem Out.inv_ite {c : Prop} [Decidable c] {a b : Out} (ha : a.Inv) (hb : b.Inv) : Out.Inv (if c then a else b) := by
  split
  · exact ha
  · exact hb

section
variable {s : State} (hs : s.Inv)
include hs

theorem inv_execAccountRecordWrite (ci : Nat) : (execAccountRecordWrite ci s).Inv := by
  unfold execAccountRecordWrite
  refine (Out.inv_next _).mpr ?_
  cases h : (s.acctq.filter fun a => a.ci == ci).findSome? s.writeRecord with
  | none => exact hs
  | some t =>
    obtain ⟨a, -, ha⟩ := List.exists_of_findSome?_eq_some h
    exact State.inv_of_writeRecord hs ha

theorem inv_execMatrixGrant (cl : Nat) : (execMatrixGrant cl s).Inv := by
  unfold execMatrixGrant
  extract_lets a
  split
  · split
    · exact State.inv_ite hs (State.inv_portMove hs ..)
    · exact State.inv_of_bytes hs (by simp)
  · split
    · exact State.inv_of_bytes hs (by simp)
    · exact hs
  · exact hs
  · exact State.inv_of_bytes hs (by simp)

theorem inv_execXcopyRow (ci xid : Nat) : (execXcopyRow ci xid s).Inv := by
  unfold execXcopyRow
  split
  · exact hs
  · extract_lets b
    split
    · exact State.inv_ite (State.inv_endRow hs ..) hs
    · exact State.inv_ite (State.inv_startRow hs ..) hs

theorem inv_execLoaderTileSend (n : Nat) : (execLoaderTileSend n s).Inv := by
  unfold execLoaderTileSend
  split
  · exact hs
  · split
    · exact hs
    · extract_lets w cl as vas
      split
      · exact hs
      · split
        · next h => exact State.inv_of_bytes hs (State.bytes_of_xlatAsk h)
        · split
          · exact State.inv_of_bytes hs (by simp)
          · split
            · next h => exact State.inv_of_bytes hs (State.bytes_of_portAsk h)
            · refine State.inv_of_bytes hs ?_
              exact (State.bytes_foldl _ _ _ fun s r => State.bytes_send ..).trans ((State.bytes_modSub ..).trans (State.bytes_engineReads ..))

theorem inv_execStorerTakeTile (n : Nat) : (execStorerTakeTile n s).Inv := by
  unfold execStorerTakeTile
  split
  · exact hs
  · split
    · extract_lets w cl es vas
      split
      · exact hs
      · split
        · next h => exact State.inv_of_bytes hs (State.bytes_of_xlatAsk h)
        · split
          · exact State.inv_of_bytes hs (by simp)
          · split
            · next h => exact State.inv_of_bytes hs (State.bytes_of_portAsk h)
            · exact State.inv_of_bytes (State.inv_sliceLines hs ..) ((State.bytes_modDrain ..).trans (State.bytes_dropUnit ..))
    · exact hs

theorem inv_execEngineCompletionEntry (ci xid : Nat) : (execEngineCompletionEntry ci xid s).Inv := by
  unfold execEngineCompletionEntry
  extract_lets id
  split
  · exact hs
  · next x _ =>
    split
    · exact hs
    · split
      · exact hs
      · extract_lets b w0 s1 s2 s3 s4
        have h2 : s2.bytes = s1.bytes := State.bytes_foldl _ _ _ fun s c => State.bytes_modRing ..
        have h3 : s3.bytes = s1.bytes := (State.bytes_modCore ..).trans ((State.bytes_postEntry ..).trans h2)
        have h4 : s4.bytes = s1.bytes := (State.bytes_mk s3).trans h3
        have h1 : s4.Inv := State.inv_of_bytes (State.inv_writeProg hs ci x x.prog) h4
        exact State.inv_ite (State.inv_of_bytes h1 (State.bytes_modCtx ..)) h1

theorem inv_execHostWrite (aperture : Bool) (addr : Nat) (data : Word) : (execHostWrite aperture addr data s).Inv := by
  unfold execHostWrite
  split
  · exact State.inv_of_bytes hs (by simp)
  · split
    · exact hs
    · exact State.inv_ite (State.inv_sliceStore hs ..) hs

theorem inv_execSliceRequestAccept (id : Nat) : (execSliceRequestAccept id s).Inv := by
  unfold execSliceRequestAccept
  split
  · exact hs
  · split
    · exact hs
    · split
      · exact State.inv_of_bytes hs (by simp)
      · exact State.inv_of_bytes hs (by simp)
      · exact hs
      · split
        · exact State.inv_ite hs (State.inv_performHome hs _)
        · split
          · exact State.inv_performHome hs _
          · split
            · exact State.inv_ite (State.inv_performHome hs _) hs
            · exact State.inv_of_bytes hs (by simp)

theorem inv_execHostWindowWriteAck (id : Nat) : (execHostWindowWriteAck id s).Inv := by
  unfold execHostWindowWriteAck
  split
  · exact hs
  · split
    · exact hs
    · exact State.inv_ite (State.inv_performHome hs _) (State.inv_of_bytes (State.inv_performAt hs _) (State.bytes_dropReq ..))

theorem inv_execRemoteRequestArrival (n : Nat) : (execRemoteRequestArrival n s).Inv := by
  unfold execRemoteRequestArrival
  split
  · exact hs
  · extract_lets s1 noted
    have b1 : s1.bytes = s.bytes := State.bytes_mk s
    have bn : noted.bytes = s.bytes := (State.bytes_mk s1).trans b1
    split
    · exact State.inv_of_bytes hs ((State.bytes_respond ..).trans b1)
    · split
      · exact State.inv_of_bytes hs ((State.bytes_respond ..).trans bn)
      · next r _ =>
        split
        · exact State.inv_of_bytes hs ((State.bytes_respond ..).trans ((State.bytes_registerStore ..).trans bn))
        · split
          · exact State.inv_of_bytes hs ((State.bytes_respond ..).trans ((State.bytes_mk s1).trans b1))
          · split
            · exact hs
            · split
              · exact State.inv_of_bytes hs ((State.bytes_respond ..).trans ((State.bytes_freeze ..).trans ((State.bytes_dropReq ..).trans bn)))
              · extract_lets p die keep s2 s3 s4
                have i1 : s1.Inv := State.inv_of_bytes hs b1
                have ip : p.1.Inv := by
                  simp only [p]
                  split
                  · exact State.inv_of_bytes i1 (State.bytes_accept ..)
                  · exact State.inv_performAt i1 r
                have i2 : s2.Inv := State.inv_ite (State.inv_of_bytes ip (State.bytes_mk p.1)) ip
                have i3 : s3.Inv := State.inv_of_bytes i2 (State.bytes_mk s2)
                have i4 : s4.Inv := State.inv_ite (State.inv_of_bytes i3 (State.bytes_performed ..)) i3
                exact State.inv_of_bytes i4 (State.bytes_respond ..)

/-- Power coming on clears global memory: the empty table is canonical. -/
theorem inv_execPowerOn : (execPowerOn s).Inv := by
  obtain ⟨-, hh, hc⟩ := State.inv_packageReset hs causePowerOn
  exact ⟨rfl, hh, hc⟩

theorem inv_execMonitorVerify (sigOk : Bool) (version : BitVec 32) : (execMonitorVerify sigOk version s).Inv :=
  State.inv_ite (State.inv_verified hs ..) hs

theorem inv_execHbmTraining (ok : Bool) : (execHbmTraining ok s).Inv :=
  State.inv_ite (State.inv_ite (State.inv_of_bytes hs (by simp)) (State.inv_startFail hs _)) hs

theorem inv_execLinkTraining (dieOk hostOk : Bool) : (execLinkTraining dieOk hostOk s).Inv :=
  State.inv_ite (State.inv_ite (State.inv_startFail hs _) (State.inv_ite (State.inv_startFail hs _) (State.inv_of_bytes hs (by simp)))) hs

theorem inv_execClusterSelfTest (failed : List Nat) : (execClusterSelfTest failed s).Inv := by
  unfold execClusterSelfTest
  split
  · exact hs
  · extract_lets s1
    have h1 : s1.Inv := State.inv_of_bytes hs (State.bytes_foldl _ _ _ fun s c => State.bytes_fuseCore ..)
    generalize s1.harvestOk = ok
    generalize s1.minCluster = pick
    split
    · exact State.inv_startFail h1 7
    · split
      · exact State.inv_of_bytes h1 (State.bytes_stageDone ..)
      · split
        · exact State.inv_of_bytes h1 ((State.bytes_stageDone ..).trans ((State.bytes_modBoot ..).trans ((State.bytes_modQueue ..).trans (State.bytes_modPart ..))))
        · exact State.inv_startFail h1 7

theorem inv_execServiceFirmwareStart (sigOk : Bool) (version : BitVec 32) : (execServiceFirmwareStart sigOk version s).Inv :=
  State.inv_ite hs (State.inv_ite (State.inv_of_bytes hs (by simp)) (State.inv_verified hs ..))

theorem inv_execStartFailed (reason : BitVec 16) : (execStartFailed reason s).Inv := State.inv_ite hs (State.inv_startFail hs _)

theorem inv_execStageTimeout : (execStageTimeout s).Inv := State.inv_ite (State.inv_startFail hs _) hs

theorem inv_execMonitorImageLoad (sigOk : Bool) (version : BitVec 32) : (execMonitorImageLoad sigOk version s).Inv :=
  State.inv_ite (State.inv_verified (State.inv_of_bytes hs (by simp)) ..) hs

theorem inv_execLaneFailure (m : Nat) : (execLaneFailure m s).Inv := by
  unfold execLaneFailure
  split
  · exact State.inv_linkDown hs m
  · exact State.inv_of_bytes hs ((State.bytes_foldl _ _ _ fun s k => State.bytes_modLink ..).trans (by simp))

theorem inv_execRetrainComplete (m : Nat) (ok : Bool) : (execRetrainComplete m ok s).Inv := by
  unfold execRetrainComplete
  split
  · exact hs
  · split
    · exact State.inv_linkDown hs m
    · exact State.inv_of_bytes hs (State.bytes_foldl _ _ _ fun s k => State.bytes_modLink ..)

theorem inv_execEnvelopeArrival (n : Nat) : (execEnvelopeArrival n s).Inv := by
  unfold execEnvelopeArrival
  split
  · split
    · exact hs
    · exact State.inv_of_bytes (State.inv_spadWrite (State.inv_of_bytes hs (State.bytes_dropMsg ..)) ..) ((State.bytes_meetIfBoth ..).trans (State.bytes_modCtx ..))
  · exact hs

theorem inv_execReturnLuggageArrival (n : Nat) : (execReturnLuggageArrival n s).Inv := by
  unfold execReturnLuggageArrival
  split
  · split
    · exact hs
    · extract_lets off bytes
      split
      · exact hs
      · rename_i s1 s2 s3 _
        have h1 : s1.Inv := State.inv_spadWrite (State.inv_of_bytes hs (by simp)) ..
        have h3 : s3.bytes = s1.bytes := by
          simp only [s3]
          split <;> simp [s2]
        have i3 : s3.Inv := State.inv_of_bytes h1 h3
        exact State.inv_ite (State.inv_of_bytes i3 (State.bytes_modCtx ..)) i3
  · exact hs

theorem inv_execCompletionRecordWrite (q : Nat) : (execCompletionRecordWrite q s).Inv := by
  unfold execCompletionRecordWrite
  extract_lets k
  split
  · exact hs
  · split
    · exact hs
    · split
      · exact hs
      · exact State.inv_ported hs (State.inv_of_bytes (State.inv_sliceStore hs ..) (State.bytes_modQueue ..))

theorem inv_execStreamRecordArrival (p n : Nat) : (execStreamRecordArrival p n s).Inv := by
  unfold execStreamRecordArrival
  extract_lets t
  split
  · exact State.inv_ite hs (State.inv_ported hs (State.inv_takeRecord (State.inv_of_bytes hs (State.bytes_modStreamOf ..)) ..))
  · extract_lets m
    split
    · exact hs
    · rename_i s1 _
      have h1 : s1.Inv := State.inv_takeRecord (State.inv_of_bytes hs (State.bytes_unitSeen ..)) ..
      exact State.inv_ported hs (State.inv_ite (State.inv_of_bytes h1 (by simp)) h1)
  · exact State.inv_of_bytes hs (by simp)
  · exact hs
  · exact hs

theorem inv_execWindowLaunch (p n : Nat) : (execWindowLaunch p n s).Inv := by
  unfold execWindowLaunch
  extract_lets t
  split
  · split
    · exact hs
    · extract_lets lanes s1 stale s2
      have h1 : s1.Inv := State.inv_of_bytes hs ((State.bytes_modWin ..).trans (State.bytes_modStreamOf ..))
      have h2 : s2.Inv := State.inv_foldl (fun s k h => State.inv_unitWrite h ..) _ h1
      exact State.inv_ported hs (State.inv_of_bytes h2 (State.bytes_windowLaunch ..))
  · exact hs

theorem inv_execAmendLaunch (p n w : Nat) : (execAmendLaunch p n w s).Inv := by
  unfold execAmendLaunch
  extract_lets t
  split
  · extract_lets late
    split
    · exact hs
    · rename_i s1 s2 _
      have h1 : s1.Inv := State.inv_foldl (fun s k h => State.inv_unitWrite h ..) _ hs
      exact State.inv_ported hs (State.inv_of_bytes h1 ((State.bytes_windowLaunch ..).trans (State.bytes_modWin ..)))
  · exact hs

theorem inv_execPublication (p n : Nat) : (execPublication p n s).Inv := by
  unfold execPublication
  extract_lets t
  split
  · split
    · exact hs
    · extract_lets rec_ s1
      have h1 : s1.Inv := State.inv_ringPut (State.inv_unitWrite hs ..) ..
      exact State.inv_ported hs (State.inv_of_bytes h1 (by simp))
  · exact hs

theorem inv_execContextSave (sid : Nat) : (execContextSave sid s).Inv := by
  unfold execContextSave
  split
  · exact State.inv_of_bytes hs (State.bytes_saveMore ..)
  · split
    · exact hs
    · split
      · exact State.inv_ite hs (State.inv_stopXfers hs _)
      · split
        · exact hs
        · split
          · exact State.inv_of_bytes hs (State.bytes_cutContext ..)
          · exact hs

theorem inv_execContextRestore (n : Nat) : (execContextRestore n s).Inv := by
  unfold execContextRestore
  split
  · exact hs
  · split
    · split
      · exact State.inv_of_bytes hs (State.bytes_endRestore ..)
      · exact State.inv_of_bytes (State.inv_copyLines _ hs _) (State.bytes_modSaved ..)
    · split
      · exact State.inv_ite (State.inv_of_bytes hs (State.bytes_beginRestore ..)) hs
      · exact hs

theorem inv_execStrikeDetection (cl : Nat) : (execStrikeDetection cl s).Inv := State.inv_ite (State.inv_detect hs ..) hs

theorem inv_execRollbackRestoreComplete (cl : Nat) : (execRollbackRestoreComplete cl s).Inv := by
  unfold execRollbackRestoreComplete
  split
  · exact hs
  · extract_lets group t
    have ht : t.Inv := State.inv_foldl (fun s g h => State.inv_ite (State.inv_restoreCluster h ..) (State.inv_of_bytes h (State.bytes_modClu _ _ _ rfl))) _ hs
    exact State.inv_foldl (fun s p h => State.inv_of_bytes h (State.bytes_freezePart ..)) _ ht

theorem inv_execSelfTestProduct (cl : Nat) (mismatch : Bool) (fails : BitVec 8) : (execSelfTestProduct cl mismatch fails s).Inv := by
  unfold execSelfTestProduct
  split
  · split
    · exact hs
    · split
      · exact State.inv_detect (State.inv_ite hs (State.inv_of_bytes hs (State.bytes_modArr ..))) ..
      · extract_lets s1
        have h1 : s1.Inv := State.inv_of_bytes hs (State.bytes_modArr ..)
        split
        · exact State.inv_of_bytes h1 (State.bytes_modPortHead ..)
        · exact h1
  · exact hs

theorem inv_execVectorSlotGrant (cl : Nat) : (execVectorSlotGrant cl s).Inv := by
  unfold execVectorSlotGrant
  split
  · exact hs
  · split
    · exact State.inv_ite (State.inv_of_bytes hs (State.bytes_modClu _ _ _ rfl)) hs
    · exact State.inv_of_bytes (State.inv_vectorServe hs ..) (State.bytes_modClu _ _ _ rfl)

theorem inv_execEngineSlotGrant (cl : Nat) : (execEngineSlotGrant cl s).Inv := by
  unfold execEngineSlotGrant
  split
  · exact hs
  · extract_lets ws served
    split
    · exact hs
    · rename_i s1 s2 _
      have h1 : s1.Inv := State.inv_of_bytes hs (State.bytes_foldl _ _ _ fun s w => State.bytes_setUnits ..)
      have h2 : s2.Inv := by
        refine State.inv_foldl (fun s x h => ?_) _ h1
        split
        · exact State.inv_serveLine h ..
        · exact h
      exact State.inv_of_bytes h2 ((State.bytes_deliveries ..).trans (State.bytes_modClu _ _ _ rfl))

end

end Sys2Proof.Machine
end


section
/-!
PROOFS. The rest of the meanings that write bytes, and the invariant for every meaning.
-/

namespace Sys2Proof.Machine

theorem State.bytes_completeForm (s t : State) (sid : Nat) (i : Instr) (v : Nat) (bank : Bool) (h : t.bytes = s.bytes) : (s.completeForm t sid i v bank).bytes = s.bytes := by
  unfold State.completeForm
  have hk := keeps_formPerform i { t with cur := sid } v
  have h1 : State.bytes { t with cur := sid } = s.bytes := (State.bytes_mk t).trans h
  split
  · exact State.bytes_modCtx ..
  · next u hu =>
    exact (State.bytes_mk _).trans ((State.bytes_modCtx ..).trans ((bytes_settle (hu ▸ hk)).trans h1))
  · exact (State.bytes_mk _).trans ((bytes_settle hk).trans h1)

section
variable {s : State} (hs : s.Inv)
include hs

theorem State.inv_grantAccess (sid : Nat) (a : BankAccess) : (s.grantAccess sid a).Inv := by
  unfold State.grantAccess
  extract_lets s1
  have h1 : s1.bytes = s.bytes := State.bytes_modCtx ..
  split
  · exact State.inv_of_bytes hs (State.bytes_completeForm _ _ _ _ _ _ h1)
  · exact State.inv_bankPerform (State.inv_of_bytes hs h1) sid a

omit hs in
theorem State.inv_scalarGrants (l : List Nat) (n : Nat) (used : List Nat) {s : State} (hs : s.Inv) : (s.scalarGrants n used l).1.Inv := by
  induction l generalizing n used s with
  | nil => cases n <;> exact hs
  | cons sid l ih =>
    cases n with
    | zero => exact hs
    | succ n =>
      unfold State.scalarGrants
      split
      · exact ih _ _ hs
      · split
        · exact ih _ _ hs
        · exact ih _ _ (State.inv_grantAccess hs _ _)

theorem inv_execScalarSlotGrant (cl : Nat) : (execScalarSlotGrant cl s).Inv := by
  unfold execScalarSlotGrant
  split
  · exact hs
  · extract_lets r
    have hr : r.1.Inv := State.inv_scalarGrants _ _ _ hs
    refine (Out.inv_next _).mpr ?_
    split
    · exact State.inv_of_bytes hr (State.bytes_modClu _ _ _ rfl)
    · exact hr

theorem inv_execGlobalLoadReturn (sid : Nat) : (execGlobalLoadReturn sid s).Inv := by
  unfold execGlobalLoadReturn
  split
  · refine (Out.inv_next _).mpr ?_
    split
    · exact State.inv_of_bytes hs (State.bytes_vloadDone ..)
    · exact hs
  · extract_lets s1 back
    have h1 : s1.bytes = s.bytes := State.bytes_dropReq ..
    have hback : ∀ d sg acq, (back d sg acq).bytes = s.bytes := fun d sg acq => (State.bytes_modCtx ..).trans ((State.bytes_deliverAt ..).trans h1)
    refine State.inv_of_bytes hs ?_
    split
    · exact hback ..
    · exact hback ..
    · exact (State.bytes_setShape ..).trans h1
    · exact State.bytes_completeForm _ _ _ _ _ _ h1
    · rfl

theorem inv_execPreempt (q n : Nat) : (execPreempt q n s).Inv := by
  unfold execPreempt
  split
  · exact hs
  · extract_lets p
    split
    · rename_i _ s1 s2 out ns s3 _
      have h2 : s2.bytes = s.bytes := (State.bytes_mk s1).trans ((State.bytes_mk (s.startCmd q n)).trans (State.bytes_startCmd ..))
      have h3 : s3.bytes = s2.bytes := State.bytes_mkClus s2 _ fun cl =>
        Tab.spad_get_map (fun k => { k.2 with pool := k.2.pool.filter fun e => !(e.saved.any fun n => ns.contains n) }) (fun _ => rfl) s2.clus cl
      exact State.inv_of_bytes hs ((State.bytes_dropToken ..).trans (h3.trans h2))
    · split
      · exact hs
      · exact State.inv_of_bytes hs (State.bytes_finishCmd ..)

/-- The clusters of a partition that was reset start anew: the empty scratchpad is canonical. -/
theorem State.inv_afterReset (mine : Nat → Bool) {ctxs cores reqs parts stations taintTab acctq farCopies poison traces banks links outs gens dups arrived respAcks invals subs drains credits net queues launches streams posts snaps saved nacks answers faultLog entryLog boot fuse hostRead mgmtRead now cur served lost owed taken agenda free nextId} :
    State.Inv ⟨ctxs, cores, s.clus.map fun k => (k.1, if mine k.1 then k.2.afterReset else k.2), s.mem, s.hostMem, reqs, parts, stations, taintTab, acctq, farCopies, poison, traces, banks, links, outs, gens, dups, arrived, respAcks, invals, subs, drains, credits, net, queues, launches, streams, posts, snaps, saved, nacks, answers, faultLog, entryLog, boot, fuse, hostRead, mgmtRead, now, cur, served, lost, owed, taken, agenda, free, nextId⟩ := by
  obtain ⟨hm, hh, hc⟩ := hs
  refine ⟨hm, hh, fun cl => ?_⟩
  have hget := Tab.get_map ({} : Cluster) {} (fun k => if mine k.1 then k.2.afterReset else k.2) (fun k => by dsimp only; split <;> rfl) s.clus cl
  simp only [State.clu, hget]
  split
  · rfl
  · exact hc cl

theorem inv_execPartResetComplete (p : Nat) : (execPartResetComplete p s).Inv := by
  unfold execPartResetComplete
  split
  · split
    · exact hs
    · extract_lets ls mine s1 s2 s3 s4 s5
      have h2 : s2.Inv := State.inv_of_bytes hs ((State.bytes_abortCmds ..).trans ((State.bytes_abortCmds ..).trans (State.bytes_foldl _ _ _ fun s l => State.bytes_abortLaunch ..)))
      have h3 : s3.Inv := State.inv_afterReset h2 mine
      have h5 : s5.Inv := State.inv_of_bytes h3 ((State.bytes_recordPart ..).trans (State.bytes_modPart ..))
      exact State.inv_foldl (fun s c h => State.inv_of_bytes h (State.bytes_finishCmd ..)) _ h5
  · exact hs

theorem inv_execHostReset : (execHostReset s).Inv := State.inv_packageReset hs 2
theorem inv_execMonitorReset : (execMonitorReset s).Inv := State.inv_packageReset hs 3
theorem inv_execWatchdog : (execWatchdog s).Inv := State.inv_packageReset hs 4
theorem inv_execThermal : (execThermal s).Inv := State.inv_packageReset hs 5
theorem inv_execSupply : (execSupply s).Inv := State.inv_packageReset hs 6
theorem inv_execInfraUncorrected : (execInfraUncorrected s).Inv := State.inv_packageReset hs 8

end

theorem inv_exec {s : State} (hs : s.Inv) (i : Instr) : Out.Inv (exec i s) := by
  match i with
  | .add .. => exact Out.inv_of_keeps hs (keeps_execAdd ..)
  | .sub .. => exact Out.inv_of_keeps hs (keeps_execSub ..)
  | .and .. => exact Out.inv_of_keeps hs (keeps_execAnd ..)
  | .or .. => exact Out.inv_of_keeps hs (keeps_execOr ..)
  | .xor .. => exact Out.inv_of_keeps hs (keeps_execXor ..)
  | .andn .. => exact Out.inv_of_keeps hs (keeps_execAndn ..)
  | .sll .. => exact Out.inv_of_keeps hs (keeps_execSll ..)
  | .srl .. => exact Out.inv_of_keeps hs (keeps_execSrl ..)
  | .sra .. => exact Out.inv_of_keeps hs (keeps_execSra ..)
  | .rol .. => exact Out.inv_of_keeps hs (keeps_execRol ..)
  | .slt .. => exact Out.inv_of_keeps hs (keeps_execSlt ..)
  | .sltu .. => exact Out.inv_of_keeps hs (keeps_execSltu ..)
  | .min .. => exact Out.inv_of_keeps hs (keeps_execMin ..)
  | .max .. => exact Out.inv_of_keeps hs (keeps_execMax ..)
  | .minu .. => exact Out.inv_of_keeps hs (keeps_execMinu ..)
  | .maxu .. => exact Out.inv_of_keeps hs (keeps_execMaxu ..)
  | .mul .. => exact Out.inv_of_keeps hs (keeps_execMul ..)
  | .mulh .. => exact Out.inv_of_keeps hs (keeps_execMulh ..)
  | .mulhu .. => exact Out.inv_of_keeps hs (keeps_execMulhu ..)
  | .div .. => exact Out.inv_of_keeps hs (keeps_execDiv ..)
  | .divu .. => exact Out.inv_of_keeps hs (keeps_execDivu ..)
  | .rem .. => exact Out.inv_of_keeps hs (keeps_execRem ..)
  | .remu .. => exact Out.inv_of_keeps hs (keeps_execRemu ..)
  | .clz .. => exact Out.inv_of_keeps hs (keeps_execClz ..)
  | .ctz .. => exact Out.inv_of_keeps hs (keeps_execCtz ..)
  | .popc .. => exact Out.inv_of_keeps hs (keeps_execPopc ..)
  | .bext .. => exact Out.inv_of_keeps hs (keeps_execBext ..)
  | .bdep .. => exact Out.inv_of_keeps hs (keeps_execBdep ..)
  | .addi .. => exact Out.inv_of_keeps hs (keeps_execAddi ..)
  | .andi .. => exact Out.inv_of_keeps hs (keeps_execAndi ..)
  | .ori .. => exact Out.inv_of_keeps hs (keeps_execOri ..)
  | .xori .. => exact Out.inv_of_keeps hs (keeps_execXori ..)
  | .slli .. => exact Out.inv_of_keeps hs (keeps_execSlli ..)
  | .srli .. => exact Out.inv_of_keeps hs (keeps_execSrli ..)
  | .srai .. => exact Out.inv_of_keeps hs (keeps_execSrai ..)
  | .slti .. => exact Out.inv_of_keeps hs (keeps_execSlti ..)
  | .sltiu .. => exact Out.inv_of_keeps hs (keeps_execSltiu ..)
  | .lui .. => exact Out.inv_of_keeps hs (keeps_execLui ..)
  | .auipc .. => exact Out.inv_of_keeps hs (keeps_execAuipc ..)
  | .beq .. => exact Out.inv_of_keeps hs (keeps_execBeq ..)
  | .bne .. => exact Out.inv_of_keeps hs (keeps_execBne ..)
  | .blt .. => exact Out.inv_of_keeps hs (keeps_execBlt ..)
  | .bge .. => exact Out.inv_of_keeps hs (keeps_execBge ..)
  | .bltu .. => exact Out.inv_of_keeps hs (keeps_execBltu ..)
  | .bgeu .. => exact Out.inv_of_keeps hs (keeps_execBgeu ..)
  | .jal .. => exact Out.inv_of_keeps hs (keeps_execJal ..)
  | .jalr .. => exact Out.inv_of_keeps hs (keeps_execJalr ..)
  | .ld .. => exact Out.inv_of_keeps hs (keeps_execLd ..)
  | .ldu .. => exact Out.inv_of_keeps hs (keeps_execLdu ..)
  | .lda .. => exact Out.inv_of_keeps hs (keeps_execLda ..)
  | .st .. => exact Out.inv_of_keeps hs (keeps_execSt ..)
  | .stl .. => exact Out.inv_of_keeps hs (keeps_execStl ..)
  | .amoAdd .. => exact Out.inv_of_keeps hs (keeps_execAmoAdd ..)
  | .amoAnd .. => exact Out.inv_of_keeps hs (keeps_execAmoAnd ..)
  | .amoOr .. => exact Out.inv_of_keeps hs (keeps_execAmoOr ..)
  | .amoXor .. => exact Out.inv_of_keeps hs (keeps_execAmoXor ..)
  | .amoMin .. => exact Out.inv_of_keeps hs (keeps_execAmoMin ..)
  | .amoMax .. => exact Out.inv_of_keeps hs (keeps_execAmoMax ..)
  | .amoMinu .. => exact Out.inv_of_keeps hs (keeps_execAmoMinu ..)
  | .amoMaxu .. => exact Out.inv_of_keeps hs (keeps_execAmoMaxu ..)
  | .amoSwap .. => exact Out.inv_of_keeps hs (keeps_execAmoSwap ..)
  | .cas .. => exact Out.inv_of_keeps hs (keeps_execCas ..)
  | .fence .. => exact Out.inv_of_keeps hs (keeps_execFence ..)
  | .wait .. => exact Out.inv_of_keeps hs (keeps_execWait ..)
  | .notify .. => exact Out.inv_of_keeps hs (keeps_execNotify ..)
  | .mma .. => exact Out.inv_of_keeps hs (keeps_execMma ..)
  | .mzero .. => exact Out.inv_of_keeps hs (keeps_execMzero ..)
  | .mwait .. => exact Out.inv_of_keeps hs (keeps_execMwait ..)
  | .mtest => exact Out.inv_of_keeps hs (keeps_execMtest ..)
  | .mlda .. => exact Out.inv_of_keeps hs (keeps_execMlda ..)
  | .msta .. => exact Out.inv_of_keeps hs (keeps_execMsta ..)
  | .mshape .. => exact Out.inv_of_keeps hs (keeps_execMshape ..)
  | .mfmt .. => exact Out.inv_of_keeps hs (keeps_execMfmt ..)
  | .msave .. => exact Out.inv_of_keeps hs (keeps_execMsave ..)
  | .mrstr .. => exact Out.inv_of_keeps hs (keeps_execMrstr ..)
  | .rdef .. => exact Out.inv_of_keeps hs (keeps_execRdef ..)
  | .rpop .. => exact Out.inv_of_keeps hs (keeps_execRpop ..)
  | .rpush .. => exact Out.inv_of_keeps hs (keeps_execRpush ..)
  | .texp .. => exact Out.inv_of_keeps hs (keeps_execTexp ..)
  | .ttag .. => exact Out.inv_of_keeps hs (keeps_execTtag ..)
  | .twait .. => exact Out.inv_of_keeps hs (keeps_execTwait ..)
  | .xcopy .. => exact Out.inv_of_keeps hs (keeps_execXcopy ..)
  | .xsub .. => exact Out.inv_of_keeps hs (keeps_execXsub ..)
  | .xunsub .. => exact Out.inv_of_keeps hs (keeps_execXunsub ..)
  | .xdrain .. => exact Out.inv_of_keeps hs (keeps_execXdrain ..)
  | .xstat .. => exact Out.inv_of_keeps hs (keeps_execXstat ..)
  | .meet .. => exact Out.inv_of_keeps hs (keeps_execMeet ..)
  | .part => exact Out.inv_of_keeps hs (keeps_execPart ..)
  | .peer .. => exact Out.inv_of_keeps hs (keeps_execPeer ..)
  | .peerv .. => exact Out.inv_of_keeps hs (keeps_execPeerv ..)
  | .rollNone .. => exact Out.inv_of_keeps hs (keeps_execRollNone ..)
  | .rollAdd .. => exact Out.inv_of_keeps hs (keeps_execRollAdd ..)
  | .rollMin .. => exact Out.inv_of_keeps hs (keeps_execRollMin ..)
  | .rollMax .. => exact Out.inv_of_keeps hs (keeps_execRollMax ..)
  | .rollUmin .. => exact Out.inv_of_keeps hs (keeps_execRollUmin ..)
  | .rollUmax .. => exact Out.inv_of_keeps hs (keeps_execRollUmax ..)
  | .rollAnd .. => exact Out.inv_of_keeps hs (keeps_execRollAnd ..)
  | .rollOr .. => exact Out.inv_of_keeps hs (keeps_execRollOr ..)
  | .rollXor .. => exact Out.inv_of_keeps hs (keeps_execRollXor ..)
  | .launch .. => exact Out.inv_of_keeps hs (keeps_execLaunch ..)
  | .tend => exact Out.inv_of_keeps hs (keeps_execTend ..)
  | .yield .. => exact Out.inv_of_keeps hs (keeps_execYield ..)
  | .sbind .. => exact Out.inv_of_keeps hs (keeps_execSbind ..)
  | .chbind .. => exact Out.inv_of_keeps hs (keeps_execChbind ..)
  | .emit .. => exact Out.inv_of_keeps hs (keeps_execEmit ..)
  | .wmk .. => exact Out.inv_of_keeps hs (keeps_execWmk ..)
  | .publ .. => exact Out.inv_of_keeps hs (keeps_execPubl ..)
  | .acct .. => exact Out.inv_of_keeps hs (keeps_execAcct ..)
  | .csrr .. => exact Out.inv_of_keeps hs (keeps_execCsrr ..)
  | .csrw .. => exact Out.inv_of_keeps hs (keeps_execCsrw ..)
  | .csrs .. => exact Out.inv_of_keeps hs (keeps_execCsrs ..)
  | .csrc .. => exact Out.inv_of_keeps hs (keeps_execCsrc ..)
  | .scall .. => exact Out.inv_of_keeps hs (keeps_execScall ..)
  | .tret => exact Out.inv_of_keeps hs (keeps_execTret ..)
  | .uiret => exact Out.inv_of_keeps hs (keeps_execUiret ..)
  | .sleep .. => exact Out.inv_of_keeps hs (keeps_execSleep ..)
  | .brk .. => exact Out.inv_of_keeps hs (keeps_execBrk ..)
  | .vadd .. => exact Out.inv_of_keeps hs (keeps_execVadd ..)
  | .vaddSat .. => exact Out.inv_of_keeps hs (keeps_execVaddSat ..)
  | .vsub .. => exact Out.inv_of_keeps hs (keeps_execVsub ..)
  | .vsubSat .. => exact Out.inv_of_keeps hs (keeps_execVsubSat ..)
  | .vmul .. => exact Out.inv_of_keeps hs (keeps_execVmul ..)
  | .vmulSat .. => exact Out.inv_of_keeps hs (keeps_execVmulSat ..)
  | .vfma .. => exact Out.inv_of_keeps hs (keeps_execVfma ..)
  | .vfms .. => exact Out.inv_of_keeps hs (keeps_execVfms ..)
  | .vmulh .. => exact Out.inv_of_keeps hs (keeps_execVmulh ..)
  | .vabs .. => exact Out.inv_of_keeps hs (keeps_execVabs ..)
  | .vmin .. => exact Out.inv_of_keeps hs (keeps_execVmin ..)
  | .vmax .. => exact Out.inv_of_keeps hs (keeps_execVmax ..)
  | .vneg .. => exact Out.inv_of_keeps hs (keeps_execVneg ..)
  | .vmov .. => exact Out.inv_of_keeps hs (keeps_execVmov ..)
  | .vand .. => exact Out.inv_of_keeps hs (keeps_execVand ..)
  | .vor .. => exact Out.inv_of_keeps hs (keeps_execVor ..)
  | .vxor .. => exact Out.inv_of_keeps hs (keeps_execVxor ..)
  | .vshr .. => exact Out.inv_of_keeps hs (keeps_execVshr ..)
  | .vshl .. => exact Out.inv_of_keeps hs (keeps_execVshl ..)
  | .vshlSat .. => exact Out.inv_of_keeps hs (keeps_execVshlSat ..)
  | .vshra .. => exact Out.inv_of_keeps hs (keeps_execVshra ..)
  | .vsel .. => exact Out.inv_of_keeps hs (keeps_execVsel ..)
  | .vcmpEq .. => exact Out.inv_of_keeps hs (keeps_execVcmpEq ..)
  | .vcmpNe .. => exact Out.inv_of_keeps hs (keeps_execVcmpNe ..)
  | .vcmpLt .. => exact Out.inv_of_keeps hs (keeps_execVcmpLt ..)
  | .vcmpLe .. => exact Out.inv_of_keeps hs (keeps_execVcmpLe ..)
  | .vbcast .. => exact Out.inv_of_keeps hs (keeps_execVbcast ..)
  | .vred .. => exact Out.inv_of_keeps hs (keeps_execVred ..)
  | .vcvt .. => exact Out.inv_of_keeps hs (keeps_execVcvt ..)
  | .vcvtSr .. => exact Out.inv_of_keeps hs (keeps_execVcvtSr ..)
  | .vperm .. => exact Out.inv_of_keeps hs (keeps_execVperm ..)
  | .vslide .. => exact Out.inv_of_keeps hs (keeps_execVslide ..)
  | .vzip .. => exact Out.inv_of_keeps hs (keeps_execVzip ..)
  | .vunzip .. => exact Out.inv_of_keeps hs (keeps_execVunzip ..)
  | .vdot .. => exact Out.inv_of_keeps hs (keeps_execVdot ..)
  | .vplane .. => exact Out.inv_of_keeps hs (keeps_execVplane ..)
  | .vqnt .. => exact Out.inv_of_keeps hs (keeps_execVqnt ..)
  | .vdqnt .. => exact Out.inv_of_keeps hs (keeps_execVdqnt ..)
  | .vrcp .. => exact Out.inv_of_keeps hs (keeps_execVrcp ..)
  | .vrsq .. => exact Out.inv_of_keeps hs (keeps_execVrsq ..)
  | .vex2 .. => exact Out.inv_of_keeps hs (keeps_execVex2 ..)
  | .vlg2 .. => exact Out.inv_of_keeps hs (keeps_execVlg2 ..)
  | .vsin .. => exact Out.inv_of_keeps hs (keeps_execVsin ..)
  | .vtanh .. => exact Out.inv_of_keeps hs (keeps_execVtanh ..)
  | .vld .. => exact Out.inv_of_keeps hs (keeps_execVld ..)
  | .vst .. => exact Out.inv_of_keeps hs (keeps_execVst ..)
  | .vlds .. => exact Out.inv_of_keeps hs (keeps_execVlds ..)
  | .vsts .. => exact Out.inv_of_keeps hs (keeps_execVsts ..)
  | .vgthr .. => exact Out.inv_of_keeps hs (keeps_execVgthr ..)
  | .vsctr .. => exact Out.inv_of_keeps hs (keeps_execVsctr ..)
  | .kand .. => exact Out.inv_of_keeps hs (keeps_execKand ..)
  | .kor .. => exact Out.inv_of_keeps hs (keeps_execKor ..)
  | .knot .. => exact Out.inv_of_keeps hs (keeps_execKnot ..)
  | .kpopc .. => exact Out.inv_of_keeps hs (keeps_execKpopc ..)
  | .setfmt .. => exact Out.inv_of_keeps hs (keeps_execSetfmt ..)
  | .repf .. => exact Out.inv_of_keeps hs (keeps_execRepf ..)
  | .frameReplayPerformance .. => exact Out.inv_of_keeps hs (keeps_execFrameReplayPerformance ..)
  | .sequencerBind .. => exact Out.inv_of_keeps hs (keeps_execSequencerBind ..)
  | .laneGroupGrant .. => exact Out.inv_of_keeps hs (keeps_execLaneGroupGrant ..)
  | .vectorSlotGrant .. => exact inv_execVectorSlotGrant hs ..
  | .scalarSlotGrant .. => exact inv_execScalarSlotGrant hs ..
  | .engineSlotGrant .. => exact inv_execEngineSlotGrant hs ..
  | .matrixGrant .. => exact inv_execMatrixGrant hs ..
  | .mmaStep .. => exact Out.inv_of_keeps hs (keeps_execMmaStep ..)
  | .portRetire .. => exact Out.inv_of_keeps hs (keeps_execPortRetire ..)
  | .selfTestProduct .. => exact inv_execSelfTestProduct hs ..
  | .periodicSelfTestDue .. => exact Out.inv_of_keeps hs (keeps_execPeriodicSelfTestDue ..)
  | .subarrayRetest .. => exact Out.inv_of_keeps hs (keeps_execSubarrayRetest ..)
  | .icacheFill .. => exact Out.inv_of_keeps hs (keeps_execIcacheFill ..)
  | .globalLoadReturn .. => exact inv_execGlobalLoadReturn hs ..
  | .translationRequest .. => exact Out.inv_of_keeps hs (keeps_execTranslationRequest ..)
  | .translationWalkComplete .. => exact Out.inv_of_keeps hs (keeps_execTranslationWalkComplete ..)
  | .restanteRelease .. => exact Out.inv_of_keeps hs (keeps_execRestanteRelease ..)
  | .releaseTranslationReturn .. => exact Out.inv_of_keeps hs (keeps_execReleaseTranslationReturn ..)
  | .sliceRequestAccept .. => exact inv_execSliceRequestAccept hs ..
  | .farCopyInvalidation .. => exact Out.inv_of_keeps hs (keeps_execFarCopyInvalidation ..)
  | .scMarkerReturn .. => exact Out.inv_of_keeps hs (keeps_execScMarkerReturn ..)
  | .atomicAnswerReturn .. => exact Out.inv_of_keeps hs (keeps_execAtomicAnswerReturn ..)
  | .storeAcknowledge .. => exact Out.inv_of_keeps hs (keeps_execStoreAcknowledge ..)
  | .hostWindowWriteAck .. => exact inv_execHostWindowWriteAck hs ..
  | .deferredTrap .. => exact Out.inv_of_keeps hs (keeps_execDeferredTrap ..)
  | .userLevelInterrupt .. => exact Out.inv_of_keeps hs (keeps_execUserLevelInterrupt ..)
  | .engineCompletionEntry .. => exact inv_execEngineCompletionEntry hs ..
  | .xcopyStart .. => exact Out.inv_of_keeps hs (keeps_execXcopyStart ..)
  | .xcopyRow .. => exact inv_execXcopyRow hs ..
  | .tagCredit .. => exact Out.inv_of_keeps hs (keeps_execTagCredit ..)
  | .subscriptionSetup .. => exact Out.inv_of_keeps hs (keeps_execSubscriptionSetup ..)
  | .loaderTileSend .. => exact inv_execLoaderTileSend hs ..
  | .tileFirstByteArrival .. => exact Out.inv_of_keeps hs (keeps_execTileFirstByteArrival ..)
  | .bufferFreeSignal .. => exact Out.inv_of_keeps hs (keeps_execBufferFreeSignal ..)
  | .unsubscribeAtLoader .. => exact Out.inv_of_keeps hs (keeps_execUnsubscribeAtLoader ..)
  | .drainStart .. => exact Out.inv_of_keeps hs (keeps_execDrainStart ..)
  | .storerTakeTile .. => exact inv_execStorerTakeTile hs ..
  | .storerTilePerformed .. => exact Out.inv_of_keeps hs (keeps_execStorerTilePerformed ..)
  | .streamEngineEntry .. => exact Out.inv_of_keeps hs (keeps_execStreamEngineEntry ..)
  | .streamEngineComplete .. => exact Out.inv_of_keeps hs (keeps_execStreamEngineComplete ..)
  | .commandFetch .. => exact Out.inv_of_keeps hs (keeps_execCommandFetch ..)
  | .completionRecordWrite .. => exact inv_execCompletionRecordWrite hs ..
  | .launchCommand .. => exact Out.inv_of_keeps hs (keeps_execLaunchCommand ..)
  | .bindStream .. => exact Out.inv_of_keeps hs (keeps_execBindStream ..)
  | .sourceMark .. => exact Out.inv_of_keeps hs (keeps_execSourceMark ..)
  | .preempt .. => exact inv_execPreempt hs ..
  | .resume .. => exact Out.inv_of_keeps hs (keeps_execResume ..)
  | .fenceCommand .. => exact Out.inv_of_keeps hs (keeps_execFenceCommand ..)
  | .register .. => exact Out.inv_of_keeps hs (keeps_execRegister ..)
  | .partCreate .. => exact Out.inv_of_keeps hs (keeps_execPartCreate ..)
  | .partDestroy .. => exact Out.inv_of_keeps hs (keeps_execPartDestroy ..)
  | .partReset .. => exact Out.inv_of_keeps hs (keeps_execPartReset ..)
  | .assign .. => exact Out.inv_of_keeps hs (keeps_execAssign ..)
  | .partResetFreeze .. => exact Out.inv_of_keeps hs (keeps_execPartResetFreeze ..)
  | .partResetComplete .. => exact inv_execPartResetComplete hs ..
  | .negativeAcknowledge .. => exact Out.inv_of_keeps hs (keeps_execNegativeAcknowledge ..)
  | .launchDispatch .. => exact Out.inv_of_keeps hs (keeps_execLaunchDispatch ..)
  | .launchAging .. => exact Out.inv_of_keeps hs (keeps_execLaunchAging ..)
  | .gangPlacement .. => exact Out.inv_of_keeps hs (keeps_execGangPlacement ..)
  | .placementToken .. => exact Out.inv_of_keeps hs (keeps_execPlacementToken ..)
  | .stealRequest .. => exact Out.inv_of_keeps hs (keeps_execStealRequest ..)
  | .stealAnswer .. => exact Out.inv_of_keeps hs (keeps_execStealAnswer ..)
  | .stealRetry .. => exact Out.inv_of_keeps hs (keeps_execStealRetry ..)
  | .poolPlacement .. => exact Out.inv_of_keeps hs (keeps_execPoolPlacement ..)
  | .taskFirstCycle .. => exact Out.inv_of_keeps hs (keeps_execTaskFirstCycle ..)
  | .launchCompletion .. => exact Out.inv_of_keeps hs (keeps_execLaunchCompletion ..)
  | .meetNoticeArrival .. => exact Out.inv_of_keeps hs (keeps_execMeetNoticeArrival ..)
  | .pairRetry .. => exact Out.inv_of_keeps hs (keeps_execPairRetry ..)
  | .departureOrder .. => exact Out.inv_of_keeps hs (keeps_execDepartureOrder ..)
  | .envelopeArrival .. => exact inv_execEnvelopeArrival hs ..
  | .returnLuggageArrival .. => exact inv_execReturnLuggageArrival hs ..
  | .meetWithdrawal .. => exact Out.inv_of_keeps hs (keeps_execMeetWithdrawal ..)
  | .withdrawalArrival .. => exact Out.inv_of_keeps hs (keeps_execWithdrawalArrival ..)
  | .directoryAnswerArrival .. => exact Out.inv_of_keeps hs (keeps_execDirectoryAnswerArrival ..)
  | .rollArrival .. => exact Out.inv_of_keeps hs (keeps_execRollArrival ..)
  | .rollRelease .. => exact Out.inv_of_keeps hs (keeps_execRollRelease ..)
  | .taintHorizon .. => exact Out.inv_of_keeps hs (keeps_execTaintHorizon ..)
  | .waitTimeout .. => exact Out.inv_of_keeps hs (keeps_execWaitTimeout ..)
  | .twaitTimeout .. => exact Out.inv_of_keeps hs (keeps_execTwaitTimeout ..)
  | .sleepTimeout .. => exact Out.inv_of_keeps hs (keeps_execSleepTimeout ..)
  | .debugRelease .. => exact Out.inv_of_keeps hs (keeps_execDebugRelease ..)
  | .contextSave .. => exact inv_execContextSave hs ..
  | .contextRestore .. => exact inv_execContextRestore hs ..
  | .checkpoint => exact Out.inv_of_keeps hs (keeps_execCheckpoint ..)
  | .undoFree .. => exact Out.inv_of_keeps hs (keeps_execUndoFree ..)
  | .strikeDetection .. => exact inv_execStrikeDetection hs ..
  | .rollbackRestoreComplete .. => exact inv_execRollbackRestoreComplete hs ..
  | .accountRecordWrite .. => exact inv_execAccountRecordWrite hs ..
  | .acctRidxRead .. => exact Out.inv_of_keeps hs (keeps_execAcctRidxRead ..)
  | .streamRecordArrival .. => exact inv_execStreamRecordArrival hs ..
  | .watermarkMark .. => exact Out.inv_of_keeps hs (keeps_execWatermarkMark ..)
  | .sourceIdle .. => exact Out.inv_of_keeps hs (keeps_execSourceIdle ..)
  | .windowLaunch .. => exact inv_execWindowLaunch hs ..
  | .amendLaunch .. => exact inv_execAmendLaunch hs ..
  | .recordPortRefill .. => exact Out.inv_of_keeps hs (keeps_execRecordPortRefill ..)
  | .publication .. => exact inv_execPublication hs ..
  | .flitSend .. => exact Out.inv_of_keeps hs (keeps_execFlitSend ..)
  | .flitArrival .. => exact Out.inv_of_keeps hs (keeps_execFlitArrival ..)
  | .flitReplay .. => exact Out.inv_of_keeps hs (keeps_execFlitReplay ..)
  | .flitAcknowledge .. => exact Out.inv_of_keeps hs (keeps_execFlitAcknowledge ..)
  | .laneFailure .. => exact inv_execLaneFailure hs ..
  | .retrainComplete .. => exact inv_execRetrainComplete hs ..
  | .replayReissue .. => exact Out.inv_of_keeps hs (keeps_execReplayReissue ..)
  | .remoteRequestArrival .. => exact inv_execRemoteRequestArrival hs ..
  | .remoteResponseArrival .. => exact Out.inv_of_keeps hs (keeps_execRemoteResponseArrival ..)
  | .hostWrite .. => exact inv_execHostWrite hs ..
  | .hostRead .. => exact Out.inv_of_keeps hs (keeps_execHostRead ..)
  | .qpidxWrite .. => exact Out.inv_of_keeps hs (keeps_execQpidxWrite ..)
  | .queueEnable .. => exact Out.inv_of_keeps hs (keeps_execQueueEnable ..)
  | .cqridxWrite .. => exact Out.inv_of_keeps hs (keeps_execCqridxWrite ..)
  | .xlinv .. => exact Out.inv_of_keeps hs (keeps_execXlinv ..)
  | .errorRecordClear .. => exact Out.inv_of_keeps hs (keeps_execErrorRecordClear ..)
  | .rtctlWrite .. => exact Out.inv_of_keeps hs (keeps_execRtctlWrite ..)
  | .clshareWrite .. => exact Out.inv_of_keeps hs (keeps_execClshareWrite ..)
  | .featctlGo => exact Out.inv_of_keeps hs (keeps_execFeatctlGo ..)
  | .deviceRegisterWrite .. => exact Out.inv_of_keeps hs (keeps_execDeviceRegisterWrite ..)
  | .monitorVerify .. => exact inv_execMonitorVerify hs ..
  | .hbmTraining .. => exact inv_execHbmTraining hs ..
  | .linkTraining .. => exact inv_execLinkTraining hs ..
  | .clusterSelfTest .. => exact inv_execClusterSelfTest hs ..
  | .serviceFirmwareStart .. => exact inv_execServiceFirmwareStart hs ..
  | .startFailed .. => exact inv_execStartFailed hs ..
  | .stageTimeout => exact inv_execStageTimeout hs
  | .monitorImageLoad .. => exact inv_execMonitorImageLoad hs ..
  | .attestation .. => exact Out.inv_of_keeps hs (keeps_execAttestation ..)
  | .powerOn => exact inv_execPowerOn hs
  | .hostReset => exact inv_execHostReset hs
  | .monitorReset => exact inv_execMonitorReset hs
  | .watchdog => exact inv_execWatchdog hs
  | .thermal => exact inv_execThermal hs
  | .supply => exact inv_execSupply hs
  | .infraUncorrected => exact inv_execInfraUncorrected hs
  | .illegalInstruction .. => exact Out.inv_of_keeps hs (keeps_execIllegalInstruction ..)
  | .fetchFault .. => exact Out.inv_of_keeps hs (keeps_execFetchFault ..)
  | .launchIdAnswer .. => exact Out.inv_of_keeps hs (keeps_execLaunchIdAnswer ..)
  | .visitorSlotFree .. => exact Out.inv_of_keeps hs (keeps_execVisitorSlotFree ..)
  | .responseAcknowledgement .. => exact Out.inv_of_keeps hs (keeps_execResponseAcknowledgement ..)
  | .hbmEccError .. => exact Out.inv_of_keeps hs (keeps_execHbmEccError ..)
  | .sramEccCorrection .. => exact Out.inv_of_keeps hs (keeps_execSramEccCorrection ..)
  | .sliceUncorrectedError .. => exact Out.inv_of_keeps hs (keeps_execSliceUncorrectedError ..)

end Sys2Proof.Machine
end


section
/-!
PROOFS. The step keeps every memory in its canonical form; the reset state is in it (O31, O30).
-/

namespace Sys2Proof.Machine

/-! The step: every event that it considers is the meaning of an instruction. -/

/-- What an event does is what some instruction means. -/
def Meaning (e : Event) : Prop := ∃ i, exec i = e

/-- Every event of a list is the meaning of an instruction. -/
def Meanings (l : List Event) : Prop := ∀ e ∈ l, Meaning e

@[simp] theorem meanings_nil : Meanings [] := fun _ h => absurd h (by simp)

@[simp] theorem meanings_cons (e : Event) (l : List Event) : Meanings (e :: l) ↔ Meaning e ∧ Meanings l := List.forall_mem_cons

@[simp] theorem meanings_append (l m : List Event) : Meanings (l ++ m) ↔ Meanings l ∧ Meanings m := List.forall_mem_append

theorem meanings_map {α : Type} {f : α → Event} (h : ∀ x, Meaning (f x)) (l : List α) : Meanings (l.map f) := by
  intro e he
  obtain ⟨x, -, rfl⟩ := List.mem_map.mp he
  exact h x

theorem meanings_flatMap {α : Type} {f : α → List Event} (h : ∀ x, Meanings (f x)) (l : List α) : Meanings (l.flatMap f) := by
  intro e he
  obtain ⟨x, -, hx⟩ := List.mem_flatMap.mp he
  exact h x e hx

theorem meanings_ite {c : Prop} [Decidable c] {l m : List Event} (hl : Meanings l) (hm : Meanings m) : Meanings (if c then l else m) := by
  split
  · exact hl
  · exact hm

@[simp] theorem meaning_accountRecordWrite (ci : Nat) : Meaning (execAccountRecordWrite ci) := ⟨.accountRecordWrite ci, rfl⟩

@[simp] theorem meaning_acctRidxRead (ci : Nat) : Meaning (execAcctRidxRead ci) := ⟨.acctRidxRead ci, rfl⟩

@[simp] theorem meaning_amendLaunch (p n w : Nat) : Meaning (execAmendLaunch p n w) := ⟨.amendLaunch p n w, rfl⟩

@[simp] theorem meaning_assign (q n : Nat) : Meaning (execAssign q n) := ⟨.assign q n, rfl⟩

@[simp] theorem meaning_atomicAnswerReturn (id : Nat) : Meaning (execAtomicAnswerReturn id) := ⟨.atomicAnswerReturn id, rfl⟩

@[simp] theorem meaning_bindStream (q n : Nat) : Meaning (execBindStream q n) := ⟨.bindStream q n, rfl⟩

@[simp] theorem meaning_bufferFreeSignal (ci ring tag : Nat) : Meaning (execBufferFreeSignal ci ring tag) := ⟨.bufferFreeSignal ci ring tag, rfl⟩

@[simp] theorem meaning_checkpoint : Meaning (execCheckpoint) := ⟨.checkpoint, rfl⟩

@[simp] theorem meaning_commandFetch (q : Nat) : Meaning (execCommandFetch q) := ⟨.commandFetch q, rfl⟩

@[simp] theorem meaning_completionRecordWrite (q : Nat) : Meaning (execCompletionRecordWrite q) := ⟨.completionRecordWrite q, rfl⟩

@[simp] theorem meaning_contextRestore (n : Nat) : Meaning (execContextRestore n) := ⟨.contextRestore n, rfl⟩

@[simp] theorem meaning_contextSave (sid : Nat) : Meaning (execContextSave sid) := ⟨.contextSave sid, rfl⟩

@[simp] theorem meaning_deferredTrap (sid : Nat) : Meaning (execDeferredTrap sid) := ⟨.deferredTrap sid, rfl⟩

@[simp] theorem meaning_departureOrder (n : Nat) : Meaning (execDepartureOrder n) := ⟨.departureOrder n, rfl⟩

@[simp] theorem meaning_directoryAnswerArrival (n : Nat) : Meaning (execDirectoryAnswerArrival n) := ⟨.directoryAnswerArrival n, rfl⟩

@[simp] theorem meaning_drainStart (n : Nat) : Meaning (execDrainStart n) := ⟨.drainStart n, rfl⟩

@[simp] theorem meaning_engineCompletionEntry (ci xid : Nat) : Meaning (execEngineCompletionEntry ci xid) := ⟨.engineCompletionEntry ci xid, rfl⟩

@[simp] theorem meaning_engineSlotGrant (cl : Nat) : Meaning (execEngineSlotGrant cl) := ⟨.engineSlotGrant cl, rfl⟩

@[simp] theorem meaning_envelopeArrival (n : Nat) : Meaning (execEnvelopeArrival n) := ⟨.envelopeArrival n, rfl⟩

@[simp] theorem meaning_farCopyInvalidation (n : Nat) : Meaning (execFarCopyInvalidation n) := ⟨.farCopyInvalidation n, rfl⟩

@[simp] theorem meaning_fenceCommand (q n : Nat) : Meaning (execFenceCommand q n) := ⟨.fenceCommand q n, rfl⟩

@[simp] theorem meaning_flitAcknowledge (m : Nat) : Meaning (execFlitAcknowledge m) := ⟨.flitAcknowledge m, rfl⟩

@[simp] theorem meaning_flitArrival (m : Nat) (crcOk : Bool) : Meaning (execFlitArrival m crcOk) := ⟨.flitArrival m crcOk, rfl⟩

@[simp] theorem meaning_flitReplay (m : Nat) : Meaning (execFlitReplay m) := ⟨.flitReplay m, rfl⟩

@[simp] theorem meaning_flitSend (m : Nat) : Meaning (execFlitSend m) := ⟨.flitSend m, rfl⟩

@[simp] theorem meaning_frameReplayPerformance (sid : Nat) : Meaning (execFrameReplayPerformance sid) := ⟨.frameReplayPerformance sid, rfl⟩

@[simp] theorem meaning_gangPlacement (p lid : Nat) : Meaning (execGangPlacement p lid) := ⟨.gangPlacement p lid, rfl⟩

@[simp] theorem meaning_globalLoadReturn (sid : Nat) : Meaning (execGlobalLoadReturn sid) := ⟨.globalLoadReturn sid, rfl⟩

@[simp] theorem meaning_hostWindowWriteAck (id : Nat) : Meaning (execHostWindowWriteAck id) := ⟨.hostWindowWriteAck id, rfl⟩

@[simp] theorem meaning_laneGroupGrant (cl : Nat) : Meaning (execLaneGroupGrant cl) := ⟨.laneGroupGrant cl, rfl⟩

@[simp] theorem meaning_launchAging (p lid : Nat) : Meaning (execLaunchAging p lid) := ⟨.launchAging p lid, rfl⟩

@[simp] theorem meaning_launchCommand (q n : Nat) : Meaning (execLaunchCommand q n) := ⟨.launchCommand q n, rfl⟩

@[simp] theorem meaning_launchCompletion (p lid : Nat) : Meaning (execLaunchCompletion p lid) := ⟨.launchCompletion p lid, rfl⟩

@[simp] theorem meaning_launchDispatch (p : Nat) : Meaning (execLaunchDispatch p) := ⟨.launchDispatch p, rfl⟩

@[simp] theorem meaning_launchIdAnswer (sid : Nat) : Meaning (execLaunchIdAnswer sid) := ⟨.launchIdAnswer sid, rfl⟩

@[simp] theorem meaning_loaderTileSend (n : Nat) : Meaning (execLoaderTileSend n) := ⟨.loaderTileSend n, rfl⟩

@[simp] theorem meaning_matrixGrant (cl : Nat) : Meaning (execMatrixGrant cl) := ⟨.matrixGrant cl, rfl⟩

@[simp] theorem meaning_meetNoticeArrival (n : Nat) : Meaning (execMeetNoticeArrival n) := ⟨.meetNoticeArrival n, rfl⟩

@[simp] theorem meaning_meetWithdrawal (sid : Nat) : Meaning (execMeetWithdrawal sid) := ⟨.meetWithdrawal sid, rfl⟩

@[simp] theorem meaning_mmaStep (ci : Nat) : Meaning (execMmaStep ci) := ⟨.mmaStep ci, rfl⟩

@[simp] theorem meaning_negativeAcknowledge (n : Nat) : Meaning (execNegativeAcknowledge n) := ⟨.negativeAcknowledge n, rfl⟩

@[simp] theorem meaning_pairRetry (cl : Nat) : Meaning (execPairRetry cl) := ⟨.pairRetry cl, rfl⟩

@[simp] theorem meaning_partCreate (q n : Nat) : Meaning (execPartCreate q n) := ⟨.partCreate q n, rfl⟩

@[simp] theorem meaning_partDestroy (q n : Nat) : Meaning (execPartDestroy q n) := ⟨.partDestroy q n, rfl⟩

@[simp] theorem meaning_partReset (q n : Nat) : Meaning (execPartReset q n) := ⟨.partReset q n, rfl⟩

@[simp] theorem meaning_partResetComplete (p : Nat) : Meaning (execPartResetComplete p) := ⟨.partResetComplete p, rfl⟩

@[simp] theorem meaning_partResetFreeze (p : Nat) : Meaning (execPartResetFreeze p) := ⟨.partResetFreeze p, rfl⟩

@[simp] theorem meaning_periodicSelfTestDue (cl : Nat) : Meaning (execPeriodicSelfTestDue cl) := ⟨.periodicSelfTestDue cl, rfl⟩

@[simp] theorem meaning_portRetire (ci : Nat) : Meaning (execPortRetire ci) := ⟨.portRetire ci, rfl⟩

@[simp] theorem meaning_preempt (q n : Nat) : Meaning (execPreempt q n) := ⟨.preempt q n, rfl⟩

@[simp] theorem meaning_publication (p n : Nat) : Meaning (execPublication p n) := ⟨.publication p n, rfl⟩

@[simp] theorem meaning_recordPortRefill (sid : Nat) : Meaning (execRecordPortRefill sid) := ⟨.recordPortRefill sid, rfl⟩

@[simp] theorem meaning_register (q n : Nat) : Meaning (execRegister q n) := ⟨.register q n, rfl⟩

@[simp] theorem meaning_releaseTranslationReturn (id : Nat) : Meaning (execReleaseTranslationReturn id) := ⟨.releaseTranslationReturn id, rfl⟩

@[simp] theorem meaning_remoteRequestArrival (n : Nat) : Meaning (execRemoteRequestArrival n) := ⟨.remoteRequestArrival n, rfl⟩

@[simp] theorem meaning_remoteResponseArrival (n : Nat) : Meaning (execRemoteResponseArrival n) := ⟨.remoteResponseArrival n, rfl⟩

@[simp] theorem meaning_responseAcknowledgement (n : Nat) : Meaning (execResponseAcknowledgement n) := ⟨.responseAcknowledgement n, rfl⟩

@[simp] theorem meaning_restanteRelease (id : Nat) : Meaning (execRestanteRelease id) := ⟨.restanteRelease id, rfl⟩

@[simp] theorem meaning_resume (q n : Nat) : Meaning (execResume q n) := ⟨.resume q n, rfl⟩

@[simp] theorem meaning_returnLuggageArrival (n : Nat) : Meaning (execReturnLuggageArrival n) := ⟨.returnLuggageArrival n, rfl⟩

@[simp] theorem meaning_rollArrival (n : Nat) : Meaning (execRollArrival n) := ⟨.rollArrival n, rfl⟩

@[simp] theorem meaning_rollRelease (n : Nat) : Meaning (execRollRelease n) := ⟨.rollRelease n, rfl⟩

@[simp] theorem meaning_rollbackRestoreComplete (cl : Nat) : Meaning (execRollbackRestoreComplete cl) := ⟨.rollbackRestoreComplete cl, rfl⟩

@[simp] theorem meaning_scMarkerReturn (sid m : Nat) : Meaning (execScMarkerReturn sid m) := ⟨.scMarkerReturn sid m, rfl⟩

@[simp] theorem meaning_scalarSlotGrant (cl : Nat) : Meaning (execScalarSlotGrant cl) := ⟨.scalarSlotGrant cl, rfl⟩

@[simp] theorem meaning_selfTestProduct (cl : Nat) (mismatch : Bool) (fails : BitVec 8) : Meaning (execSelfTestProduct cl mismatch fails) := ⟨.selfTestProduct cl mismatch fails, rfl⟩

@[simp] theorem meaning_sequencerBind (ci : Nat) : Meaning (execSequencerBind ci) := ⟨.sequencerBind ci, rfl⟩

@[simp] theorem meaning_sleepTimeout (sid : Nat) : Meaning (execSleepTimeout sid) := ⟨.sleepTimeout sid, rfl⟩

@[simp] theorem meaning_sliceRequestAccept (id : Nat) : Meaning (execSliceRequestAccept id) := ⟨.sliceRequestAccept id, rfl⟩

@[simp] theorem meaning_sourceIdle (p n src : Nat) : Meaning (execSourceIdle p n src) := ⟨.sourceIdle p n src, rfl⟩

@[simp] theorem meaning_sourceMark (q n : Nat) : Meaning (execSourceMark q n) := ⟨.sourceMark q n, rfl⟩

@[simp] theorem meaning_stageTimeout : Meaning (execStageTimeout) := ⟨.stageTimeout, rfl⟩

@[simp] theorem meaning_stealAnswer (n : Nat) : Meaning (execStealAnswer n) := ⟨.stealAnswer n, rfl⟩

@[simp] theorem meaning_stealRequest (n : Nat) : Meaning (execStealRequest n) := ⟨.stealRequest n, rfl⟩

@[simp] theorem meaning_stealRetry (cl lid : Nat) : Meaning (execStealRetry cl lid) := ⟨.stealRetry cl lid, rfl⟩

@[simp] theorem meaning_storeAcknowledge (id : Nat) : Meaning (execStoreAcknowledge id) := ⟨.storeAcknowledge id, rfl⟩

@[simp] theorem meaning_storerTakeTile (n : Nat) : Meaning (execStorerTakeTile n) := ⟨.storerTakeTile n, rfl⟩

@[simp] theorem meaning_storerTilePerformed (n : Nat) : Meaning (execStorerTilePerformed n) := ⟨.storerTilePerformed n, rfl⟩

@[simp] theorem meaning_streamEngineComplete (ci e : Nat) : Meaning (execStreamEngineComplete ci e) := ⟨.streamEngineComplete ci e, rfl⟩

@[simp] theorem meaning_streamEngineEntry (ci e : Nat) : Meaning (execStreamEngineEntry ci e) := ⟨.streamEngineEntry ci e, rfl⟩

@[simp] theorem meaning_streamRecordArrival (p n : Nat) : Meaning (execStreamRecordArrival p n) := ⟨.streamRecordArrival p n, rfl⟩

@[simp] theorem meaning_subarrayRetest (cl : Nat) (n : BitVec 3) (fails : Bool) : Meaning (execSubarrayRetest cl n fails) := ⟨.subarrayRetest cl n fails, rfl⟩

@[simp] theorem meaning_subscriptionSetup (n : Nat) : Meaning (execSubscriptionSetup n) := ⟨.subscriptionSetup n, rfl⟩

@[simp] theorem meaning_tagCredit (n : Nat) : Meaning (execTagCredit n) := ⟨.tagCredit n, rfl⟩

@[simp] theorem meaning_taintHorizon (sid : Nat) : Meaning (execTaintHorizon sid) := ⟨.taintHorizon sid, rfl⟩

@[simp] theorem meaning_taskFirstCycle (sid : Nat) : Meaning (execTaskFirstCycle sid) := ⟨.taskFirstCycle sid, rfl⟩

@[simp] theorem meaning_tileFirstByteArrival (n ci : Nat) : Meaning (execTileFirstByteArrival n ci) := ⟨.tileFirstByteArrival n ci, rfl⟩

@[simp] theorem meaning_translationRequest (sid : Nat) : Meaning (execTranslationRequest sid) := ⟨.translationRequest sid, rfl⟩

@[simp] theorem meaning_translationWalkComplete (sid : Nat) : Meaning (execTranslationWalkComplete sid) := ⟨.translationWalkComplete sid, rfl⟩

@[simp] theorem meaning_twaitTimeout (sid : Nat) : Meaning (execTwaitTimeout sid) := ⟨.twaitTimeout sid, rfl⟩

@[simp] theorem meaning_undoFree (cl : Nat) : Meaning (execUndoFree cl) := ⟨.undoFree cl, rfl⟩

@[simp] theorem meaning_unsubscribeAtLoader (id : Nat) : Meaning (execUnsubscribeAtLoader id) := ⟨.unsubscribeAtLoader id, rfl⟩

@[simp] theorem meaning_userLevelInterrupt (sid : Nat) : Meaning (execUserLevelInterrupt sid) := ⟨.userLevelInterrupt sid, rfl⟩

@[simp] theorem meaning_vectorSlotGrant (cl : Nat) : Meaning (execVectorSlotGrant cl) := ⟨.vectorSlotGrant cl, rfl⟩

@[simp] theorem meaning_visitorSlotFree (sid : Nat) : Meaning (execVisitorSlotFree sid) := ⟨.visitorSlotFree sid, rfl⟩

@[simp] theorem meaning_waitTimeout (sid : Nat) : Meaning (execWaitTimeout sid) := ⟨.waitTimeout sid, rfl⟩

@[simp] theorem meaning_watermarkMark (p n : Nat) : Meaning (execWatermarkMark p n) := ⟨.watermarkMark p n, rfl⟩

@[simp] theorem meaning_windowLaunch (p n : Nat) : Meaning (execWindowLaunch p n) := ⟨.windowLaunch p n, rfl⟩

@[simp] theorem meaning_withdrawalArrival (n : Nat) : Meaning (execWithdrawalArrival n) := ⟨.withdrawalArrival n, rfl⟩

@[simp] theorem meaning_xcopyRow (ci xid : Nat) : Meaning (execXcopyRow ci xid) := ⟨.xcopyRow ci xid, rfl⟩

@[simp] theorem meaning_xcopyStart (ci xid : Nat) : Meaning (execXcopyStart ci xid) := ⟨.xcopyStart ci xid, rfl⟩

@[simp] theorem meanings_atStart (s : State) {l : List Event} (h : Meanings l) : Meanings (s.atStart l) := meanings_ite h meanings_nil

@[simp] theorem meanings_reqEvents (s : State) (r : Req) : Meanings (s.reqEvents r) := by
  unfold State.reqEvents
  extract_lets inside
  split
  case h_9 => exact (meanings_append ..).mpr ⟨meanings_ite (by simp) (by simp), by simp⟩
  case h_4 | h_5 | h_6 | h_7 => simp
  all_goals exact meanings_ite (by simp) (by simp)

theorem meanings_ctxEvents (s : State) (sid : Nat) (c : Ctx) : Meanings (s.ctxEvents sid c) := by
  unfold State.ctxEvents
  refine meanings_ite meanings_nil ?_
  simp only [meanings_append]
  refine ⟨⟨⟨⟨⟨⟨⟨⟨?_, meanings_ite (by simp) (by simp)⟩, meanings_map (by simp) _⟩, meanings_ite (by simp) (by simp)⟩, meanings_ite (by simp) (by simp)⟩,
    meanings_ite (by simp) (by simp)⟩, meanings_ite (by simp) (by simp)⟩, meanings_ite (by simp) (by simp)⟩, meanings_ite (by simp) (by simp)⟩
  split <;> simp

theorem meanings_bindEvents (s : State) (ci : Nat) (k : CoreSt) : Meanings (s.bindEvents ci k) := meanings_ite (by simp) (by simp)

theorem meanings_cluEvents (s : State) (cl : Nat) (c : Cluster) : Meanings (s.cluEvents cl c) := by
  unfold State.cluEvents
  refine meanings_ite meanings_nil (meanings_ite (meanings_ite (by simp) (by simp)) ?_)
  simp only [meanings_append]
  refine ⟨⟨⟨⟨⟨meanings_flatMap (fun n => meanings_ite (by simp) (by simp)) _, by simp⟩, ?_⟩, meanings_ite (by simp) (by simp)⟩, meanings_ite (by simp) (by simp)⟩,
    meanings_map (by simp) _⟩
  split <;> simp

theorem meanings_xferEvents (x : Xfer) (ci : Nat) : Meanings (x.events ci) := by
  unfold Xfer.events
  extract_lets n
  refine (meanings_append ..).mpr ⟨?_, by simp⟩
  split <;> simp

theorem meanings_coreEvents (s : State) (ci : Nat) (k : CoreSt) : Meanings (s.coreEvents ci k) := by
  unfold State.coreEvents
  refine meanings_ite meanings_nil ?_
  simp only [meanings_append]
  exact ⟨⟨⟨⟨meanings_map (by simp) _, meanings_flatMap (fun x => meanings_xferEvents x ci) _⟩, meanings_map (by simp) _⟩, meanings_map (by simp) _⟩,
    meanings_ite (by simp) (by simp)⟩

/-- Each group of events at a memory port is one of meanings. -/
def PortMeanings (l : List AtPort) : Prop := ∀ x ∈ l, Meanings x.2.2

theorem portMeanings_append {l m : List AtPort} (hl : PortMeanings l) (hm : PortMeanings m) : PortMeanings (l ++ m) :=
  List.forall_mem_append.mpr ⟨hl, hm⟩

theorem portMeanings_asks {n r : Nat} {l : List Event} (h : Meanings l) : PortMeanings (if l.isEmpty then [] else [(n, r, l)]) := by
  split
  · exact fun _ hx => absurd hx (by simp)
  · intro x hx
    obtain rfl := List.mem_singleton.mp hx
    exact h

theorem portMeanings_engineAsks (s : State) (ci : Nat) : PortMeanings (s.engineAsks ci) := by
  unfold State.engineAsks
  extract_lets k asks
  have hasks : ∀ n l, Meanings l → PortMeanings (asks n l) := fun n l h => portMeanings_asks h
  refine portMeanings_append ?_ (hasks _ _ (meanings_map (by simp) _))
  split
  · exact fun _ hx => absurd hx (by simp)
  · refine portMeanings_append (portMeanings_append (portMeanings_append (hasks _ _ (meanings_map (by simp) _)) (hasks _ _ (meanings_map (by simp) _))) ?_)
      (hasks _ _ (meanings_map (by simp) _))
    intro x hx
    obtain ⟨e, -, he⟩ := List.mem_flatMap.mp hx
    exact hasks _ _ (by simp) x he

theorem mem_insertBefore {α : Type} {before : α → α → Bool} {x y : α} {l : List α} (h : y ∈ insertBefore before x l) : y = x ∨ y ∈ l := by
  induction l with
  | nil => exact List.mem_cons.mp h
  | cons z l ih =>
    unfold insertBefore at h
    split at h
    · exact List.mem_cons.mp h
    · rcases List.mem_cons.mp h with rfl | h
      · simp
      · rcases ih h with rfl | h <;> simp [*]

theorem mem_sortBefore {α : Type} {before : α → α → Bool} {l : List α} {x : α} (h : x ∈ sortBefore before l) : x ∈ l := by
  have key : ∀ (l m : List α), x ∈ l.foldl (fun l y => insertBefore before y l) m → x ∈ l ∨ x ∈ m := by
    intro l
    induction l with
    | nil => exact fun m hm => .inr hm
    | cons y l ih =>
      intro m hm
      rcases ih _ hm with h | h
      · simp [h]
      · rcases mem_insertBefore h with rfl | h <;> simp [h]
  simpa using key l [] h

theorem meanings_portEvents (s : State) : Meanings s.portEvents := by
  unfold State.portEvents
  extract_lets reqs links cores
  have hall : PortMeanings (reqs ++ links ++ cores.flatMap s.engineAsks) := by
    refine portMeanings_append (portMeanings_append ?_ ?_) ?_
    · intro x hx
      obtain ⟨r, -, rfl⟩ := List.mem_map.mp hx
      exact meanings_reqEvents s r
    · intro x hx
      obtain ⟨t, -, rfl⟩ := List.mem_map.mp hx
      simp
    · intro x hx
      obtain ⟨ci, -, hci⟩ := List.mem_flatMap.mp hx
      exact portMeanings_engineAsks s ci x hci
  intro e he
  obtain ⟨x, hx, hex⟩ := List.mem_flatMap.mp he
  exact hall x (mem_sortBefore hx) e hex

theorem meaning_msgEvent (m : Msg) : Meaning m.event := by
  unfold Msg.event
  split <;> simp

theorem meanings_cmdEvents (c : Cmd) (q : Nat) : Meanings (c.events q) := by
  unfold Cmd.events
  split <;> simp

theorem meanings_queueEvents (q : Nat) (k : Queue) : Meanings (State.queueEvents q k) := by
  unfold State.queueEvents
  simpa using meanings_flatMap (fun c => meanings_cmdEvents c q) _

theorem meanings_streamEvents (t : Stream) (p n : Nat) : Meanings (t.events p n) := by
  unfold Stream.events
  simpa using meanings_map (fun _ => by simp) _

theorem meanings_partEvents (s : State) (p : Nat) (t : Part) : Meanings (s.partEvents p t) := by
  unfold State.partEvents
  simp only [meanings_append]
  exact ⟨⟨⟨meanings_ite (by simp) (by simp), meanings_map (by simp) _⟩, by simp⟩, meanings_flatMap (by simp) _⟩

theorem meanings_clearEvents (s : State) : Meanings s.clearEvents :=
  (meanings_append ..).mpr ⟨meanings_flatMap (by simp) _, meanings_map (by simp) _⟩

theorem meanings_candidates (s : State) : Meanings s.candidates := by
  unfold State.candidates
  simp only [meanings_append]
  refine ⟨⟨⟨⟨⟨⟨⟨⟨⟨⟨⟨⟨⟨⟨⟨⟨⟨⟨⟨⟨⟨⟨⟨⟨meanings_clearEvents s, meanings_ite (by simp) (by simp)⟩, meanings_flatMap (fun e => meanings_ctxEvents s _ _) _⟩, meanings_map (by simp) _⟩,
    meanings_flatMap (by simp) _⟩, meanings_flatMap (fun k => meanings_bindEvents s _ _) _⟩, meanings_flatMap (fun cl => meanings_cluEvents s _ _) _⟩,
    meanings_flatMap (fun k => meanings_coreEvents s _ _) _⟩, meanings_portEvents s⟩, meanings_map (by simp) _⟩, meanings_flatMap (fun l => by simp [linkEvents]) _⟩,
    meanings_map (by simp) _⟩, meanings_map (by simp) _⟩, meanings_map (by simp) _⟩, meanings_map (by simp) _⟩, meanings_map meaning_msgEvent _⟩,
    meanings_map (by simp) _⟩, meanings_map (by simp) _⟩, meanings_map (by simp) _⟩, meanings_map (by simp) _⟩, meanings_flatMap (fun k => meanings_queueEvents _ _) _⟩,
    meanings_flatMap (fun t => meanings_streamEvents _ _ _) _⟩, meanings_flatMap (fun t => meanings_partEvents s _ _) _⟩, by simp⟩,
    meanings_flatMap (fun t => meanings_map (by simp) _) _⟩


section
variable {s : State} (hs : s.Inv)
include hs

theorem inv_outState {o : Out} (h : o.Inv) : (outState s o).Inv := by
  cases o with
  | next t => exact h
  | _ => exact hs

theorem inv_of_meaning {e : Event} (he : Meaning e) : Out.Inv (e s) := by
  obtain ⟨i, rfl⟩ := he
  exact inv_exec hs i

theorem inv_captureStep (sid : Nat) : Out.Inv (s.captureStep sid) := Out.inv_of_keeps hs (State.keeps_captureStep s sid)

theorem inv_fetchStep (sid : Nat) : Out.Inv (s.fetchStep sid) := by
  unfold State.fetchStep
  have ht : (s.touch sid).Inv := State.inv_of_bytes hs (State.bytes_touch ..)
  split
  · split
    · exact inv_exec hs (.fetchFault _)
    · exact inv_exec hs (.icacheFill _)
  · split
    · exact inv_exec ht _
    · exact inv_exec ht (.illegalInstruction _)

theorem inv_freeTurn (sid : Nat) : Out.Inv (s.freeTurn sid) := by
  have hr : (s.readied sid).Inv := State.inv_of_bytes hs (State.bytes_readied ..)
  unfold State.freeTurn
  split
  · exact inv_captureStep hr sid
  · exact inv_fetchStep hr sid

theorem inv_turn (sid : Nat) : Out.Inv (s.turn sid) := by
  unfold State.turn
  split
  · exact inv_freeTurn hs sid
  · split
    · exact inv_freeTurn hs sid
    · split
      · exact inv_freeTurn hs sid
      · exact State.inv_of_bytes hs ((State.bytes_modCtx ..).trans (State.bytes_readied ..))

theorem inv_stepCtx (sid : Nat) : Out.Inv (s.stepCtx sid) := by
  have h := inv_turn hs sid
  unfold State.stepCtx
  split
  · next t ht => exact State.inv_of_bytes (ht ▸ h : Out.Inv (.next t)) (State.bytes_closeTurn ..)
  · exact h

theorem inv_of_asideOf {sid : Nat} {t : State} (ht : s.asideOf sid = some t) : t.Inv := by
  have h := inv_turn hs sid
  unfold State.asideOf at ht
  split at ht
  · exact absurd ht (by simp)
  · split at ht
    · next u hu =>
      obtain ⟨-, hut⟩ := Option.ite_none_left_eq_some.mp ht
      obtain rfl := Option.some.inj hut
      exact (hu ▸ h : Out.Inv (.next u))
    · exact absurd ht (by simp)

theorem inv_of_aside {t : State} (ht : s.aside = some t) : t.Inv := by
  obtain ⟨ci, -, hci⟩ := List.exists_of_findSome?_eq_some ht
  obtain ⟨sid, -, hsid⟩ := List.exists_of_findSome?_eq_some hci
  exact inv_of_asideOf hs hsid

theorem inv_of_firstDue {l : List Event} (hl : Meanings l) {t : State} (ht : s.firstDue l = some t) : t.Inv := by
  induction l with
  | nil => exact absurd ht (by simp [State.firstDue])
  | cons e l ih =>
    obtain ⟨he, hl⟩ := (meanings_cons ..).mp hl
    unfold State.firstDue at ht
    extract_lets u at ht
    split at ht
    · exact ih hl ht
    · obtain rfl := Option.some.inj ht
      exact inv_outState hs (inv_of_meaning hs he)

omit hs in
theorem inv_evalPool (cl : Nat) (older : Bool) (n : Nat) {s : State} (hs : s.Inv) : (s.evalPool cl older n).Inv := by
  induction n generalizing s with
  | zero => exact hs
  | succ n ih =>
    unfold State.evalPool
    split
    · exact hs
    · refine ih ?_
      split
      · exact inv_outState hs (inv_exec hs (.contextRestore _))
      · exact State.inv_of_bytes hs (State.bytes_placeEntry ..)

theorem inv_evalPools (older : Bool) : (s.evalPools older).Inv := State.inv_foldl (fun _ cl h => inv_evalPool cl older 8 h) _ hs

omit hs in
theorem inv_evalToken (p n : Nat) {s : State} (hs : s.Inv) : (s.evalToken p n).Inv := by
  induction n generalizing s with
  | zero => exact hs
  | succ n ih =>
    unfold State.evalToken
    extract_lets t
    have ht : t.Inv := inv_outState hs (inv_exec hs (.placementToken p))
    exact State.inv_ite ht (State.inv_ite ht (ih ht))

theorem inv_place : s.place.Inv := by
  unfold State.place
  extract_lets s0 s1
  have h0 : s0.Inv := State.inv_ite hs (State.inv_of_bytes hs (State.bytes_poolWaiting ..))
  exact inv_evalPools (State.inv_foldl (fun _ p h => inv_evalToken p 16 h) _ (inv_evalPools h0 true)) false

theorem inv_endCycle : s.endCycle.Inv := by
  refine inv_place (State.inv_of_bytes hs ?_)
  simp

theorem inv_of_autoStep {t : State} (ht : s.autoStep = .next t) : t.Inv := by
  unfold State.autoStep at ht
  split at ht
  · next u hu =>
    obtain rfl := Host.Outcome.next.inj ht
    rcases Option.or_eq_some_iff.mp hu with h | ⟨-, h⟩
    · exact inv_of_firstDue hs (meanings_candidates s) h
    · exact inv_of_aside hs h
  · split at ht
    · next sid _ =>
      have h := inv_stepCtx hs sid
      rw [ht] at h
      exact h
    · obtain rfl := Host.Outcome.next.inj ht
      exact inv_endCycle hs

theorem inv_moveStep (m : Move) : Out.Inv (s.moveStep m) := by
  cases m with
  | event i =>
    unfold State.moveStep
    dsimp only
    split
    · next t ht => exact State.inv_of_bytes (inv_of_firstDue hs (meanings_clearEvents s) ht) (State.bytes_mk t)
    · exact inv_exec hs i
  | issue sid =>
    unfold State.moveStep
    dsimp only
    split
    · exact inv_stepCtx hs sid
    · exact hs
  | grant p l => exact State.inv_of_bytes hs (State.bytes_setGrants ..)
  | service p off v => exact State.inv_of_bytes hs (State.bytes_serviceWrite ..)
  | infraRecord die n w => exact State.inv_of_bytes hs (State.bytes_readInfra ..)
  | infraPage off => exact State.inv_of_bytes hs (State.bytes_readInfraPage ..)
  | infraClear die n => exact State.inv_of_bytes hs (State.bytes_clearInfra ..)

theorem inv_of_step {t : State} (ht : step s = .next t) : t.Inv := by
  have hp : s.settlePeers.Inv := State.inv_of_bytes hs (State.bytes_settlePeers ..)
  unfold step at ht
  split at ht
  · next m l _ =>
    have hl : State.Inv { s.settlePeers with agenda := l } := State.inv_of_bytes hp (State.bytes_mk _)
    generalize ({ s.settlePeers with agenda := l } : State) = u at hl ht
    have h := inv_moveStep hl m
    rw [ht] at h
    exact h
  · exact inv_of_autoStep hp ht

end

/-- Settles O31: no unit but the ones that write through a memory's own write touches bytes, and a write keeps the canonical form. -/
theorem stepsKeepMemoriesCanonical : Obligations.StepsKeepMemoriesCanonical := fun _ _ hs ht => inv_of_step hs ht

/-- Settles O30: at reset every memory lists nothing. -/
theorem memoriesCanonicalAtReset : Obligations.MemoriesCanonicalAtReset := ⟨rfl, rfl, fun _ => rfl⟩
end Sys2Proof.Machine
end


section
/-!
PROOFS. Every meaning and every step answers a next state (O28); what the reset leaves (O29).
-/

namespace Sys2Proof.Machine

/-- A meaning answers a next state. -/
def Out.Answers (o : Out) : Prop := ∃ t, o = .next t

theorem Out.answers_of_keeps {s : State} {o : Out} (h : Out.Keeps s o) : o.Answers := by
  cases o with
  | next t => exact ⟨t, rfl⟩
  | _ => exact h.elim


theorem answers_execVectorSlotGrant (cl : Nat) (s : State) : Out.Answers (execVectorSlotGrant cl s) := by
  unfold execVectorSlotGrant
  repeat' split
  all_goals exact ⟨_, rfl⟩

theorem answers_execScalarSlotGrant (cl : Nat) (s : State) : Out.Answers (execScalarSlotGrant cl s) := by
  unfold execScalarSlotGrant
  split <;> exact ⟨_, rfl⟩

theorem answers_execEngineSlotGrant (cl : Nat) (s : State) : Out.Answers (execEngineSlotGrant cl s) := by
  unfold execEngineSlotGrant
  dsimp only
  repeat' split
  all_goals exact ⟨_, rfl⟩

theorem answers_execMatrixGrant (cl : Nat) (s : State) : Out.Answers (execMatrixGrant cl s) := by
  unfold execMatrixGrant
  dsimp only
  repeat' split
  all_goals exact ⟨_, rfl⟩

theorem answers_execSelfTestProduct (cl : Nat) (mismatch : Bool) (fails : BitVec 8) (s : State) : Out.Answers (execSelfTestProduct cl mismatch fails s) := by
  unfold execSelfTestProduct
  repeat' split
  all_goals exact ⟨_, rfl⟩

theorem answers_execGlobalLoadReturn (sid : Nat) (s : State) : Out.Answers (execGlobalLoadReturn sid s) := by
  unfold execGlobalLoadReturn
  split <;> exact ⟨_, rfl⟩

theorem answers_execSliceRequestAccept (id : Nat) (s : State) : Out.Answers (execSliceRequestAccept id s) := by
  unfold execSliceRequestAccept
  repeat' split
  all_goals exact ⟨_, rfl⟩

theorem answers_execHostWindowWriteAck (id : Nat) (s : State) : Out.Answers (execHostWindowWriteAck id s) := by
  unfold execHostWindowWriteAck
  repeat' split
  all_goals exact ⟨_, rfl⟩

theorem answers_execEngineCompletionEntry (ci xid : Nat) (s : State) : Out.Answers (execEngineCompletionEntry ci xid s) := by
  unfold execEngineCompletionEntry
  dsimp only
  repeat' split
  all_goals exact ⟨_, rfl⟩

theorem answers_execXcopyRow (ci xid : Nat) (s : State) : Out.Answers (execXcopyRow ci xid s) := by
  unfold execXcopyRow
  repeat' split
  all_goals exact ⟨_, rfl⟩

theorem answers_execLoaderTileSend (n : Nat) (s : State) : Out.Answers (execLoaderTileSend n s) := by
  unfold execLoaderTileSend
  dsimp only
  repeat' split
  all_goals exact ⟨_, rfl⟩

theorem answers_execStorerTakeTile (n : Nat) (s : State) : Out.Answers (execStorerTakeTile n s) := by
  unfold execStorerTakeTile
  dsimp only
  repeat' split
  all_goals exact ⟨_, rfl⟩

theorem answers_execCompletionRecordWrite (q : Nat) (s : State) : Out.Answers (execCompletionRecordWrite q s) := by
  unfold execCompletionRecordWrite
  dsimp only
  repeat' split
  all_goals exact ⟨_, rfl⟩

theorem answers_execPreempt (q n : Nat) (s : State) : Out.Answers (execPreempt q n s) := by
  unfold execPreempt
  dsimp only
  repeat' split
  all_goals exact ⟨_, rfl⟩

theorem answers_execPartResetComplete (p : Nat) (s : State) : Out.Answers (execPartResetComplete p s) := by
  unfold execPartResetComplete
  repeat' split
  all_goals exact ⟨_, rfl⟩

theorem answers_execEnvelopeArrival (n : Nat) (s : State) : Out.Answers (execEnvelopeArrival n s) := by
  unfold execEnvelopeArrival
  repeat' split
  all_goals exact ⟨_, rfl⟩

theorem answers_execReturnLuggageArrival (n : Nat) (s : State) : Out.Answers (execReturnLuggageArrival n s) := by
  unfold execReturnLuggageArrival
  dsimp only
  repeat' split
  all_goals exact ⟨_, rfl⟩

theorem answers_execContextSave (sid : Nat) (s : State) : Out.Answers (execContextSave sid s) := by
  unfold execContextSave
  repeat' split
  all_goals exact ⟨_, rfl⟩

theorem answers_execContextRestore (n : Nat) (s : State) : Out.Answers (execContextRestore n s) := by
  unfold execContextRestore
  repeat' split
  all_goals exact ⟨_, rfl⟩

theorem answers_execStrikeDetection (cl : Nat) (s : State) : Out.Answers (execStrikeDetection cl s) := ⟨_, rfl⟩

theorem answers_execRollbackRestoreComplete (cl : Nat) (s : State) : Out.Answers (execRollbackRestoreComplete cl s) := by
  unfold execRollbackRestoreComplete
  split <;> exact ⟨_, rfl⟩

theorem answers_execAccountRecordWrite (ci : Nat) (s : State) : Out.Answers (execAccountRecordWrite ci s) := ⟨_, rfl⟩

theorem answers_execStreamRecordArrival (p n : Nat) (s : State) : Out.Answers (execStreamRecordArrival p n s) := by
  unfold execStreamRecordArrival
  dsimp only
  repeat' split
  all_goals exact ⟨_, rfl⟩

theorem answers_execWindowLaunch (p n : Nat) (s : State) : Out.Answers (execWindowLaunch p n s) := by
  unfold execWindowLaunch
  dsimp only
  repeat' split
  all_goals exact ⟨_, rfl⟩

theorem answers_execAmendLaunch (p n w : Nat) (s : State) : Out.Answers (execAmendLaunch p n w s) := by
  unfold execAmendLaunch
  dsimp only
  repeat' split
  all_goals exact ⟨_, rfl⟩

theorem answers_execPublication (p n : Nat) (s : State) : Out.Answers (execPublication p n s) := by
  unfold execPublication
  dsimp only
  repeat' split
  all_goals exact ⟨_, rfl⟩

theorem answers_execLaneFailure (m : Nat) (s : State) : Out.Answers (execLaneFailure m s) := by
  unfold execLaneFailure
  split <;> exact ⟨_, rfl⟩

theorem answers_execRetrainComplete (m : Nat) (ok : Bool) (s : State) : Out.Answers (execRetrainComplete m ok s) := by
  unfold execRetrainComplete
  repeat' split
  all_goals exact ⟨_, rfl⟩

theorem answers_execRemoteRequestArrival (n : Nat) (s : State) : Out.Answers (execRemoteRequestArrival n s) := by
  unfold execRemoteRequestArrival
  dsimp only
  repeat' split
  all_goals exact ⟨_, rfl⟩

theorem answers_execHostWrite (aperture : Bool) (addr : Nat) (data : Word) (s : State) : Out.Answers (execHostWrite aperture addr data s) := by
  unfold execHostWrite
  repeat' split
  all_goals exact ⟨_, rfl⟩

theorem answers_execMonitorVerify (sigOk : Bool) (version : BitVec 32) (s : State) : Out.Answers (execMonitorVerify sigOk version s) := ⟨_, rfl⟩

theorem answers_execHbmTraining (ok : Bool) (s : State) : Out.Answers (execHbmTraining ok s) := ⟨_, rfl⟩

theorem answers_execLinkTraining (dieOk hostOk : Bool) (s : State) : Out.Answers (execLinkTraining dieOk hostOk s) := ⟨_, rfl⟩

theorem answers_execClusterSelfTest (failed : List Nat) (s : State) : Out.Answers (execClusterSelfTest failed s) := by
  unfold execClusterSelfTest
  dsimp only
  repeat' split
  all_goals exact ⟨_, rfl⟩

theorem answers_execServiceFirmwareStart (sigOk : Bool) (version : BitVec 32) (s : State) : Out.Answers (execServiceFirmwareStart sigOk version s) := ⟨_, rfl⟩

theorem answers_execStartFailed (reason : BitVec 16) (s : State) : Out.Answers (execStartFailed reason s) := ⟨_, rfl⟩

theorem answers_execStageTimeout (s : State) : Out.Answers (execStageTimeout s) := ⟨_, rfl⟩

theorem answers_execMonitorImageLoad (sigOk : Bool) (version : BitVec 32) (s : State) : Out.Answers (execMonitorImageLoad sigOk version s) := ⟨_, rfl⟩

theorem answers_execPowerOn (s : State) : Out.Answers (execPowerOn s) := ⟨_, rfl⟩

theorem answers_execHostReset (s : State) : Out.Answers (execHostReset s) := ⟨_, rfl⟩

theorem answers_execMonitorReset (s : State) : Out.Answers (execMonitorReset s) := ⟨_, rfl⟩

theorem answers_execWatchdog (s : State) : Out.Answers (execWatchdog s) := ⟨_, rfl⟩

theorem answers_execThermal (s : State) : Out.Answers (execThermal s) := ⟨_, rfl⟩

theorem answers_execSupply (s : State) : Out.Answers (execSupply s) := ⟨_, rfl⟩

theorem answers_execInfraUncorrected (s : State) : Out.Answers (execInfraUncorrected s) := ⟨_, rfl⟩

theorem answers_exec (i : Instr) (s : State) : Out.Answers (exec i s) :=
  match i with
  | .add .. => Out.answers_of_keeps (keeps_execAdd ..)
  | .sub .. => Out.answers_of_keeps (keeps_execSub ..)
  | .and .. => Out.answers_of_keeps (keeps_execAnd ..)
  | .or .. => Out.answers_of_keeps (keeps_execOr ..)
  | .xor .. => Out.answers_of_keeps (keeps_execXor ..)
  | .andn .. => Out.answers_of_keeps (keeps_execAndn ..)
  | .sll .. => Out.answers_of_keeps (keeps_execSll ..)
  | .srl .. => Out.answers_of_keeps (keeps_execSrl ..)
  | .sra .. => Out.answers_of_keeps (keeps_execSra ..)
  | .rol .. => Out.answers_of_keeps (keeps_execRol ..)
  | .slt .. => Out.answers_of_keeps (keeps_execSlt ..)
  | .sltu .. => Out.answers_of_keeps (keeps_execSltu ..)
  | .min .. => Out.answers_of_keeps (keeps_execMin ..)
  | .max .. => Out.answers_of_keeps (keeps_execMax ..)
  | .minu .. => Out.answers_of_keeps (keeps_execMinu ..)
  | .maxu .. => Out.answers_of_keeps (keeps_execMaxu ..)
  | .mul .. => Out.answers_of_keeps (keeps_execMul ..)
  | .mulh .. => Out.answers_of_keeps (keeps_execMulh ..)
  | .mulhu .. => Out.answers_of_keeps (keeps_execMulhu ..)
  | .div .. => Out.answers_of_keeps (keeps_execDiv ..)
  | .divu .. => Out.answers_of_keeps (keeps_execDivu ..)
  | .rem .. => Out.answers_of_keeps (keeps_execRem ..)
  | .remu .. => Out.answers_of_keeps (keeps_execRemu ..)
  | .clz .. => Out.answers_of_keeps (keeps_execClz ..)
  | .ctz .. => Out.answers_of_keeps (keeps_execCtz ..)
  | .popc .. => Out.answers_of_keeps (keeps_execPopc ..)
  | .bext .. => Out.answers_of_keeps (keeps_execBext ..)
  | .bdep .. => Out.answers_of_keeps (keeps_execBdep ..)
  | .addi .. => Out.answers_of_keeps (keeps_execAddi ..)
  | .andi .. => Out.answers_of_keeps (keeps_execAndi ..)
  | .ori .. => Out.answers_of_keeps (keeps_execOri ..)
  | .xori .. => Out.answers_of_keeps (keeps_execXori ..)
  | .slli .. => Out.answers_of_keeps (keeps_execSlli ..)
  | .srli .. => Out.answers_of_keeps (keeps_execSrli ..)
  | .srai .. => Out.answers_of_keeps (keeps_execSrai ..)
  | .slti .. => Out.answers_of_keeps (keeps_execSlti ..)
  | .sltiu .. => Out.answers_of_keeps (keeps_execSltiu ..)
  | .lui .. => Out.answers_of_keeps (keeps_execLui ..)
  | .auipc .. => Out.answers_of_keeps (keeps_execAuipc ..)
  | .beq .. => Out.answers_of_keeps (keeps_execBeq ..)
  | .bne .. => Out.answers_of_keeps (keeps_execBne ..)
  | .blt .. => Out.answers_of_keeps (keeps_execBlt ..)
  | .bge .. => Out.answers_of_keeps (keeps_execBge ..)
  | .bltu .. => Out.answers_of_keeps (keeps_execBltu ..)
  | .bgeu .. => Out.answers_of_keeps (keeps_execBgeu ..)
  | .jal .. => Out.answers_of_keeps (keeps_execJal ..)
  | .jalr .. => Out.answers_of_keeps (keeps_execJalr ..)
  | .ld .. => Out.answers_of_keeps (keeps_execLd ..)
  | .ldu .. => Out.answers_of_keeps (keeps_execLdu ..)
  | .lda .. => Out.answers_of_keeps (keeps_execLda ..)
  | .st .. => Out.answers_of_keeps (keeps_execSt ..)
  | .stl .. => Out.answers_of_keeps (keeps_execStl ..)
  | .amoAdd .. => Out.answers_of_keeps (keeps_execAmoAdd ..)
  | .amoAnd .. => Out.answers_of_keeps (keeps_execAmoAnd ..)
  | .amoOr .. => Out.answers_of_keeps (keeps_execAmoOr ..)
  | .amoXor .. => Out.answers_of_keeps (keeps_execAmoXor ..)
  | .amoMin .. => Out.answers_of_keeps (keeps_execAmoMin ..)
  | .amoMax .. => Out.answers_of_keeps (keeps_execAmoMax ..)
  | .amoMinu .. => Out.answers_of_keeps (keeps_execAmoMinu ..)
  | .amoMaxu .. => Out.answers_of_keeps (keeps_execAmoMaxu ..)
  | .amoSwap .. => Out.answers_of_keeps (keeps_execAmoSwap ..)
  | .cas .. => Out.answers_of_keeps (keeps_execCas ..)
  | .fence .. => Out.answers_of_keeps (keeps_execFence ..)
  | .wait .. => Out.answers_of_keeps (keeps_execWait ..)
  | .notify .. => Out.answers_of_keeps (keeps_execNotify ..)
  | .mma .. => Out.answers_of_keeps (keeps_execMma ..)
  | .mzero .. => Out.answers_of_keeps (keeps_execMzero ..)
  | .mwait .. => Out.answers_of_keeps (keeps_execMwait ..)
  | .mtest => Out.answers_of_keeps (keeps_execMtest ..)
  | .mlda .. => Out.answers_of_keeps (keeps_execMlda ..)
  | .msta .. => Out.answers_of_keeps (keeps_execMsta ..)
  | .mshape .. => Out.answers_of_keeps (keeps_execMshape ..)
  | .mfmt .. => Out.answers_of_keeps (keeps_execMfmt ..)
  | .msave .. => Out.answers_of_keeps (keeps_execMsave ..)
  | .mrstr .. => Out.answers_of_keeps (keeps_execMrstr ..)
  | .rdef .. => Out.answers_of_keeps (keeps_execRdef ..)
  | .rpop .. => Out.answers_of_keeps (keeps_execRpop ..)
  | .rpush .. => Out.answers_of_keeps (keeps_execRpush ..)
  | .texp .. => Out.answers_of_keeps (keeps_execTexp ..)
  | .ttag .. => Out.answers_of_keeps (keeps_execTtag ..)
  | .twait .. => Out.answers_of_keeps (keeps_execTwait ..)
  | .xcopy .. => Out.answers_of_keeps (keeps_execXcopy ..)
  | .xsub .. => Out.answers_of_keeps (keeps_execXsub ..)
  | .xunsub .. => Out.answers_of_keeps (keeps_execXunsub ..)
  | .xdrain .. => Out.answers_of_keeps (keeps_execXdrain ..)
  | .xstat .. => Out.answers_of_keeps (keeps_execXstat ..)
  | .meet .. => Out.answers_of_keeps (keeps_execMeet ..)
  | .part => Out.answers_of_keeps (keeps_execPart ..)
  | .peer .. => Out.answers_of_keeps (keeps_execPeer ..)
  | .peerv .. => Out.answers_of_keeps (keeps_execPeerv ..)
  | .rollNone .. => Out.answers_of_keeps (keeps_execRollNone ..)
  | .rollAdd .. => Out.answers_of_keeps (keeps_execRollAdd ..)
  | .rollMin .. => Out.answers_of_keeps (keeps_execRollMin ..)
  | .rollMax .. => Out.answers_of_keeps (keeps_execRollMax ..)
  | .rollUmin .. => Out.answers_of_keeps (keeps_execRollUmin ..)
  | .rollUmax .. => Out.answers_of_keeps (keeps_execRollUmax ..)
  | .rollAnd .. => Out.answers_of_keeps (keeps_execRollAnd ..)
  | .rollOr .. => Out.answers_of_keeps (keeps_execRollOr ..)
  | .rollXor .. => Out.answers_of_keeps (keeps_execRollXor ..)
  | .launch .. => Out.answers_of_keeps (keeps_execLaunch ..)
  | .tend => Out.answers_of_keeps (keeps_execTend ..)
  | .yield .. => Out.answers_of_keeps (keeps_execYield ..)
  | .sbind .. => Out.answers_of_keeps (keeps_execSbind ..)
  | .chbind .. => Out.answers_of_keeps (keeps_execChbind ..)
  | .emit .. => Out.answers_of_keeps (keeps_execEmit ..)
  | .wmk .. => Out.answers_of_keeps (keeps_execWmk ..)
  | .publ .. => Out.answers_of_keeps (keeps_execPubl ..)
  | .acct .. => Out.answers_of_keeps (keeps_execAcct ..)
  | .csrr .. => Out.answers_of_keeps (keeps_execCsrr ..)
  | .csrw .. => Out.answers_of_keeps (keeps_execCsrw ..)
  | .csrs .. => Out.answers_of_keeps (keeps_execCsrs ..)
  | .csrc .. => Out.answers_of_keeps (keeps_execCsrc ..)
  | .scall .. => Out.answers_of_keeps (keeps_execScall ..)
  | .tret => Out.answers_of_keeps (keeps_execTret ..)
  | .uiret => Out.answers_of_keeps (keeps_execUiret ..)
  | .sleep .. => Out.answers_of_keeps (keeps_execSleep ..)
  | .brk .. => Out.answers_of_keeps (keeps_execBrk ..)
  | .vadd .. => Out.answers_of_keeps (keeps_execVadd ..)
  | .vaddSat .. => Out.answers_of_keeps (keeps_execVaddSat ..)
  | .vsub .. => Out.answers_of_keeps (keeps_execVsub ..)
  | .vsubSat .. => Out.answers_of_keeps (keeps_execVsubSat ..)
  | .vmul .. => Out.answers_of_keeps (keeps_execVmul ..)
  | .vmulSat .. => Out.answers_of_keeps (keeps_execVmulSat ..)
  | .vfma .. => Out.answers_of_keeps (keeps_execVfma ..)
  | .vfms .. => Out.answers_of_keeps (keeps_execVfms ..)
  | .vmulh .. => Out.answers_of_keeps (keeps_execVmulh ..)
  | .vabs .. => Out.answers_of_keeps (keeps_execVabs ..)
  | .vmin .. => Out.answers_of_keeps (keeps_execVmin ..)
  | .vmax .. => Out.answers_of_keeps (keeps_execVmax ..)
  | .vneg .. => Out.answers_of_keeps (keeps_execVneg ..)
  | .vmov .. => Out.answers_of_keeps (keeps_execVmov ..)
  | .vand .. => Out.answers_of_keeps (keeps_execVand ..)
  | .vor .. => Out.answers_of_keeps (keeps_execVor ..)
  | .vxor .. => Out.answers_of_keeps (keeps_execVxor ..)
  | .vshr .. => Out.answers_of_keeps (keeps_execVshr ..)
  | .vshl .. => Out.answers_of_keeps (keeps_execVshl ..)
  | .vshlSat .. => Out.answers_of_keeps (keeps_execVshlSat ..)
  | .vshra .. => Out.answers_of_keeps (keeps_execVshra ..)
  | .vsel .. => Out.answers_of_keeps (keeps_execVsel ..)
  | .vcmpEq .. => Out.answers_of_keeps (keeps_execVcmpEq ..)
  | .vcmpNe .. => Out.answers_of_keeps (keeps_execVcmpNe ..)
  | .vcmpLt .. => Out.answers_of_keeps (keeps_execVcmpLt ..)
  | .vcmpLe .. => Out.answers_of_keeps (keeps_execVcmpLe ..)
  | .vbcast .. => Out.answers_of_keeps (keeps_execVbcast ..)
  | .vred .. => Out.answers_of_keeps (keeps_execVred ..)
  | .vcvt .. => Out.answers_of_keeps (keeps_execVcvt ..)
  | .vcvtSr .. => Out.answers_of_keeps (keeps_execVcvtSr ..)
  | .vperm .. => Out.answers_of_keeps (keeps_execVperm ..)
  | .vslide .. => Out.answers_of_keeps (keeps_execVslide ..)
  | .vzip .. => Out.answers_of_keeps (keeps_execVzip ..)
  | .vunzip .. => Out.answers_of_keeps (keeps_execVunzip ..)
  | .vdot .. => Out.answers_of_keeps (keeps_execVdot ..)
  | .vplane .. => Out.answers_of_keeps (keeps_execVplane ..)
  | .vqnt .. => Out.answers_of_keeps (keeps_execVqnt ..)
  | .vdqnt .. => Out.answers_of_keeps (keeps_execVdqnt ..)
  | .vrcp .. => Out.answers_of_keeps (keeps_execVrcp ..)
  | .vrsq .. => Out.answers_of_keeps (keeps_execVrsq ..)
  | .vex2 .. => Out.answers_of_keeps (keeps_execVex2 ..)
  | .vlg2 .. => Out.answers_of_keeps (keeps_execVlg2 ..)
  | .vsin .. => Out.answers_of_keeps (keeps_execVsin ..)
  | .vtanh .. => Out.answers_of_keeps (keeps_execVtanh ..)
  | .vld .. => Out.answers_of_keeps (keeps_execVld ..)
  | .vst .. => Out.answers_of_keeps (keeps_execVst ..)
  | .vlds .. => Out.answers_of_keeps (keeps_execVlds ..)
  | .vsts .. => Out.answers_of_keeps (keeps_execVsts ..)
  | .vgthr .. => Out.answers_of_keeps (keeps_execVgthr ..)
  | .vsctr .. => Out.answers_of_keeps (keeps_execVsctr ..)
  | .kand .. => Out.answers_of_keeps (keeps_execKand ..)
  | .kor .. => Out.answers_of_keeps (keeps_execKor ..)
  | .knot .. => Out.answers_of_keeps (keeps_execKnot ..)
  | .kpopc .. => Out.answers_of_keeps (keeps_execKpopc ..)
  | .setfmt .. => Out.answers_of_keeps (keeps_execSetfmt ..)
  | .repf .. => Out.answers_of_keeps (keeps_execRepf ..)
  | .frameReplayPerformance .. => Out.answers_of_keeps (keeps_execFrameReplayPerformance ..)
  | .sequencerBind .. => Out.answers_of_keeps (keeps_execSequencerBind ..)
  | .laneGroupGrant .. => Out.answers_of_keeps (keeps_execLaneGroupGrant ..)
  | .vectorSlotGrant .. => answers_execVectorSlotGrant ..
  | .scalarSlotGrant .. => answers_execScalarSlotGrant ..
  | .engineSlotGrant .. => answers_execEngineSlotGrant ..
  | .matrixGrant .. => answers_execMatrixGrant ..
  | .mmaStep .. => Out.answers_of_keeps (keeps_execMmaStep ..)
  | .portRetire .. => Out.answers_of_keeps (keeps_execPortRetire ..)
  | .selfTestProduct .. => answers_execSelfTestProduct ..
  | .periodicSelfTestDue .. => Out.answers_of_keeps (keeps_execPeriodicSelfTestDue ..)
  | .subarrayRetest .. => Out.answers_of_keeps (keeps_execSubarrayRetest ..)
  | .icacheFill .. => Out.answers_of_keeps (keeps_execIcacheFill ..)
  | .globalLoadReturn .. => answers_execGlobalLoadReturn ..
  | .translationRequest .. => Out.answers_of_keeps (keeps_execTranslationRequest ..)
  | .translationWalkComplete .. => Out.answers_of_keeps (keeps_execTranslationWalkComplete ..)
  | .restanteRelease .. => Out.answers_of_keeps (keeps_execRestanteRelease ..)
  | .releaseTranslationReturn .. => Out.answers_of_keeps (keeps_execReleaseTranslationReturn ..)
  | .sliceRequestAccept .. => answers_execSliceRequestAccept ..
  | .farCopyInvalidation .. => Out.answers_of_keeps (keeps_execFarCopyInvalidation ..)
  | .scMarkerReturn .. => Out.answers_of_keeps (keeps_execScMarkerReturn ..)
  | .atomicAnswerReturn .. => Out.answers_of_keeps (keeps_execAtomicAnswerReturn ..)
  | .storeAcknowledge .. => Out.answers_of_keeps (keeps_execStoreAcknowledge ..)
  | .hostWindowWriteAck .. => answers_execHostWindowWriteAck ..
  | .deferredTrap .. => Out.answers_of_keeps (keeps_execDeferredTrap ..)
  | .userLevelInterrupt .. => Out.answers_of_keeps (keeps_execUserLevelInterrupt ..)
  | .engineCompletionEntry .. => answers_execEngineCompletionEntry ..
  | .xcopyStart .. => Out.answers_of_keeps (keeps_execXcopyStart ..)
  | .xcopyRow .. => answers_execXcopyRow ..
  | .tagCredit .. => Out.answers_of_keeps (keeps_execTagCredit ..)
  | .subscriptionSetup .. => Out.answers_of_keeps (keeps_execSubscriptionSetup ..)
  | .loaderTileSend .. => answers_execLoaderTileSend ..
  | .tileFirstByteArrival .. => Out.answers_of_keeps (keeps_execTileFirstByteArrival ..)
  | .bufferFreeSignal .. => Out.answers_of_keeps (keeps_execBufferFreeSignal ..)
  | .unsubscribeAtLoader .. => Out.answers_of_keeps (keeps_execUnsubscribeAtLoader ..)
  | .drainStart .. => Out.answers_of_keeps (keeps_execDrainStart ..)
  | .storerTakeTile .. => answers_execStorerTakeTile ..
  | .storerTilePerformed .. => Out.answers_of_keeps (keeps_execStorerTilePerformed ..)
  | .streamEngineEntry .. => Out.answers_of_keeps (keeps_execStreamEngineEntry ..)
  | .streamEngineComplete .. => Out.answers_of_keeps (keeps_execStreamEngineComplete ..)
  | .commandFetch .. => Out.answers_of_keeps (keeps_execCommandFetch ..)
  | .completionRecordWrite .. => answers_execCompletionRecordWrite ..
  | .launchCommand .. => Out.answers_of_keeps (keeps_execLaunchCommand ..)
  | .bindStream .. => Out.answers_of_keeps (keeps_execBindStream ..)
  | .sourceMark .. => Out.answers_of_keeps (keeps_execSourceMark ..)
  | .preempt .. => answers_execPreempt ..
  | .resume .. => Out.answers_of_keeps (keeps_execResume ..)
  | .fenceCommand .. => Out.answers_of_keeps (keeps_execFenceCommand ..)
  | .register .. => Out.answers_of_keeps (keeps_execRegister ..)
  | .partCreate .. => Out.answers_of_keeps (keeps_execPartCreate ..)
  | .partDestroy .. => Out.answers_of_keeps (keeps_execPartDestroy ..)
  | .partReset .. => Out.answers_of_keeps (keeps_execPartReset ..)
  | .assign .. => Out.answers_of_keeps (keeps_execAssign ..)
  | .partResetFreeze .. => Out.answers_of_keeps (keeps_execPartResetFreeze ..)
  | .partResetComplete .. => answers_execPartResetComplete ..
  | .negativeAcknowledge .. => Out.answers_of_keeps (keeps_execNegativeAcknowledge ..)
  | .launchDispatch .. => Out.answers_of_keeps (keeps_execLaunchDispatch ..)
  | .launchAging .. => Out.answers_of_keeps (keeps_execLaunchAging ..)
  | .gangPlacement .. => Out.answers_of_keeps (keeps_execGangPlacement ..)
  | .placementToken .. => Out.answers_of_keeps (keeps_execPlacementToken ..)
  | .stealRequest .. => Out.answers_of_keeps (keeps_execStealRequest ..)
  | .stealAnswer .. => Out.answers_of_keeps (keeps_execStealAnswer ..)
  | .stealRetry .. => Out.answers_of_keeps (keeps_execStealRetry ..)
  | .poolPlacement .. => Out.answers_of_keeps (keeps_execPoolPlacement ..)
  | .taskFirstCycle .. => Out.answers_of_keeps (keeps_execTaskFirstCycle ..)
  | .launchCompletion .. => Out.answers_of_keeps (keeps_execLaunchCompletion ..)
  | .meetNoticeArrival .. => Out.answers_of_keeps (keeps_execMeetNoticeArrival ..)
  | .pairRetry .. => Out.answers_of_keeps (keeps_execPairRetry ..)
  | .departureOrder .. => Out.answers_of_keeps (keeps_execDepartureOrder ..)
  | .envelopeArrival .. => answers_execEnvelopeArrival ..
  | .returnLuggageArrival .. => answers_execReturnLuggageArrival ..
  | .meetWithdrawal .. => Out.answers_of_keeps (keeps_execMeetWithdrawal ..)
  | .withdrawalArrival .. => Out.answers_of_keeps (keeps_execWithdrawalArrival ..)
  | .directoryAnswerArrival .. => Out.answers_of_keeps (keeps_execDirectoryAnswerArrival ..)
  | .rollArrival .. => Out.answers_of_keeps (keeps_execRollArrival ..)
  | .rollRelease .. => Out.answers_of_keeps (keeps_execRollRelease ..)
  | .taintHorizon .. => Out.answers_of_keeps (keeps_execTaintHorizon ..)
  | .waitTimeout .. => Out.answers_of_keeps (keeps_execWaitTimeout ..)
  | .twaitTimeout .. => Out.answers_of_keeps (keeps_execTwaitTimeout ..)
  | .sleepTimeout .. => Out.answers_of_keeps (keeps_execSleepTimeout ..)
  | .debugRelease .. => Out.answers_of_keeps (keeps_execDebugRelease ..)
  | .contextSave .. => answers_execContextSave ..
  | .contextRestore .. => answers_execContextRestore ..
  | .checkpoint => Out.answers_of_keeps (keeps_execCheckpoint ..)
  | .undoFree .. => Out.answers_of_keeps (keeps_execUndoFree ..)
  | .strikeDetection .. => answers_execStrikeDetection ..
  | .rollbackRestoreComplete .. => answers_execRollbackRestoreComplete ..
  | .accountRecordWrite .. => answers_execAccountRecordWrite ..
  | .acctRidxRead .. => Out.answers_of_keeps (keeps_execAcctRidxRead ..)
  | .streamRecordArrival .. => answers_execStreamRecordArrival ..
  | .watermarkMark .. => Out.answers_of_keeps (keeps_execWatermarkMark ..)
  | .sourceIdle .. => Out.answers_of_keeps (keeps_execSourceIdle ..)
  | .windowLaunch .. => answers_execWindowLaunch ..
  | .amendLaunch .. => answers_execAmendLaunch ..
  | .recordPortRefill .. => Out.answers_of_keeps (keeps_execRecordPortRefill ..)
  | .publication .. => answers_execPublication ..
  | .flitSend .. => Out.answers_of_keeps (keeps_execFlitSend ..)
  | .flitArrival .. => Out.answers_of_keeps (keeps_execFlitArrival ..)
  | .flitReplay .. => Out.answers_of_keeps (keeps_execFlitReplay ..)
  | .flitAcknowledge .. => Out.answers_of_keeps (keeps_execFlitAcknowledge ..)
  | .laneFailure .. => answers_execLaneFailure ..
  | .retrainComplete .. => answers_execRetrainComplete ..
  | .replayReissue .. => Out.answers_of_keeps (keeps_execReplayReissue ..)
  | .remoteRequestArrival .. => answers_execRemoteRequestArrival ..
  | .remoteResponseArrival .. => Out.answers_of_keeps (keeps_execRemoteResponseArrival ..)
  | .hostWrite .. => answers_execHostWrite ..
  | .hostRead .. => Out.answers_of_keeps (keeps_execHostRead ..)
  | .qpidxWrite .. => Out.answers_of_keeps (keeps_execQpidxWrite ..)
  | .queueEnable .. => Out.answers_of_keeps (keeps_execQueueEnable ..)
  | .cqridxWrite .. => Out.answers_of_keeps (keeps_execCqridxWrite ..)
  | .xlinv .. => Out.answers_of_keeps (keeps_execXlinv ..)
  | .errorRecordClear .. => Out.answers_of_keeps (keeps_execErrorRecordClear ..)
  | .rtctlWrite .. => Out.answers_of_keeps (keeps_execRtctlWrite ..)
  | .clshareWrite .. => Out.answers_of_keeps (keeps_execClshareWrite ..)
  | .featctlGo => Out.answers_of_keeps (keeps_execFeatctlGo ..)
  | .deviceRegisterWrite .. => Out.answers_of_keeps (keeps_execDeviceRegisterWrite ..)
  | .monitorVerify .. => answers_execMonitorVerify ..
  | .hbmTraining .. => answers_execHbmTraining ..
  | .linkTraining .. => answers_execLinkTraining ..
  | .clusterSelfTest .. => answers_execClusterSelfTest ..
  | .serviceFirmwareStart .. => answers_execServiceFirmwareStart ..
  | .startFailed .. => answers_execStartFailed ..
  | .stageTimeout => answers_execStageTimeout ..
  | .monitorImageLoad .. => answers_execMonitorImageLoad ..
  | .attestation .. => Out.answers_of_keeps (keeps_execAttestation ..)
  | .powerOn => answers_execPowerOn ..
  | .hostReset => answers_execHostReset ..
  | .monitorReset => answers_execMonitorReset ..
  | .watchdog => answers_execWatchdog ..
  | .thermal => answers_execThermal ..
  | .supply => answers_execSupply ..
  | .infraUncorrected => answers_execInfraUncorrected ..
  | .illegalInstruction .. => Out.answers_of_keeps (keeps_execIllegalInstruction ..)
  | .fetchFault .. => Out.answers_of_keeps (keeps_execFetchFault ..)
  | .launchIdAnswer .. => Out.answers_of_keeps (keeps_execLaunchIdAnswer ..)
  | .visitorSlotFree .. => Out.answers_of_keeps (keeps_execVisitorSlotFree ..)
  | .responseAcknowledgement .. => Out.answers_of_keeps (keeps_execResponseAcknowledgement ..)
  | .hbmEccError .. => Out.answers_of_keeps (keeps_execHbmEccError ..)
  | .sramEccCorrection .. => Out.answers_of_keeps (keeps_execSramEccCorrection ..)
  | .sliceUncorrectedError .. => Out.answers_of_keeps (keeps_execSliceUncorrectedError ..)

theorem answers_fetchStep (s : State) (sid : Nat) : Out.Answers (s.fetchStep sid) := by
  unfold State.fetchStep
  split
  · split
    · exact answers_exec (.fetchFault _) s
    · exact answers_exec (.icacheFill _) s
  · split
    · exact answers_exec _ _
    · exact answers_exec (.illegalInstruction _) _

theorem answers_freeTurn (s : State) (sid : Nat) : Out.Answers (s.freeTurn sid) := by
  unfold State.freeTurn
  split
  · exact Out.answers_of_keeps (State.keeps_captureStep ..)
  · exact answers_fetchStep _ _

theorem answers_turn (s : State) (sid : Nat) : Out.Answers (s.turn sid) := by
  unfold State.turn
  split
  · exact answers_freeTurn s sid
  · split
    · exact answers_freeTurn s sid
    · split
      · exact answers_freeTurn s sid
      · exact ⟨_, rfl⟩

theorem answers_stepCtx (s : State) (sid : Nat) : Out.Answers (s.stepCtx sid) := by
  obtain ⟨t, ht⟩ := answers_turn s sid
  refine ⟨t.closeTurn sid (s.ctx sid).pc (s.losers sid), ?_⟩
  simp only [State.stepCtx, ht]

theorem answers_autoStep (s : State) : Out.Answers s.autoStep := by
  unfold State.autoStep
  split
  · exact ⟨_, rfl⟩
  · split
    · exact answers_stepCtx _ _
    · exact ⟨_, rfl⟩

theorem answers_moveStep (s : State) (m : Move) : Out.Answers (s.moveStep m) := by
  unfold State.moveStep
  split
  · split
    · exact ⟨_, rfl⟩
    · exact answers_exec _ _
  · split
    · exact answers_stepCtx _ _
    · exact ⟨_, rfl⟩
  all_goals exact ⟨_, rfl⟩

theorem answers_step (s : State) : Out.Answers (step s) := by
  unfold step
  split
  · exact answers_moveStep _ _
  · exact answers_autoStep _

/-- Settles O28: the case split of a meaning ends in a next state in every branch, and the step only runs meanings. -/
theorem everyMeaningAnswersANextState : Obligations.EveryMeaningAnswersANextState := ⟨answers_exec, answers_step⟩

/-- Settles O29: the reset state lists no context, partition or queue, so that each reads as its default. -/
theorem resetValues : Obligations.ResetValues :=
  ⟨rfl, rfl, fun _ => rfl, fun _ => rfl, fun _ => rfl, rfl, rfl, fun _ => ⟨rfl, rfl, rfl, rfl, rfl, rfl, rfl⟩⟩

end Sys2Proof.Machine
end


section
/-!
PROOFS. The scalar forms: the value of each computing form, its issue, and its frame (O1, O2, O3, O5); the step that issues (O23).
-/

namespace Sys2Proof.Machine

/-! The values of the tables of chapter 6 (R100, Tables 06-2 and 06-5). -/

theorem add_eq_wordOfInt (x y : Word) : x + y = wordOfInt (x.toInt + y.toInt) := by
  simp [wordOfInt, BitVec.ofInt_add]

theorem sub_eq_wordOfInt (x y : Word) : x - y = wordOfInt (x.toInt - y.toInt) := by
  apply BitVec.eq_of_toInt_eq
  simp [wordOfInt, BitVec.toInt_ofInt, BitVec.toInt_sub]

theorem mul_eq_wordOfInt (x y : Word) : x * y = wordOfInt (x.toInt * y.toInt) := by
  simp [wordOfInt, BitVec.ofInt_mul]

/-- A natural number as a word. -/
theorem wordOfInt_natCast (n : Nat) : wordOfInt (n : Int) = w64 n := BitVec.ofInt_ofNat ..

theorem shiftLeft_eq_wordOfInt (x : Word) (n : Nat) : x <<< n = wordOfInt (x.toNat * 2 ^ n) := by
  have h : (x.toNat * 2 ^ n : Int) = ((x.toNat * 2 ^ n : Nat) : Int) := by push_cast; rfl
  rw [h, wordOfInt_natCast]
  apply BitVec.eq_of_toNat_eq
  simp [Nat.shiftLeft_eq]

theorem ushiftRight_eq_wordOfInt (x : Word) (n : Nat) : x >>> n = wordOfInt (x.toNat / 2 ^ n) := by
  have h : (x.toNat / 2 ^ n : Int) = ((x.toNat / 2 ^ n : Nat) : Int) := by push_cast; rfl
  rw [h, wordOfInt_natCast]
  apply BitVec.eq_of_toNat_eq
  have hle : x.toNat / 2 ^ n ≤ x.toNat := Nat.div_le_self ..
  rw [BitVec.toNat_ushiftRight, BitVec.toNat_ofNat, Nat.shiftRight_eq_div_pow, Nat.mod_eq_of_lt (by omega)]

theorem sshiftRight_eq_wordOfInt (x : Word) (n : Nat) : x.sshiftRight n = wordOfInt (x.toInt / 2 ^ n) := by
  have h : x.toInt >>> n = x.toInt / 2 ^ n := by rw [Int.shiftRight_eq_div_pow]; push_cast; rfl
  rw [wordOfInt, ← h, BitVec.sshiftRight]

/-- The two parts of a rotation share no bit, so that their union is their sum. -/
theorem rolW_eq_wordOfInt (x y : Word) : rolW x y = wordOfInt (x.toNat * 2 ^ (y.toNat % 64) + x.toNat / 2 ^ (64 - y.toNat % 64)) := by
  have hk : y.toNat % 64 < 64 := Nat.mod_lt _ (by norm_num)
  unfold rolW shamt
  generalize y.toNat % 64 = k at hk ⊢
  have hdisj : x <<< k &&& x >>> (64 - k) = 0#64 := by
    apply BitVec.eq_of_getLsbD_eq
    intro i hi
    simp only [BitVec.getLsbD_and, BitVec.getLsbD_shiftLeft, BitVec.getLsbD_ushiftRight, BitVec.getLsbD_zero]
    by_cases hik : i < k
    · simp [hik]
    · have hx : x.getLsbD (64 - k + i) = false := BitVec.getLsbD_of_ge _ _ (by omega)
      simp [hx]
  have hcast : (x.toNat * 2 ^ k + x.toNat / 2 ^ (64 - k) : Int) = ((x.toNat * 2 ^ k + x.toNat / 2 ^ (64 - k) : Nat) : Int) := by push_cast; rfl
  rw [BitVec.rotateLeft_def, Nat.mod_eq_of_lt hk, ← BitVec.add_eq_or_of_and_eq_zero _ _ hdisj, hcast, wordOfInt_natCast]
  apply BitVec.eq_of_toNat_eq
  simp [Nat.shiftLeft_eq, Nat.shiftRight_eq_div_pow]

theorem boolWord_decide (p : Prop) [Decidable p] : boolWord (decide p) = if p then 1 else 0 := by
  by_cases h : p <;> simp [boolWord, h]

theorem slt_value (x y : Word) : boolWord (x.slt y) = if x.toInt < y.toInt then 1 else 0 := boolWord_decide _

theorem ult_value (x y : Word) : boolWord (x.ult y) = if x.toNat < y.toNat then 1 else 0 := boolWord_decide _

@[simp] theorem wordOfInt_toInt (x : Word) : wordOfInt x.toInt = x := BitVec.ofInt_toInt

@[simp] theorem wordOfInt_toNat (x : Word) : wordOfInt x.toNat = x := by
  rw [wordOfInt_natCast]
  simp

theorem min_value (x y : Word) : (if x.sle y then x else y) = wordOfInt (Min.min x.toInt y.toInt) := by
  by_cases h : x.toInt ≤ y.toInt
  · simp [BitVec.sle, h]
  · simp [BitVec.sle, h, Int.min_eq_right (by omega : y.toInt ≤ x.toInt)]

theorem max_value (x y : Word) : (if y.sle x then x else y) = wordOfInt (Max.max x.toInt y.toInt) := by
  by_cases h : y.toInt ≤ x.toInt
  · simp [BitVec.sle, h]
  · simp [BitVec.sle, h, Int.max_eq_right (by omega : x.toInt ≤ y.toInt)]

theorem minu_value (x y : Word) : (if x.ule y then x else y) = wordOfInt (Min.min x.toNat y.toNat : Nat) := by
  by_cases h : x.toNat ≤ y.toNat
  · simp [BitVec.ule, h]
  · simp only [BitVec.ule, h, decide_false, Bool.false_eq_true, if_false]
    rw [Nat.min_eq_right (by omega), wordOfInt_toNat]

theorem maxu_value (x y : Word) : (if y.ule x then x else y) = wordOfInt (Max.max x.toNat y.toNat : Nat) := by
  by_cases h : y.toNat ≤ x.toNat
  · simp [BitVec.ule, h]
  · simp only [BitVec.ule, h, decide_false, Bool.false_eq_true, if_false]
    rw [Nat.max_eq_right (by omega), wordOfInt_toNat]

theorem mulhuW_eq_wordOfInt (x y : Word) : mulhuW x y = wordOfInt (x.toNat * y.toNat / 2 ^ 64 : Nat) := (wordOfInt_natCast _).symm

theorem divW_eq_wordOfInt (x y : Word) : divW x y = if y = 0 then wordOfInt (-1) else wordOfInt (x.toInt.tdiv y.toInt) := by
  unfold divW
  split
  · rfl
  · apply BitVec.eq_of_toInt_eq
    simp [wordOfInt, BitVec.toInt_sdiv, BitVec.toInt_ofInt]

theorem divuW_eq_wordOfInt (x y : Word) : divuW x y = if y = 0 then wordOfInt (-1) else wordOfInt (x.toNat / y.toNat : Nat) := by
  unfold divuW
  split
  · rfl
  · rw [wordOfInt_natCast]
    apply BitVec.eq_of_toNat_eq
    have hle : x.toNat / y.toNat ≤ x.toNat := Nat.div_le_self ..
    rw [BitVec.udiv_eq, BitVec.toNat_udiv, BitVec.toNat_ofNat, Nat.mod_eq_of_lt (by omega)]

theorem remW_eq_wordOfInt (x y : Word) : remW x y = if y = 0 then x else wordOfInt (x.toInt.tmod y.toInt) := by
  unfold remW
  split
  · rfl
  · rw [← BitVec.toInt_srem, wordOfInt_toInt]

theorem remuW_eq_wordOfInt (x y : Word) : remuW x y = if y = 0 then x else wordOfInt (x.toNat % y.toNat : Nat) := by
  unfold remuW
  split
  · rfl
  · rw [← BitVec.toNat_umod, ← BitVec.umod_eq, wordOfInt_toNat]

/-! The bit counts and the bit gathers: the model's recursions are folds over the places. -/

theorem clzFrom_eq_findIdx (x : Word) (n : Nat) : clzFrom x n = (List.range n).findIdx fun i => x.getLsbD (n - 1 - i) := by
  induction n with
  | zero => rfl
  | succ n ih =>
    rw [List.range_succ_eq_map, List.findIdx_cons, List.findIdx_map, clzFrom, ih]
    have hp : ((fun i => x.getLsbD (n + 1 - 1 - i)) ∘ Nat.succ) = fun i => x.getLsbD (n - 1 - i) := by
      funext i
      simp only [Function.comp, show n + 1 - 1 - i.succ = n - 1 - i by omega]
    rw [hp]
    cases h : x.getLsbD n <;> simp [h, Nat.add_comm]

theorem ctzFrom_eq_findIdx (x : Word) (n : Nat) (hn : n ≤ 64) : ctzFrom x n = (List.range n).findIdx fun i => x.getLsbD (64 - n + i) := by
  induction n with
  | zero => rfl
  | succ n ih =>
    rw [List.range_succ_eq_map, List.findIdx_cons, List.findIdx_map, ctzFrom, ih (by omega)]
    have hp : ((fun i => x.getLsbD (64 - (n + 1) + i)) ∘ Nat.succ) = fun i => x.getLsbD (64 - n + i) := by
      funext i
      simp only [Function.comp, show 64 - (n + 1) + i.succ = 64 - n + i by omega]
    rw [hp, show 64 - (n + 1) + 0 = 63 - n by omega]
    cases h : x.getLsbD (63 - n) <;> simp [Nat.add_comm]

theorem popFrom_eq_length (x : Word) (n : Nat) : popFrom x n = ((List.range n).filter fun i => x.getLsbD i).length := by
  induction n with
  | zero => rfl
  | succ n ih =>
    rw [popFrom, ih, List.range_succ, List.filter_append]
    cases h : x.getLsbD n <;> simp [h]

/-- The places from `64 - n` up at which a mask has a one. -/
def onesFrom (y : Word) (n : Nat) : List Nat := (List.range' (64 - n) n).filter fun i => y.getLsbD i

theorem onesFrom_all (y : Word) : onesFrom y 64 = onesOf y := by
  rw [onesFrom, onesOf, List.range_eq_range']

theorem onesFrom_succ (y : Word) (n : Nat) (hn : n < 64) :
    onesFrom y (n + 1) = if y.getLsbD (63 - n) then (63 - n) :: onesFrom y n else onesFrom y n := by
  rw [onesFrom, show 64 - (n + 1) = 63 - n by omega, List.range'_succ, List.filter_cons, show 63 - n + 1 = 64 - n by omega]
  rfl

theorem bextFrom_eq_sum (x y : Word) (n j : Nat) (hn : n ≤ 64) :
    bextFrom x y n j = (((onesFrom y n).zipIdx j).map fun p => if x.getLsbD p.1 then 2 ^ p.2 else 0).sum := by
  induction n generalizing j with
  | zero => rfl
  | succ n ih =>
    rw [bextFrom, onesFrom_succ y n (by omega)]
    split
    · rw [List.zipIdx_cons, List.map_cons, List.sum_cons, ih _ (by omega)]
    · exact ih _ (by omega)

theorem bdepFrom_eq_sum (x y : Word) (n j : Nat) (hn : n ≤ 64) :
    bdepFrom x y n j = (((onesFrom y n).zipIdx j).map fun p => if x.getLsbD p.2 then 2 ^ p.1 else 0).sum := by
  induction n generalizing j with
  | zero => rfl
  | succ n ih =>
    rw [bdepFrom, onesFrom_succ y n (by omega)]
    split
    · rw [List.zipIdx_cons, List.map_cons, List.sum_cons, ih _ (by omega)]
    · exact ih _ (by omega)

/-! Two writes of one entry are the later one. -/

theorem Tab.erase_insert {α : Type} (t : Tab α) (k : Nat) (v : α) : Tab.erase (Tab.insert t k v) k = Tab.erase t k := by
  induction t with
  | nil => simp [Tab.insert, Tab.erase]
  | cons e t ih =>
    obtain ⟨j, w⟩ := e
    unfold Tab.insert
    split
    · simp [Tab.erase]
    · simp only [Tab.erase, List.filter_cons] at ih ⊢
      rw [ih]

theorem Tab.erase_erase {α : Type} (t : Tab α) (k : Nat) : Tab.erase (Tab.erase t k) k = Tab.erase t k := by
  simp [Tab.erase, List.filter_filter]

theorem Tab.erase_set {α : Type} [DecidableEq α] (d : α) (t : Tab α) (k : Nat) (v : α) : Tab.erase (Tab.set d t k v) k = Tab.erase t k := by
  unfold Tab.set
  split
  · exact Tab.erase_erase t k
  · rw [Tab.erase_insert, Tab.erase_erase]

theorem Tab.set_set {α : Type} [DecidableEq α] (d : α) (t : Tab α) (k : Nat) (v w : α) : Tab.set d (Tab.set d t k v) k w = Tab.set d t k w := by
  rw [Tab.set, Tab.erase_set, Tab.set]

/-- Two changes of a context are one. -/
theorem State.modCtx_modCtx (s : State) (sid : Nat) (f g : Ctx → Ctx) : (s.modCtx sid f).modCtx sid g = s.modCtx sid fun c => g (f c) := by
  have hg : (s.modCtx sid f).ctx sid = f (s.ctx sid) := State.modCtx_self ..
  rw [State.modCtx, hg, State.modCtx, State.modCtx]
  dsimp only
  rw [Tab.set_set]

theorem State.upd_upd (s : State) (f g : Ctx → Ctx) : (s.upd f).upd g = s.upd fun c => g (f c) := State.modCtx_modCtx ..

/-- A change that changes nothing, before a step of the PC. -/
theorem State.upd_id_adv (s : State) : (s.upd fun c => c).adv = s.adv := State.upd_upd s _ _

/-! The meanings of the computing forms. -/

theorem imm13_eq_wordOfInt (i : BitVec 13) : imm13 i = wordOfInt i.toInt := rfl

theorem imm13_toInt (i : BitVec 13) : (imm13 i).toInt = i.toInt := by
  unfold imm13
  exact BitVec.toInt_signExtend_of_le (by norm_num)

theorem one_le_latencyOf (i : Instr) : 1 ≤ latencyOf i := by
  unfold latencyOf
  split <;> norm_num

/-- What a form with two sources does: a function of the tables, through a divider for the divisions. -/
theorem exec_of_twoSource {i : Instr} {d : Dst} {a b : Src} {f : Word → Word → Word} (h : twoSource i = some (d, a, b, f)) (s : State) :
    exec i s = finish s (if latencyOf i = 18 then divide s (wordOf i) d a b f else scalar2 s (wordOf i) (latencyOf i) d a b f) := by
  have one : ∀ (w : Word) (l : Nat) (d : Dst) (a b : Src) {f g : Word → Word → Word}, (∀ x y, f x y = g x y) →
      finish s (scalar2 s w l d a b f) = finish s (scalar2 s w l d a b g) :=
    fun w l d a b f g h => by rw [show f = g from funext₂ h]
  have div : ∀ (w : Word) (d : Dst) (a b : Src) {f g : Word → Word → Word}, (∀ x y, f x y = g x y) →
      finish s (divide s w d a b f) = finish s (divide s w d a b g) :=
    fun w d a b f g h => by rw [show f = g from funext₂ h]
  cases i <;> cases h
  case add => exact one _ 1 _ _ _ add_eq_wordOfInt
  case sub => exact one _ 1 _ _ _ sub_eq_wordOfInt
  case and | or | xor | andn => rfl
  case sll => exact one _ 1 _ _ _ fun x y => shiftLeft_eq_wordOfInt x _
  case srl => exact one _ 1 _ _ _ fun x y => ushiftRight_eq_wordOfInt x _
  case sra => exact one _ 1 _ _ _ fun x y => sshiftRight_eq_wordOfInt x _
  case rol => exact one _ 1 _ _ _ rolW_eq_wordOfInt
  case slt => exact one _ 1 _ _ _ slt_value
  case sltu => exact one _ 1 _ _ _ ult_value
  case min => exact one _ 1 _ _ _ min_value
  case max => exact one _ 1 _ _ _ max_value
  case minu => exact one _ 1 _ _ _ minu_value
  case maxu => exact one _ 1 _ _ _ maxu_value
  case mul => exact one _ 3 _ _ _ mul_eq_wordOfInt
  case mulh => rfl
  case mulhu => exact one _ 3 _ _ _ mulhuW_eq_wordOfInt
  case div => exact div _ _ _ _ divW_eq_wordOfInt
  case divu => exact div _ _ _ _ divuW_eq_wordOfInt
  case rem => exact div _ _ _ _ remW_eq_wordOfInt
  case remu => exact div _ _ _ _ remuW_eq_wordOfInt
  case bext => exact one _ 2 _ _ _ fun x y => by rw [wordOfInt_natCast, bextFrom_eq_sum x y 64 0 le_rfl, onesFrom_all]
  case bdep => exact one _ 2 _ _ _ fun x y => by rw [wordOfInt_natCast, bdepFrom_eq_sum x y 64 0 le_rfl, onesFrom_all]

/-- What a form with one source does. -/
theorem exec_of_oneSource {i : Instr} {d : Dst} {a : Src} {f : Word → Word} (h : oneSource i = some (d, a, f)) (s : State) :
    exec i s = finish s (scalar1 s (wordOf i) 1 d a f) := by
  have one : ∀ (w : Word) (d : Dst) (a : Src) {f g : Word → Word}, (∀ x, f x = g x) → finish s (scalar1 s w 1 d a f) = finish s (scalar1 s w 1 d a g) :=
    fun w d a f g h => by rw [show f = g from funext h]
  cases i <;> cases h
  case clz => exact one _ _ _ fun x => by rw [wordOfInt_natCast, clzFrom_eq_findIdx]
  case ctz => exact one _ _ _ fun x => by rw [wordOfInt_natCast, ctzFrom_eq_findIdx x 64 le_rfl]; simp
  case popc => exact one _ _ _ fun x => by rw [wordOfInt_natCast, popFrom_eq_length]; rfl
  case addi => exact one _ _ _ fun x => by rw [add_eq_wordOfInt, imm13_toInt]
  case andi => exact one _ _ _ fun x => by rw [imm13_eq_wordOfInt]
  case ori => exact one _ _ _ fun x => by rw [imm13_eq_wordOfInt]
  case xori => exact one _ _ _ fun x => by rw [imm13_eq_wordOfInt]
  case slli => exact one _ _ _ fun x => shiftLeft_eq_wordOfInt x _
  case srli => exact one _ _ _ fun x => ushiftRight_eq_wordOfInt x _
  case srai => exact one _ _ _ fun x => sshiftRight_eq_wordOfInt x _
  case slti => exact one _ _ _ fun x => by rw [slt_value, imm13_toInt]
  case sltiu => exact one _ _ _ fun x => by rw [ult_value, imm13_eq_wordOfInt]

/-- Settles O1: the fields hold nothing back, so that the form retires with its value; a division also takes its core's divider. -/
theorem computingFormsGiveTheirValue : Obligations.ComputingFormsGiveTheirValue := by
  refine ⟨?_, ?_, ?_⟩
  · intro i d a b f s x y t h hr hf hd
    have hu : (fun c : Ctx => if latencyOf i ≤ 1 then c else c.freesAt (s.popDescs [a, b]) (s.now + latencyOf i)) =
        fun c => if latencyOf i = 1 then c else c.freesAt (s.popDescs [a, b]) (s.now + latencyOf i) := by
      have hl := one_le_latencyOf i
      funext c
      split <;> split <;> first | rfl | omega
    extract_lets l u
    rw [exec_of_twoSource h]
    split
    · next h18 =>
      have hl : l = 18 := h18
      rw [h18] at hu
      simp only [divide, scalar2, s.fieldStop_none _ _ _ _ _ _ hf hr, hr, State.retire, if_neg (Nat.not_lt.mpr (hd h18)), finish_ok, hu, u, hl, if_true]
    · next h18 =>
      rw [scalar2_ok s _ _ d a b f x y t hr hf, State.retire, finish_ok, hu]
  · intro i d a f s x t h hr hf
    rw [exec_of_oneSource h, scalar1_ok s _ 1 d a f x t hr hf, State.retire, finish_ok]
    simp only [le_refl, if_true, State.upd_id_adv]
  · intro i d a b f s x y t h h18 hr hf hd
    rw [exec_of_twoSource h, if_pos h18]
    simp only [divide, scalar2, s.fieldStop_none _ _ _ _ _ _ hf hr, hr, State.retire, if_pos hd, finish_wait]

/-! The frame of the computing forms: an instruction that issues after a TRET also ends the MPROG of the MRSTR that its context has in the port. -/

/-- A context that has returned from a handler, and whose MRSTR is still in the port. -/
def returnedState : State := { State.reset with
  ctxs := [(0, { mret := true })], cores := [(0, { owner := some 0, port := [State.reset.portEntry (.mrstr 1)] })] }

/-- The port after the next instruction's issue is not what it was: its MRSTR is to restore MPROG with V clear. -/
theorem returnedState_add_port : ∃ t, exec (.add (.x 1) (.x 2) (.x 3)) returnedState = .next t ∧
    (t.core 0).port.map PortEntry.clearV = [true] ∧ (returnedState.core 0).port.map PortEntry.clearV = [false] := by
  refine ⟨_, rfl, ?_, ?_⟩ <;> decide +kernel

/-- Refutes O3: after a TRET, the issue of an addition also marks the context's MRSTR in the port, and the statement lets no core change but for MPROG and
its divider. -/
theorem not_computingFormsChangeOnlyTheirRegister : ¬ Obligations.ComputingFormsChangeOnlyTheirRegister := by
  unfold Obligations.ComputingFormsChangeOnlyTheirRegister
  intro ⟨h, _⟩
  obtain ⟨t, ht, hc, hs⟩ := returnedState_add_port
  obtain ⟨-, -, ⟨-, hcore⟩, -⟩ := h _ 1 2 3 _ returnedState t rfl ht
  have hp : (t.core 0).port = (returnedState.core 0).port := by simpa using congrArg CoreSt.port (hcore 0)
  rw [hp, hs] at hc
  exact absurd hc (by decide)

/-- A source or destination that its channel does not allow traps, whatever the form computes (R81). -/
theorem State.fieldStop_bad {s : State} {w : Word} {d : List Dst} {srcs : List Src} {more : List (Option Cause)}
    (hw : s.me.awaitsFor (srcs.flatMap srcRes) (d.flatMap dstRes) = none)
    (hb : ((srcs.flatMap srcChan).any s.badSrc || (d.flatMap dstChan).any s.badDst) = true) :
    s.fieldStop w d srcs [] more = some (.trap .channelFault w) := by
  simp only [State.fieldStop, List.nil_append, hw, hb, if_true]

/-- Settles O5: the check of the bindings comes before everything but the registers that are awaited. -/
theorem badBindingsTrap : Obligations.BadBindingsTrap := by
  intro i d a b f s h hw hb
  have hw' : s.me.awaitsFor ([a, b].flatMap srcRes) ([d].flatMap dstRes) = none := by
    simpa [Ctx.awaits, Ctx.awaitsFor] using hw
  have hstop : s.fieldStop (wordOf i) [d] [a, b] [] [] = some (.trap .channelFault (wordOf i)) := State.fieldStop_bad hw' (by simpa using hb)
  rw [exec_of_twoSource h]
  split <;> simp only [divide, scalar2, hstop, finish_trap]

/-! The control forms (R101 to R104). -/

/-- A change of the running context depends on what it does to that context alone. -/
theorem State.upd_congr (s : State) {f g : Ctx → Ctx} (h : f s.me = g s.me) : s.upd f = s.upd g := by
  unfold State.upd State.modCtx
  rw [show f (s.ctx s.cur) = g (s.ctx s.cur) from h]

@[simp] theorem Ctx.wx_pause (c : Ctx) (n : BitVec 5) (v : Word) : (c.wx n v).pause = c.pause := by
  unfold Ctx.wx Ctx.wxAt
  split <;> rfl

theorem pcWord_eq_wordOfInt (pc : BitVec 56) : pcWord pc = wordOfInt pc.toNat := by
  rw [wordOfInt_natCast]
  apply BitVec.eq_of_toNat_eq
  simp [pcWord]

theorem pcMoved_eq_add (pc : BitVec 56) (n : Int) : pcMoved pc n = pc + BitVec.ofInt 56 n * 4 := by
  unfold pcMoved
  rw [BitVec.ofInt_add, BitVec.ofInt_mul, BitVec.mul_comm]
  simp

theorem add_signExtend_eq_pcMoved (pc : BitVec 56) {n : Nat} (o : BitVec n) : pc + o.signExtend 56 * 4 = pcMoved pc o.toInt := (pcMoved_eq_add pc _).symm

theorem imm20_eq_wordOfInt (i : BitVec 20) : imm20 i = wordOfInt (i.toInt * 2 ^ 13) := by
  unfold imm20 wordOfInt
  rw [BitVec.ofInt_mul, BitVec.shiftLeft_eq_mul_twoPow]
  rfl

/-- Nothing that keeps a form's registers keeps the form. -/
theorem State.holds_of_regsReady {s : State} {rs wr : List (BitVec 5)} (h : s.regsReady rs wr) : s.holds (rs.map BitVec.toNat) [] (wr.map BitVec.toNat) = none := by
  have hiff : s.me.awaitsFor ((rs ++ wr).map BitVec.toNat) (wr.map BitVec.toNat) = none ↔ s.me.awaitsFor (rs.map BitVec.toNat) (wr.map BitVec.toNat) = none := by
    simp only [Ctx.awaitsFor, Option.map_eq_none_iff, List.find?_eq_none]
    simp
  unfold State.regsReady State.holds at h
  split at h
  · exact absurd h (by simp)
  · next hw =>
    simp only [State.holds, hiff.mp hw]
    exact h

/-- A form on registers that nothing holds back performs its body. -/
theorem State.regs_of_regsReady {s : State} {rs wr : List (BitVec 5)} (h : s.regsReady rs wr) (r : Res) : s.regs rs wr r = r := by
  simp only [State.regs, State.holds_of_regsReady h]

/-- A form that changes only its context, and what the change is for that context. -/
theorem finish_regs_upd {s : State} {rs wr : List (BitVec 5)} (hr : s.regsReady rs wr) (f g : Ctx → Ctx) (h : f s.me = g s.me) :
    finish s (s.regs rs wr (.ok (s.upd f))) = .next ((s.upd g).issued false) := by
  rw [State.regs_of_regsReady hr, finish_ok, s.upd_congr h]

theorem Ctx.next_eq_pcMoved (c : Ctx) : c.next = pcMoved c.pc 1 := pc_next c.pc

/-- What a conditional branch does. -/
theorem branch_eq (s : State) (a b : BitVec 5) (o : BitVec 13) (p : Prop) [Decidable p] (f : Word → Word → Bool) (h : f (s.me.rx a) (s.me.rx b) = decide p)
    (hr : s.regsReady [a, b] []) :
    finish s (branch s a b o f) = .next ((s.upd fun c => { c with
      pc := (branchForm s.me a b o p).next
      pause := if (branchForm s.me a b o p).redirects = 0 then c.pause else some (.redirect, s.now + 1 + (branchForm s.me a b o p).redirects) }).issued false) := by
  have hc : branchCost o (decide p) = (branchForm s.me a b o p).redirects := by
    have hm : o.msb = decide (o.toInt < 0) := BitVec.msb_eq_toInt
    by_cases hp : p <;> simp [branchCost, branchForm, hm, hp]
  have hn : (if decide p then s.me.pc + o.signExtend 56 * 4 else s.me.next) = (branchForm s.me a b o p).next := by
    by_cases hp : p
    · simpa [hp, branchForm] using add_signExtend_eq_pcMoved s.me.pc o
    · simpa [hp, branchForm] using s.me.next_eq_pcMoved
  refine finish_regs_upd hr _ _ ?_
  simp only [h, hc, hn, Ctx.redirect]
  split <;> rfl

/-- A write of a register and of the PC, with or without a redirection. -/
theorem Ctx.wx_redirect_zero (c : Ctx) (d : BitVec 5) (v : Word) (pc : BitVec 56) (now : Nat) :
    { c.wx d v with pc := pc } = { c.wx d v with pc := pc, pause := if 0 = 0 then c.pause else some (.redirect, now + 1 + 0) } := by
  rw [if_pos rfl, ← Ctx.wx_pause c d v]

theorem exec_of_simpleForm {i : Instr} {s : State} {f : Simple} (h : simpleForm s.me i = some f) (hr : s.regsReady f.reads f.dest.toList) :
    exec i s = .next ((s.upd fun c => { (match f.dest with
      | some d => c.wx d f.value
      | none => c) with pc := f.next, pause := if f.redirects = 0 then c.pause else some (.redirect, s.now + 1 + f.redirects) }).issued false) := by
  cases i <;> cases h
  case lui d i =>
    refine finish_regs_upd hr _ _ ?_
    rw [imm20_eq_wordOfInt, Ctx.next_eq_pcMoved]
    exact Ctx.wx_redirect_zero ..
  case auipc d i =>
    refine finish_regs_upd hr _ _ ?_
    have hv : pcWord s.me.pc + imm20 i = wordOfInt (s.me.pc.toNat + i.toInt * 2 ^ 13) := by
      rw [pcWord_eq_wordOfInt, imm20_eq_wordOfInt, wordOfInt, wordOfInt, ← BitVec.ofInt_add]
      rfl
    rw [hv, Ctx.next_eq_pcMoved]
    exact Ctx.wx_redirect_zero ..
  case jal d o =>
    refine finish_regs_upd hr _ _ ?_
    rw [pcWord_eq_wordOfInt, Ctx.next_eq_pcMoved, add_signExtend_eq_pcMoved]
    rfl
  case beq a b o => exact branch_eq s a b o (s.me.rx a = s.me.rx b) _ rfl hr
  case bne a b o => exact branch_eq s a b o (s.me.rx a ≠ s.me.rx b) _ (by simp [bne, decide_not]; rfl) hr
  case blt a b o => exact branch_eq s a b o ((s.me.rx a).toInt < (s.me.rx b).toInt) _ rfl hr
  case bge a b o => exact branch_eq s a b o ((s.me.rx b).toInt ≤ (s.me.rx a).toInt) _ rfl hr
  case bltu a b o => exact branch_eq s a b o ((s.me.rx a).toNat < (s.me.rx b).toNat) _ rfl hr
  case bgeu a b o => exact branch_eq s a b o ((s.me.rx b).toNat ≤ (s.me.rx a).toNat) _ rfl hr

/-- Settles O2: each form's next PC, its link or value, and the cycles that its redirection costs. -/
theorem controlFormsComplete : Obligations.ControlFormsComplete := by
  refine ⟨fun i s f h hr => exec_of_simpleForm h hr, ?_⟩
  intro d a i s hr
  extract_lets t
  have ht : s.me.rx a + imm13 i = t := by rw [add_eq_wordOfInt, imm13_toInt]
  have hb : bitsOf t.toNat 63 56 ≠ 0 ↔ 2 ^ 56 ≤ t.toNat := by
    have := t.isLt
    rw [bitsOf, Nat.shiftRight_eq_div_pow]
    omega
  show finish s (s.regs [a] [d] _) = _
  rw [State.regs_of_regsReady hr, ht]
  split
  · rfl
  · rw [if_congr hb rfl rfl]
    split
    · rfl
    · rw [finish_ok]
      congr 2
      apply State.upd_congr
      rw [pcWord_eq_wordOfInt, Ctx.next_eq_pcMoved]
      rfl

/-! The step that issues. -/

theorem State.fetch_readied (s : State) (sid : Nat) : (s.readied sid).fetch sid = s.fetch sid := by
  have hc : (s.readied sid).ctx sid = { s.ctx sid with charge := .idle } := State.modCtx_self s sid fun c => { c with charge := .idle }
  simp only [State.fetch, hc]
  rfl

/-- A context that nothing keeps, and that captures no frame, executes the word at its PC. -/
theorem State.turn_of_decode {s : State} {sid : Nat} {w : IWord} {i : Instr} (hc : (s.ctx sid).cap = none) (hw : s.turnWait sid = none) (hf : s.fetch sid = some w)
    (hd : decode w = some i) : s.turn sid = exec i ((s.readied sid).touch sid) := by
  simp only [State.turn, hw, State.freeTurn, hc, Option.isSome_none, Bool.false_eq_true, if_false, State.fetchStep, State.fetch_readied, hf, hd]

/-- Settles O23: the step's own case split, from the agenda or the order of the agents down to the fetched word. -/
theorem stepRunsTheDecodedInstruction : Obligations.StepRunsTheDecodedInstruction := by
  intro s0 sid w i
  extract_lets r runs
  have hruns : ∀ s : State, step s0 = s.stepCtx sid → runs s := by
    intro s hs hc hw hf hd
    rw [hs, State.stepCtx, State.turn_of_decode hc hw hf hd]
    generalize exec i _ = o
    cases o <;> rfl
  refine ⟨?_, ?_, ?_⟩
  · intro l ha hm
    refine hruns _ ?_
    simp only [step, show s0.settlePeers.agenda = _ from ha, State.moveStep]
    exact if_pos hm
  · intro ha hdue haside hpick
    refine hruns _ ?_
    simp only [step, show s0.settlePeers.agenda = _ from ha, State.autoStep, show s0.settlePeers.due = _ from hdue, show s0.settlePeers.aside = _ from haside,
      show s0.settlePeers.pick = _ from hpick, Option.or_none, r]
  · intro s x hx
    simp only [State.fetch, hx, Option.map_some]
    rfl

end Sys2Proof.Machine
end


section
/-!
PROOFS. What channels, destinations and the bank unit leave as it was: the facts that the memory forms share.
-/

namespace Sys2Proof.Machine

/-! Channel traffic: entries that a context's instruction pops, and writes that land. -/

/-- Between two states only entries of a context's channels have moved: its queues, its writes under way, its record port, and of the cores the inboxes and
the buffers of stream engines. -/
def State.chans (sid : Nat) (s t : State) : Prop :=
  s.sameOutside t ∧ (∀ j, j ≠ sid → t.ctx j = s.ctx j) ∧ (∃ q r w, t.ctx sid = { s.ctx sid with aq := q, chq := r, win := w }) ∧
    ∀ ci, ∃ g i, t.core ci = { s.core ci with seng := g, inbox := i }

theorem State.chans_refl (sid : Nat) (s : State) : s.chans sid s := ⟨rfl, fun _ _ => rfl, ⟨_, _, _, rfl⟩, fun _ => ⟨_, _, rfl⟩⟩

theorem State.chans_trans {sid : Nat} {s t u : State} (h : s.chans sid t) (g : t.chans sid u) : s.chans sid u := by
  obtain ⟨h1, h2, ⟨q, r, w, h3⟩, h4⟩ := h
  obtain ⟨g1, g2, ⟨q', r', w', g3⟩, g4⟩ := g
  refine ⟨?_, fun j hj => (g2 j hj).trans (h2 j hj), ⟨q', r', w', ?_⟩, fun ci => ?_⟩
  · unfold State.sameOutside at *
    rw [g1, h1]
  · rw [g3, h3]
  · obtain ⟨a, b, h⟩ := h4 ci
    obtain ⟨c, d, g⟩ := g4 ci
    exact ⟨c, d, by rw [g, h]⟩

theorem State.chans_foldl {α : Type} {sid : Nat} {f : State → α → State} (h : ∀ (s : State) a, s.chans sid (f s a)) (l : List α) (s : State) : s.chans sid (l.foldl f s) := by
  induction l generalizing s with
  | nil => exact State.chans_refl sid s
  | cons a l ih => exact State.chans_trans (h s a) (ih (f s a))

/-- A change of a context's channels. -/
theorem State.chans_modCtx (s : State) (sid : Nat) (f : Ctx → Ctx) (h : ∃ q r w, f (s.ctx sid) = { s.ctx sid with aq := q, chq := r, win := w }) :
    s.chans sid (s.modCtx sid f) := by
  obtain ⟨q, r, w, hf⟩ := h
  exact ⟨rfl, fun j hj => State.modCtx_other s sid j f hj, ⟨q, r, w, (State.modCtx_self ..).trans hf⟩, fun _ => ⟨_, _, rfl⟩⟩

/-- A change of a core's inbox and engines. -/
theorem State.chans_modCore (s : State) (sid ci : Nat) (f : CoreSt → CoreSt) (h : ∃ g i, f (s.core ci) = { s.core ci with seng := g, inbox := i }) :
    s.chans sid (s.modCore ci f) := by
  obtain ⟨g, i, hf⟩ := h
  refine ⟨rfl, fun _ _ => rfl, ⟨_, _, _, rfl⟩, fun j => ?_⟩
  rw [State.modCore_core]
  split
  · next hj => exact ⟨g, i, by rw [hf, hj]⟩
  · exact ⟨_, _, rfl⟩

theorem State.chans_popTarget (s : State) (sid n : Nat) (t : Target) : s.chans sid (s.popTarget sid n t) := by
  unfold State.popTarget
  cases t with
  | null => exact State.chans_refl sid s
  | aq i =>
    refine State.chans_modCtx _ _ _ ?_
    exact ⟨_, _, _, rfl⟩
  | inbox =>
    refine State.chans_modCore _ _ _ _ ?_
    exact ⟨_, _, rfl⟩
  | streamIn e =>
    refine State.chans_modCore _ _ _ _ ?_
    exact ⟨_, _, rfl⟩
  | streamOut e => exact State.chans_refl sid s
  | port =>
    refine State.chans_modCtx _ _ _ ?_
    exact ⟨_, _, _, rfl⟩

theorem State.chans_popAll (s : State) (sid : Nat) (l : List Target) : s.chans sid (s.popAll sid l) :=
  State.chans_foldl (fun s t => State.chans_popTarget s sid 1 t) l s

theorem State.chans_pushTarget (s : State) (sid v : Nat) (t : Target) : s.chans sid (s.pushTarget sid v t) := by
  unfold State.pushTarget
  cases t with
  | aq i =>
    refine State.chans_modCtx _ _ _ ?_
    exact ⟨_, _, _, rfl⟩
  | streamOut e =>
    refine State.chans_modCore _ _ _ _ ?_
    exact ⟨_, _, rfl⟩
  | _ => exact State.chans_refl sid s

theorem State.chans_landWrites (s : State) (sid : Nat) : s.chans sid (s.landWrites sid) := by
  unfold State.landWrites
  extract_lets ws
  refine State.chans_trans (State.chans_foldl (fun s _ => State.chans_pushTarget s sid _ _) _ s) (State.chans_modCtx _ _ _ ?_)
  exact ⟨_, _, _, rfl⟩

theorem State.chans_writeChan (s : State) (sid ser at_ : Nat) (n : BitVec 5) (v : Option Nat) : s.chans sid (s.writeChan sid ser at_ n v) := by
  refine State.chans_trans (State.chans_modCtx _ _ _ ?_) (State.chans_landWrites ..)
  exact ⟨_, _, _, rfl⟩

theorem State.chans_fillChan (s : State) (sid ser at_ v : Nat) (mem : Bool) : s.chans sid (s.fillChan sid ser at_ v mem) := by
  refine State.chans_trans (State.chans_modCtx _ _ _ ?_) (State.chans_landWrites ..)
  exact ⟨_, _, _, rfl⟩

section
variable {sid : Nat} {s t : State} (h : s.chans sid t)
include h

theorem State.chans.eq : t = { s with ctxs := t.ctxs, cores := t.cores } := h.1
theorem State.chans.cur : t.cur = s.cur := by rw [State.chans.eq h]
theorem State.chans.now : t.now = s.now := by rw [State.chans.eq h]
theorem State.chans.reqs : t.reqs = s.reqs := by rw [State.chans.eq h]
theorem State.chans.nextId : t.nextId = s.nextId := by rw [State.chans.eq h]
theorem State.chans.clu (cl : Nat) : t.clu cl = s.clu cl := by rw [State.chans.eq h]; rfl
theorem State.chans.bytes : t.bytes = s.bytes := by rw [State.chans.eq h]; rfl
theorem State.chans.other {j : Nat} (hj : j ≠ sid) : t.ctx j = s.ctx j := h.2.1 j hj
theorem State.chans.ctx : ∃ q r w, t.ctx sid = { s.ctx sid with aq := q, chq := r, win := w } := h.2.2.1

end

/-! Waits. -/

/-- The first cause of a list is none where each is. -/
theorem firstCause_eq_none {l : List (Option Cause)} : firstCause l = none ↔ ∀ o ∈ l, o = none := by
  induction l with
  | nil => simp [firstCause]
  | cons o l ih =>
    cases o with
    | none => simpa [firstCause] using ih
    | some k =>
      simp only [List.mem_cons, forall_eq_or_imp, reduceCtorEq, false_and, iff_false]
      unfold firstCause
      split
      · split <;> simp
      · simp

theorem firstCause_cons_none {l : List (Option Cause)} : firstCause (none :: l) = firstCause l := rfl

/-- A form whose fields may be used, and that nothing else of it stops, is not stopped. -/
theorem State.fieldStop_ready {s : State} {w : Word} {d : List Dst} {srcs : List Src} {rs : List Nat} {more : List (Option Cause)} (h : s.fieldsReady d srcs rs)
    (hr : (s.readSrcs [] srcs).isSome = true) (hm : firstCause more = none) : s.fieldStop w d srcs rs more = none := by
  obtain ⟨h1, h2, h3, h4⟩ := h
  have h5 : s.me.awaitsFor (rs ++ srcs.flatMap srcRes) (d.flatMap dstRes) = none := by simpa [Ctx.awaits, Ctx.awaitsFor] using h1
  have h6 : (s.readSrcs [] srcs).isNone = false := by simpa using hr
  simp only [State.fieldStop, h5, h2, h3, h6, h4, firstCause_cons_none, hm, Bool.false_eq_true, if_false, Option.map_none]

/-- A memory form on registers that nothing holds back performs its body (R94, R119, R160). -/
theorem State.memForm_of_memFree {s : State} {rs wr : List (BitVec 5)} {more : List (Option Cause)} (h : s.memFree rs wr) (hm : firstCause more = none) (r : Res) :
    s.memForm rs wr more r = r := by
  have hh := State.holds_of_regsReady h.1
  unfold State.holds at hh
  split at hh
  · exact absurd hh (by simp)
  · next hw => simp only [State.memForm, hw, hh, h.2, firstCause_cons_none, hm]

/-- What the bank unit has an access wait for, where it may go there (R116, R185). -/
theorem State.bankStops_of_bankReady {s : State} {a : BankAccess} (h : s.bankReady a) : firstCause (s.bankStops a) = none := by
  obtain ⟨hp, hs⟩ := h
  rw [firstCause_eq_none]
  intro o ho
  simp only [State.bankStops, List.mem_cons, List.not_mem_nil, or_false] at ho
  rcases ho with rfl | rfl | rfl
  · by_cases hst : a.op.isStore = true
    · simp [Nat.not_le.mpr (hs hst).1]
    · simp [hst]
  · simp [hp]
  · by_cases hst : a.op.isStore = true
    · simp [(hs hst).2]
    · simp [hst]

/-! Addresses. -/

theorem lsAddress_eq (c : Ctx) (a : BitVec 5) (w : BitVec 2) (o : BitVec 9) : lsAddress c a w o = wordOfInt ((c.rx a).toInt + o.toInt * 2 ^ w.toNat) := by
  have h : w64 (2 ^ w.toNat) = BitVec.ofInt 64 (2 ^ w.toNat : Int) := by
    rw [← wordOfInt_natCast, wordOfInt]
    push_cast
    rfl
  rw [lsAddress, widthBytes, h, wordOfInt, BitVec.ofInt_add, BitVec.ofInt_mul, BitVec.ofInt_toInt]
  rfl

/-- What a load does, once its fields hold nothing back. -/
theorem exec_of_loadOf {i : Instr} {d : Dst} {a : BitVec 5} {n : Nat} {o : Int} {sg : Bool} {s : State} (h : loadOf i = some (d, a, n, o, sg))
    (hf : s.fieldsReady [d] [] [a.toNat]) (hm : s.memHolds = none) (hs : firstCause (s.loadStops (wordOfInt ((s.me.rx a).toInt + o)) n) = none) :
    exec i s = finish s (s.loadAt d (wordOfInt ((s.me.rx a).toInt + o)) n sg (isAcquire i)) := by
  have key : ∀ (i : Instr) (w : BitVec 2) (o' : BitVec 9) (acq : Bool), n = 2 ^ w.toNat → o = o'.toInt * 2 ^ w.toNat →
      s.loadForm i d a w o' sg acq = s.loadAt d (wordOfInt ((s.me.rx a).toInt + o)) n sg acq := by
    rintro i w o' acq rfl rfl
    rw [State.loadForm, lsAddress_eq]
    rw [widthBytes, State.fieldStop_ready hf rfl (by rw [hm, firstCause_cons_none]; exact hs)]
  cases i <;> cases h
  case ld => exact congrArg (finish s) (key _ _ _ _ rfl rfl)
  case ldu => exact congrArg (finish s) (key _ _ _ _ rfl rfl)
  case lda => exact congrArg (finish s) (key _ _ _ _ rfl rfl)

/-- What a store does, once its fields hold nothing back. -/
theorem exec_of_storeOf {i : Instr} {d : Src} {a : BitVec 5} {n : Nat} {o : Int} {rel : Bool} {s : State} {v : Word} {tk : List Target}
    (h : storeOf i = some (d, a, n, o, rel)) (hf : s.fieldsReady [] [d] [a.toNat]) (hm : s.memHolds = none) (hr : s.readSrcs [] [d] = some ([v], tk))
    (hs : firstCause (s.storeStops (wordOfInt ((s.me.rx a).toInt + o)) n rel) = none) :
    exec i s = finish s (s.storeAt v tk (wordOfInt ((s.me.rx a).toInt + o)) n rel) := by
  have hsrc : s.readSrc [] d = some (v, tk) := by
    simp only [State.readSrcs] at hr
    cases hd : s.readSrc [] d with
    | none => simp [hd] at hr
    | some p => obtain ⟨u, t⟩ := p; simp [hd] at hr; simp [hr]
  have key : ∀ (i : Instr) (w : BitVec 2) (o' : BitVec 9), n = 2 ^ w.toNat → o = o'.toInt * 2 ^ w.toNat →
      s.storeForm i d a w o' rel = s.storeAt v tk (wordOfInt ((s.me.rx a).toInt + o)) n rel := by
    rintro i w o' rfl rfl
    rw [State.storeForm, lsAddress_eq]
    rw [widthBytes, State.fieldStop_ready hf (by rw [hr]; rfl) (by rw [hm, firstCause_cons_none]; exact hs), hsrc]
  cases i <;> cases h
  case st => exact congrArg (finish s) (key _ _ _ rfl rfl)
  case stl => exact congrArg (finish s) (key _ _ _ rfl rfl)

/-- A store on registers reads its data register. -/
theorem State.fieldsReady_of_memFree {s : State} {a d : BitVec 5} (h : s.memFree [a, d] []) : s.fieldsReady [] [.x d] [a.toNat] := by
  have hh : s.holds ([a, d].map BitVec.toNat) [] (([] : List (BitVec 5)).map BitVec.toNat) = none := State.holds_of_regsReady h.1
  unfold State.holds at hh
  split at hh
  · exact absurd hh (by simp)
  · next hw => exact ⟨by simpa [Ctx.awaits, srcRes] using hw, rfl, rfl, by simpa [srcChan] using hh⟩

/-! An instruction whose result is awaited. -/

theorem State.completes_issued {s u : State} {pc : BitVec 56} (p : Bool) (hcur : u.cur = s.cur) (hnow : u.now = s.now) (hpc : u.me.pc = pc) (hact : u.me.act = s.me.act) :
    s.completes (u.issued p) pc := by
  refine ⟨by simpa using hcur, ?_, ?_, ?_, ?_⟩ <;> simp [State.issued_me, hpc, hact, hnow]

@[simp] theorem State.pushTarget_chq (s : State) (sid v : Nat) (t : Target) : ((s.pushTarget sid v t).ctx sid).chq = (s.ctx sid).chq := by
  unfold State.pushTarget
  split
  · simp
  · rfl
  · rfl

/-- The writes that have landed leave the head of the list. -/
theorem State.landWrites_chq (s : State) (sid : Nat) :
    ((s.landWrites sid).ctx sid).chq = (s.ctx sid).chq.drop ((s.ctx sid).chq.takeWhile fun w => w.ripe s.now).length := by
  have hfold : ∀ (l : List ChanWrite) (s : State), ((l.foldl (fun s w => s.pushTarget sid (w.value.getD 0) (targetOf w.desc)) s).ctx sid).chq = (s.ctx sid).chq := by
    intro l
    induction l with
    | nil => exact fun _ => rfl
    | cons w l ih => exact fun s => (ih _).trans (State.pushTarget_chq ..)
  unfold State.landWrites
  extract_lets ws
  rw [State.modCtx_self]
  exact congrArg (List.drop ws.length) (hfold ws s)

/-- A write that has no value yet stays last. -/
theorem State.landWrites_getLast {s : State} {sid : Nat} {w : ChanWrite} (hw : w.value = none) {l : List ChanWrite} (hl : (s.ctx sid).chq = l ++ [w]) :
    ((s.landWrites sid).ctx sid).chq.getLast? = some w := by
  have hle : ∀ l : List ChanWrite, ((l ++ [w]).takeWhile fun w => w.ripe s.now).length ≤ l.length := by
    intro l
    induction l with
    | nil => simp [ChanWrite.ripe, hw]
    | cons a l ih =>
      rw [List.cons_append, List.takeWhile_cons]
      split
      · simpa using ih
      · simp
  rw [State.landWrites_chq, hl, List.drop_append_of_le_length (hle l), List.getLast?_concat]

/-- What the wait for a destination changes of the running context, and what it awaits. -/
theorem State.awaitDst_me (s : State) (d : Dst) (k : Cause) :
    (∃ b q r w, (s.awaitDst d k).me = { s.me with busy := b, aq := q, chq := r, win := w }) ∧ s.awaitsDst (s.awaitDst d k) d k := by
  cases d with
  | x n =>
    have hme : (s.awaitDst (.x n) k).me = { s.me with busy := s.me.busy ++ [(n.toNat, k)] } := State.upd_me ..
    exact ⟨⟨_, _, _, _, hme⟩, by simp [State.awaitsDst, hme]⟩
  | ch n =>
    obtain ⟨q, r, w, h⟩ := (State.chans_writeChan s s.cur s.me.serial s.now n none).ctx
    have hcur : (s.awaitDst (.ch n) k).cur = s.cur := (State.chans_writeChan s s.cur s.me.serial s.now n none).cur
    have hme : (s.awaitDst (.ch n) k).me = (s.writeChan s.cur s.me.serial s.now n none).ctx s.cur := by rw [State.me, hcur]; rfl
    refine ⟨⟨s.me.busy, q, r, w, hme.trans h⟩, ?_⟩
    show ((s.awaitDst (.ch n) k).me).chq.getLast? = _
    rw [hme, State.writeChan]
    refine State.landWrites_getLast (l := s.me.chq) rfl ?_
    rw [State.modCtx_self]
    rfl

@[simp] theorem State.awaitDst_cur (s : State) (d : Dst) (k : Cause) : (s.awaitDst d k).cur = s.cur := by
  cases d with
  | x n => rfl
  | ch n => exact (State.chans_writeChan ..).cur

@[simp] theorem State.awaitDst_now (s : State) (d : Dst) (k : Cause) : (s.awaitDst d k).now = s.now := by
  cases d with
  | x n => rfl
  | ch n => exact (State.chans_writeChan ..).now

@[simp] theorem State.awaitDst_reqs (s : State) (d : Dst) (k : Cause) : (s.awaitDst d k).reqs = s.reqs := by
  cases d with
  | x n => rfl
  | ch n => exact (State.chans_writeChan ..).reqs

@[simp] theorem State.awaitDst_nextId (s : State) (d : Dst) (k : Cause) : (s.awaitDst d k).nextId = s.nextId := by
  cases d with
  | x n => rfl
  | ch n => exact (State.chans_writeChan ..).nextId

/-- A result stays awaited whatever else changes. -/
theorem State.awaitsDst_congr {s s' t t' : State} {d : Dst} {k : Cause} (h : s'.awaitsDst t' d k) (hb : s'.me.busy = s.me.busy) (hs : s'.me.serial = s.me.serial)
    (hc : s'.me.c = s.me.c) (hn : s'.now = s.now) (hb' : t.me.busy = t'.me.busy) (hq : t.me.chq = t'.me.chq) : s.awaitsDst t d k := by
  cases d with
  | x n =>
    have h' : t'.me.busy = s'.me.busy ++ [(n.toNat, k)] := h
    show t.me.busy = _
    rw [hb', h', hb]
  | ch n =>
    have h' : t'.me.chq.getLast? = some { serial := s'.me.serial, desc := (s'.me.c[n.toNat]'n.isLt).toNat, at_ := s'.now, value := none } := h
    show t.me.chq.getLast? = _
    rw [hq, h']
    simp only [hs, hc, hn]

/-- The running context after a step of the PC and the start of an acquire. -/
theorem State.adv_acquires_me (s : State) (acq : Bool) (k : Cause) :
    (s.adv.acquires acq k).me = { s.me with pc := pcMoved s.me.pc 1, acq := if acq then some k else s.me.acq } := by
  rw [← pc_next]
  cases acq with
  | false => exact State.adv_me s
  | true => simp [State.acquires]

@[simp] theorem State.acquires_cur (s : State) (acq : Bool) (k : Cause) : (s.acquires acq k).cur = s.cur := by cases acq <;> rfl
@[simp] theorem State.acquires_now (s : State) (acq : Bool) (k : Cause) : (s.acquires acq k).now = s.now := by cases acq <;> rfl
@[simp] theorem State.acquires_reqs (s : State) (acq : Bool) (k : Cause) : (s.acquires acq k).reqs = s.reqs := by cases acq <;> rfl
@[simp] theorem State.acquires_nextId (s : State) (acq : Bool) (k : Cause) : (s.acquires acq k).nextId = s.nextId := by cases acq <;> rfl

/-- What an instruction whose result is awaited leaves, after a change `u` of its context's pending accesses alone: it goes on at the next word. -/
theorem State.awaitDst_issued {s u : State} (d : Dst) (k : Cause) (acq : Bool) {pend : List BankAccess} (hu : u.me = { s.me with pend := pend }) (hcur : u.cur = s.cur)
    (hnow : u.now = s.now) (hb : u.bytes = s.bytes) :
    let t := ((u.awaitDst d k).adv.acquires acq k).issued false
    s.completes t (pcMoved s.me.pc 1) ∧ t.me.pend = pend ∧ s.awaitsDst t d k ∧ (acq = true → t.me.acq = some k) ∧ s.sameX t ∧ s.sameBytes t ∧
      s.me.sameSpecial t.me := by
  intro t
  obtain ⟨⟨b, q, r, w, hme⟩, haw⟩ := State.awaitDst_me u d k
  rw [hu] at hme
  have hv : ((u.awaitDst d k).adv.acquires acq k).me =
      { s.me with pend := pend, busy := b, aq := q, chq := r, win := w, pc := pcMoved s.me.pc 1, acq := if acq then some k else s.me.acq } := by
    rw [State.adv_acquires_me, hme]
  have hvn : ((u.awaitDst d k).adv.acquires acq k).now = s.now := by simp [hnow]
  have ht : t.me = { s.me with
      pend := pend, busy := b, aq := q, chq := r, win := w, pc := pcMoved s.me.pc 1, acq := if acq then some k else s.me.acq
      charge := .issue, lastIssue := s.now, mret := false, serial := s.me.serial + 1 } := by
    rw [State.issued_me, hv, hvn]
    rfl
  refine ⟨State.completes_issued _ (by simp [hcur]) hvn (by rw [hv]) (by rw [hv]), by rw [ht], ?_, fun h => ?_, fun m => ?_, State.sameBytes_of_bytes ?_, ?_⟩
  · exact State.awaitsDst_congr haw (by rw [hu]) (by rw [hu]) (by rw [hu]) hnow (by rw [ht, hme]) (by rw [ht, hme])
  · rw [ht, if_pos h]
  · rw [ht]
    rfl
  · simp [t, hb]
  · rw [ht]
    simp [Ctx.sameSpecial]

/-- A load or an atomic that goes to the bank unit: its access is pending there, and its destination awaited. -/
theorem State.bankIssue_issued (s : State) (a : BankAccess) (d : Dst) (acq : Bool) :
    let t := ((s.bankIssue a (some d)).adv.acquires acq .slotWait).issued false
    s.completes t (pcMoved s.me.pc 1) ∧ s.queuesAccess t a ∧ s.awaitsDst t d .slotWait ∧ (acq = true → t.me.acq = some .slotWait) ∧ s.sameX t ∧ s.sameBytes t ∧
      s.me.sameSpecial t.me :=
  State.awaitDst_issued (u := s.upd fun c => { c with pend := c.pend ++ [a] }) d .slotWait acq (State.upd_me ..) rfl rfl rfl

end Sys2Proof.Machine
end


section
/-!
PROOFS. Windows and allocations, and loads of the scratchpad (chapters 1 and 7).
-/

namespace Sys2Proof.Machine

/-! Windows (R16 to R19). -/

/-- The window of an aligned address below 2^56. -/
theorem window_top {a : Word} (h : a.toNat < 2 ^ 56) : bitsOf a.toNat 63 56 = 0 ∧ bitsOf a.toNat 55 48 = a.toNat / 2 ^ 48 := by
  simp only [bitsOf, Nat.shiftRight_eq_div_pow]
  omega

theorem State.window_above (s : State) (sid : Nat) {a : Word} (n : Nat) {k : Nat} (hal : a.toNat % k = 0) (h : 2 ^ 56 ≤ a.toNat) :
    s.window sid a n k = .error .windowFault := by
  have hb : bitsOf a.toNat 63 56 ≠ 0 := by
    have := a.isLt
    simp only [bitsOf, Nat.shiftRight_eq_div_pow]
    omega
  simp only [State.window, hal, ne_eq, not_true_eq_false, if_false, hb, not_false_eq_true, if_true]

theorem State.window_global (s : State) (sid : Nat) {a : Word} (n : Nat) {k : Nat} (hal : a.toNat % k = 0) (h : a.toNat < 0xF0 * 2 ^ 48) :
    s.window sid a n k = .ok (.global a.toNat) := by
  obtain ⟨hb, ht⟩ := window_top (a := a) (by omega)
  have hlt : a.toNat / 2 ^ 48 < 0xF0 := by omega
  simp only [State.window, hal, ne_eq, not_true_eq_false, if_false, hb, ht, hlt, if_true]

theorem State.window_spad (s : State) (sid : Nat) {a : Word} (n : Nat) {k : Nat} (hal : a.toNat % k = 0) (hw : a.toNat / 2 ^ 48 = 0xF0) :
    s.window sid a n k = if Config.spadBytes < a.toNat % 2 ^ 48 + n then .error .windowFault
      else if s.privHit sid (a.toNat % 2 ^ 48) n then .error .privViolation else .ok (.bank (slotCluster sid) (a.toNat % 2 ^ 48)) := by
  simp [State.window, hal, bitsOf_aboveWindow a hw (by norm_num), bitsOf_window a hw (by norm_num)]

theorem State.window_tag (s : State) (sid : Nat) {a : Word} (n : Nat) {k : Nat} (hal : a.toNat % k = 0) (hw : a.toNat / 2 ^ 48 = 0xF4) :
    s.window sid a n k = if 0x8000 < a.toNat % 2 ^ 48 + n then .error .windowFault else .ok (.tag (a.toNat % 2 ^ 48)) := by
  simp [State.window, hal, bitsOf_aboveWindow a hw (by norm_num), bitsOf_window a hw (by norm_num)]

theorem State.window_device (s : State) (sid : Nat) {a : Word} (n : Nat) {k : Nat} (hal : a.toNat % k = 0) (hw : a.toNat / 2 ^ 48 = 0xFE) :
    s.window sid a n k = .ok (.device (a.toNat % 2 ^ 48)) := by
  simp [State.window, hal, bitsOf_aboveWindow a hw (by norm_num), bitsOf_window a hw (by norm_num)]

/-- The numbers at which no window stands. -/
theorem State.window_reserved (s : State) (sid : Nat) {a : Word} (n : Nat) {k : Nat} (hal : a.toNat % k = 0)
    (hw : a.toNat / 2 ^ 48 = 0xFF ∨ (0xF5 ≤ a.toNat / 2 ^ 48 ∧ a.toNat / 2 ^ 48 ≤ 0xFD)) : s.window sid a n k = .error .windowFault := by
  have hcases : a.toNat / 2 ^ 48 = 0xF5 ∨ a.toNat / 2 ^ 48 = 0xF6 ∨ a.toNat / 2 ^ 48 = 0xF7 ∨ a.toNat / 2 ^ 48 = 0xF8 ∨ a.toNat / 2 ^ 48 = 0xF9 ∨
      a.toNat / 2 ^ 48 = 0xFA ∨ a.toNat / 2 ^ 48 = 0xFB ∨ a.toNat / 2 ^ 48 = 0xFC ∨ a.toNat / 2 ^ 48 = 0xFD ∨ a.toNat / 2 ^ 48 = 0xFF := by omega
  rcases hcases with hw | hw | hw | hw | hw | hw | hw | hw | hw | hw
  all_goals simp [State.window, hal, bitsOf_aboveWindow a hw (by norm_num), bitsOf_window a hw (by norm_num)]

/-- Outside a meeting the two windows of one fault. -/
theorem State.window_meeting (s : State) (sid : Nat) {a : Word} (n : Nat) {k : Nat} (hal : a.toNat % k = 0) (hw : a.toNat / 2 ^ 48 = 0xF2 ∨ a.toNat / 2 ^ 48 = 0xF3)
    (hm : (s.ctx sid).inmeet = false) : s.window sid a n k = .error .windowFault := by
  rcases hw with hw | hw
  all_goals
    simp only [State.window, hal, ne_eq, not_true_eq_false, if_false, bitsOf_aboveWindow a hw (by norm_num), bitsOf_window a hw (by norm_num), hm,
      show ¬ 242 < 0xF0 by norm_num, show ¬ 243 < 0xF0 by norm_num]
    cases (s.ctx sid).meet <;> simp

/-- A reserved allocation that an access overlaps is one of a resident slot's context. -/
theorem State.privHit_iff (s : State) (sid off n : Nat) :
    s.privHit sid off n = true ↔ ∃ l < 8, 10 * slotCluster sid + l ≠ (if isVisitor sid = true then (s.ctx sid).home else sid) ∧
      (s.ctx (10 * slotCluster sid + l)).act ≠ .free ∧ (s.ctx (10 * slotCluster sid + l)).privSize ≠ 0 ∧
      off < (s.ctx (10 * slotCluster sid + l)).privBase.toNat + (s.ctx (10 * slotCluster sid + l)).privSize.toNat ∧
      (s.ctx (10 * slotCluster sid + l)).privBase.toNat < off + n := by
  unfold State.privHit
  extract_lets own
  simp only [clusterSlots, List.any_map, List.any_eq_true, List.mem_range, Function.comp, Bool.and_eq_true, bne_iff_ne, Bool.not_eq_true', isVisitor,
    decide_eq_false_iff_not, decide_eq_true_eq]
  have hz : ∀ b : BitVec 20, b.toNat ≠ 0 ↔ b ≠ 0 := fun b => by simp [← BitVec.toNat_inj]
  constructor
  · rintro ⟨l, hl, ⟨⟨⟨h1, h2⟩, h3⟩, h4⟩, h5, h6⟩
    exact ⟨l, by omega, by simpa [own, isVisitor] using h1, h3, (hz _).mp h4, h5, h6⟩
  · rintro ⟨l, hl, h1, h3, h4, h5, h6⟩
    exact ⟨l, by omega, ⟨⟨⟨by simpa [own, isVisitor] using h1, by omega⟩, h3⟩, (hz _).mpr h4⟩, h5, h6⟩

/-- Settles O14: the windows by their numbers, the reserved allocations by their slots, and an access of a load or store that is refused. -/
theorem windowsAndAllocations : Obligations.WindowsAndAllocations := by
  refine ⟨?_, ?_, State.privHit_iff, ?_, ?_⟩
  · intro s sid a n k hk
    refine ⟨State.window_misaligned s sid a n k, State.window_above s sid n, State.window_global s sid n, ?_, ?_, ?_, ?_, State.window_meeting s sid n⟩
    · intro hal hw h
      rw [State.window_spad s sid n hal hw, if_pos h]
    · exact State.window_tag s sid n
    · exact State.window_device s sid n
    · exact State.window_reserved s sid n
  · intro s sid a n k hk hal hw h
    rw [State.window_spad s sid n hal hw, if_neg (by omega)]
  · intro i d a n o sg s h hf hm hi hw
    have hs : firstCause (s.loadStops (wordOfInt ((s.me.rx a).toInt + o)) n) = none := by
      simp only [State.loadStops, hw, State.stopsAt, firstCause]
    refine ⟨_, ?_, rfl, State.sameBytes_of_bytes (State.bytes_trap ..)⟩
    rw [exec_of_loadOf h hf hm hs, State.loadAt, hw]
    rfl
  · intro i d a n o rel s h hf hi hw
    have hs : firstCause (s.storeStops (wordOfInt ((s.me.rx a).toInt + o)) n rel) = none := by
      simp only [State.storeStops, hw, firstCause]
    refine ⟨_, ?_, rfl, State.sameBytes_of_bytes (State.bytes_trap ..)⟩
    rw [exec_of_storeOf h (State.fieldsReady_of_memFree hf) hf.2 rfl hs, State.storeAt, hw]
    rfl

/-! The scalar slot of the bank unit (R116, R241). -/

/-- Slots at which nothing is pending are passed over. -/
theorem State.scalarGrants_idle {s : State} {l : List Nat} (h : ∀ o ∈ l, (s.ctx o).pend = []) (n : Nat) (used : List Nat) : s.scalarGrants n used l = (s, none) := by
  induction l with
  | nil => cases n <;> rfl
  | cons o l ih =>
    cases n with
    | zero => rfl
    | succ n =>
      rw [State.scalarGrants, h o (by simp)]
      exact ih fun o ho => h o (by simp [ho])

theorem State.scalarGrants_append_idle {s : State} {l : List Nat} (h : ∀ o ∈ l, (s.ctx o).pend = []) (m : List Nat) (n : Nat) (used : List Nat) :
    s.scalarGrants (n + 1) used (l ++ m) = s.scalarGrants (n + 1) used m := by
  induction l with
  | nil => rfl
  | cons o l ih =>
    rw [List.cons_append, State.scalarGrants, h o (by simp)]
    exact ih fun o ho => h o (by simp [ho])

theorem mem_fromPointer {cl p o : Nat} : o ∈ fromPointer cl p ↔ o / 10 = cl := by
  simp only [fromPointer, List.mem_map, List.mem_range]
  constructor
  · rintro ⟨l, -, rfl⟩
    omega
  · intro h
    exact ⟨(o % 10 + (10 - p % 10)) % 10, by omega, by omega⟩

theorem nodup_fromPointer (cl p : Nat) : (fromPointer cl p).Nodup := by
  refine List.Nodup.map_on (fun a ha b hb h => ?_) List.nodup_range
  rw [List.mem_range] at ha hb
  omega

/-- The slot with one access pending serves it, when the service leaves nothing pending at the cluster's other slots. -/
theorem State.exec_scalarSlotGrant {s : State} {cl sid : Nat} {a : BankAccess} {l : List BankAccess} (h : s.servesAlone cl sid a l)
    (hother : ∀ o, o / 10 = cl → o ≠ sid → ((s.grantAccess sid a).ctx o).pend = []) :
    exec (.scalarSlotGrant cl) s = .next ((s.grantAccess sid a).modClu cl fun c => { c with sptr := (slotLocal sid + 1) % 10, slotAt := s.now + 1 }) := by
  obtain ⟨hcl, hdue, hpend, hidle, hblk⟩ := h
  obtain ⟨l1, l2, hl⟩ := List.append_of_mem (mem_fromPointer.mpr hcl : sid ∈ fromPointer cl (s.clu cl).sptr)
  have hnd := nodup_fromPointer cl (s.clu cl).sptr
  have hin : ∀ o, o ∈ l1 ++ sid :: l2 → o / 10 = cl := fun o ho => mem_fromPointer.mp (hl ▸ ho)
  rw [hl] at hnd
  have h1 : ∀ o ∈ l1, (s.ctx o).pend = [] := fun o ho =>
    hidle o (hin o (by simp [ho])) (by rintro rfl; simp [List.nodup_append] at hnd; exact (hnd.2.2 _ ho).1 rfl)
  have h2 : ∀ o ∈ l2, ((s.grantAccess sid a).ctx o).pend = [] := fun o ho =>
    hother o (hin o (by simp [ho])) (by rintro rfl; simp [List.nodup_append] at hnd; exact hnd.2.1.1 ho)
  have hg : s.scalarGrants 4 [] (fromPointer cl (s.clu cl).sptr) = (s.grantAccess sid a, some sid) := by
    rw [hl, State.scalarGrants_append_idle h1]
    rw [State.scalarGrants, hpend]
    simp only [List.contains_nil, List.any_eq_true, Bool.false_eq_true, and_false, exists_false, decide_false, hblk, Bool.or_false, if_false]
    simp [State.scalarGrants_idle h2, hblk]
  show execScalarSlotGrant cl s = _
  rw [execScalarSlotGrant, hdue]
  simp only [hg, Bool.not_true, Bool.false_eq_true, if_false]

/-! Results that reach their context. -/

/-- A result that is usable later reaches its register or its channel entry, and changes nothing else but channels. -/
theorem State.deliverAt_gives {s : State} {at_ : Nat} (h : s.now < at_) (sid ser : Nat) (d : Dst) (v : Word) :
    (s.ctx sid).gives ((s.deliverAt sid ser at_ d v).ctx sid) ser at_ d v := by
  cases d with
  | x n =>
    have hc : (s.deliverAt sid ser at_ (.x n) v).ctx sid = { (s.ctx sid).wxAt ser n v with
        late := (s.ctx sid).late ++ [{ at_ := at_, code := some n.toNat, acq := false, space := [], mem := true }] } := by
      simp only [State.deliverAt, State.modCtx_self, if_neg (Nat.not_le.mpr h)]
    rw [hc]
    exact ⟨fun m => Ctx.wxAt_rx .., fun _ => ⟨{ at_ := at_, code := some n.toNat, acq := false, space := [], mem := true }, by simp, rfl, rfl⟩⟩
  | ch n =>
    obtain ⟨q, r, w, hc⟩ := (State.chans_fillChan s sid ser at_ v.toNat true).ctx
    refine ⟨fun m => by rw [State.deliverAt, hc]; rfl, fun w hw hs => ?_⟩
    rw [State.deliverAt, State.fillChan, State.landWrites_chq, State.modCtx_self] at hw
    obtain ⟨u, -, rfl⟩ := List.mem_map.mp (List.mem_of_mem_drop hw)
    split at hs <;> simp_all

/-- What a result changes of its context: the registers, their history and times, and channels. -/
theorem State.deliverAt_ctx (s : State) (sid ser at_ : Nat) (d : Dst) (v : Word) :
    ∃ x m b l q r w, (s.deliverAt sid ser at_ d v).ctx sid = { s.ctx sid with x := x, meet := m, busy := b, late := l, aq := q, chq := r, win := w } := by
  cases d with
  | x n =>
    simp only [State.deliverAt, State.modCtx_self]
    rw [Ctx.wxAt_frame]
    split <;> exact ⟨_, _, _, _, _, _, _, rfl⟩
  | ch n =>
    obtain ⟨q, r, w, hc⟩ := (State.chans_fillChan s sid ser at_ v.toNat true).ctx
    exact ⟨_, _, _, _, q, r, w, hc⟩

theorem State.deliverAt_other (s : State) (sid ser at_ : Nat) (d : Dst) (v : Word) {j : Nat} (h : j ≠ sid) : (s.deliverAt sid ser at_ d v).ctx j = s.ctx j := by
  cases d with
  | x n => exact State.modCtx_other s sid j _ h
  | ch n => exact (State.chans_fillChan ..).other h

@[simp] theorem State.deliverAt_clu (s : State) (sid ser at_ : Nat) (d : Dst) (v : Word) (cl : Nat) : (s.deliverAt sid ser at_ d v).clu cl = s.clu cl := by
  cases d with
  | x n => rfl
  | ch n => exact (State.chans_fillChan ..).clu cl

@[simp] theorem State.deliverAt_now (s : State) (sid ser at_ : Nat) (d : Dst) (v : Word) : (s.deliverAt sid ser at_ d v).now = s.now := by
  cases d with
  | x n => rfl
  | ch n => exact (State.chans_fillChan ..).now

@[simp] theorem State.deliverAt_cur (s : State) (sid ser at_ : Nat) (d : Dst) (v : Word) : (s.deliverAt sid ser at_ d v).cur = s.cur := by
  cases d with
  | x n => rfl
  | ch n => exact (State.chans_fillChan ..).cur

/-- A result stays what it is while its registers and channels stay, and no time of a register is taken away. -/
theorem Ctx.gives_congr {c c' d d' : Ctx} {ser at_ : Nat} {dst : Dst} {v : Word} (h : c.gives d ser at_ dst v) (hc : ∀ m, c'.rx m = c.rx m) (hx : ∀ m, d'.rx m = d.rx m)
    (hl : ∀ l ∈ d.late, l ∈ d'.late) (hq : d'.chq = d.chq) : c'.gives d' ser at_ dst v := by
  cases dst with
  | x n =>
    obtain ⟨h1, h2⟩ := h
    refine ⟨fun m => ?_, fun hn => ?_⟩
    · rw [hx, hc]
      exact h1 m
    · obtain ⟨l, hl', he⟩ := h2 hn
      exact ⟨l, hl l hl', he⟩
  | ch n =>
    obtain ⟨h1, h2⟩ := h
    refine ⟨fun m => ?_, fun w hw => ?_⟩
    · rw [hx, hc]
      exact h1 m
    · rw [hq] at hw
      exact h2 w hw

/-- The end of an acquire changes the acquire and the times alone. -/
theorem Ctx.acquireEnds_frame (c : Ctx) (now at_ : Nat) : ∃ l a, c.acquireEnds now at_ = { c with late := l, acq := a } ∧ ∀ x ∈ c.late, x ∈ l := by
  unfold Ctx.acquireEnds
  split
  · exact ⟨_, _, rfl, fun _ h => h⟩
  · exact ⟨_, _, rfl, fun _ h => List.mem_append_left _ h⟩

/-- A result that may end an acquire. -/
theorem State.deliverAcquire_gives {s : State} {at_ : Nat} (h : s.now < at_) (sid ser : Nat) (d : Dst) (v : Word) (acq : Bool) (now : Nat) :
    let t := (s.deliverAt sid ser at_ d v).modCtx sid fun c => if acq then c.acquireEnds now at_ else c
    (s.ctx sid).gives (t.ctx sid) ser at_ d v ∧ (t.ctx sid).pend = (s.ctx sid).pend ∧ ∀ j, j ≠ sid → t.ctx j = s.ctx j := by
  intro t
  have hg := State.deliverAt_gives h sid ser d v
  obtain ⟨x, m, b, l, q, r, w, hc⟩ := State.deliverAt_ctx s sid ser at_ d v
  have ht : ∃ l' a, t.ctx sid = { (s.deliverAt sid ser at_ d v).ctx sid with late := l', acq := a } ∧ ∀ x ∈ ((s.deliverAt sid ser at_ d v).ctx sid).late, x ∈ l' := by
    simp only [t, State.modCtx_self]
    split
    · exact Ctx.acquireEnds_frame ..
    · exact ⟨_, _, rfl, fun _ h => h⟩
  obtain ⟨l', a, ht, hl⟩ := ht
  refine ⟨Ctx.gives_congr hg (fun _ => rfl) (fun m => by rw [ht]; rfl) (fun y hy => by rw [ht]; exact hl y hy) (by rw [ht]), by rw [ht, hc], fun j hj => ?_⟩
  exact (State.modCtx_other _ sid j _ hj).trans (State.deliverAt_other s sid ser at_ d v hj)

theorem testBit_top {n v : Nat} (h : v < 2 ^ (8 * n)) : v.testBit (8 * n - 1) = decide (2 ^ (8 * n - 1) ≤ v) := by
  rcases Nat.eq_zero_or_pos n with rfl | hn
  · have hv : v = 0 := by simpa using h
    simp [hv]
  · by_cases hle : 2 ^ (8 * n - 1) ≤ v
    · rw [Nat.testBit_of_two_pow_le_and_two_pow_add_one_gt hle (by rwa [Nat.sub_add_cancel (by omega)])]
      simp [hle]
    · rw [Nat.testBit_lt_two_pow (by omega)]
      simp [hle]

/-- Adding the ones above the bytes is taking one beyond them away, modulo 2^64. -/
theorem extend_negative (n v : Nat) : w64 (v + (2 ^ 64 - 2 ^ (8 * n))) = wordOfInt ((v : Int) - 2 ^ (8 * n)) := by
  rw [← wordOfInt_natCast]
  rcases Nat.lt_or_ge 8 n with hn | hn
  · have hpow : (2 : Int) ^ (8 * n) = 2 ^ 64 * 2 ^ (8 * n - 64) := by rw [← pow_add]; congr 1; omega
    have hle : 2 ^ 64 ≤ 2 ^ (8 * n) := Nat.pow_le_pow_right (by norm_num) (by omega)
    have hz : BitVec.ofInt 64 (-(2 ^ 64 * 2 ^ (8 * n - 64))) = 0#64 := by
      rw [BitVec.ofInt_neg, BitVec.ofInt_mul, show BitVec.ofInt 64 (2 ^ 64) = 0#64 by decide]
      simp
    rw [Nat.sub_eq_zero_of_le hle, hpow, wordOfInt, wordOfInt, Int.sub_eq_add_neg, BitVec.ofInt_add _ (-_), hz]
    simp
  · have hle : 2 ^ (8 * n) ≤ 2 ^ 64 := Nat.pow_le_pow_right (by norm_num) (by omega)
    have hcast : ((v + (2 ^ 64 - 2 ^ (8 * n)) : Nat) : Int) = ((v : Int) - 2 ^ (8 * n)) + 2 ^ 64 := by
      rw [Nat.cast_add, Nat.cast_sub hle]
      push_cast
      ring
    rw [hcast, wordOfInt, wordOfInt, BitVec.ofInt_add, show BitVec.ofInt 64 (2 ^ 64) = 0#64 by decide]
    simp

/-- A number of whole bytes, extended, is what a load gives (R113). -/
theorem extend_eq_loadValue (sg : Bool) (n v : Nat) (h : v < 2 ^ (8 * n)) : extend sg n v = loadValue sg n v := by
  unfold extend loadValue signedBytes
  rw [Nat.mod_eq_of_lt h, testBit_top h]
  cases sg with
  | false => simp [wordOfInt_natCast]
  | true =>
    by_cases hle : 2 ^ (8 * n - 1) ≤ v
    · simp only [hle, decide_true, Bool.and_true, if_true]
      exact extend_negative n v
    · simp [hle, wordOfInt_natCast]

theorem State.spadRead_lt (s : State) (cl off n : Nat) : s.spadRead cl off n < 2 ^ (8 * n) := Memory.readN_lt ..

theorem State.tagRead_lt (s : State) (cl off n : Nat) : s.tagRead cl off n < 2 ^ (8 * n) := Nat.mod_lt _ (by positivity)

/-! The access of an operation, granted. -/

/-- The grant of an access that is no form performs it. -/
theorem State.grantAccess_eq {s : State} {sid : Nat} {a : BankAccess} (h : ∀ i, a.op ≠ .form i) :
    s.grantAccess sid a = (s.modCtx sid fun c => { c with pend := c.pend.drop 1 }).bankPerform sid a := by
  unfold State.grantAccess
  split
  · next i hi => exact absurd hi (h i)
  · rfl

/-- The context of a slot once its oldest access has gone. -/
abbrev State.unqueued (s : State) (sid : Nat) : State := s.modCtx sid fun c => { c with pend := c.pend.drop 1 }

theorem State.bankRead_lt (s : State) (a : BankAccess) : s.bankRead a < 2 ^ (8 * a.size) := by
  unfold State.bankRead
  split
  · exact State.tagRead_lt ..
  · exact State.spadRead_lt ..

/-- Settles O6: the load waits at the bank unit, and the slot that serves it gives the bytes there. -/
theorem loadsReadTheScratchpad : Obligations.LoadsReadTheScratchpad := by
  refine ⟨?_, ?_⟩
  · intro i d a n o sg s cl off h hf hm hw acc hr
    have hs : firstCause (s.loadStops (wordOfInt ((s.me.rx a).toInt + o)) n) = none := by
      simp only [State.loadStops, hw, State.stopsAt, State.accessAt]
      exact State.bankStops_of_bankReady ⟨hr.1, fun h => absurd h (by simp [BankOp.isStore])⟩
    refine ⟨_, ?_, State.bankIssue_issued s acc d (isAcquire i)⟩
    rw [exec_of_loadOf h hf hm hs, State.loadAt, hw]
    rfl
  · intro s cl sid a l d sg acq h hop
    have hnow : (s.unqueued sid).now < (s.unqueued sid).now + bankLatency := by simp [bankLatency]
    obtain ⟨hg, hp, ho⟩ := State.deliverAcquire_gives hnow sid a.serial d (extend sg a.size ((s.unqueued sid).bankRead a)) acq (s.unqueued sid).now
    have hperf : s.grantAccess sid a = ((s.unqueued sid).deliverAt sid a.serial ((s.unqueued sid).now + bankLatency) d (extend sg a.size ((s.unqueued sid).bankRead a))).modCtx sid
        fun c => if acq then c.acquireEnds (s.unqueued sid).now ((s.unqueued sid).now + bankLatency) else c := by
      rw [State.grantAccess_eq (by simp [hop]), State.bankPerform, hop]
    have hother : ∀ o, o ≠ sid → (s.grantAccess sid a).ctx o = s.ctx o := fun o hne => by
      rw [hperf, ho o hne]
      exact State.modCtx_other s sid o _ hne
    obtain ⟨-, -, hpend, hidle, -⟩ := id h
    refine ⟨_, State.exec_scalarSlotGrant h fun o hcl hne => by rw [hother o hne]; exact hidle o hcl hne, ?_, ?_, ?_, ?_⟩
    · show ((s.grantAccess sid a).ctx sid).pend = l
      rw [hperf, hp, State.modCtx_self, hpend]
      rfl
    · exact State.sameBytes_of_bytes (by rw [hperf]; simp)
    · exact fun o hne => hother o hne
    · show (s.ctx sid).gives ((s.grantAccess sid a).ctx sid) _ _ _ _
      rw [hperf, ← extend_eq_loadValue _ _ _ (by split; exact State.tagRead_lt ..; exact State.spadRead_lt ..)]
      refine Ctx.gives_congr hg (fun m => ?_) (fun _ => rfl) (fun _ h => h) rfl
      rw [State.modCtx_self]
      rfl

end Sys2Proof.Machine
end


section
/-!
PROOFS. Loads, stores and atomics of every window, fences, WAIT and NOTIFY (chapter 7).
-/

namespace Sys2Proof.Machine

/-! Requests whose result is awaited. -/

/-- The start of an acquire and the step of the PC do not touch each other. -/
theorem State.acquires_adv (s : State) (acq : Bool) (k : Cause) : (s.acquires acq k).adv = s.adv.acquires acq k := by
  cases acq with
  | false => rfl
  | true =>
    rw [State.acquires, State.acquires, if_pos rfl, if_pos rfl, State.adv, State.adv, State.upd_upd, State.upd_upd]

@[simp] theorem State.issued_nextId (s : State) (p : Bool) : (s.issued p).nextId = s.nextId := by
  unfold State.issued
  extract_lets sid s1
  show s1.nextId = s.nextId
  simp only [s1]
  split <;> rfl

/-- What a form that asks for memory and awaits its answer leaves. -/
theorem State.request_awaitDst_issued (s : State) (kind : ReqKind) (st : ReqStage) (va n pa dt be e : Nat) (d : Dst) (k : Cause) (acq : Bool) :
    let t := ((((s.request kind st va n pa dt be e).awaitDst d k).acquires acq k).adv).issued false
    s.completes t (pcMoved s.me.pc 1) ∧ s.awaitsDst t d k ∧ (acq = true → t.me.acq = some k) ∧ s.sameX t ∧ s.sameBytes t ∧ s.me.sameSpecial t.me ∧
      t.reqs = (s.request kind st va n pa dt be e).reqs ∧ t.nextId = s.nextId + 1 := by
  intro t
  have ht : t = ((((s.request kind st va n pa dt be e).awaitDst d k).adv.acquires acq k)).issued false := congrArg (State.issued · false) (State.acquires_adv ..)
  obtain ⟨h1, -, h2, h3, h4, h5, h6⟩ := State.awaitDst_issued (s := s) (u := s.request kind st va n pa dt be e) d k acq rfl rfl rfl rfl
  rw [ht]
  exact ⟨h1, h2, h3, h4, h5, h6, by simp, by rw [State.issued_nextId, State.acquires_nextId]; exact State.awaitDst_nextId ..⟩

/-- A request that a form appends to those of the package. -/
theorem State.appendsRequest_of_reqs {s t : State} {kind : ReqKind} {st : ReqStage} {va n pa dt be e : Nat} {f : Req → Prop}
    (hr : t.reqs = (s.request kind st va n pa dt be e).reqs) (hn : t.nextId = s.nextId + 1)
    (hf : ∀ r : Req, r.kind = kind → r.stage = st → r.va = va → r.size = n → r.data = dt → r.be = be → r.expect = e → r.serial = s.me.serial → r.pc = s.me.pc → f r) :
    s.appendsRequest t f := ⟨_, hf _ rfl rfl rfl rfl rfl rfl rfl rfl rfl, rfl, rfl, hr, hn⟩

/-! The home slice. -/

/-- A load that is performed keeps its bytes with the request. -/
theorem State.performHome_load {s : State} {r : Req} {d : Dst} {sg acq : Bool} (hk : r.kind = .load d sg acq) (hp : s.poisonIn r.pa r.size = none) (hid : s.req r.id = some r) :
    (s.performHome r).bytes = s.bytes ∧
      (s.performHome r).req r.id = some { r with stage := .performed, data := s.loadBytes r.sid r.serial r.va r.pa r.size } := by
  have hperf : s.performHome r = (if s.fromFarCopy r then s else s.accept r.pa).performed r (s.loadBytes r.sid r.serial r.va r.pa r.size) := by
    unfold State.performHome
    rw [hp, ite_self]
    simp only [State.performAt, Req.isStore, hk, Bool.false_and, Bool.false_eq_true, if_false]
  refine ⟨?_, ?_⟩
  · rw [hperf]
    split <;> simp
  · generalize hu : (if s.fromFarCopy r then s else s.accept r.pa) = u at hperf
    have hreqs : u.reqs = s.reqs := by
      rw [← hu]
      split
      · rfl
      · unfold State.accept
        split <;> rfl
    have hfind : ∀ v, ((s.reqs.map fun q => if q.id = r.id then { q with stage := .performed, data := v } else q).find? fun q => q.id == r.id)
        = some { r with stage := .performed, data := v } := by
      intro v
      rw [List.find?_map]
      have hcomp : ((fun q : Req => q.id == r.id) ∘ fun q => if q.id = r.id then { q with stage := .performed, data := v } else q) = fun q => q.id == r.id := by
        funext q
        simp only [Function.comp]
        split <;> simp_all
      rw [hcomp, show (s.reqs.find? fun q => q.id == r.id) = some r from hid]
      simp
    have hmark : ∀ v, u.performed r v = if u.frozenPart r.part
        then (u.modReq r.id fun q => { q with stage := .performed, data := if r.isStore && !r.isAtomic then q.data else v }).addNacks [.response r.id]
        else u.modReq r.id fun q => { q with stage := .performed, data := if r.isStore && !r.isAtomic then q.data else v } := fun v => by
      unfold State.performed
      rw [hk]
    rw [hperf, hmark]
    have hmod : ∀ t : State, t.reqs = s.reqs.map (fun q => if q.id = r.id then { q with stage := .performed, data := s.loadBytes r.sid r.serial r.va r.pa r.size } else q) →
        t.req r.id = some { r with stage := .performed, data := s.loadBytes r.sid r.serial r.va r.pa r.size } := fun t ht => by
      rw [State.req, ht]
      exact hfind _
    have hst : (r.isStore && !r.isAtomic) = false := by simp [Req.isStore, hk]
    split
    all_goals
      refine hmod _ ?_
      simp only [State.addNacks, State.modReq, hreqs, hst, Bool.false_eq_true, if_false]

/-! Loads of memory and of registers. -/

/-- What a result that may end an acquire leaves of its context. -/
theorem State.deliverAcquire_ctx (s : State) (sid ser at_ : Nat) (d : Dst) (v : Word) (acq : Bool) (now : Nat) :
    ∃ x m b l q r w k, ((s.deliverAt sid ser at_ d v).modCtx sid fun c => if acq then c.acquireEnds now at_ else c).ctx sid =
      { s.ctx sid with x := x, meet := m, busy := b, late := l, aq := q, chq := r, win := w, acq := k } := by
  obtain ⟨x, m, b, l, q, r, w, hc⟩ := State.deliverAt_ctx s sid ser at_ d v
  simp only [State.modCtx_self, hc]
  split
  · obtain ⟨l', k, hk, -⟩ := Ctx.acquireEnds_frame { s.ctx sid with x := x, meet := m, busy := b, late := l, aq := q, chq := r, win := w } now at_
    exact ⟨_, _, _, _, _, _, _, _, hk⟩
  · exact ⟨_, _, _, _, _, _, _, _, rfl⟩

/-- The value of a device register whose answer comes from inside the cluster, awaited and given in one step (R117). -/
theorem State.nearLoad_issued (s : State) (d : Dst) (v : Word) (acq : Bool) {at_ : Nat} (h : s.now < at_) :
    let t := ((((((s.awaitDst d .globalWait).acquires acq .globalWait).deliverAt s.cur s.me.serial at_ d v)).upd fun c =>
      if acq then c.acquireEnds s.now at_ else c).adv).issued false
    s.completes t (pcMoved s.me.pc 1) ∧ s.me.gives t.me s.me.serial at_ d v ∧ s.sameBytes t := by
  dsimp only
  obtain ⟨⟨b, q, r, w, hme⟩, -⟩ := State.awaitDst_me s d .globalWait
  generalize hu : (s.awaitDst d .globalWait).acquires acq .globalWait = u
  have hcur : u.cur = s.cur := by simp [← hu]
  have hnow : u.now = s.now := by simp [← hu]
  have hum : ∃ k, u.ctx s.cur = { s.me with busy := b, aq := q, chq := r, win := w, acq := k } := by
    rw [← hcur, ← hu]
    cases acq with
    | false => exact ⟨_, hme⟩
    | true => exact ⟨_, by rw [← State.me, State.acquires, if_pos rfl, State.upd_me, hme]⟩
  obtain ⟨k, hum⟩ := hum
  rw [State.upd, State.deliverAt_cur, hcur]
  obtain ⟨hg, -, -⟩ := State.deliverAcquire_gives (hnow ▸ h) s.cur s.me.serial d v acq s.now
  obtain ⟨x, m, b', l, q', r', w', k', hc⟩ := State.deliverAcquire_ctx u s.cur s.me.serial at_ d v acq s.now
  generalize hz : ((u.deliverAt s.cur s.me.serial at_ d v).modCtx s.cur fun c => if acq then c.acquireEnds s.now at_ else c) = z at hg hc ⊢
  have hzcur : z.cur = s.cur := by simp [← hz, hcur]
  have hzme : z.me = z.ctx s.cur := by rw [State.me, hzcur]
  have hadv : z.adv.me = { z.ctx s.cur with pc := pcMoved s.me.pc 1 } := by
    rw [State.adv_me, hzme, hc, hum, ← pc_next]
  refine ⟨State.completes_issued _ (by simp [hzcur]) (by simp [← hz, hnow]) (by rw [hadv]) (by rw [hadv, hc, hum]), ?_, State.sameBytes_of_bytes ?_⟩
  · refine Ctx.gives_congr hg (fun n => ?_) (fun n => ?_) (fun y hy => ?_) ?_
    · rw [hum]
      rfl
    · rw [State.issued_me, hadv]
      rfl
    · rw [State.issued_me, hadv]
      exact hy
    · rw [State.issued_me, hadv]
  · simp [← hz, ← hu]


/-- The bytes of a device register, as they are read, fit the access. -/
theorem State.devRead_lt {s : State} {sid off n v : Nat} (h : s.devRead sid off n = some v) : v < 2 ^ (8 * n) := by
  unfold State.devRead at h
  split at h
  · cases h
  · split at h
    · cases h
    · cases h
      exact Nat.mod_lt _ (by positivity)


/-- Settles O7: the request that asks for the bytes, the slice that gives them, and the registers of the device window. -/
theorem loadsReadMemoryAndRegisters : Obligations.LoadsReadMemoryAndRegisters := by
  refine ⟨⟨?_, ?_⟩, ?_⟩
  · intro i d a n o sg s va h hf hm hw hov
    have hs : firstCause (s.loadStops (wordOfInt ((s.me.rx a).toInt + o)) n) = none := by
      simp only [State.loadStops, hw, hov]
      rfl
    obtain ⟨h1, h2, h3, h4, h5, h6, h7, h8⟩ := State.request_awaitDst_issued s (.load d sg (isAcquire i)) .translating va n 0 0 0 0 d .globalWait (isAcquire i)
    refine ⟨_, ?_, h1, h2, h3, h4, h5, h6, State.appendsRequest_of_reqs h7 h8 ?_⟩
    · rw [exec_of_loadOf h hf hm hs, State.loadAt, hw]
      rfl
    · exact fun r hk hst hva hn _ _ _ hser hpc => ⟨hk, hst, hva, hn, hser, hpc⟩
  · intro s id r d sg acq hid hk hst hc ho hh hplace hp
    have hrid : r.id = id := by simpa using List.find?_some hid
    obtain ⟨h1, h2⟩ := State.performHome_load hk hp (hrid ▸ hid)
    refine ⟨_, ?_, State.sameBytes_of_bytes h1, hrid ▸ h2⟩
    show execSliceRequestAccept id s = _
    unfold execSliceRequestAccept
    rw [hid]
    simp only [hst, hc, ho, hk, hh, ne_eq, not_true_eq_false, Bool.false_eq_true, decide_false, Bool.or_self, if_false]
    rcases hplace with hf | ⟨hd, ht⟩
    · rw [if_pos hf]
    · rw [if_pos hd, if_pos ht, ite_self]
  · intro i d a n o sg s off h hf hm
    refine ⟨fun v hw hv => ⟨fun hnear hpend => ?_, fun hnear => ?_⟩, ?_⟩
    · have hs : firstCause (s.loadStops (wordOfInt ((s.me.rx a).toInt + o)) n) = none := by
        simp only [State.loadStops, hw, hpend, Bool.and_false]
        rfl
      have hlt : s.now < s.now + pageLatency := by simp [pageLatency]
      obtain ⟨h1, h2, h3⟩ := State.nearLoad_issued s d (extend sg n v) (isAcquire i) hlt
      refine ⟨_, ?_, h1, extend_eq_loadValue sg n v (State.devRead_lt hv) ▸ h2, h3⟩
      rw [exec_of_loadOf h hf hm hs, State.loadAt, hw]
      simp only [State.loadDevice, hv, hnear, if_true, finish]
    · have hs : firstCause (s.loadStops (wordOfInt ((s.me.rx a).toInt + o)) n) = none := by
        simp only [State.loadStops, hw, hnear, Bool.false_and]
        rfl
      obtain ⟨h1, h2, h3, h4, h5, h6, h7, h8⟩ := State.request_awaitDst_issued s (.devLoad d sg (isAcquire i)) .sent off n 0 0 0 0 d .globalWait (isAcquire i)
      refine ⟨_, ?_, h1, h2, h4, h5, State.appendsRequest_of_reqs h7 h8 ?_⟩
      · rw [exec_of_loadOf h hf hm hs, State.loadAt, hw]
        simp only [State.loadDevice, hv, hnear, Bool.false_eq_true, if_false, finish]
      · exact fun r hk hst hva hn _ _ _ _ _ => ⟨hk, hst, hva, hn⟩
    · intro hw acc hr
      have hs : firstCause (s.loadStops (wordOfInt ((s.me.rx a).toInt + o)) n) = none := by
        simp only [State.loadStops, hw, State.stopsAt, State.accessAt]
        exact State.bankStops_of_bankReady ⟨hr.1, fun h => absurd h (by simp [BankOp.isStore])⟩
      obtain ⟨h1, h2, h3, -, h4, h5, -⟩ := State.bankIssue_issued s acc d (isAcquire i)
      refine ⟨_, ?_, h1, h2, h3, h4, h5⟩
      rw [exec_of_loadOf h hf hm hs, State.loadAt, hw]
      rfl

/-! What the bank unit looks at: the port of the core and its rings, and not the channels. -/

theorem State.portTile_congr {s t : State} {ci : Nat} (h : (t.core ci).rg = (s.core ci).rg) : t.portTile ci = s.portTile ci := by
  funext l r
  simp only [State.portTile, State.ring, h]

theorem State.portTouches_congr {s t : State} {ci : Nat} (h : (t.core ci).rg = (s.core ci).rg) (l : List PortEntry) (p : PortEntry) (off : Nat) :
    t.portTouches ci l p off = s.portTouches ci l p off := by
  unfold State.portTouches
  rw [State.portTile_congr h]

theorem State.portOverlap_go_congr {s t : State} {ci : Nat} (h : (t.core ci).rg = (s.core ci).rg) (sid ser off n : Nat) (port l : List PortEntry) :
    State.portOverlap.go t ci sid ser off n l port = State.portOverlap.go s ci sid ser off n l port := by
  induction port generalizing l with
  | nil => rfl
  | cons p port ih => simp only [State.portOverlap.go, State.portTouches_congr h, ih]

/-- Whether an access waits for the port is a matter of its core's port and rings. -/
theorem State.portWaits_congr {s t : State} (hc : t.cur = s.cur) (hp : (t.core (slotCore s.cur)).port = (s.core (slotCore s.cur)).port)
    (hr : (t.core (slotCore s.cur)).rg = (s.core (slotCore s.cur)).rg) (a : BankAccess) : t.portWaits a = s.portWaits a := by
  unfold State.portWaits
  split
  · have hring : t.ring (slotCore s.cur) = s.ring (slotCore s.cur) := by
      funext r
      rw [State.ring, State.ring, hr]
    unfold State.tagPopped
    dsimp only
    rw [hc, hp, hring]
  · simp only [State.portOverlap, hc, hp, State.portOverlap_go_congr hr]

theorem State.bankBlocked_congr {s t : State} {a : BankAccess} (hcl : t.clu a.cl = s.clu a.cl) (hn : t.now = s.now) : t.bankBlocked a = s.bankBlocked a := by
  unfold State.bankBlocked State.undoFull
  rw [hcl, hn]

/-- An access may go to the bank unit whatever entries its form takes from channels. -/
theorem State.bankReady_of_popAll {s : State} {l : List Target} {a : BankAccess} (h : (s.popAll s.cur l).bankReady a) : s.bankReady a := by
  have hc := State.chans_popAll s s.cur l
  obtain ⟨g, i, hcore⟩ := hc.2.2.2 (slotCore s.cur)
  obtain ⟨q, r, w, hctx⟩ := hc.ctx
  obtain ⟨hp, hs⟩ := h
  have hme : (s.popAll s.cur l).me.pend = s.me.pend := by rw [State.me, hc.cur, hctx]; rfl
  refine ⟨?_, fun hst => ?_⟩
  · rw [← hp]
    exact (State.portWaits_congr hc.cur (by rw [hcore]) (by rw [hcore]) a).symm
  · obtain ⟨h1, h2⟩ := hs hst
    exact ⟨hme ▸ h1, (State.bankBlocked_congr (hc.clu _) hc.now).symm.trans h2⟩

/-! An instruction that goes on at the next word. -/

/-- What an instruction leaves that has changed no more of its context than its channels and its pending accesses. -/
theorem State.adv_issued {s u : State} {q : Vector (List Word) 8} {r : List ChanWrite} {w : Option WindowTask} {pend : List BankAccess}
    (hu : u.me = { s.me with aq := q, chq := r, win := w, pend := pend }) (hcur : u.cur = s.cur) (hnow : u.now = s.now) (hb : u.bytes = s.bytes) :
    let t := u.adv.issued false
    s.completes t (pcMoved s.me.pc 1) ∧ t.me.pend = pend ∧ t.me.aq = q ∧ s.sameX t ∧ s.sameBytes t ∧ s.me.sameSpecial t.me ∧ t.reqs = u.reqs ∧ t.nextId = u.nextId := by
  intro t
  have hadv : u.adv.me = { s.me with aq := q, chq := r, win := w, pend := pend, pc := pcMoved s.me.pc 1 } := by
    rw [State.adv_me, hu, ← pc_next]
  have ht : t.me = { s.me with
      aq := q, chq := r, win := w, pend := pend, pc := pcMoved s.me.pc 1, charge := .issue, lastIssue := s.now, mret := false, serial := s.me.serial + 1 } := by
    rw [State.issued_me, hadv, State.adv_now, hnow]
    rfl
  refine ⟨State.completes_issued _ (by simpa using hcur) (by simpa using hnow) (by rw [hadv]) (by rw [hadv]), by rw [ht], by rw [ht], fun m => ?_,
    State.sameBytes_of_bytes ?_, ?_, by simp [t], by simp [t]⟩
  · rw [ht]
    rfl
  · simp [t, hb]
  · rw [ht]
    simp [Ctx.sameSpecial]

/-- The same for an instruction that has taken entries of its channels. -/
theorem State.popAll_adv_issued {s u : State} (tk : List Target) {pend : List BankAccess} (hu : u.me = { (s.popAll s.cur tk).me with pend := pend }) (hcur : u.cur = s.cur)
    (hnow : u.now = s.now) (hb : u.bytes = s.bytes) :
    let t := u.adv.issued false
    s.completes t (pcMoved s.me.pc 1) ∧ t.me.pend = pend ∧ t.me.aq = (s.popAll s.cur tk).me.aq ∧ s.sameX t ∧ s.sameBytes t ∧ s.me.sameSpecial t.me ∧
      t.reqs = u.reqs ∧ t.nextId = u.nextId := by
  have hc := State.chans_popAll s s.cur tk
  obtain ⟨q, r, w, hctx⟩ := hc.ctx
  have hme : (s.popAll s.cur tk).me = { s.me with aq := q, chq := r, win := w } := by rw [State.me, hc.cur, hctx]; rfl
  have haq : (s.popAll s.cur tk).me.aq = q := by rw [hme]
  rw [haq]
  exact State.adv_issued (by rw [hu, hme]) hcur hnow hb

/-- A request made after entries were taken from channels. -/
theorem State.appendsRequest_of_chans {s u t : State} (h : s.chans s.cur u) {f : Req → Prop} (ha : u.appendsRequest t f) : s.appendsRequest t f := by
  obtain ⟨r, hf, hid, hsid, hr, hn⟩ := ha
  exact ⟨r, hf, by rw [hid, h.nextId], by rw [hsid, h.cur], by rw [hr, h.reqs], by rw [hn, h.nextId]⟩

/-! Stores. -/

/-- What a scratchpad store leaves that goes to the bank unit. -/
theorem State.storeBank_issued (s : State) (tk : List Target) (a : BankAccess) :
    let t := ((s.popAll s.cur tk).bankIssue a none).adv.issued false
    s.completes t (pcMoved s.me.pc 1) ∧ s.queuesAccess t a ∧ t.me.aq = (s.popAll s.cur tk).me.aq ∧ s.sameX t ∧ s.sameBytes t ∧ s.me.sameSpecial t.me := by
  have hc := State.chans_popAll s s.cur tk
  obtain ⟨q, r, w, hctx⟩ := hc.ctx
  have hp : (s.popAll s.cur tk).me.pend = s.me.pend := by rw [State.me, hc.cur, hctx]; rfl
  obtain ⟨h1, h2, h3, h4, h5, h6, -⟩ := State.popAll_adv_issued (u := (s.popAll s.cur tk).bankIssue a none) tk (State.upd_me ..) hc.cur hc.now hc.bytes
  exact ⟨h1, h2.trans (by rw [hp]), h3, h4, h5, h6⟩

/-- What a store leaves that holds a request. -/
theorem State.storeHeld_issued (s : State) (tk : List Target) (kind : ReqKind) (va n dt be : Nat) :
    let t := (((s.popAll s.cur tk).request kind .held va n 0 dt be 0).adv).issued false
    s.completes t (pcMoved s.me.pc 1) ∧ t.me.aq = (s.popAll s.cur tk).me.aq ∧ s.sameX t ∧ s.sameBytes t ∧ s.me.sameSpecial t.me ∧
      ∀ f : Req → Prop, (∀ r : Req, r.kind = kind → r.stage = .held → r.va = va → r.size = n → r.data = dt → r.be = be → r.pc = s.me.pc → f r) → s.appendsRequest t f := by
  have hc := State.chans_popAll s s.cur tk
  obtain ⟨q, r, w, hctx⟩ := hc.ctx
  have hme : (s.popAll s.cur tk).me = { s.me with aq := q, chq := r, win := w } := by rw [State.me, hc.cur, hctx]; rfl
  obtain ⟨h1, -, h3, h4, h5, h6, h7, h8⟩ := State.popAll_adv_issued (u := (s.popAll s.cur tk).request kind .held va n 0 dt be 0) (pend := s.me.pend) tk
    (by show (s.popAll s.cur tk).me = _; rw [hme]) hc.cur hc.now hc.bytes
  refine ⟨h1, h3, h4, h5, h6, fun f hf => State.appendsRequest_of_chans hc (State.appendsRequest_of_reqs h7 h8 fun r e1 e2 e3 e4 e5 e6 _ _ e9 => ?_)⟩
  exact hf r e1 e2 e3 e4 e5 e6 (e9.trans (by rw [hme]))

/-- A store of registers reads its data. -/
theorem State.readSrcs_x (s : State) (d : BitVec 5) : s.readSrcs [] [.x d] = some ([s.me.rx d], []) := rfl

/-- What a store waits for on its way to the bank unit. -/
theorem State.storeStops_bank {s : State} {ea v : Word} {n : Nat} {rel : Bool} {p : Place} {a : BankAccess} (hw : s.window s.cur ea n n = .ok p)
    (hp : s.accessAt (.store v) n p = some a) (hrel : rel = true → s.fenceWait s.cur 3 = none) (h : s.bankReady a) : firstCause (s.storeStops ea n rel) = none := by
  have hrw : (if rel then s.releaseWait else none) = none := by
    cases rel with
    | false => rfl
    | true => exact hrel rfl
  have hbank : ∀ b : BankAccess, a = { b with op := .store v } → b.op = .store 0 → firstCause (s.bankStops b) = none := by
    rintro ⟨op, cl, tags, off, size, ser⟩ rfl rfl
    exact State.bankStops_of_bankReady h
  cases p with
  | bank cl off =>
    simp only [State.storeStops, hw, hrw, firstCause_cons_none, State.stopsAt, State.accessAt]
    exact hbank _ (Option.some.inj hp).symm rfl
  | tag off =>
    simp only [State.storeStops, hw, hrw, firstCause_cons_none, State.stopsAt, State.accessAt]
    exact hbank _ (Option.some.inj hp).symm rfl
  | device off => cases hp
  | global va => cases hp

/-! Scratchpad bytes after a write. -/

/-- Bytes just written read as the low bytes of what was written. -/
theorem Memory.readN_writeMasked_all (m : Memory) (a v n : Nat) : (m.writeMasked a v (allBytes n) n).readN a n = v % 2 ^ (8 * n) := by
  have h : ∀ k, k ≤ n → (m.writeMasked a v (allBytes n) n).readN a k = v % 2 ^ (8 * k) := by
    intro k
    induction k with
    | zero => simp [Memory.readN, Nat.mod_one]
    | succ k ih =>
      intro hk
      have hbit : (allBytes n).testBit k = true := by rw [allBytes, Nat.testBit_two_pow_sub_one]; exact decide_eq_true hk
      rw [Memory.readN, ih (by omega), Memory.read_writeMasked, if_pos ⟨by omega, by omega, by rwa [Nat.add_sub_cancel_left]⟩]
      rw [Nat.add_sub_cancel_left, BitVec.toNat_ofNat, Nat.shiftRight_eq_div_pow, show 8 * (k + 1) = 8 * k + 8 by ring, pow_add, Nat.mod_mul]
      ring
  exact h n le_rfl

theorem State.spadRead_spadWrite (s : State) (cl off n v : Nat) : (s.spadWrite cl off n v).spadRead cl off n = v % 2 ^ (8 * n) := by
  unfold State.spadWrite State.spadRead
  rw [State.modClu_clu, if_pos rfl]
  exact Memory.readN_writeMasked_all ..

/-- A scratchpad write writes its bytes and no others. -/
theorem State.writesSpad_spadWrite (s : State) (cl off n v : Nat) : s.writesSpad (s.spadWrite cl off n v) cl off n (v % 2 ^ (8 * n)) :=
  ⟨State.spadRead_spadWrite .., fun _ _ => rfl, fun cl' a k h => State.spadWrite_read s cl off n v cl' a k h⟩

/-- What is written stays so while the bytes stay. -/
theorem State.writesSpad_congr {s s' t t' : State} {cl off n v : Nat} (h : s.writesSpad t cl off n v) (hs : s'.sameBytes s) (ht : t.sameBytes t') : s'.writesSpad t' cl off n v := by
  obtain ⟨h1, h2, h3⟩ := h
  exact ⟨((ht _ _).2 _).trans h1, fun a k => ((ht _ _).1).trans ((h2 a k).trans (hs _ _).1), fun cl' a k hd => ((ht _ _).2 _).trans ((h3 cl' a k hd).trans ((hs _ _).2 _))⟩

/-- Settles O8: the store waits at the bank unit with its data, and the slot that serves it writes its bytes. -/
theorem storesWriteTheScratchpad : Obligations.StoresWriteTheScratchpad := by
  refine ⟨?_, ?_⟩
  · intro i d a n o rel s cl off h hf hw hrel acc hr
    have hs := State.storeStops_bank hw (v := s.me.rx d) rfl hrel hr
    obtain ⟨h1, h2, -, h4, h5, h6⟩ := State.storeBank_issued s [] acc
    refine ⟨_, ?_, h1, h2, h4, h5, h6⟩
    rw [exec_of_storeOf h (State.fieldsReady_of_memFree hf) hf.2 (State.readSrcs_x s d) hs, State.storeAt, hw]
    rfl
  · intro s cl sid a l v h hop htag
    obtain ⟨-, -, hpend, hidle, -⟩ := id h
    have hperf : s.grantAccess sid a = (s.unqueued sid).spadWrite a.cl a.off a.size v.toNat := by
      rw [State.grantAccess_eq (by simp [hop]), State.bankPerform, hop]
      simp only [State.bankWrite, htag, Bool.false_eq_true, if_false]
    have hother : ∀ o, o ≠ sid → (s.grantAccess sid a).ctx o = s.ctx o := fun o hne => by
      rw [hperf, State.spadWrite_ctx]
      exact State.modCtx_other s sid o _ hne
    have hsid : (s.grantAccess sid a).ctx sid = { s.ctx sid with pend := l } := by
      rw [hperf, State.spadWrite_ctx, State.modCtx_self, hpend]
      rfl
    refine ⟨_, State.exec_scalarSlotGrant h fun o hcl hne => by rw [hother o hne]; exact hidle o hcl hne, ?_, ?_, hother, ?_, ?_⟩
    · exact congrArg Ctx.pend hsid
    · refine State.writesSpad_congr (State.writesSpad_spadWrite (s.unqueued sid) a.cl a.off a.size v.toNat) (fun _ _ => ⟨rfl, fun _ => rfl⟩) ?_
      exact State.sameBytes_of_bytes (by rw [hperf]; simp)
    · intro m
      show ((s.grantAccess sid a).ctx sid).rx m = _
      rw [hsid]
      rfl
    · show (s.ctx sid).sameSpecial ((s.grantAccess sid a).ctx sid)
      rw [hsid]
      simp [Ctx.sameSpecial]

/-! Tags. -/

/-- What a tag write looks at of the contexts: what each waits for. -/
theorem Ctx.tagWait_congr {c d : Ctx} (h : d.act = c.act) : d.tagWait = c.tagWait := by
  unfold Ctx.tagWait
  rw [h]

theorem Ctx.wakeTag_act (c : Ctx) (v : Word) (now : Nat) : (c.wakeTag v now).act = if c.tagWait.isSome then .running else c.act := by
  unfold Ctx.wakeTag Ctx.tagWait
  split
  · rfl
  · rfl

@[simp] theorem Ctx.wakeTag_pend (c : Ctx) (v : Word) (now : Nat) : (c.wakeTag v now).pend = c.pend := by
  unfold Ctx.wakeTag
  split
  · simp only [Ctx.usableAt, Ctx.wx, Ctx.wxAt]
    split <;> rfl
  · rfl

/-- Two states that a tag write does not tell apart: the clusters, the time, and what each context does. -/
def State.tagAlike (s t : State) : Prop := (∀ c, t.clu c = s.clu c) ∧ t.now = s.now ∧ ∀ j, (t.ctx j).act = (s.ctx j).act

theorem State.tagAlike_modClu {s t : State} (h : s.tagAlike t) (cl : Nat) {f g : Cluster → Cluster} (hfg : f (s.clu cl) = g (s.clu cl)) :
    (s.modClu cl f).tagAlike (t.modClu cl g) := by
  obtain ⟨h1, h2, h3⟩ := h
  refine ⟨fun c => ?_, h2, h3⟩
  rw [State.modClu_clu, State.modClu_clu, h1, h1, hfg]

theorem State.tagAlike_wakeTag {s t : State} (h : s.tagAlike t) (sid : Nat) (v : Word) :
    (s.modCtx sid fun c => c.wakeTag v s.now).tagAlike (t.modCtx sid fun c => c.wakeTag v t.now) := by
  obtain ⟨h1, h2, h3⟩ := h
  refine ⟨h1, h2, fun j => ?_⟩
  rw [State.modCtx_ctx, State.modCtx_ctx]
  split
  · rw [Ctx.wakeTag_act, Ctx.wakeTag_act, Ctx.tagWait_congr (h3 sid), h3]
  · exact h3 j

theorem State.tagAlike_wakeTags {s t : State} (h : s.tagAlike t) (cl n : Nat) (all : Bool) (v : Word) : (s.wakeTags cl n all v).tagAlike (t.wakeTags cl n all v) := by
  unfold State.wakeTags
  generalize (List.range 8).map (fun l => 10 * cl + l) = l
  induction l generalizing s t with
  | nil => exact h
  | cons j l ih =>
    refine ih ?_
    dsimp only
    have hw : (t.ctx j).tagWait = (s.ctx j).tagWait := Ctx.tagWait_congr (h.2.2 j)
    have htag : t.tag cl n = s.tag cl n := congrArg (fun c : Cluster => Tab.get 0 c.tags n) (h.1 cl)
    rw [hw, htag]
    split
    · split
      · exact State.tagAlike_modClu (State.tagAlike_wakeTag h j v) cl rfl
      · exact h
    · exact h

theorem State.tagAlike_tagWrite {s t : State} (h : s.tagAlike t) (cl off n v : Nat) (l : List Nat) : (s.tagWrite cl off n v l).tagAlike (t.tagWrite cl off n v l) := by
  have htag : ∀ m, t.tag cl m = s.tag cl m := fun m => congrArg (fun c : Cluster => Tab.get 0 c.tags m) (h.1 cl)
  unfold State.tagWrite State.putTag
  simp only [htag, h.2.1]
  exact State.tagAlike_wakeTags (State.tagAlike_modClu h cl rfl) ..

/-- The accesses that wait at the bank unit stay through a tag's change. -/
theorem State.wakeTags_pend (s : State) (cl n : Nat) (all : Bool) (v : Word) (j : Nat) : ((s.wakeTags cl n all v).ctx j).pend = (s.ctx j).pend := by
  unfold State.wakeTags
  generalize (List.range 8).map (fun l => 10 * cl + l) = l
  induction l generalizing s with
  | nil => rfl
  | cons k l ih =>
    refine (ih _).trans ?_
    dsimp only
    split
    · split
      · rw [State.modClu_ctx, State.modCtx_ctx]
        split
        · next h => rw [Ctx.wakeTag_pend, h]
        · rfl
      · rfl
    · rfl

@[simp] theorem State.putTag_pend (s : State) (cl n : Nat) (w : Word) (l : List Nat) (j : Nat) : ((s.putTag cl n w l).ctx j).pend = (s.ctx j).pend := by
  unfold State.putTag
  exact (State.wakeTags_pend ..).trans rfl

@[simp] theorem State.tagWrite_pend (s : State) (cl off n v : Nat) (l : List Nat) (j : Nat) : ((s.tagWrite cl off n v l).ctx j).pend = (s.ctx j).pend :=
  State.putTag_pend ..

/-- Settles O9: what a store holds, of registers and of channels, and the tag write of the slot that serves it. -/
theorem storesAreHeldOrWriteRegisters : Obligations.StoresAreHeldOrWriteRegisters := by
  refine ⟨?_, ?_, ?_⟩
  · intro i d a n o rel s va h hf hw hfull
    have hs : firstCause (s.storeStops (wordOfInt ((s.me.rx a).toInt + o)) n rel) = none := by
      simp only [State.storeStops, hw, hfull]
      rfl
    obtain ⟨h1, -, h3, h4, h5, h6⟩ := State.storeHeld_issued s [] (if rel then .storeRelease else .store) va n ((s.me.rx d).toNat % 2 ^ (8 * n)) (allBytes n)
    refine ⟨_, ?_, h1, h4, h3, h5, h6 _ fun r e1 e2 e3 e4 e5 e6 e7 => ⟨e1, e2, e3, e4, e5, e6, e7⟩⟩
    rw [exec_of_storeOf h (State.fieldsReady_of_memFree hf) hf.2 (State.readSrcs_x s d) hs, State.storeAt, hw]
    rfl
  · intro i d a n o rel s v tk h hf hm hr
    refine ⟨fun va hw hfull => ?_, fun off hw hmay hfull => ?_, ?_⟩
    · have hs : firstCause (s.storeStops (wordOfInt ((s.me.rx a).toInt + o)) n rel) = none := by
        simp only [State.storeStops, hw, hfull]
        rfl
      obtain ⟨h1, h2, -, h4, -, h6⟩ := State.storeHeld_issued s tk (if rel then .storeRelease else .store) va n (v.toNat % 2 ^ (8 * n)) (allBytes n)
      refine ⟨_, ?_, h1, h2, h4, h6 _ fun r _ _ e3 e4 e5 _ _ => ⟨e3, e4, e5⟩⟩
      rw [exec_of_storeOf h hf hm hr hs, State.storeAt, hw]
      rfl
    · have hs : firstCause (s.storeStops (wordOfInt ((s.me.rx a).toInt + o)) n rel) = none := by
        simp only [State.storeStops, hw, hfull, hmay]
        rfl
      obtain ⟨h1, h2, -, h4, -, h6⟩ := State.storeHeld_issued s tk .device off n (v.toNat % 2 ^ (8 * n)) (allBytes n)
      refine ⟨_, ?_, h1, h2, h4, h6 _ fun r e1 e2 e3 e4 e5 _ _ => ⟨e1, e2, e3, e4, e5⟩⟩
      rw [exec_of_storeOf h hf hm hr hs, State.storeAt, hw]
      simp only [hmay, Bool.not_true, Bool.false_eq_true, if_false, finish]
    · intro cl off tags hplace hrel acc hb
      obtain ⟨h1, h2, h3, -, h5, -⟩ := State.storeBank_issued s tk acc
      refine ⟨_, ?_, h1, h2, h3, h5⟩
      rcases hplace with ⟨hw, rfl⟩ | ⟨hw, rfl, rfl⟩
      · have hs := State.storeStops_bank hw (v := v) rfl hrel (State.bankReady_of_popAll hb)
        rw [exec_of_storeOf h hf hm hr hs, State.storeAt, hw]
        rfl
      · have hs := State.storeStops_bank hw (v := v) rfl hrel (State.bankReady_of_popAll hb)
        rw [exec_of_storeOf h hf hm hr hs, State.storeAt, hw]
        rfl
  · intro s cl sid a l v h hop htag
    obtain ⟨-, -, -, hidle, -⟩ := id h
    have hperf : s.grantAccess sid a = (s.unqueued sid).tagWrite a.cl a.off a.size v.toNat (s.ctx sid).taints := by
      rw [State.grantAccess_eq (by simp [hop]), State.bankPerform, hop]
      simp only [State.bankWrite, htag, if_true]
      rw [State.modCtx_self]
    have halike : s.tagAlike (s.unqueued sid) := by
      refine ⟨fun _ => rfl, rfl, fun j => ?_⟩
      rw [State.modCtx_ctx]
      split
      · next h => rw [h]
      · rfl
    refine ⟨_, State.exec_scalarSlotGrant h fun o hcl hne => ?_, ?_, fun c => ?_⟩
    · rw [hperf, State.tagWrite_pend, State.modCtx_other s sid o _ hne]
      exact hidle o hcl hne
    · exact State.sameBytes_of_bytes (by rw [hperf]; simp)
    · rw [State.modClu_clu, hperf]
      have := (State.tagAlike_tagWrite halike a.cl a.off a.size v.toNat (s.ctx sid).taints).1 c
      split
      · next e => rw [← e, this]
      · rw [this]

/-! Atomics (Table 07-3). -/

/-- A number of whole bytes read as signed. -/
theorem signedBytes_eq {n v : Nat} (h : v < 2 ^ (8 * n)) : signedBytes n v = if v.testBit (8 * n - 1) then (v : Int) - (2 ^ (8 * n) : Nat) else v := by
  rw [testBit_top h, signedBytes]
  push_cast
  simp only [decide_eq_true_eq]

/-- The operator of an atomic gives its value of Table 07-3. -/
theorem AmoOp.apply_of_atomicOf {i : Instr} {d a b : BitVec 5} {n : Nat} {op : AmoOp} {f : Nat → Nat → Nat} (h : atomicOf i = some (d, a, b, n, op, f)) {x y : Nat}
    (hx : x < 2 ^ (8 * n)) (hy : y < 2 ^ (8 * n)) : op.apply n x y = f x y := by
  have key : ∀ (w : Bool) (o : AmoOp) (g : Nat → Nat → Nat), n = (if w then 8 else 4) → op = o → f = g → o.apply n x y = g x y → op.apply n x y = f x y := by
    rintro w o g - rfl rfl h
    exact h
  cases i <;> cases h
  case amoAdd w => cases w <;> rfl
  case amoAnd => rfl
  case amoOr => rfl
  case amoXor => rfl
  case amoMin => simp only [AmoOp.apply, signedBytes_eq hx, signedBytes_eq hy]
  case amoMax => simp only [AmoOp.apply, signedBytes_eq hx, signedBytes_eq hy]
  case amoMinu => simp only [AmoOp.apply, Nat.min_def]
  case amoMaxu => simp only [AmoOp.apply, Nat.max_def]; split <;> split <;> omega
  case amoSwap => rfl

/-- The operator of an atomic gives a value of its size. -/
theorem AmoOp.apply_lt {op : AmoOp} {n x y : Nat} (hx : x < 2 ^ (8 * n)) (hy : y < 2 ^ (8 * n)) : op.apply n x y < 2 ^ (8 * n) := by
  have hxy : ∀ (p : Prop) [Decidable p], (if p then x else y) < 2 ^ (8 * n) := fun p _ => by split <;> assumption
  cases op with
  | add => exact Nat.mod_lt _ (by positivity)
  | and => exact Nat.lt_of_le_of_lt Nat.and_le_left hx
  | or => exact Nat.or_lt_two_pow hx hy
  | xor => exact Nat.xor_lt_two_pow hx hy
  | min => exact hxy _
  | max => exact hxy _
  | minu => exact hxy _
  | maxu => exact hxy _
  | swap => exact hy

/-- What an atomic waits for on its way to the bank unit. -/
theorem State.atomicStops_bank {s : State} {ea : Word} {n cl off : Nat} {op : BankOp} (hw : s.window s.cur ea n n = .ok (.bank cl off))
    (h : s.bankReady { op := op, cl := cl, tags := false, off := off, size := n, serial := s.me.serial }) : firstCause (s.atomicStops ea n op) = none := by
  simp only [State.atomicStops, hw, State.stopsAt, State.accessAt]
  exact State.bankStops_of_bankReady h

theorem State.atomicStops_global {s : State} {ea : Word} {n va : Nat} {op : BankOp} (hw : s.window s.cur ea n n = .ok (.global va))
    (h : s.restFull (slotCluster s.cur) 1 = false) : firstCause (s.atomicStops ea n op) = none := by
  simp only [State.atomicStops, hw, h]
  rfl

/-- What an atomic does, once nothing holds it back. -/
theorem exec_of_atomicOf {i : Instr} {d a b : BitVec 5} {n : Nat} {op : AmoOp} {f : Nat → Nat → Nat} {s : State} (h : atomicOf i = some (d, a, b, n, op, f))
    (hf : s.memFree [a, b] [d]) (hs : firstCause (s.atomicStops (s.me.rx a) n (.amo op d (s.me.rx b))) = none) :
    exec i s = finish s (s.atomicAt d (s.me.rx a) n (.amo op d (s.me.rx b)) (.amo op d) (s.me.rx b) 0) := by
  have key : ∀ w : Bool, n = atomBytes w → s.amoForm op d a b w = s.atomicAt d (s.me.rx a) n (.amo op d (s.me.rx b)) (.amo op d) (s.me.rx b) 0 := by
    rintro w rfl
    exact State.memForm_of_memFree hf hs _
  cases i <;> cases h
  case amoAdd => exact congrArg (finish s) (key _ rfl)
  case amoAnd => exact congrArg (finish s) (key _ rfl)
  case amoOr => exact congrArg (finish s) (key _ rfl)
  case amoXor => exact congrArg (finish s) (key _ rfl)
  case amoMin => exact congrArg (finish s) (key _ rfl)
  case amoMax => exact congrArg (finish s) (key _ rfl)
  case amoMinu => exact congrArg (finish s) (key _ rfl)
  case amoMaxu => exact congrArg (finish s) (key _ rfl)
  case amoSwap => exact congrArg (finish s) (key _ rfl)

theorem exec_cas {d a b : BitVec 5} {w : Bool} {s : State} (hf : s.memFree [a, b, d] [d])
    (hs : firstCause (s.atomicStops (s.me.rx a) (if w then 8 else 4) (.cas d (s.me.rx b) (s.me.rx d))) = none) :
    exec (.cas d a b w) s = finish s (s.atomicAt d (s.me.rx a) (if w then 8 else 4) (.cas d (s.me.rx b) (s.me.rx d)) (.cas d) (s.me.rx b) (s.me.rx d)) :=
  congrArg (finish s) (State.memForm_of_memFree hf hs _)

/-- What the slot's service leaves that gives an x register a value, of a state `u` in which only bytes have changed beside the access that has gone. -/
theorem State.serve_gives {s u : State} {cl sid : Nat} {a : BankAccess} {l : List BankAccess} {d : BitVec 5} {v : Word} (h : s.servesAlone cl sid a l)
    (hu : ∀ j, u.ctx j = (s.unqueued sid).ctx j) (hn : u.now = s.now)
    (hg : s.grantAccess sid a = u.deliverAt sid a.serial (s.now + bankLatency) (.x d) v) :
    s.does (.scalarSlotGrant cl) fun t => (t.ctx sid).pend = l ∧ (s.ctx sid).gives (t.ctx sid) a.serial (s.now + 3) (.x d) v ∧ u.sameBytes t := by
  obtain ⟨-, -, hpend, hidle, -⟩ := id h
  have hlt : u.now < s.now + bankLatency := by rw [hn]; simp [bankLatency]
  have hgive := State.deliverAt_gives hlt sid a.serial (.x d) v
  obtain ⟨x, m, b, lt, q, r, w, hctx⟩ := State.deliverAt_ctx u sid a.serial (s.now + bankLatency) (.x d) v
  have hsid : u.ctx sid = { s.ctx sid with pend := l } := by
    rw [hu, State.modCtx_self, hpend]
    rfl
  have hother : ∀ o, o ≠ sid → (s.grantAccess sid a).ctx o = s.ctx o := fun o hne => by
    rw [hg, State.deliverAt_other _ _ _ _ _ _ hne, hu]
    exact State.modCtx_other s sid o _ hne
  refine ⟨_, State.exec_scalarSlotGrant h fun o hcl hne => by rw [hother o hne]; exact hidle o hcl hne, ?_, ?_, ?_⟩
  · rw [State.modClu_ctx, hg, hctx, hsid]
  · rw [State.modClu_ctx, hg]
    refine Ctx.gives_congr hgive (fun m => ?_) (fun _ => rfl) (fun _ h => h) rfl
    rw [hsid]
    rfl
  · exact State.sameBytes_of_bytes (by rw [hg]; simp)

/-- What an atomic leaves that goes to the bank unit. -/
theorem State.atomicBank_issued (s : State) (a : BankAccess) (d : BitVec 5) :
    let t := ((s.bankIssue a (some (.x d))).adv).issued false
    s.completes t (pcMoved s.me.pc 1) ∧ s.queuesAccess t a ∧ s.awaitsDst t (.x d) .slotWait ∧ s.sameX t ∧ s.sameBytes t ∧ s.me.sameSpecial t.me := by
  obtain ⟨h1, h2, h3, -, h4, h5, h6⟩ := State.bankIssue_issued s a (.x d) false
  exact ⟨h1, h2, h3, h4, h5, h6⟩

/-- Settles O10: the atomic waits at the bank unit, and the slot that serves it gives the old value and writes the new one. -/
theorem atomicsUpdateTheScratchpad : Obligations.AtomicsUpdateTheScratchpad := by
  refine ⟨⟨?_, ?_⟩, ?_, ?_⟩
  · intro i d a b n op f s cl off h hf hw acc hr
    obtain ⟨h1, h2, h3, h4, h5, h6⟩ := State.atomicBank_issued s acc d
    refine ⟨_, ?_, h1, h2, h3, h4, h5, h6⟩
    rw [exec_of_atomicOf h hf (State.atomicStops_bank hw hr), State.atomicAt, hw]
    rfl
  · intro i d a b n op f s cl sid acc l v h hserve hop hsize htag
    have hx : s.spadRead acc.cl acc.off n < 2 ^ (8 * n) := State.spadRead_lt ..
    have hy : v.toNat % 2 ^ (8 * n) < 2 ^ (8 * n) := Nat.mod_lt _ (by positivity)
    have hg : s.grantAccess sid acc = ((s.unqueued sid).spadWrite acc.cl acc.off n (op.apply n (s.spadRead acc.cl acc.off n) (v.toNat % 2 ^ (8 * n)))).deliverAt sid acc.serial
        (s.now + bankLatency) (.x d) (loadValue true n (s.spadRead acc.cl acc.off n)) := by
      rw [State.grantAccess_eq (by simp [hop]), State.bankPerform, hop, ← extend_eq_loadValue true n _ hx]
      simp only [State.bankRead, State.bankWrite, htag, hsize, Bool.false_eq_true, if_false]
      rfl
    obtain ⟨t, ht, hp, hgive, hb⟩ := State.serve_gives hserve (fun j => State.spadWrite_ctx ..) rfl hg
    refine ⟨t, ht, hp, hgive, ?_⟩
    have hwr := State.writesSpad_spadWrite (s.unqueued sid) acc.cl acc.off n (op.apply n (s.spadRead acc.cl acc.off n) (v.toNat % 2 ^ (8 * n)))
    rw [Nat.mod_eq_of_lt (AmoOp.apply_lt hx hy), AmoOp.apply_of_atomicOf h hx hy] at hwr
    rw [AmoOp.apply_of_atomicOf h hx hy] at hb
    exact State.writesSpad_congr hwr (fun _ _ => ⟨rfl, fun _ => rfl⟩) hb
  · intro d a b w s cl off n hf hw acc hr
    obtain ⟨h1, h2, h3, h4, h5, -⟩ := State.atomicBank_issued s acc d
    refine ⟨_, ?_, h1, h2, h3, h4, h5⟩
    rw [exec_cas hf (State.atomicStops_bank hw hr), State.atomicAt, hw]
    rfl
  · intro s cl sid a l d v e hserve hop htag old
    have hx : old < 2 ^ (8 * a.size) := State.spadRead_lt ..
    have hperf : s.grantAccess sid a = (if old = e.toNat % 2 ^ (8 * a.size) then (s.unqueued sid).spadWrite a.cl a.off a.size v.toNat else s.unqueued sid).deliverAt sid
        a.serial (s.now + bankLatency) (.x d) (loadValue true a.size old) := by
      rw [State.grantAccess_eq (by simp [hop]), State.bankPerform, hop, ← extend_eq_loadValue true a.size _ hx]
      simp only [State.bankRead, State.bankWrite, htag, Bool.false_eq_true, if_false]
      rfl
    by_cases he : old = e.toNat % 2 ^ (8 * a.size)
    · rw [if_pos he] at hperf
      obtain ⟨t, ht, hp, hgive, hb⟩ := State.serve_gives hserve (fun j => State.spadWrite_ctx ..) rfl hperf
      refine ⟨t, ht, hp, hgive, ?_⟩
      rw [if_pos he]
      exact State.writesSpad_congr (State.writesSpad_spadWrite (s.unqueued sid) a.cl a.off a.size v.toNat) (fun _ _ => ⟨rfl, fun _ => rfl⟩) hb
    · rw [if_neg he] at hperf
      obtain ⟨t, ht, hp, hgive, hb⟩ := State.serve_gives hserve (fun j => rfl) rfl hperf
      refine ⟨t, ht, hp, hgive, ?_⟩
      rw [if_neg he]
      exact State.writesSpad_congr (s := s) (t := s.unqueued sid) ⟨rfl, fun _ _ => rfl, fun _ _ _ _ => rfl⟩ (fun _ _ => ⟨rfl, fun _ => rfl⟩) hb

/-- Settles O11: the request holds the operands, and rd is awaited. -/
theorem globalAtomicsAreHeld : Obligations.GlobalAtomicsAreHeld := by
  refine ⟨?_, ?_⟩
  · intro i d a b n op f s va h hf hw hfull
    obtain ⟨h1, h2, -, h4, h5, -, h7, h8⟩ := State.request_awaitDst_issued s (.amo op d) .translating va n 0 ((s.me.rx b).toNat % 2 ^ (8 * n)) (allBytes n)
      ((0 : Word).toNat % 2 ^ (8 * n)) (.x d) .globalWait false
    refine ⟨_, ?_, h1, h5, h4, h2, State.appendsRequest_of_reqs h7 h8 fun r e1 e2 e3 e4 e5 _ _ _ _ => ⟨e1, e2, e3, e4, e5⟩⟩
    rw [exec_of_atomicOf h hf (State.atomicStops_global hw hfull), State.atomicAt, hw]
    rfl
  · intro d a b w s va n hf hw hfull
    obtain ⟨h1, h2, -, h4, h5, -, h7, h8⟩ := State.request_awaitDst_issued s (.cas d) .translating va n 0 ((s.me.rx b).toNat % 2 ^ (8 * n)) (allBytes n)
      ((s.me.rx d).toNat % 2 ^ (8 * n)) (.x d) .globalWait false
    refine ⟨_, ?_, h1, h5, h4, h2, State.appendsRequest_of_reqs h7 h8 fun r e1 e2 e3 e4 e5 _ e7 _ _ => ⟨e1, e2, e3, e4, e5, e7⟩⟩
    rw [exec_cas hf (State.atomicStops_global hw hfull), State.atomicAt, hw]
    rfl

/-! Fences. -/

/-- Settles O12: a fence whose scope is clear goes on, sends its markers, or waits for them. -/
theorem fencesWaitForTheirScope : Obligations.FencesWaitForTheirScope := by
  intro sc c s ho hw
  have hexec : exec (.fence sc c) s = finish s (s.fence sc c) := rfl
  have hstop : firstCause [s.others [] [], s.fenceWait s.cur c.toNat] = none := by
    rw [ho, hw]
    rfl
  have hform : s.fence sc c =
      if !fenceOther sc c || (s.me.fenceSent && s.me.markers.isEmpty) then .ok (s.adv.upd fun c => { c with fenceSent := false })
      else if s.me.fenceSent then .wait .fence
      else .hold (s.upd fun c => { c with
        fenceSent := true
        markers := (List.range 8).map fun m => (m, s.queuedInvals m (clusterDie (slotCluster s.cur))) }) .fence := by
    rw [State.fence, hstop]
  refine ⟨fun h => ?_, fun hsc hc hsent => ?_, fun hsc hc hsent hm => ?_⟩
  · have hgo : (!fenceOther sc c || (s.me.fenceSent && s.me.markers.isEmpty)) = true := by
      rcases h with rfl | hlt | ⟨hs, hm⟩
      · rfl
      · simp [fenceOther, Nat.not_le.mpr hlt]
      · simp [hs, hm]
    have hme : (s.adv.upd fun c => { c with fenceSent := false }).me = { s.me with pc := pcMoved s.me.pc 1, fenceSent := false } := by
      rw [State.upd_me, State.adv_me, ← pc_next]
    refine ⟨(s.adv.upd fun c => { c with fenceSent := false }).issued false, ?_, ?_, ?_, fun m => ?_, ?_⟩
    · rw [hexec, hform, if_pos hgo]
      rfl
    · exact State.completes_issued _ rfl rfl (by rw [hme]) (by rw [hme])
    · exact State.sameBytes_of_bytes (by simp)
    · rw [State.issued_me, hme]
      rfl
    · rw [State.issued_me, hme]
      simp [Ctx.sameSpecial]
  · have hgo : fenceOther sc c = true := by simp [fenceOther, hsc, hc]
    refine ⟨_, by rw [hexec, hform, hgo, hsent]; rfl, ?_, ?_, fun m => ?_, ?_, ?_⟩
    · rw [State.upd_me, State.upd_me]
    · rw [State.upd_me, State.upd_me]
    · rw [State.upd_me, State.upd_me]
      rfl
    · exact State.sameBytes_of_bytes rfl
    · rw [State.upd_me, State.upd_me]
      rfl
  · have hgo : fenceOther sc c = true := by simp [fenceOther, hsc, hc]
    have hne : s.me.markers.isEmpty = false := by simpa using hm
    rw [hexec, hform, hgo, hsent, hne]
    rfl

/-! Waiters. -/

theorem Ctx.acquireEnds_eq (c : Ctx) (now at_ : Nat) : ∃ l k, c.acquireEnds now at_ = { c with late := l, acq := k } := by
  obtain ⟨l, k, h, -⟩ := Ctx.acquireEnds_frame c now at_
  exact ⟨l, k, h⟩

/-- What a waiter is when it goes on: its register has the value, and its PC the next word. -/
theorem Ctx.wake_eq (c : Ctx) (d : BitVec 5) (v : Word) (now : Nat) :
    ∃ b l k p, c.wake d v now = { c.wx d v with busy := b, late := l, acq := k, act := .running, pc := pcMoved c.pc 1, pause := p } := by
  have hu : ∃ b l, (c.wx d v).usableAt d .slotWait (now + bankLatency) = { c.wx d v with busy := b, late := l } := by
    unfold Ctx.usableAt
    split
    · exact ⟨_, _, rfl⟩
    · exact ⟨_, _, rfl⟩
  obtain ⟨b, l, hu⟩ := hu
  obtain ⟨l', k, ha⟩ := Ctx.acquireEnds_eq { c.wx d v with busy := b, late := l } now (now + bankLatency)
  refine ⟨b, l', k, some (.sleep, now + 1), ?_⟩
  rw [Ctx.wake, hu, ha, Ctx.next, pc_next]

theorem Ctx.wx_pend (c : Ctx) (d : BitVec 5) (v : Word) : (c.wx d v).pend = c.pend := by
  unfold Ctx.wx Ctx.wxAt
  split <;> rfl

section
variable (c : Ctx) (d : BitVec 5) (v : Word) (now : Nat)

@[simp] theorem Ctx.wake_act : (c.wake d v now).act = .running := rfl

@[simp] theorem Ctx.wake_pc : (c.wake d v now).pc = pcMoved c.pc 1 := pc_next c.pc

@[simp] theorem Ctx.wake_pend : (c.wake d v now).pend = c.pend := by
  obtain ⟨b, l, k, p, h⟩ := Ctx.wake_eq c d v now
  rw [h]
  exact Ctx.wx_pend c d v

theorem Ctx.wake_getsX : c.getsX (c.wake d v now) d v := by
  obtain ⟨b, l, k, p, h⟩ := Ctx.wake_eq c d v now
  intro m
  rw [h]
  exact Ctx.wx_rx c d m v

end

/-- One waiter of a word goes on. -/
def State.wakeOne (s : State) (j : Nat) : State := s.modCtx j fun c =>
  match c.waitReg with
  | some d => c.wake d 0 s.now
  | none => c

theorem State.wakeAll_cons (s : State) (w : Waiter) (l : List Waiter) : s.wakeAll (w :: l) = (s.wakeOne w.sid).wakeAll l := rfl

theorem State.wakeOne_other (s : State) {j k : Nat} (h : k ≠ j) : (s.wakeOne j).ctx k = s.ctx k := State.modCtx_other s j k _ h

theorem State.wakeOne_pend (s : State) (j k : Nat) : ((s.wakeOne j).ctx k).pend = (s.ctx k).pend := by
  by_cases h : k = j
  · subst h
    rw [State.wakeOne, State.modCtx_self]
    split
    · rw [Ctx.wake_pend]
    · rfl
  · rw [State.wakeOne_other s h]

theorem State.wakeAll_pend (s : State) (l : List Waiter) (k : Nat) : ((s.wakeAll l).ctx k).pend = (s.ctx k).pend := by
  induction l generalizing s with
  | nil => rfl
  | cons w l ih => rw [State.wakeAll_cons, ih, State.wakeOne_pend]

@[simp] theorem State.wakeAll_clu (s : State) (l : List Waiter) (cl : Nat) : (s.wakeAll l).clu cl = s.clu cl := by
  induction l generalizing s with
  | nil => rfl
  | cons w l ih => rw [State.wakeAll_cons, ih]; rfl

@[simp] theorem State.wakeAll_now (s : State) (l : List Waiter) : (s.wakeAll l).now = s.now := by
  induction l generalizing s with
  | nil => rfl
  | cons w l ih => rw [State.wakeAll_cons, ih]; rfl

theorem State.wakeAll_notIn (s : State) {l : List Waiter} {k : Nat} (h : ∀ w ∈ l, w.sid ≠ k) : (s.wakeAll l).ctx k = s.ctx k := by
  induction l generalizing s with
  | nil => rfl
  | cons w l ih =>
    rw [State.wakeAll_cons, ih _ fun v hv => h v (List.mem_cons_of_mem _ hv), State.wakeOne_other s (h w List.mem_cons_self).symm]

theorem State.wakeAll_awake (s : State) (l : List Waiter) {k : Nat} (h : (s.ctx k).waitReg = none) : (s.wakeAll l).ctx k = s.ctx k := by
  induction l generalizing s with
  | nil => rfl
  | cons w l ih =>
    have hone : (s.wakeOne w.sid).ctx k = s.ctx k := by
      by_cases hk : k = w.sid
      · rw [hk, State.wakeOne, State.modCtx_self, ← hk, h]
      · exact State.wakeOne_other s hk
    rw [State.wakeAll_cons, ih _ (by rw [hone, h]), hone]

/-- A waiter among those that wake goes on with 0, once. -/
theorem State.wakeAll_waiting (s : State) {l : List Waiter} {w : Waiter} (hw : w ∈ l) {r : BitVec 5} {u : Option Nat} (h : (s.ctx w.sid).act = .waitWord r u) :
    (s.wakeAll l).ctx w.sid = (s.ctx w.sid).wake r 0 s.now := by
  have hreg : (s.ctx w.sid).waitReg = some r := by rw [Ctx.waitReg, h]
  induction l generalizing s with
  | nil => cases hw
  | cons v l ih =>
    rw [State.wakeAll_cons]
    by_cases hv : w.sid = v.sid
    · have hone : (s.wakeOne v.sid).ctx w.sid = (s.ctx w.sid).wake r 0 s.now := by
        rw [← hv, State.wakeOne, State.modCtx_self, hreg]
      rw [State.wakeAll_awake _ l (by rw [hone]; rfl), hone]
    · have hone : (s.wakeOne v.sid).ctx w.sid = s.ctx w.sid := State.wakeOne_other s hv
      have hmem : w ∈ l := (List.mem_cons.mp hw).resolve_left fun e => hv (by rw [e])
      rw [ih (s.wakeOne v.sid) hmem (by rw [hone, h]) (by rw [hone, hreg]), hone]
      rfl

/-- What the slot's service leaves that changes no context but its own. -/
theorem State.serve_own {s u : State} {cl sid : Nat} {a : BankAccess} {l : List BankAccess} {p : State → Prop} (h : s.servesAlone cl sid a l)
    (hg : s.grantAccess sid a = u) (ho : ∀ j, j ≠ sid → (u.ctx j).pend = (s.ctx j).pend)
    (hp : p (u.modClu cl fun c => { c with sptr := (slotLocal sid + 1) % 10, slotAt := s.now + 1 })) : s.does (.scalarSlotGrant cl) p := by
  obtain ⟨-, -, -, hidle, -⟩ := id h
  refine ⟨_, State.exec_scalarSlotGrant h fun o hcl hne => ?_, by rw [hg]; exact hp⟩
  rw [hg, ho o hne]
  exact hidle o hcl hne

/-- The pointer of the scalar slots is no byte. -/
theorem State.sameBytes_slot {s u : State} {cl n t : Nat} (h : u.bytes = s.bytes) : s.sameBytes (u.modClu cl fun k => { k with sptr := n, slotAt := t }) :=
  State.sameBytes_of_bytes ((State.bytes_modClu _ _ _ rfl).trans h)

/-- The pointer of the scalar slots is no waiter. -/
theorem State.waiters_slot {s : State} {cl c n : Nat} {t : Nat} {l : List Waiter} (h : (s.clu c).waiters = l) :
    ((s.modClu cl fun k => { k with sptr := n, slotAt := t }).clu c).waiters = l := by
  rw [State.modClu_clu]
  split
  · next e => rw [← h, e]
  · exact h

/-- What a WAIT does that nothing holds back. -/
theorem exec_wait {d a b : BitVec 5} {w : Bool} {s : State} {cl off : Nat} (hf : s.memFree [a, b, d] [d])
    (hw : s.window s.cur (s.me.rx a) (atomBytes w) (atomBytes w) = .ok (.bank cl off)) (hF0 : (s.me.rx a).toNat / 2 ^ 48 = 0xF0)
    (hport : s.portWaits { op := .wait d (s.me.rx b) (s.me.rx d), cl := cl, tags := false, off := off, size := atomBytes w, serial := s.me.serial } = false) :
    exec (.wait d a b w) s = .next (((s.bankIssue { op := .wait d (s.me.rx b) (s.me.rx d), cl := cl, tags := false, off := off, size := atomBytes w, serial := s.me.serial }
      none).upd fun c => { c with act := .waitWord d none, acq := some .slotWait }).issued false) := by
  have hbits : bitsOf (s.me.rx a).toNat 55 48 = 0xF0 := bitsOf_window _ hF0 (by omega)
  have hs : firstCause (if bitsOf (s.me.rx a).toNat 55 48 = 0xF0 then s.stopsAt (.wait d (s.me.rx b) (s.me.rx d)) (s.me.rx a) (atomBytes w) else []) = none := by
    rw [if_pos hbits]
    simp only [State.stopsAt, hw, State.accessAt]
    exact State.bankStops_of_bankReady ⟨hport, fun h => absurd h (by simp [BankOp.isStore])⟩
  show finish s (s.waitForm d a b w) = _
  unfold State.waitForm
  dsimp only
  rw [State.memForm_of_memFree hf hs, hw]
  simp only [hbits, ne_eq, not_true_eq_false, if_false]
  rfl

/-- What a NOTIFY does that nothing holds back. -/
theorem exec_notify {d a : BitVec 5} {all : Bool} {s : State} {cl off : Nat} (hf : s.memFree [a] [d]) (hw : s.window s.cur (s.me.rx a) 4 4 = .ok (.bank cl off))
    (hF0 : (s.me.rx a).toNat / 2 ^ 48 = 0xF0) (hfence : s.fenceWait s.cur 3 = none)
    (hr : s.bankReady { op := .notify d all, cl := cl, tags := false, off := off, size := 4, serial := s.me.serial }) :
    exec (.notify d a all) s =
      .next ((s.bankIssue { op := .notify d all, cl := cl, tags := false, off := off, size := 4, serial := s.me.serial } (some (.x d))).adv.issued false) := by
  have hbits : bitsOf (s.me.rx a).toNat 55 48 = 0xF0 := bitsOf_window _ hF0 (by omega)
  have hs : firstCause (if bitsOf (s.me.rx a).toNat 55 48 = 0xF0 then s.releaseWait :: s.stopsAt (.notify d all) (s.me.rx a) 4 else []) = none := by
    rw [if_pos hbits, State.releaseWait, hfence, firstCause_cons_none]
    simp only [State.stopsAt, hw, State.accessAt]
    exact State.bankStops_of_bankReady hr
  show finish s (s.notifyForm d a all) = _
  unfold State.notifyForm
  dsimp only
  rw [State.memForm_of_memFree hf hs, hw]
  simp only [hbits, ne_eq, not_true_eq_false, if_false]
  rfl

/-- Settles O13: the three ends of a WAIT, and the waiters that a NOTIFY removes. -/
theorem waitersSleepAndWake : Obligations.WaitersSleepAndWake := by
  refine ⟨⟨?_, ?_⟩, ?_, ?_⟩
  · intro d a b w s cl off n hf hw hF0 acc hport
    have hme : ((s.bankIssue acc none).upd fun c => { c with act := .waitWord d none, acq := some .slotWait }).me =
        { s.me with pend := s.me.pend ++ [acc], act := .waitWord d none, acq := some .slotWait } := by
      rw [State.upd_me, State.bankIssue, State.upd_me]
    refine ⟨((s.bankIssue acc none).upd fun c => { c with act := .waitWord d none, acq := some .slotWait }).issued false, ?_, ?_, ?_, ?_, ?_, fun m => ?_, ?_⟩
    · exact exec_wait hf hw hF0 hport
    · rw [State.issued_me, hme]
    · rw [State.issued_me, hme]
    · rw [State.issued_me, hme]
    · show Ctx.pend _ = _
      rw [State.issued_me, hme]
    · rw [State.issued_me, hme]
      rfl
    · exact State.sameBytes_of_bytes (by simp)
  · intro s cl sid a l d v u hserve hop htag c old wakes
    obtain ⟨-, -, hpend, -, -⟩ := id hserve
    have hsid : (s.unqueued sid).ctx sid = { s.ctx sid with pend := l } := by
      rw [State.modCtx_self, hpend]
      rfl
    have hold : (s.unqueued sid).bankRead a = old := by
      simp only [State.bankRead, htag, Bool.false_eq_true, if_false]
      rfl
    have hperf : s.grantAccess sid a =
        if old ≠ v.toNat % 2 ^ (8 * a.size) then (s.unqueued sid).modCtx sid fun c => c.wake d 1 s.now
        else if u = 0 then (s.unqueued sid).modCtx sid fun c => c.wake d 2 s.now
        else ((s.unqueued sid).modClu a.cl fun k => { k with waiters := k.waiters ++ [{ sid := sid, off := a.off }] }).modCtx sid fun c =>
          { c with act := .waitWord d (if u = BitVec.allOnes 64 then none else some (s.now + u.toNat)) } := by
      rw [State.grantAccess_eq (by simp [hop]), State.bankPerform, hop, hold]
      rfl
    have hwake : ∀ k : Word, s.grantAccess sid a = ((s.unqueued sid).modCtx sid fun c => c.wake d k s.now) → wakes k := by
      intro k hk
      have hctx : ((s.unqueued sid).modCtx sid fun c => c.wake d k s.now).ctx sid = ({ s.ctx sid with pend := l } : Ctx).wake d k s.now := by
        rw [State.modCtx_self, hsid]
      refine State.serve_own hserve hk (fun j hj => ?_) ⟨?_, ?_, ?_, ?_, ?_⟩
      · rw [State.modCtx_other _ _ _ _ hj, State.modCtx_other _ _ _ _ hj]
      · rw [State.modClu_ctx, hctx, Ctx.wake_pend]
      · rw [State.modClu_ctx, hctx, Ctx.wake_act]
      · rw [State.modClu_ctx, hctx, Ctx.wake_pc]
      · rw [State.modClu_ctx, hctx]
        exact Ctx.wake_getsX { s.ctx sid with pend := l } d k s.now
      · exact State.sameBytes_slot rfl
    refine ⟨fun hne => hwake 1 ?_, fun he hu => hwake 2 ?_, fun he hu => ?_⟩
    · rw [hperf, if_pos hne]
    · rw [hperf, if_neg (by simpa using he), if_pos hu]
    · rw [if_neg (by simpa using he), if_neg hu] at hperf
      have hctx : (s.grantAccess sid a).ctx sid =
          { s.ctx sid with pend := l, act := .waitWord d (if u = BitVec.allOnes 64 then none else some (s.now + u.toNat)) } := by
        rw [hperf, State.modCtx_self, State.modClu_ctx, hsid]
      have hwait : ((s.grantAccess sid a).clu a.cl).waiters = (s.clu a.cl).waiters ++ [{ sid := sid, off := a.off }] := by
        rw [hperf, State.modCtx_clu, State.modClu_clu, if_pos rfl]
        rfl
      refine State.serve_own hserve rfl (fun j hj => ?_) ⟨?_, ?_, ?_, ?_, fun m => ?_, ?_⟩
      · rw [hperf, State.modCtx_other _ _ _ _ hj, State.modClu_ctx, State.modCtx_other _ _ _ _ hj]
      · rw [State.modClu_ctx, hctx]
      · rw [State.modClu_ctx, hctx]
      · rw [State.modClu_ctx, hctx]
      · exact State.waiters_slot hwait
      · rw [State.modClu_ctx, hctx]
        rfl
      · exact State.sameBytes_slot (by rw [hperf, State.bytes_modCtx]; exact State.bytes_modClu _ _ _ rfl)
  · intro d a all s cl off hf hw hF0 hfence acc hr
    obtain ⟨h1, h2, h3, h4, h5, -⟩ := State.atomicBank_issued s acc d
    exact ⟨_, exec_notify hf hw hF0 hfence hr, h1, h2, h3, h4, h5⟩
  · intro s cl sid a l d all hserve hop ws
    obtain ⟨-, -, hpend, -, -⟩ := id hserve
    generalize hv : ((s.unqueued sid).modClu a.cl fun k => { k with waiters := k.waiters.filter fun w => !ws.contains w }) = v
    have hvctx : ∀ j, j ≠ sid → v.ctx j = s.ctx j := fun j hj => by
      rw [← hv, State.modClu_ctx]
      exact State.modCtx_other s sid j _ hj
    have hvsid : v.ctx sid = { s.ctx sid with pend := l } := by
      rw [← hv, State.modClu_ctx, State.modCtx_self, hpend]
      rfl
    have hvnow : v.now = s.now := by rw [← hv]; rfl
    have hvw : (v.clu a.cl).waiters = (s.clu a.cl).waiters.filter fun w => !ws.contains w := by
      rw [← hv, State.modClu_clu, if_pos rfl]
      rfl
    have hperf : s.grantAccess sid a = (v.wakeAll ws).deliverAt sid a.serial (s.now + bankLatency) (.x d) (wordOfInt (ws.length : Nat)) := by
      rw [State.grantAccess_eq (by simp [hop]), State.bankPerform, hop, wordOfInt_natCast, ← hv]
      rfl
    have hlt : (v.wakeAll ws).now < s.now + bankLatency := by rw [State.wakeAll_now, hvnow]; simp [bankLatency]
    obtain ⟨x, m, b, lt, q, r, w, hctx⟩ := State.deliverAt_ctx (v.wakeAll ws) sid a.serial (s.now + bankLatency) (.x d) (wordOfInt (ws.length : Nat))
    have hgive := State.deliverAt_gives hlt sid a.serial (.x d) (wordOfInt (ws.length : Nat))
    refine State.serve_own hserve rfl (fun j hj => ?_) ⟨?_, ?_, ?_, fun hall => ?_, fun w hw hne r u hact => ?_⟩
    · rw [hperf, State.deliverAt_other _ _ _ _ _ _ hj, State.wakeAll_pend, hvctx j hj]
    · rw [State.modClu_ctx, hperf, hctx]
      exact (State.wakeAll_pend ..).trans (by rw [hvsid])
    · refine State.waiters_slot ?_
      rw [hperf, State.deliverAt_clu, State.wakeAll_clu, hvw]
    · exact State.sameBytes_slot (by rw [hperf, State.bytes_deliverAt, State.bytes_wakeAll, ← hv]; exact State.bytes_modClu _ _ _ rfl)
    · rw [State.modClu_ctx, hperf]
      refine Ctx.gives_congr hgive (fun m => ?_) (fun _ => rfl) (fun _ h => h) rfl
      rw [State.wakeAll_notIn v hall, hvsid]
      rfl
    · have hwctx : (s.grantAccess sid a).ctx w.sid = (s.ctx w.sid).wake r 0 s.now := by
        rw [hperf, State.deliverAt_other _ _ _ _ _ _ hne, State.wakeAll_waiting v hw (u := u) (by rw [hvctx _ hne, hact]), hvctx _ hne, hvnow]
      rw [State.modClu_ctx, hwctx]
      exact ⟨Ctx.wake_act .., Ctx.wake_pc .., Ctx.wake_getsX _ r 0 s.now⟩

end Sys2Proof.Machine
end


section
/-!
PROOFS. Forms that complete at the bank unit, and the matrix control forms (chapter 9).
-/

namespace Sys2Proof.Machine

/-! The port: an instruction that issues after a TRET also ends the MPROG of the MRSTR that its context has there. -/

/-- MTEST enters the port behind the MRSTR, which its issue marks. -/
theorem returnedState_mtest_port : ∃ t, exec .mtest returnedState = .next t ∧ (t.core 0).port.map PortEntry.clearV = [true, true] := by
  refine ⟨_, rfl, ?_⟩
  decide +kernel

/-- Refutes O16: after a TRET the port holds, when a port instruction has entered it, not the entries that it held before and one more: the context's MRSTR
is to restore MPROG with V clear. -/
theorem not_portInstructionsEnterThePort : ¬ Obligations.PortInstructionsEnterThePort := by
  unfold Obligations.PortInstructionsEnterThePort
  intro h
  obtain ⟨-, -, hmtest, -⟩ := h returnedState (by decide +kernel)
  obtain ⟨t, ht, -, -, -, -, -, p, -, -, -, -, -, -, hport⟩ := hmtest (by decide +kernel)
  obtain ⟨t', ht', hmark⟩ := returnedState_mtest_port
  obtain rfl : t = t' := Host.Outcome.next.inj (ht.symm.trans ht')
  rw [show (t.core 0).port = (returnedState.core 0).port ++ [p] from hport, List.map_append] at hmark
  have hhead : ((returnedState.core 0).port.map PortEntry.clearV).head? = some true := by
    rw [← List.head?_append_of_ne_nil _ (by decide +kernel), hmark]
    rfl
  exact absurd hhead (by decide +kernel)

/-! Forms that complete at the bank unit or when their record has come: what is left once their meaning has acted. -/

/-- What the service of a form's access leaves, of the state that the form's meaning answers. -/
def State.afterForm (s u : State) (cl sid : Nat) (i : Instr) : State :=
  ({ u.modCtx sid fun c => { c.unstall with pause := formPause i true s.now } with cur := s.cur } : State).modClu cl fun c =>
    { c with sptr := (slotLocal sid + 1) % 10, slotAt := s.now + 1 }

theorem Ctx.unstall_eq {c : Ctx} {k : Cause} (h : c.act = .stalled k) : c.unstall = { c with act := .running } := by
  unfold Ctx.unstall
  rw [h]

/-- A form whose meaning acts goes on at what its meaning leaves. -/
theorem State.completeForm_ok {s t u : State} {sid v : Nat} {i : Instr} {bank : Bool} (h : formPerform i { t with cur := sid } v = .ok u) (hcur : u.cur = sid) :
    s.completeForm t sid i v bank = { u.modCtx sid fun c => { c.unstall with pause := formPause i bank s.now } with cur := s.cur } := by
  unfold State.completeForm
  rw [h]
  simp only [settle, State.upd, hcur]
  exact congrArg (fun w : State => { w with cur := s.cur }) (State.modCtx_modCtx u sid Ctx.unstall fun c => { c with pause := formPause i bank s.now })

/-- The bytes that a form at the bank unit finds at its access. -/
def State.formValue (s : State) (a : BankAccess) : Nat := if a.tags then 0 else s.spadRead a.cl a.off a.size

/-- The service of a form whose meaning acts. -/
theorem State.serves_ok {s u : State} {cl sid : Nat} {a : BankAccess} {i : Instr} {p : State → Prop} (h : s.servesForm cl sid a i)
    (hf : formPerform i ((s.unqueued sid).runs sid) (s.formValue a) = .ok u) (hcur : u.cur = sid) (ho : ∀ j, j ≠ sid → (u.ctx j).pend = (s.ctx j).pend)
    (hp : p (s.afterForm u cl sid i)) : s.does (.scalarSlotGrant cl) p := by
  obtain ⟨hserve, hop, -⟩ := h
  have hg : s.grantAccess sid a = { u.modCtx sid fun c => { c.unstall with pause := formPause i true s.now } with cur := s.cur } := by
    rw [State.grantAccess, hop]
    exact State.completeForm_ok hf hcur
  refine State.serve_own hserve hg (fun j hj => ?_) hp
  exact (congrArg Ctx.pend (State.modCtx_other u sid j (fun c => { c.unstall with pause := formPause i true s.now }) hj)).trans (ho j hj)

section
variable (s u : State) (cl sid : Nat) (i : Instr)

theorem State.afterForm_self : (s.afterForm u cl sid i).ctx sid = { (u.ctx sid).unstall with pause := formPause i true s.now } :=
  State.modCtx_self u sid fun c => { c.unstall with pause := formPause i true s.now }

theorem State.afterForm_other {j : Nat} (h : j ≠ sid) : (s.afterForm u cl sid i).ctx j = u.ctx j :=
  State.modCtx_other u sid j (fun c => { c.unstall with pause := formPause i true s.now }) h

@[simp] theorem State.afterForm_core (ci : Nat) : (s.afterForm u cl sid i).core ci = u.core ci := rfl

@[simp] theorem State.afterForm_reqs : (s.afterForm u cl sid i).reqs = u.reqs := rfl

theorem State.afterForm_clu (c : Nat) : ∃ p t, (s.afterForm u cl sid i).clu c = { u.clu c with sptr := p, slotAt := t } := by
  unfold State.afterForm
  rw [State.modClu_clu]
  split
  · next h => exact ⟨_, _, by rw [h]; rfl⟩
  · exact ⟨_, _, rfl⟩

@[simp] theorem State.afterForm_bytes : (s.afterForm u cl sid i).bytes = u.bytes := State.bytes_modClu _ _ _ rfl

end

/-- A form that has acted, and whose PC its meaning has moved on, is done. -/
theorem State.formDone_afterForm {s u : State} {cl sid : Nat} {i : Instr} {k : Cause} {l : List BankAccess} (hact : (u.ctx sid).act = .stalled k)
    (hpc : (u.ctx sid).pc = pcMoved (s.ctx sid).pc 1) (hpend : (u.ctx sid).pend = l) : s.formDone (s.afterForm u cl sid i) sid l := by
  have h := State.afterForm_self s u cl sid i
  rw [Ctx.unstall_eq hact] at h
  exact ⟨by rw [h], by rw [h]; exact hpc, by rw [h]; exact hpend⟩

theorem State.afterForm_rx {s u : State} {cl sid : Nat} {i : Instr} {k : Cause} (hact : (u.ctx sid).act = .stalled k) (m : BitVec 5) :
    ((s.afterForm u cl sid i).ctx sid).rx m = (u.ctx sid).rx m := by
  rw [State.afterForm_self, Ctx.unstall_eq hact]
  rfl

/-! Forms whose meaning traps. -/

theorem State.trapBlock_congr {s t : State} {sid : Nat} (hr : (t.ctx sid).replay = (s.ctx sid).replay)
    (hp : (t.core (slotCore sid)).port = (s.core (slotCore sid)).port) (hm : (t.ctx sid).inmeet = false) (hs : s.trapBlock sid = none) : t.trapBlock sid = none := by
  have hreplay : t.replayHolds sid = s.replayHolds sid := by
    unfold State.replayHolds
    rw [hr]
  have hport : t.portPending sid = s.portPending sid := by
    unfold State.portPending
    rw [hp]
  unfold State.trapBlock at hs ⊢
  rw [hreplay, hport, hm, Bool.false_and]
  split
  · next h => rw [if_pos h] at hs; cases hs
  · next h =>
    rw [if_neg h] at hs
    split
    · next h' => rw [if_pos h'] at hs; cases hs
    · rfl

/-- What a trap at home leaves: the context in its handler, and of all else no more than the frame's place in the sequencer. -/
theorem State.trapOf_traps {s : State} {sid : Nat} (h : s.trapsNow sid) (t : Trap) (v : Word) (epc : BitVec 56) :
    (s.ctx sid).traps ((s.trapOf sid t v epc).ctx sid) t v epc ∧ ((s.trapOf sid t v epc).ctx sid).pend = (s.ctx sid).pend ∧ (s.trapOf sid t v epc).bytes = s.bytes ∧
      (∀ j, j ≠ sid → (s.trapOf sid t v epc).ctx j = s.ctx j) ∧ (∀ ci, ∃ q, (s.trapOf sid t v epc).core ci = { s.core ci with seq := q }) ∧
      ∀ c, (s.trapOf sid t v epc).clu c = s.clu c := by
  have htrap := State.trapAs_enters s sid false false t v epc h.1 h.2
  have hself : (s.trapOf sid t v epc).ctx sid = { (s.ctx sid).trapEnter false t v epc with
      charge := .issue, lastIssue := (s.ctx sid).lastIssue, pause := some (.redirect, s.redirectEnd sid false) } := by
    rw [State.trapOf, htrap, State.modCtx_self]
    rfl
  refine ⟨?_, by rw [hself]; rfl, ?_, fun j hj => ?_, fun ci => ?_, fun c => ?_⟩
  · rw [hself]
    refine ⟨rfl, rfl, rfl, rfl, rfl, ?_, rfl, rfl, rfl, fun m => rfl⟩
    exact (wordOfInt_natCast _).symm
  · rw [State.trapOf, htrap, State.bytes_modCtx]
    rfl
  · rw [State.trapOf, htrap]
    exact State.modCtx_other _ _ _ _ hj
  · rw [State.trapOf, htrap]
    exact s.stopFrame_core sid ci
  · rw [State.trapOf, htrap]
    rfl

theorem State.completeForm_trap {s t : State} {sid v : Nat} {i : Instr} {bank : Bool} {k : Trap} {w : Word} (h : formPerform i { t with cur := sid } v = .trap k w) :
    s.completeForm t sid i v bank = { (({ t with cur := sid } : State).modCtx sid fun c => { c with act := .running }).trapOf sid k w (t.ctx sid).pc with cur := s.cur } := by
  unfold State.completeForm
  rw [h]
  rfl

/-- A form that traps when its record has come, or its access is served: the trap of its context, and no more. -/
theorem State.completeForm_traps {s t : State} {sid v : Nat} {i : Instr} {bank : Bool} {k : Trap} {w : Word} {pend : List BankAccess}
    (h : formPerform i { t with cur := sid } v = .trap k w) (hn : s.trapsNow sid) (hsid : t.ctx sid = { s.ctx sid with pend := pend })
    (hcore : ∀ ci, t.core ci = s.core ci) :
    let u := s.completeForm t sid i v bank
    (s.ctx sid).traps (u.ctx sid) k w (s.ctx sid).pc ∧ (u.ctx sid).pend = pend ∧ u.bytes = t.bytes ∧ (∀ j, j ≠ sid → u.ctx j = t.ctx j) ∧
      (∀ ci, ∃ q, u.core ci = { s.core ci with seq := q }) ∧ ∀ c, u.clu c = t.clu c := by
  intro u
  have hu : u = _ := State.completeForm_trap h
  generalize hz : (({ t with cur := sid } : State).modCtx sid fun c => { c with act := .running }) = z at hu
  have hzsid : z.ctx sid = { s.ctx sid with pend := pend, act := .running } := by
    rw [← hz, State.modCtx_self]
    show { t.ctx sid with act := .running } = _
    rw [hsid]
  have hzcore : ∀ ci, z.core ci = s.core ci := fun ci => by
    rw [← hz, ← hcore ci]
    rfl
  have hinmeet : (z.ctx sid).inmeet = false := by
    rw [hzsid]
    exact hn.2
  have hzn : z.trapsNow sid := ⟨State.trapBlock_congr (by rw [hzsid]) (by rw [hzcore]) hinmeet hn.1, hinmeet⟩
  obtain ⟨h1, h2, h3, h4, h5, h6⟩ := State.trapOf_traps hzn k w (t.ctx sid).pc
  have hpc : (t.ctx sid).pc = (s.ctx sid).pc := by rw [hsid]
  rw [hu]
  refine ⟨?_, h2.trans (by rw [hzsid]), ?_, fun j hj => (h4 j hj).trans ?_, fun ci => ?_, fun c => (h6 c).trans ?_⟩
  · rw [hzsid] at h1
    rw [← hpc]
    exact h1
  · refine h3.trans ?_
    rw [← hz]
    rfl
  · rw [← hz]
    exact State.modCtx_other _ sid j _ hj
  · obtain ⟨q, hq⟩ := h5 ci
    exact ⟨q, hq.trans (by rw [hzcore])⟩
  · rw [← hz]
    rfl

/-- The service of a form whose meaning traps. -/
theorem State.serves_trap {s : State} {cl sid : Nat} {a : BankAccess} {i : Instr} {k : Trap} {w : Word} {p : State → Prop} (h : s.servesForm cl sid a i)
    (hf : formPerform i ((s.unqueued sid).runs sid) (s.formValue a) = .trap k w) (hn : s.trapsNow sid)
    (hp : ∀ t, (s.ctx sid).traps (t.ctx sid) k w (s.ctx sid).pc → s.sameBytes t → (∀ ci, ∃ q, t.core ci = { s.core ci with seq := q }) →
      (∀ c n, t.tag c n = s.tag c n) → p t) : s.does (.scalarSlotGrant cl) p := by
  obtain ⟨hserve, hop, -⟩ := h
  obtain ⟨-, -, hpend, -, -⟩ := id hserve
  have hg : s.grantAccess sid a = s.completeForm (s.unqueued sid) sid i (s.formValue a) true := by
    rw [State.grantAccess, hop]
    rfl
  have hsid : (s.unqueued sid).ctx sid = { s.ctx sid with pend := [] } := by
    rw [State.modCtx_self, hpend]
    rfl
  obtain ⟨h1, h2, h3, h4, h5, h6⟩ := State.completeForm_traps (bank := true) hf hn hsid fun _ => rfl
  refine State.serve_own hserve hg (fun j hj => ?_) (hp _ ?_ ?_ h5 fun c n => ?_)
  · rw [h4 j hj, State.modCtx_other s sid j _ hj]
  · exact h1
  · exact State.sameBytes_slot h3
  · refine congrArg (Tab.get 0 · n) ?_
    rw [State.modClu_clu]
    split
    · next e => rw [e, h6]; rfl
    · rw [h6]; rfl

/-! Matrix forms that their checks let through. -/

theorem Ctx.awaitsFor_eq_none {c : Ctx} {rs ds : List Nat} : c.awaitsFor rs ds = none ↔ c.awaits (rs ++ ds) = none := by
  simp [Ctx.awaits, Ctx.awaitsFor]

theorem State.holds_eq_none {s : State} {rs : List Nat} {chs : List (BitVec 5)} {wr : List Nat} (h : s.holds rs chs wr = none) :
    s.me.awaitsFor rs wr = none ∧ s.others chs wr = none := by
  unfold State.holds at h
  split at h
  · cases h
  · next hw => exact ⟨hw, h⟩

/-- A matrix form that is ready performs its body, once nothing more holds it back. -/
theorem State.matrixForm_ready {s : State} {i : Instr} {rs : List (BitVec 5)} {shs : List (BitVec 3)} {more : List (Option Cause)} (h : s.matrixReady i rs shs)
    (hs : shapeUses i ++ shapeDst i = shs) (hm : firstCause more = none) (r : Res) : s.matrixForm i rs more r = r := by
  obtain ⟨h1, h2, h3, h4, h5⟩ := h
  obtain ⟨h6, h7⟩ := State.holds_eq_none h3
  have hw : s.me.awaitsFor (rs.map BitVec.toNat ++ (shapeUses i).map shapeCode) ((shapeDst i).map shapeCode) = none := by
    rw [Ctx.awaitsFor_eq_none, List.append_assoc, ← List.map_append, hs]
    exact h6
  have hacq : (if matrixAccess i then s.me.acq else none) = none := by
    split
    · next h => exact h4 h
    · rfl
  have hrst : (usesShapes i && s.restoringMatrix) = false := by
    cases hu : usesShapes i with
    | false => rfl
    | true => exact h5 hu
  simp only [State.matrixForm, h1, hw, State.matrixStops, h7, h2, hacq, hrst, firstCause_cons_none, hm, Bool.false_eq_true, if_false]

/-- The owner of the matrix state after a form of its context (R7). -/
theorem State.takeOwner_owner {s : State} (h : s.ownerWait = false) : (s.takeOwner.core s.here).owner = some s.cur := by
  unfold State.takeOwner State.updCore State.here
  rw [State.modCore_core, if_pos rfl]
  unfold State.ownerWait State.myCore at h
  cases ho : (s.core (slotCore s.cur)).owner with
  | none => rfl
  | some o =>
    rw [ho] at h
    rw [ho]
    simpa using h

theorem State.issued_owner (s : State) (p : Bool) (ci : Nat) : ((s.issued p).core ci).owner = (s.core ci).owner := by
  have h := congrArg CoreSt.owner (State.issued_core s p ci)
  exact h

@[simp] theorem State.takeOwner_ctx (s : State) (j : Nat) : s.takeOwner.ctx j = s.ctx j := rfl
@[simp] theorem State.takeOwner_me (s : State) : s.takeOwner.me = s.me := rfl

/-- What a form leaves whose access waits at the bank unit, and whose context waits for it. -/
theorem State.waitsAtBank_issued {s u : State} {a : BankAccess} (p : Bool) (hu : u.me = { s.me with pend := s.me.pend ++ [a], act := .stalled .slotWait })
    (hb : u.bytes = s.bytes) : s.waitsAtBank (u.issued p) a := by
  refine ⟨?_, ?_, ?_, ?_, fun m => ?_, State.sameBytes_of_bytes (by simp [hb])⟩
  · rw [State.issued_me, hu]
  · rw [State.issued_me, hu]
  · rw [State.issued_me, hu]
  · show Ctx.pend _ = _
    rw [State.issued_me, hu]
  · rw [State.issued_me, hu]
    rfl

/-- What a form leaves that goes on at the next word, and of whose context beside only what it waits for and its pending accesses have changed. -/
theorem State.advances_issued {s u : State} {pend : List BankAccess} {busy : List (Nat × Cause)} (hu : u.me = { s.me with pend := pend, busy := busy, pc := pcMoved s.me.pc 1 })
    (hcur : u.cur = s.cur) (hnow : u.now = s.now) (hb : u.bytes = s.bytes) (p : Bool) :
    s.completes (u.issued p) (pcMoved s.me.pc 1) ∧ s.sameBytes (u.issued p) ∧ s.sameX (u.issued p) ∧ (u.issued p).me.pend = pend ∧ (u.issued p).me.busy = busy := by
  refine ⟨State.completes_issued p hcur hnow (by rw [hu]) (by rw [hu]), State.sameBytes_of_bytes (by simp [hb]), fun m => ?_, ?_, ?_⟩
  · rw [State.issued_me, hu]
    rfl
  · rw [State.issued_me, hu]
  · rw [State.issued_me, hu]

theorem bitsOf_block {a : Word} (h : a.toNat / 2 ^ 48 = 0xF0 ∨ a.toNat / 2 ^ 48 = 0xF1) : ¬(bitsOf a.toNat 55 48 ≠ 0xF0 ∧ bitsOf a.toNat 55 48 ≠ 0xF1) := by
  rintro ⟨h0, h1⟩
  rcases h with h | h
  · exact h0 (bitsOf_window _ h (by omega))
  · exact h1 (bitsOf_window _ h (by omega))

/-- What a form waits for that reads a block of the scratchpad. -/
theorem State.blockStops_bank {s : State} {i : Instr} {a : Word} {n cl off : Nat} {g : Bool} (h : s.blockAt a n cl off) : firstCause (s.blockStops i a n g) = none := by
  obtain ⟨hw, hF, hp⟩ := h
  simp only [State.blockStops, hw, if_neg (bitsOf_block hF), State.portWaits, Bool.false_eq_true, if_false, hp]
  rfl

theorem State.blockStops_global {s : State} {i : Instr} {a : Word} {n va : Nat} {g : Bool} (hw : s.window s.cur a n n = .ok (.global va))
    (h : s.atomicOverlap s.cur s.me.serial va n = false) : firstCause (s.blockStops i a n g) = none := by
  simp only [State.blockStops, hw, h, Bool.and_false]
  rfl

/-- A form that reads its block from the scratchpad. -/
theorem State.blockForm_bank {s : State} {i : Instr} {a : Word} {n cl off : Nat} {g : Bool} (h : s.blockAt a n cl off) :
    s.blockForm i a n g = .ok (s.upd fun c => { c with pend := c.pend ++ [s.blockAccess i cl off n], act := .stalled .slotWait }) := by
  obtain ⟨hw, hF, -⟩ := h
  simp only [State.blockForm, hw, if_neg (bitsOf_block hF)]
  rfl

theorem State.blockForm_global {s : State} {i : Instr} {a : Word} {n va : Nat} (hw : s.window s.cur a n n = .ok (.global va)) :
    s.blockForm i a n true = .ok ((s.request (.form i) .translating va n 0 0 0 0).upd fun c => { c with act := .stalled .globalWait }) := by
  simp only [State.blockForm, hw, Bool.not_true, Bool.false_eq_true, if_false]

/-- What a form leaves whose block is asked for. -/
theorem State.requestForm_issued {s u : State} {i : Instr} {va n : Nat} {p : Bool} (hu : u.me = { s.me with act := .stalled .globalWait })
    (hb : u.bytes = s.bytes) (hr : u.reqs = (s.request (.form i) .translating va n 0 0 0 0).reqs) (hn : u.nextId = s.nextId + 1) :
    (u.issued p).me.pc = s.me.pc ∧ (u.issued p).me.act = .stalled .globalWait ∧ s.sameBytes (u.issued p) ∧ s.sameX (u.issued p) ∧
      s.appendsRequest (u.issued p) fun r => r.kind = .form i ∧ r.stage = .translating ∧ r.va = va ∧ r.size = n := by
  refine ⟨?_, ?_, State.sameBytes_of_bytes (by simp [hb]), fun m => ?_, ?_⟩
  · rw [State.issued_me, hu]
  · rw [State.issued_me, hu]
  · rw [State.issued_me, hu]
    rfl
  · exact State.appendsRequest_of_reqs ((State.issued_reqs ..).trans hr) ((State.issued_nextId ..).trans hn) fun r e1 e2 e3 e4 _ _ _ _ _ => ⟨e1, e2, e3, e4⟩

/-! Shapes and formats. -/

/-- What a shape register reads as once its record has come. -/
theorem State.setShape_sh (s : State) (sid : Nat) (n : BitVec 3) (at_ v m : Nat) :
    Tab.get 0 ((s.setShape sid n at_ v).core (slotCore sid)).sh m = if m = n.toNat then shapeStored (BitVec.ofNat 128 v) else Tab.get 0 (s.core (slotCore sid)).sh m := by
  unfold State.setShape
  rw [State.modCtx_core, State.modCore_core, if_pos rfl]
  exact Tab.get_set ..

theorem State.setShape_pend (s : State) (sid : Nat) (n : BitVec 3) (at_ v j : Nat) : ((s.setShape sid n at_ v).ctx j).pend = (s.ctx j).pend := by
  unfold State.setShape
  rw [State.modCtx_ctx]
  split
  · next h =>
    rw [h]
    split <;> rfl
  · rfl

/-- What MFMT leaves once its record has come. -/
theorem fmtPerform_ok {i : Instr} {s : State} {v : Nat} (h : fmtOk v = true) : fmtPerform i s v = .ok ((s.takeOwner.updCore fun k => { k with fmt := fmtOf v }).adv) := by
  rw [fmtPerform, if_pos h]

theorem State.takeOwner_owner_of {s z : State} (hcur : z.cur = s.cur) (hcores : z.cores = s.cores) (h : s.ownerWait = false) :
    (z.takeOwner.core s.here).owner = some s.cur := by
  have hz : z.ownerWait = false := by
    rw [← h]
    unfold State.ownerWait State.myCore State.core
    rw [hcur, hcores]
  have hown := State.takeOwner_owner hz
  rwa [State.here, hcur] at hown

/-- MWAIT, with and without a port instruction that names its accumulator (R175). -/
theorem exec_mwait {c : BitVec 2} {s : State} (h : s.matrixReady (.mwait c) [] []) :
    exec (.mwait c) s = finish s (if s.myCore.port.any fun p => p.sid == s.cur && p.names c then .wait .matrixWait else .ok s.takeOwner.adv) :=
  congrArg (finish s) (State.matrixForm_ready h rfl rfl _)

/-- A form of the matrix owner that has moved on. -/
theorem State.ownedAdvance_issued {s u : State} (ho : s.ownerWait = false) (hu : u.me = { s.me with pc := pcMoved s.me.pc 1 }) (hcore : u.cores = s.takeOwner.cores)
    (hcur : u.cur = s.cur) (hnow : u.now = s.now) (hb : u.bytes = s.bytes) :
    s.completes (u.issued false) (pcMoved s.me.pc 1) ∧ ((u.issued false).core s.here).owner = some s.cur ∧ s.sameBytes (u.issued false) ∧ s.sameX (u.issued false) := by
  obtain ⟨h1, h2, h3, -⟩ := State.advances_issued hu hcur hnow hb false
  refine ⟨h1, ?_, h2, h3⟩
  rw [State.issued_owner, State.core, hcore]
  exact State.takeOwner_owner ho

/-- MWAIT issues, or waits. -/
theorem mwait_issues {c : BitVec 2} {s : State} (h : s.matrixReady (.mwait c) [] []) :
    ((∀ p ∈ (s.core s.here).port, p.sid = s.cur → p.names c = false) →
      ∃ t, exec (.mwait c) s = .next t ∧ s.completes t (pcMoved s.me.pc 1) ∧ (t.core s.here).owner = some s.cur ∧ s.sameBytes t ∧ s.sameX t) ∧
    ((∃ p ∈ (s.core s.here).port, p.sid = s.cur ∧ p.names c = true) → exec (.mwait c) s = .next (s.upd fun d => { d with charge := .matrixWait })) := by
  refine ⟨fun hno => ?_, fun hyes => ?_⟩
  · have hany : (s.myCore.port.any fun p => p.sid == s.cur && p.names c) = false := by
      rw [List.any_eq_false]
      intro p hp
      by_cases hsid : p.sid = s.cur
      · simp [hno p hp hsid]
      · simp [hsid]
    obtain ⟨h1, h2, h3, h4⟩ := State.ownedAdvance_issued (u := s.takeOwner.adv) h.2.1 (by rw [State.adv_me, State.takeOwner_me, ← pc_next]) rfl rfl rfl ((State.bytes_adv _).trans (State.bytes_takeOwner s))
    refine ⟨_, ?_, h1, h2, h3, h4⟩
    rw [exec_mwait h, hany]
    rfl
  · have hany : (s.myCore.port.any fun p => p.sid == s.cur && p.names c) = true := by
      obtain ⟨p, hp, hsid, hn⟩ := hyes
      exact List.any_eq_true.mpr ⟨p, hp, by simp [hsid, hn]⟩
    rw [exec_mwait h, hany]
    rfl

/-- MSHAPE asks for its record, of the scratchpad or of global memory (R176). -/
theorem mshape_issues {n : BitVec 3} {a : BitVec 5} {s : State} (h : s.matrixReady (.mshape n a) [a] [n]) (hm : s.memHolds = none) :
    (∀ cl off, s.blockAt (s.me.rx a) 16 cl off →
      ∃ t, exec (.mshape n a) s = .next t ∧ s.completes t (pcMoved s.me.pc 1) ∧ (t.core s.here).owner = some s.cur ∧ s.sameBytes t ∧ s.sameX t ∧
        s.queuesAccess t { op := .shape n, cl := cl, tags := false, off := off, size := 16, serial := s.me.serial } ∧ t.me.busy = s.me.busy ++ [(64 + n.toNat, .slotWait)]) ∧
    (∀ va, s.window s.cur (s.me.rx a) 16 16 = .ok (.global va) → s.atomicOverlap s.cur s.me.serial va 16 = false →
      ∃ t, exec (.mshape n a) s = .next t ∧ s.completes t (pcMoved s.me.pc 1) ∧ (t.core s.here).owner = some s.cur ∧ s.sameBytes t ∧ s.sameX t ∧
        s.appendsRequest t (fun r => r.kind = .shape n ∧ r.stage = .translating ∧ r.va = va ∧ r.size = 16) ∧ t.me.busy = s.me.busy ++ [(64 + n.toNat, .globalWait)]) := by
  have hexec : firstCause (s.blockStops (.mshape n a) (s.me.rx a) 16 true) = none → exec (.mshape n a) s = finish s (s.shapeAt n (s.me.rx a)).owned := fun hs =>
    congrArg (finish s) (State.matrixForm_ready h rfl (by rw [hm, firstCause_cons_none]; exact hs) _)
  refine ⟨fun cl off hblk => ?_, fun va hw hov => ?_⟩
  · generalize hacc : ({ op := .shape n, cl := cl, tags := false, off := off, size := 16, serial := s.me.serial } : BankAccess) = acc
    have hat : s.shapeAt n (s.me.rx a) = .ok ((s.bankIssue acc none).adv.upd fun c => { c with busy := c.busy ++ [(shapeCode n, .slotWait)] }) := by
      obtain ⟨hw, hF, -⟩ := hblk
      simp only [State.shapeAt, hw, if_neg (bitsOf_block hF), hacc]
    have hb : ((s.bankIssue acc none).adv.upd fun c => { c with busy := c.busy ++ [(shapeCode n, .slotWait)] }).bytes = s.bytes := by simp
    have hu : ((s.bankIssue acc none).adv.upd fun c => { c with busy := c.busy ++ [(shapeCode n, .slotWait)] }).me =
        { s.me with pend := s.me.pend ++ [acc], busy := s.me.busy ++ [(shapeCode n, .slotWait)], pc := pcMoved s.me.pc 1 } := by
      rw [State.upd_me, State.adv_me, State.bankIssue, State.upd_me, ← pc_next]
    have hcores : ((s.bankIssue acc none).adv.upd fun c => { c with busy := c.busy ++ [(shapeCode n, .slotWait)] }).cores = s.cores := by simp [State.bankIssue]
    have hcur : ((s.bankIssue acc none).adv.upd fun c => { c with busy := c.busy ++ [(shapeCode n, .slotWait)] }).cur = s.cur := by simp [State.bankIssue]
    have hnow : ((s.bankIssue acc none).adv.upd fun c => { c with busy := c.busy ++ [(shapeCode n, .slotWait)] }).now = s.now := by simp [State.bankIssue]
    generalize (s.bankIssue acc none).adv.upd (fun c => { c with busy := c.busy ++ [(shapeCode n, .slotWait)] }) = z at hat hb hu hcores hcur hnow
    obtain ⟨h1, h2, h3, h4, h5⟩ := State.advances_issued (u := z.takeOwner) hu hcur hnow ((State.bytes_takeOwner z).trans hb) false
    refine ⟨_, ?_, h1, ?_, h2, h3, h4, h5⟩
    · rw [hexec (State.blockStops_bank hblk), hat]
      rfl
    · rw [State.issued_owner]
      exact State.takeOwner_owner_of hcur hcores h.2.1
  · have hat : s.shapeAt n (s.me.rx a) = .ok ((s.request (.shape n) .translating va 16 0 0 0 0).adv.upd fun c => { c with busy := c.busy ++ [(shapeCode n, .globalWait)] }) := by
      simp only [State.shapeAt, hw]
    generalize hq : s.request (.shape n) .translating va 16 0 0 0 0 = q at hat
    have hqme : q.me = s.me := by rw [← hq]; rfl
    have hqcur : q.cur = s.cur := by rw [← hq]; rfl
    have hu : (q.adv.upd fun c => { c with busy := c.busy ++ [(shapeCode n, .globalWait)] }).takeOwner.me =
        { s.me with pend := s.me.pend, busy := s.me.busy ++ [(shapeCode n, .globalWait)], pc := pcMoved s.me.pc 1 } := by
      rw [State.takeOwner_me, State.upd_me, State.adv_me, hqme, ← pc_next]
    obtain ⟨h1, h2, h3, -, h5⟩ := State.advances_issued hu hqcur (by rw [← hq]; rfl) (by rw [← hq]; rfl) false
    refine ⟨_, ?_, h1, ?_, h2, h3, ?_, h5⟩
    · rw [hexec (State.blockStops_global hw hov), hat]
      rfl
    · rw [State.issued_owner]
      have hown := State.takeOwner_owner (s := q.adv.upd fun c => { c with busy := c.busy ++ [(shapeCode n, .globalWait)] }) (by rw [← hq]; exact h.2.1)
      have hcur : (q.adv.upd fun c => { c with busy := c.busy ++ [(shapeCode n, .globalWait)] }).cur = s.cur := hqcur
      rwa [State.here, hcur] at hown
    · refine State.appendsRequest_of_reqs (kind := .shape n) (st := .translating) (va := va) (n := 16) (pa := 0) (dt := 0) (be := 0) (e := 0) ?_ ?_ ?_
      · rw [State.issued_reqs, hq]
        rfl
      · rw [State.issued_nextId]
        show q.nextId = _
        rw [← hq]
        rfl
      · exact fun r e1 e2 e3 e4 _ _ _ _ _ => ⟨e1, e2, e3, e4⟩

/-- MFMT asks for its record, of the scratchpad or of global memory (R176). -/
theorem mfmt_issues {a : BitVec 5} {s : State} (h : s.matrixReady (.mfmt a) [a] []) (hm : s.memHolds = none) :
    (∀ cl off, s.blockAt (s.me.rx a) 64 cl off →
      ∃ t, exec (.mfmt a) s = .next t ∧ s.waitsAtBank t (s.blockAccess (.mfmt a) cl off 64) ∧ (t.core s.here).owner = some s.cur) ∧
    (∀ va, s.window s.cur (s.me.rx a) 64 64 = .ok (.global va) → s.atomicOverlap s.cur s.me.serial va 64 = false →
      ∃ t, exec (.mfmt a) s = .next t ∧ t.me.pc = s.me.pc ∧ t.me.act = .stalled .globalWait ∧ (t.core s.here).owner = some s.cur ∧ s.sameBytes t ∧ s.sameX t ∧
        s.appendsRequest t fun r => r.kind = .form (.mfmt a) ∧ r.stage = .translating ∧ r.va = va ∧ r.size = 64) := by
  have hexec : firstCause (s.blockStops (.mfmt a) (s.me.rx a) 64 true) = none →
      exec (.mfmt a) s = finish s (s.blockForm (.mfmt a) (s.me.rx a) 64 true).owned := fun hs =>
    congrArg (finish s) (State.matrixForm_ready h rfl (by rw [hm, firstCause_cons_none]; exact hs) _)
  refine ⟨fun cl off hblk => ?_, fun va hw hov => ?_⟩
  · generalize hv : (s.upd fun c => { c with pend := c.pend ++ [s.blockAccess (.mfmt a) cl off 64], act := .stalled .slotWait }) = v
    have hvme : v.takeOwner.me = { s.me with pend := s.me.pend ++ [s.blockAccess (.mfmt a) cl off 64], act := .stalled .slotWait } := by
      rw [State.takeOwner_me, ← hv, State.upd_me]
    refine ⟨_, ?_, State.waitsAtBank_issued false hvme ((State.bytes_takeOwner v).trans (by rw [← hv]; rfl)), ?_⟩
    · rw [hexec (State.blockStops_bank hblk), State.blockForm_bank hblk, hv]
      rfl
    · rw [State.issued_owner]
      have hown := State.takeOwner_owner (s := v) (by rw [← hv]; exact h.2.1)
      have hcur : v.cur = s.cur := by rw [← hv]; rfl
      rwa [State.here, hcur] at hown
  · generalize hv : ((s.request (.form (.mfmt a)) .translating va 64 0 0 0 0).upd fun c => { c with act := .stalled .globalWait }) = v
    have hvme : v.takeOwner.me = { s.me with act := .stalled .globalWait } := by
      rw [State.takeOwner_me, ← hv, State.upd_me]
      rfl
    obtain ⟨h1, h2, h3, h4, h5⟩ := State.requestForm_issued (p := false) (i := .mfmt a) (va := va) (n := 64) hvme ((State.bytes_takeOwner v).trans (by rw [← hv]; rfl)) (by rw [← hv]; rfl) (by rw [← hv]; rfl)
    refine ⟨_, ?_, h1, h2, ?_, h3, h4, h5⟩
    · rw [hexec (State.blockStops_global hw hov), State.blockForm_global hw, hv]
      rfl
    · rw [State.issued_owner]
      have hown := State.takeOwner_owner (s := v) (by rw [← hv]; exact h.2.1)
      have hcur : v.cur = s.cur := by rw [← hv]; rfl
      rwa [State.here, hcur] at hown

/-- The service of an MSHAPE's access. -/
theorem State.does_shape {s : State} {cl sid : Nat} {acc : BankAccess} {l : List BankAccess} {n : BitVec 3} (h : s.servesAlone cl sid acc l) (hop : acc.op = .shape n)
    (htag : acc.tags = false) : s.does (.scalarSlotGrant cl) fun t => (t.ctx sid).pend = l ∧ s.sameBytes t ∧
      ∀ m, Tab.get 0 (t.core (slotCore sid)).sh m =
        if m = n.toNat then shapeStored (BitVec.ofNat 128 (s.spadRead acc.cl acc.off acc.size)) else Tab.get 0 (s.core (slotCore sid)).sh m := by
  obtain ⟨-, -, hpend, -, -⟩ := id h
  have hg : s.grantAccess sid acc = (s.unqueued sid).setShape sid n (s.now + bankLatency) (s.spadRead acc.cl acc.off acc.size) := by
    rw [State.grantAccess_eq (by simp [hop]), State.bankPerform, hop]
    simp only [State.bankRead, htag, Bool.false_eq_true, if_false]
    rfl
  refine State.serve_own h hg (fun j hj => ?_) ⟨?_, ?_, fun m => ?_⟩
  · rw [State.setShape_pend, State.modCtx_other s sid j _ hj]
  · rw [State.modClu_ctx, State.setShape_pend, State.modCtx_self, hpend]
    rfl
  · exact State.sameBytes_slot (State.bytes_setShape ..)
  · rw [State.modClu_core, State.setShape_sh]
    rfl

/-- An answered MSHAPE. -/
theorem State.does_shapeBack {s : State} {sid : Nat} {r : Req} {n : BitVec 3} (h : s.loadBack sid = some r) (hk : r.kind = .shape n) :
    s.does (.globalLoadReturn sid) fun t => t.req r.id = none ∧ s.sameBytes t ∧
      ∀ m, Tab.get 0 (t.core (slotCore sid)).sh m = if m = n.toNat then shapeStored (BitVec.ofNat 128 r.data) else Tab.get 0 (s.core (slotCore sid)).sh m := by
  have hexec : exec (.globalLoadReturn sid) s = .next ((s.dropReq r.id).setShape sid n s.now r.data) := by
    show execGlobalLoadReturn sid s = _
    unfold execGlobalLoadReturn
    rw [h]
    simp only [hk]
  refine ⟨_, hexec, ?_, State.sameBytes_of_bytes (State.bytes_setShape ..), fun m => State.setShape_sh ..⟩
  show ((s.reqs.filter fun q => q.id ≠ r.id).find? fun q => q.id == r.id) = none
  rw [List.find?_eq_none]
  intro q hq
  simpa using (List.mem_filter.mp hq).2

/-- What MFMT's meaning leaves. -/
theorem State.mfmt_state {w : State} {f : FmtCtx} (ho : w.myCore.owner = some w.cur) :
    let u := (w.takeOwner.updCore fun k => { k with fmt := f }).adv
    u.cur = w.cur ∧ (u.ctx w.cur) = { w.ctx w.cur with pc := pcMoved (w.ctx w.cur).pc 1 } ∧ (∀ j, j ≠ w.cur → u.ctx j = w.ctx j) ∧ u.bytes = w.bytes ∧
      (u.core (slotCore w.cur)).fmt = f := by
  intro u
  refine ⟨rfl, ?_, fun j hj => ?_, ?_, ?_⟩
  · rw [← pc_next]
    exact State.adv_me (w.takeOwner.updCore fun k => { k with fmt := f })
  · exact State.adv_other _ _ hj
  · simp [u]
  · simp only [u, State.adv_core, State.updCore]
    rw [State.modCore_core, if_pos (show slotCore w.cur = slotCore w.takeOwner.cur from rfl)]

/-- MFMT at its record (R176). -/
theorem State.does_fmt {s : State} {cl sid : Nat} {acc : BankAccess} {a : BitVec 5} (h : s.servesForm cl sid acc (.mfmt a)) (htag : acc.tags = false)
    (ho : (s.core (slotCore sid)).owner = some sid) :
    (fmtOk (s.spadRead acc.cl acc.off acc.size) = true → s.does (.scalarSlotGrant cl) fun t =>
      s.formDone t sid [] ∧ (t.core (slotCore sid)).fmt = fmtOf (s.spadRead acc.cl acc.off acc.size) ∧ s.sameBytes t ∧ (s.ctx sid).sameX (t.ctx sid)) ∧
    (fmtOk (s.spadRead acc.cl acc.off acc.size) = false → s.trapsNow sid → s.does (.scalarSlotGrant cl) fun t =>
      (s.ctx sid).traps (t.ctx sid) .formatInvalid (wordOf (.mfmt a)) (s.ctx sid).pc ∧ s.sameBytes t ∧ (t.core (slotCore sid)).fmt = (s.core (slotCore sid)).fmt) := by
  have hv : s.formValue acc = s.spadRead acc.cl acc.off acc.size := by
    rw [State.formValue, htag]
    rfl
  obtain ⟨hserve, -, hact⟩ := id h
  obtain ⟨-, -, hpend, -, -⟩ := id hserve
  have hsid : (s.unqueued sid).ctx sid = { s.ctx sid with pend := [] } := by
    rw [State.modCtx_self, hpend]
    rfl
  refine ⟨fun hok => ?_, fun hbad hn => ?_⟩
  · obtain ⟨hcur, hctx, hother, hb, hfmt⟩ := State.mfmt_state (w := (s.unqueued sid).runs sid) (f := fmtOf (s.spadRead acc.cl acc.off acc.size)) ho
    have hf : formPerform (.mfmt a) ((s.unqueued sid).runs sid) (s.formValue acc) = _ := (congrArg _ hv).trans (fmtPerform_ok hok)
    generalize ((((s.unqueued sid).runs sid).takeOwner.updCore fun k => { k with fmt := fmtOf (s.spadRead acc.cl acc.off acc.size) }).adv) = u at hf hcur hctx hother hb hfmt
    have hctx' : u.ctx sid = { s.ctx sid with pend := [], pc := pcMoved (s.ctx sid).pc 1 } := by
      refine hctx.trans ?_
      show ({ (s.unqueued sid).ctx sid with pc := pcMoved ((s.unqueued sid).ctx sid).pc 1 } : Ctx) = _
      rw [hsid]
    have hactu : (u.ctx sid).act = .stalled .slotWait := by rw [hctx']; exact hact
    refine State.serves_ok h hf hcur (fun j hj => ?_) ⟨State.formDone_afterForm hactu (by rw [hctx']) (by rw [hctx']), hfmt, ?_, fun m => ?_⟩
    · exact (congrArg Ctx.pend (hother j hj)).trans (congrArg Ctx.pend (State.modCtx_other s sid j (fun c => { c with pend := c.pend.drop 1 }) hj))
    · exact State.sameBytes_of_bytes ((State.afterForm_bytes ..).trans hb)
    · rw [State.afterForm_rx hactu, hctx']
      rfl
  · have hf : formPerform (.mfmt a) ((s.unqueued sid).runs sid) (s.formValue acc) = .trap .formatInvalid (wordOf (.mfmt a)) := by
      show fmtPerform _ _ _ = _
      rw [fmtPerform, hv, hbad]
      rfl
    refine State.serves_trap h hf hn fun t h1 h2 h3 _ => ⟨h1, h2, ?_⟩
    obtain ⟨q, hq⟩ := h3 (slotCore sid)
    rw [hq]

/-- MFMT at the answer that brings its record. -/
theorem State.does_fmtBack {s : State} {sid : Nat} {r : Req} {a : BitVec 5} (h : s.loadBack sid = some r) (hk : r.kind = .form (.mfmt a))
    (hact : (s.ctx sid).act = .stalled .globalWait) (ho : (s.core (slotCore sid)).owner = some sid) :
    (fmtOk r.data = true → s.does (.globalLoadReturn sid) fun t =>
      s.formDone t sid (s.ctx sid).pend ∧ (t.core (slotCore sid)).fmt = fmtOf r.data ∧ s.sameBytes t ∧ (s.ctx sid).sameX (t.ctx sid)) ∧
    (fmtOk r.data = false → s.trapsNow sid → s.does (.globalLoadReturn sid) fun t =>
      (s.ctx sid).traps (t.ctx sid) .formatInvalid (wordOf (.mfmt a)) (s.ctx sid).pc ∧ s.sameBytes t ∧ (t.core (slotCore sid)).fmt = (s.core (slotCore sid)).fmt) := by
  have hexec : exec (.globalLoadReturn sid) s = .next (s.completeForm (s.dropReq r.id) sid (.mfmt a) r.data false) := by
    show execGlobalLoadReturn sid s = _
    unfold execGlobalLoadReturn
    rw [h]
    simp only [hk]
  refine ⟨fun hok => ?_, fun hbad hn => ?_⟩
  · obtain ⟨hcur, hctx, hother, hb, hfmt⟩ := State.mfmt_state (w := (s.dropReq r.id).runs sid) (f := fmtOf r.data) ho
    have hf : formPerform (.mfmt a) ((s.dropReq r.id).runs sid) r.data = _ := fmtPerform_ok hok
    generalize ((((s.dropReq r.id).runs sid).takeOwner.updCore fun k => { k with fmt := fmtOf r.data }).adv) = u at hf hcur hctx hother hb hfmt
    have hctx' : u.ctx sid = { s.ctx sid with pc := pcMoved (s.ctx sid).pc 1 } := hctx
    have hactu : (u.ctx sid).act = .stalled .globalWait := by rw [hctx']; exact hact
    rw [State.completeForm_ok hf hcur] at hexec
    have hself : ({ u.modCtx sid fun c => { c.unstall with pause := formPause (.mfmt a) false s.now } with cur := s.cur } : State).ctx sid =
        { s.ctx sid with pc := pcMoved (s.ctx sid).pc 1, act := .running, pause := formPause (.mfmt a) false s.now } := by
      refine (State.modCtx_self u sid fun c => { c.unstall with pause := formPause (.mfmt a) false s.now }).trans ?_
      rw [Ctx.unstall_eq hactu, hctx']
    refine ⟨_, hexec, ⟨?_, ?_, ?_⟩, hfmt, ?_, fun m => ?_⟩
    · rw [hself]
    · rw [hself]
    · rw [hself]
    · exact State.sameBytes_of_bytes hb
    · rw [hself]
      rfl
  · have hf : formPerform (.mfmt a) ((s.dropReq r.id).runs sid) r.data = .trap .formatInvalid (wordOf (.mfmt a)) := by
      show fmtPerform _ _ _ = _
      rw [fmtPerform, hbad]
      rfl
    obtain ⟨h1, -, h3, -, h5, -⟩ := State.completeForm_traps (s := s) (t := s.dropReq r.id) (bank := false) (pend := (s.ctx sid).pend) hf hn rfl fun _ => rfl
    obtain ⟨q, hq⟩ := h5 (slotCore sid)
    exact ⟨_, hexec, h1, State.sameBytes_of_bytes h3, by rw [hq]⟩

/-- In a handler that has not saved the matrix state, every matrix form but MSAVE traps (R189). -/
theorem State.matrixTrap_unsaved {s : State} {i : Instr} (hv : isVisitor s.cur = false) (hmode : s.me.mode = true) (hsaved : s.me.msaved = false)
    (hi : isMatrix i = true) (hne : ∀ a, i ≠ .msave a) : s.matrixTrap i = some .matrixInHandler := by
  cases i <;> cases hi
  case msave a => exact absurd rfl (hne a)
  all_goals simp [State.matrixTrap, hv, hmode, hsaved]

/-- Settles O17: MWAIT, the records of MSHAPE and MFMT asked for and taken, and the modes. -/
theorem matrixControlForms : Obligations.MatrixControlForms := by
  refine ⟨fun s => ⟨fun c h => mwait_issues h, fun n a h hm => mshape_issues h hm, fun a h hm => mfmt_issues h hm, ?_, ?_⟩, ?_⟩
  · exact ⟨fun cl sid acc l n h hop htag => State.does_shape h hop htag, fun sid r n h hk => State.does_shapeBack h hk⟩
  · exact ⟨fun cl sid acc a h htag ho => State.does_fmt h htag ho, fun sid r a h hk hact ho => State.does_fmtBack h hk hact ho⟩
  · intro i s hi hv
    refine ⟨fun hmode hsaved hne => exec_of_matrixTrap hi ?_, fun hmode hsave => exec_of_matrixTrap hi ?_⟩
    · exact State.matrixTrap_unsaved hv hmode hsaved hi hne
    · obtain ⟨a, rfl | rfl⟩ := hsave
      · simp [State.matrixTrap, hv, hmode]
      · simp [State.matrixTrap, hv, hmode]

end Sys2Proof.Machine
end


section
/-!
PROOFS. Tags and rings: the tile forms (chapter 10).
-/

namespace Sys2Proof.Machine

/-! The fields of a tag word (Table 10-1). -/

/-- The number of a tag word. -/
def tagNumber (wait : BitVec 8) (ovr valid cons full exp : Bool) (bal : Int) : Nat :=
  wait.toNat * 2 ^ 32 + ovr.toNat * 2 ^ 28 + valid.toNat * 2 ^ 27 + cons.toNat * 2 ^ 26 + full.toNat * 2 ^ 25 + exp.toNat * 2 ^ 24 + (BitVec.ofInt 24 bal).toNat

theorem mkTag_eq (wait : BitVec 8) (ovr valid cons full exp : Bool) (bal : Int) : mkTag wait ovr valid cons full exp bal = w64 (tagNumber wait ovr valid cons full exp bal) := by
  have h : ∀ (b : Bool) (n : Nat), (if b then n else 0) = b.toNat * n := fun b n => by cases b <;> simp
  rw [mkTag, tagNumber, h, h, h, h, h]

/-- A tag word shows the fields it was made of. -/
theorem tagView_mkTag (wait : BitVec 8) (ovr valid cons full exp : Bool) {bal : Int} (h : -2 ^ 23 ≤ bal ∧ bal < 2 ^ 23) :
    tagView (mkTag wait ovr valid cons full exp bal) = { valid := valid, full := full, cons := cons, exp := exp, ovr := ovr, bal := bal } := by
  have hbit : ∀ (b : Bool), b.toNat ≤ 1 := Bool.toNat_le
  have hwait := wait.isLt
  have hb := (BitVec.ofInt 24 bal).isLt
  have hn : ∀ (i : Nat) (b : Bool), i < 64 → tagNumber wait ovr valid cons full exp bal / 2 ^ i % 2 = b.toNat →
      (mkTag wait ovr valid cons full exp bal).getLsbD i = b := by
    intro i b hi hb
    rw [mkTag_eq, w64, BitVec.getLsbD_ofNat, Nat.testBit_eq_decide_div_mod_eq, hb]
    cases b <;> simp [hi]
  have h1 := hbit ovr
  have h2 := hbit valid
  have h3 := hbit cons
  have h4 := hbit full
  have h5 := hbit exp
  have hbal : tagBal (mkTag wait ovr valid cons full exp bal) = bal := by
    have hw : (mkTag wait ovr valid cons full exp bal).extractLsb' 0 24 = BitVec.ofInt 24 bal := by
      apply BitVec.eq_of_toNat_eq
      rw [mkTag_eq, w64, BitVec.extractLsb'_toNat, BitVec.toNat_ofNat, Nat.shiftRight_zero, Nat.mod_mod_of_dvd _ (by norm_num)]
      unfold tagNumber
      omega
    rw [tagBal, hw, BitVec.toInt_ofInt]
    exact Int.bmod_eq_of_le (by norm_num; exact h.1) (by norm_num; exact h.2)
  have e1 := hn 27 valid (by omega) (by unfold tagNumber; omega)
  have e2 := hn 25 full (by omega) (by unfold tagNumber; omega)
  have e3 := hn 26 cons (by omega) (by unfold tagNumber; omega)
  have e4 := hn 24 exp (by omega) (by unfold tagNumber; omega)
  have e5 := hn 28 ovr (by omega) (by unfold tagNumber; omega)
  simp only [tagView, tagValid, tagFull, tagCons, tagExp, tagOvr, e1, e2, e3, e4, e5, hbal]

/-- The field WAIT shows in none of the others. -/
theorem tagView_clearWait (w : Word) (b : BitVec 8) : tagView (w &&& ~~~(b.zeroExtend 64 <<< 32)) = tagView w := by
  have hbit : ∀ i, i < 32 → (w &&& ~~~(b.zeroExtend 64 <<< 32)).getLsbD i = w.getLsbD i := by
    intro i hi
    simp [show i < 64 by omega, hi]
  have hbal : (w &&& ~~~(b.zeroExtend 64 <<< 32)).extractLsb' 0 24 = w.extractLsb' 0 24 := by
    apply BitVec.eq_of_getLsbD_eq
    intro i hi
    rw [BitVec.getLsbD_extractLsb', BitVec.getLsbD_extractLsb', hbit _ (by omega)]
  simp only [tagView, tagValid, tagFull, tagCons, tagExp, tagOvr, tagBal, hbit, hbal, Nat.reduceLT]

/-! A tag's change, and those that it wakes. -/

/-- What a tag's change leaves of all but contexts that wait for a tag, and the other tags. -/
structure State.TagChange (s t : State) (cl n : Nat) (v : TagView) : Prop where
  cur : t.cur = s.cur
  now : t.now = s.now
  cores : t.cores = s.cores
  reqs : t.reqs = s.reqs
  bytes : t.bytes = s.bytes
  pend : ∀ j, (t.ctx j).pend = (s.ctx j).pend
  ctx : ∀ j, (s.ctx j).tagWait = none → t.ctx j = s.ctx j
  view : tagView (t.tag cl n) = v
  other : ∀ c m, ¬(c = cl ∧ m = n) → t.tag c m = s.tag c m

theorem State.modClu_tag (s : State) (cl c n : Nat) (f : Cluster → Cluster) :
    (s.modClu cl f).tag c n = if c = cl then Tab.get 0 (f (s.clu cl)).tags n else s.tag c n := by
  unfold State.tag
  rw [State.modClu_clu]
  split <;> rfl

/-- A tag set in a cluster. -/
theorem State.setTag_tag (s : State) (cl c n m : Nat) (w : Word) {f : Cluster → Cluster} (hf : (f (s.clu cl)).tags = Tab.set 0 (s.clu cl).tags n w) :
    (s.modClu cl f).tag c m = if c = cl ∧ m = n then w else s.tag c m := by
  rw [State.modClu_tag, hf]
  by_cases hc : c = cl
  · subst hc
    rw [if_pos rfl, Tab.get_set]
    by_cases hm : m = n
    · rw [if_pos hm, if_pos ⟨rfl, hm⟩]
    · rw [if_neg hm, if_neg fun h => hm h.2]
      rfl
  · rw [if_neg hc, if_neg fun h => hc h.1]

theorem State.TagChange.refl (s : State) (cl n : Nat) : s.TagChange s cl n (tagView (s.tag cl n)) :=
  ⟨rfl, rfl, rfl, rfl, rfl, fun _ => rfl, fun _ _ => rfl, rfl, fun _ _ _ => rfl⟩

theorem State.TagChange.trans {s t u : State} {cl n : Nat} {v w : TagView} (h : s.TagChange t cl n v) (g : t.TagChange u cl n w) : s.TagChange u cl n w := by
  refine ⟨g.cur.trans h.cur, g.now.trans h.now, g.cores.trans h.cores, g.reqs.trans h.reqs, g.bytes.trans h.bytes, fun j => (g.pend j).trans (h.pend j), fun j hj => ?_,
    g.view, fun c m hne => (g.other c m hne).trans (h.other c m hne)⟩
  have hj' := h.ctx j hj
  exact (g.ctx j (by rw [hj', hj])).trans hj'

/-- One of the slots of a cluster, where its context waits for the tag. -/
def State.wakeTagOne (cl n : Nat) (all : Bool) (v : Word) (s : State) (k : Nat) : State :=
  match (s.ctx k).tagWait with
  | some (t, e) =>
    if t = n && (all || tagMeets (s.tag cl n) e) then
      (s.modCtx k fun c => c.wakeTag v s.now).modClu cl fun c => { c with tags := Tab.set 0 c.tags n (Tab.get 0 c.tags n &&& ~~~((waitBit k).zeroExtend 64 <<< 32)) }
    else s
  | none => s

theorem State.wakeTags_eq (s : State) (cl n : Nat) (all : Bool) (v : Word) :
    s.wakeTags cl n all v = ((List.range 8).map fun l => 10 * cl + l).foldl (State.wakeTagOne cl n all v) s := rfl

theorem State.tagChange_wakeTagOne (s : State) (cl n : Nat) (all : Bool) (v : Word) (k : Nat) :
    s.TagChange (State.wakeTagOne cl n all v s k) cl n (tagView (s.tag cl n)) := by
  unfold State.wakeTagOne
  split
  · next t e hk =>
    split
    · refine ⟨rfl, rfl, rfl, rfl, State.bytes_modClu _ _ _ rfl, fun j => ?_, fun j hj => ?_, ?_, fun c m hne => ?_⟩
      · rw [State.modClu_ctx, State.modCtx_ctx]
        split
        · next h => rw [Ctx.wakeTag_pend, h]
        · rfl
      · rw [State.modClu_ctx]
        refine State.modCtx_other s k j (fun c => c.wakeTag v s.now) ?_
        rintro rfl
        rw [hj] at hk
        cases hk
      · rw [State.setTag_tag _ cl cl n n _ rfl, if_pos ⟨rfl, rfl⟩]
        exact tagView_clearWait ..
      · rw [State.setTag_tag _ cl c n m _ rfl, if_neg hne]
        rfl
    · exact State.TagChange.refl s cl n
  · exact State.TagChange.refl s cl n

/-- Those that a tag's change wakes. -/
theorem State.tagChange_wakeTags (s : State) (cl n : Nat) (all : Bool) (v : Word) : s.TagChange (s.wakeTags cl n all v) cl n (tagView (s.tag cl n)) := by
  rw [State.wakeTags_eq]
  generalize (List.range 8).map (fun l => 10 * cl + l) = l
  induction l generalizing s with
  | nil => exact State.TagChange.refl s cl n
  | cons k l ih =>
    have hone := State.tagChange_wakeTagOne s cl n all v k
    have hrest := ih (State.wakeTagOne cl n all v s k)
    rw [hone.view] at hrest
    exact hone.trans hrest

/-- A tag word put into its place. -/
theorem State.tagChange_putTag (s : State) (cl n : Nat) (w : Word) (l : List Nat) : s.TagChange (s.putTag cl n w l) cl n (tagView w) := by
  unfold State.putTag
  extract_lets was
  generalize hu : (s.modClu cl fun c => { c with
    tags := Tab.set 0 c.tags n w
    fullAt := if tagFull w && !was then Tab.set 0 c.fullAt n s.now else c.fullAt
    fullBy := if tagFull w && !was then Tab.set [] c.fullBy n l else c.fullBy }) = u
  have hset : ∀ c m, u.tag c m = if c = cl ∧ m = n then w else s.tag c m := fun c m => by
    rw [← hu]
    exact State.setTag_tag s cl c n m w rfl
  have h := State.tagChange_wakeTags u cl n false 0
  have hctx : ∀ j, u.ctx j = s.ctx j := fun j => by rw [← hu]; rfl
  refine ⟨h.cur.trans (by rw [← hu]; rfl), h.now.trans (by rw [← hu]; rfl), h.cores.trans (by rw [← hu]; rfl), h.reqs.trans (by rw [← hu]; rfl),
    h.bytes.trans (by rw [← hu]; exact State.bytes_modClu _ _ _ rfl), fun j => (h.pend j).trans (by rw [hctx]), fun j hj => ?_, ?_, fun c m hne => ?_⟩
  · rw [h.ctx j (by rw [hctx, hj]), hctx]
  · rw [h.view, hset, if_pos ⟨rfl, rfl⟩]
  · rw [h.other c m hne, hset, if_neg hne]

/-! Tile forms. -/

/-- The state in which a form acts that the bank unit serves. -/
abbrev State.acting (s : State) (sid : Nat) : State := (s.unqueued sid).runs sid

/-- A tile form that is ready waits at its tag. -/
theorem State.tileForm_issued {s : State} {i : Instr} {rs wr : List (BitVec 5)} (he : exec i s = finish s (s.tileForm i rs wr)) (h : s.tileReady i rs wr) :
    ∃ t, exec i s = .next t ∧ s.waitsAtBank t (s.tagAccess i) := by
  obtain ⟨hv, hr, hw⟩ := h
  have hform : s.tileForm i rs wr = .ok (s.upd fun c => { c with
      pend := c.pend ++ [{ op := .form i, cl := slotCluster s.cur, tags := true, off := 8 * s.formTag i, size := 8, serial := c.serial }], act := .stalled .slotWait }) := by
    unfold State.tileForm State.regs
    rw [if_neg (by rw [hv]; exact Bool.false_ne_true), State.holds_of_regsReady hr, hw]
  rw [he, hform]
  exact ⟨_, rfl, State.waitsAtBank_issued false (State.upd_me ..) rfl⟩

theorem State.acting_ctx {s : State} {cl sid : Nat} {a : BankAccess} {i : Instr} (h : s.servesForm cl sid a i) : (s.acting sid).ctx sid = { s.ctx sid with pend := [] } := by
  obtain ⟨⟨-, -, hpend, -, -⟩, -, -⟩ := h
  show (s.unqueued sid).ctx sid = _
  rw [State.modCtx_self, hpend]
  rfl

theorem State.acting_other (s : State) {sid j : Nat} (h : j ≠ sid) : (s.acting sid).ctx j = s.ctx j :=
  State.modCtx_other s sid j (fun c => { c with pend := c.pend.drop 1 }) h

theorem State.acting_rx {s : State} {cl sid : Nat} {a : BankAccess} {i : Instr} (h : s.servesForm cl sid a i) (n : BitVec 5) :
    (s.acting sid).me.rx n = (s.ctx sid).rx n := by
  show ((s.acting sid).ctx sid).rx n = _
  rw [State.acting_ctx h]
  rfl

theorem State.acting_awake {s : State} {cl sid : Nat} {a : BankAccess} {i : Instr} (h : s.servesForm cl sid a i) : ((s.acting sid).ctx sid).tagWait = none := by
  rw [State.acting_ctx h]
  simp only [Ctx.tagWait, h.2.2]

/-- The cluster of a slot that is served. -/
theorem slotCluster_of_servesForm {s : State} {cl sid : Nat} {a : BankAccess} {i : Instr} (h : s.servesForm cl sid a i) : slotCluster sid = cl := h.1.1

/-- The service of a form that acts and goes on at the next word. -/
theorem State.serves_adv {s u : State} {cl sid : Nat} {a : BankAccess} {i : Instr} {p : State → Prop} (h : s.servesForm cl sid a i)
    (hf : formPerform i (s.acting sid) (s.formValue a) = .ok u.adv) (hcur : u.cur = sid) (hpend : ∀ j, j ≠ sid → (u.ctx j).pend = (s.ctx j).pend)
    (hact : (u.ctx sid).act = .stalled .slotWait) (hb : u.bytes = s.bytes)
    (hp : ∀ t z, t.ctx sid = { u.ctx sid with pc := pcMoved (u.ctx sid).pc 1, act := .running, pause := z } → s.sameBytes t → (∀ ci, t.core ci = u.core ci) →
      (∀ c m, t.tag c m = u.tag c m) → p t) : s.does (.scalarSlotGrant cl) p := by
  have hadv : u.adv.ctx sid = { u.ctx sid with pc := pcMoved (u.ctx sid).pc 1 } := by
    have hme := State.adv_me u
    rw [← pc_next]
    rwa [State.me, State.me, State.adv_cur, hcur] at hme
  have hother : ∀ j, j ≠ sid → u.adv.ctx j = u.ctx j := fun j hj => State.adv_other u j (by rw [hcur]; exact hj)
  refine State.serves_ok h hf ((State.adv_cur u).trans hcur) (fun j hj => by rw [hother j hj, hpend j hj]) (hp _ (formPause i true s.now) ?_ ?_ (fun _ => rfl) fun c m => ?_)
  · rw [State.afterForm_self, Ctx.unstall_eq (k := .slotWait) (by rw [hadv]; exact hact), hadv]
  · exact State.sameBytes_of_bytes ((State.afterForm_bytes ..).trans ((State.bytes_adv u).trans hb))
  · obtain ⟨q, n, hc⟩ := State.afterForm_clu s u.adv cl sid i c
    show Tab.get 0 ((s.afterForm u.adv cl sid i).clu c).tags m = _
    rw [hc]
    rfl

/-- The service of a form that acts on cores and tags alone. -/
theorem State.serves_plain {s u : State} {cl sid : Nat} {a : BankAccess} {i : Instr} {p : State → Prop} (h : s.servesForm cl sid a i)
    (hf : formPerform i (s.acting sid) (s.formValue a) = .ok u.adv) (hcur : u.cur = sid) (hpend : ∀ j, j ≠ sid → (u.ctx j).pend = (s.ctx j).pend)
    (hctx : u.ctx sid = (s.acting sid).ctx sid) (hb : u.bytes = s.bytes)
    (hp : ∀ t, s.formDone t sid [] → (s.ctx sid).sameX (t.ctx sid) → s.sameBytes t → (∀ ci, t.core ci = u.core ci) → (∀ c m, t.tag c m = u.tag c m) → p t) :
    s.does (.scalarSlotGrant cl) p := by
  rw [State.acting_ctx h] at hctx
  refine State.serves_adv h hf hcur hpend (by rw [hctx]; exact h.2.2) hb fun t z ht h1 h2 h3 => ?_
  rw [hctx] at ht
  exact hp t ⟨by rw [ht], by rw [ht], by rw [ht]⟩ (fun m => by rw [ht]; rfl) h1 h2 h3

/-- What a change of tags leaves of the state in which a form acts. -/
theorem State.TagChange.pend_acting {s u : State} {sid cl n : Nat} {v : TagView} (h : (s.acting sid).TagChange u cl n v) {j : Nat} (hj : j ≠ sid) :
    (u.ctx j).pend = (s.ctx j).pend := (h.pend j).trans (congrArg Ctx.pend (State.acting_other s hj))

theorem coreCluster_slotCore (sid : Nat) : coreCluster (slotCore sid) = slotCluster sid := by
  unfold coreCluster slotCore slotCluster
  split <;> omega

theorem State.modRing_ring (s : State) (ci n c m : Nat) (f : Ring → Ring) : (s.modRing ci n f).ring c m = if c = ci ∧ m = n then f (s.ring ci n) else s.ring c m := by
  unfold State.ring State.modRing
  rw [State.modCore_core]
  by_cases hc : c = ci
  · subst hc
    rw [if_pos rfl]
    dsimp only
    rw [Tab.get_set]
    by_cases hm : m = n
    · rw [if_pos hm, if_pos ⟨rfl, hm⟩]
    · rw [if_neg hm, if_neg fun h => hm h.2]
  · rw [if_neg hc, if_neg fun h => hc h.1]

/-! TEXP. -/

/-- What an expectation makes of a tag (R193, R201). -/
theorem tagView_expected {w : Word} {n : Nat} (hv : tagValid w = true) (hf : tagFull w = false) (ho : tagOvr w = false) (hlo : -2 ^ 23 ≤ tagBal w - n) (hhi : tagBal w ≤ n) :
    tagView (tagRules (tagWaitBits w) (tagOvr w) (tagValid w) (tagCons w) (tagFull w) true (tagBal w - n)) =
      if tagBal w = n then { tagView w with full := true, exp := false, bal := 0 } else { tagView w with exp := true, bal := tagBal w - n } := by
  have hout : balOut (tagBal w - n) = false := by
    simp only [balOut, decide_eq_false_iff_not, not_or, not_lt]
    constructor
    · exact_mod_cast hlo
    · norm_num
      omega
  have hpos : decide (0 < tagBal w - n) = false := by
    simp only [decide_eq_false_iff_not]
    omega
  by_cases he : tagBal w = n
  · have hz : tagBal w - n = 0 := by omega
    rw [if_pos he]
    rw [hz] at hout ⊢
    unfold tagRules
    simp only [hv, hf, ho, hout, lt_irrefl, decide_false, Bool.false_or, Bool.and_false, Bool.not_false, Bool.and_true, decide_true, if_true]
    rw [tagView_mkTag _ _ _ _ _ _ (bal := 0) (by norm_num)]
    simp only [tagView, hv, ho]
  · rw [if_neg he]
    unfold tagRules
    simp only [hv, hf, ho, hout, hpos, sub_eq_zero, he, Bool.false_or, Bool.and_false, Bool.not_false, Bool.and_true, decide_false, Bool.false_eq_true, if_false]
    rw [tagView_mkTag _ _ _ _ _ _ ⟨hlo, by omega⟩]
    simp only [tagView, hv, ho, hf]

/-- Settles O20: TEXP waits at its tag, and the slot that serves it posts the expectation. -/
theorem texpPostsAnExpectation : Obligations.TexpPostsAnExpectation := by
  intro a b s
  refine ⟨State.tileForm_issued rfl, ?_⟩
  intro cl sid acc h m n w hm hv hf he ho hn hmax hlo hhi
  have hcl := slotCluster_of_servesForm h
  have hch := State.tagChange_putTag (s.acting sid) cl m (tagRules (tagWaitBits w) (tagOvr w) (tagValid w) (tagCons w) (tagFull w) true (tagBal w - n)) ((s.acting sid).me.taints)
  rw [tagView_expected hv hf ho hlo hhi] at hch
  have hperf : formPerform (.texp a b) (s.acting sid) (s.formValue acc) =
      .ok ((s.acting sid).putTag cl m (tagRules (tagWaitBits w) (tagOvr w) (tagValid w) (tagCons w) (tagFull w) true (tagBal w - n)) ((s.acting sid).me.taints)).adv := by
    have hout : balOut (tagBal w - n) = false := by
      simp only [balOut, decide_eq_false_iff_not, not_or, not_lt]
      constructor
      · exact_mod_cast hlo
      · norm_num
        omega
    show texpPerform a b (s.acting sid) = _
    unfold texpPerform
    simp only [State.acting_rx h]
    rw [show slotCluster (s.acting sid).cur = cl from hcl, show ((s.ctx sid).rx a).toNat % 4096 = m from Nat.mod_eq_of_lt hm]
    rw [show (s.acting sid).tag cl m = w from rfl]
    rw [if_neg]
    · rfl
    · simp only [hv, hf, he, ho, show balOut (tagBal w - ((s.ctx sid).rx b).toNat) = false from hout, Bool.not_true, Bool.or_false, Bool.or_eq_true, decide_eq_true_eq, not_or]
      exact ⟨⟨Nat.not_le.mpr hm, Nat.pos_iff_ne_zero.mp hn, Nat.not_lt.mpr hmax⟩, by show ¬(0 : Int) < tagBal w - n; omega⟩
  generalize (s.acting sid).putTag cl m _ _ = u at hch hperf
  refine State.serves_plain h hperf hch.cur (fun j hj => hch.pend_acting hj) (hch.ctx sid (State.acting_awake h)) hch.bytes fun t h1 h2 h3 h4 h5 => ⟨h1, h2, h3, ?_⟩
  rw [h5, hch.view]

/-! Rings (R198 to R200). -/

/-- What a ring's count of tags leaves, made EMPTY and VALID one after another. -/
structure State.TagsFresh (s t : State) (cl tag0 count : Nat) : Prop where
  cur : t.cur = s.cur
  cores : t.cores = s.cores
  bytes : t.bytes = s.bytes
  pend : ∀ j, (t.ctx j).pend = (s.ctx j).pend
  ctx : ∀ j, (s.ctx j).tagWait = none → t.ctx j = s.ctx j
  view : ∀ m < count, tagView (t.tag cl (tag0 + m)) = { valid := true, full := false, cons := false, exp := false, ovr := false, bal := 0 }
  other : ∀ m, m < tag0 ∨ tag0 + count ≤ m → t.tag cl m = s.tag cl m

theorem tagView_fresh (w : Word) : tagView (tagFresh w) = { valid := true, full := false, cons := false, exp := false, ovr := false, bal := 0 } :=
  tagView_mkTag _ _ _ _ _ _ (by norm_num)

theorem State.tagsFresh (s : State) (cl tag0 count : Nat) :
    s.TagsFresh ((List.range count).foldl (fun s t => s.putTag cl (tag0 + t) (tagFresh (s.tag cl (tag0 + t)))) s) cl tag0 count := by
  induction count with
  | zero => exact ⟨rfl, rfl, rfl, fun _ => rfl, fun _ _ => rfl, fun m hm => absurd hm (Nat.not_lt_zero m), fun _ _ => rfl⟩
  | succ k ih =>
    rw [List.range_succ, List.foldl_append]
    generalize (List.range k).foldl (fun s t => s.putTag cl (tag0 + t) (tagFresh (s.tag cl (tag0 + t)))) s = u at ih
    have h := State.tagChange_putTag u cl (tag0 + k) (tagFresh (u.tag cl (tag0 + k))) []
    rw [List.foldl_cons, List.foldl_nil]
    generalize u.putTag cl (tag0 + k) (tagFresh (u.tag cl (tag0 + k))) [] = z at h
    refine ⟨h.cur.trans ih.cur, h.cores.trans ih.cores, h.bytes.trans ih.bytes, fun j => (h.pend j).trans (ih.pend j), fun j hj => ?_, fun m hm => ?_, fun m hm => ?_⟩
    · have hj' := ih.ctx j hj
      exact (h.ctx j (by rw [hj', hj])).trans hj'
    · by_cases hmk : m = k
      · subst hmk
        rw [h.view, tagView_fresh]
      · exact (congrArg tagView (h.other cl (tag0 + m) (by omega))).trans (ih.view m (by omega))
    · exact (h.other cl m (by omega)).trans (ih.other m (by omega))

/-- Another context's allocation is where it is whatever accesses wait. -/
theorem State.privHit_congr {s t : State} (h : ∀ j, ∃ l, t.ctx j = { s.ctx j with pend := l }) (sid off n : Nat) : t.privHit sid off n = s.privHit sid off n := by
  obtain ⟨l, hl⟩ := h sid
  have hone : ∀ o, (t.ctx o).act = (s.ctx o).act ∧ (t.ctx o).privSize = (s.ctx o).privSize ∧ (t.ctx o).privBase = (s.ctx o).privBase := fun o => by
    obtain ⟨l, hl⟩ := h o
    rw [hl]
    exact ⟨rfl, rfl, rfl⟩
  unfold State.privHit
  dsimp only
  rw [hl]
  congr 1
  funext o
  obtain ⟨h1, h2, h3⟩ := hone o
  rw [h1, h2, h3]

theorem State.privFirst_acting {s : State} {cl sid : Nat} {a : BankAccess} {i : Instr} (h : s.servesForm cl sid a i) (off n : Nat) :
    (s.acting sid).privFirst off n = (s.runs sid).privFirst off n := by
  have hctx : ∀ j, ∃ l, (s.acting sid).ctx j = { (s.runs sid).ctx j with pend := l } := fun j => by
    by_cases hj : j = sid
    · subst hj
      exact ⟨_, State.acting_ctx h⟩
    · exact ⟨_, State.acting_other s hj⟩
  unfold State.privFirst
  simp only [State.privHit_congr hctx]

/-- What RDEF's operands describe: base, size and count of the tiles, first tag. -/
structure RingSpec where
  base : Nat
  size : Nat
  tag0 : Nat
  count : Nat

def ringSpec (x y : Word) : RingSpec :=
  { base := x.toNat % 2 ^ 20, size := x.toNat / 2 ^ 20 % 2 ^ 20, tag0 := y.toNat % 2 ^ 12, count := y.toNat / 2 ^ 12 % 2 ^ 13 }

/-- Whether the tiles and tags of a ring lie where rings may (R198). -/
def RingSpec.fits (r : RingSpec) (mode : Nat) : Prop :=
  r.base % 64 = 0 ∧ r.size % 64 = 0 ∧ 0 < r.size ∧ 0 < r.count ∧ r.tag0 + r.count ≤ 4096 ∧ r.base + r.size * r.count ≤ Config.spadBytes ∧ mode = 0

/-- RDEF's meaning by its operands. -/
theorem rdefPerform_eq (n : BitVec 4) (a b : BitVec 5) (w : State) :
    let r := ringSpec (w.me.rx a) (w.me.rx b)
    (¬r.fits (w.ring (slotCore w.cur) n.toNat).mode → rdefPerform n a b w = .trap .tileFault (n.zeroExtend 64)) ∧
    (r.fits (w.ring (slotCore w.cur) n.toNat).mode → w.privFirst r.base (r.size * r.count) = none → rdefPerform n a b w =
      .ok ((List.range r.count).foldl (fun s t => s.putTag (slotCluster w.cur) (r.tag0 + t) (tagFresh (s.tag (slotCluster w.cur) (r.tag0 + t))))
        (w.modRing (slotCore w.cur) n.toNat fun _ => { base := r.base, size := r.size, tag0 := r.tag0, count := r.count, valid := true })).adv) := by
  intro r
  have e1 : bitsOf (w.me.rx a).toNat 19 0 = r.base := by simp [bitsOf, r, ringSpec]
  have e2 : bitsOf (w.me.rx a).toNat 39 20 = r.size := by simp [bitsOf, r, ringSpec, Nat.shiftRight_eq_div_pow]
  have e3 : bitsOf (w.me.rx b).toNat 11 0 = r.tag0 := by simp [bitsOf, r, ringSpec]
  have e4 : bitsOf (w.me.rx b).toNat 24 12 = r.count := by simp [bitsOf, r, ringSpec, Nat.shiftRight_eq_div_pow]
  have hbad : (r.base % 64 ≠ 0 ∨ r.size % 64 ≠ 0 ∨ r.size = 0 ∨ r.count = 0 ∨ 4096 < r.count ∨ 4096 < r.tag0 + r.count ∨ Config.spadBytes < r.base + r.size * r.count ∨
      (w.ring (slotCore w.cur) n.toNat).mode ≠ 0) ↔ ¬r.fits (w.ring (slotCore w.cur) n.toNat).mode := by
    unfold RingSpec.fits
    generalize r.size * r.count = p
    omega
  unfold rdefPerform
  dsimp only
  rw [e1, e2, e3, e4]
  refine ⟨fun h => ?_, fun h hp => ?_⟩
  · rw [if_pos (hbad.mpr h)]
  · rw [if_neg fun hb => hbad.mp hb h, hp]

/-- RDEF, issued and served. -/
theorem rdef_acts (n : BitVec 4) (a b : BitVec 5) (s : State) {cl sid : Nat} {acc : BankAccess} (h : s.servesForm cl sid acc (.rdef n a b)) :
    let r := ringSpec ((s.ctx sid).rx a) ((s.ctx sid).rx b)
    (¬r.fits (s.ring (slotCore sid) n.toNat).mode → s.trapsNow sid → s.does (.scalarSlotGrant cl) fun t =>
      (s.ctx sid).traps (t.ctx sid) .tileFault (wordOfInt (n.toNat : Nat)) (s.ctx sid).pc ∧ s.sameBytes t ∧ (t.core (slotCore sid)).rg = (s.core (slotCore sid)).rg) ∧
    (r.fits (s.ring (slotCore sid) n.toNat).mode → (s.runs sid).privFirst r.base (r.size * r.count) = none → s.does (.scalarSlotGrant cl) fun t =>
      s.formDone t sid [] ∧ (s.ctx sid).sameX (t.ctx sid) ∧ s.sameBytes t ∧
      (∀ m, t.ring (slotCore sid) m = if m = n.toNat then { base := r.base, size := r.size, tag0 := r.tag0, count := r.count, valid := true } else s.ring (slotCore sid) m) ∧
      (∀ m < r.count, tagView (t.tag cl (r.tag0 + m)) = { valid := true, full := false, cons := false, exp := false, ovr := false, bal := 0 }) ∧
      ∀ m, m < r.tag0 ∨ r.tag0 + r.count ≤ m → t.tag cl m = s.tag cl m) := by
  intro r
  have hcl := slotCluster_of_servesForm h
  obtain ⟨htrap, hok⟩ := rdefPerform_eq n a b (s.acting sid)
  rw [State.acting_rx h, State.acting_rx h] at htrap hok
  refine ⟨fun hno hn => ?_, fun hfit hpriv => ?_⟩
  · have hval : wordOfInt (n.toNat : Nat) = n.zeroExtend 64 := by
      rw [wordOfInt_natCast]
      apply BitVec.eq_of_toNat_eq
      simp [w64]
    rw [hval]
    refine State.serves_trap h (htrap hno) hn fun t h1 h2 h3 _ => ⟨h1, h2, ?_⟩
    obtain ⟨q, hq⟩ := h3 (slotCore sid)
    rw [hq]
  · have hf : formPerform (.rdef n a b) (s.acting sid) (s.formValue acc) = _ := hok hfit ((State.privFirst_acting h ..).trans hpriv)
    rw [show slotCluster (s.acting sid).cur = cl from hcl, show slotCore (s.acting sid).cur = slotCore sid from rfl] at hf
    generalize hz : (s.acting sid).modRing (slotCore sid) n.toNat (fun _ => { base := r.base, size := r.size, tag0 := r.tag0, count := r.count, valid := true }) = z at hf
    have hfresh := State.tagsFresh z cl r.tag0 r.count
    generalize (List.range r.count).foldl (fun s t => s.putTag cl (r.tag0 + t) (tagFresh (s.tag cl (r.tag0 + t)))) z = u at hf hfresh
    have hzctx : ∀ j, z.ctx j = (s.acting sid).ctx j := fun j => by rw [← hz]; rfl
    have hring : ∀ m, u.ring (slotCore sid) m = if m = n.toNat then { base := r.base, size := r.size, tag0 := r.tag0, count := r.count, valid := true } else s.ring (slotCore sid) m := by
      intro m
      rw [State.ring, State.core, hfresh.cores]
      refine (congrArg (fun w : State => w.ring (slotCore sid) m) hz.symm).trans ?_
      rw [State.modRing_ring]
      simp only [true_and]
      rfl
    refine State.serves_plain h hf (hfresh.cur.trans (by rw [← hz]; rfl)) (fun j hj => ?_) ?_ (hfresh.bytes.trans (by rw [← hz]; rfl)) fun t h1 h2 h3 h4 h5 => ?_
    · rw [hfresh.pend, hzctx, State.acting_other s hj]
    · rw [hfresh.ctx sid (by rw [hzctx]; exact State.acting_awake h), hzctx]
    · refine ⟨h1, h2, h3, fun m => ?_, fun m hm => by rw [h5, hfresh.view m hm], fun m hm => ?_⟩
      · rw [← hring m, State.ring, h4]
        rfl
      · rw [h5, hfresh.other m hm, ← hz]
        rfl

theorem tagView_emptied (w : Word) (cons full : Bool) : tagView (emptied w cons full) = { tagView w with cons := cons, full := full, exp := false, bal := 0 } :=
  tagView_mkTag _ _ _ _ _ _ (by norm_num)

/-- RPOP, served (R199). -/
theorem rpop_acts (n : BitVec 4) (s : State) {cl sid : Nat} {acc : BankAccess} (h : s.servesForm cl sid acc (.rpop n)) :
    let r := s.ring (slotCore sid) n.toNat
    let w := s.tag cl r.headTag
    r.valid = true → r.mode ≠ 2 → tagFull w = true → s.does (.scalarSlotGrant cl) fun t =>
      s.formDone t sid [] ∧ (s.ctx sid).sameX (t.ctx sid) ∧ s.sameBytes t ∧ t.ring (slotCore sid) n.toNat = { r with head := (r.head + 1) % r.count } ∧
      tagView (t.tag cl r.headTag) = { tagView w with full := false, exp := false, bal := 0, cons := tagCons w || decide (r.mode = 1) } ∧
      (t.core (slotCore sid)).frees = (s.core (slotCore sid)).frees ++ (if r.mode = 1 then [(n.toNat, r.headTag, s.now, (s.ctx sid).taints)] else []) := by
  intro r w hv hmode hfull
  have hcl : coreCluster (slotCore sid) = cl := (coreCluster_slotCore sid).trans (slotCluster_of_servesForm h)
  have htaints : (s.acting sid).me.taints = (s.ctx sid).taints := by
    show ((s.acting sid).ctx sid).taints = _
    rw [State.acting_ctx h]
  have hch := State.tagChange_putTag (s.acting sid) cl r.headTag (emptied w (tagCons w || decide (r.mode = 1)) false) []
  rw [tagView_emptied] at hch
  generalize hu0 : (s.acting sid).putTag cl r.headTag (emptied w (tagCons w || decide (r.mode = 1)) false) [] = u0 at hch
  have hf : formPerform (.rpop n) (s.acting sid) (s.formValue acc) = .ok
      (((if decide (r.mode = 1) then u0.modCore (slotCore sid) fun k => { k with frees := k.frees ++ [(n.toNat, r.headTag, s.now, (s.ctx sid).taints)] } else u0).modRing
        (slotCore sid) n.toNat fun r => { r with head := r.after r.head }).adv) := by
    have hhead : (s.acting sid).headFull (slotCore sid) n.toNat = true := by
      unfold State.headFull
      rw [hcl]
      exact hfull
    show rpopPerform n (s.acting sid) = _
    unfold rpopPerform
    dsimp only
    rw [show slotCore (s.acting sid).cur = slotCore sid from rfl, hhead, htaints, show (s.acting sid).ring (slotCore sid) n.toNat = r from rfl, hv, ← hu0]
    simp only [hmode, decide_false, Bool.not_true, Bool.or_self, Bool.false_eq_true, if_false]
    unfold State.popRing
    rw [hcl]
    rfl
  generalize hu1 : (if decide (r.mode = 1) then u0.modCore (slotCore sid) fun k => { k with frees := k.frees ++ [(n.toNat, r.headTag, s.now, (s.ctx sid).taints)] } else u0) = u1 at hf
  have hcore0 : u0.core (slotCore sid) = s.core (slotCore sid) := by
    rw [State.core, hch.cores]
    rfl
  have hu1' : u1.ctxs = u0.ctxs ∧ u1.clus = u0.clus ∧ u1.cur = u0.cur ∧ u1.bytes = u0.bytes := by
    rw [← hu1]
    split
    · exact ⟨rfl, rfl, rfl, rfl⟩
    · exact ⟨rfl, rfl, rfl, rfl⟩
  obtain ⟨hctx1, hclu1, hcur1, hb1⟩ := hu1'
  have hctxs : ∀ j, u1.ctx j = u0.ctx j := fun j => by rw [State.ctx, State.ctx, hctx1]
  have hring1 : u1.ring (slotCore sid) n.toNat = r := by
    rw [← hu1]
    split
    · rw [State.ring, State.modCore_core, if_pos rfl, hcore0]
      rfl
    · rw [State.ring, hcore0]
      rfl
  have hfrees1 : (u1.core (slotCore sid)).frees = (s.core (slotCore sid)).frees ++ (if r.mode = 1 then [(n.toNat, r.headTag, s.now, (s.ctx sid).taints)] else []) := by
    rw [← hu1]
    by_cases hm : r.mode = 1
    · rw [if_pos (decide_eq_true hm), if_pos hm, State.modCore_core, if_pos rfl, hcore0]
    · rw [if_neg (by simpa using hm), if_neg hm, hcore0, List.append_nil]
  refine State.serves_plain h hf (hcur1.trans hch.cur) (fun j hj => ?_) ?_ (hb1.trans hch.bytes) fun t h1 h2 h3 h4 h5 => ⟨h1, h2, h3, ?_, ?_, ?_⟩
  · show (u1.ctx j).pend = _
    rw [hctxs, hch.pend_acting hj]
  · show u1.ctx sid = _
    rw [hctxs]
    exact hch.ctx sid (State.acting_awake h)
  · rw [State.ring, h4]
    show (u1.modRing (slotCore sid) n.toNat _).ring (slotCore sid) n.toNat = _
    rw [State.modRing_ring, if_pos ⟨rfl, rfl⟩, hring1]
    rfl
  · have htag : u1.tag cl r.headTag = u0.tag cl r.headTag := by rw [State.tag, State.tag, State.clu, State.clu, hclu1]
    rw [h5]
    show tagView (u1.tag cl r.headTag) = _
    rw [htag, hch.view]
  · rw [h4, ← hfrees1]
    show ((u1.modCore _ _).core (slotCore sid)).frees = _
    rw [State.modCore_core, if_pos rfl]

/-- RPUSH, served (R200). -/
theorem rpush_acts (n : BitVec 4) (s : State) {cl sid : Nat} {acc : BankAccess} (h : s.servesForm cl sid acc (.rpush n)) :
    let r := s.ring (slotCore sid) n.toNat
    let v := s.tag cl r.tailTag
    r.valid = true → r.mode ≠ 1 → tagFillable v = true → s.does (.scalarSlotGrant cl) fun t =>
      s.formDone t sid [] ∧ (s.ctx sid).sameX (t.ctx sid) ∧ s.sameBytes t ∧ t.ring (slotCore sid) n.toNat = { r with tail := (r.tail + 1) % r.count } ∧
      tagView (t.tag cl r.tailTag) = { tagView v with full := true } := by
  intro r v hv hmode hfill
  have hcl := slotCluster_of_servesForm h
  have hch := State.tagChange_putTag (s.acting sid) cl r.tailTag (emptied v (tagCons v) true) (s.acting sid).me.taints
  have hview : tagView (emptied v (tagCons v) true) = { tagView v with full := true } := by
    simp only [tagFillable, Bool.and_eq_true, Bool.not_eq_true', decide_eq_true_eq] at hfill
    obtain ⟨⟨⟨⟨-, hcons⟩, hexp⟩, -⟩, hbal⟩ := hfill
    rw [tagView_emptied]
    simp only [tagView, hcons, hexp, hbal]
  rw [hview] at hch
  generalize hu0 : (s.acting sid).putTag cl r.tailTag (emptied v (tagCons v) true) (s.acting sid).me.taints = u0 at hch
  have hf : formPerform (.rpush n) (s.acting sid) (s.formValue acc) = .ok (u0.modRing (slotCore sid) n.toNat fun r => { r with tail := r.after r.tail }).adv := by
    show rpushPerform n (s.acting sid) = _
    unfold rpushPerform
    dsimp only
    rw [show slotCore (s.acting sid).cur = slotCore sid from rfl, show slotCluster (s.acting sid).cur = cl from hcl,
      show (s.acting sid).ring (slotCore sid) n.toNat = r from rfl, hv, show (s.acting sid).tag cl r.tailTag = v from rfl, hfill, hu0]
    simp only [hmode, decide_false, Bool.not_true, Bool.or_self, Bool.false_eq_true, if_false]
  have hcore0 : u0.core (slotCore sid) = s.core (slotCore sid) := by
    rw [State.core, hch.cores]
    rfl
  refine State.serves_plain h hf hch.cur (fun j hj => hch.pend_acting hj) (hch.ctx sid (State.acting_awake h)) hch.bytes fun t h1 h2 h3 h4 h5 => ⟨h1, h2, h3, ?_, ?_⟩
  · rw [State.ring, h4]
    show (u0.modRing (slotCore sid) n.toNat _).ring (slotCore sid) n.toNat = _
    rw [State.modRing_ring, if_pos ⟨rfl, rfl⟩, State.ring, hcore0]
    rfl
  · rw [h5]
    exact hch.view

/-- Settles O19: RDEF, RPOP and RPUSH wait at their tag, and act in the slot that serves them. -/
theorem ringsAreDefinedAndMove : Obligations.RingsAreDefinedAndMove := by
  refine ⟨fun n a b s => ⟨State.tileForm_issued rfl, ?_⟩, fun n s => ⟨State.tileForm_issued rfl, State.tileForm_issued rfl, ?_⟩⟩
  · intro cl sid acc h
    exact rdef_acts n a b s h
  · intro cl sid acc r w v
    exact ⟨fun h => rpop_acts n s h, fun h => rpush_acts n s h⟩

/-! TTAG and TWAIT (R202, R203). -/

/-- A register's result, to be usable some cycles later. -/
theorem Ctx.wx_usableAt (c : Ctx) (d : BitVec 5) (v : Word) (k : Cause) (at_ ser : Nat) :
    c.gives ((c.wx d v).usableAt d k at_) ser at_ (.x d) v ∧ ∃ b l, (c.wx d v).usableAt d k at_ = { c.wx d v with busy := b, late := l } := by
  unfold Ctx.usableAt
  split
  · next h => exact ⟨⟨fun m => Ctx.wx_rx c d m v, fun hd => absurd h hd⟩, _, _, rfl⟩
  · exact ⟨⟨fun m => Ctx.wx_rx c d m v, fun _ => ⟨_, List.mem_append_right _ List.mem_cons_self, rfl, rfl⟩⟩, _, _, rfl⟩

theorem Ctx.wx_frame (c : Ctx) (d : BitVec 5) (v : Word) : ∃ x m, c.wx d v = { c with x := x, meet := m } := by
  unfold Ctx.wx Ctx.wxAt
  split
  · exact ⟨_, _, rfl⟩
  · exact ⟨_, _, rfl⟩

/-- The service of a form that acts on tags and gives a register its result. -/
theorem State.serves_gives {s u : State} {cl sid : Nat} {a : BankAccess} {i : Instr} {d : BitVec 5} {v : Word} {f : Ctx → Ctx} {n : Nat} {view : TagView}
    {p : State → Prop} (h : s.servesForm cl sid a i) (hch : (s.acting sid).TagChange u cl n view) (hf : formPerform i (s.acting sid) (s.formValue a) = .ok (u.upd f).adv)
    (hgives : ∀ c : Ctx, c.gives (f c) a.serial (s.now + 3) (.x d) v) (hframe : ∀ c : Ctx, ∃ x m b l k, f c = { c with x := x, meet := m, busy := b, late := l, acq := k })
    (hp : ∀ t, s.formDone t sid [] → (s.ctx sid).gives (t.ctx sid) a.serial (s.now + 3) (.x d) v → s.sameBytes t → tagView (t.tag cl n) = view → p t) :
    s.does (.scalarSlotGrant cl) p := by
  have hself : (u.upd f).ctx sid = f ((s.acting sid).ctx sid) := by
    rw [State.upd, hch.cur, State.modCtx_self, hch.ctx sid (State.acting_awake h)]
  have hgive := hgives ((s.acting sid).ctx sid)
  obtain ⟨x, m, b, l, k, hfr⟩ := hframe ((s.acting sid).ctx sid)
  rw [State.acting_ctx h] at hself hgive hfr
  refine State.serves_adv h hf hch.cur (fun j hj => ?_) (by rw [hself, hfr]; exact h.2.2) hch.bytes fun t z ht h1 h2 h3 => ?_
  · rw [State.upd_other _ _ _ (by rw [hch.cur]; exact hj), hch.pend_acting hj]
  · rw [hself] at ht
    refine hp t ⟨by rw [ht], ?_, ?_⟩ ?_ h1 ?_
    · rw [ht, hfr]
    · rw [ht, hfr]
    · exact Ctx.gives_congr hgive (fun _ => rfl) (fun m => by rw [ht]; rfl) (fun y hy => by rw [ht]; exact hy) (by rw [ht])
    · rw [h3]
      exact hch.view

theorem tagView_zero : tagView 0 = { valid := false, full := false, cons := false, exp := false, ovr := false, bal := 0 } := by decide

/-- TTAG, served. -/
theorem ttag_acts (d a b : BitVec 5) (s : State) {cl sid : Nat} {acc : BankAccess} (h : s.servesForm cl sid acc (.ttag d a b)) :
    let c := s.ctx sid
    let m := (c.rx a).toNat
    let w := s.tag cl m
    let ends (f : TagView → Prop) : Prop := s.does (.scalarSlotGrant cl) fun t =>
      s.formDone t sid [] ∧ c.gives (t.ctx sid) acc.serial (s.now + 3) (.x d) w ∧ s.sameBytes t ∧ f (tagView (t.tag cl m))
    m < 4096 →
      (c.rx b = 0 → ends fun v => v = tagView w) ∧
      (c.rx b = 1 → ends fun v => v = { valid := true, full := false, cons := false, exp := false, ovr := false, bal := 0 }) ∧
      (c.rx b = 2 → tagValid w = true → tagFull w = false → tagExp w = false → tagOvr w = false → tagBal w = 0 → ends fun v => v = { tagView w with full := true }) ∧
      (c.rx b = 3 → tagValid w = true → tagFull w = true → tagExp w = false → ends fun v => v = { tagView w with full := false, bal := 0 }) ∧
      (c.rx b = 4 → ends fun v => v = { valid := false, full := false, cons := false, exp := false, ovr := false, bal := 0 }) ∧
      (5 ≤ (c.rx b).toNat → s.trapsNow sid → s.does (.scalarSlotGrant cl) fun t => c.traps (t.ctx sid) .tileFault (wordOfInt (m : Nat)) c.pc ∧ s.sameBytes t ∧
        t.tag cl m = w) := by
  intro c m w ends hm
  have hcl := slotCluster_of_servesForm h
  generalize hq : s.acting sid = q
  have hqtag : q.tag cl m = w := by rw [← hq]; rfl
  have hqcur : slotCluster q.cur = cl := by rw [← hq]; exact hcl
  have hqnow : q.now = s.now := by rw [← hq]; rfl
  have hrxa : q.me.rx a = c.rx a := by rw [← hq]; exact State.acting_rx h a
  have hrxb : q.me.rx b = c.rx b := by rw [← hq]; exact State.acting_rx h b
  have hmod : (c.rx a).toNat % 4096 = m := Nat.mod_eq_of_lt hm
  have hperf : formPerform (.ttag d a b) q (s.formValue acc) =
      let done (s : State) : Res := .ok ((s.upd fun c => (c.wx d w).usableAt d .slotWait (s.now + 3)).adv)
      match (c.rx b).toNat with
      | 0 => done q
      | 1 => done (q.putTag cl m (tagFresh w))
      | 2 => if tagValid w && !tagFull w && !tagExp w && !tagOvr w && decide (tagBal w = 0) then done (q.putTag cl m (emptied w (tagCons w) true) q.me.taints)
        else .trap .tileFault (w64 m)
      | 3 => if tagValid w && tagFull w then done (q.putTag cl m (tagRules (tagWaitBits w) (tagOvr w) true (tagCons w) false (tagExp w) 0)) else .trap .tileFault (w64 m)
      | 4 => done ((q.wakeTags cl m true 3).putTag cl m 0)
      | _ => .trap .tileFault (w64 m) := by
    show ttagPerform d a b q = _
    unfold ttagPerform
    dsimp only
    rw [hrxa, hrxb, hqcur, hmod, hqtag, if_neg (Nat.not_le.mpr hm)] <;> rfl
  have hends : ∀ (u : State) (v : TagView), q.TagChange u cl m v →
      formPerform (.ttag d a b) q (s.formValue acc) = .ok ((u.upd fun c => (c.wx d w).usableAt d .slotWait (u.now + 3)).adv) → ∀ x, v = x → ends fun v => v = x := by
    rintro u v hch hf x rfl
    have hunow : u.now = s.now := hch.now.trans hqnow
    rw [hunow, ← hq] at hf
    rw [← hq] at hch
    refine State.serves_gives h hch hf (fun c => (Ctx.wx_usableAt c d w .slotWait (s.now + 3) acc.serial).1) (fun c => ?_) fun t h1 h2 h3 h4 => ⟨h1, h2, h3, h4⟩
    obtain ⟨b, l, hb⟩ := (Ctx.wx_usableAt c d w .slotWait (s.now + 3) acc.serial).2
    obtain ⟨x, m, hx⟩ := Ctx.wx_frame c d w
    exact ⟨x, m, b, l, c.acq, by rw [hb, hx]⟩
  refine ⟨fun hb => ?_, fun hb => ?_, fun hb hv hf he ho hbal => ?_, fun hb hv hf he => ?_, fun hb => ?_, fun hb hn => ?_⟩
  · refine hends q (tagView w) (hqtag ▸ State.TagChange.refl q cl m) ?_ _ rfl
    rw [hperf, hb]
    rfl
  · refine hends _ _ (State.tagChange_putTag q cl m (tagFresh w) []) ?_ _ (tagView_fresh w)
    rw [hperf, hb]
    rfl
  · refine hends _ _ (State.tagChange_putTag q cl m (emptied w (tagCons w) true) q.me.taints) ?_ _ ?_
    · rw [hperf, hb, hv, hf, he, ho, hbal]
      rfl
    · rw [tagView_emptied]
      simp only [tagView, he, hbal]
  · refine hends _ _ (State.tagChange_putTag q cl m (tagRules (tagWaitBits w) (tagOvr w) true (tagCons w) false (tagExp w) 0) []) ?_ _ ?_
    · rw [hperf, hb, hv, hf]
      rfl
    · have hout : balOut 0 = false := by decide
      unfold tagRules
      simp only [he, hout, Bool.and_false, Bool.false_and, Bool.or_false, Bool.false_eq_true, if_false]
      rw [tagView_mkTag _ _ _ _ _ _ (bal := 0) (by norm_num)]
      simp only [tagView, hv, he]
  · refine hends _ _ ((State.tagChange_wakeTags q cl m true 3).trans (State.tagChange_putTag _ cl m 0 [])) ?_ _ tagView_zero
    rw [hperf, hb]
    rfl
  · have hf : formPerform (.ttag d a b) (s.acting sid) (s.formValue acc) = .trap .tileFault (wordOfInt (m : Nat)) := by
      obtain ⟨k, hk⟩ : ∃ k, (c.rx b).toNat = k + 5 := ⟨(c.rx b).toNat - 5, by omega⟩
      rw [hq, hperf, hk, wordOfInt_natCast]
      rfl
    exact State.serves_trap h hf hn fun t h1 h2 _ h4 => ⟨h1, h2, h4 cl m⟩

theorem waitBit_shifted {sid : Nat} (h : isVisitor sid = false) : (waitBit sid).zeroExtend 64 <<< 32 = BitVec.ofNat 64 (2 ^ (32 + sid % 10)) := by
  have hlt : sid % 10 < 8 := by simpa [isVisitor] using h
  unfold waitBit
  generalize sid % 10 = k at hlt
  interval_cases k <;> decide

/-- TWAIT, served. -/
theorem twait_acts (d a b : BitVec 5) (s : State) {cl sid : Nat} {acc : BankAccess} (h : s.servesForm cl sid acc (.twait d a b)) (hvis : isVisitor sid = false) :
    let c := s.ctx sid
    let m := (c.rx a).toNat % 4096
    let empty := decide ((c.rx a).toNat / 4096 = 1)
    let w := s.tag cl m
    let ends (v : Word) : Prop := s.does (.scalarSlotGrant cl) fun t => s.formDone t sid [] ∧ c.gives (t.ctx sid) acc.serial (s.now + 3) (.x d) v ∧ s.sameBytes t
    (c.rx a).toNat < 2 * 4096 → tagValid w = true →
      (tagFull w ≠ empty → ends 0) ∧
      (tagFull w = empty → c.rx b = 0 → ends 2) ∧
      (tagFull w = empty → c.rx b ≠ 0 → s.does (.scalarSlotGrant cl) fun t => (t.ctx sid).pend = [] ∧ (t.ctx sid).pc = c.pc ∧ c.sameX (t.ctx sid) ∧ s.sameBytes t ∧
        (t.ctx sid).act = .waitTag d m empty (if c.rx b = BitVec.allOnes 64 then none else some (s.now + (c.rx b).toNat)) ∧
        t.tag cl m = w ||| BitVec.ofNat 64 (2 ^ (32 + sid % 10))) := by
  intro c m empty w ends hlt hv
  have hcl := slotCluster_of_servesForm h
  have e1 : bitsOf (c.rx a).toNat 13 12 = (c.rx a).toNat / 4096 := by
    simp only [bitsOf, Nat.shiftRight_eq_div_pow]
    omega
  have e2 : bitsOf (c.rx a).toNat 63 14 = 0 := by
    simp only [bitsOf, Nat.shiftRight_eq_div_pow]
    omega
  have hcond : ¬2 ≤ (c.rx a).toNat / 4096 := by omega
  have hmeets : tagMeets w empty = decide (tagFull w ≠ empty) := by
    unfold tagMeets
    cases empty <;> cases tagFull w <;> rfl
  generalize hq : s.acting sid = q
  have hqtag : q.tag cl m = w := by rw [← hq]; rfl
  have hqcl : slotCluster q.cur = cl := by rw [← hq]; exact hcl
  have hqcur : q.cur = sid := by rw [← hq]
  have hqnow : q.now = s.now := by rw [← hq]; rfl
  have hrxa : q.me.rx a = c.rx a := by rw [← hq]; exact State.acting_rx h a
  have hrxb : q.me.rx b = c.rx b := by rw [← hq]; exact State.acting_rx h b
  have hperf : formPerform (.twait d a b) q (s.formValue acc) =
      if tagMeets w empty then
        .ok ((q.upd fun c => { (c.wx d 0).usableAt d .slotWait (s.now + 3) with acq := some .slotWait }.acquireEnds s.now (s.now + 3)).adv)
      else if c.rx b = 0 then .ok ((q.upd fun c => (c.wx d 2).usableAt d .slotWait (s.now + 3)).adv)
      else .ok ((q.modClu cl fun c => { c with tags := Tab.set 0 c.tags m (w ||| ((waitBit sid).zeroExtend 64 <<< 32)) }).upd fun k =>
        { k with act := .waitTag d m empty (if c.rx b = BitVec.allOnes 64 then none else some (s.now + (c.rx b).toNat)) }) := by
    show twaitPerform d a b q = _
    unfold twaitPerform
    dsimp only
    rw [hrxa, hrxb, hqcl, e1, e2, hqtag, hv, hqnow, hqcur]
    simp only [hcond, decide_false, bne_self_eq_false, Bool.not_true, Bool.or_self, Bool.false_eq_true, if_false]
    rfl
  refine ⟨fun hne => ?_, fun he hb => ?_, fun he hb => ?_⟩
  · rw [hmeets, if_pos (decide_eq_true hne), ← hq] at hperf
    refine State.serves_gives h (State.TagChange.refl _ cl m) hperf (fun c => ?_) (fun c => ?_) fun t h1 h2 h3 _ => ⟨h1, h2, h3⟩
    · obtain ⟨l, k, ha, hl⟩ := Ctx.acquireEnds_frame { (c.wx d 0).usableAt d .slotWait (s.now + 3) with acq := some .slotWait } s.now (s.now + 3)
      rw [ha]
      exact Ctx.gives_congr (Ctx.wx_usableAt c d 0 .slotWait (s.now + 3) acc.serial).1 (fun _ => rfl) (fun _ => rfl) (fun y hy => hl y hy) rfl
    · obtain ⟨b, l, hb⟩ := (Ctx.wx_usableAt c d 0 .slotWait (s.now + 3) acc.serial).2
      obtain ⟨x, m, hx⟩ := Ctx.wx_frame c d 0
      obtain ⟨l', k, ha, -⟩ := Ctx.acquireEnds_frame { (c.wx d 0).usableAt d .slotWait (s.now + 3) with acq := some .slotWait } s.now (s.now + 3)
      exact ⟨x, m, b, l', k, by rw [ha, hb, hx]⟩
  · rw [hmeets, if_neg (by simpa using he), if_pos hb, ← hq] at hperf
    refine State.serves_gives h (State.TagChange.refl _ cl m) hperf (fun c => (Ctx.wx_usableAt c d 2 .slotWait (s.now + 3) acc.serial).1) (fun c => ?_)
      fun t h1 h2 h3 _ => ⟨h1, h2, h3⟩
    obtain ⟨b, l, hb⟩ := (Ctx.wx_usableAt c d 2 .slotWait (s.now + 3) acc.serial).2
    obtain ⟨x, m, hx⟩ := Ctx.wx_frame c d 2
    exact ⟨x, m, b, l, c.acq, by rw [hb, hx]⟩
  · rw [hmeets, if_neg (by simpa using he), if_neg hb, ← hq, waitBit_shifted hvis] at hperf
    generalize hz : (s.acting sid).modClu cl (fun c => { c with tags := Tab.set 0 c.tags m (w ||| BitVec.ofNat 64 (2 ^ (32 + sid % 10))) }) = z at hperf
    have hzctx : ∀ j, z.ctx j = (s.acting sid).ctx j := fun j => by rw [← hz]; rfl
    have hzcur : z.cur = sid := by rw [← hz]; rfl
    have hself : (z.upd fun k => { k with act := .waitTag d m empty (if c.rx b = BitVec.allOnes 64 then none else some (s.now + (c.rx b).toNat)) }).ctx sid =
        { s.ctx sid with pend := [], act := .waitTag d m empty (if c.rx b = BitVec.allOnes 64 then none else some (s.now + (c.rx b).toNat)) } := by
      rw [State.upd, hzcur, State.modCtx_self, hzctx, State.acting_ctx h]
    have hunstall := State.afterForm_self s (z.upd fun k => { k with act := .waitTag d m empty (if c.rx b = BitVec.allOnes 64 then none else some (s.now + (c.rx b).toNat)) })
      cl sid (.twait d a b)
    rw [hself] at hunstall
    refine State.serves_ok h hperf hzcur (fun j hj => ?_) ⟨?_, ?_, fun m => ?_, ?_, ?_, ?_⟩
    · rw [State.upd_other _ _ _ (by rw [hzcur]; exact hj), hzctx, State.acting_other s hj]
    · rw [hunstall]
      rfl
    · rw [hunstall]
      rfl
    · rw [hunstall]
      rfl
    · refine State.sameBytes_of_bytes ((State.afterForm_bytes ..).trans ?_)
      rw [State.upd, State.bytes_modCtx, ← hz]
      exact State.bytes_modClu _ _ _ rfl
    · rw [hunstall]
      rfl
    · obtain ⟨q', n', hc⟩ := State.afterForm_clu s (z.upd fun k => { k with act := .waitTag d m empty (if c.rx b = BitVec.allOnes 64 then none else some (s.now + (c.rx b).toNat)) })
        cl sid (.twait d a b) cl
      rw [State.tag, hc]
      show z.tag cl m = _
      rw [← hz, State.setTag_tag _ cl cl m m _ rfl, if_pos ⟨rfl, rfl⟩]

/-- Settles O21: TTAG and TWAIT wait at their tag, and act in the slot that serves them. -/
theorem tagFormsActAndWait : Obligations.TagFormsActAndWait := by
  refine ⟨fun d a b s => ⟨State.tileForm_issued rfl, ?_⟩, fun d a b s => ⟨State.tileForm_issued rfl, ?_⟩⟩
  · intro cl sid acc h
    exact ttag_acts d a b s h
  · intro cl sid acc h hvis
    exact twait_acts d a b s h hvis

end Sys2Proof.Machine
end


section
/-!
PROOFS. The engine forms, traps, returns, SLEEP, CHBIND and ACCT (R205 to R213, R228, R234 to R237, R324, R325).
-/

namespace Sys2Proof.Machine

/-! XDRAIN at a tile that is not the ring's first. -/

/-- The block of an XDRAIN of a ring of two tiles, of which one has been stored (Table 10-4). -/
def drainBlock : Nat := [0x10000, 0x3000100010008, 0, 0x1000000000000, 0x1000000000000, 0x200000000, 0x100000007, 0].zipIdx.foldl (fun n w => n + w.1 * 2 ^ (64 * w.2)) 0

def drainAccess : BankAccess := { op := .form (.xdrain 5), cl := 0, tags := false, off := 0x100, size := 64, serial := 0 }

/-- Slot 0 with the XDRAIN pending at its block. -/
def drainState : State := {
  ctxs := [(0, { act := .stalled .slotWait, pc := 0x1000, x := (Vector.replicate 32 0).set 5 0xF0000000000100, pend := [drainAccess] })]
  cores := [(0, { rg := [(2, { base := 0, size := 64, tag0 := 0, count := 2, valid := true })] })]
  clus := [(0, { spad := Memory.writeN [] 0x100 drainBlock 64, tags := [(0, 0x08000000), (1, 0x08000000)] })]
  now := 7 }

theorem drainState_serves : drainState.servesForm 0 0 drainAccess (.xdrain 5) := by
  refine ⟨⟨rfl, by decide +kernel, rfl, fun o ho hne => ?_, by decide +kernel⟩, rfl, rfl⟩
  simp [State.ctx, drainState, Tab.get, Ne.symm hne]

/-- The ring that the service leaves has its head at the second tile. -/
theorem drainState_ring : ∃ t, exec (.scalarSlotGrant 0) drainState = .next t ∧ (t.ring 0 2).head = 1 := by
  refine ⟨_, rfl, ?_⟩
  decide +kernel

/-- Refutes O22: an XDRAIN whose block names a first tile sets the head and the tail of its ring there, and the statement keeps them. -/
theorem not_engineFormsTakeASlot : ¬ Obligations.EngineFormsTakeASlot := by
  unfold Obligations.EngineFormsTakeASlot
  intro h
  obtain ⟨-, -, hwalk⟩ := h drainState
  obtain ⟨hok, -⟩ := hwalk 0 0 drainAccess (.xdrain 5) 5 true (.inr ⟨rfl, rfl⟩) drainState_serves rfl
  obtain ⟨t, ht, -, -, -, -, hring⟩ := hok (by decide +kernel) (by decide +kernel) (by decide +kernel)
  obtain ⟨t', ht', hhead⟩ := drainState_ring
  obtain rfl : t = t' := Host.Outcome.next.inj (ht.symm.trans ht')
  have hblk : (walkBlk (drainState.spadRead drainAccess.cl drainAccess.off drainAccess.size)).ring = 2 := by decide +kernel
  rw [hblk] at hring
  have hhead0 : (t.ring (slotCore 0) 2).head = (drainState.ring 0 2).head := by
    rw [hring]
    rfl
  rw [show slotCore 0 = 0 from rfl] at hhead0
  rw [hhead0] at hhead
  exact absurd hhead (by decide +kernel)

/-! Traps (R234, R324). -/

/-- What a trap of the running context leaves of it, at home (R324). -/
theorem State.trap_enters {s : State} (k : Trap) (v : Word) (e : BitVec 56) (hb : s.trapBlock s.cur = none) (hm : s.me.inmeet = false) :
    (s.trap k v e).me.pc = s.me.tvec ∧ (s.trap k v e).me.mode = true ∧ (s.trap k v e).me.pmode = s.me.mode ∧ (s.trap k v e).me.cause = w64 k.code ∧
      (s.trap k v e).me.tval = v ∧ (s.trap k v e).me.epc = e &&& ~~~3 ∧ s.sameX (s.trap k v e) ∧ s.sameBytes (s.trap k v e) := by
  have ht : s.trap k v e = _ := State.trapAs_enters s s.cur true false k v e hb hm
  have hme : (s.trap k v e).me = { s.me.trapEnter false k v e with charge := .issue, lastIssue := s.now, pause := some (.redirect, s.redirectEnd s.cur true) } := by
    rw [ht]
    exact State.modCtx_self ..
  unfold State.sameX
  rw [hme]
  refine ⟨rfl, rfl, rfl, rfl, rfl, rfl, fun m => rfl, State.sameBytes_of_bytes ?_⟩
  rw [ht]
  rfl

/-- Settles O33: what a trap at home leaves, and SCALL and BRK by it. -/
theorem trapsEnterTheHandler : Obligations.TrapsEnterTheHandler := by
  refine ⟨?_, fun i s => ⟨fun hb hm => ?_, fun hd hb hm => ?_, fun hd => ?_⟩⟩
  · intro s sid own async k v e hb hm c t d
    have ht : t = _ := State.trapAs_enters s sid own async k v e hb hm
    have hd : d = { c.trapEnter async k v e with charge := .issue, lastIssue := if own then s.now else c.lastIssue, pause := some (.redirect, s.redirectEnd sid own) } := by
      show t.ctx sid = _
      rw [ht]
      exact State.modCtx_self ..
    rw [hd]
    refine ⟨rfl, rfl, rfl, rfl, rfl, ?_, rfl, rfl, rfl, rfl, rfl, fun h1 h2 => ?_, rfl, rfl, rfl, rfl, rfl, rfl, rfl, rfl, rfl, fun o ho => ?_, ?_, fun ci => ?_⟩
    · refine (wordOfInt_natCast _).symm.trans (congrArg wordOfInt ?_)
      split <;> simp
    · show c.frameAtTrap = _
      simp only [Ctx.frameAtTrap, h1, h2]
      rfl
    · rw [ht]
      exact State.modCtx_other _ _ _ _ ho
    · rw [ht]
      rfl
    · rw [ht, State.modCtx_core, State.stopFrame, State.modCore_core]
      split
      · next h => rw [h]
      · rfl
  · obtain ⟨h1, h2, h3, h4, h5, h6, h7, h8⟩ := State.trap_enters .syscall (i.zeroExtend 64) s.me.next hb hm
    rw [Ctx.next_eq_pcMoved] at h1 h2 h3 h4 h5 h6 h7 h8
    refine ⟨s.trap .syscall (i.zeroExtend 64) (pcMoved s.me.pc 1), ?_, h1, h2, h3, h4, h5, h6, h7, h8⟩
    rw [← Ctx.next_eq_pcMoved]
    rfl
  · obtain ⟨h1, h2, h3, h4, h5, h6, h7, h8⟩ := State.trap_enters .breakpoint (i.zeroExtend 64) s.me.pc hb hm
    refine ⟨s.trap .breakpoint (i.zeroExtend 64) s.me.pc, ?_, h1, h2, h3, h4, h5, h6, h7, h8⟩
    show finish s _ = _
    rw [hd]
    rfl
  · have hme : (s.adv.upd fun c => { c with act := .halted }).me = { s.me with pc := pcMoved s.me.pc 1, act := .halted } := by
      rw [State.upd_me, State.adv_me, ← pc_next]
    refine ⟨(s.adv.upd fun c => { c with act := .halted }).issued false, ?_, ?_, ?_, ?_, fun m => ?_, State.sameBytes_of_bytes (by simp)⟩
    · show finish s _ = _
      rw [hd]
      rfl
    · rw [State.issued_me, hme]
    · rw [State.issued_me, hme]
    · rw [State.issued_me, hme]
    · rw [State.issued_me, hme]
      rfl

/-! Returns (R235, R325). -/

theorem State.unstrand_frame (s : State) (sid : Nat) : (s.unstrand sid).cur = s.cur ∧ (s.unstrand sid).now = s.now ∧ (s.unstrand sid).ctxs = s.ctxs ∧
    (s.unstrand sid).bytes = s.bytes ∧ ((s.ctx sid).fault.pending = false → ∀ r ∈ (s.unstrand sid).reqs, r.sid = sid → r.stranded = false) := by
  unfold State.unstrand
  split
  · next h => exact ⟨rfl, rfl, rfl, rfl, fun h' => by rw [h] at h'; cases h'⟩
  · refine ⟨rfl, rfl, rfl, rfl, fun _ r hr hsid => ?_⟩
    rcases List.mem_append.mp hr with hr | hr
    · have hkeep := (List.mem_filter.mp hr).2
      simpa [hsid] using hkeep
    · obtain ⟨q, -, rfl⟩ := List.mem_map.mp hr
      rfl

/-- What a return leaves of a context that was in its handler: the status it had, and its PC and capture as the return sets them. -/
theorem State.tret_issued (s : State) (pc : BitVec 56) (cap : Ctx → Option Capture) {f : Ctx → Ctx}
    (hf : f s.me.trapLeave = { s.me.trapLeave with pc := pc, cap := cap s.me.trapLeave }) :
    let t := ((((s.unstrand s.cur).upd Ctx.trapLeave).upd f).issued false).upd fun c => { c with mret := true, pause := some (.redirect, s.now + 4) }
    s.completes t pc ∧ (t.me.mode = s.me.pmode ∧ t.me.ui = s.me.pui ∧ t.me.frame.getLsbD 15 = false ∧ s.sameX t ∧ s.sameBytes t ∧
      (s.me.fault.pending = false → t.me.fault.valid = false ∧ ∀ r ∈ t.reqs, r.sid = s.cur → r.stranded = false)) ∧ t.me.cap = cap s.me.trapLeave := by
  obtain ⟨hcur, hnow, hctxs, hb, hreqs⟩ := State.unstrand_frame s s.cur
  have hume : (s.unstrand s.cur).me = s.me := by rw [State.me, State.ctx, hcur, hctxs]; rfl
  generalize s.unstrand s.cur = u at hcur hnow hb hreqs hume
  have hv : ((u.upd Ctx.trapLeave).upd f).me = { s.me.trapLeave with pc := pc, cap := cap s.me.trapLeave } := by
    rw [State.upd_me, State.upd_me, hume, hf]
  have hvcur : ((u.upd Ctx.trapLeave).upd f).cur = s.cur := hcur
  have hvnow : ((u.upd Ctx.trapLeave).upd f).now = s.now := hnow
  have hvb : ((u.upd Ctx.trapLeave).upd f).bytes = s.bytes := hb
  have hvreqs : ((u.upd Ctx.trapLeave).upd f).reqs = u.reqs := rfl
  generalize (u.upd Ctx.trapLeave).upd f = v at hv hvcur hvnow hvb hvreqs
  intro t
  have ht : t.me = { s.me.trapLeave with
      pc := pc, cap := cap s.me.trapLeave, charge := .issue, lastIssue := s.now, mret := true, serial := s.me.serial + 1, pause := some (.redirect, s.now + 4) } := by
    rw [State.upd_me, State.issued_me, hv, hvnow]
    rfl
  refine ⟨⟨?_, by rw [ht], by rw [ht], by rw [ht], by rw [ht]; rfl⟩, ⟨by rw [ht]; rfl, by rw [ht]; rfl, ?_, fun m => by rw [ht]; rfl, State.sameBytes_of_bytes ?_, fun hp => ⟨?_, ?_⟩⟩,
    by rw [ht]⟩
  · exact (State.issued_cur v false).trans hvcur
  · rw [ht]
    show (s.me.frame &&& ~~~(0x8000#64)).getLsbD 15 = false
    simp
  · exact (State.bytes_issued v false).trans hvb
  · rw [ht]
    show (s.me.fault.valid && s.me.fault.pending) = false
    rw [hp, Bool.and_false]
  · intro r hr
    refine hreqs hp r ?_
    rw [← hvreqs, ← State.issued_reqs v false]
    exact hr

/-- Settles O34: TRET by mode, matrix state and FRAME, and UIRET by mode and UI. -/
theorem returnsRestoreTheStatus : Obligations.ReturnsRestoreTheStatus := by
  intro s
  refine ⟨fun hm => ?_, fun hm hs => ?_, fun hm hs => ?_, fun hno => ?_, fun hm hu => ?_⟩
  · show execTret s = _
    simp only [execTret, State.tretForm, hm, Bool.not_false, if_true, finish_trap]
  · show execTret s = _
    simp only [execTret, State.tretForm, hm, hs, Bool.not_true, Bool.false_eq_true, if_false, if_true, finish_trap]
  · intro back
    have hform : s.tretForm = if !s.me.frame.getLsbD 15 then .ok (((s.unstrand s.cur).upd Ctx.trapLeave).upd fun c => { c with pc := c.epc })
        else match s.wordBefore with
        | .error t => .trap t (pcWord (s.me.framepc - 4))
        | .ok w => match decode w with
          | some (.repf _ n st) => .ok (((s.unstrand s.cur).upd Ctx.trapLeave).upd fun d => { d with pc := s.me.framepc, cap := some (s.me.recapture n st) })
          | _ => .trap .frameIllegal (w.zeroExtend 64) := by
      simp only [State.tretForm, hm, hs, Bool.not_true, Bool.false_eq_true, if_false] <;> rfl
    have hok : ∀ u, s.tretForm = .ok u → exec .tret s = .next ((u.issued false).upd fun c => { c with mret := true, pause := some (.redirect, s.now + 4) }) := fun u h => by
      show execTret s = _
      rw [execTret, h]
    refine ⟨fun hf => ?_, fun w l n st hf hw hd => ?_, fun w hf hw hd => ?_⟩
    · obtain ⟨h1, h2, -⟩ := State.tret_issued s s.me.epc Ctx.cap (f := fun c => { c with pc := c.epc }) rfl
      refine ⟨_, hok _ ?_, h1, h2⟩
      rw [hform, hf]
      rfl
    · obtain ⟨h1, h2, h3⟩ := State.tret_issued s s.me.framepc (fun _ => some (s.me.recapture n st))
        (f := fun d => { d with pc := s.me.framepc, cap := some (s.me.recapture n st) }) rfl
      refine ⟨_, hok _ ?_, h1, h2, h3⟩
      rw [hform, hf, hw]
      simp only [hd, Bool.not_true, Bool.false_eq_true, if_false]
    · have hno : s.tretForm = .trap .frameIllegal (w.zeroExtend 64) := by
        rw [hform, hf, hw]
        simp only [Bool.not_true, Bool.false_eq_true, if_false]
      show execTret s = _
      rw [execTret, hno]
      rfl
  · have hcond : (s.me.mode || !s.me.ui) = true := by
      rcases hno with h | h
      · rw [h, Bool.true_or]
      · rw [h, Bool.not_false, Bool.or_true]
    show execUiret s = _
    simp only [execUiret, hcond, if_true, finish_trap]
  · have hme : (s.upd fun c => { c with pc := pcField c.uepc, ui := false, pause := some (.redirect, s.now + 4) }).me =
        { s.me with pc := pcField s.me.uepc, ui := false, pause := some (.redirect, s.now + 4) } := State.upd_me ..
    generalize hv : (s.upd fun c => { c with pc := pcField c.uepc, ui := false, pause := some (.redirect, s.now + 4) }) = v at hme
    have hexec : exec .uiret s = .next ((v.issued false).upd fun d => { d with mret := s.me.uret, uret := false }) := by
      show execUiret s = _
      simp only [execUiret, hm, hu, Bool.not_true, Bool.or_self, Bool.false_eq_true, if_false, hv]
    have hvcur : v.cur = s.cur := by rw [← hv]; rfl
    have hvnow : v.now = s.now := by rw [← hv]; rfl
    have ht : ((v.issued false).upd fun d => { d with mret := s.me.uret, uret := false }).me = { s.me with
        pc := pcField s.me.uepc, ui := false, pause := some (.redirect, s.now + 4), charge := .issue, lastIssue := s.now, serial := s.me.serial + 1
        mret := s.me.uret, uret := false } := by
      rw [State.upd_me, State.issued_me, hme, hvnow]
      rfl
    refine ⟨_, hexec, ⟨(State.issued_cur v false).trans hvcur, by rw [ht]; rfl, by rw [ht], by rw [ht], by rw [ht]⟩, by rw [ht], by rw [ht]; exact hm, fun m => by rw [ht]; rfl,
      State.sameBytes_of_bytes ?_⟩
    refine (State.bytes_issued v false).trans ?_
    rw [← hv]
    rfl

/-! SLEEP, CHBIND and ACCT (R228, R236, R237). -/

/-- What CHBIND's kinds and their extra fields may be (Table 05-6). -/
theorem Ctx.bindOk_iff (c : Ctx) (v : Word) : c.bindOk v = true ↔ v.toNat < 256 ∧
    ((v.toNat % 16 = 0 ∧ v.toNat / 16 = 0) ∨ (v.toNat % 16 = 1 ∧ v.toNat / 16 < 8) ∨ (v.toNat % 16 = 2 ∧ v.toNat / 16 = 0) ∨ (v.toNat % 16 = 3 ∧ v.toNat / 16 < 4) ∨
      (v.toNat % 16 = 4 ∧ v.toNat / 16 < 4) ∨ (v.toNat % 16 = 5 ∧ v.toNat / 16 = 0 ∧ c.win.isSome = true)) := by
  by_cases hv : v.toNat < 256
  · have hk : bitsOf v.toNat 3 0 = v.toNat % 16 := by simp [bitsOf]
    have hx : bitsOf v.toNat 7 4 = v.toNat / 16 := by
      simp only [bitsOf, Nat.shiftRight_eq_div_pow]
      omega
    unfold Ctx.bindOk
    rw [hk, hx]
    have hlt : v.toNat % 16 < 16 := Nat.mod_lt _ (by norm_num)
    generalize v.toNat % 16 = k at hlt
    interval_cases k <;> simp [hv]
  · simp [Ctx.bindOk, hv]

/-- What closing a run leaves: no run, and where accounts are kept one record more. -/
theorem State.closeRunAt_cases (s : State) (sid made : Nat) :
    ((s.ctx sid).run = none ∧ s.closeRunAt sid made = s) ∨
    ((s.ctx sid).run.isSome = true ∧ (s.ctx sid).acctOn = false ∧ s.closeRunAt sid made = s.modCtx sid fun c => { c with run := none }) ∨
    ((s.ctx sid).run.isSome = true ∧ (s.ctx sid).acctOn = true ∧
      ∃ r, s.closeRunAt sid made = { s.modCtx sid fun c => { c with run := none } with acctq := s.acctq ++ [r] }) := by
  unfold State.closeRunAt
  dsimp only
  split
  · next h => exact .inl ⟨h, rfl⟩
  · next k pc start len h =>
    rw [h]
    cases ho : (s.ctx sid).acctOn with
    | false => exact .inr (.inl ⟨rfl, rfl, rfl⟩)
    | true => exact .inr (.inr ⟨rfl, rfl, _, rfl⟩)

theorem State.closeRunAt_frame (s : State) (sid made : Nat) :
    (s.closeRunAt sid made).cur = s.cur ∧ (s.closeRunAt sid made).now = s.now ∧ ((s.closeRunAt sid made).ctx sid = { s.ctx sid with run := none }) ∧
      (s.closeRunAt sid made).acctq.length = s.acctq.length + (if (s.ctx sid).run.isSome = true ∧ (s.ctx sid).acctOn = true then 1 else 0) := by
  rcases State.closeRunAt_cases s sid made with ⟨hr, h⟩ | ⟨hr, ho, h⟩ | ⟨hr, ho, r, h⟩
  · rw [h, ← hr]
    exact ⟨rfl, rfl, rfl, by simp [hr]⟩
  · rw [h]
    exact ⟨rfl, rfl, State.modCtx_self .., by simp [ho]⟩
  · rw [h]
    exact ⟨rfl, rfl, State.modCtx_self s sid fun c => { c with run := none }, by simp [hr, ho]⟩

@[simp] theorem State.issued_acctq (s : State) (p : Bool) : (s.issued p).acctq = s.acctq := by
  unfold State.issued
  extract_lets sid s1
  show s1.acctq = s.acctq
  simp only [s1]
  split <;> rfl

/-- Settles O35: SLEEP sleeps or goes on, CHBIND binds what it may, ACCT reads and closes the run. -/
theorem sleepBindAndAccount : Obligations.SleepBindAndAccount := by
  intro s
  refine ⟨fun i hv => ?_, fun i hv hover => ?_, fun i hv hover hact => ⟨fun hsl => ?_, fun hsl => ?_⟩, fun n a hv => ?_, fun n a hv hr => ?_, fun d a hr => ?_⟩
  · show finish s _ = _
    rw [hv]
    rfl
  · have hcond : (s.sleepOver s.cur || s.me.act == .slept) = true := by
      rcases hover with h | h
      · rw [h, Bool.true_or]
      · rw [beq_iff_eq.mpr h, Bool.or_true]
    have hme : (s.adv.upd fun c => { c with act := .running }).me = { s.me with pc := pcMoved s.me.pc 1, act := .running } := by
      rw [State.upd_me, State.adv_me, ← pc_next]
    refine ⟨(s.adv.upd fun c => { c with act := .running }).issued false, ?_, ?_, ?_, ?_, fun m => ?_, State.sameBytes_of_bytes (by simp)⟩
    · show finish s _ = _
      rw [hv, hcond]
      rfl
    · rw [State.issued_me, hme]
    · rw [State.issued_me, hme]
    · rw [State.issued_me, hme]
    · rw [State.issued_me, hme]
      rfl
  · have hcond : (s.sleepOver s.cur || s.me.act == .slept) = false := by
      rw [hover, Bool.false_or]
      exact Bool.eq_false_iff.mpr fun h => hact (beq_iff_eq.mp h)
    refine ⟨(s.upd fun c => { c with act := .sleeping (if i = 0 then none else some (s.now + 64 * i.toNat)) }).upd fun c => { c with charge := .sleep }, ?_, ?_, ?_, ?_,
      fun m => ?_, State.sameBytes_of_bytes (by simp)⟩
    · show finish s _ = _
      rw [hv, hcond, hsl]
      rfl
    · rw [State.upd_me, State.upd_me]
    · rw [State.upd_me, State.upd_me]
    · rw [State.upd_me, State.upd_me]
    · rw [State.upd_me, State.upd_me]
      rfl
  · have hcond : (s.sleepOver s.cur || s.me.act == .slept) = false := by
      rw [hover, Bool.false_or]
      exact Bool.eq_false_iff.mpr fun h => hact (beq_iff_eq.mp h)
    show finish s _ = _
    rw [hv, hcond, hsl]
    rfl
  · show finish s _ = _
    rw [hv]
    rfl
  · intro v k x ok
    have hok : s.me.bindOk (s.me.rx a) = true ↔ ok := Ctx.bindOk_iff s.me (s.me.rx a)
    have hexec : exec (.chbind n a) s = finish s (if !s.me.bindOk (s.me.rx a) then .trap .channelFault (wordOf (.chbind n a))
        else .ok (s.adv.upd fun c => { c with c := c.c.set n.toNat ((s.me.rx a).extractLsb' 0 8) n.isLt })) := by
      show finish s _ = _
      rw [hv, hr]
      rfl
    refine ⟨fun hno => ?_, fun hyes => ?_⟩
    · rw [hexec, Bool.eq_false_iff.mpr fun h => hno (hok.mp h)]
      rfl
    · have hme : (s.adv.upd fun c => { c with c := c.c.set n.toNat ((s.me.rx a).extractLsb' 0 8) n.isLt }).me =
          { s.me with pc := pcMoved s.me.pc 1, c := s.me.c.set n.toNat ((s.me.rx a).extractLsb' 0 8) n.isLt } := by
        rw [State.upd_me, State.adv_me, ← pc_next]
      refine ⟨(s.adv.upd fun c => { c with c := c.c.set n.toNat ((s.me.rx a).extractLsb' 0 8) n.isLt }).issued false, ?_, State.completes_issued _ rfl rfl (by rw [hme]) (by rw [hme]),
        ?_, ?_, fun m => ?_, State.sameBytes_of_bytes (by simp)⟩
      · rw [hexec, hok.mpr hyes]
        rfl
      · have hval : (s.me.rx a).extractLsb' 0 8 = BitVec.ofNat 8 v := by
          apply BitVec.eq_of_toNat_eq
          simp [v]
        rw [State.issued_me, hme, hval]
      · rw [State.issued_me, hme]
      · rw [State.issued_me, hme]
        rfl
  · intro n
    have hexec : exec (.acct d a) s = finish s (s.regs [a] [d]
        (.ok (((if (s.me.rx a).getLsbD 8 then s.closeRun s.cur else s).upd fun c => c.wx d (c.counter n)).adv))) := rfl
    rw [State.regs_of_regsReady hr, finish_ok] at hexec
    generalize hu : (if (s.me.rx a).getLsbD 8 then s.closeRun s.cur else s) = u at hexec
    have hframe : u.cur = s.cur ∧ u.now = s.now ∧ (∃ r, u.me = { s.me with run := r }) ∧ u.bytes = s.bytes ∧
        u.acctq.length = s.acctq.length + (if (s.me.rx a).getLsbD 8 = true ∧ s.me.run.isSome = true ∧ s.me.acctOn = true then 1 else 0) := by
      rw [← hu]
      cases hb : (s.me.rx a).getLsbD 8 with
      | false => exact ⟨rfl, rfl, ⟨s.me.run, rfl⟩, rfl, by simp⟩
      | true =>
        obtain ⟨h1, h2, h3, h4⟩ := State.closeRunAt_frame s s.cur s.now
        refine ⟨h1, h2, ⟨none, ?_⟩, State.bytes_closeRun s s.cur, ?_⟩
        · show (s.closeRunAt s.cur s.now).ctx (s.closeRunAt s.cur s.now).cur = _
          rw [h1, h3]
          rfl
        · simp only [true_and]
          exact h4
    obtain ⟨hcur, hnow, ⟨r, hume⟩, hbytes, hlen⟩ := hframe
    obtain ⟨x, m, hwx⟩ := Ctx.wx_frame u.me d (u.me.counter n)
    have hme : (u.upd fun c => c.wx d (c.counter n)).adv.me = { u.me.wx d (u.me.counter n) with pc := pcMoved s.me.pc 1 } := by
      have hpc : (u.me.wx d (u.me.counter n)).pc = s.me.pc := by rw [hwx, hume]
      rw [State.adv_me, State.upd_me, hpc, pc_next]
    have hcount : u.me.counter n = if h : n < 23 then (s.me.acct[n]'(by omega)).zeroExtend 64 else 0 := by
      rw [hume]
      rfl
    refine ⟨_, hexec, State.completes_issued _ (by simp [hcur]) (by simp [hnow]) (by rw [hme]) (by rw [hme, hwx, hume]), fun k => ?_, State.sameBytes_of_bytes (by simp [hbytes]), ?_⟩
    · rw [State.issued_me, hme, ← hcount]
      refine (Ctx.wx_rx u.me d k (u.me.counter n)).trans ?_
      rw [hume]
      rfl
    · rw [← hlen]
      exact congrArg List.length (State.issued_acctq _ _)

end Sys2Proof.Machine
end


section
/-!
PROOFS. CSRs, meetings and roll calls, and the issue and performance of vector forms (R11, R12, R138 to R140, R162 to R164, R216 to R220, R224, R233).
-/

namespace Sys2Proof.Machine

/-! CSRs: what each reads, and what a write leaves it (Tables 01-2 to 01-6, R11, R12, R233). -/

/-- The status word's bits (Table 01-4). -/
theorem Ctx.statusWord_getLsbD (c : Ctx) (sid i : Nat) : (c.statusWord sid).getLsbD i =
    if i < 14 then (i == 11 && c.pui) || (i == 10 && c.pmode) || (i == 6 && c.ui) || (i == 5 && c.msaved) || (i == 4 && c.tainted) || (i == 3 && c.inmeet) || (i == 0 && c.mode)
    else decide (i < 64) && (slotCode sid).testBit (i - 14) := by
  have hlow : ∀ a b c d e f g : Bool, ∀ j : Fin 14, (bitNat a 11 + bitNat b 10 + bitNat c 6 + bitNat d 5 + bitNat e 4 + bitNat f 3 + bitNat g 0).testBit j =
      ((j.val == 11 && a) || (j.val == 10 && b) || (j.val == 6 && c) || (j.val == 5 && d) || (j.val == 4 && e) || (j.val == 3 && f) || (j.val == 0 && g)) := by
    decide +kernel
  have hlt : ∀ a b c d e f g : Bool, bitNat a 11 + bitNat b 10 + bitNat c 6 + bitNat d 5 + bitNat e 4 + bitNat f 3 + bitNat g 0 < 2 ^ 14 := by decide +kernel
  have hsum : c.statusWord sid = w64 (2 ^ 14 * slotCode sid + (bitNat c.pui 11 + bitNat c.pmode 10 + bitNat c.ui 6 + bitNat c.msaved 5 + bitNat c.tainted 4 +
      bitNat c.inmeet 3 + bitNat c.mode 0)) := by
    unfold Ctx.statusWord
    congr 1
    ring
  rw [hsum, w64, BitVec.getLsbD_ofNat, Nat.testBit_two_pow_mul_add _ (hlt ..)]
  split
  · next h =>
    rw [hlow _ _ _ _ _ _ _ ⟨i, h⟩]
    simp [show i < 64 by omega]
  · rfl

theorem Ctx.statusWord_set (c : Ctx) (sid : Nat) (v : Word) :
    ({ c with pui := v.getLsbD 11, pmode := v.getLsbD 10, mode := v.getLsbD 0 } : Ctx).statusWord sid = (c.statusWord sid &&& ~~~0xC01) ||| (v &&& 0xC01) := by
  refine BitVec.eq_of_getLsbD_eq fun i hi => ?_
  rw [BitVec.getLsbD_or, BitVec.getLsbD_and, BitVec.getLsbD_and, BitVec.getLsbD_not, Ctx.statusWord_getLsbD, Ctx.statusWord_getLsbD]
  by_cases h : i < 14
  · rw [if_pos h, if_pos h]
    interval_cases i <;> simp [Ctx.tainted]
  · have hmask : (0xC01 : Word).getLsbD i = false := by
      show (BitVec.ofNat 64 0xC01).getLsbD i = false
      rw [BitVec.getLsbD_ofNat, Nat.testBit_lt_two_pow (lt_of_lt_of_le (by norm_num : 0xC01 < 2 ^ 14) (Nat.pow_le_pow_right (by norm_num) (not_lt.mp h))), Bool.and_false]
    rw [if_neg h, if_neg h, hmask]
    simp [hi]

/-- The CSRs of a context with what each reads as (Table 01-3): `lc` is its logical core number, `mp` what MPROG reads as. -/
def csrTable (c : Ctx) (sid lc : Nat) (mp : Word) : List (Nat × Word) := [
  (0x0001, c.fflags.zeroExtend 64), (0x0002, c.rmode.zeroExtend 64), (0x0003, c.srseed), (0x0010, c.meetto), (0x0011, c.rollq.zeroExtend 64), (0x0020, c.uepc),
  (0x0021, w64 (bitNat c.uieEn 0 + bitNat (!c.uints.isEmpty) 1)), (0x0022, c.xid.zeroExtend 64), (0x0800, c.taskc[0].zeroExtend 64),
  (0x0801, c.taskc[1].zeroExtend 64), (0x0802, c.taskc[2].zeroExtend 64), (0x0803, c.gang.zeroExtend 64), (0x0804, w64 (c.queue.toNat * 2 ^ 32 + c.launchId.toNat)),
  (0x0805, c.pid.zeroExtend 64), (0x0806, w64 c.part), (0x0807, w64 lc), (0x0808, w64 (corePhysical (slotCore sid))), (0x0809, (c.cycle + 1).zeroExtend 64),
  (0x080A, if isVisitor sid then 0 else c.privBase.zeroExtend 64), (0x080B, if isVisitor sid then 0 else c.privSize.zeroExtend 64), (0x1000, c.statusWord sid),
  (0x1001, c.cause), (0x1002, pcWord c.epc), (0x1003, c.tval), (0x1004, pcWord c.tvec), (0x1005, c.frame), (0x1006, pcWord c.framepc), (0x1007, mp),
  (0x1008, pcWord c.acctbase), (0x1009, c.acctctl.zeroExtend 64)]

/-- The CSRs that an instruction may write (Table 01-3). -/
def writableCsrs : List Nat := [0x0001, 0x0002, 0x0003, 0x0010, 0x0011, 0x0020, 0x0021, 0x0022, 0x1000, 0x1001, 0x1002, 0x1003, 0x1004, 0x1005, 0x1006, 0x1007, 0x1008, 0x1009]

def State.csrTab (s : State) (sid : Nat) : List (Nat × Word) :=
  csrTable (s.ctx sid) sid (s.logicalCore (s.ctx sid).part (slotCore sid)) (if s.isOwner sid then (s.core (slotCore sid)).mprog else 0)

theorem State.csrRead_eq_lookup (s : State) (sid n : Nat) : s.csrRead sid n = (s.csrTab sid).lookup n := by
  unfold State.csrRead State.csrTab csrTable
  split
  case h_31 =>
    refine (List.lookup_eq_none_iff.mpr ?_).symm
    simp only [List.forall_mem_cons, bne_iff_ne]
    simp_all
  all_goals rfl

theorem lookup_map_at {f : Word → Word} (l : List (Nat × Word)) (n m : Nat) :
    (l.map fun p => if p.1 = n then (p.1, f p.2) else p).lookup m = if m = n then (l.lookup m).map f else l.lookup m := by
  induction l with
  | nil => simp
  | cons p l ih =>
    rw [List.map_cons, List.lookup_cons, List.lookup_cons]
    grind

theorem zeroExtend_extractLsb' (v : Word) (k : Nat) : (v.extractLsb' 0 k).zeroExtend 64 = v &&& BitVec.ofNat 64 (2 ^ k - 1) := by
  refine BitVec.eq_of_getLsbD_eq fun i hi => ?_
  rw [BitVec.getLsbD_and, BitVec.getLsbD_ofNat, Nat.testBit_two_pow_sub_one]
  simp [hi, Bool.and_comm]

theorem pcWord_pcField (v : Word) : pcWord (pcField v) = v &&& 0x00FFFFFFFFFFFFFC := by
  refine BitVec.eq_of_getLsbD_eq fun i hi => ?_
  unfold pcWord pcField
  interval_cases i <;> simp

theorem pcWord_acctBase (v : Word) : pcWord (v.extractLsb' 0 56 &&& ~~~0xFFF) = v &&& 0x00FFFFFFFFFFF000 := by
  refine BitVec.eq_of_getLsbD_eq fun i hi => ?_
  unfold pcWord
  interval_cases i <;> simp

theorem zeroExtend_acctctl (v : Word) : (v.extractLsb' 0 32 &&& 0xFFFF1F01).zeroExtend 64 = v &&& 0xFFFF1F01 := by
  refine BitVec.eq_of_getLsbD_eq fun i hi => ?_
  interval_cases i <;> simp

theorem uieWord_set (a b : Bool) (v : Word) : w64 (bitNat (v.getLsbD 0) 0 + bitNat b 1) = (w64 (bitNat a 0 + bitNat b 1) &&& 0x2) ||| (v &&& 0x1) := by
  have hv : v &&& 1 = BitVec.ofNat 64 (bitNat (v.getLsbD 0) 0) := by
    refine BitVec.eq_of_getLsbD_eq fun i hi => ?_
    cases h : v.getLsbD 0 <;> interval_cases i <;> simp_all [bitNat]
  rw [hv]
  cases a <;> cases b <;> cases v.getLsbD 0 <;> rfl

/-- What a write of a CSR changes of the CSRs: the one written, to its fields of Tables 01-3 to 01-6. -/
theorem State.csrTab_csrWrite (s : State) (sid n : Nat) (v : Word) (h : n ∈ writableCsrs) :
    (s.csrWrite sid n v).csrTab sid = (s.csrTab sid).map fun p => if p.1 = n then (p.1, csrNew n (s.isOwner sid) p.2 v) else p := by
  simp only [writableCsrs, List.mem_cons, List.not_mem_nil, or_false] at h
  rcases h with rfl | rfl | rfl | rfl | rfl | rfl | rfl | rfl | rfl | rfl | rfl | rfl | rfl | rfl | rfl | rfl | rfl | rfl
  case inr.inr.inr.inr.inr.inr.inr.inr.inr.inr.inr.inr.inr.inr.inr.inl =>
    unfold State.csrWrite
    dsimp only
    cases ho : s.isOwner sid with
    | true =>
      have ho' : (s.modCore (slotCore sid) fun k => { k with mprog := v &&& 0x9F000000FFFFFFFF }).isOwner sid = true := by
        rw [State.isOwner, State.modCore_core, if_pos rfl]
        exact ho
      simp only [State.csrTab, if_true, ho, ho', State.modCore_core]
      rfl
    | false =>
      simp only [State.csrTab, Bool.false_eq_true, if_false, ho]
      rfl
  all_goals
    simp only [State.csrTab, State.csrWrite, State.modCtx_self, csrTable, zeroExtend_extractLsb', pcWord_pcField, pcWord_acctBase, zeroExtend_acctctl, uieWord_set (s.ctx sid).uieEn,
      Ctx.statusWord_set]
    rfl

/-- A CSR after a write: the one written holds its fields, and every other what it held. -/
theorem State.csrRead_csrWrite (s : State) (sid n m : Nat) (v : Word) (h : n ∈ writableCsrs) :
    (s.csrWrite sid n v).csrRead sid m = if m = n then (s.csrRead sid m).map fun old => csrNew n (s.isOwner sid) old v else s.csrRead sid m := by
  rw [State.csrRead_eq_lookup, State.csrRead_eq_lookup, State.csrTab_csrWrite s sid n v h]
  exact lookup_map_at (f := fun old => csrNew n (s.isOwner sid) old v) _ n m

/-- The CSRs there are (Table 01-3). -/
def csrNumbers : List Nat := [0x0001, 0x0002, 0x0003, 0x0010, 0x0011, 0x0020, 0x0021, 0x0022, 0x0800, 0x0801, 0x0802, 0x0803, 0x0804, 0x0805, 0x0806, 0x0807, 0x0808, 0x0809,
  0x080A, 0x080B, 0x1000, 0x1001, 0x1002, 0x1003, 0x1004, 0x1005, 0x1006, 0x1007, 0x1008, 0x1009]

theorem State.csrTab_keys (s : State) (sid : Nat) : (s.csrTab sid).map Prod.fst = csrNumbers := rfl

theorem State.csrRead_isSome (s : State) (sid n : Nat) : (s.csrRead sid n).isSome = true ↔ n ∈ csrNumbers := by
  rw [State.csrRead_eq_lookup, List.lookup_isSome_iff, ← State.csrTab_keys s sid, List.mem_map]
  exact exists_congr fun p => and_congr_right fun _ => beq_iff_eq.trans eq_comm

/-- A CSR that reads and is not read-only is one that may be written. -/
theorem State.mem_writableCsrs {s : State} {sid n : Nat} {old : Word} (hr : s.csrRead sid n = some old) (hro : n / 2048 ≠ 1) : n ∈ writableCsrs := by
  have hall : ∀ k ∈ csrNumbers, k / 2048 ≠ 1 → k ∈ writableCsrs := by decide
  exact hall n ((State.csrRead_isSome s sid n).mp (by rw [hr]; rfl)) hro

/-- The CSRs after a context has gone on: a result in a register, the PC and the issue change none of them but MPROG. -/
theorem State.csrRead_congr {s t : State} {sid m : Nat} (hparts : t.parts = s.parts) (hfuse : t.fuse = s.fuse)
    (hc : ∃ x meet pc ch li mr se, t.ctx sid = { s.ctx sid with x := x, meet := meet, pc := pc, charge := ch, lastIssue := li, mret := mr, serial := se })
    (hm : m = 0x1007 → t.core (slotCore sid) = s.core (slotCore sid)) : t.csrRead sid m = s.csrRead sid m := by
  obtain ⟨x, meet, pc, ch, li, mr, se, hc⟩ := hc
  have hpart : t.part = s.part := funext fun p => by rw [State.part, State.part, hparts]
  have hoff : t.fusedOff = s.fusedOff := funext fun ci => by rw [State.fusedOff, State.fusedOff, hfuse]
  have hl : ∀ p ci, t.logicalCore p ci = s.logicalCore p ci := fun p ci => by
    rw [State.logicalCore, State.logicalCore, State.logicalCores, State.logicalCores, hpart, hoff]
  unfold State.csrRead
  rw [hc]
  split
  case h_16 => exact congrArg (fun n => some (w64 n)) (hl _ _)
  case h_28 => rw [State.isOwner, State.isOwner, hm rfl]
  all_goals rfl

theorem State.csrIllegal_iff (s : State) (n : Nat) (wr : Bool) :
    s.csrIllegal n wr = true ↔ s.csrRead s.cur n = none ∨ (n / 2048 = 2 ∧ s.me.mode = false) ∨ (n / 2048 = 1 ∧ wr = true) := by
  simp [State.csrIllegal, or_assoc]

theorem State.csrWrite_frame (s : State) (sid n : Nat) (v : Word) : (s.csrWrite sid n v).cur = s.cur ∧ (s.csrWrite sid n v).now = s.now ∧
    (s.csrWrite sid n v).bytes = s.bytes ∧ ((s.csrWrite sid n v).ctx sid).x = (s.ctx sid).x ∧ ((s.csrWrite sid n v).ctx sid).pc = (s.ctx sid).pc ∧
    ((s.csrWrite sid n v).ctx sid).act = (s.ctx sid).act ∧ ((s.csrWrite sid n v).ctx sid).mret = (s.ctx sid).mret := by
  unfold State.csrWrite
  dsimp only
  split
  case h_16 =>
    split
    · exact ⟨rfl, rfl, by simp, rfl, rfl, rfl, rfl⟩
    · exact ⟨rfl, rfl, rfl, rfl, rfl, rfl, rfl⟩
  case h_19 => exact ⟨rfl, rfl, rfl, rfl, rfl, rfl, rfl⟩
  all_goals
    rw [State.modCtx_self]
    exact ⟨rfl, rfl, by simp, rfl, rfl, rfl, rfl⟩

theorem State.issued_core_of_mret {s : State} (p : Bool) (h : s.me.mret = false) (ci : Nat) : (s.issued p).core ci = s.core ci := by
  unfold State.issued
  rw [h]
  rfl

@[simp] theorem State.issued_parts (s : State) (p : Bool) : (s.issued p).parts = s.parts := by
  unfold State.issued
  extract_lets sid s1
  show s1.parts = s.parts
  simp only [s1]
  split <;> rfl

@[simp] theorem State.issued_fuse (s : State) (p : Bool) : (s.issued p).fuse = s.fuse := by
  unfold State.issued
  extract_lets sid s1
  show s1.fuse = s.fuse
  simp only [s1]
  split <;> rfl

/-- What a CSR form that issues leaves: `w` is the state after its write. -/
theorem State.csrForm_issued {s w : State} (d : BitVec 5) (old : Word) (hcur : w.cur = s.cur) (hnow : w.now = s.now) (hb : w.bytes = s.bytes)
    (hx : w.me.x = s.me.x) (hpc : w.me.pc = s.me.pc) (hact : w.me.act = s.me.act) (hmret : w.me.mret = s.me.mret) :
    let t := ((w.upd fun c => c.wx d old).adv).issued false
    s.completes t (pcMoved s.me.pc 1) ∧ s.writesX t d old ∧ s.sameBytes t ∧ ∀ m, (m = 0x1007 → s.me.mret = false) → t.csrRead t.cur m = w.csrRead s.cur m := by
  obtain ⟨x, meet, hwx⟩ := Ctx.wx_frame w.me d old
  have hxd : x = (w.me.wx d old).x := by rw [hwx]
  have hu : (w.upd fun c => c.wx d old).adv.me = { w.me with x := x, meet := meet, pc := pcMoved s.me.pc 1 } := by
    rw [State.adv_me, State.upd_me, hwx, ← hpc, ← pc_next]
  have huc : (w.upd fun c => c.wx d old).adv.core = w.core := rfl
  have hucur : (w.upd fun c => c.wx d old).adv.cur = s.cur := hcur
  have hunow : (w.upd fun c => c.wx d old).adv.now = s.now := hnow
  have hub : (w.upd fun c => c.wx d old).adv.bytes = s.bytes := by simpa using hb
  have hup : (w.upd fun c => c.wx d old).adv.parts = w.parts := rfl
  have huf : (w.upd fun c => c.wx d old).adv.fuse = w.fuse := rfl
  generalize (w.upd fun c => c.wx d old).adv = u at hu huc hucur hunow hub hup huf
  intro t
  have ht : t.me = { w.me with x := x, meet := meet, pc := pcMoved s.me.pc 1, charge := .issue, lastIssue := s.now, mret := false, serial := w.me.serial + 1 } := by
    rw [State.issued_me, hu, hunow]
    rfl
  have htcur : t.cur = s.cur := (State.issued_cur u false).trans hucur
  refine ⟨State.completes_issued false hucur hunow (by rw [hu]) (by rw [hu]; exact hact), fun m => ?_, State.sameBytes_of_bytes ((State.bytes_issued u false).trans hub),
    fun m hm => ?_⟩
  · have hrx : t.me.rx m = (w.me.wx d old).rx m := by
      rw [ht, hwx]
      rfl
    have hs : w.me.rx m = s.me.rx m := by
      unfold Ctx.rx
      rw [hx]
    rw [hrx, Ctx.wx_rx, hs]
  · rw [htcur]
    refine State.csrRead_congr ((State.issued_parts u false).trans hup) ((State.issued_fuse u false).trans huf) ⟨x, meet, pcMoved s.me.pc 1, .issue, s.now, false, w.me.serial + 1, ?_⟩ fun h => ?_
    · have hme : t.me = t.ctx s.cur := by rw [State.me, htcur]
      have hwme : w.me = w.ctx s.cur := by rw [State.me, hcur]
      rw [← hme, ht, hwme]
    · have humret : u.me.mret = false := by
        rw [hu]
        exact hmret.trans (hm h)
      rw [State.issued_core_of_mret false humret, huc]

/-- A CSR form that may issue: the old value to its register, and the new one to its CSR. -/
theorem State.csrForm_reads {s : State} {i : Instr} {d a : BitVec 5} {n : BitVec 13} {wr : Bool} {g : Word → Word} {old : Word}
    (hleg : s.csrIllegal n.toNat wr = false) (hold : s.csrRead s.cur n.toNat = some old) (hr : s.regsReady [a] [d]) (hw : s.csrWaits n.toNat = false)
    (hmp : s.mprogWaits n.toNat = false) :
    ∃ t, finish s (s.csrForm i d a n wr g) = .next t ∧ s.completes t (pcMoved s.me.pc 1) ∧ s.writesX t d old ∧ s.sameBytes t ∧
      ∀ m, (m = 0x1007 → s.me.mret = false) → t.csrRead t.cur m =
        if m = n.toNat ∧ wr = true then some (csrNew m (s.isOwner s.cur) old (g old)) else s.csrRead s.cur m := by
  have hform : s.csrForm i d a n wr g = .ok (((if wr then s.csrWrite s.cur n.toNat (g old) else s).upd fun c => c.wx d old).adv) := by
    simp only [State.csrForm, hleg, Bool.false_eq_true, if_false, State.regs_of_regsReady hr, hw, hmp, hold, Option.getD_some]
  rw [hform]
  cases wr with
  | false =>
    obtain ⟨h1, h2, h3, h4⟩ := State.csrForm_issued (s := s) (w := s) d old rfl rfl rfl rfl rfl rfl rfl
    exact ⟨_, rfl, h1, h2, h3, fun m hm => by simpa using h4 m hm⟩
  | true =>
    obtain ⟨hcur, hnow, hb, hx, hpc, hact, hmret⟩ := State.csrWrite_frame s s.cur n.toNat (g old)
    have hme : (s.csrWrite s.cur n.toNat (g old)).me = (s.csrWrite s.cur n.toNat (g old)).ctx s.cur := by rw [State.me, hcur]
    obtain ⟨h1, h2, h3, h4⟩ := State.csrForm_issued (s := s) d old hcur hnow hb (by rw [hme]; exact hx) (by rw [hme]; exact hpc) (by rw [hme]; exact hact) (by rw [hme]; exact hmret)
    refine ⟨_, rfl, h1, h2, h3, fun m hm => ?_⟩
    have hro : n.toNat / 2048 ≠ 1 := fun h => by
      have := (State.csrIllegal_iff s n.toNat true).mpr (.inr (.inr ⟨h, rfl⟩))
      rw [hleg] at this
      cases this
    refine (h4 m hm).trans ?_
    rw [State.csrRead_csrWrite s s.cur n.toNat m (g old) (State.mem_writableCsrs hold hro)]
    by_cases h : m = n.toNat
    · subst h
      simp [hold]
    · simp [h]

theorem bne_eq_decide_ne (a : BitVec 5) : (a != 0) = decide (a ≠ 0) := by
  simp [bne, BEq.beq]

/-- The meaning of a CSR form. -/
theorem exec_of_csrOf {i : Instr} {d a : BitVec 5} {n : BitVec 13} {wr : Bool} {f : Word → Word → Word} (h : csrOf i = some (d, a, n, wr, f)) (s : State) :
    exec i s = finish s (s.csrForm i d a n wr fun old => f old (s.me.rx a)) := by
  cases i <;> cases h
  case csrr => rfl
  case csrw => rfl
  case csrs =>
    show execCsrs d a n s = _
    rw [execCsrs, bne_eq_decide_ne]
  case csrc =>
    show execCsrc d a n s = _
    rw [execCsrc, bne_eq_decide_ne]

/-- Settles O32: which CSRs there are, and what the CSR forms read and write. -/
theorem csrFormsReadThenWrite : Obligations.CsrFormsReadThenWrite := by
  refine ⟨fun i d a n wr f s h => ?_, fun s sid n => State.csrRead_isSome s sid n⟩
  intro illegal
  have hiff : s.csrIllegal n.toNat wr = true ↔ illegal := State.csrIllegal_iff s n.toNat wr
  rw [exec_of_csrOf h]
  refine ⟨fun hill => ?_, fun old hleg hold hr hw hmp => ?_⟩
  · rw [State.csrForm, if_pos (hiff.mpr hill), finish_trap]
  · exact State.csrForm_reads (Bool.eq_false_iff.mpr fun hc => hleg (hiff.mp hc)) hold hr hw hmp

/-! MEET and ROLL (R216, R217, R224, R266). -/

@[simp] theorem State.issued_net (s : State) (p : Bool) : (s.issued p).net = s.net := by
  unfold State.issued
  extract_lets sid s1
  show s1.net = s.net
  simp only [s1]
  split <;> rfl

/-- What a form that parks leaves: the party in its park, and its call on its way. -/
theorem State.parks_parkWith (s : State) {p : Park} {P : Park → Prop} (hp : P p) (snap : Ctx) (parcel off bytes : Nat) (body : Nat → Call → MsgBody) :
    s.parks ((s.parkWith p snap parcel off bytes body).issued false) P body := by
  have hme : (s.parkWith p snap parcel off bytes body).me = { s.me with act := .parked, park := some p } :=
    State.upd_me { s with
      nextId := s.nextId + 1, snaps := s.snaps ++ [{ sid := s.cur, tok := s.nextId, ctx := snap, at_ := s.now, parcel := parcel, off := off, bytes := bytes }] }
      fun c => { c with act := .parked, park := some p }
  have hb : (s.parkWith p snap parcel off bytes body).bytes = s.bytes := by simp [State.parkWith, State.send]
  obtain ⟨m, c, hnet, hat, hbody, hc⟩ : ∃ m c, (s.parkWith p snap parcel off bytes body).net = s.net ++ [m] ∧ m.at_ = s.now + noticeTime (slotCluster s.cur) (s.dirOf c) ∧
      m.body = body (s.dirOf c) c ∧ c.sid = s.cur ∧ c.part = s.me.part ∧ c.pid = s.me.pid ∧ c.zero = decide (s.me.meetto = 0) ∧
        c.key = p.key ∧ c.q = p.quorum ∧ c.op = p.op ∧ c.word = p.word :=
    ⟨_, { sid := s.cur, tok := s.nextId, part := s.me.part, pid := s.me.pid, key := p.key, q := p.quorum, op := p.op, word := p.word, zero := s.me.meetto == 0 },
      rfl, rfl, rfl, rfl, rfl, rfl, rfl, rfl, rfl, rfl, rfl⟩
  generalize s.parkWith p snap parcel off bytes body = u at hme hb hnet
  have ht : (u.issued false).me = { s.me with act := .parked, park := some p, charge := .issue, lastIssue := u.now, mret := false, serial := s.me.serial + 1 } := by
    rw [State.issued_me, hme]
    rfl
  obtain ⟨h1, h2, h3, h4, h5, h6, h7, h8⟩ := hc
  refine ⟨by rw [ht], by rw [ht], by rw [ht], fun m => by rw [ht]; rfl, State.sameBytes_of_bytes ((State.bytes_issued u false).trans hb), ⟨p, by rw [ht], hp⟩, m, c, ?_, hat, hbody,
    h1, h2, h3, h4, p, by rw [ht], h5, h6, h7, h8⟩
  rw [State.issued_net, hnet]

theorem lugPoff_eq (v : Word) : lugPoff v = v.toNat % 2 ^ 14 := by
  rw [lugPoff, bitsOf, Nat.shiftRight_eq_div_pow, Nat.pow_zero, Nat.div_one]

theorem lugPlen_eq (v : Word) : lugPlen v = v.toNat / 2 ^ 14 % 2 ^ 7 := by
  rw [lugPlen, bitsOf, Nat.shiftRight_eq_div_pow]

/-- What a bad luggage descriptor is (R216). -/
theorem Ctx.lugBad_iff (c : Ctx) (v : Word) : c.lugBad v = true ↔ 2 ^ 40 ≤ v.toNat ∨ v.toNat / 2 ^ 21 % 8 ≠ 0 ∨
    4 < ((List.range 16).filter fun n => (v.extractLsb' 24 16).getLsbD n).length ∨ c.privSize.toNat < 64 * (v.toNat % 2 ^ 14 + v.toNat / 2 ^ 14 % 2 ^ 7 + 1) := by
  have hlt : v.toNat < 2 ^ 64 := v.isLt
  have hhigh : bitsOf v.toNat 63 40 ≠ 0 ↔ 2 ^ 40 ≤ v.toNat := by
    simp only [bitsOf, Nat.shiftRight_eq_div_pow]
    omega
  have hmid : bitsOf v.toNat 23 21 = v.toNat / 2 ^ 21 % 8 := by
    rw [bitsOf, Nat.shiftRight_eq_div_pow]
    norm_num
  rw [Ctx.lugBad, decide_eq_true_iff, hhigh, hmid, lugPoff_eq, lugPlen_eq]
  rfl

/-- The party that a MEET parks (R217). -/
def State.meetParty (s : State) (d a b : BitVec 5) : Park where
  roll := false
  tok := s.nextId
  key := s.me.rx a
  d := d
  b := b
  word := 0
  quorum := 0
  op := 0
  poff := lugPoff (s.me.rx b)
  plen := lugPlen (s.me.rx b)
  vmask := lugVmask (s.me.rx b)
  deadline := s.callDeadline
  withdrawn := false

/-- Settles O36: MEET is refused by slot, by state and by descriptor, and else parks its party. -/
theorem meetParksItsParty : Obligations.MeetParksItsParty := by
  intro d a b s x poff plen vmask bad
  refine ⟨fun hv => ?_, fun hv hm => ?_, fun hv hm hr => ⟨fun hbad => ?_, fun hbad hu hp => ?_⟩⟩
  · show finish s _ = _
    rw [State.meetForm, hv]
    rfl
  · show finish s _ = _
    rw [State.meetForm, hv, hm]
    rfl
  · show finish s _ = _
    rw [State.meetForm, hv, hm]
    simp only [Bool.false_eq_true, if_false, State.regs_of_regsReady hr]
    rw [if_pos ((Ctx.lugBad_iff _ _).mpr hbad)]
    rfl
  · refine ⟨_, ?_, State.parks_parkWith s (p := s.meetParty d a b) ?_ s.me (s.spadRead (slotCluster s.cur) (s.me.privBase.toNat + 64 * lugPoff (s.me.rx b)) (64 * (lugPlen (s.me.rx b) + 1)))
      (s.me.privBase.toNat + 64 * lugPoff (s.me.rx b)) (64 * (lugPlen (s.me.rx b) + 1)) .notice⟩
    · show finish s _ = _
      rw [State.meetForm, hv, hm]
      simp only [Bool.false_eq_true, if_false, State.regs_of_regsReady hr, hu, hp]
      rw [if_neg fun h => hbad ((Ctx.lugBad_iff _ _).mp h), finish_ok]
      rfl
    · exact ⟨rfl, rfl, rfl, lugPoff_eq _, lugPlen_eq _, rfl, rfl⟩

/-! Roll calls. -/

/-- The party that a ROLL parks (R266). -/
def State.rollParty (s : State) (op : Nat) (d a b : BitVec 5) : Park where
  roll := true
  tok := s.nextId
  key := s.me.rx a
  d := d
  b := b
  word := s.me.rx b
  quorum := s.me.rollq.toNat
  op := op
  poff := 0
  plen := 0
  vmask := 0
  deadline := s.callDeadline
  withdrawn := false

theorem exec_of_rollOf {i : Instr} {op : Nat} {d a b : BitVec 5} (h : rollOf i = some (op, d, a, b)) (s : State) : exec i s = finish s (s.rollForm i op d a b) := by
  cases i <;> cases h
  all_goals rfl

theorem rollWord_cons {op : Nat} (h : op ≠ 0) (w : Word) (l : List Word) : rollWord op (w :: l) = l.foldl (rollOp op) w := if_neg h

/-- A fold of a roll call read through a map of its words. -/
theorem rollWord_map {α : Type} {op : Nat} (h : op ≠ 0) {f : Word → α} {g : α → α → α} (hop : ∀ a b, f (rollOp op a b) = g (f a) (f b)) (w : Word) (l : List Word) :
    f (rollWord op (w :: l)) = (l.map f).foldl g (f w) := by
  rw [rollWord_cons h]
  induction l generalizing w with
  | nil => rfl
  | cons v l ih => rw [List.foldl_cons, ih, hop, List.map_cons, List.foldl_cons]

theorem rollWord_min {α : Type} [LinearOrder α] {op : Nat} (h : op ≠ 0) {f : Word → α} (hop : ∀ a b, f (rollOp op a b) = min (f a) (f b)) (w : Word) (l : List Word) :
    f (rollWord op (w :: l)) = ((w :: l).map f).foldl min (f w) := by
  rw [rollWord_map h hop, List.map_cons, List.foldl_cons, min_self]

theorem rollWord_max {α : Type} [LinearOrder α] {op : Nat} (h : op ≠ 0) {f : Word → α} (hop : ∀ a b, f (rollOp op a b) = max (f a) (f b)) (w : Word) (l : List Word) :
    f (rollWord op (w :: l)) = ((w :: l).map f).foldl max (f w) := by
  rw [rollWord_map h hop, List.map_cons, List.foldl_cons, max_self]

theorem foldl_add_eq_sum (l : List Int) (z : Int) : l.foldl (· + ·) z = (z :: l).sum := by
  rw [List.sum_eq_foldl, List.foldl_cons, zero_add]

theorem rollWord_add (w : Word) (l : List Word) : rollWord 1 (w :: l) = wordOfInt ((w :: l).map fun x => (x.toNat : Int)).sum := by
  rw [rollWord_cons (by decide)]
  induction l generalizing w with
  | nil => simp [wordOfInt, BitVec.ofInt_natCast]
  | cons v l ih =>
    rw [List.foldl_cons, ih]
    simp only [List.map_cons, List.sum_cons, rollOp, wordOfInt, BitVec.ofInt_add, BitVec.ofInt_natCast, BitVec.ofNat_toNat, BitVec.setWidth_eq]
    rw [BitVec.add_assoc]

theorem foldl_and_eq_all (l : List Bool) (z : Bool) : l.foldl (· && ·) z = (z && l.all id) := by
  induction l generalizing z with
  | nil => simp
  | cons v l ih => rw [List.foldl_cons, ih, List.all_cons, Bool.and_assoc]; rfl

theorem foldl_or_eq_any (l : List Bool) (z : Bool) : l.foldl (· || ·) z = (z || l.any id) := by
  induction l generalizing z with
  | nil => simp
  | cons v l ih => rw [List.foldl_cons, ih, List.any_cons, Bool.or_assoc]; rfl

theorem foldl_xor_eq_parity (l : List Bool) (z : Bool) : l.foldl xor z = decide ((z :: l).countP id % 2 = 1) := by
  induction l generalizing z with
  | nil => cases z <;> rfl
  | cons v l ih =>
    rw [List.foldl_cons, ih]
    cases z <;> cases v <;> simp [List.countP_cons] <;> omega

theorem rollWord_and_getLsbD (w : Word) (l : List Word) (n : Nat) : (rollWord 6 (w :: l)).getLsbD n = (w :: l).all fun x => x.getLsbD n := by
  have h := rollWord_map (op := 6) (f := fun x => x.getLsbD n) (g := (· && ·)) (by decide) (fun a b => BitVec.getLsbD_and) w l
  rw [foldl_and_eq_all, List.all_map] at h
  exact h

theorem rollWord_or_getLsbD (w : Word) (l : List Word) (n : Nat) : (rollWord 7 (w :: l)).getLsbD n = (w :: l).any fun x => x.getLsbD n := by
  have h := rollWord_map (op := 7) (f := fun x => x.getLsbD n) (g := (· || ·)) (by decide) (fun a b => BitVec.getLsbD_or) w l
  rw [foldl_or_eq_any, List.any_map] at h
  exact h

theorem rollWord_xor_getLsbD (w : Word) (l : List Word) (n : Nat) :
    (rollWord 8 (w :: l)).getLsbD n = decide (((w :: l).countP fun x => x.getLsbD n) % 2 = 1) := by
  have h := rollWord_map (op := 8) (f := fun x => x.getLsbD n) (g := xor) (by decide) (fun a b => BitVec.getLsbD_xor) w l
  rw [foldl_xor_eq_parity, ← List.map_cons (f := fun x : Word => x.getLsbD n), List.countP_map] at h
  exact h

/-- Settles O37: ROLL is refused by slot, by state and by quorum, and else parks its party with its word; what the words of a roll call combine to. -/
theorem rollCallsParkAndCombine : Obligations.RollCallsParkAndCombine := by
  refine ⟨fun i op d a b s h => ?_, rollWord_add, fun w l => rollWord_min (by decide) (fun a b => ?_) w l, fun w l => rollWord_max (by decide) (fun a b => ?_) w l,
    fun w l => rollWord_min (by decide) (fun a b => ?_) w l, fun w l => rollWord_max (by decide) (fun a b => ?_) w l, fun w l n => ?_, fun w l n => ?_, fun w l n => ?_, fun l => ?_⟩
  · intro q bad
    have hexec := exec_of_rollOf h s
    refine ⟨fun hv => ?_, fun hv hm => ?_, fun hv hm hbad => ?_, fun hv hm hbad hr hf hu => ⟨_, ?_, State.parks_parkWith s
      (p := s.rollParty op d a b) ⟨rfl, rfl, rfl, rfl, rfl, rfl, rfl⟩
      { s.me with act := .parked, park := some (s.rollParty op d a b) } 0 0 0 .arrival⟩⟩
    · rw [hexec, State.rollForm, hv]
      rfl
    · rw [hexec, State.rollForm, hv, hm]
      rfl
    · rw [hexec, State.rollForm, hv, hm]
      simp only [Bool.false_eq_true, if_false]
      rw [if_pos hbad]
      rfl
    · have hform : s.rollForm i op d a b = .ok (s.parkWith (s.rollParty op d a b) { s.me with act := .parked, park := some (s.rollParty op d a b) } 0 0 0 .arrival) := by
        rw [State.rollForm]
        dsimp only
        rw [if_neg (Bool.eq_false_iff.mp hv), if_neg (Bool.eq_false_iff.mp hm), if_neg hbad, State.regs_of_regsReady hr, hf]
        dsimp only
        rw [if_neg (Bool.eq_false_iff.mp hu)]
        rfl
      rw [hexec, hform, finish_ok]
  · simp only [rollOp, BitVec.le_def]
    split <;> omega
  · simp only [rollOp, BitVec.le_def]
    split <;> omega
  · simp only [rollOp, BitVec.sle_iff_toInt_le]
    split <;> omega
  · simp only [rollOp, BitVec.sle_iff_toInt_le]
    split <;> omega
  · exact rollWord_and_getLsbD w l n
  · exact rollWord_or_getLsbD w l n
  · exact rollWord_xor_getLsbD w l n
  · cases l <;> rfl

/-! Issue of a vector form (R138, R139). -/

theorem State.issued_seq (s : State) (p : Bool) (ci : Nat) : ((s.issued p).core ci).seq = (s.core ci).seq := by
  have h := congrArg CoreSt.seq (State.issued_core s p ci)
  exact h

/-- What an instruction that has taken its place in the sequencer leaves, from the state in which it issues. -/
theorem State.entersSequencer_issued {s u : State} {i : Instr} {xa xb : Word} {e : SeqEntry} (hcur : u.cur = s.cur) (hnow : u.now = s.now) (hb : u.bytes = s.bytes)
    (hme : ∃ q r w sd b, u.me = { s.me with aq := q, chq := r, win := w, srseed := sd, busy := b, pc := pcMoved s.me.pc 1 })
    (he : e.i = i ∧ e.sid = s.cur ∧ e.pc = s.me.pc ∧ e.xa = xa ∧ e.xb = xb ∧ e.rm = s.me.rmode ∧ e.seed = s.me.srseed ∧ e.fms = s.me.fm.toList ∧ e.bound = false)
    (hseq : (u.core s.here).seq = (s.core s.here).seq ++ [e]) : s.entersSequencer (u.issued false) i xa xb := by
  obtain ⟨q, r, w, sd, b, hme⟩ := hme
  obtain ⟨h1, h2, h3, h4, h5, h6, h7, h8, h9⟩ := he
  have ht : (u.issued false).me = { s.me with
      aq := q, chq := r, win := w, srseed := sd, busy := b, pc := pcMoved s.me.pc 1, charge := .issue, lastIssue := u.now, mret := false, serial := s.me.serial + 1 } := by
    rw [State.issued_me, hme]
    rfl
  refine ⟨State.completes_issued false hcur hnow (by rw [hme]) (by rw [hme]), fun m => by rw [ht]; rfl, State.sameBytes_of_bytes ((State.bytes_issued u false).trans hb),
    by rw [ht], by rw [ht], by rw [ht], e, h1, h2, h3, h4, h5, h6, h7, h8, h9, ?_⟩
  rw [State.issued_seq, hseq]

theorem Ctx.seedAfter_frame (c : Ctx) (i : Instr) : ∃ sd, c.seedAfter i = { c with srseed := sd } := by
  unfold Ctx.seedAfter
  split <;> exact ⟨_, rfl⟩

theorem State.chans.seq {sid : Nat} {s t : State} (h : s.chans sid t) (ci : Nat) : (t.core ci).seq = (s.core ci).seq := by
  obtain ⟨g, i, hc⟩ := h.2.2.2 ci
  rw [hc]

theorem State.chans_reserve (ser : Nat) (l : List (BitVec 5)) (s : State) : s.chans s.cur (l.foldl (fun s n => s.writeChan s.cur ser 0 n none) s) := by
  induction l generalizing s with
  | nil => exact State.chans_refl s.cur s
  | cons n l ih =>
    have h := State.chans_writeChan s s.cur ser 0 n none
    have hih := ih (s.writeChan s.cur ser 0 n none)
    rw [h.cur] at hih
    exact State.chans_trans h hih

/-- An entry at the end of its core's sequencer, its scalar result awaited. -/
def State.placed (s : State) (e : SeqEntry) (h : VShape) : State :=
  (s.modCore (slotCore s.cur) fun k => { k with seq := k.seq ++ [e] }).upd fun c => { c.seedAfter e.i with busy := c.busy ++ h.xouts.map fun r => (r, Cause.depend) }

theorem State.placed_me (s : State) (e : SeqEntry) (h : VShape) : ∃ sd b, (s.placed e h).me = { s.me with srseed := sd, busy := b } := by
  obtain ⟨sd, hsd⟩ := Ctx.seedAfter_frame s.me e.i
  refine ⟨sd, s.me.busy ++ h.xouts.map fun r => (r, Cause.depend), ?_⟩
  have hsm : (s.modCore (slotCore s.cur) fun k => { k with seq := k.seq ++ [e] }).me = s.me := rfl
  rw [State.placed, State.upd_me, hsm, hsd]

theorem State.placed_seq (s : State) (e : SeqEntry) (h : VShape) : ((s.placed e h).core s.here).seq = (s.core s.here).seq ++ [e] := by
  show ((s.modCore (slotCore s.cur) fun k => { k with seq := k.seq ++ [e] }).core (slotCore s.cur)).seq = _
  rw [State.modCore_core, if_pos rfl]
  rfl

theorem State.chans_enqueueV (s : State) (e : SeqEntry) (h : VShape) : (s.placed e h).chans s.cur (s.enqueueV e h) := State.chans_reserve e.serial h.outs (s.placed e h)

/-- What an instruction leaves that takes its place in the sequencer, with the entries it pops. -/
theorem State.enqueueV_popAll (s : State) (tk : List Target) (e : SeqEntry) (h : VShape) :
    let u := ((s.popAll s.cur tk).enqueueV e h).adv
    u.cur = s.cur ∧ u.now = s.now ∧ u.bytes = s.bytes ∧ u.reqs = s.reqs ∧
      (∃ q r w sd b, u.me = { s.me with aq := q, chq := r, win := w, srseed := sd, busy := b, pc := pcMoved s.me.pc 1 }) ∧
      (u.core s.here).seq = (s.core s.here).seq ++ [e] := by
  have hpop := State.chans_popAll s s.cur tk
  generalize s.popAll s.cur tk = v at hpop
  have hen := State.chans_enqueueV v e h
  obtain ⟨sd, b, hpl⟩ := State.placed_me v e h
  have hplseq := State.placed_seq v e h
  have hplb : (v.placed e h).bytes = v.bytes := by simp [State.placed]
  have hplr : (v.placed e h).reqs = v.reqs := rfl
  have hplc : (v.placed e h).cur = v.cur := rfl
  have hpln : (v.placed e h).now = v.now := rfl
  generalize v.placed e h = y at hen hpl hplseq hplb hplr hplc hpln
  generalize v.enqueueV e h = x at hen
  obtain ⟨q, r, w, hx⟩ := hen.ctx
  obtain ⟨q', r', w', hv⟩ := hpop.ctx
  have hvme : v.me = { s.me with aq := q', chq := r', win := w' } := by rw [State.me, hpop.cur, hv]; rfl
  have hyme : y.ctx v.cur = y.me := by rw [State.me, hplc]
  have hxme : x.me = { y.me with aq := q, chq := r, win := w } := by rw [State.me, hen.cur, hplc, hx, hyme]
  intro u
  refine ⟨hen.cur.trans (hplc.trans hpop.cur), hen.now.trans (hpln.trans hpop.now), ?_, hen.reqs.trans (hplr.trans hpop.reqs), ⟨q, r, w, sd, b, ?_⟩, ?_⟩
  · rw [State.bytes_adv, hen.bytes, hplb, hpop.bytes]
  · rw [State.adv_me, hxme, hpl, hvme, ← pc_next]
  · show (x.core s.here).seq = _
    have hhere : v.here = s.here := by rw [State.here, hpop.cur]; rfl
    rw [hen.seq, ← hhere, hplseq, hpop.seq]

/-! Vector forms that nothing holds. -/

theorem State.seqIsFull_of_lt {s : State} (h : s.myCore.seq.length < Config.seqEntries) : s.seqIsFull = false := decide_eq_false (Nat.not_le.mpr h)

/-- What keeps a vector form from issuing is not there. -/
theorem State.vecStop_ready {s : State} {i : Instr} {h : VShape} {xa xb : Word} {tx : List Target} (hr : s.vectorReady i h xa xb tx) : s.vecStop i h = none := by
  obtain ⟨-, haw, hf, ho, hre, hlen, hmem, hx⟩ := hr
  have hmemi : (if isVMem i then s.me.acq else none) = none ∧ (if isVMem i && s.maskPending s.cur h.k then some Cause.depend else none) = none := by
    cases hm : isVMem i with
    | false => exact ⟨rfl, rfl⟩
    | true =>
      obtain ⟨hacq, hmask⟩ := hmem hm
      exact ⟨hacq, by rw [hmask]; rfl⟩
  have hfull : (if s.me.replay.isSome || s.seqIsFull then some Cause.seqFull else none) = none := by
    rw [hre, State.seqIsFull_of_lt hlen]
    rfl
  rw [State.vecStop, Ctx.awaitsFor_eq_none.mpr haw, hf, hx, ho, hfull, hmemi.1, hmemi.2]
  rfl

/-- What a form's entry took at issue. -/
theorem State.seqEntry_takes (s : State) (i : Instr) (h : VShape) (xa xb : Word) : (s.seqEntry i h xa xb).i = i ∧ (s.seqEntry i h xa xb).sid = s.cur ∧
    (s.seqEntry i h xa xb).pc = s.me.pc ∧ (s.seqEntry i h xa xb).xa = xa ∧ (s.seqEntry i h xa xb).xb = xb ∧ (s.seqEntry i h xa xb).rm = s.me.rmode ∧
    (s.seqEntry i h xa xb).seed = s.me.srseed ∧ (s.seqEntry i h xa xb).fms = s.me.fm.toList ∧ (s.seqEntry i h xa xb).bound = false :=
  ⟨rfl, rfl, rfl, rfl, rfl, rfl, rfl, rfl, rfl⟩

theorem State.vecIssue_ready {s : State} {i : Instr} {h : VShape} {xa xb : Word} {tx : List Target} (hr : s.vectorReady i h xa xb tx) :
    s.vecIssue i = .ok (((s.popAll s.cur tx).enqueueV (s.seqEntry i h xa xb) h).adv) := by
  have hstop := State.vecStop_ready hr
  obtain ⟨hs, -, -, -, -, -, -, hx⟩ := hr
  rw [State.vecIssue, hs]
  dsimp only
  rw [hstop, hx]

/-- A form whose entry takes its place enters its core's sequencer. -/
theorem State.enters_enqueueV {s : State} {i : Instr} {xa xb : Word} {e : SeqEntry} (tk : List Target) (h : VShape)
    (he : e.i = i ∧ e.sid = s.cur ∧ e.pc = s.me.pc ∧ e.xa = xa ∧ e.xb = xb ∧ e.rm = s.me.rmode ∧ e.seed = s.me.srseed ∧ e.fms = s.me.fm.toList ∧ e.bound = false) :
    let t := (((s.popAll s.cur tk).enqueueV e h).adv).issued false
    s.entersSequencer t i xa xb ∧ (t.core s.here).seq = (s.core s.here).seq ++ [e] := by
  obtain ⟨hcur, hnow, hb, -, hme, hseq⟩ := State.enqueueV_popAll s tk e h
  exact ⟨State.entersSequencer_issued hcur hnow hb hme he hseq, (State.issued_seq _ false _).trans hseq⟩

/-- The meaning of an arithmetic form, a mask form or KPOPC is its issue to the sequencer. -/
theorem exec_of_vShape {i : Instr} {h : VShape} (hs : vShape i = some h) (hm : isVMem i = false) (hp : ∀ d n, i ≠ .peerv d n) (hf : ∀ n a, i ≠ .setfmt n a) (s : State) :
    exec i s = finish s (s.vecIssue i) := by
  cases i <;> cases hs
  case peerv => exact absurd rfl (hp _ _)
  case setfmt => exact absurd rfl (hf _ _)
  case vld => cases hm
  case vst => cases hm
  case vlds => cases hm
  case vsts => cases hm
  case vgthr => cases hm
  case vsctr => cases hm
  all_goals rfl

/-! SETFMT and REPF (R162 to R164). -/

/-- Settles O44: SETFMT writes its format register, REPF begins its capture. -/
theorem formatsAndFrames : Obligations.FormatsAndFrames := by
  intro s
  refine ⟨fun n a h x y tx hr => ?_, fun l a b hg hre hlen hch => ?_⟩
  · have hstop := State.vecStop_ready hr
    obtain ⟨hs, -, -, -, -, -, -, hx⟩ := hr
    cases hs
    have hpop := State.chans_popAll s s.cur tx
    have hexec : exec (.setfmt n a) s = finish s (.ok (((s.popAll s.cur tx).upd fun c => { c with fm := c.fm.set n.toNat (x.extractLsb' 0 16) n.isLt }).adv)) := by
      show execSetfmt n a s = _
      rw [execSetfmt, hstop, hx]
    generalize s.popAll s.cur tx = v at hpop hexec
    obtain ⟨q, r, w, hv⟩ := hpop.ctx
    have hvme : v.me = { s.me with aq := q, chq := r, win := w } := by rw [State.me, hpop.cur, hv]; rfl
    have hb : (v.upd fun c => { c with fm := c.fm.set n.toNat (x.extractLsb' 0 16) n.isLt }).adv.bytes = s.bytes := by
      rw [State.bytes_adv, State.bytes_upd, hpop.bytes]
    have hcur : (v.upd fun c => { c with fm := c.fm.set n.toNat (x.extractLsb' 0 16) n.isLt }).adv.cur = s.cur := hpop.cur
    have hnow : (v.upd fun c => { c with fm := c.fm.set n.toNat (x.extractLsb' 0 16) n.isLt }).adv.now = s.now := hpop.now
    have hme : (v.upd fun c => { c with fm := c.fm.set n.toNat (x.extractLsb' 0 16) n.isLt }).adv.me =
        { s.me with aq := q, chq := r, win := w, fm := s.me.fm.set n.toNat (x.extractLsb' 0 16) n.isLt, pc := pcMoved s.me.pc 1 } := by
      rw [State.adv_me, State.upd_me, hvme, ← pc_next]
    generalize (v.upd fun c => { c with fm := c.fm.set n.toNat (x.extractLsb' 0 16) n.isLt }).adv = u at hexec hb hcur hnow hme
    refine ⟨u.issued false, hexec, State.completes_issued false hcur hnow (by rw [hme]) (by rw [hme]), ?_, ?_, fun m => ?_,
      State.sameBytes_of_bytes ((State.bytes_issued u false).trans hb)⟩
    · rw [State.issued_me, hme]
    · rw [State.issued_me, hme]
    · rw [State.issued_me, hme]
      rfl
  · have hexec : exec (.repf l a b) s = finish s (.ok (s.upd fun c => { c with
        framepc := c.next, pc := c.next, cap := some { len := l.toNat + 1, words := [], n := a, stag := b, jump := none, resume := none } })) := by
      show execRepf l a b s = _
      rw [execRepf, hg, hre, State.seqIsFull_of_lt hlen, hch]
      rfl
    have hme : (s.upd fun c => { c with framepc := c.next, pc := c.next, cap := some { len := l.toNat + 1, words := [], n := a, stag := b, jump := none, resume := none } }).me =
        { s.me with framepc := pcMoved s.me.pc 1, pc := pcMoved s.me.pc 1, cap := some { len := l.toNat + 1, words := [], n := a, stag := b, jump := none, resume := none } } := by
      rw [State.upd_me, Ctx.next_eq_pcMoved]
    refine ⟨_, hexec, State.completes_issued false rfl rfl (by rw [hme]) (by rw [hme]), ?_, fun m => ?_, State.sameBytes_of_bytes (by simp), ?_⟩
    · rw [State.issued_me, hme]
    · rw [State.issued_me, hme]
      rfl
    · rw [State.issued_me, hme]

/-! Performance of a vector form (R138, R140). -/

/-- Two contexts with the same registers and flags. -/
def Ctx.sameFile (c d : Ctx) : Prop := d.v = c.v ∧ d.k = c.k ∧ d.fflags = c.fflags ∧ d.x = c.x

theorem Ctx.sameFile_trans {c d e : Ctx} (h : c.sameFile d) (g : d.sameFile e) : c.sameFile e := by
  obtain ⟨h1, h2, h3, h4⟩ := h
  obtain ⟨g1, g2, g3, g4⟩ := g
  exact ⟨g1.trans h1, g2.trans h2, g3.trans h3, g4.trans h4⟩

theorem Ctx.shows_sameFile {c c' d d' : Ctx} {e : VEffect} (h : c'.shows d e) (hc : c.sameFile c') (hd : d.sameFile d') : c.shows d' e := by
  obtain ⟨hv, hk, hf, hx⟩ := hc
  obtain ⟨hv', hk', hf', hx'⟩ := hd
  have hrx : ∀ m, c'.rx m = c.rx m := fun m => by rw [Ctx.rx, Ctx.rx, hx]
  have hrx' : ∀ m, d'.rx m = d.rx m := fun m => by rw [Ctx.rx, Ctx.rx, hx']
  have hrv : ∀ m, c'.rv m = c.rv m := fun m => by rw [Ctx.rv, Ctx.rv, hv]
  have hrv' : ∀ m, d'.rv m = d.rv m := fun m => by rw [Ctx.rv, Ctx.rv, hv']
  have hrk : ∀ m, c'.rk m = c.rk m := fun m => by rw [Ctx.rk, Ctx.rk, hk]
  have hrk' : ∀ m, d'.rk m = d.rk m := fun m => by rw [Ctx.rk, Ctx.rk, hk']
  cases e with
  | vec d r => cases d <;> simpa only [Ctx.shows, Ctx.sameX, hrx, hrx', hrv, hrv', hv, hv', hk, hk', hf, hf'] using h
  | own n r => simpa only [Ctx.shows, Ctx.sameX, hrx, hrx', hrv, hrv', hk, hk', hf, hf'] using h
  | mask n r => simpa only [Ctx.shows, Ctx.sameX, hrx, hrx', hrk, hrk', hv, hv', hf, hf'] using h
  | scalar d r => cases d <;> simpa only [Ctx.shows, Ctx.sameX, hrx, hrx', hv, hv', hk, hk', hf, hf'] using h
  | none => simpa only [Ctx.shows, Ctx.sameX, hrx, hrx', hv, hv', hk, hk', hf, hf'] using h

/-- A step of a slot's vector unit: nothing but the contexts and the cores changes, no other context, and no sequencer. -/
def State.vecStep (sid : Nat) (s t : State) : Prop := s.sameOutside t ∧ (∀ j, j ≠ sid → t.ctx j = s.ctx j) ∧ ∀ ci, (t.core ci).seq = (s.core ci).seq

theorem State.vecStep_refl (sid : Nat) (s : State) : s.vecStep sid s := ⟨rfl, fun _ _ => rfl, fun _ => rfl⟩

theorem State.vecStep_trans {sid : Nat} {s t u : State} (h : s.vecStep sid t) (g : t.vecStep sid u) : s.vecStep sid u := by
  obtain ⟨h1, h2, h3⟩ := h
  obtain ⟨g1, g2, g3⟩ := g
  refine ⟨?_, fun j hj => (g2 j hj).trans (h2 j hj), fun ci => (g3 ci).trans (h3 ci)⟩
  unfold State.sameOutside at *
  rw [g1, h1]

theorem State.vecStep_modCtx (s : State) (sid : Nat) (f : Ctx → Ctx) : s.vecStep sid (s.modCtx sid f) :=
  ⟨rfl, fun j hj => State.modCtx_other s sid j f hj, fun _ => rfl⟩

theorem State.vecStep_of_chans {s t : State} {sid : Nat} (h : s.chans sid t) : s.vecStep sid t := ⟨h.1, fun _ hj => h.other hj, h.seq⟩

theorem State.sameFile_of_chans {s t : State} {sid : Nat} (h : s.chans sid t) : (s.ctx sid).sameFile (t.ctx sid) := by
  obtain ⟨q, r, w, hc⟩ := h.ctx
  rw [hc]
  exact ⟨rfl, rfl, rfl, rfl⟩

section
variable {sid : Nat} {s t : State} (h : s.vecStep sid t)
include h

theorem State.vecStep.eq : t = { s with ctxs := t.ctxs, cores := t.cores } := h.1
theorem State.vecStep.cur : t.cur = s.cur := by rw [State.vecStep.eq h]
theorem State.vecStep.now : t.now = s.now := by rw [State.vecStep.eq h]
theorem State.vecStep.reqs : t.reqs = s.reqs := by rw [State.vecStep.eq h]
theorem State.vecStep.clu (cl : Nat) : t.clu cl = s.clu cl := by rw [State.vecStep.eq h]; rfl
theorem State.vecStep.bytes : t.bytes = s.bytes := by rw [State.vecStep.eq h]; rfl
theorem State.vecStep.seq (ci : Nat) : (t.core ci).seq = (s.core ci).seq := h.2.2 ci

end

theorem State.chans_vecWrite (s : State) (sid ser at_ : Nat) (frame : Bool) (n : BitVec 4) (v : Nat) : s.chans sid (s.vecWrite sid ser at_ frame n v) := by
  unfold State.vecWrite
  split
  · exact State.chans_writeChan ..
  · exact State.chans_fillChan ..

theorem State.chans_popAllV (s : State) (sid : Nat) (l : List Target) : s.chans sid (s.popAllV sid l) :=
  State.chans_foldl (fun s t => State.chans_popTarget s sid 64 t) l s

theorem Ctx.sameFile_refl (c : Ctx) : c.sameFile c := ⟨rfl, rfl, rfl, rfl⟩

theorem Ctx.sameFile_vecUsable (c : Ctx) (now n at_ : Nat) : c.sameFile (c.vecUsable now n at_) := by
  unfold Ctx.vecUsable
  split <;> exact ⟨rfl, rfl, rfl, rfl⟩

theorem Ctx.sameFile_vecDone (c : Ctx) (now at_ : Nat) : c.sameFile (c.vecDone now at_) := by
  unfold Ctx.vecDone
  split <;> exact ⟨rfl, rfl, rfl, rfl⟩

theorem Ctx.sameFile_freesAt (c : Ctx) (ds : List Nat) (at_ : Nat) : c.sameFile (c.freesAt ds at_) := by
  unfold Ctx.freesAt
  split <;> exact ⟨rfl, rfl, rfl, rfl⟩

theorem Ctx.vecScalar_frame (c : Ctx) (now ser at_ : Nat) (n : BitVec 5) (v : Word) : (c.wxAt ser n v).sameFile (c.vecScalar now ser at_ n v) := by
  unfold Ctx.vecScalar
  split <;> exact ⟨rfl, rfl, rfl, rfl⟩

theorem zeroExtend5_eq_zero (n : BitVec 4) : n.zeroExtend 5 = 0 ↔ n = 0 := by
  revert n
  decide

/-- What a register result and its flags leave of the registers. -/
theorem Ctx.shows_wv (c : Ctx) (n : BitVec 4) (r : VReg × Flags) :
    (∀ m, ((c.wv n r.1).raise r.2).rv m = if m = n then r.1 else c.rv m) ∧ ((c.wv n r.1).raise r.2).k = c.k ∧ ((c.wv n r.1).raise r.2).fflags = c.fflags ||| r.2 ∧
      c.sameX ((c.wv n r.1).raise r.2) :=
  ⟨fun m => Ctx.wv_rv c n m r.1, rfl, rfl, fun _ => rfl⟩

theorem Ctx.shows_wk (c : Ctx) (n : BitVec 3) (r : KReg × Flags) :
    (∀ m, ((c.wk n r.1).raise r.2).rk m = if m = n then r.1 else c.rk m) ∧ ((c.wk n r.1).raise r.2).v = c.v ∧ ((c.wk n r.1).raise r.2).fflags = c.fflags ||| r.2 ∧
      c.sameX ((c.wk n r.1).raise r.2) :=
  ⟨fun m => Ctx.wk_rk c n m r.1, rfl, rfl, fun _ => rfl⟩

/-- What an effect that is written leaves: the registers as it says, and beside its context nothing but channel entries. -/
theorem State.applyV_shows (s : State) (sid ser at_ : Nat) (frame : Bool) (e : VEffect) :
    (s.ctx sid).shows ((s.applyV sid ser at_ frame e).ctx sid) e ∧ s.vecStep sid (s.applyV sid ser at_ frame e) := by
  cases e with
  | vec d r =>
    cases d with
    | v n =>
      refine ⟨?_, State.vecStep_modCtx s sid fun c => ((c.wv n r.1).raise r.2).vecUsable s.now n.toNat at_⟩
      show (s.ctx sid).shows ((s.modCtx sid fun c => ((c.wv n r.1).raise r.2).vecUsable s.now n.toNat at_).ctx sid) _
      rw [State.modCtx_self]
      exact Ctx.shows_sameFile (c' := s.ctx sid) (d := ((s.ctx sid).wv n r.1).raise r.2) (Ctx.shows_wv _ n r) (Ctx.sameFile_refl _) (Ctx.sameFile_vecUsable ..)
    | ch n =>
      have hch := State.chans_vecWrite (s.modCtx sid fun c => (c.raise r.2).vecDone s.now at_) sid ser at_ frame n r.1.toNat
      refine ⟨?_, State.vecStep_trans (State.vecStep_modCtx ..) (State.vecStep_of_chans hch)⟩
      have hfile := State.sameFile_of_chans hch
      rw [State.modCtx_self] at hfile
      exact Ctx.shows_sameFile (c' := s.ctx sid) (d := (s.ctx sid).raise r.2) (e := .vec (.ch n) r) ⟨rfl, rfl, rfl, fun _ => rfl⟩ (Ctx.sameFile_refl _)
        (Ctx.sameFile_trans (Ctx.sameFile_vecDone ..) hfile)
  | own n r =>
    refine ⟨?_, State.vecStep_modCtx s sid fun c => ((c.wv n r.1).raise r.2).vecUsable s.now n.toNat at_⟩
    show (s.ctx sid).shows ((s.modCtx sid fun c => ((c.wv n r.1).raise r.2).vecUsable s.now n.toNat at_).ctx sid) _
    rw [State.modCtx_self]
    exact Ctx.shows_sameFile (c' := s.ctx sid) (d := ((s.ctx sid).wv n r.1).raise r.2) (Ctx.shows_wv _ n r) (Ctx.sameFile_refl _) (Ctx.sameFile_vecUsable ..)
  | mask n r =>
    refine ⟨?_, State.vecStep_modCtx s sid fun c => ((c.wk n r.1).raise r.2).vecUsable s.now (16 + n.toNat) at_⟩
    show (s.ctx sid).shows ((s.modCtx sid fun c => ((c.wk n r.1).raise r.2).vecUsable s.now (16 + n.toNat) at_).ctx sid) _
    rw [State.modCtx_self]
    exact Ctx.shows_sameFile (c' := s.ctx sid) (d := ((s.ctx sid).wk n r.1).raise r.2) (Ctx.shows_wk _ n r) (Ctx.sameFile_refl _) (Ctx.sameFile_vecUsable ..)
  | scalar d w =>
    cases d with
    | x n =>
      refine ⟨?_, State.vecStep_modCtx s sid fun c => (c.vecScalar s.now ser at_ (n.zeroExtend 5) w).vecDone s.now at_⟩
      show (s.ctx sid).shows ((s.modCtx sid fun c => (c.vecScalar s.now ser at_ (n.zeroExtend 5) w).vecDone s.now at_).ctx sid) _
      rw [State.modCtx_self]
      have hframe := Ctx.wxAt_frame (s.ctx sid) (n.zeroExtend 5) w ser
      refine Ctx.shows_sameFile (c' := s.ctx sid) (d := (s.ctx sid).wxAt ser (n.zeroExtend 5) w) (e := .scalar (.x n) w) ⟨fun m => ?_, ?_, ?_, ?_⟩ (Ctx.sameFile_refl _)
        (Ctx.sameFile_trans (Ctx.vecScalar_frame ..) (Ctx.sameFile_vecDone ..))
      · rw [Ctx.wxAt_rx]
        exact if_congr (and_congr_right fun _ => not_congr (zeroExtend5_eq_zero n)) rfl rfl
      · rw [hframe]
      · rw [hframe]
      · rw [hframe]
    | ch n =>
      have hch := State.chans_vecWrite (s.modCtx sid fun c => c.vecDone s.now at_) sid ser at_ frame n w.toNat
      refine ⟨?_, State.vecStep_trans (State.vecStep_modCtx ..) (State.vecStep_of_chans hch)⟩
      have hfile := State.sameFile_of_chans hch
      rw [State.modCtx_self] at hfile
      exact Ctx.shows_sameFile (c' := s.ctx sid) (d := s.ctx sid) (e := .scalar (.ch n) w) ⟨rfl, rfl, rfl, fun _ => rfl⟩ (Ctx.sameFile_refl _)
        (Ctx.sameFile_trans (Ctx.sameFile_vecDone ..) hfile)
  | none => exact ⟨⟨rfl, rfl, rfl, fun _ => rfl⟩, State.vecStep_refl ..⟩

/-- What a vector form that performs leaves: its effect, its entries popped, and the space that they free. -/
theorem State.vecPerform_shows (s : State) (e : SeqEntry) (h : VShape) (env : VEnv) (seed : Nat) (a b : VReg) (tk : List Target) :
    (s.ctx e.sid).shows ((s.vecPerform e h env seed a b tk).ctx e.sid) (vecEffect (s.ctx e.sid) env seed e.i a b e.xa e.xb) ∧
      s.vecStep e.sid (s.vecPerform e h env seed a b tk) := by
  have hpop := State.chans_popAllV s e.sid tk
  unfold State.vecPerform
  extract_lets c at_ ds
  generalize s.popAllV e.sid tk = v at hpop
  obtain ⟨hshow, hstep⟩ := State.applyV_shows v e.sid e.serial at_ e.frame (vecEffect c env seed e.i a b e.xa e.xb)
  generalize v.applyV e.sid e.serial at_ e.frame (vecEffect c env seed e.i a b e.xa e.xb) = u at hshow hstep
  refine ⟨?_, State.vecStep_trans (State.vecStep_of_chans hpop) (State.vecStep_trans hstep (State.vecStep_modCtx ..))⟩
  rw [State.modCtx_self]
  exact Ctx.shows_sameFile hshow (State.sameFile_of_chans hpop) (Ctx.sameFile_freesAt ..)

/-! The head of a sequencer binds (R138, R140, R245). -/

/-- A head whose performance leaves: the rest of its core's sequencer, its effect, and no byte. -/
theorem State.dropHead_vecPerform (s : State) (ci : Nat) {e : SeqEntry} {l : List SeqEntry} (h : VShape) (a b : VReg) (tk : List Target) (hseq : (s.core ci).seq = e :: l) :
    let t := (s.dropHead ci).vecPerform e h e.env e.seed.toNat a b tk
    (t.core ci).seq = l ∧ t.bytes = s.bytes ∧ t.now = s.now ∧ (∀ cl, t.clu cl = s.clu cl) ∧
      (s.ctx e.sid).shows (t.ctx e.sid) (vecEffect (s.ctx e.sid) e.env e.seed.toNat e.i a b e.xa e.xb) := by
  obtain ⟨hshow, hstep⟩ := State.vecPerform_shows (s.dropHead ci) e h e.env e.seed.toNat a b tk
  refine ⟨?_, hstep.bytes.trans ?_, hstep.now, fun cl => hstep.clu cl, hshow⟩
  · rw [hstep.seq, State.dropHead, State.modCore_core, if_pos rfl, hseq]
    rfl
  · exact State.bytes_dropHead ..

/-- A head that finds what it needs binds and performs. -/
theorem State.bindHead_ready {s : State} {e : SeqEntry} {h : VShape} {a b : VReg} {tv : List Target} (hb : s.headBinds e h a b tv) (hm : isVMem e.i = false) (ci : Nat) :
    s.bindHead ci e = some ((s.dropHead ci).vecPerform e h e.env e.seed.toNat (e.va.getD a) b tv) := by
  obtain ⟨hs, -, hbound, hready, hread, hdst⟩ := hb
  simp only [State.bindHead, hs, hbound, hready, hread, hm, hdst, Bool.not_true, Bool.or_false, Bool.false_eq_true, if_false]

theorem State.laneServe_ready {s : State} {ci : Nat} {e : SeqEntry} {l : List SeqEntry} {h : VShape} {a b : VReg} {tv : List Target} (hseq : (s.core ci).seq = e :: l)
    (hb : s.headBinds e h a b tv) (hm : isVMem e.i = false) (hu : usesLanes e.i = true) :
    s.laneServe ci = some ((s.dropHead ci).vecPerform e h e.env e.seed.toNat (e.va.getD a) b tv) := by
  have hframe : e.frame = false := hb.2.1
  simp only [State.laneServe, hseq, hframe, hu, Bool.false_eq_true, if_false, if_true]
  exact State.bindHead_ready hb hm ci

/-- The one core of a cluster whose head a lane group may serve is served. -/
theorem State.laneGrant_of_serve {s : State} {cl c g : Nat} {t : State} (hc : c < 4) (hat : (s.clu cl).laneAt ≤ s.now) (hg : (s.clu cl).freeGroup s.now = some g)
    (ht : s.laneServe (4 * cl + c) = some t)
    (honly : (1 ≤ (s.clu cl).ldef ∧ (s.clu cl).lptr = c) ∨ ∀ c', c' ≠ c → s.laneServe (4 * cl + c') = none) : ∃ d, s.laneGrant cl = some (c, t, d) := by
  have hguard : (decide (s.now < (s.clu cl).laneAt) || ((s.clu cl).freeGroup s.now).isNone) = false := by
    rw [decide_eq_false (Nat.not_lt.mpr hat), hg]
    rfl
  unfold State.laneGrant
  dsimp only
  rw [hguard]
  simp only [Bool.false_eq_true, if_false]
  by_cases hown : 1 ≤ (s.clu cl).ldef ∧ (s.clu cl).lptr = c
  · obtain ⟨hdef, hptr⟩ := hown
    rw [if_pos hdef, hptr, ht]
    exact ⟨_, rfl⟩
  · have hothers := honly.resolve_left hown
    have hfirst : (if 1 ≤ (s.clu cl).ldef then s.laneServe (4 * cl + (s.clu cl).lptr) else none) = none := by
      split
      · next hdef => exact hothers _ fun hp => hown ⟨hdef, hp⟩
      · rfl
    rw [hfirst]
    obtain ⟨n, hn, hnc⟩ : ∃ n ∈ [1, 2, 3, 0], ((s.clu cl).lptr + n) % 4 = c := by
      have h4 : ∀ p < 4, ∀ c < 4, ∃ n ∈ [1, 2, 3, 0], (p + n) % 4 = c := by decide
      obtain ⟨n, hn, h⟩ := h4 ((s.clu cl).lptr % 4) (Nat.mod_lt _ (by norm_num)) c hc
      exact ⟨n, hn, by rw [← h, Nat.mod_add_mod]⟩
    have hsome : ∀ x, ∀ y ∈ (s.laneServe (4 * cl + x)).map fun t => (x, t, (s.clu cl).weight x - 1), y = (c, t, (s.clu cl).weight c - 1) := by
      intro x y hy
      by_cases hx : x = c
      · subst hx
        rw [ht] at hy
        exact (Option.mem_some.mp hy).symm
      · rw [hothers x hx] at hy
        cases hy
    refine ⟨(s.clu cl).weight c - 1, ?_⟩
    dsimp only
    cases hfind : ([1, 2, 3, 0].map fun n => ((s.clu cl).lptr + n) % 4).findSome? fun c => (s.laneServe (4 * cl + c)).map fun t => (c, t, (s.clu cl).weight c - 1) with
    | none =>
      have hnone := List.findSome?_eq_none_iff.mp hfind c (List.mem_map.mpr ⟨n, hn, hnc⟩)
      rw [ht] at hnone
      cases hnone
    | some y =>
      obtain ⟨x, -, hx⟩ := List.exists_of_findSome?_eq_some hfind
      rw [hsome x y hx]

theorem State.exec_sequencerBind {s t : State} {ci : Nat} {e : SeqEntry} {l : List SeqEntry} (hseq : (s.core ci).seq = e :: l) (hf : e.frame = false)
    (hu : usesLanes e.i = false) (hat : (s.core ci).bindAt ≤ s.now) (ht : s.bindHead ci e = some t) :
    exec (.sequencerBind ci) s = .next (t.modCore ci fun k => { k with bindAt := s.now + 1 }) := by
  show execSequencerBind ci s = _
  simp only [execSequencerBind, hseq, hf, hu, decide_eq_false (Nat.not_lt.mpr hat), Bool.or_false, Bool.false_eq_true, if_false, ht]

theorem State.exec_laneGroupGrant {s t : State} {cl c d : Nat} (h : s.laneGrant cl = some (c, t, d)) :
    exec (.laneGroupGrant cl) s = .next (t.modClu cl fun k => { k with
      lptr := c, ldef := d, laneAt := s.now + 1, lanes := k.lanes.set (((s.clu cl).freeGroup s.now).getD 0) (s.now + 4) }) := by
  show Host.Outcome.next (s.laneStep cl) = _
  rw [State.laneStep, h]

/-- Settles O42: an arithmetic or mask form enters its sequencer, and its head binds and acts. -/
theorem vectorFormsActOrEnterTheSequencer : Obligations.VectorFormsActOrEnterTheSequencer := by
  refine ⟨fun i h s xa xb tx hm hp hf hrepf hr => ?_, fun s cl c e l h a b tv hc hseq hb hm => ?_⟩
  · refine ⟨_, ?_, (State.enters_enqueueV (e := s.seqEntry i h xa xb) tx h (State.seqEntry_takes s i h xa xb)).1⟩
    rw [exec_of_vShape hr.1 hm hp hf, State.vecIssue_ready hr, finish_ok]
  · intro acts
    obtain ⟨h1, h2, h3, h4, h5⟩ := State.dropHead_vecPerform s (4 * cl + c) h (e.va.getD a) b tv hseq
    refine ⟨fun hu hat => ?_, fun g hu hat hg honly => ?_⟩
    · refine ⟨_, State.exec_sequencerBind hseq hb.2.1 hu hat (State.bindHead_ready hb hm _), ?_, State.sameBytes_of_bytes (by simpa using h2), h5⟩
      rw [State.modCore_core, if_pos rfl]
      exact h1
    · obtain ⟨d, hd⟩ := State.laneGrant_of_serve hc hat hg (State.laneServe_ready hseq hb hm hu) honly
      exact ⟨_, State.exec_laneGroupGrant hd, h1, State.sameBytes_of_bytes ((State.bytes_modClu _ _ _ rfl).trans h2), h5⟩

/-! PEER and PEERV (R219, R220). -/

/-- The state after a PEER that gives its value (R219). -/
def State.peerGives (s : State) (d : BitVec 5) (v : Word) : State :=
  (s.upd fun c => { ((c.wx d v).usableAt d .depend (s.now + peerLatency)).peersEnd s.now with acq := some .depend }).adv

/-- What a PEER that gives its value leaves. -/
theorem State.peerGives_issued (s : State) (d : BitVec 5) (v : Word) :
    let t := (s.peerGives d v).issued false
    s.completes t (pcMoved s.me.pc 1) ∧ s.writesX t d v ∧ s.sameBytes t := by
  obtain ⟨-, busy, late, hc⟩ := Ctx.wx_usableAt s.me d v .depend (s.now + peerLatency) s.me.serial
  obtain ⟨x, meet, hwx⟩ := Ctx.wx_frame s.me d v
  have hu : ∃ late, (s.peerGives d v).me = { s.me.wx d v with busy := busy, late := late, acq := some .depend, pc := pcMoved s.me.pc 1 } := by
    refine ⟨late ++ [{ at_ := s.now + peerLatency, code := none, acq := true, space := [] }], ?_⟩
    rw [State.peerGives, State.adv_me, State.upd_me, hc, hwx, ← pc_next]
    rfl
  have hb : (s.peerGives d v).bytes = s.bytes := by simp [State.peerGives]
  have hcur : (s.peerGives d v).cur = s.cur := rfl
  have hnow : (s.peerGives d v).now = s.now := rfl
  generalize s.peerGives d v = u at hu hb hcur hnow
  obtain ⟨late', hu⟩ := hu
  refine ⟨State.completes_issued false hcur hnow (by rw [hu]) (by rw [hu, hwx]), fun m => ?_, State.sameBytes_of_bytes ((State.bytes_issued u false).trans hb)⟩
  have hrx : (u.issued false).me.rx m = (s.me.wx d v).rx m := by
    rw [State.issued_me, hu]
    rfl
  rw [hrx, Ctx.wx_rx]

/-- The state after a PEER that awaits its partner's write (R219). -/
def State.peerAwaits (s : State) (d n : BitVec 5) : State :=
  (s.upd fun c => { c with
    busy := c.busy ++ [(d.toNat, Cause.depend)], acq := some .depend, meet := c.meet.map fun m => { m with peers := m.peers ++ [(d.toNat, n.toNat)] } }).adv

section
variable {s : State} {d n : BitVec 5} {now : Bool}

theorem State.exec_peer_gone (hr : s.memFree [] [d]) (hp : s.partnerOf s.cur = none) :
    exec (.peer d n now) s = finish s (.trap .partnerGone (wordOf (.peer d n now))) := by
  show execPeer d n now s = _
  rw [execPeer]
  dsimp only
  rw [State.memForm_of_memFree hr rfl, hp]

variable {p : Nat} {q : Meeting}

theorem State.exec_peer_zero (hr : s.memFree [] [d]) (hp : s.partnerOf s.cur = some (p, q)) : exec (.peer d 0 now) s = .next ((s.peerGives d 0).issued false) := by
  show execPeer d 0 now s = _
  rw [execPeer]
  dsimp only
  rw [State.memForm_of_memFree hr rfl, hp]
  rfl

theorem State.exec_peer_visible {v : Word} (hr : s.memFree [] [d]) (hp : s.partnerOf s.cur = some (p, q)) (hn : n ≠ 0) (hv : s.visibleWrite p q n.toNat = some v) :
    exec (.peer d n now) s = .next ((s.peerGives d v).issued false) := by
  show execPeer d n now s = _
  rw [execPeer]
  dsimp only
  rw [State.memForm_of_memFree hr rfl, hp]
  dsimp only
  rw [if_neg hn, hv]
  rfl

theorem State.exec_peer_unwritten (hr : s.memFree [] [d]) (hp : s.partnerOf s.cur = some (p, q)) (hn : n ≠ 0) (hv : s.visibleWrite p q n.toNat = none) :
    exec (.peer d n now) s = .next ((if now then s.peerGives d (q.xs[n.toNat]'n.isLt) else s.peerAwaits d n).issued false) := by
  show execPeer d n now s = _
  rw [execPeer]
  dsimp only
  rw [State.memForm_of_memFree hr rfl, hp]
  dsimp only
  rw [if_neg hn, hv]
  cases now <;> rfl

end

/-- The shape of a PEERV: it writes its vector register and reads none. -/
abbrev peervShape (d : BitVec 4) : VShape := { d := some (.v d) }

theorem State.peer_reads {s : State} {d n : BitVec 5} {now : Bool} (hr : s.memFree [] [d]) :
    (s.partnerOf s.cur = none → exec (.peer d n now) s = .next (s.trap .partnerGone (wordOf (.peer d n now)) s.me.pc)) ∧
      (∀ p q, s.partnerOf s.cur = some (p, q) →
        (∀ v, n ≠ 0 → s.visibleWrite p q n.toNat = some v →
          ∃ t, exec (.peer d n now) s = .next t ∧ s.completes t (pcMoved s.me.pc 1) ∧ s.writesX t d v ∧ s.sameBytes t) ∧
        (n = 0 → ∃ t, exec (.peer d n now) s = .next t ∧ s.completes t (pcMoved s.me.pc 1) ∧ s.writesX t d 0 ∧ s.sameBytes t) ∧
        (n ≠ 0 → s.visibleWrite p q n.toNat = none → now = true →
          ∃ t, exec (.peer d n now) s = .next t ∧ s.completes t (pcMoved s.me.pc 1) ∧ s.writesX t d (q.xs[n.toNat]'n.isLt) ∧ s.sameBytes t) ∧
        (n ≠ 0 → s.visibleWrite p q n.toNat = none → now = false →
          ∃ t, exec (.peer d n now) s = .next t ∧ s.completes t (pcMoved s.me.pc 1) ∧ s.sameX t ∧ s.sameBytes t ∧ t.me.busy = s.me.busy ++ [(d.toNat, .depend)] ∧
            t.me.acq = some .depend)) := by
  refine ⟨fun hp => ?_, fun p q hp => ⟨fun v hn hv => ?_, fun hn => ?_, fun hn hv hnow => ?_, fun hn hv hnow => ?_⟩⟩
  · rw [State.exec_peer_gone hr hp, finish_trap]
  · exact ⟨_, State.exec_peer_visible hr hp hn hv, State.peerGives_issued s d v⟩
  · subst hn
    exact ⟨_, State.exec_peer_zero hr hp, State.peerGives_issued s d 0⟩
  · subst hnow
    exact ⟨_, State.exec_peer_unwritten hr hp hn hv, State.peerGives_issued s d _⟩
  · subst hnow
    have hme : (s.peerAwaits d n).me = { s.me with
        busy := s.me.busy ++ [(d.toNat, Cause.depend)], acq := some .depend, meet := s.me.meet.map fun m => { m with peers := m.peers ++ [(d.toNat, n.toNat)] }
        pc := pcMoved s.me.pc 1 } := by
      rw [State.peerAwaits, State.adv_me, State.upd_me, ← pc_next]
    refine ⟨_, State.exec_peer_unwritten hr hp hn hv, State.completes_issued false rfl rfl ?_ ?_, fun m => ?_, State.sameBytes_of_bytes ?_, ?_, ?_⟩
    · show (s.peerAwaits d n).me.pc = _
      rw [hme]
    · show (s.peerAwaits d n).me.act = _
      rw [hme]
    · show ((s.peerAwaits d n).issued false).me.rx m = _
      rw [State.issued_me, hme]
      rfl
    · exact (State.bytes_issued ..).trans (by simp [State.peerAwaits])
    · show ((s.peerAwaits d n).issued false).me.busy = _
      rw [State.issued_me, hme]
    · show ((s.peerAwaits d n).issued false).me.acq = _
      rw [State.issued_me, hme]

/-- PEERV at issue. -/
theorem State.exec_peerv_enters {s : State} {d n : BitVec 4} {p : Nat} {q : Meeting} {v : VReg} (hp : s.partnerOf s.cur = some (p, q)) (hm : q.vmask.getLsbD n.toNat = true)
    (hr : s.vectorReady (.peerv d n) (peervShape d) 0 0 []) (hacq : s.me.acq = none) (hv : q.vs.find? (fun x => x.1 == n.toNat) = some (n.toNat, v)) :
    exec (.peerv d n) s = .next ((((s.popAll s.cur []).enqueueV { s.seqEntry (.peerv d n) (peervShape d) 0 0 with va := some v } (peervShape d)).adv).issued false) := by
  show execPeerv d n s = _
  rw [execPeerv]
  dsimp only
  rw [hp]
  dsimp only
  rw [hm, State.vecStop_ready hr, hacq, hv]
  rfl

/-- Settles O38: what PEER and PEERV give, and when they are refused. -/
theorem peersReadThePartner : Obligations.PeersReadThePartner := by
  refine fun s => ⟨fun d n now hh hr => State.peer_reads ⟨hr, hh⟩, fun d n => ⟨fun hp => ?_, fun p q hp => ⟨fun hm => ?_, fun v hm hr hacq hv => ?_⟩,
    fun ci e l v hseq hslot hi hva hf hbound hat hready => ?_⟩⟩
  · show execPeerv d n s = _
    rw [execPeerv]
    dsimp only
    rw [hp, finish_trap]
  · show execPeerv d n s = _
    rw [execPeerv]
    dsimp only
    rw [hp]
    dsimp only
    rw [hm]
    rfl
  · have hent := State.enters_enqueueV (s := s) (e := { s.seqEntry (.peerv d n) (peervShape d) 0 0 with va := some v }) [] (peervShape d)
      ⟨rfl, rfl, rfl, rfl, rfl, rfl, rfl, rfl, rfl⟩
    refine ⟨_, State.exec_peerv_enters hp hm hr hacq hv, hent.1, fun e he => ?_⟩
    rw [hent.2, List.getLast?_concat] at he
    cases he
    rfl
  · have hbind : s.headBinds e (peervShape d) 0 0 [] := ⟨by rw [hi]; rfl, hf, hbound, hready, rfl, by simp [State.vecDstFull, vdstChan]⟩
    have hmem : isVMem e.i = false := by rw [hi]; rfl
    have hlanes : usesLanes e.i = false := by rw [hi]; rfl
    obtain ⟨h1, h2, -, -, h5⟩ := State.dropHead_vecPerform s ci (peervShape d) (e.va.getD 0) 0 [] hseq
    rw [hva, hi] at h5
    obtain ⟨hrv, -, -, hx⟩ := h5
    refine ⟨_, State.exec_sequencerBind hseq hf hlanes hat (State.bindHead_ready hbind hmem ci), ?_, State.sameBytes_of_bytes (by simpa using h2), ?_, fun m => ?_⟩
    · rw [State.modCore_core, if_pos rfl]
      exact h1
    · rw [hva]
      exact hx
    · rw [hva]
      exact hrv m

end Sys2Proof.Machine
end


section
/-!
PROOFS. Leaving a meeting, launches and streams, vector memory forms, and integer lanes (R137, R144, R157 to R160, R221, R225 to R227, R230, R242).
-/

namespace Sys2Proof.Machine

/-! PART (R221). -/

/-- A step of a slot's account: its counts and its run, and the records of closed runs. -/
def State.accounts (sid : Nat) (s t : State) : Prop :=
  (∃ l q, t = { s with ctxs := l, acctq := q }) ∧ (∀ j, j ≠ sid → t.ctx j = s.ctx j) ∧ ∃ a r, t.ctx sid = { s.ctx sid with acct := a, run := r }

theorem State.accounts_refl (sid : Nat) (s : State) : s.accounts sid s := ⟨⟨_, _, rfl⟩, fun _ _ => rfl, _, _, rfl⟩

theorem State.accounts_trans {sid : Nat} {s t u : State} (h : s.accounts sid t) (g : t.accounts sid u) : s.accounts sid u := by
  obtain ⟨⟨l, q, h1⟩, h2, a, r, h3⟩ := h
  obtain ⟨⟨l', q', g1⟩, g2, a', r', g3⟩ := g
  refine ⟨⟨l', q', ?_⟩, fun j hj => (g2 j hj).trans (h2 j hj), a', r', ?_⟩
  · rw [g1, h1]
  · rw [g3, h3]

theorem State.accounts_modCtx (s : State) (sid : Nat) (f : Ctx → Ctx) (h : ∃ a r, f (s.ctx sid) = { s.ctx sid with acct := a, run := r }) : s.accounts sid (s.modCtx sid f) := by
  obtain ⟨a, r, hf⟩ := h
  exact ⟨⟨_, _, rfl⟩, fun j hj => State.modCtx_other s sid j f hj, a, r, (State.modCtx_self ..).trans hf⟩

theorem State.accounts_closeRun (s : State) (sid : Nat) : s.accounts sid (s.closeRun sid) := by
  rcases State.closeRunAt_cases s sid s.now with ⟨-, h⟩ | ⟨-, -, h⟩ | ⟨-, -, r, h⟩
  · rw [State.closeRun, h]
    exact State.accounts_refl ..
  · rw [State.closeRun, h]
    exact State.accounts_modCtx _ _ _ ⟨_, _, rfl⟩
  · rw [State.closeRun, h]
    exact State.accounts_trans (State.accounts_modCtx s sid (fun c => { c with run := none }) ⟨_, _, rfl⟩) ⟨⟨_, _, rfl⟩, fun _ _ => rfl, _, _, rfl⟩

theorem State.accounts_ite {sid : Nat} {s t u : State} {p : Prop} [Decidable p] (h : s.accounts sid t) (g : s.accounts sid u) : s.accounts sid (if p then t else u) := by
  split
  · exact h
  · exact g

theorem State.accounts_runs (s : State) (sid : Nat) (r : Option (Cause × BitVec 56 × Nat × Nat)) : s.accounts sid (s.modCtx sid fun c => { c with run := r }) :=
  State.accounts_modCtx s sid (fun c => { c with run := r }) ⟨_, _, rfl⟩

theorem State.accounts_runCycle (s : State) (sid : Nat) (k : Cause) (pc : BitVec 56) : s.accounts sid (s.runCycle sid k pc) := by
  unfold State.runCycle
  refine State.accounts_ite (State.accounts_refl ..) ?_
  cases (s.ctx sid).run with
  | none => exact State.accounts_runs ..
  | some r => exact State.accounts_ite (State.accounts_runs ..) (State.accounts_trans (State.accounts_closeRun s sid) (State.accounts_runs ..))

theorem State.accounts_lastCycle (s : State) (sid : Nat) : s.accounts sid (s.lastCycle sid) :=
  State.accounts_trans (State.accounts_trans (State.accounts_modCtx s sid (fun c => c.charged .issue 1) ⟨_, _, rfl⟩) (State.accounts_runCycle ..)) (State.accounts_closeRun ..)

section
variable {sid : Nat} {s t : State} (h : s.accounts sid t)
include h

theorem State.accounts.eq : ∃ l q, t = { s with ctxs := l, acctq := q } := h.1
theorem State.accounts.other {j : Nat} (hj : j ≠ sid) : t.ctx j = s.ctx j := h.2.1 j hj
theorem State.accounts.ctx : ∃ a r, t.ctx sid = { s.ctx sid with acct := a, run := r } := h.2.2

end

theorem Ctx.peersGet_gone (c : Ctx) (now : Nat) (xs : Vector Word 32) {q : Meeting} (h : (c.peersGet now xs).meet = some q) : q.gone = true := by
  unfold Ctx.peersGet at h
  split at h
  · next hm => rw [hm] at h; cases h
  · obtain ⟨q', -, rfl⟩ := Option.map_eq_some_iff.mp h
    rfl

/-- A party's meeting while its PART takes effect. -/
theorem State.partTakes_frame {s : State} {m : Meeting} (hm : s.me.meet = some m) (hp : m.partner ≠ s.cur) :
    (s.partTakes s.cur m).cur = s.cur ∧ (s.partTakes s.cur m).now = s.now ∧ (s.partTakes s.cur m).net = s.net ∧ (s.partTakes s.cur m).bytes = s.bytes ∧
      (s.partTakes s.cur m).ctx s.cur = { s.me with meet := some { m with parting := true } } ∧
      (s.partTakes s.cur m).atMeeting m.partner m.taint = s.atMeeting m.partner m.taint := by
  have hown : (s.modCtx s.cur fun c => { c with meet := c.meet.map fun q => { q with parting := true } }).ctx s.cur = { s.me with meet := some { m with parting := true } } := by
    have hm' : (s.ctx s.cur).meet = some m := hm
    rw [State.modCtx_self, hm']
    rfl
  have hother : (s.modCtx s.cur fun c => { c with meet := c.meet.map fun q => { q with parting := true } }).ctx m.partner = s.ctx m.partner := State.modCtx_other _ _ _ _ hp
  unfold State.partTakes
  dsimp only
  split
  · next hat =>
    refine ⟨rfl, rfl, rfl, by simp, ?_, ?_⟩
    · rw [State.modCtx_other _ _ _ _ hp.symm, hown]
    · rw [State.atMeeting, State.modCtx_self, hother, State.atMeeting]
      cases (s.ctx m.partner).meet <;> rfl
  · refine ⟨rfl, rfl, rfl, by simp, hown, ?_⟩
    rw [State.atMeeting, hother, State.atMeeting]

/-- The partner of a parting party sees it gone. -/
theorem State.peersGet_gone (s : State) (p now : Nat) (xs : Vector Word 32) {q : Meeting} (h : ((s.modCtx p fun c => c.peersGet now xs).ctx p).meet = some q) : q.gone = true := by
  rw [State.modCtx_self] at h
  exact Ctx.peersGet_gone _ _ _ h

/-- The state in which a party parts, with its partner told. -/
def State.toldPartner (s : State) (m : Meeting) : State :=
  if (s.partTakes s.cur m).atMeeting m.partner m.taint then
    (s.partTakes s.cur m).modCtx m.partner fun p => p.peersGet s.now ((s.partTakes s.cur m).ctx s.cur).x
  else s.partTakes s.cur m

theorem State.toldPartner_frame {s : State} {m : Meeting} (hm : s.me.meet = some m) (hp : m.partner ≠ s.cur) :
    (s.toldPartner m).cur = s.cur ∧ (s.toldPartner m).now = s.now ∧ (s.toldPartner m).net = s.net ∧ (s.toldPartner m).bytes = s.bytes ∧
      (s.toldPartner m).ctx s.cur = { s.me with meet := some { m with parting := true } } ∧
      (s.atMeeting m.partner m.taint = true → ∀ q, ((s.toldPartner m).ctx m.partner).meet = some q → q.gone = true) := by
  obtain ⟨hcur, hnow, hnet, hb, hctx, hat⟩ := State.partTakes_frame hm hp
  rw [State.toldPartner, hat]
  cases s.atMeeting m.partner m.taint with
  | true =>
    have hown := State.modCtx_other (s.partTakes s.cur m) m.partner s.cur (fun p => p.peersGet s.now ((s.partTakes s.cur m).ctx s.cur).x) hp.symm
    have hbm := State.bytes_modCtx (s.partTakes s.cur m) m.partner (fun p => p.peersGet s.now ((s.partTakes s.cur m).ctx s.cur).x)
    exact ⟨hcur, hnow, hnet, hbm.trans hb, hown.trans hctx, fun _ q hq => State.peersGet_gone _ _ _ _ hq⟩
  | false => exact ⟨hcur, hnow, hnet, hb, hctx, fun h => by cases h⟩

/-- PART once nothing of the party is open. -/
theorem State.exec_part {s : State} {m : Meeting} (hm : s.me.meet = some m) (hi : s.me.inmeet = true) (hp : m.partner ≠ s.cur) (hu : s.unretired s.cur = false)
    (hport : s.portPending s.cur = false) (ht : (s.partTakes s.cur m).partnerTouches s.cur m = false) :
    exec .part s = .next ((if m.inPlace then (s.toldPartner m).partInPlace s.cur { m with parting := true } s.me.next none 1
      else (s.toldPartner m).partVisitor s.cur { m with parting := true } s.me.next none 1).issued false) := by
  obtain ⟨hcur, hnow, hnet, hb, hctx, hat⟩ := State.partTakes_frame hm hp
  have heff : (s.partTakes s.cur m).partEffect s.cur s.me.next none 1 = if m.inPlace then (s.toldPartner m).partInPlace s.cur { m with parting := true } s.me.next none 1
      else (s.toldPartner m).partVisitor s.cur { m with parting := true } s.me.next none 1 := by
    have hmeet : ((s.partTakes s.cur m).ctx s.cur).meet = some { m with parting := true } := by rw [hctx]
    rw [State.partEffect, hmeet, State.toldPartner, hnow]
  show execPart s = _
  rw [execPart, hm]
  dsimp only
  rw [hi, hu, hport, ht, heff]
  rfl

/-- A party in place that goes on at home. -/
theorem State.partInPlace_frame (v : State) (sid : Nat) (m : Meeting) (npc : BitVec 56) :
    (v.partInPlace sid m npc none 1).cur = v.cur ∧ (v.partInPlace sid m npc none 1).now = v.now ∧ (v.partInPlace sid m npc none 1).bytes = v.bytes ∧
      (v.partInPlace sid m npc none 1).ctx sid = { v.ctx sid with inmeet := false, meet := none, pc := npc } ∧
      ∀ j, j ≠ sid → (v.partInPlace sid m npc none 1).ctx j = v.ctx j := by
  have hown := State.modCtx_self v sid fun c => { c with inmeet := false, meet := none, pc := npc }
  have hother := fun j hj => State.modCtx_other v sid j (fun c => { c with inmeet := false, meet := none, pc := npc }) hj
  have hb : (v.modCtx sid fun c => { c with inmeet := false, meet := none, pc := npc }).bytes = v.bytes := State.bytes_modCtx ..
  unfold State.partInPlace
  dsimp only
  split
  · exact ⟨rfl, rfl, hb, hown, hother⟩
  · exact ⟨rfl, rfl, hb, hown, hother⟩

/-- A visitor whose state starts its way home. -/
theorem State.partVisitor_frame (v : State) (sid : Nat) (m : Meeting) (npc : BitVec 56) :
    (v.partVisitor sid m npc none 1).cur = v.cur ∧ (v.partVisitor sid m npc none 1).bytes = v.bytes ∧ ((v.partVisitor sid m npc none 1).ctx sid).act = .away ∧
      (∀ j, j ≠ sid → (v.partVisitor sid m npc none 1).ctx j = v.ctx j) ∧
      ∃ x c, (v.partVisitor sid m npc none 1).net = v.net ++ [x] ∧ c.x = (v.ctx sid).x ∧ c.pc = npc ∧ c.fflags = (v.ctx sid).fflags ∧
        x.body = .luggage (v.ctx sid).home c (v.spadRead (slotCluster sid) m.parcel (64 * (m.plen + 1))) sid := by
  have hacc := State.accounts_lastCycle v sid
  unfold State.partVisitor
  dsimp only
  rw [if_neg (by decide)]
  generalize v.lastCycle sid = w at hacc
  obtain ⟨a, r, hctx⟩ := hacc.ctx
  have hother : ∀ j, j ≠ sid → w.ctx j = v.ctx j := fun j hj => hacc.other hj
  obtain ⟨l, q, hw⟩ := hacc.eq
  have hcur : w.cur = v.cur := by rw [hw]
  have hnet : w.net = v.net := by rw [hw]
  have hb : w.bytes = v.bytes := by rw [hw]; rfl
  have hspad : ∀ cl, w.clu cl = v.clu cl := fun cl => by rw [hw]; rfl
  refine ⟨hcur, ?_, ?_, fun j hj => ?_, {
      id := w.nextId, at_ := w.now + 1 + travelTime (slotCluster sid) (slotCluster (w.ctx sid).home) (512 + 64 * (m.plen + 1))
      body := .luggage (w.ctx sid).home { w.ctx sid with pc := npc, lastIssue := w.now + 1, meet := some { m with trap := none } }
        (w.spadRead (slotCluster sid) m.parcel (64 * (m.plen + 1))) sid },
    { w.ctx sid with pc := npc, lastIssue := w.now + 1, meet := some { m with trap := none } }, ?_, ?_, rfl, ?_, ?_⟩
  · exact (State.bytes_modCtx w sid fun c => { c with act := .away, inmeet := false }).trans hb
  · show ((w.modCtx sid fun c => { c with act := .away, inmeet := false }).ctx sid).act = _
    rw [State.modCtx_self]
  · exact (State.modCtx_other w sid j (fun c => { c with act := .away, inmeet := false }) hj).trans (hother j hj)
  · exact congrArg (· ++ _) hnet
  · rw [hctx]
  · rw [hctx]
  · rw [State.spadRead, State.spadRead, hspad, hctx]

/-- Settles O39: PART is refused at no meeting; in place the party goes on at home, else its state travels; the partner sees it gone. -/
theorem partEndsTheMeeting : Obligations.PartEndsTheMeeting := by
  refine fun s => ⟨fun hi => ?_, fun m hm hi hp hu hport ht => ⟨fun hplace => ?_, fun hplace => ?_⟩⟩
  · show execPart s = _
    rw [execPart]
    cases s.me.meet with
    | none => rfl
    | some m =>
      dsimp only
      rw [hi]
      rfl
  · obtain ⟨hcur, hnow, -, hb, hctx, hgone⟩ := State.toldPartner_frame hm hp
    obtain ⟨hucur, hunow, hub, hume, hupart⟩ := State.partInPlace_frame (s.toldPartner m) s.cur { m with parting := true } s.me.next
    have hexec := State.exec_part hm hi hp hu hport ht
    rw [if_pos hplace] at hexec
    generalize (s.toldPartner m).partInPlace s.cur { m with parting := true } s.me.next none 1 = u at hucur hunow hub hume hupart hexec
    have hme : u.me = { s.me with inmeet := false, meet := none, pc := pcMoved s.me.pc 1 } := by
      rw [State.me, hucur, hcur, hume, hctx, Ctx.next_eq_pcMoved]
    refine ⟨_, hexec, State.completes_issued false (hucur.trans hcur) (hunow.trans hnow) (by rw [hme]) (by rw [hme]), ?_, ?_, fun n => ?_,
      State.sameBytes_of_bytes ((State.bytes_issued u false).trans (hub.trans hb)), fun hat q hq => ?_⟩
    · rw [State.issued_me, hme]
    · rw [State.issued_me, hme]
    · rw [State.issued_me, hme]
      rfl
    · have hiss := State.issued_other u false m.partner (by rw [hucur, hcur]; exact hp)
      rw [hiss, hupart _ hp] at hq
      exact hgone hat q hq
  · obtain ⟨hcur, -, hnet, hb, hctx, hgone⟩ := State.toldPartner_frame hm hp
    obtain ⟨hucur, hub, huact, hupart, x, c, hunet, hcx, hcpc, hcf, hxb⟩ := State.partVisitor_frame (s.toldPartner m) s.cur { m with parting := true } s.me.next
    have hexec := State.exec_part hm hi hp hu hport ht
    rw [if_neg (Bool.eq_false_iff.mp hplace)] at hexec
    generalize (s.toldPartner m).partVisitor s.cur { m with parting := true } s.me.next none 1 = u at hucur hub huact hupart hunet hexec
    refine ⟨_, hexec, ?_, State.sameBytes_of_bytes ((State.bytes_issued u false).trans (hub.trans hb)), fun hat q hq => ?_, x, c, ?_, ?_, ?_, ?_, ?_⟩
    · rw [State.issued_me, State.me, hucur, hcur]
      exact huact
    · have hiss := State.issued_other u false m.partner (by rw [hucur, hcur]; exact hp)
      rw [hiss, hupart _ hp] at hq
      exact hgone hat q hq
    · rw [State.issued_net, hunet, hnet]
    · rw [hcx, hctx]
    · rw [hcpc, Ctx.next_eq_pcMoved]
    · rw [hcf, hctx]
    · rw [hxb, hctx, (State.sameBytes_of_bytes hb _ _).2]

/-! Forms with a block that earlier work of their context still keeps: they wait before their operands are judged (R185). -/

/-- Slot 0 with an atomic that is held at the address in r6; r5 names no template. -/
def atomicState : State := {
  ctxs := [(0, { act := .running, pc := 0x1000, serial := 1, x := ((Vector.replicate 32 0).set 5 0x1000000000000).set 6 0x10000 })]
  reqs := [{
    id := 1, sid := 0, kind := .amo .add 3, stage := .held, va := 0x10000, size := 8, pa := 0x20000, data := 0, be := 0, expect := 0, pc := 0xFFC, made := 0, pid := 0
    part := 0, mode := false, serial := 0, handler := false, stranded := false, taints := [], src := 0, lid := 0 }]
  nextId := 2 }

theorem atomicState_launch : ∃ t, exec (.launch 4 5 6) atomicState = .next t ∧ t.me.mode = false := by
  refine ⟨_, rfl, ?_⟩
  decide +kernel

/-- Refutes O40: a LAUNCH of no template waits while an atomic of its context on its argument block is open, and the statement has it trap at once. -/
theorem not_tasksLaunchEndAndYield : ¬ Obligations.TasksLaunchEndAndYield := by
  unfold Obligations.TasksLaunchEndAndYield
  intro h
  obtain ⟨hlaunch, -, -⟩ := h
  obtain ⟨-, hhome, -⟩ := hlaunch 4 5 6 atomicState
  obtain ⟨hbad, -⟩ := hhome (by decide +kernel) (by decide +kernel)
  obtain ⟨t, ht, hmode⟩ := atomicState_launch
  rw [hbad (.inl (by decide +kernel))] at ht
  obtain rfl := Host.Outcome.next.inj ht
  exact absurd hmode (by decide +kernel)

/-- Slot 0 replays a frame whose counts came from a channel, and has an MSAVE in its port: r6 names bytes that the MSAVE is to write, r5 no device source. -/
def savingState : State := {
  ctxs := [(0, {
    act := .running, pc := 0x1000, x := ((Vector.replicate 32 0).set 5 0x1000000000000).set 6 0xF0000000000100
    replay := some { words := [], n := 1, stag := 0, iter := 0, idx := 0, fromChannel := true, guarded := [] } })]
  cores := [(0, { port := [{
    sid := 0, i := .msave 6, pc := 0xFFC, sa := 0, sb := 0, fmt := {}, tabs := [], base := 0x100, ctl := 0, serial := 0, pass := 0, kdone := 0, cols := 0
    started := false, done := false, at_ := 0 }] })] }

theorem savingState_emit : ∃ t, exec (.emit 5 6) savingState = .next t ∧ t.me.charge = .matrixWait := by
  refine ⟨_, rfl, ?_⟩
  decide +kernel

/-- Refutes O41: an EMIT to no device source, whose record an MSAVE is still to write, waits for the port; the statement has its trap wait for the replay of the
frame. -/
theorem not_streamFormsHoldTheirOutput : ¬ Obligations.StreamFormsHoldTheirOutput := by
  unfold Obligations.StreamFormsHoldTheirOutput
  intro h
  obtain ⟨hhome, -⟩ := h savingState
  obtain ⟨-, hemit, -⟩ := hhome (by decide +kernel)
  obtain ⟨-, hbad⟩ := hemit 5 6 (by decide +kernel)
  obtain ⟨htrap, -⟩ := hbad (by decide +kernel)
  obtain ⟨t, ht, hwait⟩ := savingState_emit
  rw [htrap] at ht
  obtain rfl := Host.Outcome.next.inj ht
  exact absurd hwait (by decide +kernel)

/-! Vector memory forms (R157 to R160, R242). -/

/-- What requests of an entry leave, one for each of a list: they come last, in the order of the list, and nothing else changes. -/
theorem State.foldl_vecRequest {α : Type} (e : SeqEntry) (kind : ReqKind) (stage : ReqStage) (line data be bits : α → Nat) (l : List α) (s : State) :
    ∃ rs n, l.foldl (fun s x => s.vecRequest e kind stage (line x) (data x) (be x) (bits x)) s = { s with reqs := s.reqs ++ rs, nextId := n } ∧
      rs.map (fun r => (r.kind, r.stage, r.va, r.data, r.expect)) = l.map fun x => (kind, stage, 64 * line x, data x, bits x) := by
  induction l generalizing s with
  | nil => exact ⟨[], s.nextId, by rw [List.append_nil]; rfl, rfl⟩
  | cons x l ih =>
    obtain ⟨rs, n, hrs, hmap⟩ := ih (s.vecRequest e kind stage (line x) (data x) (be x) (bits x))
    obtain ⟨r, hr, hrx⟩ : ∃ r, (s.vecRequest e kind stage (line x) (data x) (be x) (bits x)) = { s with reqs := s.reqs ++ [r], nextId := s.nextId + 1 } ∧
        (r.kind, r.stage, r.va, r.data, r.expect) = (kind, stage, 64 * line x, data x, bits x) := ⟨_, rfl, rfl⟩
    refine ⟨r :: rs, n, ?_, ?_⟩
    · rw [List.foldl_cons, hrs, hr]
      simp only [List.append_assoc, List.singleton_append]
    · rw [List.map_cons, List.map_cons, hrx, hmap]

theorem State.askLines_frame (s : State) (e : SeqEntry) (store : Bool) (ps : List (VPiece × VPlace)) : ∃ rs n, s.askLines e store ps = { s with reqs := s.reqs ++ rs, nextId := n } ∧
    rs.map (fun r => (r.kind, r.stage, r.va)) = (globalLines ps).map fun n => (.vload store, .translating, 64 * n) := by
  obtain ⟨rs, n, h, hmap⟩ := State.foldl_vecRequest e (.vload store) .translating id (fun _ => 0) (fun _ => 0) (fun _ => 0) (globalLines ps) s
  refine ⟨rs, n, h, ?_⟩
  have hproj := congrArg (List.map fun x : ReqKind × ReqStage × Nat × Nat × Nat => (x.1, x.2.1, x.2.2.1)) hmap
  simpa only [List.map_map, Function.comp_def, id] using hproj

theorem State.holdLines_frame (s : State) (e : SeqEntry) (ls : List VLine) : ∃ rs n, ls.foldl (fun s l => s.holdLine e l) s = { s with reqs := s.reqs ++ rs, nextId := n } ∧
    rs.map (fun r => (r.stage, r.va, r.data, r.expect)) = ls.map fun x => (.held, 64 * x.1, x.2.1, x.2.2) := by
  obtain ⟨rs, n, h, hmap⟩ := State.foldl_vecRequest e .vstore .held (fun l : VLine => l.1) (fun l => l.2.1) (fun l => maskBytes l.2.2) (fun l => l.2.2) ls s
  refine ⟨rs, n, h, ?_⟩
  have hproj := congrArg (List.map fun x : ReqKind × ReqStage × Nat × Nat × Nat => (x.2.1, x.2.2.1, x.2.2.2.1, x.2.2.2.2)) hmap
  simpa only [List.map_map, Function.comp_def] using hproj

/-! Issue. -/

theorem exec_of_vMem {i : Instr} (h : isVMem i = true) (s : State) : exec i s = finish s (s.vmemIssue i) := by
  cases i <;> cases h
  all_goals rfl

/-- What the issue of a memory form does by its plan: none of its own, or the places and the first lane that fails. -/
theorem State.vmemIssue_ready {s : State} {i : Instr} {h : VShape} {xa xb : Word} {tx : List Target} (hr : s.vectorReady i h xa xb tx) (hb : h.b ≠ none) :
    s.vmemIssue i = .ok (((s.popAll s.cur tx).enqueueV (s.seqEntry i h xa xb) h).adv) := by
  have hstop := State.vecStop_ready hr
  obtain ⟨hs, -, -, -, -, -, -, hx⟩ := hr
  rw [State.vmemIssue, hs]
  dsimp only
  rw [hstop, hx]
  dsimp only
  rw [if_pos (Option.isSome_iff_ne_none.mpr hb)]

section
variable {s : State} {i : Instr} {h : VShape} {xa xb : Word} {tx : List Target} {st : Bool} {ty : TypeCode} {m : Mask} {v : VMem} {ps : List (VPiece × VPlace)}
variable (hr : s.vectorReady i h xa xb tx) (hb : h.b = none) (hv : vmemOf i s.me xa xb 0 = some (st, ty, m, v))
include hr hb hv

theorem State.vmemIssue_planned (hp : s.vPlan s.cur ty m v = (ps, none)) (hw : s.vecPortWaitsOf s.cur s.me.serial ps = false) :
    s.vmemIssue i = .ok ((((s.popAll s.cur tx).enqueueV { s.seqEntry i h xa xb with plan := some ps, bad := none } h).askLines (s.seqEntry i h xa xb) st ps).adv) := by
  have hstop := State.vecStop_ready hr
  obtain ⟨hs, -, -, -, -, -, -, hx⟩ := hr
  rw [State.vmemIssue, hs]
  dsimp only
  rw [hstop, hx]
  dsimp only
  rw [hb, if_neg (by decide), hv]
  dsimp only
  rw [hp]
  dsimp only
  rw [ite_self, hw]
  rfl

theorem State.vmemIssue_bad {k : Trap} {x : Word} (hp : s.vPlan s.cur ty m v = (ps, some (k, x))) (hw : badWaits i ps = false) : s.vmemIssue i = .trap k x := by
  have hstop := State.vecStop_ready hr
  obtain ⟨hs, -, -, -, -, -, -, hx⟩ := hr
  rw [State.vmemIssue, hs]
  dsimp only
  rw [hstop, hx]
  dsimp only
  rw [hb, if_neg (by decide), hv]
  dsimp only
  rw [hp]
  dsimp only
  rw [hw]
  rfl

end

/-- A memory form that its checks let through enters its core's sequencer, with its places, and asks for its global lines. -/
theorem State.vmem_enters {s : State} {i : Instr} {h : VShape} {xa xb : Word} {tx : List Target} (hm : isVMem i = true) (hr : s.vectorReady i h xa xb tx) :
    (∀ st ty m v ps, h.b = none → vmemOf i s.me xa xb 0 = some (st, ty, m, v) → s.vPlan s.cur ty m v = (ps, none) → s.vecPortWaitsOf s.cur s.me.serial ps = false →
      ∃ t, exec i s = .next t ∧ s.entersSequencer t i xa xb ∧ ((t.core s.here).seq.getLast?.bind fun e => e.plan) = some ps ∧
        t.reqs.map (fun r => (r.kind, r.stage, r.va)) = s.reqs.map (fun r => (r.kind, r.stage, r.va)) ++
          (globalLines ps).map fun n => (.vload st, .translating, 64 * n)) ∧
    (h.b ≠ none → ∃ t, exec i s = .next t ∧ s.entersSequencer t i xa xb ∧ ((t.core s.here).seq.getLast?.bind fun e => e.plan) = none) := by
  refine ⟨fun st ty m v ps hb hv hp hw => ?_, fun hb => ?_⟩
  · have hexec : exec i s = finish s (.ok _) := (exec_of_vMem hm s).trans (congrArg (finish s) (State.vmemIssue_planned hr hb hv hp hw))
    obtain ⟨hcur, hnow, hbytes, hreqs, hme, hseq⟩ := State.enqueueV_popAll s tx { s.seqEntry i h xa xb with plan := some ps, bad := none } h
    obtain ⟨rs, n, hask, hmap⟩ := State.askLines_frame ((s.popAll s.cur tx).enqueueV { s.seqEntry i h xa xb with plan := some ps, bad := none } h) (s.seqEntry i h xa xb) st ps
    rw [hask] at hexec
    generalize (s.popAll s.cur tx).enqueueV { s.seqEntry i h xa xb with plan := some ps, bad := none } h = y at hcur hnow hbytes hreqs hme hseq hexec
    refine ⟨_, hexec, State.entersSequencer_issued hcur hnow hbytes hme ⟨rfl, rfl, rfl, rfl, rfl, rfl, rfl, rfl, rfl⟩ hseq, ?_, ?_⟩
    · rw [State.issued_seq]
      show ((y.adv.core s.here).seq.getLast?.bind fun e => e.plan) = _
      rw [hseq, List.getLast?_concat]
      rfl
    · rw [State.issued_reqs]
      show (y.reqs ++ rs).map _ = _
      rw [List.map_append, hmap, show y.reqs = s.reqs from hreqs]
  · have hent := State.enters_enqueueV (e := s.seqEntry i h xa xb) tx h (State.seqEntry_takes s i h xa xb)
    refine ⟨_, (exec_of_vMem hm s).trans (congrArg (finish s) (State.vmemIssue_ready hr hb)), hent.1, ?_⟩
    rw [hent.2, List.getLast?_concat]
    rfl

/-! The head binds. -/

theorem State.modHead_seq {s : State} {ci : Nat} {e : SeqEntry} {l : List SeqEntry} (hseq : (s.core ci).seq = e :: l) (f : SeqEntry → SeqEntry) :
    ((s.modHead ci f).core ci).seq = f e :: l := by
  rw [State.modHead, State.modCore_core, if_pos rfl, hseq]

theorem State.usesLanes_of_isVMem {i : Instr} (h : isVMem i = true) : usesLanes i = false := by
  cases i <;> cases h
  all_goals rfl

/-- A gather or scatter at the head whose lanes pass their checks: its places are kept, and its global lines asked for. -/
theorem State.checkGather_planned {s : State} {ci : Nat} {e : SeqEntry} {l : List SeqEntry} {b : VReg} {st : Bool} {ty : TypeCode} {m : Mask} {v : VMem}
    {ps : List (VPiece × VPlace)} (hseq : (s.core ci).seq = e :: l) (hv : vmemOf e.i (s.ctx e.sid) e.xa e.xb b = some (st, ty, m, v))
    (hp : (s.asIssued e).vPlan e.sid ty m v = (ps, none)) :
    ((s.checkGather ci e b).core ci).seq = { e with plan := some ps, vb := some b, bad := none } :: l ∧ (s.checkGather ci e b).bytes = s.bytes ∧
      (s.checkGather ci e b).reqs.map (fun r => (r.kind, r.stage, r.va)) = s.reqs.map (fun r => (r.kind, r.stage, r.va)) ++
        (globalLines ps).map fun n => (.vload st, .translating, 64 * n) := by
  have hcheck : s.checkGather ci e b = (s.modHead ci fun e => { e with plan := some ps, vb := some b, bad := none }).askLines e st ps := by
    rw [State.checkGather, hv]
    dsimp only
    rw [hp]
    dsimp only
    rw [ite_self]
  have hhead := State.modHead_seq hseq fun e => { e with plan := some ps, vb := some b, bad := none }
  have hb : (s.modHead ci fun e => { e with plan := some ps, vb := some b, bad := none }).bytes = s.bytes := State.bytes_modHead ..
  have hreqs : (s.modHead ci fun e => { e with plan := some ps, vb := some b, bad := none }).reqs = s.reqs := rfl
  obtain ⟨rs, n, hask, hmap⟩ := State.askLines_frame (s.modHead ci fun e => { e with plan := some ps, vb := some b, bad := none }) e st ps
  rw [hcheck, hask]
  generalize (s.modHead ci fun e => { e with plan := some ps, vb := some b, bad := none }) = y at hhead hb hreqs
  refine ⟨hhead, hb, ?_⟩
  show (y.reqs ++ rs).map _ = _
  rw [List.map_append, hmap, hreqs]

/-- The sequencer of a core that a whole form leaves, and what it takes with it. -/
theorem State.leaveSeq_frame (s : State) (ci at_ : Nat) (e : SeqEntry) (store : Bool) :
    ((s.leaveSeq ci at_ e store).core ci).seq = (s.core ci).seq.drop 1 ∧ (s.leaveSeq ci at_ e store).reqs = s.reqs ∧
      (store = false → globalLines (e.plan.getD []) = [] → (s.ctx e.sid).shows ((s.leaveSeq ci at_ e store).ctx e.sid)
        (.vec (vloadDst e.i) (vMerge ((s.ctx e.sid).old (vloadDst e.i)) (e.plan.getD []) e.img, 0))) := by
  have hdrop : ((s.dropHead ci).core ci).seq = (s.core ci).seq.drop 1 := by
    rw [State.dropHead, State.modCore_core, if_pos rfl]
  unfold State.leaveSeq
  dsimp only
  cases store with
  | true => exact ⟨hdrop, rfl, fun h => by cases h⟩
  | false =>
    rw [if_neg (by decide)]
    cases hg : globalLines (e.plan.getD []) with
    | nil =>
      obtain ⟨hshow, hstep⟩ := State.applyV_shows (s.dropHead ci) e.sid e.serial at_ false
        (.vec (vloadDst e.i) (vMerge ((s.ctx e.sid).old (vloadDst e.i)) (e.plan.getD []) e.img, 0))
      exact ⟨(hstep.seq ci).trans hdrop, hstep.reqs, fun _ _ => hshow⟩
    | cons x xs =>
      refine ⟨?_, rfl, fun _ h => by cases h⟩
      show (((s.dropHead ci).modCore ci fun k => { k with vout := k.vout ++ [e] }).core ci).seq = _
      rw [State.modCore_core, if_pos rfl]
      exact hdrop

/-- The load's lines sent, of requests (R159). -/
def sendLine (e : SeqEntry) (now : Nat) (r : Req) : Req :=
  if r.isVload && r.sid == e.sid && r.serial == e.serial then { r with stage := .sent, arr := now } else r

theorem sendLine_sent {e : SeqEntry} {now : Nat} {r : Req} (hv : (sendLine e now r).isVload = true) (hsid : (sendLine e now r).sid = e.sid)
    (hser : (sendLine e now r).serial = e.serial) : (sendLine e now r).stage = .sent ∧ (sendLine e now r).arr = now := by
  by_cases h : (r.isVload && r.sid == e.sid && r.serial == e.serial) = true
  · rw [sendLine, if_pos h]
    exact ⟨rfl, rfl⟩
  · rw [sendLine, if_neg h] at hv hsid hser
    exact absurd (by rw [hv, hsid, hser]; simp) h

/-- The head of a sequencer that binds, with its pieces to be served. -/
theorem State.boundHead_frame {s : State} {ci : Nat} {e : SeqEntry} {l : List SeqEntry} (hseq : (s.core ci).seq = e :: l) (tv : List Target) (b : SeqEntry) :
    let s1 := (s.popAllV e.sid tv).modHead ci fun _ => b
    (s1.core ci).seq = b :: l ∧ s1.bytes = s.bytes ∧ s1.reqs = s.reqs := by
  have hpop := State.chans_popAllV s e.sid tv
  refine ⟨State.modHead_seq ((hpop.seq ci).trans hseq) _, ?_, ?_⟩
  · exact (State.bytes_modHead ..).trans hpop.bytes
  · exact hpop.reqs

section
variable {s : State} {ci : Nat} {e : SeqEntry} {l : List SeqEntry} {h : VShape} {ps : List (VPiece × VPlace)} {tv : List Target}
variable (hseq : (s.core ci).seq = e :: l) (hopen : s.linesOpen e = false) (hbad : s.vecBad e = none) (hready : s.memReady e h.ds.isSome ps = true)
variable (hport : s.vecPortWaitsOf e.sid e.serial ps = false) (hdst : s.vecDstFull e.sid e.serial tv h = false)
include hseq hopen hbad hready hport hdst

theorem State.bindMem_load (hds : h.ds = none) : ∃ t, s.bindMem ci e h ps tv = some t ∧ t.bytes = s.bytes ∧
    (bankPieces ps ≠ [] → (t.core ci).seq = { e with bound := true, left := bankPieces ps } :: l) ∧
    (∀ r ∈ t.reqs, r.isVload = true → r.sid = e.sid → r.serial = e.serial → r.stage = .sent ∧ r.arr = s.now) := by
  obtain ⟨hs1, hb1, hr1⟩ := State.boundHead_frame hseq tv { e with bound := true, left := bankPieces ps }
  have hsent : ∀ r ∈ s.reqs.map (sendLine e s.now), r.isVload = true → r.sid = e.sid → r.serial = e.serial → r.stage = .sent ∧ r.arr = s.now := by
    intro r hr hv hsid hser
    obtain ⟨r, -, rfl⟩ := List.mem_map.mp hr
    exact sendLine_sent hv hsid hser
  have hbind : s.bindMem ci e h ps tv = some (if (bankPieces ps).isEmpty then
      ({ ((s.popAllV e.sid tv).modHead ci fun _ => { e with bound := true, left := bankPieces ps }) with reqs := s.reqs.map (sendLine e s.now) } : State).leaveSeq ci s.now
        { e with bound := true, left := bankPieces ps } false
      else { ((s.popAllV e.sid tv).modHead ci fun _ => { e with bound := true, left := bankPieces ps }) with reqs := s.reqs.map (sendLine e s.now) }) := by
    rw [← hr1]
    have hload : s.memReady e false ps = true := by rw [← hready, hds]; rfl
    simp only [State.bindMem, hopen, hbad, hds, hport, hdst, hload, Option.isSome_none, Bool.not_true, Bool.or_false, Bool.false_and, Bool.false_eq_true, if_false]
    rfl
  refine ⟨_, hbind, ?_⟩
  generalize (s.popAllV e.sid tv).modHead ci (fun _ => { e with bound := true, left := bankPieces ps }) = s1 at hs1 hb1
  by_cases hp : bankPieces ps = []
  · obtain ⟨-, hreqs, -⟩ := State.leaveSeq_frame { s1 with reqs := s.reqs.map (sendLine e s.now) } ci s.now { e with bound := true, left := bankPieces ps } false
    rw [if_pos (List.isEmpty_iff.mpr hp)]
    refine ⟨(State.bytes_leaveSeq ..).trans hb1, fun hne => absurd hp hne, fun r hr => ?_⟩
    rw [hreqs] at hr
    exact hsent r hr
  · rw [if_neg fun hc => hp (List.isEmpty_iff.mp hc)]
    exact ⟨hb1, fun _ => hs1, hsent⟩

theorem State.bindMem_store (hds : h.ds.isSome = true) (hroom : s.restFull (slotCluster e.sid) (vLines ((s.ctx e.sid).rv (vstoreReg e.i)) ps).length = false) :
    ∃ t, s.bindMem ci e h ps tv = some t ∧ t.bytes = s.bytes ∧ (t.core ci).seq = (if bankPieces ps = [] then l else { e with bound := true, left := bankPieces ps } :: l) ∧
      t.reqs.map (fun r => (r.stage, r.va, r.data, r.expect)) =
        (s.reqs.filter fun r => !(r.isVload && r.sid == e.sid && r.serial == e.serial)).map (fun r => (r.stage, r.va, r.data, r.expect)) ++
          (vLines ((s.ctx e.sid).rv (vstoreReg e.i)) ps).map fun x => (.held, 64 * x.1, x.2.1, x.2.2) := by
  obtain ⟨hs1, hb1, hr1⟩ := State.boundHead_frame hseq tv { e with bound := true, left := bankPieces ps }
  obtain ⟨rs, n, hhold, hmap⟩ := State.holdLines_frame (((s.popAllV e.sid tv).modHead ci fun _ => { e with bound := true, left := bankPieces ps }).dropLines e) e
    (vLines ((s.ctx e.sid).rv (vstoreReg e.i)) ps)
  have hbind : s.bindMem ci e h ps tv = some (if (bankPieces ps).isEmpty then
      ((vLines ((s.ctx e.sid).rv (vstoreReg e.i)) ps).foldl (fun s l => s.holdLine e l)
        (((s.popAllV e.sid tv).modHead ci fun _ => { e with bound := true, left := bankPieces ps }).dropLines e)).leaveSeq ci s.now { e with bound := true, left := bankPieces ps } true
      else (vLines ((s.ctx e.sid).rv (vstoreReg e.i)) ps).foldl (fun s l => s.holdLine e l)
        (((s.popAllV e.sid tv).modHead ci fun _ => { e with bound := true, left := bankPieces ps }).dropLines e)) := by
    rw [hds] at hready
    simp only [State.bindMem, hopen, hbad, hds, hport, hdst, hready, hroom, Option.isSome_none, Bool.not_true, Bool.or_false, Bool.and_false, Bool.false_eq_true, if_false, if_true]
  refine ⟨_, hbind, ?_⟩
  rw [hhold]
  generalize (s.popAllV e.sid tv).modHead ci (fun _ => { e with bound := true, left := bankPieces ps }) = s1 at hs1 hb1 hr1
  have hreqs : ((s1.dropLines e).reqs ++ rs).map (fun r => (r.stage, r.va, r.data, r.expect)) =
      (s.reqs.filter fun r => !(r.isVload && r.sid == e.sid && r.serial == e.serial)).map (fun r => (r.stage, r.va, r.data, r.expect)) ++
        (vLines ((s.ctx e.sid).rv (vstoreReg e.i)) ps).map fun x => (.held, 64 * x.1, x.2.1, x.2.2) := by
    rw [List.map_append, hmap, ← hr1]
    rfl
  by_cases hp : bankPieces ps = []
  · obtain ⟨hseq', hr', -⟩ := State.leaveSeq_frame { s1.dropLines e with reqs := (s1.dropLines e).reqs ++ rs, nextId := n } ci s.now { e with bound := true, left := bankPieces ps } true
    rw [if_pos (List.isEmpty_iff.mpr hp), if_pos hp]
    refine ⟨(State.bytes_leaveSeq ..).trans hb1, hseq'.trans ?_, ?_⟩
    · show ((s1.core ci).seq).drop 1 = l
      rw [hs1]
      rfl
    · rw [hr']
      exact hreqs
  · rw [if_neg fun hc => hp (List.isEmpty_iff.mp hc), if_neg hp]
    exact ⟨hb1, hs1, hreqs⟩

end

/-! The vector slots and the return of global lines. -/

/-- What the pieces of a store change: no byte but theirs. -/
theorem State.vStoreBank_frame (src : VReg) (ps : List (VPiece × VPlace)) (s : State) :
    (∀ a n, (s.vStoreBank src ps).physRead a n = s.physRead a n) ∧ (s.vStoreBank src ps).core = s.core ∧
      ∀ cl p n, (∀ q ∈ ps, ∀ off, q.2 = .bank cl off → p + n ≤ off ∨ off + q.1.size ≤ p) → (s.vStoreBank src ps).spadRead cl p n = s.spadRead cl p n := by
  induction ps generalizing s with
  | nil => exact ⟨fun _ _ => rfl, rfl, fun _ _ _ _ => rfl⟩
  | cons q ps ih =>
    obtain ⟨piece, place⟩ := q
    cases place with
    | mem va =>
      obtain ⟨h1, h2, h3⟩ := ih s
      exact ⟨h1, h2, fun cl p n hd => h3 cl p n fun q hq => hd q (List.mem_cons_of_mem _ hq)⟩
    | bank cl' off =>
      let v := (s.spadRead cl' off piece.size - (s.spadRead cl' off piece.size &&& piece.bits)) ||| (src.toNat / 2 ^ piece.pos &&& piece.bits)
      obtain ⟨h1, h2, h3⟩ := ih (s.spadWrite cl' off piece.size v)
      refine ⟨fun a n => (h1 a n).trans (State.spadWrite_physRead ..), h2.trans rfl, fun cl p n hd => ?_⟩
      refine (h3 cl p n fun q hq => hd q (List.mem_cons_of_mem _ hq)).trans (State.spadWrite_read s cl' off piece.size v cl p n ?_)
      by_cases hc : cl = cl'
      · subst hc
        exact .inr (hd _ List.mem_cons_self off rfl)
      · exact .inl hc

theorem State.exec_vectorSlotGrant {s : State} {cl c : Nat} {e : SeqEntry} (hdue : s.slotDue cl 4 = true ∨ s.slotDue cl 5 = true) (hc : s.vectorCore cl = some (c, e)) :
    exec (.vectorSlotGrant cl) s = .next ((s.vectorServe (4 * cl + c) e).modClu cl fun k => { k with
      vlast := c, slotAt := s.now + 1, vcur := if ((s.vectorServe (4 * cl + c) e).vectorHead (4 * cl + c)).isSome then some c else none }) := by
  have hguard : (s.slotDue cl 4 || s.slotDue cl 5) = true := Bool.or_eq_true_iff.mpr hdue
  show execVectorSlotGrant cl s = _
  rw [execVectorSlotGrant, hguard, hc]
  rfl

/-- A vector slot that serves a store: its pieces of the slot are written. -/
theorem State.vectorServe_store {s : State} {ci : Nat} {e : SeqEntry} {l : List SeqEntry} (hseq : (s.core ci).seq = e :: l) (hst : storesVector e.i = true)
    (hundo : s.vUndoFull e.slotParts.1 = false) :
    ((s.vectorServe ci e).core ci).seq = (if e.slotParts.2 = [] then l else { e with left := e.slotParts.2 } :: l) ∧
      (s.vectorServe ci e).bytes = (s.vStoreBank ((s.ctx e.sid).rv (vstoreReg e.i)) e.slotParts.1).bytes := by
  have hst' : ((vShape e.i).any fun h => h.ds.isSome) = true := hst
  obtain ⟨-, hcore, -⟩ := State.vStoreBank_frame ((s.ctx e.sid).rv (vstoreReg e.i)) e.slotParts.1 s
  unfold State.vectorServe
  dsimp only
  rw [hst', hundo]
  simp only [Bool.and_false, Bool.false_eq_true, if_false, if_true]
  generalize s.vStoreBank ((s.ctx e.sid).rv (vstoreReg e.i)) e.slotParts.1 = v at hcore
  have hhead : ((v.modHead ci fun _ => { e with left := e.slotParts.2 }).core ci).seq = { e with left := e.slotParts.2 } :: l :=
    State.modHead_seq (e := e) (l := l) (by rw [hcore, hseq]) _
  by_cases hr : e.slotParts.2 = []
  · rw [if_pos (List.isEmpty_iff.mpr hr), if_pos hr]
    refine ⟨?_, (State.bytes_leaveSeq ..).trans (State.bytes_modHead ..)⟩
    rw [(State.leaveSeq_frame _ _ _ _ _).1, hhead]
    rfl
  · rw [if_neg fun h => hr (List.isEmpty_iff.mp h), if_neg hr]
    exact ⟨hhead, State.bytes_modHead ..⟩

/-- A vector slot that serves a load: what it reads joins the image, and after the last the image is written. -/
theorem State.vectorServe_load {s : State} {ci : Nat} {e : SeqEntry} {l : List SeqEntry} (hseq : (s.core ci).seq = e :: l) (hst : storesVector e.i = false) :
    (s.vectorServe ci e).bytes = s.bytes ∧
      (e.slotParts.2 ≠ [] → ((s.vectorServe ci e).core ci).seq = { e with left := e.slotParts.2, img := e.img ||| s.vGet e.slotParts.1 } :: l) ∧
      (e.slotParts.2 = [] → globalLines (e.plan.getD []) = [] → ((s.vectorServe ci e).core ci).seq = l ∧ (s.ctx e.sid).shows ((s.vectorServe ci e).ctx e.sid)
        (.vec (vloadDst e.i) (vMerge ((s.ctx e.sid).old (vloadDst e.i)) (e.plan.getD []) (e.img ||| s.vGet e.slotParts.1), 0))) := by
  have hst' : ((vShape e.i).any fun h => h.ds.isSome) = false := hst
  unfold State.vectorServe
  dsimp only
  rw [hst']
  simp only [Bool.false_and, Bool.false_eq_true, if_false]
  have hhead : ((s.modHead ci fun _ => { e with left := e.slotParts.2, img := e.img ||| s.vGet e.slotParts.1 }).core ci).seq =
      { e with left := e.slotParts.2, img := e.img ||| s.vGet e.slotParts.1 } :: l := State.modHead_seq hseq _
  have hb : (s.modHead ci fun _ => { e with left := e.slotParts.2, img := e.img ||| s.vGet e.slotParts.1 }).bytes = s.bytes := State.bytes_modHead ..
  have hctx : (s.modHead ci fun _ => { e with left := e.slotParts.2, img := e.img ||| s.vGet e.slotParts.1 }).ctx e.sid = s.ctx e.sid := rfl
  generalize (s.modHead ci fun _ => { e with left := e.slotParts.2, img := e.img ||| s.vGet e.slotParts.1 }) = v at hhead hb hctx
  by_cases hr : e.slotParts.2 = []
  · rw [if_pos (List.isEmpty_iff.mpr hr)]
    obtain ⟨h1, -, h3⟩ := State.leaveSeq_frame v ci (s.now + bankLatency) { e with left := e.slotParts.2, img := e.img ||| s.vGet e.slotParts.1 } false
    refine ⟨(State.bytes_leaveSeq ..).trans hb, fun h => absurd hr h, fun _ hg => ⟨?_, ?_⟩⟩
    · rw [h1, hhead]
      rfl
    · have hshow := h3 rfl hg
      rw [hctx] at hshow
      exact hshow
  · rw [if_neg fun h => hr (List.isEmpty_iff.mp h)]
    exact ⟨hb, fun _ => hhead, fun h => absurd h hr⟩

/-- The global lines of a load are back: its image is written. -/
theorem State.vloadDone_shows (s : State) (e : SeqEntry) : (s.vloadDone e).bytes = s.bytes ∧ (s.ctx e.sid).shows ((s.vloadDone e).ctx e.sid)
    (.vec (vloadDst e.i) (vMerge ((s.ctx e.sid).old (vloadDst e.i)) (e.plan.getD [])
      (e.img ||| lineGet ((s.vloadReqs e).map fun r => (r.va / 64, r.data)) (e.plan.getD [])), 0)) := by
  obtain ⟨hshow, hstep⟩ := State.applyV_shows ((s.dropLines e).modCore (slotCore e.sid) fun k => { k with vout := k.vout.filter fun q => !(q.sid == e.sid && q.serial == e.serial) })
    e.sid e.serial s.now false (.vec (vloadDst e.i) (vMerge ((s.ctx e.sid).old (vloadDst e.i)) (e.plan.getD [])
      (e.img ||| lineGet ((s.vloadReqs e).map fun r => (r.va / 64, r.data)) (e.plan.getD [])), 0))
  exact ⟨hstep.bytes, hshow⟩

/-- Settles O43: a vector memory form enters its sequencer, binds, is served by the vector slots, and has its lines back. -/
theorem vectorMemoryFormsMoveTheirLanes : Obligations.VectorMemoryFormsMoveTheirLanes := by
  refine ⟨fun i h s xa xb tx hm hr => ?_, fun s ci e l h a b tv hseq hb hm hat => ?_, fun s cl c e l hdue hc hseq => ?_, fun s sid e hl hv => ?_⟩
  · obtain ⟨h1, h3⟩ := State.vmem_enters hm hr
    refine ⟨h1, fun st ty m v ps k x hb hv hp hw => ?_, h3⟩
    rw [exec_of_vMem hm, State.vmemIssue_bad hr hb hv hp hw, finish_trap]
  · have hlanes : usesLanes e.i = false := State.usesLanes_of_isVMem hm
    obtain ⟨hs, hf, hbound, hready, hread, hdst⟩ := hb
    have hbind : s.bindHead ci e = match e.plan with
        | none => some (s.checkGather ci e b)
        | some ps => s.bindMem ci e h ps tv := by
      simp only [State.bindHead, hs, hbound, hready, hread, hm, Bool.not_true, Bool.or_false, Bool.false_eq_true, if_false, if_true] <;> rfl
    refine ⟨fun st ty m v ps hplan hv hp => ?_, fun ps hplan hopen hbad hmem hport => ⟨fun hds => ?_, fun hds hroom => ?_⟩⟩
    · obtain ⟨h1, h2, h3⟩ := State.checkGather_planned hseq hv hp
      rw [hplan] at hbind
      refine ⟨_, State.exec_sequencerBind hseq hf hlanes hat hbind, ?_, State.sameBytes_of_bytes h2, h3⟩
      rw [State.modCore_core, if_pos rfl]
      exact h1
    · rw [hplan] at hbind
      obtain ⟨t, ht, h1, h2, h3⟩ := State.bindMem_load hseq hopen hbad hmem hport hdst hds
      refine ⟨_, State.exec_sequencerBind hseq hf hlanes hat (hbind.trans ht), State.sameBytes_of_bytes h1, fun hne => ?_, h3⟩
      rw [State.modCore_core, if_pos rfl]
      exact h2 hne
    · rw [hplan] at hbind
      obtain ⟨t, ht, h1, h2, h3⟩ := State.bindMem_store hseq hopen hbad hmem hport hdst hds hroom
      refine ⟨_, State.exec_sequencerBind hseq hf hlanes hat (hbind.trans ht), State.sameBytes_of_bytes h1, ?_, h3⟩
      rw [State.modCore_core, if_pos rfl]
      exact h2
  · intro now rest
    refine ⟨fun hst hundo => ?_, fun hst => ?_⟩
    · obtain ⟨h1, h2⟩ := State.vectorServe_store hseq hst hundo
      obtain ⟨g1, -, g3⟩ := State.vStoreBank_frame ((s.ctx e.sid).rv (vstoreReg e.i)) e.slotParts.1 s
      have hbytes := State.sameBytes_of_bytes ((State.bytes_modClu (s.vectorServe (4 * cl + c) e) cl (fun k => { k with
        vlast := c, slotAt := s.now + 1, vcur := if ((s.vectorServe (4 * cl + c) e).vectorHead (4 * cl + c)).isSome then some c else none }) rfl).trans h2)
      exact ⟨_, State.exec_vectorSlotGrant hdue hc, h1, fun p n => (hbytes p n).1.trans (g1 p n), fun cl' p n => (hbytes p n).2 cl',
        fun cl' p n hd => ((hbytes p n).2 cl').trans (g3 cl' p n hd)⟩
    · obtain ⟨h1, h2, h3⟩ := State.vectorServe_load hseq hst
      exact ⟨_, State.exec_vectorSlotGrant hdue hc, State.sameBytes_of_bytes ((State.bytes_modClu _ _ _ rfl).trans h1), h2, h3⟩
  · have hsid : e.sid = sid := by
      have hfound := List.find?_some hv
      exact beq_iff_eq.mp (Bool.and_eq_true_iff.mp hfound).1
    subst hsid
    obtain ⟨h1, h2⟩ := State.vloadDone_shows s e
    refine ⟨_, ?_, State.sameBytes_of_bytes h1, h2⟩
    show execGlobalLoadReturn e.sid s = _
    rw [execGlobalLoadReturn, hl, hv]

/-! Lanes of a register image (R49, R51, R137, R144). -/

theorem ofDigits_digit {B : Nat} (hB : 0 < B) {l : List Nat} (h : ∀ x ∈ l, x < B) (i : Nat) : Nat.ofDigits B l / B ^ i % B = l.getD i 0 := by
  induction l generalizing i with
  | nil => simp
  | cons x l ih =>
    have hx : x < B := h x List.mem_cons_self
    rw [Nat.ofDigits_cons]
    cases i with
    | zero => simp [Nat.add_mul_mod_self_left, Nat.mod_eq_of_lt hx]
    | succ i =>
      rw [pow_succ', ← Nat.div_div_eq_div_mul, Nat.add_mul_div_left _ _ hB, Nat.div_eq_of_lt hx, Nat.zero_add, List.getD_cons_succ]
      exact ih (fun y hy => h y (List.mem_cons_of_mem _ hy)) i

theorem foldr_eq_ofDigits (B : Nat) (f : Nat → Nat) (l : List Nat) : l.foldr (fun p acc => f p + B * acc) 0 = Nat.ofDigits B (l.map f) := by
  induction l with
  | nil => rfl
  | cons x l ih => rw [List.foldr_cons, ih, List.map_cons, Nat.ofDigits_cons]

theorem getD_map_range (f : Nat → Nat) {n i : Nat} (h : i < n) : ((List.range n).map f).getD i 0 = f i := by
  simp [List.getD_eq_getElem?_getD, h]

/-- A digit of a number that is written out digit by digit. -/
theorem foldr_range_digit {B : Nat} (hB : 0 < B) {f : Nat → Nat} (hf : ∀ p, f p < B) {n i : Nat} (h : i < n) :
    (List.range n).foldr (fun p acc => f p + B * acc) 0 / B ^ i % B = f i := by
  rw [foldr_eq_ofDigits, ofDigits_digit hB (fun x hx => by obtain ⟨p, -, rfl⟩ := List.mem_map.mp hx; exact hf p), getD_map_range f h]

theorem foldr_range_lt {B : Nat} (hB : 1 < B) {f : Nat → Nat} (hf : ∀ p, f p < B) (n : Nat) : (List.range n).foldr (fun p acc => f p + B * acc) 0 < B ^ n := by
  rw [foldr_eq_ofDigits]
  have hlt := Nat.ofDigits_lt_base_pow_length (b := B) (l := (List.range n).map f) hB fun x hx => by obtain ⟨p, -, rfl⟩ := List.mem_map.mp hx; exact hf p
  simpa using hlt

/-- The bits of a number written out in chunks of `k` bits. -/
theorem testBit_foldr_range {k : Nat} {f : Nat → Nat} (hf : ∀ p, f p < 2 ^ k) {n p j : Nat} (hp : p < n) (hj : j < k) :
    ((List.range n).foldr (fun p acc => f p + 2 ^ k * acc) 0).testBit (k * p + j) = (f p).testBit j := by
  have hdigit := foldr_range_digit (Nat.two_pow_pos k) hf hp
  rw [← pow_mul] at hdigit
  rw [← hdigit, Nat.testBit_mod_two_pow, decide_eq_true hj, Bool.true_and, Nat.testBit_div_two_pow, Nat.add_comm]

theorem bit1_lt (n i : Nat) : bit1 n i < 2 ^ 1 := Nat.mod_lt _ (by norm_num)

theorem bit1_testBit (n i : Nat) : (bit1 n i).testBit 0 = n.testBit i := by
  rw [bit1, Nat.testBit_zero, Nat.shiftRight_eq_div_pow, Nat.testBit_eq_decide_div_mod_eq]
  simp

theorem planeGet_lt (w n i : Nat) : planeGet w n i < 2 ^ w := by
  have h := foldr_range_lt (B := 2) (by norm_num) (f := fun p => bit1 n (64 * w * (i / 64) + i % 64 + 64 * p)) (fun p => bit1_lt _ _) w
  simpa only [planeGet, Nat.add_comm] using h

theorem planeGet_testBit {w : Nat} (n i : Nat) {p : Nat} (hp : p < w) : (planeGet w n i).testBit p = n.testBit (64 * w * (i / 64) + i % 64 + 64 * p) := by
  have h := testBit_foldr_range (k := 1) (f := fun p => bit1 n (64 * w * (i / 64) + i % 64 + 64 * p)) (fun p => bit1_lt _ _) hp (j := 0) (by norm_num)
  rw [bit1_testBit, pow_one, Nat.one_mul, Nat.add_zero] at h
  rw [← h, planeGet]
  simp only [Nat.add_comm]

theorem planeWord_eq_foldr (p : Nat) (l : List Nat) : planeWord p l = (List.range l.length).foldr (fun j acc => bit1 (l.getD j 0) p + 2 * acc) 0 := by
  induction l with
  | nil => rfl
  | cons x l ih =>
    rw [planeWord, ih, List.length_cons, List.range_succ_eq_map, List.foldr_cons, List.foldr_map]
    simp

theorem planeWord_lt (p : Nat) (l : List Nat) : planeWord p l < 2 ^ l.length := by
  rw [planeWord_eq_foldr]
  exact foldr_range_lt (by norm_num) (fun j => bit1_lt _ _) _

theorem planeWord_testBit (p : Nat) {l : List Nat} {j : Nat} (h : j < l.length) : (planeWord p l).testBit j = (l.getD j 0).testBit p := by
  have hb := testBit_foldr_range (k := 1) (f := fun j => bit1 (l.getD j 0) p) (fun j => bit1_lt _ _) h (j := 0) (by norm_num)
  rw [bit1_testBit, pow_one, Nat.one_mul, Nat.add_zero] at hb
  rw [planeWord_eq_foldr, hb]

/-- A group of 64 elements, plane by plane. -/
def planeGroup (w : Nat) (g : List Nat) : Nat := (List.range w).foldr (fun p acc => planeWord p g + 2 ^ 64 * acc) 0

theorem planeGroup_lt (w : Nat) {g : List Nat} (h : g.length ≤ 64) : planeGroup w g < 2 ^ (64 * w) := by
  have hw : ∀ p, planeWord p g < 2 ^ 64 := fun p => lt_of_lt_of_le (planeWord_lt p g) (Nat.pow_le_pow_right (by norm_num) h)
  rw [pow_mul]
  exact foldr_range_lt (by norm_num) hw w

theorem planeGroup_testBit {w : Nat} {g : List Nat} (h : g.length = 64) {p j : Nat} (hp : p < w) (hj : j < 64) : (planeGroup w g).testBit (64 * p + j) = (g.getD j 0).testBit p := by
  have hw : ∀ p, planeWord p g < 2 ^ 64 := fun p => h ▸ planeWord_lt p g
  rw [planeGroup, testBit_foldr_range hw hp hj, planeWord_testBit p (h.symm ▸ hj)]

theorem packPlanes_lt (w n : Nat) (l : List Nat) : packPlanes w n l < 2 ^ (64 * w * n) := by
  induction n generalizing l with
  | zero => simp [packPlanes]
  | succ n ih =>
    have hg := planeGroup_lt w (g := l.take 64) (by simp)
    have hr := ih (l.drop 64)
    have hle : planeGroup w (l.take 64) + 2 ^ (64 * w) * packPlanes w n (l.drop 64) < 2 ^ (64 * w) * 2 ^ (64 * w * n) := by
      calc _ < 2 ^ (64 * w) + 2 ^ (64 * w) * packPlanes w n (l.drop 64) := Nat.add_lt_add_right hg _
        _ = 2 ^ (64 * w) * (packPlanes w n (l.drop 64) + 1) := by ring
        _ ≤ _ := Nat.mul_le_mul_left _ hr
    rw [← pow_add] at hle
    show planeGroup w (l.take 64) + _ < _
    rwa [show 64 * w * (n + 1) = 64 * w + 64 * w * n by ring]

theorem packPlanes_testBit {w n : Nat} {l : List Nat} (h : 64 * n ≤ l.length) {i p : Nat} (hi : i < 64 * n) (hp : p < w) :
    (packPlanes w n l).testBit (64 * w * (i / 64) + i % 64 + 64 * p) = (l.getD i 0).testBit p := by
  induction n generalizing l i with
  | zero => omega
  | succ n ih =>
    have hg := planeGroup_lt w (g := l.take 64) (by simp)
    show (planeGroup w (l.take 64) + 2 ^ (64 * w) * packPlanes w n (l.drop 64)).testBit _ = _
    rw [Nat.add_comm (planeGroup _ _), Nat.testBit_two_pow_mul_add _ hg]
    by_cases hlow : i < 64
    · have hpos : 64 * w * (i / 64) + i % 64 + 64 * p = 64 * p + i := by
        rw [Nat.div_eq_of_lt hlow, Nat.mod_eq_of_lt hlow]
        omega
      have hin : 64 * p + i < 64 * w := by omega
      rw [hpos, if_pos hin, planeGroup_testBit (by rw [List.length_take]; omega) hp hlow]
      simp [List.getD_eq_getElem?_getD, List.getElem?_take, hlow]
    · have hdiv : i / 64 = (i - 64) / 64 + 1 := by omega
      have hmod : i % 64 = (i - 64) % 64 := by omega
      have hpos : 64 * w * (i / 64) + i % 64 + 64 * p = 64 * w + (64 * w * ((i - 64) / 64) + (i - 64) % 64 + 64 * p) := by
        rw [hdiv, hmod]
        ring
      rw [hpos, if_neg (by omega), Nat.add_sub_cancel_left, ih (by rw [List.length_drop]; omega) (by omega)]
      simp [List.getD_eq_getElem?_getD, List.getElem?_drop, Nat.add_sub_cancel' (not_lt.mp hlow)]

theorem packWhole_eq_ofDigits (w : Nat) (l : List Nat) : packWhole w l = Nat.ofDigits (2 ^ w) (l.map (· % 2 ^ w)) := by
  induction l with
  | nil => rfl
  | cons x l ih => rw [packWhole, ih, List.map_cons, Nat.ofDigits_cons]

theorem mem_map_mod_lt {w : Nat} {l : List Nat} : ∀ x ∈ l.map (· % 2 ^ w), x < 2 ^ w := by
  intro x hx
  obtain ⟨y, -, rfl⟩ := List.mem_map.mp hx
  exact Nat.mod_lt _ (Nat.two_pow_pos w)

theorem packWhole_lt {w : Nat} (hw : 0 < w) (l : List Nat) : packWhole w l < 2 ^ (w * l.length) := by
  rw [packWhole_eq_ofDigits, pow_mul]
  simpa using Nat.ofDigits_lt_base_pow_length (Nat.one_lt_two_pow hw.ne') mem_map_mod_lt

theorem packWhole_digit (w : Nat) (l : List Nat) (i : Nat) : (packWhole w l >>> (w * i)) % 2 ^ w = l.getD i 0 % 2 ^ w := by
  rw [packWhole_eq_ofDigits, Nat.shiftRight_eq_div_pow, pow_mul, ofDigits_digit (Nat.two_pow_pos w) mem_map_mod_lt]
  cases h : l[i]? <;> simp [List.getD_eq_getElem?_getD, h]

theorem laneGet_lt (w n i : Nat) : laneGet w n i < 2 ^ w := by
  unfold laneGet
  split
  · exact planeGet_lt w n i
  · exact Nat.mod_lt _ (Nat.two_pow_pos w)

/-- A lane of planes is the element that was put there. -/
theorem laneGet_of_planes {w n : Nat} (hw : w < 8) {l : List Nat} {image i : Nat} (hl : 64 * n ≤ l.length) (hi : i < 64 * n)
    (himage : ∀ r, r < 64 * w * n → image.testBit r = (packPlanes w n l).testBit r) : laneGet w image i = l.getD i 0 % 2 ^ w := by
  rw [laneGet, if_pos hw]
  refine Nat.eq_of_testBit_eq fun p => ?_
  rw [Nat.testBit_mod_two_pow]
  by_cases hp : p < w
  · have hdiv : i / 64 < n := by omega
    have hr : 64 * w * (i / 64) + i % 64 + 64 * p < 64 * w * n := by
      have h1 : i % 64 + 64 * p < 64 * w := by omega
      have h2 : 64 * w * (i / 64 + 1) ≤ 64 * w * n := Nat.mul_le_mul_left _ hdiv
      rw [Nat.mul_add] at h2
      omega
    rw [planeGet_testBit _ _ hp, himage _ hr, packPlanes_testBit hl hi hp, decide_eq_true hp, Bool.true_and]
  · rw [decide_eq_false hp, Bool.false_and]
    exact Nat.testBit_lt_two_pow (lt_of_lt_of_le (planeGet_lt _ _ _) (Nat.pow_le_pow_right (by norm_num) (not_lt.mp hp)))

/-- The widths of Table 08-1's integer types. -/
abbrev laneWidth (w : Nat) : Prop := w = 4 ∨ w = 6 ∨ w = 8 ∨ w = 16 ∨ w = 32 ∨ w = 64

/-- A lane of a packed image is the element that was put there (R49, R51). -/
theorem laneGet_packLanes {w : Nat} (hw : laneWidth w) (old : VReg) {l : List Nat} (hl : l.length = lanesOf w) {i : Nat} (hi : i < lanesOf w) :
    laneGet w (packLanes w old l).toNat i = l.getD i 0 % 2 ^ w := by
  have hwhole : 8 ≤ w → w * l.length = 4096 → laneGet w (packLanes w old l).toNat i = l.getD i 0 % 2 ^ w := by
    intro h8 hlen
    have hlt := packWhole_lt (w := w) (by omega) l
    rw [hlen] at hlt
    rw [packLanes, if_neg (by omega), if_neg (by omega), BitVec.toNat_ofNat, Nat.mod_eq_of_lt hlt, laneGet, if_neg (by omega), packWhole_digit]
  rcases hw with rfl | rfl | rfl | rfl | rfl | rfl
  · refine laneGet_of_planes (n := 16) (by norm_num) (by rw [hl]; decide) hi fun r hr => ?_
    rw [packLanes, if_neg (by norm_num), if_pos (by norm_num), BitVec.toNat_ofNat, Nat.testBit_mod_two_pow, decide_eq_true (by omega), Bool.true_and]
  · refine laneGet_of_planes (n := 10) (by norm_num) (by rw [hl]; decide) hi fun r hr => ?_
    rw [packLanes, if_pos rfl, BitVec.toNat_ofNat, Nat.testBit_mod_two_pow, decide_eq_true (by omega), Bool.true_and, Nat.add_comm, Nat.mul_comm,
      Nat.testBit_two_pow_mul_add _ (packPlanes_lt 6 10 l), if_pos hr]
  · exact hwhole (by norm_num) (by rw [hl]; decide)
  · exact hwhole (by norm_num) (by rw [hl]; decide)
  · exact hwhole (by norm_num) (by rw [hl]; decide)
  · exact hwhole (by norm_num) (by rw [hl]; decide)

/-- The element that an element-wise form leaves in a lane. -/
def laneOut (w : Nat) (m : Mask) (old : VReg) (f : Nat → Nat × Flags) (i : Nat) : Nat := if m.active i then (f i).1 else laneGet w old.toNat i

theorem mapLanes_image (w : Nat) (m : Mask) (old : VReg) (f : Nat → Nat × Flags) :
    (mapLanes w (lanesOf w) m old f).1 = packLanes w old ((List.range (lanesOf w)).map (laneOut w m old f)) := by
  unfold mapLanes
  dsimp only
  rw [Nat.sub_self, List.range_zero, List.map_nil, List.append_nil]
  congr 1
  refine List.ext_getElem (by simp) fun i h1 h2 => ?_
  simp only [List.getElem_map, List.getElem_zip, List.getElem_range, laneOut]
  cases m.active i <;> rfl

/-- The lanes of an element-wise form: an active one holds its value, every other its element. -/
theorem laneGet_mapLanes {w : Nat} (hw : laneWidth w) (m : Mask) (old : VReg) (f : Nat → Nat × Flags) {i : Nat} (hi : i < lanesOf w) :
    laneGet w (mapLanes w (lanesOf w) m old f).1.toNat i = if m.active i then (f i).1 % 2 ^ w else laneGet w old.toNat i := by
  rw [mapLanes_image, laneGet_packLanes hw old (by simp) hi, getD_map_range _ hi, laneOut]
  split
  · rfl
  · exact Nat.mod_eq_of_lt (laneGet_lt ..)

/-- A form whose lanes raise no flag raises none. -/
theorem mapLanes_flags (w L : Nat) (m : Mask) (old : VReg) {f : Nat → Nat × Flags} (hf : ∀ i, (f i).2 = 0) : (mapLanes w L m old f).2 = 0 := by
  have hfold : ∀ l : List Nat, ((l.map fun i => if m.active i then some (f i) else none).foldl (fun acc r => match r with | some x => acc ||| x.2 | none => acc) (0 : Flags)) = 0 := by
    intro l
    induction l with
    | nil => rfl
    | cons i l ih =>
      rw [List.map_cons, List.foldl_cons]
      cases m.active i with
      | true => simpa [hf] using ih
      | false => simpa using ih
  exact hfold _

theorem laneWidth_of_isInt {t : TypeCode} (h : tIsInt t = true) : laneWidth (tWidth t) := by
  revert t
  decide

theorem fmt_of_isInt (e : VEnv) {t : TypeCode} (h : tIsInt t = true) : e.fmt t = none := by
  rw [VEnv.fmt, typeFmt, h, if_pos rfl]

theorem wrapInt_cast (w : Nat) (v : Int) : ((wrapInt w v % 2 ^ w : Nat) : Int) = v % 2 ^ w := by
  have hpos : (0 : Int) < 2 ^ w := by positivity
  rw [wrapInt, Int.natCast_mod, Int.toNat_of_nonneg (Int.emod_nonneg v (by exact_mod_cast hpos.ne'))]
  push_cast
  exact Int.emod_emod_of_dvd v dvd_rfl

/-- A number that is read as signed or not, modulo its width. -/
theorem readInt_emod {w x : Nat} (hx : x < 2 ^ w) (sg : Bool) : readInt sg w x % 2 ^ w = (x : Int) := by
  have hcast : (x : Int) < 2 ^ w := by exact_mod_cast hx
  unfold readInt
  split
  · push_cast
    rw [Int.sub_emod_right, Int.emod_eq_of_lt (Int.natCast_nonneg x) hcast]
  · exact Int.emod_eq_of_lt (Int.natCast_nonneg x) hcast

/-- The integer value of a lane. -/
theorem int_emod_of_binOp {op : VBin} {f : Int → Int → Int}
    (h : (op, f) ∈ [(VBin.add false, fun x y => x + y), (VBin.sub false, fun x y => x - y), (VBin.mul false, fun x y => x * y), (VBin.min, min), (VBin.max, max)])
    (sg : Bool) {w a b : Nat} (ha : a < 2 ^ w) (hb : b < 2 ^ w) : ((op.int sg w a b % 2 ^ w : Nat) : Int) = f (readInt sg w a) (readInt sg w b) % 2 ^ w := by
  simp only [List.mem_cons, Prod.mk.injEq, List.not_mem_nil, or_false] at h
  rcases h with ⟨rfl, rfl⟩ | ⟨rfl, rfl⟩ | ⟨rfl, rfl⟩ | ⟨rfl, rfl⟩ | ⟨rfl, rfl⟩
  · exact wrapInt_cast w _
  · exact wrapInt_cast w _
  · exact wrapInt_cast w _
  · show (((if readInt sg w a ≤ readInt sg w b then a else b) % 2 ^ w : Nat) : Int) = _
    rw [min_def]
    split
    · rw [readInt_emod ha, Nat.mod_eq_of_lt ha]
    · rw [readInt_emod hb, Nat.mod_eq_of_lt hb]
  · show (((if readInt sg w b ≤ readInt sg w a then a else b) % 2 ^ w : Nat) : Int) = _
    rw [max_comm, max_def]
    split
    · rw [readInt_emod ha, Nat.mod_eq_of_lt ha]
    · rw [readInt_emod hb, Nat.mod_eq_of_lt hb]

/-- Settles O45: the lanes of VADD, VSUB, VMUL, VMIN and VMAX on integers. -/
theorem lanesOfTheIntegerForms : Obligations.LanesOfTheIntegerForms := by
  intro op f e t m d a b ht hop w r value
  have hvalue : ∀ x, value x = readInt (tSigned t) w x := fun x => by
    simp [value, readInt]
  have hr : r = mapLanes w (lanesOf w) m d fun i => (op.int (tSigned t) w (laneGet w a.toNat i) (laneGet w b.toNat i), 0) := by
    simp only [r, vBin, fmt_of_isInt e ht]
    rfl
  rw [hr]
  refine ⟨mapLanes_flags _ _ _ _ fun _ => rfl, fun i hi => ?_⟩
  rw [laneGet_mapLanes (laneWidth_of_isInt ht) m d _ hi, hvalue, hvalue]
  split
  · exact int_emod_of_binOp hop _ (laneGet_lt ..) (laneGet_lt ..)
  · rfl

end Sys2Proof.Machine
end


section
/-!
PROOFS. The sequencers, the slots of the wheel, the engine units and the matrix array (R116, R139, R165, R170, R179 to R184, R242 to R248, R366, R367).
-/

namespace Sys2Proof.Machine

/-! The sequencers, the lane groups and the slots at work (R116, R139, R165, R242, R245). -/

/-- A step has one result, so what two statements say of it holds together. -/
theorem State.does_and {s : State} {i : Instr} {p q : State → Prop} (hp : s.does i p) (hq : s.does i q) : s.does i fun t => p t ∧ q t := by
  obtain ⟨t, ht, hpt⟩ := hp
  obtain ⟨u, hu, hqu⟩ := hq
  obtain rfl := Host.Outcome.next.inj (ht.symm.trans hu)
  exact ⟨t, ht, hpt, hqu⟩

theorem State.does_of_imp {s : State} {i : Instr} {p q : State → Prop} (hp : s.does i p) (h : ∀ t, p t → q t) : s.does i q := by
  obtain ⟨t, ht, hpt⟩ := hp
  exact ⟨t, ht, h t hpt⟩

/-- What a step that ends in an update of a cluster says of that cluster. -/
theorem State.does_of_clu {s t : State} {i : Instr} {cl : Nat} {f : Cluster → Cluster} {p : Cluster → Prop} (h : exec i s = .next (t.modClu cl f)) (hp : p (f (t.clu cl))) :
    s.does i fun u => p (u.clu cl) :=
  ⟨_, h, (congrArg p (State.modClu_self t cl f)).mpr hp⟩

theorem four_mul_coreCluster (sid : Nat) : 4 * coreCluster (slotCore sid) + slotCore sid % 4 = slotCore sid := by
  unfold coreCluster
  omega

/-- What a frame at the head of its sequencer performs next: its instruction and operands are there, and there is space for the result. -/
structure State.FrameBinds (s : State) (sid : Nat) (r : Replay) (i : Instr) (h : VShape) (xa xb : Word) (xt : List Target) (a b : VReg) (vt : List Target) : Prop where
  replays : (s.ctx sid).replay = some r
  goesOn : s.replayStopped sid = false
  word : decode (renumber (r.words.getD r.idx 0) r.iter r.stag) = some i
  shape : vShape i = some h
  noneAwaited : (s.ctx sid).awaits h.xregs = none
  vectors : s.readVs sid h = some (a, b, vt)
  scalars : (s.popAllV sid vt).readXs sid h = some (xa, xb, xt)
  ready : s.vecReady sid i h = true
  space : s.vecDstFull sid (s.ctx sid).serial (vt ++ xt) h = false

/-- The performance of a frame's instruction, before the replay moves on. -/
def State.framePerformed (s : State) (sid : Nat) (e : SeqEntry) (i : Instr) (h : VShape) (xa xb : Word) (xt : List Target) (a b : VReg) (vt : List Target) : State :=
  ((s.popAllV sid vt).popAll sid xt).vecPerform { e with i := i, xa := xa, xb := xb, space := (s.popAllV sid vt).freed sid h.xpops } h
    (s.ctx sid).venv (s.ctx sid).srseed.toNat a b []

/-- The state once a frame's instruction is performed: the replay moves on, and the frame leaves after its last. -/
def State.frameMoved (s : State) (sid : Nat) (i : Instr) (next : Option Replay) : State :=
  let t := s.modCtx sid fun c => { c.seedAfter i with replay := next }
  if next.isNone then t.dropHead (slotCore sid) else t

section
variable {s : State} {sid : Nat} {r : Replay} {e : SeqEntry} {l : List SeqEntry} {i : Instr} {h : VShape} {xa xb : Word} {xt : List Target} {a b : VReg} {vt : List Target}

theorem State.frameNext_of_binds (hb : s.FrameBinds sid r i h xa xb xt a b vt) (he : e.sid = sid) : s.frameNext e = some (i, h) := by
  simp only [State.frameNext, he, hb.replays, hb.word, hb.shape, Option.map_some]

theorem State.frameLanes_of_binds (hb : s.FrameBinds sid r i h xa xb xt a b vt) (hseq : (s.core (slotCore sid)).seq = e :: l) (hf : e.frame = true) (he : e.sid = sid) :
    s.frameLanes (slotCore sid) = usesLanes i := by
  simp only [State.frameLanes, hseq, hf, State.frameNext_of_binds hb he, Option.any_some, Bool.true_and]

theorem State.framePerform_of_binds (hb : s.FrameBinds sid r i h xa xb xt a b vt) (hseq : (s.core (slotCore sid)).seq = e :: l) (hf : e.frame = true) (he : e.sid = sid) :
    s.framePerform sid = some ((s.framePerformed sid e i h xa xb xt a b vt).frameMoved sid i r.after) := by
  have hown : (!(e.frame && e.sid == sid) || s.replayStopped sid) = false := by simp [hf, he, hb.goesOn]
  rw [State.framePerform, hseq]
  simp only [hown, State.frameNext_of_binds hb he, hb.ready, hb.noneAwaited, hb.vectors, hb.scalars, hb.space, hb.replays, Bool.false_eq_true, if_false, Bool.not_true,
    Option.isSome_none, Bool.or_self, Option.bind_some]
  rfl

theorem State.laneServe_of_binds (hb : s.FrameBinds sid r i h xa xb xt a b vt) (hseq : (s.core (slotCore sid)).seq = e :: l) (hf : e.frame = true) (he : e.sid = sid)
    (hu : usesLanes i = true) : s.laneServe (slotCore sid) = some ((s.framePerformed sid e i h xa xb xt a b vt).frameMoved sid i r.after) := by
  simp only [State.laneServe, hseq, hf, State.frameNext_of_binds hb he, hu, if_true, he, State.framePerform_of_binds hb hseq hf he]
end

/-- A vector form's effect reads the register file alone, which taking channel entries leaves. -/
theorem vecEffect_of_chans {s t : State} {sid : Nat} (h : s.chans sid t) (e : VEnv) (seed : Nat) (i : Instr) (a b : VReg) (xa xb : Word) :
    vecEffect (t.ctx sid) e seed i a b xa xb = vecEffect (s.ctx sid) e seed i a b xa xb := by
  obtain ⟨q, r, w, hq⟩ := h.ctx
  rw [hq]
  cases i <;> rfl

/-- What a performance does: the effect of its tables shows, and the sequencers keep what they hold. -/
theorem State.framePerformed_shows (s : State) {sid : Nat} {e : SeqEntry} (he : e.sid = sid) (i : Instr) (h : VShape) (xa xb : Word) (xt : List Target) (a b : VReg)
    (vt : List Target) :
    (s.ctx sid).shows ((s.framePerformed sid e i h xa xb xt a b vt).ctx sid) (vecEffect (s.ctx sid) (s.ctx sid).venv (s.ctx sid).srseed.toNat i a b xa xb) ∧
      ∀ ci, ((s.framePerformed sid e i h xa xb xt a b vt).core ci).seq = (s.core ci).seq := by
  subst he
  have hpop : s.chans e.sid ((s.popAllV e.sid vt).popAll e.sid xt) := State.chans_trans (State.chans_popAllV s e.sid vt) (State.chans_popAll _ e.sid xt)
  obtain ⟨hshow, hstep⟩ := State.vecPerform_shows ((s.popAllV e.sid vt).popAll e.sid xt)
    { e with i := i, xa := xa, xb := xb, space := (s.popAllV e.sid vt).freed e.sid h.xpops } h (s.ctx e.sid).venv (s.ctx e.sid).srseed.toNat a b []
  have hfile := State.sameFile_of_chans hpop
  refine ⟨?_, fun ci => (hstep.seq ci).trans (hpop.seq ci)⟩
  rw [← vecEffect_of_chans hpop]
  exact Ctx.shows_sameFile hshow hfile ⟨rfl, rfl, rfl, rfl⟩

/-- What a frame's performance leaves: the replay moved on, its effect shown, and the frame in its sequencer until its last. -/
theorem State.frameMoved_acts (s : State) {sid : Nat} {e : SeqEntry} {l : List SeqEntry} (hseq : (s.core (slotCore sid)).seq = e :: l) (he : e.sid = sid) (i : Instr) (h : VShape)
    (xa xb : Word) (xt : List Target) (a b : VReg) (vt : List Target) (next : Option Replay) :
    let t := (s.framePerformed sid e i h xa xb xt a b vt).frameMoved sid i next
    (t.ctx sid).replay = next ∧ (t.core (slotCore sid)).seq = (if next = none then l else e :: l) ∧
      (s.ctx sid).shows (t.ctx sid) (vecEffect (s.ctx sid) (s.ctx sid).venv (s.ctx sid).srseed.toNat i a b xa xb) := by
  obtain ⟨hshow, hkeep⟩ := State.framePerformed_shows s he i h xa xb xt a b vt
  generalize s.framePerformed sid e i h xa xb xt a b vt = u at hshow hkeep
  have hu : (u.core (slotCore sid)).seq = e :: l := (hkeep _).trans hseq
  intro t
  obtain ⟨sd, hsd⟩ := Ctx.seedAfter_frame (u.ctx sid) i
  have hctx : t.ctx sid = { u.ctx sid with srseed := sd, replay := next } := by
    have hmod := State.modCtx_self u sid fun c => { c.seedAfter i with replay := next }
    rw [hsd] at hmod
    cases next with
    | none => exact hmod
    | some n => exact hmod
  refine ⟨by rw [hctx], ?_, ?_⟩
  · cases next with
    | none =>
      show ((State.dropHead (u.modCtx sid _) (slotCore sid)).core (slotCore sid)).seq = l
      rw [State.dropHead, State.modCore_self, State.modCtx_core, hu]
      rfl
    | some n => exact hu
  · rw [hctx]
    exact Ctx.shows_sameFile hshow ⟨rfl, rfl, rfl, rfl⟩ ⟨rfl, rfl, rfl, rfl⟩

theorem State.exec_laneGrant_of_serve {s t : State} {cl c d : Nat} (h : s.laneGrant cl = some (c, t, d)) {g : Nat} (hg : (s.clu cl).freeGroup s.now = some g) :
    exec (.laneGroupGrant cl) s = .next (t.modClu cl fun k => { k with lptr := c, ldef := d, laneAt := s.now + 1, lanes := k.lanes.set g (s.now + 4) }) := by
  rw [State.exec_laneGroupGrant h, hg, Option.getD_some]

/-- A core whose pointer has credit left goes on at it. -/
theorem State.laneGrant_of_credit {s t : State} {cl g : Nat} (hat : (s.clu cl).laneAt ≤ s.now) (hg : (s.clu cl).freeGroup s.now = some g) (hd : 1 ≤ (s.clu cl).ldef)
    (ht : s.laneServe (4 * cl + (s.clu cl).lptr) = some t) : s.laneGrant cl = some ((s.clu cl).lptr, t, (s.clu cl).ldef - 1) := by
  simp only [State.laneGrant, hg, hd, ht, Nat.not_lt.mpr hat, decide_false, Option.isNone_some, Bool.or_self, Bool.false_eq_true, if_false, if_true]

/-- Without credit the next core is asked first. -/
theorem State.laneGrant_of_next {s t : State} {cl g : Nat} (hat : (s.clu cl).laneAt ≤ s.now) (hg : (s.clu cl).freeGroup s.now = some g) (hd : (s.clu cl).ldef = 0)
    (ht : s.laneServe (4 * cl + ((s.clu cl).lptr + 1) % 4) = some t) :
    s.laneGrant cl = some (((s.clu cl).lptr + 1) % 4, t, (s.clu cl).weight (((s.clu cl).lptr + 1) % 4) - 1) := by
  have hno : (if 1 ≤ (s.clu cl).ldef then s.laneServe (4 * cl + (s.clu cl).lptr) else none) = none := if_neg (by omega)
  simp only [State.laneGrant, hg, hno, Nat.not_lt.mpr hat, decide_false, Option.isNone_some, Bool.or_self, Bool.false_eq_true, if_false,
    List.map_cons, List.findSome?_cons, ht, Option.map_some]

/-- A frame's performance with a lane group: the arbiter's grant to its core. -/
theorem State.exec_frameReplay_lanes {s : State} {sid : Nat} (hl : s.frameLanes (slotCore sid) = true) {c d : Nat} {t : State}
    (hg : s.laneGrant (coreCluster (slotCore sid)) = some (c, t, d)) (hc : 4 * coreCluster (slotCore sid) + c = slotCore sid) :
    exec (.frameReplayPerformance sid) s = .next (s.laneStep (coreCluster (slotCore sid))) := by
  show execFrameReplayPerformance sid s = _
  simp only [execFrameReplayPerformance, hl, hg, hc, if_true, Option.any_some, beq_self_eq_true]

theorem State.exec_frameReplay_alone {s t : State} {sid : Nat} (hl : s.frameLanes (slotCore sid) = false) (hat : (s.core (slotCore sid)).bindAt ≤ s.now)
    (ht : s.framePerform sid = some t) :
    exec (.frameReplayPerformance sid) s = .next (t.modCore (slotCore sid) fun k => { k with bindAt := s.now + 1 }) := by
  show execFrameReplayPerformance sid s = _
  simp only [execFrameReplayPerformance, hl, ht, Nat.not_lt.mpr hat, Bool.false_eq_true, if_false]

/-- The scalar slot's pointer moves on past the context that it served. -/
theorem State.scalarSlot_pointer {s : State} {cl sid : Nat} {a : BankAccess} {l : List BankAccess} (h : s.servesAlone cl sid a l)
    (hother : ∀ o, o ≠ sid → (s.grantAccess sid a).ctx o = s.ctx o) :
    s.does (.scalarSlotGrant cl) fun t => (t.clu cl).sptr = (sid % 10 + 1) % 10 := by
  obtain ⟨-, -, -, hidle, -⟩ := id h
  exact State.does_of_clu (p := fun c => c.sptr = (sid % 10 + 1) % 10)
    (State.exec_scalarSlotGrant h fun o hcl hne => by rw [hother o hne]; exact hidle o hcl hne) rfl

/-- Settles O46. -/
theorem sequencersAndSlotsPerform : Obligations.SequencersAndSlotsPerform := by
  intro s
  refine ⟨?_, ?_, ?_, ?_⟩
  · intro sid r e l i h xa xb xt a b vt hseq hf he hr hgo hdec hsh haw hv hx hready hspace acts
    have hb : s.FrameBinds sid r i h xa xb xt a b vt := ⟨hr, hgo, hdec, hsh, haw, hv, hx, hready, hspace⟩
    have hacts := State.frameMoved_acts s hseq he i h xa xb xt a b vt r.after
    have hperf := State.framePerform_of_binds hb hseq hf he
    have hlanes := State.frameLanes_of_binds hb hseq hf he
    generalize hu : (s.framePerformed sid e i h xa xb xt a b vt).frameMoved sid i r.after = u at hacts hperf
    obtain ⟨hrep, hleft, hshow⟩ := hacts
    refine ⟨fun hno hat => ⟨_, State.exec_frameReplay_alone (hlanes.trans hno) hat hperf, hrep, ?_, hshow⟩, ?_⟩
    · exact (congrArg CoreSt.seq (State.modCore_self u _ _)).trans hleft
    · intro g k huse hat hg hd hptr
      have hcore : 4 * coreCluster (slotCore sid) + k.lptr = slotCore sid := by rw [hptr]; exact four_mul_coreCluster sid
      have hserve : s.laneServe (4 * coreCluster (slotCore sid) + k.lptr) = some u := by
        rw [hcore, State.laneServe_of_binds hb hseq hf he huse, hu]
      have hgrant := State.laneGrant_of_credit hat hg hd hserve
      refine ⟨_, State.exec_frameReplay_lanes (hlanes.trans huse) hgrant hcore, ?_⟩
      rw [State.laneStep, hgrant]
      exact ⟨hrep, hleft, hshow⟩
  · intro cl g t k hat hg
    refine ⟨fun hd ht => ?_, fun hd ht => ?_⟩
    · exact State.does_of_clu (p := fun c => c.lptr = k.lptr ∧ c.ldef = k.ldef - 1 ∧ c.laneAt = s.now + 1 ∧ c.lanes = (t.clu cl).lanes.set g (s.now + 4))
        (State.exec_laneGrant_of_serve (State.laneGrant_of_credit hat hg hd ht) hg) ⟨rfl, rfl, rfl, rfl⟩
    · exact State.does_of_clu (p := fun c => c.lptr = (k.lptr + 1) % 4 ∧ c.ldef = k.weight ((k.lptr + 1) % 4) - 1 ∧ c.laneAt = s.now + 1 ∧
        c.lanes = (t.clu cl).lanes.set g (s.now + 4)) (State.exec_laneGrant_of_serve (State.laneGrant_of_next hat hg hd ht) hg) ⟨rfl, rfl, rfl, rfl⟩
  · intro cl e hdue hcur hhead
    have hcore : s.vectorCore cl = some (((s.clu cl).vlast + 1) % 4, e) := by
      simp only [State.vectorCore, hcur]
      rw [show List.range 4 = [0, 1, 2, 3] from rfl]
      simp only [List.map_cons, List.findSome?_cons, Nat.add_zero, hhead, Option.map_some]
    exact State.does_of_clu (p := fun c => c.vlast = ((s.clu cl).vlast + 1) % 4 ∧ c.slotAt = s.now + 1) (State.exec_vectorSlotGrant hdue hcore) ⟨rfl, rfl⟩
  · intro cl sid a l h
    refine ⟨fun d sg acq hop htag => ?_, fun v hop htag => ?_⟩
    · have hother : ∀ o, o ≠ sid → (s.grantAccess sid a).ctx o = s.ctx o := fun o hne => by
        have hat : (s.unqueued sid).now < (s.unqueued sid).now + bankLatency := by simp [bankLatency]
        rw [State.grantAccess_eq (by simp [hop]), State.bankPerform, hop]
        exact ((State.deliverAcquire_gives hat sid a.serial d _ acq _).2.2 o hne).trans (State.modCtx_other s sid o _ hne)
      refine State.does_of_imp (State.does_and (State.scalarSlot_pointer h hother) (loadsReadTheScratchpad.2 s cl sid a l d sg acq h hop)) ?_
      rintro t ⟨hptr, hpend, hbytes, -, hgives⟩
      rw [htag] at hgives
      exact ⟨hpend, hbytes, hptr, hgives⟩
    · have hother : ∀ o, o ≠ sid → (s.grantAccess sid a).ctx o = s.ctx o := fun o hne => by
        rw [State.grantAccess_eq (by simp [hop]), State.bankPerform, hop]
        simp only [State.bankWrite, htag, Bool.false_eq_true, if_false]
        rw [State.spadWrite_ctx]
        exact State.modCtx_other s sid o _ hne
      refine State.does_of_imp (State.does_and (State.scalarSlot_pointer h hother) (storesWriteTheScratchpad.2 s cl sid a l v h hop htag)) ?_
      rintro t ⟨hptr, hpend, hwrites, -⟩
      exact ⟨hpend, hptr, hwrites⟩

/-! The matrix array: its grants, a transfer's slots, a step, the port's retirement and the self-tests (R170, R179, R180, R182, R184, R247, R248, R366, R367). -/

@[simp] theorem State.modArr_arr (s : State) (cl : Nat) (f : MatArray → MatArray) : ((s.modArr cl f).clu cl).arr = f (s.clu cl).arr :=
  congrArg Cluster.arr (State.modClu_self s cl _)

@[simp] theorem State.modArr_core (s : State) (cl : Nat) (f : MatArray → MatArray) (ci : Nat) : (s.modArr cl f).core ci = s.core ci := rfl

@[simp] theorem State.modArr_ctx (s : State) (cl : Nat) (f : MatArray → MatArray) (sid : Nat) : (s.modArr cl f).ctx sid = s.ctx sid := rfl

@[simp] theorem State.modArr_now (s : State) (cl : Nat) (f : MatArray → MatArray) : (s.modArr cl f).now = s.now := rfl

theorem State.modPortHead_core {s : State} {ci : Nat} {p : PortEntry} {l : List PortEntry} (h : (s.core ci).port = p :: l) (f : PortEntry → PortEntry) :
    (s.modPortHead ci f).core ci = { s.core ci with port := f p :: l } := by
  rw [State.modPortHead, State.modCore_self, h]

@[simp] theorem State.modPortHead_acc (s : State) (ci : Nat) (f : PortEntry → PortEntry) (j : Nat) : ((s.modPortHead ci f).core j).acc = (s.core j).acc := by
  rw [State.modPortHead, State.modCore_core]
  split
  · next h => rw [h]
  · rfl

@[simp] theorem State.modPortHead_clu (s : State) (ci : Nat) (f : PortEntry → PortEntry) (cl : Nat) : (s.modPortHead ci f).clu cl = s.clu cl := rfl

/-- What is written to an accumulator's rows leaves the rows of the others. -/
theorem CoreSt.setRows_acc (k : CoreSt) (n rows : Nat) (hrows : rows ≤ 32) (f : Nat → BitVec 2048 → BitVec 2048) (r : Nat) (hr : r / 32 ≠ n) :
    Tab.get 0 (k.setRows n rows f).acc r = Tab.get 0 k.acc r := by
  have hfold : ∀ (l : List Nat) (t : Tab (BitVec 2048)), (∀ i ∈ l, i < 32) →
      Tab.get 0 (l.foldl (fun t i => Tab.set 0 t (32 * n + i) (f i (Tab.get 0 t (32 * n + i)))) t) r = Tab.get 0 t r := by
    intro l
    induction l with
    | nil => exact fun _ _ => rfl
    | cons i l ih =>
      intro t hl
      have hi : i < 32 := hl i (List.mem_cons_self ..)
      rw [List.foldl_cons, ih _ fun j hj => hl j (List.mem_cons_of_mem _ hj), Tab.get_set, if_neg (by omega)]
  exact hfold _ _ fun i hi => lt_of_lt_of_le (List.mem_range.mp hi) hrows

/-- The rows of an accumulator that is filled whole. -/
theorem CoreSt.setRows_fill (k : CoreSt) (n : Nat) (v : BitVec 2048) (r : Nat) (hr : r / 32 = n) :
    Tab.get 0 (k.setRows n 32 fun _ _ => v).acc r = v := by
  have hfold : ∀ (l : List Nat) (t : Tab (BitVec 2048)), r % 32 ∈ l ∨ Tab.get 0 t r = v →
      Tab.get 0 (l.foldl (fun t i => Tab.set 0 t (32 * n + i) v) t) r = v := by
    intro l
    induction l with
    | nil => exact fun t h => h.resolve_left (List.not_mem_nil)
    | cons i l ih =>
      intro t h
      rw [List.foldl_cons]
      refine ih _ ?_
      rw [Tab.get_set]
      by_cases hi : r = 32 * n + i
      · exact Or.inr (if_pos hi)
      · rw [if_neg hi]
        refine h.imp_left fun hmem => (List.mem_cons.mp hmem).resolve_left fun e => hi ?_
        omega
  exact hfold _ _ (Or.inl (List.mem_range.mpr (Nat.mod_lt r (by norm_num))))

theorem shM_le (r : BitVec 128) : shM r ≤ 32 := by
  unfold shM bitsOf
  have := Nat.mod_lt (r.toNat / 2 ^ 0) (show 0 < 2 ^ (4 + 1 - 0) by norm_num)
  omega

theorem ctlRows_le (w : Word) : ctlRows w ≤ 32 := by
  unfold ctlRows bitsOf
  have := Nat.mod_lt (w.toNat / 2 ^ 32) (show 0 < 2 ^ (36 + 1 - 32) by norm_num)
  omega

/-! Grants at a boundary (R248). -/

theorem coreCluster_holder (cl h : Nat) (hh : h < 4) : coreCluster (4 * cl + h) = cl := by
  unfold coreCluster
  omega

theorem State.exec_matrixGrant_boundary {s : State} {cl : Nat} (hjob : (s.clu cl).arr.job = none) (hat : (s.clu cl).arr.upto ≤ s.now) :
    exec (.matrixGrant cl) s = .next (s.boundary cl) := by
  show execMatrixGrant cl s = _
  simp only [execMatrixGrant, hjob, Nat.not_lt.mpr hat, if_false]

/-- A product that is due takes the array ahead of every core. -/
theorem State.boundary_test {s : State} {cl : Nat} {j : ArrayJob} (h : (s.clu cl).arr.testDue s.now = some j) :
    ((s.boundary cl).clu cl).arr.job = some j ∧ ((s.boundary cl).clu cl).arr.upto = s.now + 2 := by
  have hb : s.boundary cl = s.modArr cl fun a => a.runTest s.now := by simp only [State.boundary, h, Option.isSome_some, if_true]
  rw [hb, State.modArr_arr, MatArray.runTest]
  exact ⟨h, rfl⟩

/-- A holder with a request goes on while its run lasts. -/
theorem State.boundary_holder {s : State} {cl : Nat} {p : PortEntry} (ht : (s.clu cl).arr.testDue s.now = none) (hi : s.interrupted (4 * cl + (s.clu cl).arr.holder) = false)
    (hp : s.matrixRequest (4 * cl + (s.clu cl).arr.holder) = some p) (hrun : (s.clu cl).arr.run < if (s.clu cl).arr.run = 0 then (s.clu cl).mburst else (s.clu cl).arr.burst) :
    s.boundary cl = (s.modArr cl fun a => { a with run := a.run + 1, burst := if (s.clu cl).arr.run = 0 then (s.clu cl).mburst else (s.clu cl).arr.burst }).grantPort
      (4 * cl + (s.clu cl).arr.holder) s.now := by
  simp only [State.boundary, ht, hi, hp, hrun, Option.isSome_none, Option.isSome_some, Bool.false_eq_true, if_false, if_true, decide_true, Bool.and_self]

/-- A core's request looks at the columns in service alone of its array. -/
theorem State.matrixRequest_modArr (s : State) (ci : Nat) (f : MatArray → MatArray) (hf : ∀ a, (f a).columns = a.columns) :
    (s.modArr (coreCluster ci) f).matrixRequest ci = s.matrixRequest ci := by
  have hhead : ∀ n, (s.modArr (coreCluster ci) f).headReady ci n = s.headReady ci n := fun n => by
    unfold State.headReady State.headFull State.tag State.ring State.modArr
    rw [State.modClu_self]
    rfl
  unfold State.matrixRequest
  rw [State.modArr_core]
  cases (s.core ci).port with
  | nil => rfl
  | cons p l =>
    obtain ⟨i, hi⟩ : ∃ i, p.i = i := ⟨_, rfl⟩
    dsimp only
    rw [hi]
    cases i
    case mma c a b g h m => simp only [State.modArr_ctx, State.modArr_now, State.modArr_arr, hf, hhead]; rfl
    all_goals rfl

theorem State.grantPort_mma {s : State} {ci at_ : Nat} {p : PortEntry} (hp : s.matrixRequest ci = some p) {c : BitVec 2} {x y : BitVec 4} {g h' : BitVec 3} {m : BitVec 5}
    (hi : p.i = .mma c x y g h' m) :
    let a := (s.clu (coreCluster ci)).arr
    let b := ((s.grantPort ci at_).clu (coreCluster ci)).arr
    b.job = some (.step ci) ∧ b.run = a.run ∧ b.cover.isSome = true ∧ b.work + at_ = a.work + b.upto := by
  have hg : ∃ (n cov : Nat) (u : State), s.grantPort ci at_ = u.modArr (coreCluster ci) (fun a =>
      { a with job := some (.step ci), start := at_, upto := at_ + n, work := a.work + n, cover := some (a.cover.getD cov) }) ∧
      u.clu (coreCluster ci) = s.clu (coreCluster ci) := by
    simp only [State.grantPort, hp, hi]
    exact ⟨_, _, _, rfl, rfl⟩
  obtain ⟨n, cov, u, hu, hclu⟩ := hg
  intro a b
  have hb : b = { a with job := some (.step ci), start := at_, upto := at_ + n, work := a.work + n, cover := some (a.cover.getD cov) } := by
    simp only [b, a, hu, State.modArr_arr, hclu]
  rw [hb]
  exact ⟨rfl, rfl, rfl, by dsimp only; omega⟩

theorem State.zeroAcc_acc (s : State) (ci : Nat) (c : BitVec 2) (r : Nat) (hr : r < 64) :
    Tab.get 0 ((s.zeroAcc ci c).core ci).acc r = if c = 3 ∨ r / 32 = c.toNat then 0 else Tab.get 0 (s.core ci).acc r := by
  have hrow : r / 32 = 0 ∨ r / 32 = 1 := by omega
  have hone : ∀ (k : CoreSt) (n : Nat), Tab.get 0 (if c = 3 ∨ c.toNat = n then k.setRows n 32 fun _ _ => 0 else k).acc r =
      if (c = 3 ∨ c.toNat = n) ∧ r / 32 = n then 0 else Tab.get 0 k.acc r := by
    intro k n
    by_cases h : c = 3 ∨ c.toNat = n
    · rw [if_pos h]
      by_cases hn : r / 32 = n
      · rw [if_pos ⟨h, hn⟩, CoreSt.setRows_fill k n 0 r hn]
      · rw [if_neg fun hh => hn hh.2, CoreSt.setRows_acc k n 32 (le_refl _) _ r hn]
    · rw [if_neg h, if_neg fun hh => h hh.1]
  rw [State.zeroAcc, State.modCore_self]
  dsimp only
  rw [hone, hone]
  by_cases h3 : c = 3
  · rcases hrow with h | h <;> simp [h3, h]
  · rcases hrow with h | h <;> simp [h3, h, eq_comm]

/-- An MZERO that is granted the array clears its accumulators then. -/
theorem State.grantPort_mzero {s : State} {ci at_ : Nat} {p : PortEntry} (hp : s.matrixRequest ci = some p) {c : BitVec 2} (hi : p.i = .mzero c) :
    ((s.grantPort ci at_).core ci).acc = ((s.zeroAcc ci c).core ci).acc := by
  simp only [State.grantPort, hp, hi, State.modArr_core, State.modPortHead_acc]

/-! A transfer's slots (R184). -/

theorem State.exec_matrixGrant_move {s : State} {ci : Nat} {p : PortEntry} {l : List PortEntry} (hjob : (s.clu (coreCluster ci)).arr.job = some (.move ci))
    (hport : (s.core ci).port = p :: l) (hz : ∀ c, p.i ≠ .mzero c) : exec (.matrixGrant (coreCluster ci)) s = .next (s.portMove ci p) := by
  have hm : isMzero p.i = false := by
    obtain ⟨i, hi⟩ : ∃ i, p.i = i := ⟨_, rfl⟩
    rw [hi] at hz ⊢
    cases i
    case mzero c => exact absurd rfl (hz c)
    all_goals rfl
  show execMatrixGrant (coreCluster ci) s = _
  simp only [execMatrixGrant, hjob, hport, hm, Bool.false_and, Bool.false_eq_true, if_false]

/-- A transfer none of whose lines is left is complete. -/
theorem State.portMove_done {s : State} {ci : Nat} {p : PortEntry} {l : List PortEntry} (hport : (s.core ci).port = p :: l) (hleft : p.left = [])
    (hat : (s.clu (coreCluster ci)).arr.upto ≤ s.now) :
    ((s.portMove ci p).clu (coreCluster ci)).arr.job = none ∧ (s.portMove ci p).bytes = s.bytes ∧ ∃ q, ((s.portMove ci p).core ci).port = q :: l ∧ q.done = true := by
  have hmove : ∃ u : State, s.portMove ci p = (u.modPortHead ci fun q => { q with done := true }).modArr (coreCluster ci) (fun a => { a with job := none }) ∧
      (u.core ci).port = p :: l ∧ u.bytes = s.bytes := by
    have hl : (slotServes p.left).isEmpty = true := by rw [hleft]; rfl
    simp only [State.portMove, hl, Nat.not_lt.mpr hat, if_true, if_false]
    refine ⟨_, rfl, ?_⟩
    obtain ⟨i, hi⟩ : ∃ i, p.i = i := ⟨_, rfl⟩
    rw [hi]
    cases i
    case mrstr =>
      refine ⟨?_, rfl⟩
      rw [State.modCore_self, CoreSt.restored]
      split
      · exact hport
      · exact hport
    all_goals exact ⟨hport, rfl⟩
  obtain ⟨u, hu, huport, hubytes⟩ := hmove
  rw [hu]
  refine ⟨by rw [State.modArr_arr], by rw [State.bytes_modArr, State.bytes_modPortHead, hubytes], { p with done := true }, ?_, rfl⟩
  rw [State.modArr_core, State.modPortHead_core huport]

/-- The state once a slot has moved the lines of a transfer that it serves. -/
def State.movedLines (s : State) (ci : Nat) (p : PortEntry) : State := (slotServes p.left).foldl (fun s l => s.moveLine ci p l) s

/-- A matrix slot for a transfer: one line of every bank is moved. -/
theorem State.portMove_slot {s : State} {ci : Nat} {p : PortEntry} (hls : slotServes p.left ≠ []) (hslot : s.matrixSlot (coreCluster ci) = true)
    (hroom : (p.stores && s.linesUndoFull (coreCluster ci) (slotServes p.left)) = false) :
    s.portMove ci p = ((s.movedLines ci p).modPortHead ci fun q => { q with left := q.left.filter fun l => !(slotServes p.left).contains l }).modClu (coreCluster ci)
      fun c => { c with slotAt := s.now + 1, arr := { c.arr with upto := Nat.max c.arr.upto (s.now + 1) } } := by
  have hls' : (slotServes p.left).isEmpty = false := by simp [hls]
  unfold State.portMove
  dsimp only
  rw [hls', hroom, hslot]
  rfl

/-- What a slot for a transfer leaves: the slot is used, the head's lines are fewer, and the rest is as the lines' moves leave it. -/
theorem State.portMove_slot_shows {s : State} {ci : Nat} {p : PortEntry} {l : List PortEntry} (hport : (s.core ci).port = p :: l) (hls : slotServes p.left ≠ [])
    (hslot : s.matrixSlot (coreCluster ci) = true) (hroom : (p.stores && s.linesUndoFull (coreCluster ci) (slotServes p.left)) = false)
    (hkeep : ((s.movedLines ci p).core ci).port = (s.core ci).port) :
    let t := s.portMove ci p
    (t.clu (coreCluster ci)).slotAt = s.now + 1 ∧ (t.core ci).port = { p with left := p.left.filter fun k => !(slotServes p.left).contains k } :: l ∧
      (t.core ci).acc = ((s.movedLines ci p).core ci).acc ∧ t.bytes = (s.movedLines ci p).bytes := by
  intro t
  have ht : t = _ := State.portMove_slot hls hslot hroom
  generalize s.movedLines ci p = u at ht hkeep
  have hu : (u.core ci).port = p :: l := hkeep.trans hport
  rw [ht]
  refine ⟨by rw [State.modClu_self], ?_, ?_, ?_⟩
  · rw [State.modClu_core, State.modPortHead_core hu]
  · rw [State.modClu_core, State.modPortHead_core hu]
  · exact (State.bytes_modClu _ _ _ rfl).trans (State.bytes_modPortHead ..)

/-- A line that an MLDA loads: the rows of its accumulator alone change. -/
theorem State.movedLines_mlda (s : State) (ci : Nat) {p : PortEntry} {ty : BitVec 4} {n : Bool} {x y : BitVec 5} (hi : p.i = .mlda ty n x y) :
    ((s.movedLines ci p).core ci).port = (s.core ci).port ∧ (s.movedLines ci p).bytes = s.bytes ∧
      ∀ r, r / 32 ≠ n.toNat → Tab.get 0 ((s.movedLines ci p).core ci).acc r = Tab.get 0 (s.core ci).acc r := by
  unfold State.movedLines
  generalize slotServes p.left = ls
  induction ls generalizing s with
  | nil => exact ⟨rfl, rfl, fun _ _ => rfl⟩
  | cons k ls ih =>
    obtain ⟨hport, hbytes, hacc⟩ := ih (s.moveLine ci p k)
    have hline : ∃ f, s.moveLine ci p k = s.modCore ci fun c => c.setRows n.toNat (ctlRows p.ctl) f := by
      simp only [State.moveLine, hi]
      exact ⟨_, rfl⟩
    obtain ⟨f, hf⟩ := hline
    rw [List.foldl_cons]
    refine ⟨hport.trans ?_, hbytes.trans ?_, fun r hr => (hacc r hr).trans ?_⟩
    · rw [hf, State.modCore_self]
      rfl
    · rw [hf]
      exact State.bytes_modCore ..
    · rw [hf, State.modCore_self, CoreSt.setRows_acc _ _ _ (ctlRows_le _) _ r hr]

theorem accBytes_eq (t : BitVec 4) : accBytes t = 1 ∨ accBytes t = 2 ∨ accBytes t = 4 := by
  unfold accBytes
  split <;> simp

/-- An aligned element that begins in a line lies in it. -/
theorem accBytes_in_line {t : BitVec 4} {x line : Nat} (hx : x % accBytes t = 0) (h : x / 16 = line) : 16 * line ≤ x ∧ x + accBytes t ≤ 16 * line + 16 := by
  rcases accBytes_eq t with he | he | he <;> rw [he] at hx ⊢ <;> omega

/-- A row of an MSTA in a line: the bytes that it writes lie in the line. -/
theorem PortEntry.colsIn_bytes (p : PortEntry) {t : BitVec 4} {i line : Nat} (hb : p.base % accBytes t = 0) (hs : ctlStride p.ctl % accBytes t = 0) (hne : p.colsIn t i line ≠ []) :
    16 * line ≤ p.base + i * ctlStride p.ctl + (p.colsIn t i line).headD 0 * accBytes t ∧
      p.base + i * ctlStride p.ctl + (p.colsIn t i line).headD 0 * accBytes t + (p.colsIn t i line).length * accBytes t ≤ 16 * line + 16 := by
  have hrow : ∀ j, (p.base + i * ctlStride p.ctl + j * accBytes t) % accBytes t = 0 := fun j =>
    Nat.mod_eq_zero_of_dvd (((Nat.dvd_of_mod_eq_zero hb).add ((Nat.dvd_of_mod_eq_zero hs).mul_left i)).add (Nat.dvd_mul_left ..))
  have hsorted : (p.colsIn t i line).Pairwise (· < ·) := List.pairwise_lt_range.filter _
  have hin : ∀ j ∈ p.colsIn t i line, 16 * line ≤ p.base + i * ctlStride p.ctl + j * accBytes t ∧ p.base + i * ctlStride p.ctl + (j + 1) * accBytes t ≤ 16 * line + 16 := by
    intro j hj
    have h := accBytes_in_line (hrow j) (of_decide_eq_true (List.mem_filter.mp hj).2)
    exact ⟨h.1, by rw [Nat.succ_mul]; omega⟩
  generalize p.colsIn t i line = js at *
  cases js with
  | nil => exact absurd rfl hne
  | cons j js =>
    refine ⟨(hin j (List.mem_cons_self ..)).1, ?_⟩
    have hlast : ∀ (l : List Nat) (j : Nat), (j :: l).Pairwise (· < ·) → ∃ k ∈ j :: l, j + (j :: l).length ≤ k + 1 := by
      intro l
      induction l with
      | nil => exact fun j _ => ⟨j, List.mem_cons_self .., le_refl _⟩
      | cons m l ih =>
        intro j hp
        obtain ⟨k, hk, hle⟩ := ih m (List.pairwise_cons.mp hp).2
        have hlt : j < m := (List.pairwise_cons.mp hp).1 m (List.mem_cons_self ..)
        exact ⟨k, List.mem_cons_of_mem _ hk, by simp only [List.length_cons] at hle ⊢; omega⟩
    obtain ⟨k, hk, hle⟩ := hlast js j hsorted
    have hend := (hin k hk).2
    have hmul := Nat.mul_le_mul_right (accBytes t) hle
    rw [Nat.add_mul] at hmul
    show p.base + i * ctlStride p.ctl + j * accBytes t + (j :: js).length * accBytes t ≤ _
    omega

/-- A step that writes in some lines of one scratchpad alone, and changes no core. -/
structure State.WritesLines (s t : State) (cl : Nat) (ls : List Nat) : Prop where
  now : t.now = s.now
  core : ∀ ci, t.core ci = s.core ci
  units : (t.clu cl).eleft = (s.clu cl).eleft
  pointers : (t.clu cl).eptr = (s.clu cl).eptr
  phys : ∀ a k, t.physRead a k = s.physRead a k
  spad : ∀ c a k, (c = cl → ∀ line ∈ ls, a + k ≤ 16 * line ∨ 16 * line + 16 ≤ a) → t.spadRead c a k = s.spadRead c a k

theorem State.WritesLines.refl (s : State) (cl : Nat) (ls : List Nat) : s.WritesLines s cl ls := ⟨rfl, fun _ => rfl, rfl, rfl, fun _ _ => rfl, fun _ _ _ _ => rfl⟩

theorem State.WritesLines.trans {s t u : State} {cl : Nat} {ls : List Nat} (h : s.WritesLines t cl ls) (g : t.WritesLines u cl ls) : s.WritesLines u cl ls :=
  ⟨g.now.trans h.now, fun ci => (g.core ci).trans (h.core ci), g.units.trans h.units, g.pointers.trans h.pointers, fun a k => (g.phys a k).trans (h.phys a k), fun c a k hd => (g.spad c a k hd).trans (h.spad c a k hd)⟩

theorem State.WritesLines.foldl {α : Type} {cl : Nat} {ls : List Nat} {f : State → α → State} (l : List α) (h : ∀ x ∈ l, ∀ s : State, s.WritesLines (f s x) cl ls) (s : State) :
    s.WritesLines (l.foldl f s) cl ls := by
  induction l generalizing s with
  | nil => exact .refl ..
  | cons x l ih => exact (h x (List.mem_cons_self ..) s).trans (ih (fun y hy => h y (List.mem_cons_of_mem _ hy)) _)

theorem State.writesLines_spadWrite (s : State) {cl off n line : Nat} {ls : List Nat} (hl : line ∈ ls) (hlo : 16 * line ≤ off) (hhi : off + n ≤ 16 * line + 16) (v : Nat) :
    s.WritesLines (s.spadWrite cl off n v) cl ls := by
  refine ⟨rfl, fun _ => rfl, by rw [State.spadWrite, State.modClu_self]; rfl,
    by rw [State.spadWrite, State.modClu_self]; rfl, fun _ _ => rfl,
    fun c a k hd => State.spadWrite_read s cl off n v c a k ?_⟩
  by_cases hc : c = cl
  · rcases hd hc line hl with h | h
    · exact Or.inr (Or.inl (h.trans hlo))
    · exact Or.inr (Or.inr (hhi.trans h))
  · exact Or.inl hc

/-- The lines that an MSTA stores in a slot are all that it writes. -/
theorem State.movedLines_msta (s : State) (ci : Nat) {p : PortEntry} {ty : BitVec 4} {n : Bool} {x y : BitVec 5} (hi : p.i = .msta ty n x y) (hb : p.base % accBytes ty = 0)
    (hs : ctlStride p.ctl % accBytes ty = 0) : s.WritesLines (s.movedLines ci p) (coreCluster ci) (slotServes p.left) := by
  refine State.WritesLines.foldl _ (fun line hl s => ?_) s
  simp only [State.moveLine, hi]
  refine State.WritesLines.foldl _ (fun i _ s => ?_) s
  split
  · exact .refl ..
  · next hne =>
    obtain ⟨hlo, hhi⟩ := p.colsIn_bytes hb hs fun h => hne (List.isEmpty_iff.mpr h)
    exact State.writesLines_spadWrite s hl hlo hhi _

/-! A step of an MMA, the port's retirement and the self-tests (R170, R179, R366, R367). -/

/-- What the step of an MMA leaves of a row. -/
def State.mmaRow (s : State) (ci : Nat) (p : PortEntry) (a b : BitVec 4) (m : BitVec 5) (i : Nat) (row : BitVec 2048) : BitVec 2048 :=
  setRow row (p.span p.cols).1 (p.span p.cols).2
    (p.element (withLines (s.clu (coreCluster ci)).spad p.got) (s.portTile ci [] a.toNat) (s.portTile ci [] b.toNat) m i)

/-- Whether the step that an MMA is at is its last. -/
def PortEntry.endsNow (p : PortEntry) : Bool := decide (shK p.sa ≤ p.kdone + p.stepLen) && decide (shN p.sb ≤ (p.span p.cols).2)

/-- The head of the port once the step it is at is done. -/
def PortEntry.stepped (p q : PortEntry) : PortEntry :=
  { q with
    pass := if decide (shK p.sa ≤ p.kdone + p.stepLen) && !p.endsNow then q.pass + 1 else q.pass
    kdone := if decide (shK p.sa ≤ p.kdone + p.stepLen) && !p.endsNow then 0 else p.kdone + p.stepLen
    left := [], got := []
    done := p.endsNow }

/-- The state once a step of an MMA has written its rows. -/
def State.mmaWritten (s : State) (ci : Nat) (p : PortEntry) (c : BitVec 2) (a b : BitVec 4) (m : BitVec 5) : State :=
  s.modCore ci fun k => { k.setRows c.toNat (shM p.sa) (s.mmaRow ci p a b m) with
    accAt := if p.endsNow then k.accAt.set c.toNat ((s.clu (coreCluster ci)).arr.upto + 5) else k.accAt
    accGap := if p.endsNow && decide (shK p.sa % p.fmt.step ≠ 0) then k.accGap.set c.toNat ((s.clu (coreCluster ci)).arr.upto + 5) else k.accGap }

/-- The step that an MMA was granted: its rows are written, and the head counts what is done. -/
theorem State.exec_mmaStep {s : State} {ci : Nat} {p : PortEntry} {l : List PortEntry} {c : BitVec 2} {a b : BitVec 4} {g h : BitVec 3} {m : BitVec 5}
    (hjob : (s.clu (coreCluster ci)).arr.job = some (.step ci)) (hat : (s.clu (coreCluster ci)).arr.upto ≤ s.now) (hport : (s.core ci).port = p :: l)
    (hi : p.i = .mma c a b g h m) :
    exec (.mmaStep ci) s = .next (((s.mmaWritten ci p c a b m).modPortHead ci p.stepped).modArr (coreCluster ci) fun a => { a with job := none }) := by
  show execMmaStep ci s = _
  unfold execMmaStep
  dsimp only
  rw [if_neg (by simp [hjob, hat]), hport]
  dsimp only
  rw [hi]
  rfl

/-- A step writes rows of its accumulator alone. -/
theorem State.mmaWritten_core (s : State) (ci : Nat) (p : PortEntry) (c : BitVec 2) (a b : BitVec 4) (m : BitVec 5) :
    ((s.mmaWritten ci p c a b m).core ci).port = (s.core ci).port ∧
      ∀ r, r / 32 ≠ c.toNat → Tab.get 0 ((s.mmaWritten ci p c a b m).core ci).acc r = Tab.get 0 (s.core ci).acc r := by
  rw [State.mmaWritten, State.modCore_self]
  exact ⟨rfl, fun r hr => CoreSt.setRows_acc (s.core ci) c.toNat (shM p.sa) (shM_le _) _ r hr⟩

/-- The rings that a port instruction of a context pops as it retires. -/
def State.popsRings (s : State) (ci sid : Nat) (ns : List Nat) : State :=
  ns.foldl (fun s n => if s.headFull ci n then s.popRing ci n (s.ctx sid).taints else s) s

theorem State.popRing_core (s : State) (ci n : Nat) (taints : List Nat) :
    ((s.popRing ci n taints).core ci).port = (s.core ci).port ∧ ((s.popRing ci n taints).core ci).acc = (s.core ci).acc := by
  have hput : (s.putTag (coreCluster ci) (s.ring ci n).headTag
      (emptied (s.tag (coreCluster ci) (s.ring ci n).headTag) (tagCons (s.tag (coreCluster ci) (s.ring ci n).headTag) || decide ((s.ring ci n).mode = 1)) false)).core ci = s.core ci :=
    congrArg (fun t => Tab.get ({} : CoreSt) t ci) (State.tagChange_putTag ..).cores
  unfold State.popRing
  dsimp only
  generalize State.putTag s _ _ _ = u at hput
  rw [State.modRing, State.modCore_self]
  split
  · rw [State.modCore_self, hput]
    exact ⟨rfl, rfl⟩
  · rw [hput]
    exact ⟨rfl, rfl⟩

theorem State.popsRings_frame (ci sid : Nat) (ns : List Nat) (s : State) :
    ((s.popsRings ci sid ns).core ci).port = (s.core ci).port ∧ ((s.popsRings ci sid ns).core ci).acc = (s.core ci).acc ∧ (s.popsRings ci sid ns).bytes = s.bytes := by
  induction ns generalizing s with
  | nil => exact ⟨rfl, rfl, rfl⟩
  | cons n ns ih =>
    obtain ⟨hport, hacc, hbytes⟩ := ih (if s.headFull ci n then s.popRing ci n (s.ctx sid).taints else s)
    by_cases hf : s.headFull ci n = true
    · rw [if_pos hf] at hport hacc hbytes
      obtain ⟨h1, h2⟩ := s.popRing_core ci n (s.ctx sid).taints
      unfold State.popsRings
      rw [List.foldl_cons, if_pos hf]
      exact ⟨hport.trans h1, hacc.trans h2, hbytes.trans (State.bytes_popRing ..)⟩
    · rw [if_neg hf] at hport hacc hbytes
      unfold State.popsRings
      rw [List.foldl_cons, if_neg hf]
      exact ⟨hport, hacc, hbytes⟩

/-- The oldest port instruction of a core retires. -/
theorem State.exec_portRetire {s : State} {ci : Nat} {p : PortEntry} {l : List PortEntry} (hport : (s.core ci).port = p :: l) (hdone : p.done = true) :
    let u := (s.modCore ci fun k => { k with port := l }).popsRings ci p.sid p.pops
    exec (.portRetire ci) s = .next (u.modArr (coreCluster ci) fun a => { a with due := true }) ∨
      exec (.portRetire ci) s = .next u ∧ ¬∃ c a b g h m, p.i = .mma c a b g h m := by
  intro u
  have hexec : exec (.portRetire ci) s = execPortRetire ci s := rfl
  unfold execPortRetire at hexec
  dsimp only at hexec
  rw [hport] at hexec
  dsimp only at hexec
  rw [hdone] at hexec
  change exec (.portRetire ci) s = (match p.i with
    | .mma _ _ _ _ _ _ => .next (u.modArr (coreCluster ci) fun a => { a with due := true })
    | _ => .next u) at hexec
  obtain ⟨i, hi⟩ : ∃ i, p.i = i := ⟨_, rfl⟩
  rw [hi] at hexec ⊢
  cases i
  case mma => exact Or.inl hexec
  all_goals exact Or.inr ⟨hexec, by rintro ⟨_, _, _, _, _, _, h⟩; cases h⟩

/-! The engine slots: what each bank serves, and what becomes of a unit whose lines are served (R243). -/

/-- A byte of what was just written. -/
theorem State.spadWrite_byte (s : State) (cl off v : Nat) {n j : Nat} (hj : j < n) : (s.spadWrite cl off n v).spadRead cl (off + j) 1 = v / 2 ^ (8 * j) % 256 := by
  have hbit : (allBytes n).testBit j = true := by rw [allBytes, Nat.testBit_two_pow_sub_one]; exact decide_eq_true hj
  unfold State.spadWrite State.spadRead
  rw [State.modClu_self, Cluster.store]
  show 0 + (Memory.read (Memory.writeMasked _ off v (allBytes n) n) (off + j + 0)).toNat * 2 ^ (8 * 0) = _
  rw [Memory.read_writeMasked, if_pos ⟨by omega, by omega, by rwa [Nat.add_zero, Nat.add_sub_cancel_left]⟩, BitVec.toNat_ofNat, Nat.shiftRight_eq_div_pow, Nat.add_zero,
    Nat.add_sub_cancel_left, Nat.zero_add, Nat.mul_zero, Nat.pow_zero, Nat.mul_one]

/-- The line of a unit that a bank serves: its first there. -/
def bankLine (ls : List Nat) (b : Nat) : Option Nat := ls.find? fun l => l % 32 == b

/-- The lines of a unit that one slot serves, bank by bank. -/
def servedLines (ls : List Nat) : List Nat := (List.range 32).filterMap (bankLine ls)

theorem bankLine_eq {ls : List Nat} {b l : Nat} (h : bankLine ls b = some l) : l ∈ ls ∧ l % 32 = b :=
  ⟨List.mem_of_find?_eq_some h, beq_iff_eq.mp (List.find?_some (p := fun l => l % 32 == b) h)⟩

theorem mem_servedLines {ls : List Nat} {l : Nat} : l ∈ servedLines ls ↔ bankLine ls (l % 32) = some l := by
  rw [servedLines, List.mem_filterMap]
  constructor
  · rintro ⟨b, -, hb⟩
    obtain ⟨-, rfl⟩ := bankLine_eq hb
    exact hb
  · exact fun h => ⟨l % 32, List.mem_range.mpr (Nat.mod_lt l (by norm_num)), h⟩

theorem servedLines_nodup (ls : List Nat) : (servedLines ls).Nodup := by
  refine List.Nodup.filterMap (fun b b' l hb hb' => ?_) List.nodup_range
  exact (bankLine_eq hb).2.symm.trans (bankLine_eq hb').2

theorem servedLines_ne_nil {ls : List Nat} (h : ls ≠ []) : servedLines ls ≠ [] := by
  obtain ⟨l, hl⟩ := List.exists_mem_of_ne_nil ls h
  have hsome : (bankLine ls (l % 32)).isSome = true := List.find?_isSome.mpr ⟨l, hl, beq_self_eq_true _⟩
  obtain ⟨m, hm⟩ := Option.isSome_iff_exists.mp hsome
  have hmem : m ∈ servedLines ls := mem_servedLines.mpr (by rw [(bankLine_eq hm).2]; exact hm)
  exact List.ne_nil_of_mem hmem

theorem any_bank_iff (ls : List Nat) (b : Nat) : (ls.any fun l => l % 32 == b) = (bankLine ls b).isSome := by
  rw [Bool.eq_iff_iff, bankLine, List.find?_isSome, List.any_eq_true]

/-- A search that one element alone can end. -/
theorem findSome?_of_unique {α β : Type} {f : α → Option β} {r : α} {l : List α} (hr : r ∈ l) (h : ∀ x ∈ l, x ≠ r → f x = none) : l.findSome? f = f r := by
  induction l with
  | nil => exact absurd hr (List.not_mem_nil)
  | cons x l ih =>
    rw [List.findSome?_cons]
    by_cases hx : x = r
    · subst hx
      cases hf : f x with
      | some y => rfl
      | none =>
        refine List.findSome?_eq_none_iff.mpr fun y hy => ?_
        by_cases hyx : y = x
        · rw [hyx, hf]
        · exact h y (List.mem_cons_of_mem _ hy) hyx
    · rw [h x (List.mem_cons_self ..) hx]
      exact ih ((List.mem_cons.mp hr).resolve_left (Ne.symm hx)) fun y hy => h y (List.mem_cons_of_mem _ hy)

/-- The units of the requesters of a cluster. -/
def State.allUnits (s : State) (cl : Nat) : List (Nat × List EngineLeft) := (List.range 19).map fun r => (r, s.engineUnits cl r)

theorem State.find_allUnits (s : State) (cl : Nat) {r : Nat} (hr : r < 19) : (s.allUnits cl).find? (fun w => w.1 == r) = some (r, s.engineUnits cl r) := by
  have h : (List.range 19).find? (fun q => q == r) = some r :=
    List.find?_range_eq_some.mpr ⟨beq_self_eq_true r, List.mem_range.mpr hr, fun j hj => by simp [Nat.ne_of_lt hj]⟩
  rw [State.allUnits, List.find?_map]
  exact congrArg (Option.map fun r => (r, s.engineUnits cl r)) h

section
variable {s : State} {cl r : Nat} {u : EngineLeft}

/-- What each bank serves where one requester alone has a unit: the unit's first line there. -/
theorem State.bankServes_of_one (hunits : ∀ q, q < 19 → s.engineUnits cl q = if q = r then [u] else []) (hr : r < 19) (b : Nat) :
    s.bankServes cl (s.allUnits cl) b = (bankLine (s.unitLines cl u) b).map fun l => (r, u.work, l) := by
  unfold State.bankServes
  rw [findSome?_of_unique (r := r)]
  · rw [State.find_allUnits s cl hr, hunits r hr, if_pos rfl]
    show ([u].findSome? fun v => (bankLine (s.unitLines cl v) b).map fun l => (r, v.work, l)) = _
    cases h : bankLine (s.unitLines cl u) b <;> simp [h]
  · exact List.mem_map.mpr ⟨(r + 19 - Tab.get 0 (s.clu cl).eptr b % 19) % 19, List.mem_range.mpr (Nat.mod_lt _ (by norm_num)), by omega⟩
  · intro q hq hne
    obtain ⟨k, -, rfl⟩ := List.mem_map.mp hq
    have hlt := Nat.mod_lt (Tab.get 0 (s.clu cl).eptr b + k) (show 0 < 19 by norm_num)
    rw [State.find_allUnits s cl hlt, hunits _ hlt, if_neg hne]
    rfl

/-- What the banks serve, in their order. -/
theorem State.banksServe_of_one (hunits : ∀ q, q < 19 → s.engineUnits cl q = if q = r then [u] else []) (hr : r < 19) :
    ((List.range 32).filterMap fun b => (s.bankServes cl (s.allUnits cl) b).map fun x => (b, x)) = (servedLines (s.unitLines cl u)).map fun l => (l % 32, r, u.work, l) := by
  rw [servedLines, List.map_filterMap]
  refine List.filterMap_congr fun b _ => ?_
  rw [State.bankServes_of_one hunits hr]
  cases h : bankLine (s.unitLines cl u) b with
  | none => rfl
  | some l =>
    rw [Option.map_some, Option.map_some, Option.map_some, (bankLine_eq h).2]
end

/-! A unit's lines served. -/

/-- A step that leaves every unit but those of one requester, and every byte of global memory. -/
structure State.ServesUnits (s t : State) (cl r : Nat) : Prop where
  now : t.now = s.now
  pointers : (t.clu cl).eptr = (s.clu cl).eptr
  others : ∀ q, q ≠ r → Tab.get [] (t.clu cl).eleft q = Tab.get [] (s.clu cl).eleft q
  phys : ∀ a k, t.physRead a k = s.physRead a k

theorem State.ServesUnits.refl (s : State) (cl r : Nat) : s.ServesUnits s cl r := ⟨rfl, rfl, fun _ _ => rfl, fun _ _ => rfl⟩

theorem State.ServesUnits.trans {s t u : State} {cl r : Nat} (h : s.ServesUnits t cl r) (g : t.ServesUnits u cl r) : s.ServesUnits u cl r :=
  ⟨g.now.trans h.now, g.pointers.trans h.pointers, fun q hq => (g.others q hq).trans (h.others q hq), fun a k => (g.phys a k).trans (h.phys a k)⟩

theorem State.ServesUnits.of_writes {s t : State} {cl r : Nat} {ls : List Nat} (h : s.WritesLines t cl ls) : s.ServesUnits t cl r :=
  ⟨h.now, h.pointers, fun q _ => congrArg (Tab.get [] · q) h.units, h.phys⟩

theorem State.setUnits_eleft (s : State) (cl r q : Nat) (l : List EngineLeft) :
    Tab.get [] ((s.setUnits cl r l).clu cl).eleft q = if q = r then l else Tab.get [] (s.clu cl).eleft q := by
  rw [State.setUnits, State.modClu_self, Tab.get_set]

theorem State.servesUnits_setUnits (s : State) (cl r : Nat) (l : List EngineLeft) : s.ServesUnits (s.setUnits cl r l) cl r :=
  ⟨rfl, by rw [State.setUnits, State.modClu_self], fun q hq => by rw [State.setUnits_eleft, if_neg hq], fun _ _ => rfl⟩

@[simp] theorem State.setUnits_spadRead (s : State) (cl r : Nat) (l : List EngineLeft) (c a k : Nat) : (s.setUnits cl r l).spadRead c a k = s.spadRead c a k :=
  ((State.sameBytes_of_bytes (State.bytes_setUnits s cl r l)) a k).2 c

/-- The bytes of a unit that lie in a line, written. -/
def State.lineWritten (s : State) (cl : Nat) (u : EngineLeft) (line : Nat) : State :=
  u.pieces.foldl (fun s p => match p.to_ with
    | none => s
    | some o =>
      let lo := Nat.max o (16 * line)
      let n := Nat.min (o + p.n) (16 * line + 16) - lo
      if n = 0 then s else s.spadWrite cl lo n (u.value p / 2 ^ (8 * (lo - o)) % 2 ^ (8 * n))) s

/-- A unit once a line of its is served: the line is read, or its bytes there are written. -/
def EngineLeft.lineServed (s : State) (cl : Nat) (u : EngineLeft) (line : Nat) : EngineLeft :=
  if u.reads.isEmpty then { u with writes := u.writes.erase line }
  else { u with reads := u.reads.erase line, got := u.got ++ [(line, s.spadRead cl (16 * line) 16)] }

theorem State.serveLine_of_one {s : State} {cl r line : Nat} {u : EngineLeft} (hu : Tab.get [] (s.clu cl).eleft r = [u]) :
    s.serveLine cl r line u = (if u.reads.isEmpty then s.lineWritten cl u line else s).setUnits cl r [u.lineServed s cl line] := by
  unfold State.serveLine EngineLeft.lineServed
  dsimp only
  rw [hu]
  split
  · simp only [List.map_cons, List.map_nil, if_true]
    rfl
  · simp only [List.map_cons, List.map_nil, if_true]

theorem State.writesLines_lineWritten (s : State) (cl : Nat) (u : EngineLeft) (line : Nat) : s.WritesLines (s.lineWritten cl u line) cl [line] := by
  refine State.WritesLines.foldl _ (fun p _ s => ?_) s
  cases p.to_ with
  | none => exact .refl ..
  | some o =>
    dsimp only
    split
    · exact .refl ..
    · next hn =>
      refine State.writesLines_spadWrite s (List.mem_singleton_self line) (Nat.le_max_right ..) ?_ _
      have hmin : Nat.min (o + p.n) (16 * line + 16) ≤ 16 * line + 16 := Nat.min_le_right ..
      have hsum : Nat.max o (16 * line) + (Nat.min (o + p.n) (16 * line + 16) - Nat.max o (16 * line)) = Nat.min (o + p.n) (16 * line + 16) :=
        Nat.add_sub_cancel' (Nat.le_of_lt (Nat.lt_of_sub_ne_zero hn))
      exact hsum.trans_le hmin

/-- A unit of one piece: the bytes of its line are those of its value. -/
theorem State.lineWritten_byte (s : State) (cl : Nat) {u : EngineLeft} {p : EnginePiece} {o i line : Nat} (hp : u.pieces = [p]) (ho : p.to_ = some o) (hi : i < p.n)
    (hline : (o + i) / 16 = line) : (s.lineWritten cl u line).spadRead cl (o + i) 1 = u.value p / 2 ^ (8 * i) % 256 := by
  have hlo : Nat.max o (16 * line) ≤ o + i := Nat.max_le.mpr ⟨by omega, by omega⟩
  have hhi : o + i < Nat.min (o + p.n) (16 * line + 16) := Nat.lt_min.mpr ⟨by omega, by omega⟩
  have hle : o ≤ Nat.max o (16 * line) := Nat.le_max_left ..
  rw [State.lineWritten, hp, List.foldl_cons, List.foldl_nil, ho]
  dsimp only
  generalize Nat.max o (16 * line) = lo at *
  generalize Nat.min (o + p.n) (16 * line + 16) = hi' at *
  rw [if_neg (by omega)]
  obtain ⟨j, rfl⟩ : ∃ j, i = lo - o + j := ⟨i - (lo - o), by omega⟩
  rw [show o + (lo - o + j) = lo + j by omega, State.spadWrite_byte _ _ _ _ (by omega)]
  have hj : 8 * j + 8 ≤ 8 * (hi' - lo) := by omega
  rw [show 8 * (hi' - lo) = 8 * j + (8 + (8 * (hi' - lo) - (8 * j + 8))) by omega, pow_add, pow_add, Nat.mod_mul_right_div_self,
    show (256 : Nat) = 2 ^ 8 from rfl, Nat.mod_mul_right_mod, Nat.div_div_eq_div_mul, ← pow_add, ← Nat.mul_add]

/-- The line of a unit that a bank serves, as the slot takes it. -/
def State.serveOne (cl r : Nat) (w : EngineWork) (s : State) (line : Nat) : State :=
  match s.unitOf cl r w with
  | some u => s.serveLine cl r line u
  | none => s

theorem State.unitOf_of_one {s : State} {cl r : Nat} {u : EngineLeft} (hu : Tab.get [] (s.clu cl).eleft r = [u]) : s.unitOf cl r u.work = some u := by
  rw [State.unitOf, hu]
  exact List.find?_cons_of_pos (beq_self_eq_true _)

theorem State.serveOne_of_one {s : State} {cl r : Nat} {u : EngineLeft} (hu : Tab.get [] (s.clu cl).eleft r = [u]) (line : Nat) :
    s.serveOne cl r u.work line = (if u.reads.isEmpty then s.lineWritten cl u line else s).setUnits cl r [u.lineServed s cl line] := by
  rw [State.serveOne, State.unitOf_of_one hu]
  exact State.serveLine_of_one hu

/-- What serving lines of a unit leaves where they are those it reads. -/
structure State.ReadsServed (s t : State) (cl r : Nat) (u v : EngineLeft) (L : List Nat) : Prop where
  unit : Tab.get [] (t.clu cl).eleft r = [v]
  frame : s.ServesUnits t cl r
  bytes : t.bytes = s.bytes
  work : v.work = u.work
  pieces : v.pieces = u.pieces
  reads : ∀ l, l ∈ v.reads ↔ l ∈ u.reads ∧ l ∉ L
  writes : v.writes = u.writes
  kept : ∀ g ∈ u.got, g ∈ v.got
  got : ∀ l ∈ L, (l, s.spadRead cl (16 * l) 16) ∈ v.got

theorem State.serve_reads {cl r : Nat} (L : List Nat) {s : State} {u : EngineLeft} (hu : Tab.get [] (s.clu cl).eleft r = [u]) (hnd : u.reads.Nodup) (hL : L.Nodup)
    (hsub : ∀ l ∈ L, l ∈ u.reads) : ∃ v, s.ReadsServed (L.foldl (State.serveOne cl r u.work) s) cl r u v L := by
  induction L generalizing s u with
  | nil => exact ⟨u, hu, .refl .., rfl, rfl, rfl, fun l => by simp, rfl, fun _ h => h, fun l hl => absurd hl (List.not_mem_nil)⟩
  | cons l L ih =>
    obtain ⟨hl, hL'⟩ := List.nodup_cons.mp hL
    have hmem := hsub l (List.mem_cons_self ..)
    have hne : u.reads.isEmpty = false := by
      cases hr : u.reads with
      | nil => rw [hr] at hmem; exact absurd hmem (List.not_mem_nil)
      | cons => rfl
    have hone := State.serveOne_of_one hu l
    rw [hne, EngineLeft.lineServed, hne] at hone
    simp only [Bool.false_eq_true, if_false] at hone
    rw [List.foldl_cons, hone]
    generalize hu' : ({ u with reads := u.reads.erase l, got := u.got ++ [(l, s.spadRead cl (16 * l) 16)] } : EngineLeft) = u'
    have hwork : u'.work = u.work := by rw [← hu']
    have hreads : u'.reads = u.reads.erase l := by rw [← hu']
    have hgot : u'.got = u.got ++ [(l, s.spadRead cl (16 * l) 16)] := by rw [← hu']
    have hset : Tab.get [] ((s.setUnits cl r [u']).clu cl).eleft r = [u'] := by rw [State.setUnits_eleft, if_pos rfl]
    obtain ⟨v, h⟩ := ih hset (hreads ▸ hnd.erase l) hL' fun k hk => by
      rw [hreads]
      exact (List.mem_erase_of_ne (show k ≠ l from fun e => hl (e ▸ hk))).mpr (hsub k (List.mem_cons_of_mem _ hk))
    rw [hwork] at h
    refine ⟨v, h.unit, (State.servesUnits_setUnits ..).trans h.frame, h.bytes.trans (State.bytes_setUnits ..), h.work.trans hwork, ?_, fun k => ?_, ?_, fun g hg => ?_, fun k hk => ?_⟩
    · rw [h.pieces, ← hu']
    · rw [h.reads, hreads, hnd.mem_erase_iff, List.mem_cons, not_or]
      tauto
    · rw [h.writes, ← hu']
    · exact h.kept g (by rw [hgot]; exact List.mem_append_left _ hg)
    · rcases List.mem_cons.mp hk with rfl | hk
      · exact h.kept _ (by rw [hgot]; exact List.mem_append_right _ (List.mem_singleton_self _))
      · have := h.got k hk
        rwa [State.setUnits_spadRead] at this

/-- What serving lines of a unit leaves where its bytes are written. -/
structure State.WritesServed (s t : State) (cl r : Nat) (u v : EngineLeft) (L : List Nat) : Prop where
  unit : Tab.get [] (t.clu cl).eleft r = [v]
  frame : s.ServesUnits t cl r
  spad : ∀ c a k, (c = cl → ∀ line ∈ L, a + k ≤ 16 * line ∨ 16 * line + 16 ≤ a) → t.spadRead c a k = s.spadRead c a k
  work : v.work = u.work
  pieces : v.pieces = u.pieces
  reads : v.reads = u.reads
  got : v.got = u.got
  writes : ∀ l, l ∈ v.writes ↔ l ∈ u.writes ∧ l ∉ L
  written : ∀ p o i, u.pieces = [p] → p.to_ = some o → i < p.n → (o + i) / 16 ∈ L → t.spadRead cl (o + i) 1 = u.value p / 2 ^ (8 * i) % 256

theorem State.serve_writes {cl r : Nat} (L : List Nat) {s : State} {u : EngineLeft} (hu : Tab.get [] (s.clu cl).eleft r = [u]) (hr : u.reads = []) (hnd : u.writes.Nodup)
    (hL : L.Nodup) : ∃ v, s.WritesServed (L.foldl (State.serveOne cl r u.work) s) cl r u v L := by
  induction L generalizing s u with
  | nil => exact ⟨u, hu, .refl .., fun _ _ _ _ => rfl, rfl, rfl, rfl, rfl, fun l => by simp, fun _ _ _ _ _ _ hl => absurd hl (List.not_mem_nil)⟩
  | cons l L ih =>
    obtain ⟨hl, hL'⟩ := List.nodup_cons.mp hL
    have hone := State.serveOne_of_one hu l
    have hempty : u.reads.isEmpty = true := by rw [hr]; rfl
    rw [hempty, EngineLeft.lineServed, hempty] at hone
    simp only [if_true] at hone
    have hw := State.writesLines_lineWritten s cl u l
    have hbyte := fun p o i (hp : u.pieces = [p]) ho hi hline => State.lineWritten_byte s cl (p := p) (o := o) (i := i) (line := l) hp ho hi hline
    rw [List.foldl_cons, hone]
    generalize s.lineWritten cl u l = s1 at hw hbyte
    generalize hu' : ({ u with writes := u.writes.erase l } : EngineLeft) = u'
    have hwork : u'.work = u.work := by rw [← hu']
    have hpieces : u'.pieces = u.pieces := by rw [← hu']
    have hreads : u'.reads = u.reads := by rw [← hu']
    have hgot : u'.got = u.got := by rw [← hu']
    have hwrites : u'.writes = u.writes.erase l := by rw [← hu']
    have hvalue : ∀ p, u'.value p = u.value p := fun p => by rw [EngineLeft.value, EngineLeft.value, hgot]
    have hset : Tab.get [] ((s1.setUnits cl r [u']).clu cl).eleft r = [u'] := by rw [State.setUnits_eleft, if_pos rfl]
    obtain ⟨v, h⟩ := ih hset (hreads.trans hr) (hwrites ▸ hnd.erase l) hL'
    rw [hwork] at h
    refine ⟨v, h.unit, (State.ServesUnits.of_writes hw).trans ((State.servesUnits_setUnits ..).trans h.frame), fun c a k hd => ?_, h.work.trans hwork, h.pieces.trans hpieces,
      h.reads.trans hreads, h.got.trans hgot, fun k => ?_, fun p o i hp ho hi hline => ?_⟩
    · rw [h.spad c a k fun hc line hline => hd hc line (List.mem_cons_of_mem _ hline), State.setUnits_spadRead]
      exact hw.spad c a k fun hc line hline => hd hc line (by rw [List.mem_singleton.mp hline]; exact List.mem_cons_self ..)
    · rw [h.writes, hwrites, hnd.mem_erase_iff, List.mem_cons, not_or]
      tauto
    · rcases List.mem_cons.mp hline with hline | hline
      · have hdisj : ∀ k ∈ L, o + i + 1 ≤ 16 * k ∨ 16 * k + 16 ≤ o + i := fun k hk => by
          have : k ≠ l := fun e => hl (e ▸ hk)
          omega
        rw [h.spad cl (o + i) 1 fun _ => hdisj, State.setUnits_spadRead]
        exact hbyte p o i hp ho hi hline
      · rw [h.written p o i (hpieces.trans hp) ho hi hline, hvalue]

/-- The state once the units of every requester stand in the cluster. -/
theorem State.setAllUnits {s : State} {cl r : Nat} {u : EngineLeft} (hunits : ∀ q, q < 19 → s.engineUnits cl q = if q = r then [u] else []) :
    let t := (s.allUnits cl).foldl (fun s w => s.setUnits cl w.1 w.2) s
    t.now = s.now ∧ t.bytes = s.bytes ∧ (t.clu cl).eptr = (s.clu cl).eptr ∧ ∀ q, q < 19 → Tab.get [] (t.clu cl).eleft q = if q = r then [u] else [] := by
  have hfold : ∀ (l : List Nat) (t : State), t.now = s.now → t.bytes = s.bytes → (t.clu cl).eptr = (s.clu cl).eptr → (∀ q ∈ l, q < 19) →
      (∀ q, q < 19 → q ∉ l → Tab.get [] (t.clu cl).eleft q = if q = r then [u] else []) →
      let v := (l.map fun r => (r, s.engineUnits cl r)).foldl (fun s w => s.setUnits cl w.1 w.2) t
      v.now = s.now ∧ v.bytes = s.bytes ∧ (v.clu cl).eptr = (s.clu cl).eptr ∧ ∀ q, q < 19 → Tab.get [] (v.clu cl).eleft q = if q = r then [u] else [] := by
    intro l
    induction l with
    | nil => exact fun t h1 h2 h3 _ h5 => ⟨h1, h2, h3, fun q hq => h5 q hq (List.not_mem_nil)⟩
    | cons k l ih =>
      intro t h1 h2 h3 h4 h5
      refine ih (t.setUnits cl k (s.engineUnits cl k)) h1 ((State.bytes_setUnits ..).trans h2) ((State.servesUnits_setUnits t cl k _).pointers.trans h3)
        (fun q hq => h4 q (List.mem_cons_of_mem _ hq)) fun q hq hl => ?_
      rw [State.setUnits_eleft]
      by_cases hk : q = k
      · rw [if_pos hk, ← hunits q hq, hk]
      · rw [if_neg hk]
        exact h5 q hq fun h => (List.mem_cons.mp h).elim hk hl
  exact hfold (List.range 19) s rfl rfl rfl (fun q hq => List.mem_range.mp hq) fun q hq hn => absurd (List.mem_range.mpr hq) hn

/-- The pointers of the banks that served move past the requester. -/
theorem get_pointers (L : List Nat) (x : Nat) (t : Tab Nat) (b : Nat) :
    Tab.get 0 (L.foldl (fun t l => Tab.set 0 t (l % 32) x) t) b = if ∃ l ∈ L, l % 32 = b then x else Tab.get 0 t b := by
  induction L generalizing t with
  | nil => simp
  | cons l L ih =>
    rw [List.foldl_cons, ih, Tab.get_set]
    by_cases hL : ∃ k ∈ L, k % 32 = b
    · rw [if_pos hL, if_pos (by obtain ⟨k, hk, hb⟩ := hL; exact ⟨k, List.mem_cons_of_mem _ hk, hb⟩)]
    · rw [if_neg hL]
      by_cases hl : b = l % 32
      · rw [if_pos hl, if_pos ⟨l, List.mem_cons_self .., hl.symm⟩]
      · rw [if_neg hl, if_neg]
        rintro ⟨k, hk, hb⟩
        rcases List.mem_cons.mp hk with rfl | hk
        · exact hl hb.symm
        · exact hL ⟨k, hk, hb⟩

/-- Deliveries that are complete leave the loader's units alone changed. -/
theorem State.deliveries_frame (s : State) (cl : Nat) :
    s.ServesUnits (s.deliveries cl) cl 1 ∧ (s.deliveries cl).bytes = s.bytes ∧ ((s.deliveries cl).clu cl).slotAt = (s.clu cl).slotAt := by
  have hfold : ∀ (l : List EngineLeft) (t : State), s.ServesUnits t cl 1 → t.bytes = s.bytes → (t.clu cl).slotAt = (s.clu cl).slotAt →
      let v := l.foldl (fun s u => match u.work with
        | .credit n => { s.dropUnit cl 1 u.work with credits := s.credits.map fun c => if c.n = n then { c with data := none } else c }
        | _ => s) t
      s.ServesUnits v cl 1 ∧ v.bytes = s.bytes ∧ (v.clu cl).slotAt = (s.clu cl).slotAt := by
    intro l
    induction l with
    | nil => exact fun t h1 h2 h3 => ⟨h1, h2, h3⟩
    | cons u l ih =>
      intro t h1 h2 h3
      rw [List.foldl_cons]
      cases u.work with
      | credit n =>
        have hslot : ((t.dropUnit cl 1 (.credit n)).clu cl).slotAt = (t.clu cl).slotAt := by
          rw [State.dropUnit, State.setUnits, State.modClu_self]
        have hdrop := State.servesUnits_setUnits t cl 1 ((Tab.get [] (t.clu cl).eleft 1).filter fun v => v.work != .credit n)
        refine ih _ (h1.trans ⟨hdrop.now, hdrop.pointers, hdrop.others, hdrop.phys⟩) ((State.bytes_dropUnit t cl 1 (.credit n)).trans h2) (hslot.trans h3)
      | row => exact ih t h1 h2 h3
      | take => exact ih t h1 h2 h3
      | entry => exact ih t h1 h2 h3
  exact hfold _ s (.refl ..) rfl rfl

/-- The state once an engine slot has served lines of the one unit that waits, before deliveries. -/
def State.engineServed (s : State) (cl r : Nat) (u : EngineLeft) : State :=
  (servedLines (s.unitLines cl u)).foldl (State.serveOne cl r u.work) ((s.allUnits cl).foldl (fun s w => s.setUnits cl w.1 w.2) s)

theorem State.exec_engineSlotGrant {s : State} {cl r : Nat} {u : EngineLeft} (hdue : s.slotDue cl 6 = true)
    (hunits : ∀ q, q < 19 → s.engineUnits cl q = if q = r then [u] else []) (hr : r < 19) (hls : s.unitLines cl u ≠ []) :
    exec (.engineSlotGrant cl) s = .next (((s.engineServed cl r u).modClu cl fun c => { c with
      slotAt := s.now + 1, eptr := (servedLines (s.unitLines cl u)).foldl (fun t l => Tab.set 0 t (l % 32) ((r + 1) % 19)) c.eptr }).deliveries cl) := by
  have hserve := State.banksServe_of_one hunits hr
  have hne : ((servedLines (s.unitLines cl u)).map fun l => (l % 32, r, u.work, l)).isEmpty = false := by simp [servedLines_ne_nil hls]
  show execEngineSlotGrant cl s = _
  unfold execEngineSlotGrant
  unfold State.allUnits at hserve
  simp only [hserve, hdue, hne, List.foldl_map, Bool.not_true, Bool.false_eq_true, if_false]
  unfold State.engineServed State.allUnits
  rfl

/-- What a unit's lines served leave, read or written. -/
theorem State.engineServed_shows {s : State} {cl r : Nat} {u : EngineLeft} (hunits : ∀ q, q < 19 → s.engineUnits cl q = if q = r then [u] else []) (hr : r < 19)
    (hreads : u.reads.Nodup) (hwrites : u.writes.Nodup) :
    let t := s.engineServed cl r u
    let L := servedLines (s.unitLines cl u)
    (t.clu cl).eptr = (s.clu cl).eptr ∧ (∀ a n, t.physRead a n = s.physRead a n) ∧ (∀ q, q < 19 → q ≠ r → Tab.get [] (t.clu cl).eleft q = []) ∧
      (∀ c a k, u.reads ≠ [] ∨ c ≠ cl ∨ (∀ l ∈ L, a + k ≤ 16 * l ∨ 16 * l + 16 ≤ a) → t.spadRead c a k = s.spadRead c a k) ∧
      (∀ p o i, u.reads = [] → u.pieces = [p] → p.to_ = some o → i < p.n → (o + i) / 16 ∈ L → t.spadRead cl (o + i) 1 = u.value p / 2 ^ (8 * i) % 256) ∧
      ∃ v, Tab.get [] (t.clu cl).eleft r = [v] ∧ v.work = u.work ∧ v.pieces = u.pieces ∧ (∀ l, l ∈ v.reads ↔ l ∈ u.reads ∧ l ∉ L) ∧
        (∀ l, l ∈ v.writes ↔ l ∈ u.writes ∧ ¬(u.reads = [] ∧ l ∈ L)) ∧ ∀ l, u.reads ≠ [] → l ∈ L → (l, s.spadRead cl (16 * l) 16) ∈ v.got := by
  intro t L
  obtain ⟨-, hbytes, hptr, hleft⟩ := State.setAllUnits hunits
  have hsame := State.sameBytes_of_bytes hbytes
  have ht : t = L.foldl (State.serveOne cl r u.work) ((s.allUnits cl).foldl (fun s w => s.setUnits cl w.1 w.2) s) := rfl
  generalize (s.allUnits cl).foldl (fun s w => s.setUnits cl w.1 w.2) s = s1 at *
  have hone : Tab.get [] (s1.clu cl).eleft r = [u] := by rw [hleft r hr, if_pos rfl]
  have hL : L.Nodup := servedLines_nodup _
  have hmem : ∀ l ∈ L, l ∈ s.unitLines cl u := fun l hl => (bankLine_eq (mem_servedLines.mp hl)).1
  by_cases hempty : u.reads = []
  · obtain ⟨v, h⟩ := State.serve_writes L hone hempty hwrites hL
    rw [← ht] at h
    refine ⟨h.frame.pointers.trans hptr, fun a n => (h.frame.phys a n).trans (hsame a n).1, fun q hq hne => ?_, fun c a k hd => ?_, fun p o i _ => h.written p o i, v, h.unit, h.work,
      h.pieces, fun l => ?_, fun l => ?_, fun l hne => absurd hempty hne⟩
    · rw [h.frame.others q hne, hleft q hq, if_neg hne]
    · rw [h.spad c a k fun hc => (hd.resolve_left fun hh => hh hempty).resolve_left fun hh => hh hc]
      exact (hsame a k).2 c
    · rw [h.reads, hempty]
      simp
    · rw [h.writes]
      simp [hempty]
  · have hlines : s.unitLines cl u = u.reads := by
      rw [State.unitLines, if_neg (by simpa using hempty)]
    obtain ⟨v, h⟩ := State.serve_reads L hone hreads hL fun l hl => hlines ▸ hmem l hl
    rw [← ht] at h
    have hsame' := State.sameBytes_of_bytes h.bytes
    refine ⟨h.frame.pointers.trans hptr, fun a n => (h.frame.phys a n).trans (hsame a n).1, fun q hq hne => ?_, fun c a k _ => ((hsame' a k).2 c).trans ((hsame a k).2 c),
      fun p o i he => absurd he hempty, v, h.unit, h.work, h.pieces, h.reads, fun l => ?_, fun l _ hl => ?_⟩
    · rw [h.frame.others q hne, hleft q hq, if_neg hne]
    · rw [h.writes]
      simp [hempty]
    · rw [← (hsame (16 * l) 16).2 cl]
      exact h.got l hl

/-- The engine slots' clause: the lines that one requester's unit waits for, one in each bank. -/
theorem engineSlot_serves (s : State) (cl r : Nat) (u : EngineLeft) (hdue : s.slotDue cl 6 = true) (hunits : ∀ q, q < 19 → s.engineUnits cl q = if q = r then [u] else [])
    (hr : r < 19) (hreads : u.reads.Nodup) (hwrites : u.writes.Nodup) (hls : s.unitLines cl u ≠ []) :
    let ls := s.unitLines cl u
    let served (l : Nat) : Prop := ls.find? (fun k => k % 32 == l % 32) = some l
    s.does (.engineSlotGrant cl) fun t => (t.clu cl).slotAt = s.now + 1 ∧ (∀ a n, t.physRead a n = s.physRead a n) ∧
      (∀ b < 32, Tab.get 0 (t.clu cl).eptr b = if (ls.any fun l => l % 32 == b) = true then (r + 1) % 19 else Tab.get 0 (s.clu cl).eptr b) ∧
      (∀ c a k, u.reads ≠ [] ∨ c ≠ cl ∨ (∀ l, served l → a + k ≤ 16 * l ∨ 16 * l + 16 ≤ a) → t.spadRead c a k = s.spadRead c a k) ∧
      (∀ p o i, u.reads = [] → u.pieces = [p] → p.to_ = some o → i < p.n → served ((o + i) / 16) → t.spadRead cl (o + i) 1 = u.value p / 2 ^ (8 * i) % 256) ∧
      (r ≠ 1 → ∃ v, Tab.get [] (t.clu cl).eleft r = [v] ∧ v.work = u.work ∧ v.pieces = u.pieces ∧
        (∀ l, l ∈ v.reads ↔ l ∈ u.reads ∧ ¬served l) ∧ (∀ l, l ∈ v.writes ↔ l ∈ u.writes ∧ ¬(u.reads = [] ∧ served l)) ∧
        ∀ l, u.reads ≠ [] → served l → (l, s.spadRead cl (16 * l) 16) ∈ v.got) := by
  intro ls served
  have hserved : ∀ l, l ∈ servedLines (s.unitLines cl u) ↔ served l := fun l => mem_servedLines
  obtain ⟨hptr, hphys, -, hspad, hbyte, v, hunit, hwork, hpieces, hvr, hvw, hgot⟩ := State.engineServed_shows hunits hr hreads hwrites
  simp only [hserved] at hspad hbyte hvr hvw hgot
  refine ⟨_, State.exec_engineSlotGrant hdue hunits hr hls, ?_⟩
  generalize s.engineServed cl r u = t at *
  obtain ⟨hframe, hbytes, hslot⟩ := State.deliveries_frame (t.modClu cl fun c => { c with
    slotAt := s.now + 1, eptr := (servedLines (s.unitLines cl u)).foldl (fun t l => Tab.set 0 t (l % 32) ((r + 1) % 19)) c.eptr }) cl
  have hsame := State.sameBytes_of_bytes (hbytes.trans (State.bytes_modClu _ _ _ rfl))
  refine ⟨?_, fun a n => ((hsame a n).1).trans (hphys a n), fun b _ => ?_, fun c a k hd => ((hsame a k).2 c).trans (hspad c a k hd),
    fun p o i h1 h2 h3 h4 h5 => ((hsame (o + i) 1).2 cl).trans (hbyte p o i h1 h2 h3 h4 h5), fun hne => ⟨v, ?_, hwork, hpieces, hvr, hvw, hgot⟩⟩
  · rw [hslot, State.modClu_self]
  · rw [hframe.pointers, State.modClu_self]
    show Tab.get 0 ((servedLines ls).foldl _ (t.clu cl).eptr) b = _
    rw [get_pointers, hptr, any_bank_iff]
    refine if_congr ?_ rfl rfl
    rw [Option.isSome_iff_exists]
    constructor
    · rintro ⟨l, hl, rfl⟩
      exact ⟨l, mem_servedLines.mp hl⟩
    · rintro ⟨l, hl⟩
      have hb := (bankLine_eq hl).2
      exact ⟨l, mem_servedLines.mpr (by rw [hb]; exact hl), hb⟩
  · rw [hframe.others r hne, State.modClu_self]
    exact hunit

/-! The clauses of the matrix array, one by one. -/

theorem matrixGrant_at_boundary (s : State) (cl : Nat) (hjob : (s.clu cl).arr.job = none) (hat : (s.clu cl).arr.upto ≤ s.now) :
    let a := (s.clu cl).arr
    let h := 4 * cl + a.holder
    (a.due = true → s.does (.matrixGrant cl) fun t => (t.clu cl).arr.job = some (.test none) ∧ (t.clu cl).arr.upto = s.now + 2) ∧
    (∀ f, a.due = false → a.fences.find? (fun f => !f.hard && decide (f.since + 2 ^ 20 ≤ s.now)) = some f → s.does (.matrixGrant cl) fun t =>
      (t.clu cl).arr.job = some (.retest f.n) ∧ (t.clu cl).arr.upto = s.now + 2) ∧
    (∀ p, a.testDue s.now = none → s.interrupted h = false → s.matrixRequest h = some p → (a.run < if a.run = 0 then (s.clu cl).mburst else a.burst) → a.holder < 4 →
      (∀ c x y g h' m, p.i = .mma c x y g h' m → s.does (.matrixGrant cl) fun t => (t.clu cl).arr.job = some (.step h) ∧ (t.clu cl).arr.run = a.run + 1 ∧
        (t.clu cl).arr.cover.isSome = true ∧ (t.clu cl).arr.work + s.now = a.work + (t.clu cl).arr.upto) ∧
      (∀ c, p.i = .mzero c → s.does (.matrixGrant cl) fun t => (∀ r, r < 64 → c = 3 ∨ r / 32 = c.toNat → Tab.get 0 (t.core h).acc r = 0) ∧
        ∀ r, ¬(c = 3 ∨ r / 32 = c.toNat) → r < 64 → Tab.get 0 (t.core h).acc r = Tab.get 0 (s.core h).acc r)) := by
  intro a h
  refine ⟨fun hdue => ?_, fun f hdue hf => ?_, fun p ht hi hp hrun hh => ?_⟩
  · have hd : (s.clu cl).arr.testDue s.now = some (.test none) := by rw [MatArray.testDue, if_pos hdue]
    exact ⟨_, State.exec_matrixGrant_boundary hjob hat, State.boundary_test hd⟩
  · have hd : (s.clu cl).arr.testDue s.now = some (.retest f.n) := by
      rw [MatArray.testDue, if_neg (by simpa using hdue)]
      exact congrArg (Option.map fun f : SubFence => ArrayJob.retest f.n) hf
    exact ⟨_, State.exec_matrixGrant_boundary hjob hat, State.boundary_test hd⟩
  · have hcl : coreCluster h = cl := coreCluster_holder cl a.holder hh
    have hb := State.boundary_holder ht hi hp hrun
    generalize hs1 : (s.modArr cl fun a => { a with run := a.run + 1, burst := if (s.clu cl).arr.run = 0 then (s.clu cl).mburst else (s.clu cl).arr.burst }) = s1 at hb
    have hreq : s1.matrixRequest h = some p := by
      rw [← hs1, ← hp, ← hcl]
      exact State.matrixRequest_modArr s h _ fun _ => rfl
    have harr : (s1.clu cl).arr = { a with run := a.run + 1, burst := if (s.clu cl).arr.run = 0 then (s.clu cl).mburst else (s.clu cl).arr.burst } := by
      rw [← hs1, State.modArr_arr]
    have hcore : s1.core h = s.core h := by rw [← hs1, State.modArr_core]
    refine ⟨fun c x y g h' m hpi => ⟨_, State.exec_matrixGrant_boundary hjob hat, ?_⟩, fun c hpi => ⟨_, State.exec_matrixGrant_boundary hjob hat, ?_⟩⟩
    · have hg := State.grantPort_mma (at_ := s.now) hreq hpi
      rw [hcl, harr] at hg
      rw [hb]
      exact hg
    · rw [hb]
      refine ⟨fun r hr hc => ?_, fun r hc hr => ?_⟩
      · rw [State.grantPort_mzero hreq hpi, State.zeroAcc_acc _ _ _ _ hr, if_pos hc]
      · rw [State.grantPort_mzero hreq hpi, State.zeroAcc_acc _ _ _ _ hr, if_neg hc, hcore]

theorem matrixGrant_moves (s : State) (ci : Nat) (p : PortEntry) (l : List PortEntry) (hjob : (s.clu (coreCluster ci)).arr.job = some (.move ci))
    (hport : (s.core ci).port = p :: l) (hz : ∀ c, p.i ≠ .mzero c) :
    let cl := coreCluster ci
    let ls := slotServes p.left
    (p.left = [] → (s.clu cl).arr.upto ≤ s.now → s.does (.matrixGrant cl) fun t => (t.clu cl).arr.job = none ∧ s.sameBytes t ∧ ∃ q, (t.core ci).port = q :: l ∧ q.done = true) ∧
    (∀ ty n x y, ls ≠ [] → p.i = .mlda ty n x y → s.matrixSlot cl = true → s.does (.matrixGrant cl) fun t => (t.clu cl).slotAt = s.now + 1 ∧ s.sameBytes t ∧
      (t.core ci).port = { p with left := p.left.filter fun k => !ls.contains k } :: l ∧
      ∀ r, r / 32 ≠ n.toNat → Tab.get 0 (t.core ci).acc r = Tab.get 0 (s.core ci).acc r) ∧
    (∀ ty n x y, ls ≠ [] → p.i = .msta ty n x y → s.matrixSlot cl = true → s.linesUndoFull cl ls = false → p.base % accBytes ty = 0 → ctlStride p.ctl % accBytes ty = 0 →
      s.does (.matrixGrant cl) fun t => (t.clu cl).slotAt = s.now + 1 ∧ (t.core ci).acc = (s.core ci).acc ∧
        (t.core ci).port = { p with left := p.left.filter fun k => !ls.contains k } :: l ∧ (∀ a k, t.physRead a k = s.physRead a k) ∧
        ∀ c a k, (c = cl → ∀ line ∈ ls, a + k ≤ 16 * line ∨ 16 * line + 16 ≤ a) → t.spadRead c a k = s.spadRead c a k) := by
  intro cl ls
  have hexec := State.exec_matrixGrant_move hjob hport hz
  refine ⟨fun hleft hat => ?_, fun ty n x y hls hi hslot => ?_, fun ty n x y hls hi hslot hroom hb hs => ?_⟩
  · obtain ⟨h1, h2, h3⟩ := State.portMove_done hport hleft hat
    exact ⟨_, hexec, h1, State.sameBytes_of_bytes h2, h3⟩
  · obtain ⟨hkeep, hbytes, hacc⟩ := State.movedLines_mlda s ci hi
    have hstores : p.stores = false := by rw [PortEntry.stores, hi]
    obtain ⟨h1, h2, h3, h4⟩ := State.portMove_slot_shows hport hls hslot (by rw [hstores]; rfl) hkeep
    exact ⟨_, hexec, h1, State.sameBytes_of_bytes (h4.trans hbytes), h2, fun r hr => by rw [h3]; exact hacc r hr⟩
  · have hw := State.movedLines_msta s ci hi hb hs
    obtain ⟨h1, h2, h3, h4⟩ := State.portMove_slot_shows hport hls hslot (by rw [show s.linesUndoFull (coreCluster ci) (slotServes p.left) = false from hroom, Bool.and_false])
      (congrArg CoreSt.port (hw.core ci))
    have hsame := State.sameBytes_of_bytes h4
    exact ⟨_, hexec, h1, h3.trans (congrArg CoreSt.acc (hw.core ci)), h2, fun a k => ((hsame a k).1).trans (hw.phys a k),
      fun c a k hd => ((hsame a k).2 c).trans (hw.spad c a k hd)⟩

theorem mmaStep_shows (s : State) (ci : Nat) (p : PortEntry) (l : List PortEntry) (c : BitVec 2) (a b : BitVec 4) (g h : BitVec 3) (m : BitVec 5)
    (hjob : (s.clu (coreCluster ci)).arr.job = some (.step ci)) (hat : (s.clu (coreCluster ci)).arr.upto ≤ s.now) (hport : (s.core ci).port = p :: l)
    (hi : p.i = .mma c a b g h m) :
    s.does (.mmaStep ci) fun t => (t.clu (coreCluster ci)).arr.job = none ∧ s.sameBytes t ∧
      (∀ r, r / 32 ≠ c.toNat → Tab.get 0 (t.core ci).acc r = Tab.get 0 (s.core ci).acc r) ∧
      (p.kdone + p.stepLen < shK p.sa → ∃ q, (t.core ci).port = q :: l ∧ q.kdone = p.kdone + p.stepLen ∧ q.pass = p.pass ∧ q.done = false) ∧
      (shK p.sa ≤ p.kdone + p.stepLen → shN p.sb ≤ p.pass * p.cols + p.cols → ∃ q, (t.core ci).port = q :: l ∧ q.done = true) := by
  obtain ⟨hkeep, hacc⟩ := State.mmaWritten_core s ci p c a b m
  have hbytes : (s.mmaWritten ci p c a b m).bytes = s.bytes := State.bytes_modCore ..
  refine ⟨_, State.exec_mmaStep hjob hat hport hi, ?_⟩
  generalize s.mmaWritten ci p c a b m = u at hkeep hacc hbytes
  have hhead : (((u.modPortHead ci p.stepped).modArr (coreCluster ci) fun a => { a with job := none }).core ci).port = p.stepped p :: l := by
    rw [State.modArr_core, State.modPortHead_core (hkeep.trans hport)]
  refine ⟨by rw [State.modArr_arr], State.sameBytes_of_bytes ?_, fun r hr => ?_, fun hmore => ⟨_, hhead, ?_⟩, fun hk hn => ⟨_, hhead, ?_⟩⟩
  · rw [State.bytes_modArr, State.bytes_modPortHead, hbytes]
  · rw [State.modArr_core, State.modPortHead_acc]
    exact hacc r hr
  · have hlast : decide (shK p.sa ≤ p.kdone + p.stepLen) = false := decide_eq_false (Nat.not_le.mpr hmore)
    simp [PortEntry.stepped, PortEntry.endsNow, hlast]
  · have hspan : shN p.sb ≤ (p.span p.cols).2 := Nat.le_min.mpr ⟨hn, le_refl _⟩
    simp [PortEntry.stepped, PortEntry.endsNow, hk, hspan]

theorem portRetire_shows (s : State) (ci : Nat) (p : PortEntry) (l : List PortEntry) (hport : (s.core ci).port = p :: l) (hdone : p.done = true) :
    s.does (.portRetire ci) fun t => (t.core ci).port = l ∧ (t.core ci).acc = (s.core ci).acc ∧ s.sameBytes t ∧
      ((∃ c a b g h m, p.i = .mma c a b g h m) → (t.clu (coreCluster ci)).arr.due = true) := by
  obtain ⟨hp, hacc, hbytes⟩ := State.popsRings_frame ci p.sid p.pops (s.modCore ci fun k => { k with port := l })
  have hretire := State.exec_portRetire hport hdone
  dsimp only at hretire
  rw [State.modCore_self] at hp hacc
  rw [State.bytes_modCore] at hbytes
  generalize (s.modCore ci fun k => { k with port := l }).popsRings ci p.sid p.pops = u at hp hacc hbytes hretire
  rcases hretire with h | ⟨h, hno⟩
  · exact ⟨_, h, hp, hacc, State.sameBytes_of_bytes ((State.bytes_modArr ..).trans hbytes), fun _ => by rw [State.modArr_arr]⟩
  · exact ⟨_, h, hp, hacc, State.sameBytes_of_bytes hbytes, fun hm => absurd hm hno⟩

theorem State.buffersFull_of_undo {s : State} {cl : Nat} (h : 12288 ≤ (s.clu cl).undo.length) : s.buffersFull cl = true := by
  simp [State.buffersFull, Config.undoEntries, h]

theorem State.buffersFull_of_restante {s : State} {cl : Nat} (h : 512 ≤ s.restUsed cl) : s.buffersFull cl = true := by
  simp [State.buffersFull, Config.restanteEntries, h]

/-- A context that waits for a buffer shows that it is full. -/
theorem State.buffersFull_of_waiter {s : State} {cl : Nat} {e : Nat × Ctx} (he : e ∈ s.ctxs) (hcl : slotCluster e.1 = cl) (h : e.2.charge = .undoFull ∨ e.2.charge = .restanteFull) :
    s.buffersFull cl = true := by
  have hany : (s.ctxs.any fun e => slotCluster e.1 == cl && (e.2.charge == .undoFull || e.2.charge == .restanteFull || e.2.pend.any s.bankBlocked)) = true := by
    refine List.any_eq_true.mpr ⟨e, he, ?_⟩
    rcases h with h | h <;> simp [hcl, h]
  simp [State.buffersFull, hany]

theorem selfTestProduct_passes (s : State) (cl : Nat) (who : Option Nat) (f : BitVec 8) (hjob : (s.clu cl).arr.job = some (.test who)) (hat : (s.clu cl).arr.upto ≤ s.now) :
    s.does (.selfTestProduct cl false f) fun t =>
      (t.clu cl).arr.job = none ∧ (t.clu cl).arr.due = false ∧ (t.clu cl).arr.work = 0 ∧ (t.clu cl).arr.cover = none ∧
      ∀ ci p l, who = some ci → (s.core ci).port = p :: l → (t.core ci).port = { p with done := true } :: l := by
  have hexec : exec (.selfTestProduct cl false f) s = execSelfTestProduct cl false f s := rfl
  simp only [execSelfTestProduct, hjob, Nat.not_lt.mpr hat, if_false, Bool.false_eq_true] at hexec
  refine ⟨_, hexec, ?_⟩
  cases who with
  | none =>
    rw [State.modArr_arr]
    exact ⟨rfl, rfl, rfl, rfl, fun _ _ _ h => nomatch h⟩
  | some c =>
    dsimp only
    rw [State.modPortHead_clu, State.modArr_arr]
    refine ⟨rfl, rfl, rfl, rfl, fun ci p l h hport => ?_⟩
    obtain rfl := Option.some.inj h
    rw [State.modPortHead_core (p := p) (l := l) (by rw [State.modArr_core, hport])]

theorem periodicSelfTest_due (s : State) (cl : Nat) (h : 256 ≤ (s.clu cl).arr.work ∨ ((s.clu cl).arr.cover.isSome = true ∧ (12288 ≤ (s.clu cl).undo.length ∨ 512 ≤ s.restUsed cl ∨
      ∃ e ∈ s.ctxs, slotCluster e.1 = cl ∧ (e.2.charge = .undoFull ∨ e.2.charge = .restanteFull)))) :
    s.does (.periodicSelfTestDue cl) fun t => (t.clu cl).arr.due = true := by
  have hexec : exec (.periodicSelfTestDue cl) s = execPeriodicSelfTestDue cl s := rfl
  rw [execPeriodicSelfTestDue] at hexec
  refine ⟨_, hexec, ?_⟩
  dsimp only
  split
  · rw [State.modArr_arr]
  · next hno =>
    have hdue : ¬(s.clu cl).arr.due = false := by
      intro hdue
      rcases h with h | ⟨hcover, hfull⟩
      · exact hno (by simp [h])
      · have hbuf : s.buffersFull cl = true := by
          rcases hfull with h | h | ⟨e, he, hcl, h⟩
          · exact State.buffersFull_of_undo h
          · exact State.buffersFull_of_restante h
          · exact State.buffersFull_of_waiter he hcl h
        exact hno (by simp [hcover, hdue, hbuf])
    exact Bool.eq_true_of_not_eq_false hdue

@[simp] theorem State.recordPart_clu (s : State) (die p : Nat) (r : ErrRec) (cl : Nat) : (s.recordPart die p r).clu cl = s.clu cl := rfl

@[simp] theorem State.recordInfra_clu (s : State) (die : Nat) (r : ErrRec) (cl : Nat) : (s.recordInfra die r).clu cl = s.clu cl := rfl

/-- The array once a sub-array has failed its product: that sub-array is fenced anew, and no other changes. -/
theorem State.fenceSub_arr (s : State) (cl n : Nat) : ((s.fenceSub cl n).clu cl).arr.job = (s.clu cl).arr.job ∧ ∃ hard, ((s.fenceSub cl n).clu cl).arr.fences =
    ((s.clu cl).arr.fences.filter fun f => f.n ≠ n) ++ [{ n := n, hard := hard, since := s.now }] := by
  have h : ((s.fenceSub cl n).clu cl).arr = { (s.clu cl).arr with
      failed := (s.clu cl).arr.failed ||| BitVec.ofNat 8 (2 ^ n)
      fences := ((s.clu cl).arr.fences.filter fun f => f.n ≠ n) ++ [{ n := n, hard := (s.clu cl).arr.failed.getLsbD n, since := s.now }] } := by
    unfold State.fenceSub
    dsimp only
    cases s.partOfCluster cl with
    | some p => rw [State.recordPart_clu, State.modArr_arr]
    | none => rw [State.recordInfra_clu, State.modArr_arr]
  rw [h]
  exact ⟨rfl, _, rfl⟩

theorem subarrayRetest_ends (s : State) (cl : Nat) (n : BitVec 3) (failed : Bool) (hjob : (s.clu cl).arr.job = some (.retest n.toNat)) (hat : (s.clu cl).arr.upto ≤ s.now) :
    s.does (.subarrayRetest cl n failed) fun t =>
      (t.clu cl).arr.job = none ∧ (∀ g ∈ (t.clu cl).arr.fences, g.n = n.toNat → g.hard = false → g.passes < 16) ∧
      ∀ g, g.n ≠ n.toNat → (g ∈ (t.clu cl).arr.fences ↔ g ∈ (s.clu cl).arr.fences) := by
  have hexec : exec (.subarrayRetest cl n failed) s = execSubarrayRetest cl n failed s := rfl
  rw [execSubarrayRetest, if_neg (by simp [hjob, hat])] at hexec
  refine ⟨_, hexec, ?_⟩
  cases failed with
  | true =>
    obtain ⟨hj, hard, hf⟩ := State.fenceSub_arr (s.modArr cl fun a => { a with job := none }) cl n.toNat
    rw [State.modArr_arr] at hj hf
    rw [if_pos rfl, hj, hf]
    refine ⟨rfl, fun g hg hn _ => ?_, fun g hn => ?_⟩
    · rcases List.mem_append.mp hg with hg | hg
      · exact absurd hn (of_decide_eq_true (List.mem_filter.mp hg).2)
      · rw [List.mem_singleton.mp hg]
        show (0 : Nat) < 16
        norm_num
    · rw [List.mem_append, List.mem_filter, List.mem_singleton]
      constructor
      · rintro (⟨hg, -⟩ | rfl)
        · exact hg
        · exact absurd rfl hn
      · exact fun hg => Or.inl ⟨hg, decide_eq_true hn⟩
  | false =>
    rw [if_neg Bool.false_ne_true, State.modArr_arr]
    refine ⟨rfl, fun g hg hn hh => ?_, fun g hn => ?_⟩
    · have := (List.mem_filter.mp hg).2
      simp only [hn, hh, beq_self_eq_true, Bool.not_false, Bool.and_self, Bool.true_and, Bool.not_eq_true', decide_eq_false_iff_not, Nat.not_le] at this
      exact this
    · rw [MatArray.retested, List.mem_filter, List.mem_map]
      constructor
      · rintro ⟨⟨f, hf, hfg⟩, -⟩
        by_cases hfn : f.n = n.toNat
        · rw [if_pos hfn] at hfg
          exact absurd (by rw [← hfg]; exact hfn) hn
        · rw [if_neg hfn] at hfg
          exact hfg ▸ hf
      · exact fun hg => ⟨⟨g, hg, if_neg hn⟩, by simp [hn]⟩

/-- Settles O47: each clause from what its unit does. -/
theorem enginesAndArraysProceed : Obligations.EnginesAndArraysProceed := by
  intro s
  refine ⟨fun cl r u => engineSlot_serves s cl r u, fun cl => matrixGrant_at_boundary s cl, fun ci p l => matrixGrant_moves s ci p l,
    fun ci p l c a b g h m => mmaStep_shows s ci p l c a b g h m, fun ci p l => portRetire_shows s ci p l, fun cl who f hjob hat => selfTestProduct_passes s cl who f hjob hat,
    fun cl => periodicSelfTest_due s cl, fun cl n failed => subarrayRetest_ends s cl n failed⟩

end Sys2Proof.Machine
end


section
/-!
PROOFS. Requests, launches, returning parties, savings and commands for which the statement says more than the model does (R158, R214, R304, R314, R378).
-/

namespace Sys2Proof.Machine

/-! A translation that fails for a load whose task has ended: its context takes no trap (R158, R290). -/

/-- A load of a task that has ended, which waits for its translation. -/
def endedLoad : Req where
  id := 1
  sid := 0
  kind := .load (.x 3) false false
  stage := .translating
  va := 0x10000
  size := 8
  pa := 0
  data := 0
  be := 0
  expect := 0
  pc := 0xFFC
  made := 0
  pid := 0
  part := 0
  mode := false
  serial := 0
  handler := false
  stranded := false
  taints := []
  src := 0
  lid := 0
  ended := true

/-- The leaf of its page, which may not be read. -/
def unreadablePage : Xlat := { part := 0, pid := 0, va := 0x10000, bits := 12, leaf := 0 }

/-- Slot 0 runs; the load that an earlier task of its left asks for the translation of a page that may not be read. -/
def endedLoadState : State := {
  ctxs := [(0, { act := .running, pc := 0x1000, serial := 1 })]
  reqs := [endedLoad]
  stations := [(stationOf (slotCluster 0), [unreadablePage])]
  nextId := 2 }

theorem endedLoadState_forbids :
    leafAllows (endedLoadState.part endedLoad.part) unreadablePage.leaf.toNat unreadablePage.bits endedLoad.access endedLoad.mode = false := by
  have haccess : endedLoad.access = .read := rfl
  have hread : unreadablePage.leaf.toNat.testBit 2 = false := by decide +kernel
  unfold leafAllows
  simp only [haccess, hread, Bool.false_and]

theorem endedLoadState_answers : ∃ t, exec (.translationRequest 0) endedLoadState = .next t ∧ (t.ctx 0).mode = false := by
  refine ⟨_, rfl, ?_⟩
  decide +kernel

/-- Refutes O48: the translation of a load whose task has ended fails, and the load is kept with its fault; the statement has the slot's context trap for it. -/
theorem not_fetchesAndTranslations : ¬ Obligations.FetchesAndTranslations := by
  unfold Obligations.FetchesAndTranslations
  intro h
  obtain ⟨-, -, -, htrans, -⟩ := h endedLoadState
  have hseq : (endedLoadState.core (slotCore 0)).seq = [] := by decide +kernel
  have hstage : ∀ q ∈ endedLoadState.reqs, ∀ k, q.stage ≠ .faulted k := by
    intro q hq k
    rw [List.mem_singleton.mp hq]
    exact nofun
  obtain ⟨-, hfault, -⟩ := htrans 0 endedLoad (by decide +kernel) (by decide +kernel) hstage (by rw [hseq]; exact fun e he => absurd he (List.not_mem_nil))
  have hcached : endedLoadState.cached endedLoad.station endedLoad.part endedLoad.pid endedLoad.va = some unreadablePage := by decide +kernel
  obtain ⟨u, hu, htraps, -⟩ := hfault unreadablePage (by decide +kernel) hcached endedLoadState_forbids rfl (by decide +kernel)
  obtain ⟨-, -, -, hmode, -⟩ := htraps
  obtain ⟨t, ht, hfalse⟩ := endedLoadState_answers
  obtain rfl := Host.Outcome.next.inj (hu.symm.trans ht)
  exact Bool.false_ne_true (hfalse.symm.trans hmode)

/-! A task's own allocation: PRIVSIZE keeps whole lines alone (Table 01-3, R314). -/

/-- A template whose PRIV is no whole number of 64-byte units. -/
def oddPrivTemplate : Template where
  entry := 0x1000
  amend := 0
  gangs := 1
  size := 1
  prio := 0
  steal := false
  dataflow := false
  preload := false
  priv := 1
  lineE := none
  lineA := none

/-- A launch of it by a command. -/
def oddPrivLaunch : Launch where
  part := 0
  lid := 1
  queue := 0
  origin := .command 0
  tix := 0
  gangs := 1
  args := []
  prio := none
  pid := 0
  arrived := 0

theorem oddPriv_starts_with_none : (({} : State).startCtx oddPrivLaunch oddPrivTemplate 0 0 0).privSize = 0 := by decide +kernel

/-- Refutes O54: a task of a template with PRIV = 1 starts with PRIVSIZE = 0, as the low six bits are not kept; the statement has it start with 1. -/
theorem not_launchesArePlacedAndEnd : ¬ Obligations.LaunchesArePlacedAndEnd := by
  unfold Obligations.LaunchesArePlacedAndEnd
  intro h
  obtain ⟨-, -, -, -, -, -, hstart, -⟩ := h.1 {} 0 0
  obtain ⟨-, -, -, -, -, -, -, -, -, -, -, hpriv, -⟩ := hstart oddPrivLaunch oddPrivTemplate 0 0 0 nofun
  exact absurd (oddPriv_starts_with_none.symm.trans hpriv) (by decide +kernel)

/-! A party that comes home to a cluster which the monitor has fenced: it is frozen there (R378). -/

/-- The meeting that the party has left. -/
def leftMeeting : Meeting where
  partner := 9
  place := 0
  inPlace := false
  vmask := 0
  poff := 0
  plen := 0
  parcel := 0
  partnerPlen := 0
  partnerParcel := 0
  hist := []
  xs := Vector.replicate 32 0
  vs := []
  peers := []
  gone := false
  parting := true
  trap := none
  taint := 0

/-- The state that comes home. -/
def returningParty : Ctx := { act := .running, pc := 0x1004, meet := some leftMeeting }

/-- Its luggage, which left visitor slot 8 for slot 0. -/
def returnLuggage : Msg := { id := 1, at_ := 0, body := .luggage 0 returningParty 0 8 }

/-- The party's home is cluster 0, which is fenced; the luggage has come. -/
def fencedHomeState : State := {
  ctxs := [(0, { act := .away })]
  clus := [(0, { fenced := true })]
  net := [returnLuggage]
  nextId := 2 }

theorem fencedHomeState_freezes : ∃ t, exec (.returnLuggageArrival 1) fencedHomeState = .next t ∧ (t.ctx 0).act = .frozen := by
  refine ⟨_, rfl, ?_⟩
  decide +kernel

/-- Refutes O56: a party that comes home to a fenced cluster is frozen there; the statement has it run. -/
theorem not_partiesMeetAndReturn : ¬ Obligations.PartiesMeetAndReturn := by
  unfold Obligations.PartiesMeetAndReturn
  intro h
  obtain ⟨-, -, hreturn, -⟩ := h fencedHomeState 1 returnLuggage
  obtain ⟨u, hu, -, -, -, -, -, hact, -⟩ :=
    hreturn 0 returningParty 0 8 leftMeeting (by decide +kernel) rfl rfl (by decide) (by decide +kernel)
  obtain ⟨t, ht, hfrozen⟩ := fencedHomeState_freezes
  obtain rfl := Host.Outcome.next.inj (hu.symm.trans ht)
  exact absurd (hact.symm.trans hfrozen) (by decide)

/-! A context is not saved while a row of its transfer is under way: the transfer stops between rows alone (R214, R330). -/

/-- A copy whose first row is being served. -/
def rowCopy : Xfer where
  kind := .copy
  xid := 1
  sid := 0
  block := 0x100
  pc := 0
  pid := 0
  part := 0
  mode := false
  priv := 0
  made := 0
  held := false
  stopped := false
  ring := 0
  prog := 0
  result := none
  overrun := none
  serial := 0
  taints := []

/-- The lines of that row which the engine slots are still to serve. -/
def rowUnit : EngineLeft where
  work := .row 0 1 0
  pieces := []
  reads := [0]
  writes := []
  got := []

/-- Slot 0 is held for its saving, with the copy under way. -/
def rowUnderWayState : State := {
  ctxs := [(0, { act := .running, pc := 0x1000, preemptReq := true })]
  cores := [(0, { xfers := [rowCopy] })]
  clus := [(0, { eleft := [(0, [rowUnit])] })] }

theorem rowUnderWayState_waits : ∃ t, exec (.contextSave 0) rowUnderWayState = .next t ∧ (t.core 0).xfers = [rowCopy] := by
  refine ⟨_, rfl, ?_⟩
  decide +kernel

/-- Refutes O57: a transfer of the context whose row is under way goes on; the statement has every one of them stopped. -/
theorem not_contextsWaitAndRecover : ¬ Obligations.ContextsWaitAndRecover := by
  unfold Obligations.ContextsWaitAndRecover
  intro h
  obtain ⟨-, -, -, -, hsave, -⟩ := h rowUnderWayState 0 0
  obtain ⟨hstop, -⟩ := hsave (by decide +kernel) (by decide +kernel) (by decide +kernel) (by decide +kernel)
  have hcore : (rowUnderWayState.core (slotCore 0)).xfers = [rowCopy] := by decide +kernel
  have hgoing : rowUnderWayState.goingXfers 0 = [rowCopy] := by decide +kernel
  have hundo : rowUnderWayState.undoFull (slotCluster 0) (rowCopy.block + 60) 4 = false := by decide +kernel
  obtain ⟨u, hu, hstopped⟩ := hstop ⟨rowCopy, by rw [hcore]; exact List.mem_singleton.mpr rfl, rfl, rfl⟩ (by
    intro x hx _ _
    rw [hgoing, List.mem_singleton] at hx
    rw [hx]
    exact hundo)
  obtain ⟨t, ht, hxfers⟩ := rowUnderWayState_waits
  obtain rfl := Host.Outcome.next.inj (hu.symm.trans ht)
  exact absurd (hstopped rowCopy (by rw [show slotCore 0 = 0 from rfl, hxfers]; exact List.mem_singleton.mpr rfl) rfl) (by decide)

/-! A command whose completion ring is full waits (R304). -/

/-- A BIND_STREAM that unbinds stream 0. -/
def unbindCommand : Cmd where
  n := 0
  w := 2
  at_ := 0
  started := false

/-- The completion ring of queue 0 is full. -/
def fullRingState : State := { queues := [(0, { cmds := [unbindCommand], cqwidx := 16, cqlog2n := 4 })] }

theorem fullRingState_waits : ∃ t, exec (.bindStream 0 0) fullRingState = .next t ∧ (t.queue 0).dones = [] := by
  have hwaits : fullRingState.cmdAt 0 0 2 = none := by decide +kernel
  have hexec : exec (.bindStream 0 0) fullRingState = .next fullRingState := by
    show execBindStream 0 0 fullRingState = _
    unfold execBindStream
    rw [hwaits]
  exact ⟨_, hexec, by decide +kernel⟩

/-- Refutes O58: a BIND_STREAM is not begun while its queue's completion ring is full; the statement has it completed. -/
theorem not_accountsAndStreams : ¬ Obligations.AccountsAndStreams := by
  unfold Obligations.AccountsAndStreams
  intro h
  obtain ⟨-, hstreams⟩ := h
  obtain ⟨hcommands, -⟩ := hstreams fullRingState 0 0
  obtain ⟨-, hunbound, -⟩ := hcommands 0 0 unbindCommand (by decide +kernel) (by decide +kernel) (by decide +kernel) (by decide +kernel)
  obtain ⟨u, hu, hdones, -⟩ := hunbound (by decide +kernel) (by decide +kernel) (by decide +kernel)
  obtain ⟨t, ht, hnone⟩ := fullRingState_waits
  obtain rfl := Host.Outcome.next.inj (hu.symm.trans ht)
  have hnil : (fullRingState.queue 0).dones = [] := by decide +kernel
  rw [hnone, hnil] at hdones
  exact List.cons_ne_nil _ _ hdones.symm

end Sys2Proof.Machine
end


section
/-!
PROOFS. What becomes of requests: release, translation, the home slice, answers and the deferred fault (R117, R118, R325, R326, R361).
-/

namespace Sys2Proof.Machine

/-! Requests in the state (R118, R361). -/

theorem State.req_id {s : State} {id : Nat} {r : Req} (h : s.req id = some r) : r.id = id := by
  simpa using List.find?_some h

theorem State.req_congr {s t : State} (h : t.reqs = s.reqs) (id : Nat) : t.req id = s.req id := by
  unfold State.req
  rw [h]

theorem State.req_none_of {t : State} {id : Nat} (h : ∀ q ∈ t.reqs, q.id ≠ id) : t.req id = none := by
  unfold State.req
  rw [List.find?_eq_none]
  intro q hq
  simpa using h q hq

theorem State.dropReq_none (s : State) (id : Nat) : ∀ q ∈ (s.dropReq id).reqs, q.id ≠ id := by
  intro q hq
  simpa using (List.mem_filter.mp hq).2

@[simp] theorem State.dropReq_req (s : State) (id : Nat) : (s.dropReq id).req id = none := State.req_none_of (s.dropReq_none id)

theorem State.modReq_req {s : State} {id k : Nat} {r : Req} (h : s.req id = some r) (hk : k = id) {f : Req → Req} (hf : ∀ q, (f q).id = q.id) :
    (s.modReq k f).req id = some (f r) := by
  subst hk
  have hkeeps : ((fun q : Req => q.id == k) ∘ fun q => if q.id = k then f q else q) = fun q => q.id == k := by
    funext q
    by_cases hq : q.id = k <;> simp [hq, hf]
  unfold State.req State.modReq
  rw [List.find?_map, hkeeps, show s.reqs.find? (fun q => q.id == k) = some r from h]
  simp [State.req_id h]

/-! What a write of memory leaves as it was (R279, R280). -/

/-- A state that differs from another in its memories alone, and in what goes with an access of them: traces, ports, poison and far copies. -/
def State.Stored (s t : State) : Prop :=
  ∃ mem hostMem traces taken poison farCopies invals nextId,
    t = { s with mem := mem, hostMem := hostMem, traces := traces, taken := taken, poison := poison, farCopies := farCopies, invals := invals, nextId := nextId }

theorem State.Stored.refl (s : State) : s.Stored s := ⟨_, _, _, _, _, _, _, _, rfl⟩

theorem State.Stored.trans {s t u : State} (h : s.Stored t) (g : t.Stored u) : s.Stored u := by
  obtain ⟨m, hm, tr, tk, po, fc, iv, ni, rfl⟩ := h
  obtain ⟨m', hm', tr', tk', po', fc', iv', ni', rfl⟩ := g
  exact ⟨m', hm', tr', tk', po', fc', iv', ni', rfl⟩

theorem State.accept_stored (s : State) (pa : Nat) : s.Stored (s.accept pa) := by
  unfold State.accept
  split
  · exact State.Stored.refl s
  · exact ⟨_, _, _, _, _, _, _, _, rfl⟩

theorem State.physWrite_stored (s : State) (pa n v be : Nat) : s.Stored (s.physWrite pa n v be) := by
  unfold State.physWrite
  split <;> exact ⟨_, _, _, _, _, _, _, _, rfl⟩

theorem State.acceptWrite_stored (s : State) (m : Maker) (pa n be : Nat) : s.Stored (s.acceptWrite m pa n be) := by
  unfold State.acceptWrite
  extract_lets t s1 a s2
  split
  · exact s.accept_stored pa
  · split
    · exact (s.accept_stored pa).trans ⟨_, _, _, _, _, _, _, _, rfl⟩
    · exact (s.accept_stored pa).trans ((s1.physWrite_stored _ _ _ _).trans ⟨_, _, _, _, _, _, _, _, rfl⟩)

theorem State.invalidate_stored (s : State) (by_ : Option (Nat × Nat)) (pa : Nat) : s.Stored (s.invalidate by_ pa) := by
  unfold State.invalidate
  extract_lets hit
  split
  · exact ⟨_, _, _, _, _, _, _, _, rfl⟩
  · next req sid =>
    generalize List.filter hit s.farCopies = l
    induction l generalizing s with
    | nil => exact State.Stored.refl s
    | cons c l ih => exact State.Stored.trans ⟨_, _, _, _, _, _, _, _, rfl⟩ (ih _)

theorem State.sliceStore_stored (s : State) (m : Maker) (by_ : Option (Nat × Nat)) (pa n v be : Nat) : s.Stored (s.sliceStore m by_ pa n v be) := by
  unfold State.sliceStore
  split
  · exact s.physWrite_stored pa n v be
  · have hwrite := (s.acceptWrite_stored m pa n be).trans (State.physWrite_stored _ pa n v be)
    extract_lets s1
    refine State.Stored.trans ?_ (State.invalidate_stored _ by_ pa)
    split
    · exact hwrite.trans ⟨_, _, _, _, _, _, _, _, rfl⟩
    · exact hwrite

theorem State.Stored.reqs {s t : State} (h : s.Stored t) : t.reqs = s.reqs := by
  obtain ⟨_, _, _, _, _, _, _, _, rfl⟩ := h
  rfl

theorem State.Stored.ctxs {s t : State} (h : s.Stored t) : t.ctxs = s.ctxs := by
  obtain ⟨_, _, _, _, _, _, _, _, rfl⟩ := h
  rfl

theorem State.Stored.ctx {s t : State} (h : s.Stored t) (sid : Nat) : t.ctx sid = s.ctx sid := by
  obtain ⟨_, _, _, _, _, _, _, _, rfl⟩ := h
  rfl

/-! The bytes that a write leaves (R113, R120). -/

theorem State.physRead_of_bytes {s t : State} (h : t.bytes = s.bytes) (a n : Nat) : t.physRead a n = s.physRead a n := (State.sameBytes_of_bytes h a n).1

theorem State.physWrite_reads (s : State) (pa n v : Nat) : (s.physWrite pa n v (allBytes n)).physRead pa n = v % 2 ^ (8 * n) := by
  unfold State.physWrite State.physRead
  split
  · exact Memory.readN_writeMasked_all _ _ _ _
  · exact Memory.readN_writeMasked_all _ _ _ _

theorem State.sliceStore_bytes (s : State) (m : Maker) (by_ : Option (Nat × Nat)) (pa n v be : Nat) :
    (s.sliceStore m by_ pa n v be).bytes = (if hostBase ≤ pa then s.physWrite pa n v be else (s.acceptWrite m pa n be).physWrite pa n v be).bytes := by
  unfold State.sliceStore
  by_cases hpa : hostBase ≤ pa
  · rw [if_pos hpa, if_pos hpa]
  · rw [if_neg hpa, if_neg hpa]
    simp

theorem State.sliceStore_reads (s : State) (m : Maker) (by_ : Option (Nat × Nat)) (pa n v : Nat) :
    (s.sliceStore m by_ pa n v (allBytes n)).physRead pa n = v % 2 ^ (8 * n) := by
  rw [State.physRead_of_bytes (s.sliceStore_bytes m by_ pa n v _)]
  split <;> exact State.physWrite_reads _ _ _ _

/-! Release (R118, R120, R361). -/

section Release
variable {s : State} {id : Nat} {r : Req} (hr : s.req id = some r)
include hr

theorem State.does_release_store (hm : s.mayRelease r = true) (hstore : r.isStore = true) :
    s.does (.restanteRelease id) fun t => t.req id = some { r with stage := .released } ∧ s.sameBytes t := by
  refine ⟨s.modReq id fun q => { q with stage := .released }, ?_, State.modReq_req hr rfl fun _ => rfl, State.sameBytes_of_bytes (State.bytes_modReq _ _ _)⟩
  show execRestanteRelease id s = _
  simp [execRestanteRelease, hr, hm, hstore]

theorem State.does_release_leaves (hm : s.mayRelease r = true) (hkind : r.kind = .device ∨ r.kind = .unsub) :
    s.does (.restanteRelease id) fun t => t.req id = some { r with stage := .sent, arr := s.now } ∧ s.sameBytes t := by
  refine ⟨s.modReq id fun q => { q with stage := .sent, arr := s.now }, ?_, State.modReq_req hr rfl fun _ => rfl, State.sameBytes_of_bytes (State.bytes_modReq _ _ _)⟩
  show execRestanteRelease id s = _
  rcases hkind with hk | hk <;> simp [execRestanteRelease, hr, hm, Req.isStore, State.leave, hk, State.req_id hr]

theorem State.does_release_emit {n k : Nat} (hm : s.mayRelease r = true) (hkind : r.kind = .emit n k) :
    s.does (.restanteRelease id) fun t => t.req id = none ∧ s.sameBytes t ∧
      (Tab.get {} t.streams (64 * r.part + n)).inq.length = (Tab.get {} s.streams (64 * r.part + n)).inq.length + 1 := by
  refine ⟨(s.dropReq id).streamIn r.part n (.record k (wordsOf 4 r.data) (some r.lid)), ?_, State.req_none_of (s.dropReq_none id),
    State.sameBytes_of_bytes (State.bytes_dropReq s id), ?_⟩
  · show execRestanteRelease id s = _
    simp [execRestanteRelease, hr, hm, Req.isStore, State.leave, hkind, State.req_id hr]
  · simp [State.streamIn, State.dropReq, Tab.get_set]

end Release

/-! The translation of a released entry (R318, R325, R326). -/

section Translation
variable {s : State} {id : Nat} {r : Req} (hr : s.req id = some r) (hst : r.stage = .released) (hf : s.faultHolds r = false) (ht : s.entryTurn r = true)
include hr hst hf ht

/-- A released entry whose turn it is goes to its slice where it is an atomic, and is else translated. -/
theorem State.exec_releaseTranslation : exec (.releaseTranslationReturn id) s =
    if r.isAtomic then .next (s.entrySent r r.pa)
    else match s.cached r.station r.part r.pid r.va with
      | some x => .next (s.entryDone r x.leaf.toNat x.bits)
      | none => .next (s.miss r .relWalk) := by
  show execReleaseTranslationReturn id s = _
  unfold execReleaseTranslationReturn
  simp only [hr, hst, hf, ht]
  simp <;> rfl

theorem State.does_entry_atomic (ha : r.isAtomic = true) :
    s.does (.releaseTranslationReturn id) fun t => t.req id = some { r with stage := .sent, arr := s.now } ∧ s.sameBytes t := by
  have hkind : (r.kind == ReqKind.storeRelease) = false := by
    unfold Req.isAtomic at ha
    split at ha <;> simp_all
  refine ⟨s.entrySent r r.pa, ?_, ?_, State.sameBytes_of_bytes (State.bytes_modReq _ _ _)⟩
  · rw [State.exec_releaseTranslation hr hst hf ht, if_pos ha]
  · rw [State.entrySent, hkind]
    exact State.modReq_req hr (State.req_id hr) fun _ => rfl

theorem State.does_entry_allowed {x : Xlat} (ha : r.isAtomic = false) (hx : s.cached r.station r.part r.pid r.va = some x)
    (hl : leafAllows (s.part r.part) x.leaf.toNat x.bits .write r.mode = true) : s.does (.releaseTranslationReturn id) fun t => s.sameBytes t ∧
      t.req id = some { r with pa := leafPa x.leaf.toNat x.bits r.va, stage := if r.kind = .storeRelease then .ready else .sent, arr := s.now } := by
  refine ⟨s.entrySent r (leafPa x.leaf.toNat x.bits r.va), ?_, State.sameBytes_of_bytes (State.bytes_modReq _ _ _), ?_⟩
  · rw [State.exec_releaseTranslation hr hst hf ht, ha, if_neg Bool.false_ne_true, hx]
    show Host.Outcome.next (s.entryDone r x.leaf.toNat x.bits) = _
    rw [State.entryDone, if_pos hl]
  · rw [State.entrySent, State.modReq_req hr (State.req_id hr)]
    · simp
    · exact fun _ => rfl

theorem State.does_entry_faults {x : Xlat} (hstore : r.isStore = true) (ha : r.isAtomic = false) (hx : s.cached r.station r.part r.pid r.va = some x)
    (hl : leafAllows (s.part r.part) x.leaf.toNat x.bits .write r.mode = false) (hsid : r.sid < savedBase) : s.does (.releaseTranslationReturn id) fun t =>
      t.req id = none ∧ s.sameBytes t ∧ (t.ctx r.sid).fault.valid = true ∧ (t.ctx r.sid).fault.pending = true ∧ (t.ctx r.sid).fault.pc = r.pc ∧
        (t.ctx r.sid).fault.access = true := by
  let f := r.faultRecord true
  let s1 := (s.dropReq id).modCtx r.sid fun c => { c with fault := f }
  refine ⟨{ s1.strand r.sid with faultLog := s1.faultLog ++ [(r.sid, s.now, f)] }, ?_, State.req_none_of ?_, State.sameBytes_of_bytes ?_, ?_⟩
  · rw [State.exec_releaseTranslation hr hst hf ht, ha, if_neg Bool.false_ne_true, hx]
    show Host.Outcome.next (s.entryDone r x.leaf.toNat x.bits) = _
    rw [State.entryDone, hl, if_neg Bool.false_ne_true, State.entryFault]
    have hholder : ∀ g, (s.dropReq r.id).modHolder r.sid g = (s.dropReq id).modCtx r.sid g := fun g => by
      rw [State.modHolder, if_pos hsid, State.req_id hr]
    obtain ⟨k, hk⟩ : ∃ k, r.kind = k := ⟨_, rfl⟩
    rw [Req.isStore, hk] at hstore
    rw [hk]
    cases k
    case streamOut => exact absurd hstore Bool.false_ne_true
    all_goals
      dsimp only
      rw [hholder]
      rfl
  · intro q hq
    obtain ⟨o, ho, rfl⟩ := List.mem_map.mp hq
    have hne := s.dropReq_none id o ho
    split
    · exact hne
    · exact hne
  · exact State.bytes_dropReq s id
  · have hfault : (s1.ctx r.sid).fault = f := by rw [State.modCtx_self]
    show (s1.ctx r.sid).fault.valid = true ∧ (s1.ctx r.sid).fault.pending = true ∧ (s1.ctx r.sid).fault.pc = r.pc ∧ (s1.ctx r.sid).fault.access = true
    rw [hfault]
    exact ⟨rfl, rfl, rfl, rfl⟩

theorem State.does_entry_misses (ha : r.isAtomic = false) (hx : s.cached r.station r.part r.pid r.va = none) :
    s.does (.releaseTranslationReturn id) fun t => s.sameBytes t ∧
      t.req id = some (if s.walkRoom r = true then { r with stage := .relWalk } else { r with arr := s.missAt r }) := by
  refine ⟨s.miss r .relWalk, ?_, State.sameBytes_of_bytes ?_, ?_⟩
  · rw [State.exec_releaseTranslation hr hst hf ht, ha, if_neg Bool.false_ne_true, hx]
  · unfold State.miss
    split <;> rfl
  · unfold State.miss
    split
    · exact State.modReq_req hr (State.req_id hr) fun _ => rfl
    · exact State.modReq_req hr (State.req_id hr) fun _ => rfl

end Translation

theorem State.does_release_sent {s : State} {id : Nat} {r : Req} (hr : s.req id = some r) (hst : r.stage = .ready) (hk : r.kind = .storeRelease)
    (hready : s.releaseReady r = true) :
    s.does (.releaseTranslationReturn id) fun t => t.req id = some { r with stage := .sent, arr := s.now } ∧ s.sameBytes t := by
  refine ⟨s.modReq id fun q => { q with stage := .sent, arr := s.now }, ?_, State.modReq_req hr rfl fun _ => rfl, State.sameBytes_of_bytes (State.bytes_modReq _ _ _)⟩
  show execReleaseTranslationReturn id s = _
  simp [execReleaseTranslationReturn, hr, hst, hk, hready]

/-! At the home slice, and the way back (R117, R118, R123, R126, R127, R284). -/

/-- What a performed request is, whatever becomes of its partition. -/
theorem State.performed_req {s : State} {id : Nat} {r q : Req} (hr : s.req id = some r) (hstore : q.isStore = true) (hid : q.id = id) (v : Nat) :
    (s.performed q v).req id = some { r with stage := .performed, data := if q.isAtomic then v else r.data } := by
  have hmod : (s.modReq q.id fun p => { p with stage := .performed, data := if q.isStore && !q.isAtomic then p.data else v }).req id =
      some { r with stage := .performed, data := if q.isAtomic then v else r.data } := by
    rw [State.modReq_req hr hid]
    · cases ha : q.isAtomic <;> simp [hstore]
    · exact fun _ => rfl
  obtain ⟨k, hk⟩ : ∃ k, q.kind = k := ⟨_, rfl⟩
  unfold State.performed
  rw [Req.isStore, hk] at hstore
  rw [hk]
  cases k
  case save => exact absurd hstore Bool.false_ne_true
  case streamOut => exact absurd hstore Bool.false_ne_true
  all_goals
    dsimp only
    split
    · exact hmod
    · exact hmod

theorem State.performed_bytes {s : State} {q : Req} (hstore : q.isStore = true) (v : Nat) : (s.performed q v).bytes = s.bytes := by
  obtain ⟨k, hk⟩ : ∃ k, q.kind = k := ⟨_, rfl⟩
  unfold State.performed
  rw [Req.isStore, hk] at hstore
  rw [hk]
  cases k
  case save => exact absurd hstore Bool.false_ne_true
  case streamOut => exact absurd hstore Bool.false_ne_true
  all_goals
    dsimp only
    split <;> rfl

theorem Req.isStore_of_store {r : Req} (hk : r.kind = .store ∨ r.kind = .storeRelease) : r.isStore = true ∧ r.isAtomic = false := by
  unfold Req.isStore Req.isAtomic
  rcases hk with hk | hk <;> rw [hk] <;> exact ⟨rfl, rfl⟩

/-- A scalar store at its home writes its bytes. -/
theorem State.performAt_store {r : Req} (s : State) (hk : r.kind = .store ∨ r.kind = .storeRelease) :
    s.performAt r = (s.sliceStore (makerCtx 0 r.src) (some (r.id, r.sid)) r.pa r.size r.data r.be, 0) := by
  obtain ⟨hstore, hatomic⟩ := Req.isStore_of_store hk
  unfold State.performAt
  rw [hstore, hatomic]
  rcases hk with hk | hk <;> simp [hk]

theorem State.does_slice_store {s : State} {id : Nat} {r : Req} (hr : s.req id = some r) (hst : r.stage = .sent) (hcross : s.crossing id = false)
    (hold : s.orderHolds r = false) (hhost : r.isHost = false) (hk : r.kind = .store ∨ r.kind = .storeRelease) (hdie : homeDie r.pa = clusterDie (slotCluster r.src))
    (htakes : s.takes r = true) (hbe : r.be = allBytes r.size) : s.does (.sliceRequestAccept id) fun t =>
      t.req id = some { r with stage := .performed } ∧ t.physRead r.pa r.size = r.data % 2 ^ (8 * r.size) := by
  obtain ⟨hstore, hatomic⟩ := Req.isStore_of_store hk
  have hconsumes : r.consumes = false := by
    unfold Req.consumes Req.isAtomic Req.isLoad Req.isVload
    rcases hk with hk | hk <;> rw [hk] <;> rfl
  have hfar : s.fromFarCopy r = false := by
    unfold State.fromFarCopy Req.isLoad Req.isVload
    rcases hk with hk | hk <;> rw [hk] <;> rfl
  have hexec : exec (.sliceRequestAccept id) s = .next ((s.performAt r).1.performed r (s.performAt r).2) := by
    show execSliceRequestAccept id s = _
    unfold execSliceRequestAccept State.performHome
    rcases hk with hk | hk <;> simp [hr, hst, hcross, hold, hhost, hfar, hdie, htakes, hk, hconsumes]
  refine ⟨_, hexec, ?_⟩
  rw [State.performAt_store s hk]
  constructor
  · rw [State.performed_req ((State.req_congr (State.sliceStore_stored s _ _ _ _ _ _).reqs id).trans hr) hstore (State.req_id hr), hatomic]
    rfl
  · rw [State.physRead_of_bytes (State.performed_bytes hstore _), hbe]
    exact State.sliceStore_reads _ _ _ _ _ _

theorem extend_eq_loadValue_mod (sg : Bool) (n v : Nat) : extend sg n v = loadValue sg n (v % 2 ^ (8 * n)) := by
  have hmod : extend sg n v = extend sg n (v % 2 ^ (8 * n)) := by
    unfold extend
    rw [Nat.mod_mod]
  rw [hmod, extend_eq_loadValue sg n _ (Nat.mod_lt _ (Nat.two_pow_pos _))]

theorem State.deliverAt_now_getsX (s : State) (sid ser : Nat) (n : BitVec 5) (v : Word) : (s.ctx sid).getsX ((s.deliverAt sid ser s.now (.x n) v).ctx sid) n v := by
  intro m
  rw [State.deliverAt, State.modCtx_self, if_pos (Nat.le_refl _)]
  exact Ctx.wxAt_rx ..

theorem State.does_atomic_answer {s : State} {id : Nat} {r : Req} (hr : s.req id = some r) (hst : r.stage = .performed) (hcross : s.crossing id = false)
    (hended : r.ended = false) (hinv : s.invalidating id = false) {d : BitVec 5} (hk : r.kind = .cas d ∨ ∃ op, r.kind = .amo op d) :
    s.does (.atomicAnswerReturn id) fun t => t.req id = none ∧ s.sameBytes t ∧ (s.ctx r.sid).getsX (t.ctx r.sid) d (loadValue true r.size (r.data % 2 ^ (8 * r.size))) := by
  let v := extend true r.size r.data
  let u := s.deliverAt r.sid r.serial s.now (.x d) v
  have hexec : exec (.atomicAnswerReturn id) s = .next (State.dropReq { u with answers := u.answers ++ [(id, v, u.now)] } id) := by
    have hkeeps : State.invalidating { u with answers := u.answers ++ [(id, v, u.now)] } id = false := hinv
    have hgoes : (decide (r.stage ≠ .performed) || s.crossing id) = false := by rw [hst, hcross]; rfl
    show execAtomicAnswerReturn id s = _
    unfold execAtomicAnswerReturn
    rw [hr]
    dsimp only
    rw [hgoes, if_neg Bool.false_ne_true, hended]
    rcases hk with hk | ⟨op, hk⟩
    · rw [hk]
      exact congrArg Host.Outcome.next (if_neg (ne_true_of_eq_false hkeeps))
    · rw [hk]
      exact congrArg Host.Outcome.next (if_neg (ne_true_of_eq_false hkeeps))
  refine ⟨_, hexec, State.dropReq_req _ id, State.sameBytes_of_bytes (State.bytes_deliverAt s r.sid r.serial s.now (.x d) v), ?_⟩
  rw [← extend_eq_loadValue_mod]
  exact s.deliverAt_now_getsX r.sid r.serial d v

theorem State.does_store_acknowledge {s : State} {id : Nat} {r : Req} (hr : s.req id = some r) (hst : r.stage = .performed) (hplain : r.isPlainStore = true)
    (hhost : r.isHost = false) (hinv : s.invalidating id = false) (hcross : s.crossing id = false) :
    s.does (.storeAcknowledge id) fun t => t.req id = none ∧ s.sameBytes t := by
  refine ⟨s.dropReq id, ?_, State.dropReq_req s id, State.sameBytes_of_bytes (State.bytes_dropReq s id)⟩
  show execStoreAcknowledge id s = _
  simp [execStoreAcknowledge, hr, hst, hplain, hhost, hinv, hcross]

section HostWindow
variable {s : State} {id : Nat} {r : Req} (hr : s.req id = some r) (hst : r.stage = .sent) (hhost : r.isHost = true)
  (hearlier : ∀ q ∈ s.earlier r, q.stranded = false → q.isStore = true → q.isHost = true → q.stage = .performed)
include hr hst hhost hearlier

/-- A write of the host window whose turn it is: nothing of its context before it is still to be performed there. -/
theorem State.exec_hostWindowWriteAck (hstore : r.isStore = true) : exec (.hostWindowWriteAck id) s =
    .next (if r.isAtomic then s.performHome r else (s.performAt r).1.dropReq id) := by
  have hnone : (s.earlier r).any (fun q => q.isStore && q.isHost && q.stage != .performed && !q.stranded) = false := by
    rw [List.any_eq_false]
    intro q hq
    have himp := hearlier q hq
    cases h1 : q.isStore <;> cases h2 : q.isHost <;> cases h3 : q.stranded <;> simp_all
  show execHostWindowWriteAck id s = _
  unfold execHostWindowWriteAck
  simp only [hr, hst, hhost, hstore, hnone]
  rfl

theorem State.does_host_store (hk : r.kind = .store) (hbe : r.be = allBytes r.size) :
    s.does (.hostWindowWriteAck id) fun t => t.req id = none ∧ t.physRead r.pa r.size = r.data % 2 ^ (8 * r.size) := by
  obtain ⟨hstore, hatomic⟩ := Req.isStore_of_store (.inl hk)
  refine ⟨(s.performAt r).1.dropReq id, ?_, State.dropReq_req _ id, ?_⟩
  · rw [State.exec_hostWindowWriteAck hr hst hhost hearlier hstore, hatomic]
    rfl
  · rw [State.physRead_of_bytes (State.bytes_dropReq _ id), State.performAt_store s (.inl hk), hbe]
    exact State.sliceStore_reads _ _ _ _ _ _

theorem State.does_host_amo {op : AmoOp} {d : BitVec 5} (hk : r.kind = .amo op d) :
    s.does (.hostWindowWriteAck id) fun t => t.req id = some { r with stage := .performed, data := s.physRead r.pa r.size } ∧
      t.physRead r.pa r.size = op.apply r.size (s.physRead r.pa r.size) r.data % 2 ^ (8 * r.size) := by
  have hstore : r.isStore = true := by rw [Req.isStore, hk]
  have hatomic : r.isAtomic = true := by rw [Req.isAtomic, hk]
  have hpoison : s.poisonIn r.pa r.size = none := by
    rw [State.poisonIn, if_pos (of_decide_eq_true hhost)]
  have hperform : s.performHome r = (s.performAt r).1.performed r (s.performAt r).2 := by
    unfold State.performHome
    rw [hpoison, ite_self]
  have hat : s.performAt r = (s.sliceStore (makerCtx 1 r.src) (some (r.id, r.sid)) r.pa r.size (op.apply r.size (s.physRead r.pa r.size) r.data) (allBytes r.size),
      s.physRead r.pa r.size) := by
    unfold State.performAt
    simp [hstore, hatomic, hk]
  refine ⟨s.performHome r, ?_, ?_⟩
  · rw [State.exec_hostWindowWriteAck hr hst hhost hearlier hstore, if_pos hatomic]
  · rw [hperform, hat]
    constructor
    · rw [State.performed_req ((State.req_congr (State.sliceStore_stored s _ _ _ _ _ _).reqs id).trans hr) hstore (State.req_id hr), hatomic]
      rfl
    · rw [State.physRead_of_bytes (State.performed_bytes hstore _)]
      exact State.sliceStore_reads _ _ _ _ _ _

end HostWindow

theorem State.does_load_return {s : State} {id sid : Nat} {r : Req} (hr : s.req id = some r) (hback : s.loadBack sid = some r) {n : BitVec 5} {sg acq : Bool}
    (hk : r.kind = .load (.x n) sg acq) : s.does (.globalLoadReturn sid) fun t => t.req id = none ∧ s.sameBytes t ∧
      (s.ctx sid).getsX (t.ctx sid) n (loadValue sg r.size (r.data % 2 ^ (8 * r.size))) := by
  let v := extend sg r.size r.data
  let u := (s.dropReq id).deliverAt sid r.serial s.now (.x n) v
  refine ⟨u.modCtx sid fun c => if acq then c.acquireEnds s.now s.now else c, ?_, State.req_none_of (s.dropReq_none id), State.sameBytes_of_bytes ?_, ?_⟩
  · show execGlobalLoadReturn sid s = _
    unfold execGlobalLoadReturn
    rw [hback]
    dsimp only
    rw [hk, State.req_id hr]
  · exact State.bytes_deliverAt (s.dropReq id) sid r.serial s.now (.x n) v
  · intro m
    rw [State.modCtx_self, ← extend_eq_loadValue_mod]
    have hgets := (s.dropReq id).deliverAt_now_getsX sid r.serial n v m
    cases acq with
    | false => exact hgets
    | true =>
      obtain ⟨l, k, hends⟩ := Ctx.acquireEnds_eq (u.ctx sid) s.now s.now
      rw [if_pos rfl, hends]
      exact hgets

theorem State.does_far_invalidation {s : State} {n : Nat} {v : Inval} (hv : s.invals.find? (fun v => v.n == n) = some v) :
    s.does (.farCopyInvalidation n) fun t => (∀ w ∈ t.invals, w.n ≠ n) ∧ (∀ c ∈ t.farCopies, ¬(c.die = v.die ∧ c.line = v.line)) ∧ s.sameBytes t := by
  refine ⟨{ s with
      farCopies := s.farCopies.filter fun c => !(c.die == v.die && c.line == v.line)
      invals := s.invals.filter fun w => w.n ≠ n }, ?_, fun w hw => ?_, fun c hc => ?_, State.sameBytes_of_bytes rfl⟩
  · show execFarCopyInvalidation n s = _
    simp [execFarCopyInvalidation, hv]
  · simpa using (List.mem_filter.mp hw).2
  · have hkept := (List.mem_filter.mp hc).2
    rintro ⟨hdie, hline⟩
    simp [hdie, hline] at hkept

theorem State.does_marker_return {s : State} {sid m : Nat} (h : ∀ k ∈ (s.ctx sid).markers, k.1 = m → ∀ v ∈ s.invals, v.n ∉ k.2) :
    s.does (.scMarkerReturn sid m) fun t => (∀ k ∈ (t.ctx sid).markers, k.1 ≠ m) ∧ s.sameBytes t := by
  refine ⟨_, rfl, fun k hk hkm => ?_, State.sameBytes_of_bytes (State.bytes_modCtx _ _ _)⟩
  rw [State.modCtx_self] at hk
  obtain ⟨hmem, hkept⟩ := List.mem_filter.mp hk
  have hwaits : s.invals.any (fun v => k.2.contains v.n) = true := by simpa [hkm] using hkept
  obtain ⟨v, hv, hin⟩ := List.any_eq_true.mp hwaits
  exact h k hmem hkm v hv (by simpa using hin)

/-! The deferred fault's trap (R325). -/

theorem State.does_deferred_trap {s : State} {sid : Nat} (hpend : (s.ctx sid).fault.pending = true) (hsave : (s.ctx sid).heldForSave = false)
    (hmode : (s.ctx sid).mode = false) (hreplay : (s.ctx sid).replay = none) (hcap : (s.ctx sid).cap = none) (hbound : (s.ctx sid).atBoundary = true)
    (hmeet : (s.ctx sid).inmeet = false) (hblock : s.trapBlock sid = none) :
    s.does (.deferredTrap sid) fun t => (t.ctx sid).pc = (s.ctx sid).tvec ∧ (t.ctx sid).act = .running ∧ (t.ctx sid).mode = true ∧ (t.ctx sid).epc = (s.ctx sid).pc &&& ~~~3 ∧
      (t.ctx sid).tval = (s.ctx sid).fault.va ∧ (t.ctx sid).cause = 0x8000000000000000 ||| (if (s.ctx sid).fault.access = true then 6 else 5) ∧
      (t.ctx sid).fault.pending = false ∧ s.sameBytes t := by
  let u := s.modCtx sid fun c => { c with act := .running, fault := { c.fault with pending := false } }
  let e := u.trapAs sid false true (if (s.ctx sid).fault.access then .accessFault else .translationFault) (s.ctx sid).fault.va (s.ctx sid).pc
  have hu : u.ctx sid = { s.ctx sid with act := .running, fault := { (s.ctx sid).fault with pending := false } } := State.modCtx_self s sid _
  have hublock : u.trapBlock sid = none :=
    State.trapBlock_congr (s := s) (by rw [hu]) rfl (by rw [hu]; exact hmeet) hblock
  have hexec : exec (.deferredTrap sid) s = .next (e.strand sid) := by
    show execDeferredTrap sid s = _
    unfold execDeferredTrap
    simp only [hpend, hsave, hmode, hreplay, hcap, hbound, hblock, hmeet]
    rfl
  have he : e.ctx sid = { (u.ctx sid).trapEnter true (if (s.ctx sid).fault.access then .accessFault else .translationFault) (s.ctx sid).fault.va (s.ctx sid).pc with
      charge := .issue, lastIssue := (u.ctx sid).lastIssue, pause := some (.redirect, u.redirectEnd sid false) } := by
    show (u.trapAs ..).ctx sid = _
    rw [State.trapAs_enters u sid false true _ _ _ hublock (by rw [hu]; exact hmeet), State.modCtx_self]
    rfl
  refine ⟨_, hexec, ?_⟩
  have hctx : (e.strand sid).ctx sid = e.ctx sid := rfl
  dsimp only
  rw [hctx, he, hu]
  refine ⟨rfl, rfl, rfl, rfl, rfl, ?_, rfl, State.sameBytes_of_bytes (State.bytes_trapAs u sid false true _ _ _)⟩
  cases (s.ctx sid).fault.access <;> rfl

/-- Settles O49: each event by what the model makes of the request at that stage. -/
theorem requestsRunTheirCourse : Obligations.RequestsRunTheirCourse := by
  unfold Obligations.RequestsRunTheirCourse
  intro s id r hr
  refine ⟨fun hm => ⟨State.does_release_store hr hm, State.does_release_leaves hr hm, fun n k => State.does_release_emit hr hm⟩,
    fun hst hf hstore hturn => ⟨State.does_entry_atomic hr hst hf hturn,
      fun x ha hx => ⟨State.does_entry_allowed hr hst hf hturn ha hx, State.does_entry_faults hr hst hf hturn hstore ha hx⟩,
      State.does_entry_misses hr hst hf hturn⟩,
    State.does_release_sent hr,
    State.does_slice_store hr,
    fun hst hcross hended hinv d => State.does_atomic_answer hr hst hcross hended hinv,
    State.does_store_acknowledge hr,
    fun hst hhost hearlier => ⟨State.does_host_store hr hst hhost hearlier, fun op d => State.does_host_amo hr hst hhost hearlier⟩,
    fun n sg acq hback => State.does_load_return hr hback,
    fun n v => State.does_far_invalidation,
    fun sid m => State.does_marker_return,
    fun sid => State.does_deferred_trap⟩

end Sys2Proof.Machine
end


section
/-!
PROOFS. Errors, package resets, the stages of the start, and the accesses of the host and the monitor (R240, R279, R322, R371 to R390).
-/

namespace Sys2Proof.Machine

/-! Error records (R371 to R375): what a record adds to the counters of its bank. -/

/-- The three counters of a bank. -/
def ErrBank.counts (b : ErrBank) : Nat × Nat × Nat := (b.cntC, b.cntD, b.cntU)

/-- The counters once an error of a class is counted. -/
def countsAfter (cls : Nat) (n : Nat × Nat × Nat) : Nat × Nat × Nat :=
  if cls = 1 then ((n.1 + 1) % 2 ^ 32, n.2.1, n.2.2) else if cls = 2 then (n.1, (n.2.1 + 1) % 2 ^ 32, n.2.2) else (n.1, n.2.1, (n.2.2 + 1) % 2 ^ 32)

theorem ErrBank.count_counts (b : ErrBank) (cls : Nat) : (b.count cls).counts = countsAfter cls b.counts := by
  unfold ErrBank.count countsAfter
  split
  · rfl
  · rfl
  · next h1 h2 => rw [if_neg h1, if_neg h2]; rfl

theorem ErrBank.lose_counts (b : ErrBank) (cls : Nat) : (b.lose cls).counts = b.counts := by
  unfold ErrBank.lose
  split <;> rfl

theorem ErrBank.place_counts (b : ErrBank) (size : Nat) (r : ErrRec) : (b.place size r).counts = countsAfter r.cls b.counts := by
  rw [← ErrBank.count_counts]
  unfold ErrBank.place
  extract_lets c held low
  split
  · rfl
  · split
    · split
      · exact ErrBank.lose_counts _ _
      · rfl
    · split
      · exact ErrBank.lose_counts _ _
      · exact ErrBank.lose_counts _ _

/-- The counters of a bank of the package. -/
def State.counts (s : State) (b : Nat) : Nat × Nat × Nat := (Tab.get {} s.banks b).counts

theorem State.record_counts (s : State) (b j : Nat) (r : ErrRec) : (s.record b r).counts j = if j = b then countsAfter r.cls (s.counts b) else s.counts j := by
  unfold State.counts State.record
  rw [Tab.get_set]
  split
  · exact ErrBank.place_counts _ _ _
  · rfl

theorem State.recordParts_other {die j : Nat} {r : ErrRec} (ps : List Nat) (s : State) (h : ∀ p ∈ ps, partBank die p ≠ j) :
    (ps.foldl (fun s p => s.recordPart die p r) s).counts j = s.counts j := by
  induction ps generalizing s with
  | nil => rfl
  | cons p ps ih =>
    rw [List.foldl_cons, ih _ fun q hq => h q (List.mem_cons_of_mem _ hq), State.recordPart, State.record_counts, if_neg (h p List.mem_cons_self).symm]

theorem State.recordParts_one {die p : Nat} {r : ErrRec} (ps : List Nat) (s : State) (hnodup : ps.Nodup) (hp : p ∈ ps) :
    (ps.foldl (fun s p => s.recordPart die p r) s).counts (partBank die p) = countsAfter r.cls (s.counts (partBank die p)) := by
  induction ps generalizing s with
  | nil => exact absurd hp List.not_mem_nil
  | cons q ps ih =>
    obtain ⟨hq, hrest⟩ := List.nodup_cons.mp hnodup
    rw [List.foldl_cons]
    rcases List.mem_cons.mp hp with rfl | hmem
    · rw [State.recordParts_other ps _ fun x hx => ?_, State.recordPart, State.record_counts, if_pos rfl]
      intro heq
      exact hq ((Nat.add_left_cancel heq : x = p) ▸ hx)
    · have hne : partBank die p ≠ partBank die q := fun heq => hq ((Nat.add_left_cancel heq : p = q) ▸ hmem)
      rw [ih _ hrest hmem, State.recordPart, State.record_counts, if_neg hne]

theorem partBank_ne_infraBank {die p k : Nat} (hdie : die < 2) (hp : p < 32) : partBank die p ≠ infraBank k := by
  unfold partBank infraBank
  omega

/-- A shared record counts once in its die's bank, and once in the bank there of each partition that it names. -/
theorem State.recordShared_counts {die : Nat} {ps : List Nat} {r : ErrRec} (s : State) (hdie : die < 2) (hps : ∀ p ∈ ps, p < 32) :
    (s.recordShared die ps r).counts (64 + die) = countsAfter r.cls (s.counts (64 + die)) ∧
      (ps.Nodup → ∀ p ∈ ps, (s.recordShared die ps r).counts (32 * die + p) = countsAfter r.cls (s.counts (32 * die + p))) := by
  unfold State.recordShared State.recordInfra
  constructor
  · have hother := State.recordParts_other (r := r) ps s fun p hp => partBank_ne_infraBank (k := die) hdie (hps p hp)
    rw [State.record_counts, if_pos (show 64 + die = infraBank die from rfl), hother]
    rfl
  · intro hnodup p hp
    have hne : 32 * die + p ≠ infraBank die := partBank_ne_infraBank hdie (hps p hp)
    rw [State.record_counts, if_neg hne]
    exact State.recordParts_one ps s hnodup hp

theorem State.recordShared_bytes (s : State) (die : Nat) (ps : List Nat) (r : ErrRec) : (s.recordShared die ps r).bytes = s.bytes := by
  have hparts : (ps.foldl (fun s p => s.recordPart die p r) s).bytes = s.bytes := State.bytes_foldl _ _ _ fun _ _ => rfl
  exact hparts

theorem State.cntC_of_counts {s t : State} {b : Nat} {r : ErrRec} (hcls : r.cls = 1) (h : t.counts b = countsAfter r.cls (s.counts b)) :
    (Tab.get {} t.banks b).cntC = ((Tab.get {} s.banks b).cntC + 1) % 2 ^ 32 := by
  rw [hcls] at h
  exact congrArg Prod.fst h

theorem State.cntD_of_counts {s t : State} {b : Nat} {r : ErrRec} (hcls : r.cls = 2) (h : t.counts b = countsAfter r.cls (s.counts b)) :
    (Tab.get {} t.banks b).cntD = ((Tab.get {} s.banks b).cntD + 1) % 2 ^ 32 := by
  rw [hcls] at h
  exact congrArg (fun n => n.2.1) h

theorem State.cntU_of_counts {s t : State} {b : Nat} {r : ErrRec} (hcls : r.cls = 3) (h : t.counts b = countsAfter r.cls (s.counts b)) :
    (Tab.get {} t.banks b).cntU = ((Tab.get {} s.banks b).cntU + 1) % 2 ^ 32 := by
  rw [hcls] at h
  exact congrArg (fun n => n.2.2) h

theorem homeDie_lt (a : Nat) : homeDie a < 2 := Nat.mod_lt _ (by decide)

theorem State.grantedTo_lt {s : State} {a : Nat} : ∀ p ∈ s.grantedTo a, p < 32 := fun _ hp => List.mem_range.mp (List.mem_filter.mp hp).1

theorem State.partsAt_lt {s : State} {k : Nat} : ∀ p ∈ s.partsAt k, p < 32 := fun _ hp => List.mem_range.mp (List.mem_filter.mp hp).1

theorem State.does_hbm_uncorrected (s : State) (a : Nat) (syn : Word) : s.does (.hbmEccError a false syn) fun t =>
    lineOf a ∈ t.poison ∧ (Tab.get {} t.banks (64 + homeDie a)).cntD = ((Tab.get {} s.banks (64 + homeDie a)).cntD + 1) % 2 ^ 32 ∧ s.sameBytes t := by
  let r : ErrRec := { cls := 2, engine := 12, code := codeHbmPoison, akind := 2, addr := a, syndrome := syn.toNat, time := s.now }
  let u := s.recordShared (homeDie a) (s.grantedTo a) r
  have hexec : exec (.hbmEccError a false syn) s = .next (if u.poison.contains (lineOf a) then u else { u with poison := u.poison ++ [lineOf a] }) := rfl
  have hcount := State.cntD_of_counts (s := s) rfl (State.recordShared_counts (ps := s.grantedTo a) (r := r) s (homeDie_lt a) State.grantedTo_lt).1
  have hbytes : u.bytes = s.bytes := State.recordShared_bytes _ _ _ _
  refine ⟨_, hexec, ?_⟩
  by_cases hpoison : u.poison.contains (lineOf a) = true
  · rw [if_pos hpoison]
    exact ⟨List.contains_iff_mem.mp hpoison, hcount, State.sameBytes_of_bytes hbytes⟩
  · rw [if_neg hpoison]
    exact ⟨List.mem_append_right _ (List.mem_singleton.mpr rfl), hcount, State.sameBytes_of_bytes hbytes⟩

theorem State.recordShared_poison (s : State) (die : Nat) (ps : List Nat) (r : ErrRec) : (s.recordShared die ps r).poison = s.poison := by
  have hparts : ∀ u : State, (ps.foldl (fun s p => s.recordPart die p r) u).poison = u.poison := by
    induction ps with
    | nil => exact fun _ => rfl
    | cons p ps ih => exact fun u => ih _
  exact hparts s

theorem State.does_hbm_corrected (s : State) (a : Nat) (syn : Word) : s.does (.hbmEccError a true syn) fun t => t.poison = s.poison ∧
    (Tab.get {} t.banks (64 + homeDie a)).cntC = ((Tab.get {} s.banks (64 + homeDie a)).cntC + 1) % 2 ^ 32 ∧ s.sameBytes t :=
  ⟨_, rfl, State.recordShared_poison _ _ _ _, State.cntC_of_counts rfl (State.recordShared_counts s (homeDie_lt a) State.grantedTo_lt).1,
    State.sameBytes_of_bytes (State.recordShared_bytes _ _ _ _)⟩

theorem State.does_sram_correction (s : State) (e : BitVec 4) (die : Nat) (ps : List Nat) (syn : Word) (hdie : die < 2) (hps : ∀ p ∈ ps, p < 32) :
    s.does (.sramEccCorrection e die ps syn) fun t => (Tab.get {} t.banks (64 + die)).cntC = ((Tab.get {} s.banks (64 + die)).cntC + 1) % 2 ^ 32 ∧
      (ps.Nodup → ∀ p ∈ ps, (Tab.get {} t.banks (32 * die + p)).cntC = ((Tab.get {} s.banks (32 * die + p)).cntC + 1) % 2 ^ 32) ∧ s.sameBytes t := by
  let r : ErrRec := { cls := 1, engine := e.toNat, code := codeSramCorrected, syndrome := syn.toNat, time := s.now }
  obtain ⟨hinfra, hparts⟩ := State.recordShared_counts (r := r) s hdie hps
  exact ⟨_, rfl, State.cntC_of_counts rfl hinfra, fun hnodup p hp => State.cntC_of_counts rfl (hparts hnodup p hp),
    State.sameBytes_of_bytes (State.recordShared_bytes s die ps r)⟩

theorem State.does_slice_uncorrected (s : State) (k : Nat) (hk : k < 64) : s.does (.sliceUncorrectedError k) fun t =>
    (Tab.get {} t.banks (64 + k / 32)).cntU = ((Tab.get {} s.banks (64 + k / 32)).cntU + 1) % 2 ^ 32 ∧ s.sameBytes t :=
  ⟨_, rfl, State.cntU_of_counts rfl (State.recordShared_counts s (Nat.div_lt_of_lt_mul hk) State.partsAt_lt).1, State.sameBytes_of_bytes (State.recordShared_bytes _ _ _ _)⟩

theorem State.does_record_clear (s : State) (p die n : Nat) (hhalt : s.boot.halted = false) : s.does (.errorRecordClear p die n) fun t =>
    (∀ k, Tab.get none (Tab.get {} t.banks (32 * die + p)).recs k = if k = n then none else Tab.get none (Tab.get {} s.banks (32 * die + p)).recs k) ∧ s.sameBytes t := by
  refine ⟨s.clearRecord (partBank die p) n, ?_, fun k => ?_, State.sameBytes_of_bytes (State.bytes_clearRecord _ _ _)⟩
  · show execErrorRecordClear p die n s = _
    rw [execErrorRecordClear, hhalt]
    rfl
  · unfold State.clearRecord partBank
    rw [Tab.get_set_self, Tab.get_set]

/-! Package resets (R382, R385). -/

/-- What a package reset leaves: the state after reset, with the start page as it was counted, and the fuses. -/
def State.resetsTo (s t : State) (cause : Nat) : Prop :=
  t.now = 0 ∧ t.ctxs = [] ∧ t.cores = [] ∧ t.clus = [] ∧ t.banks = [] ∧ t.reqs = [] ∧ t.queues = [] ∧ t.parts = [] ∧ t.boot.cause = cause ∧ t.boot.prev = s.boot.cause ∧
    t.boot.stage = 0 ∧ t.boot.fails = 0 ∧ t.boot.minimal = false ∧ t.boot.minVersion = s.boot.minVersion ∧ t.boot.attIndex = s.boot.attIndex ∧ t.fuse = s.fuse

theorem State.packageReset_resets (s : State) {cause : Nat} (h : cause ≠ causeStartFailed) : s.resetsTo (s.packageReset cause) cause := by
  have hfails : (s.packageReset cause).boot.fails = 0 := if_neg (by simpa using h)
  have hminimal : (s.packageReset cause).boot.minimal = false := by
    show (decide (cause = causeStartFailed) && _) = false
    rw [decide_eq_false h, Bool.false_and]
  exact ⟨rfl, rfl, rfl, rfl, rfl, rfl, rfl, rfl, rfl, rfl, rfl, hfails, hminimal, rfl, rfl, rfl⟩

/-! The stages of the start (R384 to R386). -/

/-- A stage runs. -/
def Boot.runs (b : Boot) (k : Nat) : Prop := b.running = k ∧ b.halted = false ∧ b.ready = false

/-- The next stage has begun. -/
def State.stageBegins (s t : State) (k : Nat) : Prop := t.boot.stage = k ∧ t.boot.since = s.now ∧ t.boot.reason = s.boot.reason

/-- The start has failed: the package halts where the monitor itself failed or the start is minimal, and is reset else. -/
def State.startFails (s t : State) (reason : Nat) : Prop :=
  t.boot.reason = reason ∧ t.boot.fails = min 3 (s.boot.fails + 1) ∧
    if s.boot.running = 1 ∨ s.boot.minimal = true then t.boot.halted = true ∧ t.boot.stage = s.boot.stage
    else t.boot.halted = false ∧ t.boot.stage = 0 ∧ t.boot.cause = 9 ∧ t.now = 0 ∧ (t.boot.minimal = true ↔ 2 ≤ s.boot.fails)

theorem State.startFail_fails {s u : State} (h : u.boot = s.boot) (reason : Nat) : s.startFails (u.startFail reason) reason := by
  have hfails : Nat.min 3 (s.boot.fails + 1) = min 3 (s.boot.fails + 1) := rfl
  unfold State.startFails State.startFail
  rw [h]
  by_cases hhalt : s.boot.running = 1 ∨ s.boot.minimal = true
  · rw [if_pos hhalt, if_pos hhalt]
    refine ⟨rfl, ?_, rfl, ?_⟩
    · show Nat.min 3 (u.boot.fails + 1) = _
      rw [h, hfails]
    · show u.boot.stage = _
      rw [h]
  · rw [if_neg hhalt, if_neg hhalt]
    have hcount : ((u.modBoot fun b => { b with reason := reason, fails := Nat.min 3 (b.fails + 1) }).packageReset causeStartFailed).boot.fails =
        min 3 (s.boot.fails + 1) := by
      show Nat.min 3 (u.boot.fails + 1) = _
      rw [h, hfails]
    refine ⟨rfl, hcount, rfl, rfl, rfl, rfl, ?_⟩
    show (true && decide (Nat.min 3 (u.boot.fails + 1) = 3)) = true ↔ _
    rw [h, hfails, Bool.true_and, decide_eq_true_eq]
    omega

theorem Boot.at_of_runs {b : Boot} {k : Nat} (h : b.runs k) : b.at k = true := by
  obtain ⟨hk, hhalt, hready⟩ := h
  unfold Boot.at
  rw [hk, hhalt, hready, beq_self_eq_true]
  rfl

theorem State.stageDone_begins {s u : State} {k : Nat} (hk : u.boot.running = k) (hr : u.boot.reason = s.boot.reason) (hn : u.now = s.now) :
    s.stageBegins u.stageDone (k + 1) :=
  ⟨congrArg (· + 1) hk, hn, hr⟩

/-- A firmware image is verified: its signature, then its version, which the minimum follows. -/
theorem State.verified_ok {s : State} {v : BitVec 32} (hv : s.boot.minVersion ≤ v) (sig : Nat) (f : Boot → Boot) :
    s.verified true v sig f = (s.modBoot fun b => f { b with minVersion := v }).stageDone := by
  have hnot : ¬ v < s.boot.minVersion := BitVec.not_lt.mpr hv
  have hmin : (if s.boot.minVersion < v then v else s.boot.minVersion) = v := by
    split
    · rfl
    · next h => exact BitVec.le_antisymm hv (BitVec.not_lt.mp h)
  unfold State.verified
  rw [Bool.not_true, if_neg Bool.false_ne_true, if_neg hnot]
  unfold State.modBoot
  dsimp only
  rw [hmin]

theorem State.verified_unsigned (s : State) (v : BitVec 32) (sig : Nat) (f : Boot → Boot) : s.verified false v sig f = s.startFail sig := rfl

theorem State.verified_old {s : State} {v : BitVec 32} (hv : v < s.boot.minVersion) (sig : Nat) (f : Boot → Boot) : s.verified true v sig f = s.startFail 3 := if_pos hv

theorem State.does_monitor_verify {s : State} (h : s.boot.runs 1) :
    (∀ v, s.does (.monitorVerify false v) fun t => s.startFails t 1) ∧ (∀ v, v < s.boot.minVersion → s.does (.monitorVerify true v) fun t => s.startFails t 3) ∧
      ∀ v, s.boot.minVersion ≤ v → s.does (.monitorVerify true v) fun t => s.stageBegins t 2 ∧ t.boot.monVersion = v ∧ t.boot.minVersion = v := by
  have hexec : ∀ ok v, exec (.monitorVerify ok v) s = .next (s.verified ok v 1 fun b => { b with monVersion := v }) := fun ok v =>
    congrArg Host.Outcome.next (if_pos (Boot.at_of_runs h))
  refine ⟨fun v => ⟨_, hexec false v, State.startFail_fails rfl 1⟩, fun v hv => ⟨_, hexec true v, ?_⟩, fun v hv => ⟨_, hexec true v, ?_⟩⟩
  · rw [State.verified_old hv]
    exact State.startFail_fails rfl 3
  · rw [State.verified_ok hv]
    exact ⟨State.stageDone_begins (k := 1) h.1 rfl rfl, rfl, rfl⟩

theorem State.does_hbm_training {s : State} (h : s.boot.runs 2) :
    (s.does (.hbmTraining true) fun t => s.stageBegins t 3) ∧ s.does (.hbmTraining false) fun t => s.startFails t 4 := by
  have hexec : ∀ ok, exec (.hbmTraining ok) s = .next (if ok then s.stageDone else s.startFail 4) := fun ok => congrArg Host.Outcome.next (if_pos (Boot.at_of_runs h))
  exact ⟨⟨_, hexec true, State.stageDone_begins (k := 2) h.1 rfl rfl⟩, ⟨_, hexec false, State.startFail_fails rfl 4⟩⟩

theorem State.does_link_training {s : State} (h : s.boot.runs 3) :
    (s.does (.linkTraining true true) fun t => s.stageBegins t 4) ∧ (∀ k, s.does (.linkTraining false k) fun t => s.startFails t 5) ∧
      s.does (.linkTraining true false) fun t => s.startFails t 6 := by
  have hexec : ∀ die host, exec (.linkTraining die host) s = .next (if !die then s.startFail 5 else if !host then s.startFail 6 else s.stageDone) := fun die host =>
    congrArg Host.Outcome.next (if_pos (Boot.at_of_runs h))
  exact ⟨⟨_, hexec true true, State.stageDone_begins (k := 3) h.1 rfl rfl⟩, fun k => ⟨_, hexec false k, State.startFail_fails rfl 5⟩,
    ⟨_, hexec true false, State.startFail_fails rfl 6⟩⟩

/-! The self-test of the clusters, and the fuses (R386). -/

theorem State.fuseCores_boot (cores : List Nat) (s : State) : (cores.foldl State.fuseCore s).boot = s.boot ∧ (cores.foldl State.fuseCore s).now = s.now := by
  induction cores generalizing s with
  | nil => exact ⟨rfl, rfl⟩
  | cons c cores ih => exact ih _

theorem State.fuseCore_keeps (s : State) (ci c : Nat) (h : s.fusedOff c = true) : (s.fuseCore ci).fusedOff c = true := by
  unfold State.fusedOff State.fuseCore at *
  dsimp only at *
  rw [Tab.get_set]
  split
  · next heq => rw [BitVec.toNat_or, Nat.testBit_or, ← heq, h, Bool.true_or]
  · exact h

theorem State.fuseCore_fuses (s : State) (c : Nat) : (s.fuseCore c).fusedOff c = true := by
  have hbit : 2 * clusterX (coreCluster c) + c % 2 < 64 := by
    have hx : clusterX (coreCluster c) < 24 := Nat.mod_lt _ (by decide)
    omega
  unfold State.fusedOff State.fuseCore
  dsimp only
  rw [Tab.get_set_self, BitVec.toNat_or, Nat.testBit_or, BitVec.natCast_eq_ofNat, BitVec.toNat_ofNat, Nat.one_shiftLeft,
    Nat.mod_eq_of_lt (Nat.pow_lt_pow_right (by decide) hbit), Nat.testBit_two_pow_self, Bool.or_true]

theorem State.fuseCores_fuse (cores : List Nat) (s : State) {c : Nat} (h : c ∈ cores ∨ s.fusedOff c = true) : (cores.foldl State.fuseCore s).fusedOff c = true := by
  induction cores generalizing s with
  | nil => exact h.resolve_left List.not_mem_nil
  | cons a cores ih =>
    rw [List.foldl_cons]
    refine ih _ ?_
    rcases h with hmem | hoff
    · rcases List.mem_cons.mp hmem with rfl | hrest
      · exact .inr (s.fuseCore_fuses c)
      · exact .inl hrest
    · exact .inr (s.fuseCore_keeps a c hoff)

theorem State.does_cluster_selftest {s : State} (h : s.boot.runs 4) (cores : List Nat) : let s1 := cores.foldl State.fuseCore s
    ((s1.harvestOk 0 && s1.harvestOk 1) = false → s.does (.clusterSelfTest cores) fun t => s.startFails t 7) ∧
      ((s1.harvestOk 0 && s1.harvestOk 1) = true → s.boot.minimal = false →
        s.does (.clusterSelfTest cores) fun t => s.stageBegins t 5 ∧ ∀ c ∈ cores, c < 4608 → t.fusedOff c = true) := by
  intro s1
  obtain ⟨hboot, hnow⟩ : s1.boot = s.boot ∧ s1.now = s.now := State.fuseCores_boot cores s
  constructor
  · intro hharvest
    refine ⟨s1.startFail 7, ?_, State.startFail_fails hboot 7⟩
    show execClusterSelfTest cores s = _
    unfold execClusterSelfTest
    rw [Boot.at_of_runs h, Bool.not_true, if_neg Bool.false_ne_true]
    dsimp only
    rw [show cores.foldl State.fuseCore s = s1 from rfl, hharvest, Bool.not_false, if_pos rfl]
  · intro hharvest hminimal
    refine ⟨s1.stageDone, ?_, State.stageDone_begins (k := 4) (by rw [hboot]; exact h.1) (by rw [hboot]) hnow, fun c hc _ => State.fuseCores_fuse cores s (.inl hc)⟩
    show execClusterSelfTest cores s = _
    unfold execClusterSelfTest
    rw [Boot.at_of_runs h, Bool.not_true, if_neg Bool.false_ne_true]
    dsimp only
    rw [show cores.foldl State.fuseCore s = s1 from rfl, hharvest, hminimal, Bool.not_true, if_neg Bool.false_ne_true, Bool.not_false, if_pos rfl]

theorem State.does_service_start {s : State} (h : s.boot.runs 5) :
    (s.boot.minimal = true → ∀ g v, s.does (.serviceFirmwareStart g v) fun t => s.stageBegins t 6) ∧
      (s.boot.minimal = false → (∀ v, s.does (.serviceFirmwareStart false v) fun t => s.startFails t 2) ∧
        ∀ v, s.boot.minVersion ≤ v → s.does (.serviceFirmwareStart true v) fun t => s.stageBegins t 6 ∧ t.boot.svcVersion = v) := by
  have hexec : ∀ ok v, exec (.serviceFirmwareStart ok v) s =
      .next (if s.boot.minimal then s.stageDone else s.verified ok v 2 fun b => { b with svcVersion := v }) := fun ok v =>
    congrArg Host.Outcome.next (if_neg (by rw [Boot.at_of_runs h]; decide))
  constructor
  · intro hminimal g v
    refine ⟨_, hexec g v, ?_⟩
    rw [hminimal]
    exact State.stageDone_begins (k := 5) h.1 rfl rfl
  · intro hminimal
    refine ⟨fun v => ⟨_, hexec false v, ?_⟩, fun v hv => ⟨_, hexec true v, ?_⟩⟩
    · rw [hminimal]
      exact State.startFail_fails rfl 2
    · rw [hminimal, if_neg Bool.false_ne_true, State.verified_ok hv]
      exact ⟨State.stageDone_begins (k := 5) h.1 rfl rfl, rfl⟩

theorem State.does_start_failed {s : State} (h : s.boot.runs s.boot.running) (r : BitVec 16) (h1 : 1 ≤ r.toNat) (h8 : r.toNat ≤ 8) :
    s.does (.startFailed r) fun t => s.startFails t r.toNat := by
  obtain ⟨-, hhalt, hready⟩ := h
  refine ⟨s.startFail r.toNat, ?_, State.startFail_fails rfl _⟩
  show execStartFailed r s = _
  unfold execStartFailed
  rw [hhalt, hready, decide_eq_true ⟨h1, h8⟩]
  rfl

theorem State.does_stage_timeout {s : State} (h : s.boot.runs s.boot.running) (hover : ∃ n, stageBound s.boot.running = some n ∧ s.boot.since + n < s.now) :
    s.does .stageTimeout fun t => s.startFails t 8 := by
  obtain ⟨-, hhalt, hready⟩ := h
  obtain ⟨n, hbound, hlate⟩ := hover
  have hstage : s.stageOver = true := by
    unfold State.stageOver
    rw [hready, hhalt, hbound]
    exact decide_eq_true hlate
  exact ⟨_, congrArg Host.Outcome.next (if_pos hstage), State.startFail_fails rfl 8⟩

theorem State.does_monitor_image {s : State} (hhalt : s.boot.halted = true) (v : BitVec 32) (hv : s.boot.minVersion ≤ v) :
    s.does (.monitorImageLoad true v) fun t => t.boot.halted = false ∧ t.boot.stage = 2 ∧ t.boot.monVersion = v := by
  refine ⟨_, congrArg Host.Outcome.next (if_pos hhalt), ?_⟩
  rw [State.verified_ok (s := s.modBoot fun b => { b with halted := false, stage := 1, since := s.now }) hv]
  exact ⟨rfl, rfl, rfl⟩

theorem State.does_attestation {s : State} (nonce : BitVec 256) (hstage : 1 < s.boot.stage) (hhalt : s.boot.halted = false) (hindex : s.boot.attIndex < 2 ^ 20) :
    s.does (.attestation nonce) fun t => t.boot.attIndex = s.boot.attIndex + 1 ∧ ∃ sig, t.boot.attested = s.boot.attested ++ [(s.boot.attIndex, nonce, sig)] := by
  have hgoes : ¬ (s.boot.stage ≤ 1 ∨ s.boot.halted = true ∨ 2 ^ 20 ≤ s.boot.attIndex) := by
    rw [hhalt]
    simp only [Bool.false_eq_true, false_or]
    omega
  exact ⟨_, if_neg hgoes, rfl, _, rfl⟩

theorem State.does_featctl_go {s : State} (hcfm : s.boot.cfm = false) (hstage : s.boot.stage = 6) (hhalt : s.boot.halted = false) :
    (s.boot.featacc &&& ~~~(0x1F#128) = 0 → s.boot.featacc.getLsbD 0 = true →
      s.does .featctlGo fun t => t.boot.cfm = true ∧ t.boot.rej = false ∧ t.boot.stage = 7 ∧ t.boot.ready = true) ∧
    (s.boot.featacc &&& ~~~(0x1F#128) ≠ 0 ∨ s.boot.featacc.getLsbD 0 = false →
      s.does .featctlGo fun t => t.boot.rej = true ∧ t.boot.cfm = false ∧ t.boot.stage = 6) := by
  have hgoes : (s.boot.cfm || decide (s.boot.stage ≠ 6) || s.boot.halted) = false := by
    rw [hcfm, hstage, hhalt]
    rfl
  have hexec : exec .featctlGo s = .next (if s.boot.featacc &&& ~~~(0x1F#128) = 0 ∧ s.boot.featacc.getLsbD 0 = true then
      { s with boot := { s.boot with rej := false, cfm := true, stage := 7, since := s.now, ready := true, fails := if s.boot.minimal then s.boot.fails else 0 } }
    else { s with boot := { s.boot with rej := true } }) := by
    show Host.Outcome.next s.featGo = _
    unfold State.featGo
    dsimp only
    rw [hgoes, if_neg Bool.false_ne_true]
    rfl
  refine ⟨fun hset hzero => ⟨_, hexec, ?_⟩, fun hrefused => ⟨_, hexec, ?_⟩⟩
  · rw [if_pos ⟨hset, hzero⟩]
    exact ⟨rfl, rfl, rfl, rfl⟩
  · have hnot : ¬ (s.boot.featacc &&& ~~~(0x1F#128) = 0 ∧ s.boot.featacc.getLsbD 0 = true) := by
      rintro ⟨hset, hzero⟩
      rcases hrefused with hbad | hbad
      · exact hbad hset
      · exact Bool.false_ne_true (hbad.symm.trans hzero)
    rw [if_neg hnot]
    exact ⟨rfl, hcfm, hstage⟩

/-! The accesses of the host and the monitor (R240, R279, R284, R302, R322). -/

/-- Without race tracing a write that is accepted leaves the bytes to the write itself. -/
theorem State.acceptWrite_untraced {s : State} (h : s.traces = []) (m : Maker) (pa n be : Nat) : s.acceptWrite m pa n be = s.accept pa := by
  unfold State.acceptWrite
  rw [h]
  rfl

theorem State.sliceStore_untraced {s : State} (h : s.traces = []) (m : Maker) (by_ : Option (Nat × Nat)) (pa n v be : Nat) :
    (s.sliceStore m by_ pa n v be).bytes = (s.physWrite pa n v be).bytes := by
  rw [State.sliceStore_bytes, State.acceptWrite_untraced h]
  split
  · rfl
  · have haccept := s.bytes_accept pa
    obtain ⟨hmem, hhost, hspad⟩ : (s.accept pa).mem = s.mem ∧ (s.accept pa).hostMem = s.hostMem ∧ (fun cl => ((s.accept pa).clu cl).spad) = fun cl => (s.clu cl).spad := by
      simpa [State.bytes] using haccept
    unfold State.physWrite State.bytes
    split
    · simpa [hmem, hhost, State.clu] using hspad
    · simpa [hmem, hhost, State.clu] using hspad

theorem State.physWrite_elsewhere {s : State} {pa n v be b k : Nat} (hpa : pa < hostBase) (h : b + k ≤ pa ∨ pa + n ≤ b) :
    (s.physWrite pa n v be).physRead b k = s.physRead b k := by
  unfold State.physWrite State.physRead
  rw [if_pos hpa]
  split
  · exact Memory.readN_writeMasked_outside _ _ _ _ _ _ _ (by omega)
  · rfl

theorem State.does_host_write {s : State} {a : Nat} (v : Word) (ha : a < 2 ^ 39) (htakes : s.hostTakes (lineOf a) = true) (htr : s.traces = []) :
    s.does (.hostWrite false a v) fun t => t.physRead (a / 8 * 8) 8 = v.toNat ∧
      ∀ k n, k + n ≤ a / 8 * 8 ∨ a / 8 * 8 + 8 ≤ k → t.physRead k n = s.physRead k n := by
  have hlow : ¬ hostBase / 2 ^ 9 ≤ a := by
    rw [show hostBase / 2 ^ 9 = 2 ^ 39 by decide]
    omega
  have hpa : a / 8 * 8 < hostBase := by
    rw [show hostBase = 2 ^ 48 from rfl]
    omega
  refine ⟨s.sliceStore makerHost none (a / 8 * 8) 8 v.toNat (allBytes 8), ?_, ?_, fun k n hout => ?_⟩
  · show execHostWrite false a v s = _
    unfold execHostWrite
    rw [if_neg Bool.false_ne_true, if_neg hlow, htakes, if_pos rfl]
  · rw [State.sliceStore_reads]
    exact Nat.mod_eq_of_lt v.isLt
  · rw [State.physRead_of_bytes (State.sliceStore_untraced htr _ _ _ _ _ _)]
    exact State.physWrite_elsewhere hpa hout

theorem State.does_host_read {s : State} {a : Nat} (ha : a < 2 ^ 39) (htakes : s.hostTakes (lineOf a) = true) :
    s.does (.hostRead false a) fun t => t.hostRead = some (a, wordOfInt (s.physRead (a / 8 * 8) 8 : Nat)) ∧ s.sameBytes t := by
  have hlow : ¬ hostBase / 2 ^ 9 ≤ a := by
    rw [show hostBase / 2 ^ 9 = 2 ^ 39 by decide]
    omega
  refine ⟨{ s.accept a with hostRead := some (a, w64 (s.physRead (a / 8 * 8) 8)) }, ?_, ?_, State.sameBytes_of_bytes (s.bytes_accept a)⟩
  · show execHostRead false a s = _
    unfold execHostRead
    dsimp only
    rw [if_neg Bool.false_ne_true, if_neg hlow, htakes, if_pos rfl]
  · rw [wordOfInt_natCast]

/-- A register written whole takes the value whatever it held. -/
theorem whole_register {old v : Nat} (hold : old < 2 ^ 64) (hv : v < 2 ^ 64) :
    (old - (old &&& (2 ^ (8 * 8) - 1) * 2 ^ (8 * 0))) ||| (v % 2 ^ (8 * 8) * 2 ^ (8 * 0) &&& (2 ^ (8 * 8) - 1) * 2 ^ (8 * 0)) = v := by
  rw [Nat.mul_zero, Nat.pow_zero, Nat.mul_one, Nat.mul_one, Nat.and_two_pow_sub_one_eq_mod, Nat.and_two_pow_sub_one_eq_mod, Nat.mod_eq_of_lt hold, Nat.sub_self,
    Nat.zero_or, Nat.mod_mod, Nat.mod_eq_of_lt hv]

/-- An overrun disables a queue, and leaves its registers. -/
theorem State.overrun_queue (s : State) (q : Nat) :
    (s.overrun q).queue q = { s.queue q with en := (s.queue q).en && decide ((s.queue q).ahead ≤ 2 ^ (s.queue q).log2n) } := by
  have hoff : ∀ u : State, u.queues = (s.modQueue q fun k => { k with en := false }).queues → u.queue q = { s.queue q with en := false } := by
    intro u hu
    unfold State.queue
    rw [hu]
    exact Tab.get_set_self _ _ _ _
  unfold State.overrun
  extract_lets k r s1
  split
  · next h =>
    rcases Bool.or_eq_true _ _ ▸ h with hen | hroom
    · have hen' : (s.queue q).en = false := by simpa using hen
      rw [hen', Bool.false_and, ← hen']
    · rw [show decide ((s.queue q).ahead ≤ 2 ^ (s.queue q).log2n) = true from hroom, Bool.and_true]
  · next h =>
    have hfull : decide ((s.queue q).ahead ≤ 2 ^ (s.queue q).log2n) = false := by
      rw [Bool.or_eq_true, not_or] at h
      exact Bool.eq_false_iff.mpr h.2
    rw [hfull, Bool.and_false]
    split
    · exact hoff _ rfl
    · exact hoff _ rfl

theorem State.modQueue_queue (s : State) (q m : Nat) (f : Queue → Queue) : (s.modQueue q f).queue m = if m = q then f (s.queue q) else s.queue m := Tab.get_set _ _ _ _ _

@[simp] theorem State.modQueue_self (s : State) (q : Nat) (f : Queue → Queue) : (s.modQueue q f).queue q = f (s.queue q) := Tab.get_set_self _ _ _ _

/-- The page of a queue in the register window. -/
theorem pageOf_queue {q : Nat} (hq : q < 8192) : pageOf (0x1000000 + 0x40 * q + 0x10) = some (.queue, 0x40 * q + 0x10) := by
  unfold pageOf
  simp only [decide_eq_true_eq]
  have hqueue : 16777216 ≤ 16777216 + 64 * q + 16 ∧ 16777216 + 64 * q + 16 < 16777216 + 8193 * 64 := by omega
  rw [if_neg (by omega), if_neg (by omega), if_neg (by omega), if_neg (by omega), if_neg (by omega), if_neg (by omega), if_neg (by omega), if_neg (by omega),
    if_neg (by omega), if_neg (by omega), if_neg (by omega), if_pos hqueue, Nat.add_assoc, Nat.add_sub_cancel_left]

theorem State.does_host_pidx (s : State) {q : Nat} (hq : q < 8192) (v : Word) :
    s.does (.hostWrite true (0x1000000 + 0x40 * q + 0x10) v) fun t => (t.queue q).qpidx = v.toNat % 2 ^ 32 := by
  have hword : (0x1000000 + 0x40 * q + 0x10) / 8 * 8 = 0x1000000 + 0x40 * q + 0x10 := by omega
  have hpage : pageOf ((0x1000000 + 0x40 * q + 0x10) / 8 * 8) = some (.queue, 0x40 * q + 0x10) := by rw [hword, pageOf_queue hq]
  have hindex : (0x40 * q + 0x10) / 0x40 = q := by omega
  have hoff : (0x40 * q + 0x10) % 0x40 = 0x10 := by omega
  have hreach : hostReach (0x1000000 + 0x40 * q + 0x10) = true := by
    unfold hostReach
    rw [hpage, decide_eq_true (by omega)]
    dsimp only
    rw [hindex, Bool.true_and, bne_iff_ne, show monitorQueue = 8192 from rfl]
    omega
  have hold : s.pageWord 0 0 .queue (0x40 * q + 0x10) < 2 ^ 64 := by
    have hw : s.pageWord 0 0 .queue (0x40 * q + 0x10) = (s.queue q).qpidx % 2 ^ 32 := by
      unfold State.pageWord
      dsimp only
      rw [hindex, hoff]
      rfl
    rw [hw]
    omega
  refine ⟨s.setQpidx q v.toNat, ?_, ?_⟩
  · show execHostWrite true (0x1000000 + 0x40 * q + 0x10) v s = _
    unfold execHostWrite State.devWrite
    rw [if_pos rfl, if_pos hreach, Nat.div_mul_cancel (Nat.dvd_mul_left 8 _), hpage]
    dsimp only
    rw [hword, show (0x1000000 + 0x40 * q + 0x10) % 8 = 0 by omega]
    unfold State.regStore
    dsimp only
    rw [show Writer.host.part = 0 from rfl, whole_register hold v.isLt, hindex, hoff]
    rfl
  · unfold State.setQpidx
    dsimp only
    rw [State.overrun_queue, State.modQueue_self]

/-- A change of each of a list of entries of a table that is the same the second time. -/
theorem Tab.get_foldl_filter {α : Type} [DecidableEq α] (p : α → Bool) (l : List Nat) (t : Tab (List α)) (n : Nat) :
    Tab.get [] (l.foldl (fun t n => Tab.set [] t n ((Tab.get [] t n).filter p)) t) n = if n ∈ l then (Tab.get [] t n).filter p else Tab.get [] t n := by
  induction l generalizing t with
  | nil => rfl
  | cons a l ih =>
    rw [List.foldl_cons, ih, Tab.get_set]
    by_cases ha : n = a
    · subst ha
      by_cases hl : n ∈ l <;> simp [hl, List.filter_filter]
    · by_cases hl : n ∈ l <;> simp [hl, ha]

theorem State.does_xlinv {s : State} (p : Nat) (v : Word) (hhalt : s.boot.halted = false) (hwalk : s.walking p = false) :
    s.does (.xlinv p v) fun t => s.sameBytes t ∧ (v.toNat / 2 ^ 16 % 4 = 1 → ∀ n < 16, ∀ x, x ∈ Tab.get [] t.stations n ↔
      x ∈ Tab.get [] s.stations n ∧ ¬(x.part = p ∧ x.pid = v.extractLsb' 0 16)) := by
  refine ⟨s.setXlinv p v.toNat, ?_, State.sameBytes_of_bytes (State.bytes_setXlinv _ _ _), fun hmode n hn x => ?_⟩
  · show execXlinv p v s = _
    rw [execXlinv, hhalt, hwalk]
    rfl
  · have hreg : (((s.modPart p fun q => { q with xlinv := w64 v.toNat &&& 0x3FFFF }).part p).xlinv).toNat = v.toNat % 2 ^ 18 := by
      rw [State.modPart_self]
      show (w64 v.toNat &&& 0x3FFFF).toNat = _
      rw [BitVec.toNat_and, w64, BitVec.toNat_ofNat, Nat.mod_eq_of_lt v.isLt]
      exact Nat.and_two_pow_sub_one_eq_mod _ 18
    have hkind : bitsOf (v.toNat % 2 ^ 18) 17 16 = 1 := by
      unfold bitsOf
      rw [Nat.shiftRight_eq_div_pow]
      omega
    have hpid : BitVec.ofNat 16 (v.toNat % 2 ^ 18) = v.extractLsb' 0 16 := by
      apply BitVec.eq_of_toNat_eq
      rw [BitVec.toNat_ofNat, BitVec.extractLsb'_toNat, Nat.shiftRight_zero]
      omega
    have hhit : ((s.modPart p fun q => { q with xlinv := w64 v.toNat &&& 0x3FFFF }).part p).invalidates p x = (x.part == p && x.pid == v.extractLsb' 0 16) := by
      unfold Part.invalidates
      dsimp only
      rw [hreg, hkind, hpid] <;> rfl
    unfold State.setXlinv
    dsimp only
    rw [Tab.get_foldl_filter, if_pos (List.mem_range.mpr hn), List.mem_filter, hhit, Bool.not_eq_true', Bool.and_eq_false_iff, beq_eq_false_iff_ne, beq_eq_false_iff_ne,
      not_and_or]
    rfl

theorem State.does_rtctl {s : State} (k : Nat) (v : Word) (hfeature : s.feature 2 = true) :
    s.does (.rtctlWrite k v) fun t => let r := Tab.get {} t.traces k
      r.en = v.getLsbD 0 ∧ r.log2 = v.toNat / 2 ^ 8 % 32 ∧ (r.ovf = true ↔ (Tab.get {} s.traces k).ovf = true ∧ v.getLsbD 16 = false) := by
  refine ⟨s.modTrace k fun t => { t with ovf := t.ovf && !v.toNat.testBit 16, log2 := bitsOf v.toNat 12 8, en := v.toNat.testBit 0 }, ?_, ?_⟩
  · show Host.Outcome.next (s.setRtctl k v.toNat) = _
    rw [State.setRtctl, hfeature]
    rfl
  · have htrace : Tab.get {} (s.modTrace k fun t => { t with ovf := t.ovf && !v.toNat.testBit 16, log2 := bitsOf v.toNat 12 8, en := v.toNat.testBit 0 }).traces k =
        { Tab.get {} s.traces k with ovf := (Tab.get {} s.traces k).ovf && !v.toNat.testBit 16, log2 := bitsOf v.toNat 12 8, en := v.toNat.testBit 0 } := Tab.get_set_self _ _ _ _
    dsimp only
    rw [htrace]
    refine ⟨rfl, ?_, ?_⟩
    · show v.toNat >>> 8 % 32 = _
      rw [Nat.shiftRight_eq_div_pow]
    · show ((Tab.get {} s.traces k).ovf && !v.getLsbD 16) = true ↔ _
      rw [Bool.and_eq_true, Bool.not_eq_true']

theorem State.does_clshare {s : State} (cl : Nat) (v : Word) (hhalt : s.boot.halted = false) :
    s.does (.clshareWrite cl v) fun t => (t.clu cl).clshare = v &&& 0xF0FFFF ∧ s.sameBytes t := by
  refine ⟨s.setClshare cl v.toNat, ?_, ?_, State.sameBytes_of_bytes (State.bytes_modClu _ _ _ rfl)⟩
  · show execClshareWrite cl v s = _
    rw [execClshareWrite, hhalt]
    rfl
  · rw [State.setClshare, State.modClu_self, w64, BitVec.ofNat_toNat, BitVec.setWidth_eq]

theorem State.does_dacctctl {s : State} (p : Nat) (v : Word) (hhalt : s.boot.halted = false) :
    s.does (.deviceRegisterWrite p 0x918 v) fun t => (t.part p).dacctctl = v.extractLsb' 0 32 &&& 0xFFFF1F01 ∧ s.sameBytes t := by
  have hpage : pageOf (0x918 / 8 * 8) = some (.config, 0x18) := by decide
  have hold : s.pageWord 0 p .config 0x18 < 2 ^ 64 := by
    have hw : s.pageWord 0 p .config 0x18 = (s.part p).dacctctl.toNat := rfl
    rw [hw]
    exact Nat.lt_trans (BitVec.isLt _) (by decide)
  have hcut : BitVec.ofNat 32 v.toNat = v.extractLsb' 0 32 := by
    apply BitVec.eq_of_toNat_eq
    rw [BitVec.toNat_ofNat, BitVec.extractLsb'_toNat, Nat.shiftRight_zero]
  refine ⟨s.modPart p fun q => { q with dacctctl := BitVec.ofNat 32 v.toNat &&& 0xFFFF1F01 }, ?_, ?_, State.sameBytes_of_bytes (State.bytes_modPart _ _ _)⟩
  · show execDeviceRegisterWrite p 0x918 v s = _
    unfold execDeviceRegisterWrite State.devWrite
    rw [hhalt, hpage]
    dsimp only
    unfold State.regStore
    dsimp only
    rw [show (Writer.monitor p).part = p from rfl, show 0x918 % 8 = 0 from rfl, whole_register hold v.isLt]
    rfl
  · rw [State.modPart_self, hcut]

/-- Settles O60: errors, resets and stages by what each leaves in the banks and the start page, accesses by the register or the bytes they name. -/
theorem startErrorsAndTheHost : Obligations.StartErrorsAndTheHost := by
  unfold Obligations.StartErrorsAndTheHost
  refine ⟨fun s => ⟨s.does_hbm_uncorrected, s.does_hbm_corrected, s.does_sram_correction, s.does_slice_uncorrected, s.does_record_clear, ?_⟩, fun s => ⟨?_, ?_⟩⟩
  · exact ⟨⟨_, rfl, s.packageReset_resets (cause := 1) (by decide)⟩, ⟨_, rfl, s.packageReset_resets (by decide)⟩, ⟨_, rfl, s.packageReset_resets (by decide)⟩,
      ⟨_, rfl, s.packageReset_resets (by decide)⟩, ⟨_, rfl, s.packageReset_resets (by decide)⟩, ⟨_, rfl, s.packageReset_resets (by decide)⟩,
      ⟨_, rfl, s.packageReset_resets (by decide)⟩⟩
  · exact ⟨State.does_monitor_verify, State.does_hbm_training, State.does_link_training, fun cores h => State.does_cluster_selftest h cores, State.does_service_start,
      State.does_start_failed, State.does_stage_timeout, State.does_monitor_image, State.does_attestation, State.does_featctl_go⟩
  · exact ⟨fun a v => State.does_host_write v, fun q v hq => s.does_host_pidx hq v, fun a => State.does_host_read, State.does_xlinv,
      fun k v _ => State.does_rtctl k v, State.does_clshare, State.does_dacctctl⟩

end Sys2Proof.Machine
end


section
/-!
PROOFS. The die link: flits, replay, retraining, and the requests of the other die with their answers (R391 to R393, R396, R397).
-/

namespace Sys2Proof.Machine

/-! The modules of the die link (R391 to R393, R396, R397). -/

theorem State.modLink_link (s : State) (m k : Nat) (f : LinkDir → LinkDir) : (s.modLink m f).link k = if k = m then f (s.link m) else s.link k := Tab.get_set _ _ _ _ _

@[simp] theorem State.modLink_self (s : State) (m : Nat) (f : LinkDir → LinkDir) : (s.modLink m f).link m = f (s.link m) := Tab.get_set_self _ _ _ _

theorem State.link_congr {s t : State} (h : t.links = s.links) (m : Nat) : t.link m = s.link m := by
  unfold State.link
  rw [h]

/-! Error records of the link. -/

/-- Records of partitions of either die change the banks alone. -/
theorem State.recordEither_banks (s : State) (p : Nat) (r : ErrRec) (named : Nat → Bool) :
    ∃ b, ([0, 1].foldl (fun s d => if named d then s.recordPart d p r else s) s) = { s with banks := b } := by
  simp only [List.foldl_cons, List.foldl_nil]
  cases named 0 <;> cases named 1 <;> exact ⟨_, rfl⟩

theorem State.recordEither_other {p j : Nat} {r : ErrRec} (s : State) (named : Nat → Bool) (h : ∀ d < 2, partBank d p ≠ j) :
    ([0, 1].foldl (fun s d => if named d then s.recordPart d p r else s) s).counts j = s.counts j := by
  have hone : ∀ (u : State) (d : Nat), d < 2 → (if named d then u.recordPart d p r else u).counts j = u.counts j := by
    intro u d hd
    split
    · rw [State.recordPart, State.record_counts, if_neg (h d hd).symm]
    · rfl
  rw [List.foldl_cons, List.foldl_cons, List.foldl_nil, hone _ 1 (by decide), hone _ 0 (by decide)]

theorem State.recordNamed_banks (ps : List Nat) (s : State) (named : Nat → Nat → Bool) (r : Nat → ErrRec) :
    ∃ b, (ps.foldl (fun s p => [0, 1].foldl (fun s d => if named p d then s.recordPart d p (r p) else s) s) s) = { s with banks := b } := by
  induction ps generalizing s with
  | nil => exact ⟨_, rfl⟩
  | cons p ps ih =>
    obtain ⟨b, hb⟩ := State.recordEither_banks s p (r p) (named p)
    obtain ⟨c, hc⟩ := ih { s with banks := b }
    exact ⟨c, by rw [List.foldl_cons, hb, hc]⟩

theorem State.recordNamed_other {j : Nat} (ps : List Nat) (s : State) (named : Nat → Nat → Bool) (r : Nat → ErrRec) (h : ∀ p ∈ ps, ∀ d < 2, partBank d p ≠ j) :
    (ps.foldl (fun s p => [0, 1].foldl (fun s d => if named p d then s.recordPart d p (r p) else s) s) s).counts j = s.counts j := by
  induction ps generalizing s with
  | nil => rfl
  | cons p ps ih =>
    rw [List.foldl_cons, ih _ fun q hq => h q (List.mem_cons_of_mem _ hq)]
    exact State.recordEither_other s _ (h p List.mem_cons_self)

/-- An error of a module is recorded with its die, and with the partitions whose transactions were on it. -/
theorem State.linkRecord_banks (s : State) (engine cls code detail die : Nat) (fs : List Flit) : ∃ b, s.linkRecord engine cls code detail die fs = { s with banks := b } := by
  unfold State.linkRecord
  extract_lets ts ps addr rec_ s1
  obtain ⟨b, hb⟩ : ∃ b, s1 = { s with banks := b } := State.recordNamed_banks ps s (fun p d => ts.any fun t => t.part == some p && t.tag / 2 ^ 17 == d) rec_
  clear_value s1 ps
  subst hb
  cases ps with
  | nil => exact ⟨_, rfl⟩
  | cons p ps => exact ⟨_, rfl⟩

theorem State.linkRecord_counts (s : State) (engine cls code detail die : Nat) (fs : List Flit) :
    (s.linkRecord engine cls code detail die fs).counts (64 + die) = countsAfter cls (s.counts (64 + die)) := by
  unfold State.linkRecord
  extract_lets ts ps addr rec_ s1
  have hps : ∀ p ∈ ps, ∀ d < 2, partBank d p ≠ infraBank die := fun p hp d hd => partBank_ne_infraBank hd (List.mem_range.mp (List.mem_filter.mp hp).1)
  have hparts : s1.counts (infraBank die) = s.counts (infraBank die) :=
    State.recordNamed_other ps s (fun p d => ts.any fun t => t.part == some p && t.tag / 2 ^ 17 == d) rec_ hps
  have hinfra : ∀ r : ErrRec, r.cls = cls → (s1.recordInfra die r).counts (64 + die) = countsAfter cls (s.counts (64 + die)) := by
    intro r hr
    rw [State.recordInfra, State.record_counts, if_pos (show 64 + die = infraBank die from rfl), hparts, hr]
    rfl
  clear_value s1 ps
  cases ps with
  | nil => exact hinfra _ rfl
  | cons p ps => exact hinfra (rec_ p) rfl

theorem State.moduleRecord_banks (s : State) (cls code m : Nat) : ∃ b, s.moduleRecord cls code m = { s with banks := b } := by
  unfold State.moduleRecord
  split
  · exact State.linkRecord_banks _ _ _ _ _ _ _
  · exact State.linkRecord_banks _ _ _ _ _ _ _

/-! Flits. -/

theorem State.does_flit_send {s : State} {m : Nat} (htr : (s.link m).training = false) (hq : (s.link m).queue ≠ []) (hroom : (s.link m).replay.length < 128)
    (hfree : (s.link m).free ≤ s.now) : s.does (.flitSend m) fun t =>
      let f : Flit := { seq := (s.link m).seq, ts := (s.link m).queue.take 3, at_ := s.now + if (s.link m).half then 50 else 48 }
      (t.link m).queue = (s.link m).queue.drop 3 ∧ (t.link m).wire = (s.link m).wire ++ [f] ∧ (t.link m).replay = (s.link m).replay ++ [f] ∧
        (t.link m).seq = ((s.link m).seq + 1) % 4096 := by
  have hgoes : ((s.link m).training || (s.link m).queue.isEmpty || decide (128 ≤ (s.link m).replay.length) || decide (s.now < (s.link m).free)) = false := by
    rw [htr, List.isEmpty_eq_false_iff.mpr hq, decide_eq_false (by omega), decide_eq_false (by omega)]
    rfl
  let f : Flit := { seq := (s.link m).seq, ts := (s.link m).queue.take 3, at_ := s.now + (s.link m).crossing }
  refine ⟨s.modLink m fun l => { l with
    seq := (l.seq + 1) % 2 ^ 12, queue := l.queue.drop 3, replay := l.replay ++ [f], wire := l.wire ++ [f], free := s.now + 1 }, ?_, ?_⟩
  · show execFlitSend m s = _
    unfold execFlitSend
    dsimp only
    rw [hgoes, if_neg Bool.false_ne_true]
  · dsimp only
    rw [State.modLink_self]
    exact ⟨rfl, rfl, rfl, rfl⟩

theorem State.does_host_flit {s : State} {m : Nat} (hm : 16 ≤ m) :
    exec (.flitArrival m true) s = .next s ∧ s.does (.flitArrival m false) fun t => s.sameBytes t ∧
      (Tab.get {} t.banks (64 + moduleNumber m % 2)).cntC = ((Tab.get {} s.banks (64 + moduleNumber m % 2)).cntC + 1) % 2 ^ 32 := by
  have hexec : ∀ ok, exec (.flitArrival m ok) s =
      .next (if ok then s else s.linkRecord 14 1 codeLinkRetry (s.link m).expect (moduleNumber m % 2) (s.hostFlits m)) := fun ok => if_pos hm
  have hcount := State.linkRecord_counts s 14 1 codeLinkRetry (s.link m).expect (moduleNumber m % 2) (s.hostFlits m)
  obtain ⟨b, hb⟩ := State.linkRecord_banks s 14 1 codeLinkRetry (s.link m).expect (moduleNumber m % 2) (s.hostFlits m)
  refine ⟨hexec true, ⟨_, hexec false, State.sameBytes_of_bytes ?_, congrArg Prod.fst hcount⟩⟩
  rw [if_neg Bool.false_ne_true, hb]
  rfl

section Arrival
variable {s : State} {m : Nat} {f : Flit} {w : List Flit} (hm : m < 16) (hwire : (s.link m).wire = f :: w) (hat : f.at_ ≤ s.now)
include hm hwire hat

theorem State.does_flit_arrival (hseq : f.seq = (s.link m).expect) (hresend : (s.link m).resend = none) : s.does (.flitArrival m true) fun t =>
    (t.link m).wire = w ∧ (t.link m).expect = ((s.link m).expect + 1) % 4096 ∧
      (t.link m).acks = (s.link m).acks ++ [(f.seq, s.now + if (s.link m).half then 50 else 48)] ∧ t.arrived = s.arrived ++ f.ts.map fun x => { x with at_ := s.now } := by
  let s1 := s.modLink m fun l => { l with wire := w }
  let s2 := s1.modLink m fun l => { l with expect := (l.expect + 1) % 2 ^ 12, acks := l.acks ++ [(f.seq, s.now + (s.link m).crossing)] }
  refine ⟨{ s2 with arrived := s1.arrived ++ f.ts.map fun t => { t with at_ := s.now } }, ?_, ?_⟩
  · show execFlitArrival m true s = _
    unfold execFlitArrival
    rw [if_neg (by omega), hwire]
    dsimp only
    rw [if_neg (by omega), Bool.not_true, if_neg Bool.false_ne_true, if_pos ⟨hseq, hresend⟩] <;> rfl
  · have hlink : State.link { s2 with arrived := s1.arrived ++ f.ts.map fun t => { t with at_ := s.now } } m =
        { s.link m with wire := w, expect := ((s.link m).expect + 1) % 2 ^ 12, acks := (s.link m).acks ++ [(f.seq, s.now + (s.link m).crossing)] } := by
      refine (State.link_congr (s := s2) (by rfl) m).trans ?_
      rw [State.modLink_self, State.modLink_self]
    dsimp only
    rw [hlink]
    exact ⟨rfl, rfl, rfl, rfl⟩

theorem State.does_flit_dropped (hresend : (s.link m).resend ≠ none) : s.does (.flitArrival m true) fun t =>
    (t.link m).wire = w ∧ t.arrived = s.arrived ∧ (t.link m).expect = (s.link m).expect := by
  refine ⟨s.modLink m fun l => { l with wire := w }, ?_, ?_⟩
  · show execFlitArrival m true s = _
    unfold execFlitArrival
    rw [if_neg (by omega), hwire]
    dsimp only
    rw [if_neg (by omega), Bool.not_true, if_neg Bool.false_ne_true, if_neg fun h => hresend h.2, if_neg hresend]
  · dsimp only
    rw [State.modLink_self]
    exact ⟨rfl, rfl, rfl⟩

theorem State.does_flit_corrupt (hseq : f.seq = (s.link m).expect) (hresend : (s.link m).resend = none) : s.does (.flitArrival m false) fun t =>
    (t.link m).wire = w ∧ (t.link m).resend = some f.seq ∧ t.arrived = s.arrived ∧ (t.link m).expect = (s.link m).expect := by
  let s1 := s.modLink m fun l => { l with wire := w }
  let s2 := s1.modLink m fun l => { l with resend := some f.seq, again := Config.replayTime }
  let fs := f :: (s.link m).replay.filter fun g => w.any fun h => h.seq == g.seq
  obtain ⟨b, hb⟩ := State.linkRecord_banks s2 13 1 codeLinkRetry f.seq (m % 2) fs
  have hgood : (decide (f.seq ≠ (s.link m).expect) || (s.link m).resend.isSome) = false := by
    rw [hresend, decide_eq_false (by simpa using hseq)]
    rfl
  refine ⟨s2.linkRecord 13 1 codeLinkRetry f.seq (m % 2) fs, ?_, ?_⟩
  · show execFlitArrival m false s = _
    unfold execFlitArrival
    rw [if_neg (by omega), hwire]
    dsimp only
    rw [if_neg (by omega), Bool.not_false, if_pos rfl, hgood, if_neg Bool.false_ne_true]
  · have hlink : (s2.linkRecord 13 1 codeLinkRetry f.seq (m % 2) fs).link m = { s.link m with wire := w, resend := some f.seq, again := Config.replayTime } := by
      rw [hb]
      show s2.link m = _
      rw [State.modLink_self, State.modLink_self]
    have harrived : (s2.linkRecord 13 1 codeLinkRetry f.seq (m % 2) fs).arrived = s.arrived := by
      rw [hb]
      rfl
    dsimp only
    rw [hlink, harrived]
    exact ⟨rfl, rfl, rfl, rfl⟩

end Arrival

theorem resent_contents (fs : List Flit) (at_ : Nat) : (resent fs at_).map (fun f => (f.seq, f.ts)) = fs.map fun f => (f.seq, f.ts) := by
  unfold resent
  apply List.ext_getElem
  · simp
  · intro i h1 h2
    simp

theorem State.does_flit_replay {s : State} {m k : Nat} (hresend : (s.link m).resend = some k) (htr : (s.link m).training = false) : s.does (.flitReplay m) fun t =>
    (t.link m).resend = none ∧ (t.link m).wire.map (fun f => (f.seq, f.ts)) = ((s.link m).replay.dropWhile fun f => f.seq ≠ k).map fun f => (f.seq, f.ts) := by
  let fs := (s.link m).replay.dropWhile fun f => f.seq ≠ k
  refine ⟨s.modLink m fun l => { l with resend := none, wire := resent fs (s.now + l.again), free := s.now + fs.length }, ?_, ?_⟩
  · show execFlitReplay m s = _
    unfold execFlitReplay
    dsimp only
    rw [hresend, htr]
    rfl
  · dsimp only
    rw [State.modLink_self]
    exact ⟨rfl, resent_contents _ _⟩

theorem State.does_flit_acknowledge {s : State} {m k u : Nat} {a : List (Nat × Nat)} (hacks : (s.link m).acks = (k, u) :: a) (hu : u ≤ s.now) :
    s.does (.flitAcknowledge m) fun t => (t.link m).acks = a ∧ (t.link m).replay = (s.link m).replay.filter fun f => f.seq ≠ k := by
  refine ⟨s.modLink m fun l => { l with acks := a, replay := l.replay.filter fun f => f.seq ≠ k }, ?_, ?_⟩
  · show execFlitAcknowledge m s = _
    unfold execFlitAcknowledge
    rw [hacks]
    exact congrArg Host.Outcome.next (if_neg (Nat.not_lt.mpr hu))
  · dsimp only
    rw [State.modLink_self]
    exact ⟨rfl, rfl⟩

/-! Lanes and retraining (R393, R397). -/

/-- Both directions of a module changed alike. -/
theorem State.modDirs_link (s : State) (m : Nat) (f : LinkDir → LinkDir) {k : Nat} (hk : k ∈ moduleDirs m) :
    ((moduleDirs m).foldl (fun s k => s.modLink k f) s).link k = f (s.link k) := by
  have hne : m / 2 * 2 ≠ m / 2 * 2 + 1 := by omega
  unfold moduleDirs at *
  rw [List.foldl_cons, List.foldl_cons, List.foldl_nil, State.modLink_link]
  rcases List.mem_cons.mp hk with rfl | hk
  · rw [if_neg hne, State.modLink_self]
  · rw [List.mem_singleton.mp hk, if_pos rfl, State.modLink_link, if_neg hne.symm]

theorem State.does_lane_failure {s : State} {m : Nat} (hhalf : (s.link m).half = false) : s.does (.laneFailure m) fun t =>
    ∀ k ∈ moduleDirs m, (t.link k).half = true ∧ (t.link k).training = true ∧ (t.link k).wire = [] ∧ (t.link k).replay = (s.link k).replay := by
  refine ⟨(moduleDirs m).foldl (fun s k => s.modLink k fun l => { l with half := true, training := true, wire := [], acks := [] }) (s.moduleRecord 1 codeLinkDegraded m),
    ?_, fun k hk => ?_⟩
  · show execLaneFailure m s = _
    unfold execLaneFailure
    rw [hhalf, if_neg Bool.false_ne_true]
  · obtain ⟨b, hb⟩ := s.moduleRecord_banks 1 codeLinkDegraded m
    have hlink : (s.moduleRecord 1 codeLinkDegraded m).link k = s.link k := by
      rw [hb]
      rfl
    rw [State.modDirs_link _ m _ hk, hlink]
    exact ⟨rfl, rfl, rfl, rfl⟩

theorem State.does_lane_down {s : State} {m : Nat} (hhalf : (s.link m).half = true) :
    s.does (.laneFailure m) fun t => t.boot.cause = 7 ∧ t.boot.stage = 0 ∧ t.now = 0 :=
  ⟨_, if_pos hhalf, rfl, rfl, rfl⟩

theorem State.does_retrain {s : State} {m : Nat} (htr : (s.link m).training = true) : s.does (.retrainComplete m true) fun t =>
    ∀ k ∈ moduleDirs m, (t.link k).training = false ∧ (t.link k).resend = (s.link k).replay.head?.map fun f => f.seq := by
  refine ⟨(moduleDirs m).foldl (fun s k => s.modLink k fun l => { l with training := false, resend := l.replay.head?.map Flit.seq, again := l.crossing }) s, ?_, fun k hk => ?_⟩
  · show execRetrainComplete m true s = _
    unfold execRetrainComplete
    rw [htr]
    rfl
  · rw [State.modDirs_link _ m _ hk]
    exact ⟨rfl, rfl⟩

theorem State.does_retrain_fails {s : State} {m : Nat} (htr : (s.link m).training = true) :
    s.does (.retrainComplete m false) fun t => t.boot.cause = 7 ∧ t.boot.stage = 0 ∧ t.now = 0 := by
  refine ⟨s.linkDown m, ?_, rfl, rfl, rfl⟩
  show execRetrainComplete m false s = _
  unfold execRetrainComplete
  rw [htr]
  rfl

/-! A replay buffer's error: the transactions lost are issued again (R397). -/

/-- A transaction queued at a link leaves every link's replay buffer, and joins its queue. -/
theorem State.queueTrans_link (s : State) (k tag req : Nat) (part : Option Nat) (addr : Nat) (resp : Option Nat) (j : Nat) :
    ((s.queueTrans k tag req part addr resp).link j).replay = (s.link j).replay ∧
      ((s.queueTrans k tag req part addr resp).link j).queue = (s.link j).queue ++
        if j = k then [{ n := s.nextId, tag := tag, req := req, part := part, addr := addr, resp := resp }] else [] := by
  have hlink : (s.queueTrans k tag req part addr resp).link j =
      if j = k then { s.link k with queue := (s.link k).queue ++ [{ n := s.nextId, tag := tag, req := req, part := part, addr := addr, resp := resp }] } else s.link j := by
    refine (State.link_congr
      (s := s.modLink k fun l => { l with queue := l.queue ++ [{ n := s.nextId, tag := tag, req := req, part := part, addr := addr, resp := resp }] }) (by rfl) j).trans ?_
    rw [State.modLink_link]
  rw [hlink]
  by_cases hj : j = k
  · rw [if_pos hj, if_pos hj, hj]
    exact ⟨rfl, rfl⟩
  · rw [if_neg hj, if_neg hj, List.append_nil]
    exact ⟨rfl, rfl⟩

/-- The transactions of a list queued again, each at the link of its tag. -/
def State.requeued (s : State) (l : List Trans) : State :=
  l.foldl (fun s t => s.queueTrans (linkTo (t.tag / 2 ^ 12 % 32) (1 - t.tag / 2 ^ 17)) t.tag t.req t.part t.addr none) s

theorem State.requeued_replay (l : List Trans) (s : State) (j : Nat) : ((s.requeued l).link j).replay = (s.link j).replay := by
  unfold State.requeued
  induction l generalizing s with
  | nil => rfl
  | cons t l ih => rw [List.foldl_cons, ih, (State.queueTrans_link ..).1]

theorem State.requeued_keeps (l : List Trans) (s : State) (j : Nat) {y : Trans} (hy : y ∈ (s.link j).queue) : y ∈ ((s.requeued l).link j).queue := by
  unfold State.requeued
  induction l generalizing s with
  | nil => exact hy
  | cons t l ih =>
    rw [List.foldl_cons]
    refine ih _ ?_
    rw [(State.queueTrans_link ..).2]
    exact List.mem_append_left _ hy

theorem State.requeued_mem (l : List Trans) (s : State) {x : Trans} (hx : x ∈ l) :
    ∃ y ∈ ((s.requeued l).link (linkTo (x.tag / 2 ^ 12 % 32) (1 - x.tag / 2 ^ 17))).queue, y.tag = x.tag ∧ y.req = x.req ∧ y.resp = none := by
  induction l generalizing s with
  | nil => exact absurd hx List.not_mem_nil
  | cons t l ih =>
    rcases List.mem_cons.mp hx with rfl | hrest
    · refine ⟨{ n := s.nextId, tag := x.tag, req := x.req, part := x.part, addr := x.addr, resp := none }, ?_, rfl, rfl, rfl⟩
      refine State.requeued_keeps l (s.queueTrans _ _ _ _ _ _) _ ?_
      rw [(State.queueTrans_link ..).2, if_pos rfl]
      exact List.mem_append_right _ (List.mem_singleton.mpr rfl)
    · exact ih (s.queueTrans _ _ _ _ _ _) hrest

theorem State.linkRecords_links (l : List Trans) (s : State) :
    (l.foldl (fun s t => s.linkRecord 13 1 codeReplayReissue t.tag (t.tag / 2 ^ 17) [{ seq := 0, ts := [t] }]) s).links = s.links := by
  induction l generalizing s with
  | nil => rfl
  | cons t l ih =>
    obtain ⟨b, hb⟩ := State.linkRecord_banks s 13 1 codeReplayReissue t.tag (t.tag / 2 ^ 17) [{ seq := 0, ts := [t] }]
    rw [List.foldl_cons, ih, hb]

theorem State.does_replay_reissue {s : State} {m lo hi : Nat} (hm : m < 16) (hlost : ∃ f ∈ (s.link m).replay, lo ≤ f.seq ∧ f.seq ≤ hi) :
    s.does (.replayReissue m lo hi) fun t => (t.link m).replay = (s.link m).replay.filter (fun f => decide (f.seq < lo ∨ hi < f.seq)) ∧
      ∀ f ∈ (s.link m).replay, lo ≤ f.seq → f.seq ≤ hi → ∀ x ∈ f.ts, (∃ e ∈ s.outs, e.tag = x.tag ∧ e.done = false) →
        ∃ y ∈ (t.link (linkTo (x.tag / 2 ^ 12 % 32) (1 - x.tag / 2 ^ 17))).queue, y.tag = x.tag ∧ y.req = x.req ∧ y.resp = none := by
  let lost := (s.link m).replay.filter fun f => decide (lo ≤ f.seq ∧ f.seq ≤ hi)
  let keep := (s.link m).replay.filter fun f => !decide (lo ≤ f.seq ∧ f.seq ≤ hi)
  let skip := decide (lo ≤ (s.link m).expect ∧ (s.link m).expect ≤ hi)
  let s1 := s.modLink m fun l => { l with
    replay := keep, wire := l.wire.filter fun f => !decide (lo ≤ f.seq ∧ f.seq ≤ hi)
    expect := if skip then (hi + 1) % 2 ^ 12 else (s.link m).expect
    resend := if skip then (keep.head?.map Flit.seq) else (s.link m).resend, again := if skip then (s.link m).crossing else (s.link m).again }
  let again := (lost.flatMap Flit.ts).filter fun t => s.outs.any fun e => e.tag == t.tag && !e.done
  let t := again.foldl (fun s t => s.linkRecord 13 1 codeReplayReissue t.tag (t.tag / 2 ^ 17) [{ seq := 0, ts := [t] }]) (s1.requeued again)
  have hne : lost.isEmpty = false := by
    obtain ⟨f, hf, hlo, hhi⟩ := hlost
    exact List.isEmpty_eq_false_iff.mpr (List.ne_nil_of_mem (List.mem_filter.mpr ⟨hf, decide_eq_true ⟨hlo, hhi⟩⟩))
  have hlink : ∀ j, t.link j = (s1.requeued again).link j := State.link_congr (State.linkRecords_links again (s1.requeued again))
  refine ⟨t, ?_, ?_, fun f hf hlo hhi x hx hopen => ?_⟩
  · show execReplayReissue m lo hi s = _
    unfold execReplayReissue
    rw [if_neg (by omega)]
    dsimp only
    rw [if_neg (ne_true_of_eq_false hne)]
    rfl
  · rw [hlink, State.requeued_replay, State.modLink_self]
    refine List.filter_congr fun f _ => ?_
    rw [← decide_not]
    exact decide_eq_decide.mpr (by omega)
  · rw [hlink]
    obtain ⟨e, he, htag, hdone⟩ := hopen
    refine State.requeued_mem again s1 (List.mem_filter.mpr ⟨List.mem_flatMap.mpr ⟨f, List.mem_filter.mpr ⟨hf, decide_eq_true ⟨hlo, hhi⟩⟩, hx⟩, ?_⟩)
    exact List.any_eq_true.mpr ⟨e, he, by rw [htag, hdone, beq_self_eq_true]; rfl⟩

/-! Requests from the other die, and their answers (R392, R396). -/

/-- An answer is queued at the link of its transaction's tag. -/
theorem State.respond_answers {s u : State} (h : u.links = s.links) (x : Trans) (v : Nat) : let k := linkTo (x.tag / 2 ^ 12 % 32) (x.tag / 2 ^ 17)
    ∃ y, ((u.respond x v).link k).queue = (s.link k).queue ++ [y] ∧ y.tag = x.tag ∧ y.req = x.req ∧ y.resp = some v := by
  refine ⟨{ n := u.nextId, tag := x.tag, req := x.req, part := x.part, addr := x.addr, resp := some v }, ?_, rfl, rfl, rfl⟩
  unfold State.respond
  rw [(State.queueTrans_link ..).2, if_pos rfl, State.link_congr h]

/-- What a performed request leaves as it was. -/
theorem State.performed_frame (s : State) (r : Req) (v : Nat) : ∃ cores reqs nacks nextId, s.performed r v = { s with cores := cores, reqs := reqs, nacks := nacks, nextId := nextId } := by
  obtain ⟨k, hk⟩ : ∃ k, r.kind = k := ⟨_, rfl⟩
  unfold State.performed
  rw [hk]
  cases k
  all_goals
    dsimp only
  case save => exact ⟨_, _, _, _, rfl⟩
  case streamOut => exact ⟨_, _, _, _, rfl⟩
  all_goals split <;> exact ⟨_, _, _, _, rfl⟩

theorem State.does_remote_again {s : State} {n : Nat} {x : Trans} (hx : s.arrived.find? (fun x => x.n == n && x.resp.isNone) = some x) {d : DupEntry}
    (hd : s.dups.find? (fun d => d.tag == x.tag) = some d) : s.does (.remoteRequestArrival n) fun t =>
      (let k := linkTo (x.tag / 2 ^ 12 % 32) (x.tag / 2 ^ 17)
        ∃ y, (t.link k).queue = (s.link k).queue ++ [y] ∧ y.tag = x.tag ∧ y.req = x.req ∧ y.resp = some d.value) ∧ (∀ y ∈ t.arrived, y.n ≠ n) ∧ s.sameBytes t := by
  let s1 : State := { s with arrived := s.arrived.filter fun u => u.n ≠ n }
  refine ⟨s1.respond x d.value, ?_, State.respond_answers (u := s1) rfl x d.value, fun y hy => ?_, State.sameBytes_of_bytes rfl⟩
  · show execRemoteRequestArrival n s = _
    unfold execRemoteRequestArrival
    rw [hx]
    dsimp only
    rw [hd]
  · simpa using (List.mem_filter.mp hy).2

theorem State.does_remote_store {s : State} {n : Nat} {x : Trans} (hx : s.arrived.find? (fun x => x.n == n && x.resp.isNone) = some x) {r : Req}
    (hd : ∀ d ∈ s.dups, d.tag ≠ x.tag) (hr : s.req x.req = some r) (hport : s.portTakes (lineOf r.pa) x.at_ (linkRank (x.tag / 2 ^ 12 % 8)) = true) (hk : r.kind = .store)
    (hbe : r.be = allBytes r.size) : s.does (.remoteRequestArrival n) fun t =>
      (let k := linkTo (x.tag / 2 ^ 12 % 32) (x.tag / 2 ^ 17)
        ∃ y, (t.link k).queue = (s.link k).queue ++ [y] ∧ y.tag = x.tag ∧ y.req = x.req ∧ y.resp = some 0) ∧
      t.physRead r.pa r.size = r.data % 2 ^ (8 * r.size) ∧ t.req x.req = some { r with stage := .performed } := by
  obtain ⟨hstore, hatomic⟩ := Req.isStore_of_store (.inl hk)
  obtain ⟨hconsumes, hdev, hdevload, hload, hvload⟩ : r.consumes = false ∧ r.isDevice = false ∧ r.isDevLoad = false ∧ r.isLoad = false ∧ r.isVload = false := by
    unfold Req.consumes Req.isAtomic Req.isDevice Req.isDevLoad Req.isLoad Req.isVload
    rw [hk]
    exact ⟨rfl, rfl, rfl, rfl, rfl⟩
  have hnone : s.dups.find? (fun d => d.tag == x.tag) = none := List.find?_eq_none.mpr fun d hm => by simpa using hd d hm
  let s1 : State := { s with arrived := s.arrived.filter fun u => u.n ≠ n }
  let p := s1.sliceStore (makerCtx 0 r.src) (some (r.id, r.sid)) r.pa r.size r.data r.be
  have hp : s1.Stored p := s1.sliceStore_stored _ _ _ _ _ _
  let s3 : State := { p with dups := p.dups ++ [{ tag := x.tag, value := 0 }], free := p.free + 1 }
  have hlinks : (s3.performed r 0).links = s.links := by
    obtain ⟨_, _, _, _, hf⟩ := s3.performed_frame r 0
    rw [hf]
    show p.links = s.links
    obtain ⟨_, _, _, _, _, _, _, _, hp⟩ := hp
    rw [hp]
  have hreq : s3.req x.req = some r := (State.req_congr (t := s3) (s := s) hp.reqs x.req).trans hr
  refine ⟨(s3.performed r 0).respond x 0, ?_, State.respond_answers hlinks x 0, ?_, ?_⟩
  · show execRemoteRequestArrival n s = _
    unfold execRemoteRequestArrival
    rw [hx]
    dsimp only
    rw [hnone]
    dsimp only
    rw [show State.req { s with arrived := s.arrived.filter fun u => u.n ≠ n } x.req = some r from hr]
    dsimp only
    rw [hdev, if_neg Bool.false_ne_true, hdevload, if_neg Bool.false_ne_true, hport, Bool.not_true, if_neg Bool.false_ne_true, hconsumes, if_neg Bool.false_ne_true]
    dsimp only
    rw [hload, hvload, hstore, hatomic, Bool.or_false, if_neg Bool.false_ne_true, State.performAt_store s1 (.inl hk)]
    rfl
  · have hbytes : ((s3.performed r 0).respond x 0).bytes = p.bytes := (State.performed_bytes (s := s3) hstore 0)
    rw [State.physRead_of_bytes hbytes]
    show (s1.sliceStore _ _ _ _ _ r.be).physRead _ _ = _
    rw [hbe]
    exact State.sliceStore_reads _ _ _ _ _ _
  · have hperf := State.performed_req hreq hstore (State.req_id hr) 0
    rw [hatomic] at hperf
    exact hperf

theorem State.does_response_again {s : State} {n : Nat} {x : Trans} (hx : s.arrived.find? (fun x => x.n == n && x.resp.isSome) = some x)
    (hdone : ∀ e ∈ s.outs, e.tag = x.tag → e.done = true) :
    s.does (.remoteResponseArrival n) fun t => t.outs = s.outs ∧ t.reqs = s.reqs ∧ ∀ y ∈ t.arrived, y.n ≠ n := by
  have hnone : s.outs.find? (fun e => e.tag == x.tag && !e.done) = none := by
    rw [List.find?_eq_none]
    intro e he
    by_cases htag : e.tag = x.tag
    · simp [hdone e he htag]
    · simp [htag]
  refine ⟨{ s with arrived := s.arrived.filter fun u => u.n ≠ n }, ?_, rfl, rfl, fun y hy => by simpa using (List.mem_filter.mp hy).2⟩
  show execRemoteResponseArrival n s = _
  unfold execRemoteResponseArrival
  rw [hx]
  dsimp only
  rw [hnone]

theorem State.does_response {s : State} {n : Nat} {x : Trans} (hx : s.arrived.find? (fun x => x.n == n && x.resp.isSome) = some x)
    (hopen : ∃ e ∈ s.outs, e.tag = x.tag ∧ e.done = false) : s.does (.remoteResponseArrival n) fun t => (∀ e ∈ t.outs, e.tag = x.tag → e.done = true) ∧
      t.respAcks = s.respAcks ++ [x.tag] ∧ ∀ r op g, s.req x.req = some r → r.stage = .sent → r.kind = .amo op g → ∃ v, x.resp = some v ∧
        t.req x.req = some { r with stage := .performed, data := v } := by
  obtain ⟨e, hfind⟩ : ∃ e, s.outs.find? (fun e => e.tag == x.tag && !e.done) = some e := by
    obtain ⟨e, he, htag, hdone⟩ := hopen
    exact Option.isSome_iff_exists.mp (List.find?_isSome.mpr ⟨e, he, by rw [htag, hdone, beq_self_eq_true]; rfl⟩)
  let s2 : State := { s with
    arrived := s.arrived.filter fun u => u.n ≠ n
    outs := s.outs.map fun e => if e.tag = x.tag then { e with done := true } else e
    respAcks := s.respAcks ++ [x.tag] }
  have hexec : exec (.remoteResponseArrival n) s = (match s2.req x.req with
      | none => .next s2
      | some r => .next (if r.isDevice then s2.dropReq r.id else if r.stage = .sent then s2.performed r (x.resp.getD 0) else s2)) := by
    show execRemoteResponseArrival n s = _
    unfold execRemoteResponseArrival
    rw [hx]
    dsimp only
    rw [hfind] <;> rfl
  have houts : ∀ e ∈ s2.outs, e.tag = x.tag → e.done = true := by
    intro e he htag
    obtain ⟨o, ho, rfl⟩ := List.mem_map.mp he
    by_cases hotag : o.tag = x.tag
    · rw [if_pos hotag]
    · rw [if_neg hotag] at htag
      exact absurd htag hotag
  have hreq : s2.req x.req = s.req x.req := rfl
  cases hr : s.req x.req with
  | none =>
    rw [hreq, hr] at hexec
    exact ⟨s2, hexec, houts, rfl, fun r op g h => absurd h (by simp)⟩
  | some r =>
    rw [hreq, hr] at hexec
    refine ⟨_, hexec, ?_⟩
    by_cases hdev : r.isDevice = true
    · rw [if_pos hdev]
      refine ⟨houts, rfl, fun q op g h _ hk => ?_⟩
      obtain rfl : r = q := Option.some.inj h
      rw [Req.isDevice, hk] at hdev
      exact absurd hdev Bool.false_ne_true
    · rw [if_neg hdev]
      by_cases hsent : r.stage = .sent
      · rw [if_pos hsent]
        obtain ⟨_, _, _, _, hf⟩ := s2.performed_frame r (x.resp.getD 0)
        refine ⟨by rw [hf]; exact houts, by rw [hf], fun q op g h _ hk => ?_⟩
        obtain rfl : r = q := Option.some.inj h
        have hresp : x.resp.isSome = true := by
          have hpred := List.find?_some hx
          exact (Bool.and_eq_true _ _ ▸ hpred).2
        obtain ⟨v, hv⟩ := Option.isSome_iff_exists.mp hresp
        have hatomic : r.isAtomic = true := by rw [Req.isAtomic, hk]
        have hperf := State.performed_req (s := s2) (hreq.trans hr) (show r.isStore = true by rw [Req.isStore, hk]) (State.req_id hr) (x.resp.getD 0)
        rw [hatomic, hv] at hperf
        exact ⟨v, hv, by rw [hv]; exact hperf⟩
      · rw [if_neg hsent]
        refine ⟨houts, rfl, fun q op g h hst _ => ?_⟩
        obtain rfl : r = q := Option.some.inj h
        exact absurd hst hsent

theorem State.does_response_ack {s : State} {n : Nat} (hn : n ∈ s.respAcks) : s.does (.responseAcknowledgement n) fun t =>
    (∀ d ∈ t.dups, d.tag ≠ n) ∧ (∀ e ∈ t.outs, ¬(e.tag = n ∧ e.done = true)) ∧ t.respAcks = s.respAcks.erase n := by
  refine ⟨_, congrArg Host.Outcome.next (if_pos (List.contains_iff_mem.mpr hn)), fun d hd => ?_, fun e he => ?_, rfl⟩
  · simpa using (List.mem_filter.mp hd).2
  · have hkept := (List.mem_filter.mp he).2
    rintro ⟨htag, hdone⟩
    simp [htag, hdone] at hkept

/-- Settles O59: each event by what it leaves of the link, its replay buffer and the tables of its transactions. -/
theorem linksCarryTransactions : Obligations.LinksCarryTransactions := by
  unfold Obligations.LinksCarryTransactions
  intro s m
  exact ⟨State.does_flit_send, State.does_host_flit,
    fun f w hm hwire hat => ⟨State.does_flit_arrival hm hwire hat, State.does_flit_dropped hm hwire hat, State.does_flit_corrupt hm hwire hat⟩,
    fun k => State.does_flit_replay, fun k u a => State.does_flit_acknowledge, State.does_lane_failure, State.does_lane_down, State.does_retrain, State.does_retrain_fails,
    fun lo hi => State.does_replay_reissue,
    fun n x hx => ⟨fun d => State.does_remote_again hx, fun r hd hr hport hk hbe _ => State.does_remote_store hx hd hr hport hk hbe⟩,
    fun n x hx => ⟨State.does_response_again hx, State.does_response hx⟩, fun n => State.does_response_ack⟩

end Sys2Proof.Machine
end


section
/-!
PROOFS. Queues: their registers, fetching, completion records, and the commands FENCE, LAUNCH, REGISTER, PREEMPT and RESUME (R299, R302 to R305, R315).
-/

namespace Sys2Proof.Machine

/-! What an access of memory does not depend on, and leaves as it was. -/

theorem State.physWrite_taken (s : State) (pa n v be : Nat) : (s.physWrite pa n v be).taken = s.taken := by
  unfold State.physWrite
  split <;> rfl

theorem State.invalidate_taken (s : State) (by_ : Option (Nat × Nat)) (pa : Nat) : (s.invalidate by_ pa).taken = s.taken := by
  unfold State.invalidate
  extract_lets hit
  split
  · rfl
  · generalize List.filter hit s.farCopies = l
    induction l generalizing s with
    | nil => rfl
    | cons c l ih => exact ih _

/-- A translation depends on the partitions, the stations and the walks' memory alone, none of which an accepted read changes. -/
theorem State.accepts_queuePa (pas : List Nat) (s : State) (q : Nat) (a : Access) (p : Word) : (pas.foldl State.accept s).queuePa q a p = s.queuePa q a p := by
  induction pas generalizing s with
  | nil => rfl
  | cons pa pas ih =>
    rw [List.foldl_cons, ih]
    unfold State.accept
    split <;> rfl

/-- An entry that a table holds is mapped with its key. -/
theorem Tab.get_map_of_ne {α β : Type} {d : α} {d' : β} (g : Nat × α → β) {t : Tab α} {k : Nat} (h : Tab.get d t k ≠ d) :
    Tab.get d' (t.map fun e => (e.1, g e)) k = g (k, Tab.get d t k) := by
  induction t with
  | nil => exact absurd rfl h
  | cons e t ih =>
    obtain ⟨k', v⟩ := e
    by_cases hk : k' = k
    · subst hk
      simp [Tab.get]
    · simp only [Tab.get, List.map_cons, if_neg hk] at h ⊢
      exact ih h

theorem State.poolWaiting_keeps (s : State) : s.poolWaiting.queues = s.queues ∧ s.poolWaiting.launches = s.launches := by
  unfold State.poolWaiting
  generalize s.savedOut = l
  induction l generalizing s with
  | nil => exact ⟨rfl, rfl⟩
  | cons v l ih =>
    rw [List.foldl_cons]
    dsimp only
    split
    · exact ih (s.poolSaved v)
    · exact ih s

theorem find?_of_imp {α : Type} {p p' : α → Bool} {l : List α} {c : α} (h : l.find? p = some c) (himp : ∀ x, p' x = true → p x = true) (hc : p' c = true) :
    l.find? p' = some c := by
  induction l with
  | nil => exact absurd h (by simp)
  | cons a l ih =>
    by_cases ha : p a = true
    · rw [List.find?_cons_of_pos ha] at h
      obtain rfl : a = c := Option.some.inj h
      exact List.find?_cons_of_pos hc
    · rw [List.find?_cons_of_neg ha] at h
      rw [List.find?_cons_of_neg fun h' => ha (himp a h'), ih h]

/-! The ports that an access takes (R284). -/

/-- A state has taken further lines of the slices' ports, none of them of a list. -/
def State.NewLines (s t : State) (base : List Nat) : Prop := ∃ ls, t.taken = ls ++ s.taken ∧ ∀ l ∈ ls, l ∉ base

theorem State.NewLines.of_taken {s t : State} (h : t.taken = s.taken) (base : List Nat) : s.NewLines t base := ⟨[], h, fun _ hl => absurd hl List.not_mem_nil⟩

theorem State.NewLines.trans {s t u : State} {base : List Nat} (h : s.NewLines t base) (g : t.NewLines u base) : s.NewLines u base := by
  obtain ⟨ls, hls, hfree⟩ := h
  obtain ⟨ms, hms, hfree'⟩ := g
  refine ⟨ms ++ ls, by rw [hms, hls, List.append_assoc], fun l hl => ?_⟩
  rcases List.mem_append.mp hl with hm | hm
  · exact hfree' l hm
  · exact hfree l hm

theorem State.NewLines.congr {s t u : State} {base : List Nat} (h : s.NewLines t base) (hu : u.taken = t.taken) : s.NewLines u base := h.trans (.of_taken hu base)

/-- A step whose lines were all free has its effect. -/
theorem State.ported_free {s t : State} (h : s.NewLines t s.taken) : s.ported t = t := by
  obtain ⟨ls, hls, hfree⟩ := h
  unfold State.ported
  rw [hls, List.length_append, Nat.add_sub_cancel, List.take_left]
  refine if_neg fun hany => ?_
  obtain ⟨l, hl, hin⟩ := List.any_eq_true.mp hany
  exact hfree l hl (List.contains_iff_mem.mp hin)

theorem State.accept_newLines (s : State) {pa : Nat} {base : List Nat} (h : lineOf pa ∉ base) : s.NewLines (s.accept pa) base := by
  unfold State.accept
  split
  · exact .of_taken rfl base
  · exact ⟨[lineOf pa], rfl, fun l hl => by rw [List.mem_singleton.mp hl]; exact h⟩

theorem State.acceptWrite_newLines (s : State) (m : Maker) {pa : Nat} (n be : Nat) {base : List Nat} (h : lineOf pa ∉ base) : s.NewLines (s.acceptWrite m pa n be) base := by
  have haccept := s.accept_newLines h
  unfold State.acceptWrite
  extract_lets t s1 a
  split
  · exact haccept
  · split
    · exact haccept.congr rfl
    · exact haccept.congr (State.physWrite_taken s1 (t.base + 16 * (t.widx % t.cap)) 16 (traceWords m a.1 a.2 t.seq) (allBytes 16))

theorem State.sliceStore_newLines (s : State) (m : Maker) (by_ : Option (Nat × Nat)) {pa : Nat} (n v be : Nat) {base : List Nat} (h : lineOf pa ∉ base) :
    s.NewLines (s.sliceStore m by_ pa n v be) base := by
  unfold State.sliceStore
  split
  · exact .of_taken (State.physWrite_taken s _ _ _ _) base
  · have hwrite := (s.acceptWrite_newLines m n be h).congr (State.physWrite_taken _ pa n v be)
    extract_lets s1
    refine State.NewLines.congr ?_ (State.invalidate_taken _ by_ pa)
    split
    · exact hwrite.congr rfl
    · exact hwrite

theorem State.accepts_stored (pas : List Nat) (s : State) : s.Stored (pas.foldl State.accept s) := by
  induction pas generalizing s with
  | nil => exact .refl s
  | cons pa pas ih => exact (s.accept_stored pa).trans (ih _)

theorem State.accepts_newLines (pas : List Nat) (s : State) {base : List Nat} (h : ∀ pa ∈ pas, lineOf pa ∉ base) : s.NewLines (pas.foldl State.accept s) base := by
  induction pas generalizing s with
  | nil => exact .of_taken rfl base
  | cons pa pas ih => exact (s.accept_newLines (h pa List.mem_cons_self)).trans (ih _ fun x hx => h x (List.mem_cons_of_mem _ hx))

/-! The reads and commands of a queue (R303 to R305). -/

theorem State.Stored.queue {s t : State} (h : s.Stored t) (q : Nat) : t.queue q = s.queue q := by
  obtain ⟨_, _, _, _, _, _, _, _, rfl⟩ := h
  rfl

theorem State.Stored.part {s t : State} (h : s.Stored t) (p : Nat) : t.part p = s.part p := by
  obtain ⟨_, _, _, _, _, _, _, _, rfl⟩ := h
  rfl

theorem State.queueSeen_stored (s : State) (q : Nat) (p : Word) (n : Nat) : s.Stored (s.queueSeen q p n) := State.accepts_stored _ s

theorem State.queueSeen_newLines (s : State) (q : Nat) (p : Word) (n : Nat) {base : List Nat}
    (h : ∀ i < n, ∀ pa, s.queuePa q .read (p + w64 (64 * i)) = .ok pa → lineOf pa ∉ base) : s.NewLines (s.queueSeen q p n) base := by
  refine State.accepts_newLines _ s fun pa hpa => ?_
  obtain ⟨i, hi, hat⟩ := List.mem_filterMap.mp hpa
  cases hq : s.queuePa q .read (p + w64 (64 * i)) with
  | error e =>
    rw [hq] at hat
    exact absurd hat (by simp)
  | ok x =>
    rw [hq] at hat
    obtain rfl : x = pa := Option.some.inj hat
    exact h i (List.mem_range.mp hi) x hq

theorem State.queueSeen_newLines_one (s : State) (q : Nat) (p : Word) {base : List Nat} (h : ∀ pa, s.queuePa q .read p = .ok pa → lineOf pa ∉ base) :
    s.NewLines (s.queueSeen q p 1) base := by
  refine s.queueSeen_newLines q p 1 fun i hi pa hpa => h pa ?_
  obtain rfl : i = 0 := by omega
  rw [← hpa, Nat.mul_zero, show w64 0 = 0#64 from rfl, BitVec.add_zero]

/-- A command that may start is the one that its queue holds at its position. -/
theorem State.cmdAt_of_command {s : State} {q n op : Nat} {c : Cmd} (h : s.command q n = some c) (hop : c.op = op) (hstart : c.started = true ∨ (s.queue q).cqFull = false) :
    s.cmdAt q n op = some c := by
  have hn : (c.n == n) = true := List.find?_some (p := fun c : Cmd => c.n == n) h
  refine find?_of_imp (p := fun c : Cmd => c.n == n) h (fun x hx => ?_) ?_
  · simp only [Bool.and_eq_true] at hx
    exact hx.1.1
  · rw [hn, hop, beq_self_eq_true]
    rcases hstart with hs | hs <;> simp [hs]

/-- A command that is done completes with the words given, whatever was marked of it before. -/
theorem State.finishCmd_completes {s u : State} {q n : Nat} {c d : Cmd} (hd : (u.queue q).cmds.find? (fun c => c.n == n) = some d) (hn : c.n = n) (htag : d.ctag = c.ctag)
    (hdones : (u.queue q).dones = (s.queue q).dones) (status code word1 : Nat) : s.completesCommand (u.finishCmd q n status code word1) q c status code word1 := by
  have hqueue : (u.finishCmd q n status code word1).queue q = { u.queue q with
      cmds := (u.queue q).cmds.filter fun c => c.n ≠ n, dones := (u.queue q).dones ++ [{ ctag := d.ctag, code := code, status := status, word1 := word1 }] } := by
    unfold State.finishCmd
    rw [State.modQueue_self, hd]
  unfold State.completesCommand
  rw [hqueue, hdones, htag, hn]
  exact ⟨rfl, fun e he => by simpa using (List.mem_filter.mp he).2⟩

theorem State.command_n {s : State} {q n : Nat} {c : Cmd} (h : s.command q n = some c) : c.n = n := by simpa using List.find?_some h

theorem State.finishCmd_completes_of {s u : State} {q n : Nat} {c : Cmd} (h : s.command q n = some c) (hu : u.queue q = s.queue q) (status code word1 : Nat) :
    s.completesCommand (u.finishCmd q n status code word1) q c status code word1 :=
  State.finishCmd_completes (d := c) (by rw [hu]; exact h) (State.command_n h) rfl (by rw [hu]) status code word1

/-- Marking a command as started keeps it at its position. -/
theorem State.startCmd_find {s : State} {q n : Nat} {c : Cmd} (h : s.command q n = some c) :
    ((s.startCmd q n).queue q).cmds.find? (fun c => c.n == n) = some { c with started := true } := by
  have hkeeps : ((fun c : Cmd => c.n == n) ∘ fun c => if c.n = n then { c with started := true } else c) = fun c => c.n == n := by
    funext c
    by_cases hc : c.n = n <;> simp [hc]
  unfold State.startCmd
  rw [State.modQueue_self]
  show ((s.queue q).cmds.map _).find? _ = _
  rw [List.find?_map, hkeeps, show (s.queue q).cmds.find? (fun c => c.n == n) = some c from h]
  simp [State.command_n h]

theorem State.startCmd_completes {s u : State} {q n : Nat} {c : Cmd} (h : s.command q n = some c) (hu : u.queue q = (s.startCmd q n).queue q) (status code word1 : Nat) :
    s.completesCommand (u.finishCmd q n status code word1) q c status code word1 :=
  State.finishCmd_completes (d := { c with started := true }) (by rw [hu]; exact State.startCmd_find h) (State.command_n h) rfl
    (by rw [hu, State.startCmd, State.modQueue_self]) status code word1

/-! Registers (R302, R303). -/

theorem State.overrun_bytes (s : State) (q : Nat) : (s.overrun q).bytes = s.bytes := by
  unfold State.overrun
  extract_lets k r s1
  split
  · rfl
  · split <;> rfl

theorem State.does_qpidx (s : State) (q : Nat) (v : Word) : s.does (.qpidxWrite q v) fun t => (t.queue q).qpidx = v.toNat % 2 ^ 32 ∧
    (t.queue q).en = ((s.queue q).en && decide ({ s.queue q with qpidx := v.toNat % 2 ^ 32 }.ahead ≤ 2 ^ (s.queue q).log2n)) ∧ s.sameBytes t := by
  refine ⟨_, rfl, ?_⟩
  unfold State.setQpidx
  dsimp only
  rw [State.overrun_queue, State.modQueue_self]
  exact ⟨rfl, rfl, State.sameBytes_of_bytes (State.overrun_bytes _ q)⟩

theorem State.does_queue_enable (s : State) (q : Nat) (en : Bool) : s.does (.queueEnable q en) fun t =>
    (t.queue q).en = (en && ((s.queue q).owner.isSome || q == monitorQueue) && decide ((s.queue q).ahead ≤ 2 ^ (s.queue q).log2n)) ∧ s.sameBytes t := by
  refine ⟨_, rfl, ?_⟩
  unfold State.setEn
  dsimp only
  rw [State.overrun_queue, State.modQueue_self]
  exact ⟨rfl, State.sameBytes_of_bytes (State.overrun_bytes _ q)⟩

theorem State.does_cqridx (s : State) (q : Nat) (v : Word) : s.does (.cqridxWrite q v) fun t => (t.queue q).cqridx = v.toNat % 2 ^ 32 ∧ s.sameBytes t := by
  refine ⟨_, rfl, ?_⟩
  unfold State.setCqridx
  dsimp only
  rw [State.overrun_queue, State.modQueue_self]
  exact ⟨rfl, State.sameBytes_of_bytes (State.overrun_bytes _ q)⟩

/-! Fetching, and completion records. -/

theorem State.cmdOk_congr {s t : State} (h : t.boot = s.boot) (q : Nat) (c : Cmd) : t.cmdOk q c = s.cmdOk q c := by
  unfold State.cmdOk State.feature
  rw [h]

theorem State.Stored.boot {s t : State} (h : s.Stored t) : t.boot = s.boot := by
  obtain ⟨_, _, _, _, _, _, _, _, rfl⟩ := h
  rfl

section Fetch
variable {s : State} {q v : Nat} (hen : (s.queue q).en = true) (hready : s.boot.ready = true) (hmin : s.boot.minimal = true → q = 0 ∨ q = monitorQueue)
  (hahead : (s.queue q).ahead ≠ 0) (hfull : (s.queue q).cqFull = false) (hcmds : ∀ c ∈ (s.queue q).cmds, c.op ≠ 6 ∧ c.n ≠ (s.queue q).qcidx)
  (howner : (s.queue q).owner ≠ none ∨ q = monitorQueue)
include hen hready hmin hahead hfull hcmds howner

/-- A fetch that nothing holds back reads the next command, and takes it or refuses it. -/
theorem State.exec_commandFetch (hread : s.queueRead q ((s.queue q).qbase + wordOfInt ((64 * ((s.queue q).qcidx % 2 ^ (s.queue q).log2n) : Nat) : Int)) 8 = .ok v)
    (hport : ∀ pa, s.queuePa q .read ((s.queue q).qbase + wordOfInt ((64 * ((s.queue q).qcidx % 2 ^ (s.queue q).log2n) : Nat) : Int)) = .ok pa → lineOf pa ∉ s.taken) :
    let c : Cmd := { n := (s.queue q).qcidx, w := BitVec.ofNat 512 v, at_ := s.now, started := false }
    ∃ u : State, u.queue q = { s.queue q with qcidx := ((s.queue q).qcidx + 1) % 2 ^ 32, cmds := (s.queue q).cmds ++ [c] } ∧
      exec (.commandFetch q) s = .next (if s.cmdOk q c then u else u.finishCmd q c.n 1 codeCmdInvalid 0) := by
  intro c
  have hgoes : (!(s.queue q).en || !s.boot.ready || (s.queue q).ahead == 0 || (s.queue q).cqFull || ((s.queue q).cmds.any fun c => c.op == 6) ||
      ((s.queue q).owner.isNone && q != monitorQueue) || (s.boot.minimal && q != 0 && q != monitorQueue)) = false := by
    have hfence : ((s.queue q).cmds.any fun c => c.op == 6) = false := by
      rw [List.any_eq_false]
      intro c hc
      simpa using (hcmds c hc).1
    have hown : ((s.queue q).owner.isNone && q != monitorQueue) = false := by
      rcases howner with h | h
      · rw [Option.isNone_eq_false_iff.mpr (Option.isSome_iff_ne_none.mpr h), Bool.false_and]
      · rw [h]
        simp
    have hsmall : (s.boot.minimal && q != 0 && q != monitorQueue) = false := by
      cases hm : s.boot.minimal with
      | false => rfl
      | true => rcases hmin hm with h | h <;> simp [h]
    rw [hen, hready, hfull, hfence, hown, hsmall, beq_false_of_ne hahead]
    rfl
  rw [wordOfInt_natCast] at hread hport
  have hstored := s.queueSeen_stored q ((s.queue q).qbase + w64 (64 * ((s.queue q).qcidx % 2 ^ (s.queue q).log2n))) 1
  have hlines := s.queueSeen_newLines_one q ((s.queue q).qbase + w64 (64 * ((s.queue q).qcidx % 2 ^ (s.queue q).log2n))) hport
  obtain ⟨w, hw⟩ : ∃ w, s.queueSeen q ((s.queue q).qbase + w64 (64 * ((s.queue q).qcidx % 2 ^ (s.queue q).log2n))) 1 = w := ⟨_, rfl⟩
  rw [hw] at hstored hlines
  refine ⟨w.modQueue q fun k => { k with qcidx := (k.qcidx + 1) % 2 ^ 32, cmds := k.cmds ++ [c] }, ?_, ?_⟩
  · rw [State.modQueue_self, hstored.queue]
  · show execCommandFetch q s = _
    unfold execCommandFetch
    dsimp only
    rw [hgoes, if_neg Bool.false_ne_true, hread]
    dsimp only
    have hnow : w.now = s.now := by
      obtain ⟨_, _, _, _, _, _, _, _, hrec⟩ := hstored
      rw [hrec]
    rw [hw, State.cmdOk_congr hstored.boot, hnow, show ({ n := (s.queue q).qcidx, w := BitVec.ofNat 512 v, at_ := s.now, started := false } : Cmd) = c from rfl]
    refine congrArg Host.Outcome.next ?_
    by_cases hok : s.cmdOk q c = true
    · rw [if_pos hok]
      exact State.ported_free (hlines.congr rfl)
    · rw [if_neg hok]
      exact State.ported_free (hlines.congr rfl)

theorem State.does_command_fetch (hread : s.queueRead q ((s.queue q).qbase + wordOfInt ((64 * ((s.queue q).qcidx % 2 ^ (s.queue q).log2n) : Nat) : Int)) 8 = .ok v)
    (hport : ∀ pa, s.queuePa q .read ((s.queue q).qbase + wordOfInt ((64 * ((s.queue q).qcidx % 2 ^ (s.queue q).log2n) : Nat) : Int)) = .ok pa → lineOf pa ∉ s.taken) :
    let c : Cmd := { n := (s.queue q).qcidx, w := BitVec.ofNat 512 v, at_ := s.now, started := false }
    (s.cmdOk q c = true → s.does (.commandFetch q) fun t => (t.queue q).cmds = (s.queue q).cmds ++ [c] ∧ (t.queue q).qcidx = ((s.queue q).qcidx + 1) % 2 ^ 32) ∧
      (s.cmdOk q c = false → s.does (.commandFetch q) fun t => s.completesCommand t q c 1 codeCmdInvalid 0 ∧ (t.queue q).qcidx = ((s.queue q).qcidx + 1) % 2 ^ 32) := by
  intro c
  obtain ⟨u, hu, hexec⟩ := State.exec_commandFetch hen hready hmin hahead hfull hcmds howner hread hport
  have hfind : (u.queue q).cmds.find? (fun d => d.n == c.n) = some c := by
    rw [hu]
    show ((s.queue q).cmds ++ [c]).find? _ = _
    rw [List.find?_append, List.find?_eq_none.mpr fun d hd => by simpa using (hcmds d hd).2]
    simp
  constructor
  · intro hok
    refine ⟨_, hexec, ?_⟩
    dsimp only
    rw [if_pos hok, hu]
    exact ⟨rfl, rfl⟩
  · intro hbad
    refine ⟨_, hexec, ?_⟩
    have hdone := State.finishCmd_completes (s := s) hfind rfl rfl (by rw [hu]) 1 codeCmdInvalid 0
    rw [if_neg (ne_true_of_eq_false hbad)]
    refine ⟨hdone, ?_⟩
    unfold State.finishCmd
    rw [State.modQueue_self, hfind, hu]

end Fetch

theorem State.does_completion_record {s : State} {q pa : Nat} {d : Done} {l : List Done} (hdones : (s.queue q).dones = d :: l) (hfull : (s.queue q).cqFull = false)
    (hpa : s.queuePa q .write ((s.queue q).cqbase + wordOfInt ((16 * ((s.queue q).cqwidx % 2 ^ (s.queue q).cqlog2n) : Nat) : Int)) = .ok pa) (hline : lineOf pa ∉ s.taken) :
    s.does (.completionRecordWrite q) fun t => (t.queue q).dones = l ∧ (t.queue q).cqwidx = ((s.queue q).cqwidx + 1) % 2 ^ 32 ∧
      t.physRead pa 16 = (d.ctag * 2 ^ 32 + d.code * 2 ^ 16 + d.status + d.word1 * 2 ^ 64) % 2 ^ 128 := by
  let v := d.ctag * 2 ^ 32 + d.code * 2 ^ 16 + d.status + d.word1 * 2 ^ 64
  let u := s.sliceStore makerHost none pa 16 v (allBytes 16)
  have hu : s.Stored u := s.sliceStore_stored _ _ _ _ _ _
  refine ⟨u.modQueue q fun k => { k with dones := l, cqwidx := (k.cqwidx + 1) % 2 ^ 32 }, ?_, ?_⟩
  · show execCompletionRecordWrite q s = _
    unfold execCompletionRecordWrite
    rw [wordOfInt_natCast] at hpa
    dsimp only
    rw [hdones]
    dsimp only
    rw [hfull, if_neg Bool.false_ne_true, hpa]
    exact congrArg Host.Outcome.next (State.ported_free ((s.sliceStore_newLines _ _ _ _ _ hline).congr rfl))
  · dsimp only
    rw [State.modQueue_self, hu.queue]
    exact ⟨rfl, rfl, (State.physRead_of_bytes (State.bytes_modQueue u q _) pa 16).trans (State.sliceStore_reads _ _ _ _ _ _)⟩

/-! The commands FENCE, LAUNCH, REGISTER, PREEMPT and RESUME (R299, R304, R315). -/

section Commands
variable {s : State} {q n : Nat} {c : Cmd} (hc : s.command q n = some c)
include hc

theorem State.does_fence_command (hstart : c.started = true ∨ (s.queue q).cqFull = false) (hop : c.op = 6) (hhead : (s.queue q).cmds.head? = some c) :
    s.does (.fenceCommand q n) fun t => s.completesCommand t q c 0 0 0 := by
  refine ⟨s.finishCmd q n 0 0 0, ?_, State.finishCmd_completes_of hc rfl 0 0 0⟩
  show execFenceCommand q n s = _
  unfold execFenceCommand
  rw [State.cmdAt_of_command hc hop hstart, hhead]
  exact congrArg Host.Outcome.next (if_pos (by simp [State.command_n hc]))

/-- A LAUNCH takes its id, and joins its queue or fails. -/
theorem State.exec_launchCommand (hstart : c.started = true ∨ (s.queue q).cqFull = false) (hop : c.op = 1) (hfresh : c.started = false) :
    exec (.launchCommand q n) s =
      (let p := s.queuePart q
      let lid := (s.part p).nextLid
      let s1 := (s.startCmd q n).modPart p fun t => { t with nextLid := if lid + 1 < 2 ^ 32 then lid + 1 else 1 }
      if 1024 ≤ c.arg then .next (s1.finishCmd q n 1 Trap.launchInvalid.code lid)
      else
        .next (s1.addLaunch { part := p, lid := lid, queue := q, origin := .command n, tix := c.arg, gangs := bitsOf (c.word 1) 31 0
                              args := (List.range 6).map fun k => w64 (c.word (k + 2))
                              prio := if (c.word 1).testBit 34 then some (bitsOf (c.word 1) 33 32) else none, pid := (s.queue q).qpid, arrived := s.now })) := by
  show execLaunchCommand q n s = _
  unfold execLaunchCommand
  rw [State.cmdAt_of_command hc hop hstart]
  dsimp only
  rw [hfresh, if_neg Bool.false_ne_true]

theorem State.does_launch_command (hstart : c.started = true ∨ (s.queue q).cqFull = false) (hop : c.op = 1) (hfresh : c.started = false) (harg : c.arg < 1024) :
    s.does (.launchCommand q n) fun t => ∃ l : Launch, t.launches = s.launches ++ [l] ∧ l.part = s.queuePart q ∧
      l.lid = (s.part (s.queuePart q)).nextLid ∧ l.queue = q ∧ l.tix = c.arg ∧ l.origin = .command n ∧ l.gangs = c.word 1 % 2 ^ 32 ∧ l.arrived = s.now := by
  refine ⟨_, (State.exec_launchCommand hc hstart hop hfresh).trans (if_neg (by omega)), _, rfl, rfl, rfl, rfl, rfl, rfl, ?_, rfl⟩
  show bitsOf (c.word 1) 31 0 = _
  rw [bitsOf, Nat.shiftRight_zero]

theorem State.does_launch_invalid (hstart : c.started = true ∨ (s.queue q).cqFull = false) (hop : c.op = 1) (hfresh : c.started = false) (harg : 1024 ≤ c.arg) :
    s.does (.launchCommand q n) fun t => s.completesCommand t q c 1 Trap.launchInvalid.code (s.part (s.queuePart q)).nextLid :=
  ⟨_, (State.exec_launchCommand hc hstart hop hfresh).trans (if_pos harg), State.startCmd_completes hc rfl _ _ _⟩

theorem State.does_register (hstart : c.started = true ∨ (s.queue q).cqFull = false) {v : Nat} {e a : Option (BitVec 512)} (hop : c.op = 7) (harg : c.arg < 1024)
    (hread : s.queueRead q (wordOfInt (c.word 1 : Nat)) 8 = .ok v) (hgood : recordBad (s.part (s.queuePart q)) (blockWord v) = false)
    (hlines : s.recordLines q (blockWord v) = .ok (e, a)) (hport : ∀ x pa, s.queuePa q .read x = .ok pa → lineOf pa ∉ s.taken) :
    s.does (.register q n) fun t => s.completesCommand t q c 0 0 0 ∧ Tab.get none (t.part (s.queuePart q)).tmpl c.arg = some (recordTemplate (blockWord v) e a) := by
  rw [wordOfInt_natCast] at hread
  let w := blockWord v
  let s1 := s.queueSeen q (w64 (c.word 1)) 1
  let s2 := if e.isSome then s1.queueSeen q (w64 (w 0 / 64 * 64)) 1 else s1
  let s3 := if a.isSome then s2.queueSeen q (w64 (w 1 / 64 * 64)) 1 else s2
  have hseen : ∀ (u : State) (x : Word), s.Stored u → s.NewLines u s.taken → (∀ y, u.queuePa q .read y = s.queuePa q .read y) →
      s.Stored (u.queueSeen q x 1) ∧ s.NewLines (u.queueSeen q x 1) s.taken ∧ ∀ y, (u.queueSeen q x 1).queuePa q .read y = s.queuePa q .read y := by
    intro u x hu hn hq
    refine ⟨hu.trans (u.queueSeen_stored q x 1), hn.trans (u.queueSeen_newLines_one q x fun pa hpa => ?_), fun y => (State.accepts_queuePa _ u q .read y).trans (hq y)⟩
    exact hport x pa ((hq x).symm.trans hpa)
  obtain ⟨hst1, hn1, hq1⟩ := hseen s (w64 (c.word 1)) (.refl s) (.of_taken rfl _) fun _ => rfl
  obtain ⟨hst2, hn2, hq2⟩ : s.Stored s2 ∧ s.NewLines s2 s.taken ∧ ∀ y, s2.queuePa q .read y = s.queuePa q .read y := by
    unfold s2
    split
    · exact hseen s1 _ hst1 hn1 hq1
    · exact ⟨hst1, hn1, hq1⟩
  obtain ⟨hst3, hn3⟩ : s.Stored s3 ∧ s.NewLines s3 s.taken := by
    unfold s3
    split
    · obtain ⟨h, h', -⟩ := hseen s2 (w64 (w 1 / 64 * 64)) hst2 hn2 hq2
      exact ⟨h, h'⟩
    · exact ⟨hst2, hn2⟩
  let u := s3.modPart (s.queuePart q) fun t => { t with tmpl := Tab.set none t.tmpl c.arg (some (recordTemplate w e a)) }
  refine ⟨u.finishCmd q n 0 0 0, ?_, State.finishCmd_completes_of hc (hst3.queue q) 0 0 0, ?_⟩
  · show execRegister q n s = _
    unfold execRegister
    rw [State.cmdAt_of_command hc hop hstart]
    dsimp only
    rw [if_neg (by omega), hread]
    dsimp only
    rw [hgood, if_neg Bool.false_ne_true, hlines]
    exact congrArg Host.Outcome.next (State.ported_free (hn3.congr rfl))
  · have htmpl : (u.part (s.queuePart q)).tmpl = Tab.set none (s3.part (s.queuePart q)).tmpl c.arg (some (recordTemplate w e a)) := by
      simp only [u, State.modPart_self]
    show Tab.get none (u.part (s.queuePart q)).tmpl c.arg = _
    rw [htmpl, Tab.get_set_self]

theorem State.does_preempt_begins (hstart : c.started = true ∨ (s.queue q).cqFull = false) (hop : c.op = 4) (hfresh : c.started = false) :
    s.does (.preempt q n) fun t => (∀ l ∈ t.launches, l.part = s.queuePart q → c.names q l.lid l.queue = true → l.stopped = true) ∧
      ∀ sid, isVisitor sid = false → c.namesCtx q (s.queuePart q) (s.ctx sid) = true → (s.ctx sid).act ≠ .free → (t.ctx sid).preemptReq = true := by
  have hlaunches : ∀ l ∈ (s.launches.map fun l => if l.part = s.queuePart q ∧ c.names q l.lid l.queue = true then { l with stopped := true } else l),
      l.part = s.queuePart q → c.names q l.lid l.queue = true → l.stopped = true := by
    intro l hl hpart hname
    obtain ⟨k, -, rfl⟩ := List.mem_map.mp hl
    by_cases hk : k.part = s.queuePart q ∧ c.names q k.lid k.queue = true
    · rw [if_pos hk]
    · rw [if_neg hk] at hpart hname
      exact absurd ⟨hpart, hname⟩ hk
  obtain ⟨t, hexec, hl, hx⟩ : ∃ t, exec (.preempt q n) s = .next t ∧
      t.launches = (s.launches.map fun l => if l.part = s.queuePart q ∧ c.names q l.lid l.queue = true then { l with stopped := true } else l) ∧
      t.ctxs = s.ctxs.map fun e => (e.1, if c.namesCtx q (s.queuePart q) e.2 && !isVisitor e.1 then { e.2 with preemptReq := true, yielding := false } else e.2) := by
    refine ⟨?after, ?runs, ?launches, ?ctxs⟩
    case runs =>
      show execPreempt q n s = _
      unfold execPreempt
      rw [State.cmdAt_of_command hc hop hstart]
      dsimp only
      rw [hfresh, Bool.not_false, if_pos rfl]
    case launches => rfl
    case ctxs => rfl
  refine ⟨t, hexec, by rw [hl]; exact hlaunches, fun sid hvis hname hact => ?_⟩
  unfold State.ctx at hname hact ⊢
  rw [hx, Tab.get_map_of_ne _ fun hfree => hact (by rw [hfree])]
  dsimp only
  rw [hname, hvis]
  rfl

theorem State.does_preempt_ends (hstart : c.started = true ∨ (s.queue q).cqFull = false) (hop : c.op = 4) (hbegun : c.started = true)
    (hctxs : ∀ e ∈ s.ctxs, c.namesCtx q (s.queuePart q) e.2 = false) (hsaved : ∀ v ∈ s.savedOut, c.namesCtx q (s.queuePart q) v.ctx = false) :
    s.does (.preempt q n) fun t => s.completesCommand t q c 0 0 0 := by
  have hnone : ((s.ctxs.any fun e => e.2.act != .free && e.2.preemptReq && c.namesCtx q (s.queuePart q) e.2) ||
      (s.savedOut.any fun v => (v.ended.isNone || s.saving v) && c.namesCtx q (s.queuePart q) v.ctx)) = false := by
    rw [Bool.or_eq_false_iff, List.any_eq_false, List.any_eq_false]
    exact ⟨fun e he => by simp [hctxs e he], fun v hv => by simp [hsaved v hv]⟩
  refine ⟨s.finishCmd q n 0 0 0, ?_, State.finishCmd_completes_of hc rfl 0 0 0⟩
  show execPreempt q n s = _
  unfold execPreempt
  rw [State.cmdAt_of_command hc hop hstart]
  dsimp only
  rw [hbegun, Bool.not_true, if_neg Bool.false_ne_true, hnone, if_neg Bool.false_ne_true]

theorem State.does_resume (hstart : c.started = true ∨ (s.queue q).cqFull = false) (hop : c.op = 5)
    (hctxs : ∀ e ∈ s.ctxs, c.namesCtx q (s.queuePart q) e.2 = false) (hsaved : ∀ v ∈ s.savedOut, c.namesCtx q (s.queuePart q) v.ctx = false) :
    s.does (.resume q n) fun t => s.completesCommand t q c 0 0 0 ∧
      ∀ l ∈ t.launches, l.part = s.queuePart q → c.names q l.lid l.queue = true → l.stopped = false := by
  have hidle : (((s.savedOut.filter fun v => c.namesCtx q (s.queuePart q) v.ctx && !v.eligible).any fun v => v.ended.isNone) ||
      (s.ctxs.any fun e => e.2.act != .free && e.2.preemptReq && c.namesCtx q (s.queuePart q) e.2)) = false := by
    rw [Bool.or_eq_false_iff, List.any_eq_false, List.any_eq_false]
    refine ⟨fun v hv => ?_, fun e he => by simp [hctxs e he]⟩
    obtain ⟨hmem, hname⟩ := List.mem_filter.mp hv
    rw [hsaved v hmem, Bool.false_and] at hname
    exact absurd hname Bool.false_ne_true
  let s1 : State := { s with launches := s.launches.map fun l => if l.part = s.queuePart q ∧ c.names q l.lid l.queue = true then { l with stopped := false } else l }
  let s2 : State := { s1 with saved := s1.saved.map fun v => if v.back.isNone && c.namesCtx q (s.queuePart q) v.ctx then { v with eligible := true } else v }
  obtain ⟨hqueues, hlaunches⟩ := s2.poolWaiting_keeps
  refine ⟨s2.poolWaiting.finishCmd q n 0 0 0, ?_, State.finishCmd_completes_of hc ?_ 0 0 0, fun l hl hpart hname => ?_⟩
  · show execResume q n s = _
    unfold execResume
    rw [State.cmdAt_of_command hc hop hstart]
    dsimp only
    rw [hidle, if_neg Bool.false_ne_true]
  · unfold State.queue
    rw [hqueues]
  · have hmem : l ∈ s1.launches := hlaunches ▸ (show l ∈ s2.poolWaiting.launches from hl)
    obtain ⟨k, -, rfl⟩ := List.mem_map.mp hmem
    by_cases hk : k.part = s.queuePart q ∧ c.names q k.lid k.queue = true
    · rw [if_pos hk]
    · rw [if_neg hk] at hpart hname
      exact absurd ⟨hpart, hname⟩ hk

end Commands

/-- Settles O52: each register and command by what it leaves of its queue, its partition and the contexts that it names. -/
theorem queuesRunTheirCommands : Obligations.QueuesRunTheirCommands := by
  unfold Obligations.QueuesRunTheirCommands
  intro s q
  exact ⟨s.does_qpidx q, s.does_queue_enable q, s.does_cqridx q,
    fun v hen hready hmin hahead hfull hcmds howner => State.does_command_fetch hen hready hmin hahead hfull hcmds howner,
    fun d l pa => State.does_completion_record,
    fun n c hc hstart => ⟨State.does_fence_command hc hstart, State.does_launch_command hc hstart, State.does_launch_invalid hc hstart,
      fun v e a => State.does_register hc hstart, State.does_preempt_begins hc hstart, State.does_preempt_ends hc hstart, State.does_resume hc hstart⟩⟩

end Sys2Proof.Machine
end


section
/-!
PROOFS. The commands of the monitor, and the course of a partition's reset (R301, R317, R378 to R381).
-/

namespace Sys2Proof.Machine

/-! What the completion of a command leaves as it was. -/

theorem State.part_congr {s t : State} (h : t.parts = s.parts) (p : Nat) : t.part p = s.part p := by
  unfold State.part
  rw [h]

theorem State.queue_congr {s t : State} (h : t.queues = s.queues) (q : Nat) : t.queue q = s.queue q := by
  unfold State.queue
  rw [h]

theorem State.finishCmd_part (s : State) (q n status code word1 p : Nat) : (s.finishCmd q n status code word1).part p = s.part p := rfl

/-- A command that is done changes of its queue the commands and the completions alone. -/
theorem State.finishCmd_keeps (s : State) (q n status code word1 m : Nat) :
    ∃ cs ds, (s.finishCmd q n status code word1).queue m = { s.queue m with cmds := cs, dones := ds } := by
  unfold State.finishCmd
  rw [State.modQueue_queue]
  split
  next hm =>
    subst hm
    cases (s.queue m).cmds.find? fun c => c.n == n with
    | none => exact ⟨_, _, rfl⟩
    | some c => exact ⟨_, _, rfl⟩
  · exact ⟨_, _, rfl⟩

theorem State.finishCmd_owner (s : State) (q n status code word1 m : Nat) : ((s.finishCmd q n status code word1).queue m).owner = (s.queue m).owner := by
  obtain ⟨cs, ds, h⟩ := s.finishCmd_keeps q n status code word1 m
  rw [h]

theorem State.finishCmd_en (s : State) (q n status code word1 m : Nat) : ((s.finishCmd q n status code word1).queue m).en = (s.queue m).en := by
  obtain ⟨cs, ds, h⟩ := s.finishCmd_keeps q n status code word1 m
  rw [h]

/-- What each step of a fold keeps holds after it. -/
theorem State.foldl_keeps {α : Type} (P : State → Prop) {f : State → α → State} (h : ∀ t a, P t → P (f t a)) (l : List α) {s : State} (hs : P s) : P (l.foldl f s) := by
  induction l generalizing s with
  | nil => exact hs
  | cons a l ih => exact ih (h s a hs)

theorem State.finishCmds_frame (cmds : List (Nat × Nat)) (s : State) : ∃ qs, cmds.foldl (fun s c => s.finishCmd c.1 c.2 0 0 0) s = { s with queues := qs } := by
  refine State.foldl_keeps (fun t => ∃ qs, t = { s with queues := qs }) (fun t c ht => ?_) cmds ⟨s.queues, rfl⟩
  obtain ⟨qs, rfl⟩ := ht
  exact ⟨_, rfl⟩

/-- Aborting commands changes no partition, and enables or disables no queue. -/
theorem State.abortCmds_keeps (s : State) (p : Nat) (which : Cmd → Bool) (status code : Nat) :
    (s.abortCmds p which status code).parts = s.parts ∧ ∀ m, ((s.abortCmds p which status code).queue m).en = (s.queue m).en := by
  refine State.foldl_keeps (fun t => t.parts = s.parts ∧ ∀ m, (t.queue m).en = (s.queue m).en) (fun t q ht => ?_) _ ⟨rfl, fun _ => rfl⟩
  refine State.foldl_keeps (fun t => t.parts = s.parts ∧ ∀ m, (t.queue m).en = (s.queue m).en) (fun u c hu => ?_) _ ht
  exact ⟨hu.1, fun m => (u.finishCmd_en q c.n status code 0 m).trans (hu.2 m)⟩

/-- The closing of the standing calls changes the directories and the messages alone. -/
theorem State.closeCalls_keeps (s : State) (p : Nat) : (s.closeCalls p).parts = s.parts ∧ (s.closeCalls p).queues = s.queues := by
  refine State.foldl_keeps (fun t => t.parts = s.parts ∧ t.queues = s.queues) (fun t e ht => ?_) _ ⟨rfl, rfl⟩
  refine State.foldl_keeps (fun t => t.parts = s.parts ∧ t.queues = s.queues) (fun u c hu => ?_) _ ht
  exact hu

/-- A table without its entry of a key reads as the default there. -/
theorem Tab.get_filter_none {α : Type} {d : α} {keep : Nat × α → Bool} {t : Tab α} {k : Nat} (h : ∀ x, keep (k, x) = false) : Tab.get d (t.filter keep) k = d := by
  induction t with
  | nil => rfl
  | cons e t ih =>
    by_cases hk : keep e = true
    · have hne : e.1 ≠ k := fun he => by
        rw [← he] at h
        exact absurd (hk.symm.trans (h e.2)) (by simp)
      rw [List.filter_cons_of_pos hk]
      exact (if_neg hne).trans ih
    · rw [List.filter_cons_of_neg hk]
      exact ih

/-! The commands of the monitor (R301, R317). -/

/-- The queues of a list are given to a partition. -/
theorem State.own_queue (p : Nat) (l : List Nat) (s : State) (m : Nat) :
    (l.foldl (fun s k => s.modQueue k fun t => { t with owner := some p }) s).queue m = if m ∈ l then { s.queue m with owner := some p } else s.queue m := by
  induction l generalizing s with
  | nil => simp
  | cons k l ih =>
    rw [List.foldl_cons, ih, State.modQueue_queue]
    by_cases hk : m = k
    · subst hk
      simp
    · simp [hk]

theorem State.own_parts (p : Nat) (l : List Nat) (s : State) : (l.foldl (fun s k => s.modQueue k fun t => { t with owner := some p }) s).parts = s.parts := by
  refine State.foldl_keeps (fun t => t.parts = s.parts) (fun t k ht => ?_) l rfl
  exact ht

theorem mem_ownQueues {p m : Nat} (h : m < 256) : 256 * p + m ∈ ownQueues p := List.mem_map.mpr ⟨m, List.mem_range.mpr h, rfl⟩

theorem State.does_partCreate {s : State} {q n : Nat} {c : Cmd} (h : s.command q n = some c) (hc : s.cmdAt q n 0x10 = some c)
    (hok : s.createBad c.arg (rectOfWord (c.word 1)) (rectOfWord (c.word 2)) = false) : s.does (.partCreate q n) fun t => s.completesCommand t q c 0 0 0 ∧
      (t.part c.arg).live = true ∧ (t.part c.arg).rect0 = rectOfWord (c.word 1) ∧ (t.part c.arg).rect1 = rectOfWord (c.word 2) ∧ (t.part c.arg).agestep = 100 ∧
      ∀ m < 256, (t.queue (256 * c.arg + m)).owner = some c.arg := by
  let s1 := s.modPart c.arg fun t => { live := true, rect0 := rectOfWord (c.word 1), rect1 := rectOfWord (c.word 2), grants := t.grants }
  let s2 := (ownQueues c.arg).foldl (fun s k => s.modQueue k fun t => { t with owner := some c.arg }) s1
  have hq : s2.queue q = if q ∈ ownQueues c.arg then { s.queue q with owner := some c.arg } else s.queue q := State.own_queue c.arg (ownQueues c.arg) s1 q
  have hcmds : (s2.queue q).cmds = (s.queue q).cmds ∧ (s2.queue q).dones = (s.queue q).dones := by
    rw [hq]
    constructor <;> split <;> rfl
  have hpart : (s2.finishCmd q n 0 0 0).part c.arg = s1.part c.arg :=
    (State.finishCmd_part _ _ _ _ _ _ _).trans (State.part_congr (State.own_parts c.arg (ownQueues c.arg) s1) c.arg)
  have hnew : s1.part c.arg = { live := true, rect0 := rectOfWord (c.word 1), rect1 := rectOfWord (c.word 2), grants := (s.part c.arg).grants } := State.modPart_self _ _ _
  refine ⟨s2.finishCmd q n 0 0 0, ?runs, State.finishCmd_completes (d := c) (by rw [hcmds.1]; exact h) (State.command_n h) rfl hcmds.2 0 0 0, ?_⟩
  case runs =>
    show execPartCreate q n s = _
    unfold execPartCreate
    rw [hc]
    dsimp only
    rw [if_neg (by simp [hok])]
  rw [hpart, hnew]
  refine ⟨rfl, rfl, rfl, rfl, fun m hm => ?_⟩
  rw [State.finishCmd_owner, show s2.queue _ = _ from State.own_queue c.arg (ownQueues c.arg) s1 _, if_pos (mem_ownQueues hm)]

theorem State.does_partCreate_bad {s : State} {q n : Nat} {c : Cmd} (h : s.command q n = some c) (hc : s.cmdAt q n 0x10 = some c)
    (hbad : s.createBad c.arg (rectOfWord (c.word 1)) (rectOfWord (c.word 2)) = true) :
    s.does (.partCreate q n) fun t => s.completesCommand t q c 1 codeCmdInvalid 0 := by
  refine ⟨s.finishCmd q n 1 codeCmdInvalid 0, ?_, State.finishCmd_completes_of h rfl 1 codeCmdInvalid 0⟩
  show execPartCreate q n s = _
  unfold execPartCreate
  rw [hc]
  dsimp only
  rw [if_pos hbad]

theorem State.does_partDestroy {s : State} {q n : Nat} {c : Cmd} (h : s.command q n = some c) (hc : s.cmdAt q n 0x11 = some c) (harg : c.arg < 32)
    (hlive : (s.part c.arg).live = true) (hreset : (s.part c.arg).reset = none) (hidle : s.partIdle c.arg = true) : s.does (.partDestroy q n) fun t =>
      s.completesCommand t q c 0 0 0 ∧ (t.part c.arg).live = false ∧ ∀ m, (t.queue m).owner ≠ some c.arg := by
  let s1 : State := { s with
    queues := s.queues.map fun k => (k.1, if k.2.owner = some c.arg then { k.2 with owner := none, en := false } else k.2)
    streams := s.streams.filter fun k => k.1 / 64 ≠ c.arg }
  let s2 := s1.modPart c.arg fun t => { grants := t.grants }
  have hq (m : Nat) : s2.queue m = if (s.queue m).owner = some c.arg then { s.queue m with owner := none, en := false } else s.queue m :=
    Tab.get_map ({} : Queue) ({} : Queue) (fun k : Nat × Queue => if k.2.owner = some c.arg then { k.2 with owner := none, en := false } else k.2) (fun _ => rfl) s.queues m
  have hcmds : (s2.queue q).cmds = (s.queue q).cmds ∧ (s2.queue q).dones = (s.queue q).dones := by
    rw [hq]
    constructor <;> split <;> rfl
  have hpart : (s2.finishCmd q n 0 0 0).part c.arg = { grants := (s.part c.arg).grants } := State.modPart_self s1 c.arg fun t => { grants := t.grants }
  refine ⟨s2.finishCmd q n 0 0 0, ?runs, State.finishCmd_completes (d := c) (by rw [hcmds.1]; exact h) (State.command_n h) rfl hcmds.2 0 0 0, ?_, fun m => ?_⟩
  case runs =>
    show execPartDestroy q n s = _
    unfold execPartDestroy
    rw [hc]
    dsimp only
    rw [if_neg (by simp [harg, hlive]), if_neg (by simp [hreset, hidle])]
  · rw [hpart]
  · rw [State.finishCmd_owner, hq]
    split
    · simp
    next ho => exact ho

theorem State.does_partReset {s : State} {q n : Nat} {c : Cmd} (hc : s.cmdAt q n 0x12 = some c) (hstart : c.started = false) (harg : c.arg < 32)
    (hlive : (s.part c.arg).live = true) (hreset : (s.part c.arg).reset = none) : s.does (.partReset q n) fun t =>
      (∃ r, (t.part c.arg).reset = some r ∧ r.t0 = s.now ∧ r.t1 = none ∧ r.cmds = [(q, n)]) ∧ ∀ m, (s.queue m).owner = some c.arg → (t.queue m).en = false := by
  let s1 := (s.startCmd q n).modPart c.arg fun t => { t with reset := some { t0 := s.now, t1 := none, cmds := [(q, n)] }, token := none, reserved := [] }
  let s2 : State := { s1 with queues := s1.queues.map fun k => (k.1, if k.2.owner = some c.arg then { k.2 with en := false } else k.2) }
  obtain ⟨hparts, hqueues⟩ := s2.closeCalls_keeps c.arg
  obtain ⟨haparts, haen⟩ := (s2.closeCalls c.arg).abortCmds_keeps c.arg (fun c => c.op == 4 || c.op == 5) 1 codeLaunchAborted
  refine ⟨(s2.closeCalls c.arg).abortCmds c.arg (fun c => c.op == 4 || c.op == 5) 1 codeLaunchAborted, ?runs,
    ⟨{ t0 := s.now, t1 := none, cmds := [(q, n)] }, ?_, rfl, rfl, rfl⟩, fun m hm => ?_⟩
  case runs =>
    show execPartReset q n s = _
    unfold execPartReset
    rw [hc]
    dsimp only
    rw [if_neg (by simp [hstart]), if_neg (by simp [harg, hlive]), hreset]
  · have hpart : ((s2.closeCalls c.arg).abortCmds c.arg (fun c => c.op == 4 || c.op == 5) 1 codeLaunchAborted).part c.arg = s1.part c.arg :=
      State.part_congr (haparts.trans hparts) c.arg
    rw [hpart, State.modPart_self]
  · have howner : (s1.queue m).owner = some c.arg := by
      show ((s.startCmd q n).queue m).owner = _
      unfold State.startCmd
      rw [State.modQueue_queue]
      split
      next hq => rw [← hq]; exact hm
      · exact hm
    have hne : s1.queue m ≠ {} := fun he => by simp [he] at howner
    have hmap : s2.queue m = if (s1.queue m).owner = some c.arg then { s1.queue m with en := false } else s1.queue m :=
      Tab.get_map_of_ne (d := ({} : Queue)) (d' := ({} : Queue)) (fun k : Nat × Queue => if k.2.owner = some c.arg then { k.2 with en := false } else k.2) hne
    rw [haen, State.queue_congr hqueues, hmap, if_pos howner]

theorem State.does_assign {s : State} {q n : Nat} {c : Cmd} (h : s.command q n = some c) (hc : s.cmdAt q n 0x13 = some c) (harg : c.arg < 8192)
    (hen : (s.queue c.arg).en = false) (howner : (s.queue c.arg).owner ≠ none) (hlive : (s.part (c.word 1 % 32)).live = true) : s.does (.assign q n) fun t =>
      s.completesCommand t q c 0 0 0 ∧ (t.queue c.arg).owner = some (c.word 1 % 32) := by
  have hp : bitsOf (c.word 1) 4 0 = c.word 1 % 32 := by simp [bitsOf]
  let s1 := s.modQueue c.arg fun k => { k with owner := some (c.word 1 % 32) }
  have hq : s1.queue q = if q = c.arg then { s.queue c.arg with owner := some (c.word 1 % 32) } else s.queue q := State.modQueue_queue _ _ _ _
  have hcmds : (s1.queue q).cmds = (s.queue q).cmds ∧ (s1.queue q).dones = (s.queue q).dones := by
    rw [hq]
    constructor <;> split
    · next he => rw [he]
    · rfl
    · next he => rw [he]
    · rfl
  refine ⟨s1.finishCmd q n 0 0 0, ?_, State.finishCmd_completes (d := c) (by rw [hcmds.1]; exact h) (State.command_n h) rfl hcmds.2 0 0 0, ?_⟩
  · show execAssign q n s = _
    unfold execAssign
    rw [hc]
    dsimp only
    rw [hp, if_neg (by simp [harg, hen, howner, hlive])]
  · rw [State.finishCmd_owner, State.modQueue_self]

/-! The course of a partition's reset (R378 to R381). -/

theorem State.freezePart_ctx {s : State} {p sid : Nat} (hmine : (s.part p).holds (slotCluster sid) = true) (hact : (s.ctx sid).act ≠ .free) :
    ((s.freezePart p).ctx sid).act = .frozen := by
  have hmap : (s.freezePart p).ctx sid = if (s.part p).holds (slotCluster sid) && (s.ctx sid).act != .free then { s.ctx sid with act := .frozen } else s.ctx sid :=
    Tab.get_map ({} : Ctx) ({} : Ctx) (fun e : Nat × Ctx => if (s.part p).holds (slotCluster e.1) && e.2.act != .free then { e.2 with act := .frozen } else e.2)
      (fun k => by cases h : (s.part p).holds (slotCluster k) <;> rfl) s.ctxs sid
  rw [hmap, if_pos (by simp [hmine, hact])]

/-- A held request that the freeze lets stand is one whose release time has come (R360, R379). -/
theorem State.freezePart_held {s : State} {p : Nat} {r : Req} (hr : r ∈ (s.freezePart p).reqs) (hp : r.part = p) (hheld : r.stage = .held) :
    r.made / 256 * 256 + 704 ≤ s.now := by
  obtain ⟨r0, hr0, hmap⟩ := List.mem_map.mp hr
  obtain ⟨-, hgone⟩ := List.mem_filter.mp hr0
  have hsame : r.part = r0.part ∧ r.stage = r0.stage ∧ r.made = r0.made := by
    rw [← hmap]
    refine ⟨?_, ?_, ?_⟩ <;> split <;> rfl
  obtain ⟨hpart, hstage, hmade⟩ := hsame
  dsimp only at hgone
  rw [← hpart, hp, ← hstage, hheld] at hgone
  have hrel : s.releasable (slotCluster r0.src) r0.made r0.taints = true := by simpa using hgone
  unfold State.releasable at hrel
  simp only [Bool.and_eq_true, decide_eq_true_eq] at hrel
  rw [hmade]
  exact hrel.1.1

theorem State.does_partResetFreeze {s : State} {p : Nat} {r : PartReset} (h : (s.part p).reset = some r) (ht1 : r.t1 = none)
    (hdue : r.t0 + (s.part p).rstctl.toNat ≤ s.now ∨ (s.now ≠ r.t0 ∧ s.partLive p = false)) : s.does (.partResetFreeze p) fun t =>
      (t.part p).reset = some { r with t1 := some s.now } ∧ s.sameBytes t ∧
      (∀ sid, (s.part p).holds (slotCluster sid) = true → (s.ctx sid).act ≠ .free → (t.ctx sid).act = .frozen) ∧
      ∀ r ∈ t.reqs, r.part = p → r.stage = .held → r.made / 256 * 256 + 704 ≤ s.now := by
  refine ⟨((s.freezePart p).addNacks (s.nacksOf p)).modPart p fun t => { t with reset := some { r with t1 := some s.now } }, ?_, ?_,
    State.sameBytes_of_bytes (by simp), fun sid hmine hact => s.freezePart_ctx hmine hact, fun r hr hp hheld => State.freezePart_held hr hp hheld⟩
  · show execPartResetFreeze p s = _
    unfold execPartResetFreeze
    rw [h]
    dsimp only
    rw [if_neg]
    rcases hdue with hdue | ⟨hnow, hlive⟩
    · simp [ht1]
      omega
    · simp [ht1, hnow, hlive]
  · rw [State.modPart_self]

theorem State.does_partResetComplete {s : State} {p t1 : Nat} {r : PartReset} (h : (s.part p).reset = some r) (ht1 : r.t1 = some t1) (hdue : t1 + 1024 ≤ s.now) :
    s.does (.partResetComplete p) fun t =>
      (t.part p).reset = none ∧ (t.part p).tmpl = [] ∧ (∀ l ∈ t.launches, l.part ≠ p) ∧ (∀ sid, (s.part p).holds (slotCluster sid) = true → t.ctx sid = {}) ∧
      ∀ m ∈ t.streams, m.1 / 64 ≠ p := by
  obtain ⟨t0, _, cmds⟩ := r
  subst ht1
  refine ⟨?after, ?runs, ?_⟩
  case runs =>
    show execPartResetComplete p s = _
    unfold execPartResetComplete
    rw [h]
    dsimp only
    rw [if_neg (by omega)]
  refine State.foldl_keeps (fun t => (t.part p).reset = none ∧ (t.part p).tmpl = [] ∧ (∀ l ∈ t.launches, l.part ≠ p) ∧
    (∀ sid, (s.part p).holds (slotCluster sid) = true → t.ctx sid = {}) ∧ ∀ m ∈ t.streams, m.1 / 64 ≠ p) (fun t c ht => ?_) cmds ⟨?_, ?_, ?_, ?_, ?_⟩
  · exact ht
  · exact congrArg Part.reset (State.modPart_self _ p fun t => { t with tmpl := [], token := none, reserved := [], reset := none })
  · exact congrArg Part.tmpl (State.modPart_self _ p fun t => { t with tmpl := [], token := none, reserved := [], reset := none })
  · exact fun l hl => by simpa using (List.mem_filter.mp hl).2
  · exact fun sid hmine => Tab.get_filter_none fun e => by simp [hmine]
  · exact fun m hm => by simpa using (List.mem_filter.mp hm).2

/-- What a negative acknowledgement ends (R381). -/
theorem State.does_negativeAcknowledge {s : State} {n : Nat} {k : Nack} (h : (s.nacks.find? fun k => k.1 == n) = some (n, k)) :
    (∀ sid, k = .port sid → s.does (.negativeAcknowledge n) fun t => (t.ctx sid).win = (s.ctx sid).win.map fun w => { w with shut := true }) ∧
    (∀ b, k = .loader b → s.does (.negativeAcknowledge n) fun t => (∀ x ∈ t.subs, x.n ≠ b) ∧ ∀ x ∈ t.nacks, x.1 ≠ n) ∧
    (∀ id, k = .response id → s.does (.negativeAcknowledge n) fun t => t.req id = none ∧ (∀ e ∈ t.outs, e.req ≠ id) ∧
      ∀ e ∈ s.outs, e.req = id → ∀ d ∈ t.dups, d.tag ≠ e.tag) := by
  refine ⟨fun sid hk => ?_, fun b hk => ?_, fun id hk => ?_⟩ <;> subst hk
  · refine ⟨?afterPort, ?portRuns, ?_⟩
    case portRuns =>
      show execNegativeAcknowledge n s = _
      unfold execNegativeAcknowledge
      rw [h]
    exact congrArg Ctx.win (State.modCtx_self _ sid _)
  · refine ⟨?afterLoader, ?loaderRuns, ?_⟩
    case loaderRuns =>
      show execNegativeAcknowledge n s = _
      unfold execNegativeAcknowledge
      rw [h]
    exact ⟨fun x hx => by simpa using (List.mem_filter.mp hx).2, fun x hx => by simpa using (List.mem_filter.mp hx).2⟩
  · refine ⟨?afterResponse, ?responseRuns, ?_⟩
    case responseRuns =>
      show execNegativeAcknowledge n s = _
      unfold execNegativeAcknowledge
      rw [h]
    refine ⟨State.req_none_of fun q hq => by simpa using (List.mem_filter.mp hq).2, fun e he => by simpa using (List.mem_filter.mp he).2, fun e he hreq d hd htag => ?_⟩
    have hnot := (List.mem_filter.mp hd).2
    rw [htag, List.contains_iff_mem.mpr (List.mem_map.mpr ⟨e, List.mem_filter.mpr ⟨he, by simp [hreq]⟩, rfl⟩)] at hnot
    cases hnot

/-- Settles O53: each command of the monitor, and each step of a partition's reset, by its own lemma. -/
theorem partitionsComeAndGo : Obligations.PartitionsComeAndGo := by
  intro s
  refine ⟨fun q n c h hstart => ⟨fun hop hok => ?_, fun hop hbad => ?_, fun hop harg hlive hreset hidle => ?_, fun hop hs harg hlive hreset => ?_,
    fun hop harg hen howner hlive => ?_⟩, fun p r h ht1 hdue => State.does_partResetFreeze h ht1 hdue, fun p r t1 h ht1 hdue => State.does_partResetComplete h ht1 hdue,
    fun n k h => State.does_negativeAcknowledge h⟩
  · exact State.does_partCreate h (State.cmdAt_of_command h hop hstart) hok
  · exact State.does_partCreate_bad h (State.cmdAt_of_command h hop hstart) hbad
  · exact State.does_partDestroy h (State.cmdAt_of_command h hop hstart) harg hlive hreset hidle
  · exact State.does_partReset (State.cmdAt_of_command h hop hstart) hs harg hlive hreset
  · exact State.does_assign h (State.cmdAt_of_command h hop hstart) harg hen howner hlive

end Sys2Proof.Machine
end


section
/-!
PROOFS. Tiles at the loaders and storers, their credits, the stream engines, and the user-level interrupt (R193, R208 to R210, R212, R230, R238).
-/

namespace Sys2Proof.Machine

/-! Where the engines' tables hold what they hold. -/

/-- Changing the entries of a key changes the entry found by it, when the change keeps the keys. -/
theorem find?_map_key {α κ : Type} [DecidableEq κ] (key : α → κ) {f : α → α} (hf : ∀ a, key (f a) = key a) {l : List α} {k : κ} {a : α}
    (h : (l.find? fun x => key x == k) = some a) : ((l.map fun x => if key x = k then f x else x).find? fun x => key x == k) = some (f a) := by
  have hkeeps : ((fun x => key x == k) ∘ fun x => if key x = k then f x else x) = fun x => key x == k := by
    funext x
    by_cases hx : key x = k <;> simp [hx, hf]
  have hk : key a = k := by simpa using List.find?_some h
  rw [List.find?_map, hkeeps, h]
  simp [hk]

theorem State.modSub_sub {s : State} {n : Nat} {b : Sub} (h : s.sub n = some b) {f : Sub → Sub} (hf : ∀ b, (f b).n = b.n) : (s.modSub n f).sub n = some (f b) :=
  find?_map_key Sub.n hf h

theorem State.modDrain_drain {s : State} {n : Nat} {d : Drain} (h : s.drain n = some d) {f : Drain → Drain} (hf : ∀ d, (f d).n = d.n) :
    (s.modDrain n f).drain n = some (f d) :=
  find?_map_key Drain.n hf h

theorem State.modXfer_xfer {s : State} {ci : Nat} {xid : BitVec 32} {x : Xfer} (h : s.xfer ci xid = some x) {f : Xfer → Xfer} (hf : ∀ x, (f x).xid = x.xid) :
    (s.modXfer ci xid f).xfer ci xid = some (f x) := by
  unfold State.modXfer State.xfer
  rw [State.modCore_self]
  exact find?_map_key Xfer.xid hf h

@[simp] theorem State.modXfer_clu (s : State) (ci : Nat) (xid : BitVec 32) (f : Xfer → Xfer) (cl : Nat) : (s.modXfer ci xid f).clu cl = s.clu cl := rfl

/-- Reading lines of the slices takes their ports, and counts their accesses, alone. -/
theorem State.engineReads_stored (s : State) (cl : Nat) (rd : List Nat) : s.Stored (s.engineReads cl rd) := by
  refine State.foldl_keeps (fun t => s.Stored t) (fun t n ht => ?_) rd (State.Stored.refl s)
  split
  · exact ht
  · exact ht.trans (State.accept_stored t _)

theorem State.sliceLines_stored (s : State) (m : Maker) (ps : List (Nat × Nat × Nat)) : s.Stored (s.sliceLines m ps) := by
  refine State.foldl_keeps (fun t => s.Stored t) (fun t l ht => ?_) _ (State.Stored.refl s)
  exact ht.trans (State.sliceStore_stored t m none (64 * l.1) 64 l.2.1 l.2.2)

/-- Messages that are sent to a list of receivers. -/
theorem State.sends_bodies {α : Type} (f : α → MsgBody) (l : List α) (s : State) : let t := l.foldl (fun s r => s.send s.now (f r)) s
    t.subs = s.subs ∧ t.net.map Msg.body = s.net.map Msg.body ++ l.map f := by
  induction l generalizing s with
  | nil => exact ⟨rfl, by simp⟩
  | cons r l ih =>
    obtain ⟨hsubs, hnet⟩ := ih (s.send s.now (f r))
    refine ⟨hsubs, hnet.trans ?_⟩
    unfold State.send
    simp

/-! What a tag's change leaves as it was. -/

/-- A tag's change changes the cluster's tags and the contexts that wait for it, and nothing else. -/
theorem State.putTag_frame (s : State) (cl n : Nat) (w : Word) (l : List Nat) : ∃ cs cu, s.putTag cl n w l = { s with ctxs := cs, clus := cu } := by
  unfold State.putTag
  extract_lets was
  rw [State.wakeTags_eq]
  refine State.foldl_keeps (fun t => ∃ cs cu, t = { s with ctxs := cs, clus := cu }) (fun t k ht => ?_) _ ⟨s.ctxs, _, rfl⟩
  obtain ⟨cs, cu, rfl⟩ := ht
  unfold State.wakeTagOne
  split
  · split
    · exact ⟨_, _, rfl⟩
    · exact ⟨cs, cu, rfl⟩
  · exact ⟨cs, cu, rfl⟩

/-- The rules of an EXPECTED tile's balance that is in its range: at zero the tile is FULL (R193, R197). -/
theorem tagView_balance {w : Word} {b : Int} (hv : tagValid w = true) (hf : tagFull w = false) (ho : tagOvr w = false) (hlo : -2 ^ 23 ≤ b) (hhi : b ≤ 0) :
    tagView (tagRules (tagWaitBits w) (tagOvr w) (tagValid w) (tagCons w) (tagFull w) true b) =
      if b = 0 then { tagView w with full := true, exp := false, bal := 0 } else { tagView w with exp := true, bal := b } := by
  have hout : balOut b = false := by
    simp only [balOut, decide_eq_false_iff_not, not_or, not_lt]
    constructor
    · exact_mod_cast hlo
    · norm_num
      omega
  have hpos : decide (0 < b) = false := by
    simp only [decide_eq_false_iff_not]
    omega
  unfold tagRules
  simp only [hv, hf, ho, hout, hpos, Bool.false_or, Bool.and_false, Bool.not_false, Bool.true_and]
  by_cases hb : b = 0
  · subst hb
    simp only [decide_true, if_true]
    rw [tagView_mkTag _ _ _ _ _ _ (bal := 0) (by norm_num)]
    simp only [tagView, hv, ho]
  · simp only [hb, decide_false, Bool.false_eq_true, if_false]
    rw [tagView_mkTag _ _ _ _ _ _ (bal := b) ⟨hlo, by omega⟩]
    simp only [tagView, hv, hf, ho]

theorem tagBal_range (w : Word) : -2 ^ 23 ≤ tagBal w ∧ tagBal w < 2 ^ 23 := by
  unfold tagBal
  exact ⟨BitVec.le_toInt _, BitVec.toInt_lt⟩

/-- The rules write CONSUMED as it is given. -/
theorem tagView_tagRules_cons (wait : BitVec 8) (ovr valid cons full exp : Bool) (w : Word) :
    (tagView (tagRules wait ovr valid cons full exp (tagBal w))).cons = cons := by
  unfold tagRules
  extract_lets ovr'
  split <;> rw [tagView_mkTag _ _ _ _ _ _ (tagBal_range w)]

/-! Tiles and their credits (R193, R208, R209). -/

/-- What a credit's arrival leaves in the transfer and its subscription, once its tag has changed. -/
def State.creditMarks (s s2 : State) (c : Credit) : State :=
  let cl := coreCluster c.dst
  let s3 := if tagOvr (s2.tag cl c.tag) && !tagOvr (s.tag cl c.tag) then
      s2.modXfer c.ci c.xid fun x => { x with overrun := some (x.overrun.getD (s.tileByte c x)) } else s2
  let s4 : State := { s3 with subs := s3.subs.map fun b =>
    if b.ci = c.ci ∧ b.xid = c.xid ∧ b.ended = none then { b with receivers := b.receivers.map fun r => if r.ci = c.dst then { r with got := r.got + 1 } else r } else b }
  match s4.subOf c.ci c.xid with
  | some b => s4.modXfer c.ci c.xid fun x => { x with prog := b.complete }
  | none => s4

theorem State.creditMarks_frame (s s2 : State) (c : Credit) : ∃ cores subs, s.creditMarks s2 c = { s2 with cores := cores, subs := subs } := by
  unfold State.creditMarks
  extract_lets cl s3 s4
  have hs3 : ∃ cores, s3 = { s2 with cores := cores } := by
    unfold s3
    split
    · exact ⟨_, rfl⟩
    · exact ⟨s2.cores, rfl⟩
  obtain ⟨cores, hcores⟩ := hs3
  have hs4 : ∃ subs, s4 = { s2 with cores := cores, subs := subs } := ⟨_, by unfold s4; rw [hcores]⟩
  obtain ⟨subs, hsubs⟩ := hs4
  clear_value s4
  subst hsubs
  split
  · exact ⟨_, subs, rfl⟩
  · exact ⟨cores, subs, rfl⟩

/-- A transfer's credit reaches its tag (R193). -/
theorem State.does_tagCredit {s : State} {n : Nat} {c : Credit} (h : (s.credits.find? fun c => c.n == n) = some c) (hdata : c.data = none)
    (hv : tagValid (s.tag (coreCluster c.dst) c.tag) = true) (ho : tagOvr (s.tag (coreCluster c.dst) c.tag) = false)
    (hf : tagFull (s.tag (coreCluster c.dst) c.tag) = false) (he : tagExp (s.tag (coreCluster c.dst) c.tag) = true)
    (hhi : tagBal (s.tag (coreCluster c.dst) c.tag) + c.bytes ≤ 0) (hlo : -2 ^ 23 ≤ tagBal (s.tag (coreCluster c.dst) c.tag) + c.bytes) :
    s.does (.tagCredit n) fun t => (∀ d ∈ t.credits, d.n ≠ n) ∧ s.sameBytes t ∧
        tagView (t.tag (coreCluster c.dst) c.tag) = if tagBal (s.tag (coreCluster c.dst) c.tag) + c.bytes = 0
          then { tagView (s.tag (coreCluster c.dst) c.tag) with full := true, exp := false, bal := 0 }
          else { tagView (s.tag (coreCluster c.dst) c.tag) with bal := tagBal (s.tag (coreCluster c.dst) c.tag) + c.bytes } := by
  generalize hw : s.tag (coreCluster c.dst) c.tag = w at *
  let s1 : State := { s with credits := s.credits.filter fun d => d.n ≠ n }
  obtain ⟨s2, hs2⟩ : ∃ s2, s2 = s1.creditTag (coreCluster c.dst) c.tag c.bytes (((s.xfer c.ci c.xid).map Xfer.taints).getD []) := ⟨_, rfl⟩
  have hput : s2 = s1.putTag (coreCluster c.dst) c.tag (tagRules (tagWaitBits w) (tagOvr w) (tagValid w) (tagCons w) (tagFull w) true (tagBal w + c.bytes))
      (((s.xfer c.ci c.xid).map Xfer.taints).getD []) := by
    rw [hs2]
    unfold State.creditTag
    rw [show s1.tag (coreCluster c.dst) c.tag = w from hw]
    dsimp only
    rw [he]
  have hch := State.tagChange_putTag s1 (coreCluster c.dst) c.tag (tagRules (tagWaitBits w) (tagOvr w) (tagValid w) (tagCons w) (tagFull w) true (tagBal w + c.bytes))
    (((s.xfer c.ci c.xid).map Xfer.taints).getD [])
  have hcredits : s2.credits = s1.credits := by
    rw [hput]
    obtain ⟨cs, cu, hframe⟩ := s1.putTag_frame (coreCluster c.dst) c.tag
      (tagRules (tagWaitBits w) (tagOvr w) (tagValid w) (tagCons w) (tagFull w) true (tagBal w + c.bytes)) (((s.xfer c.ci c.xid).map Xfer.taints).getD [])
    rw [hframe]
  rw [← hput, tagView_balance hv hf ho hlo hhi] at hch
  have hview := hch.view
  obtain ⟨cores, subs, hmarks⟩ := s.creditMarks_frame s2 c
  refine ⟨s.creditMarks s2 c, ?runs, ?_, ?_, ?_⟩
  case runs =>
    show execTagCredit n s = _
    unfold execTagCredit
    rw [h]
    dsimp only
    rw [if_neg (by simp [hdata]), ← hs2]
    rfl
  all_goals rw [hmarks]
  · intro d hd
    have hd' : d ∈ s1.credits := hcredits ▸ hd
    simpa using (List.mem_filter.mp hd').2
  · exact State.sameBytes_of_bytes hch.bytes
  · refine hview.trans ?_
    split
    · rfl
    · simp [tagView, he]

/-- The loader sends a tile to its receivers (R208, R209). -/
theorem State.does_loaderTileSend {s : State} {n : Nat} {b : Sub} {x : Xfer} (h : s.sub n = some b) (hx : s.xfer b.ci b.xid = some x) (hactive : b.active = true)
    (hcancelled : b.cancelled = false) (hended : b.ended = none) (hcredit : b.credit ≠ 0) (hsent : b.sent < (s.walkNow b.ci b.xid b.block).tiles)
    (hstopped : x.stopped = false) (hover : x.overrun = none)
    (hxlat : s.xlatAsk (coreCluster b.ci) b.part b.pid x.sid ((((s.walkNow b.ci b.xid b.block).elems b.sent).map Prod.snd).map BitVec.toNat) = none)
    (hfault : s.firstFault (coreCluster b.ci) b.part b.pid b.mode
      ((((s.walkNow b.ci b.xid b.block).elems b.sent).map Prod.snd).map fun a => (.read, a, (s.walkNow b.ci b.xid b.block).e)) = none)
    (hport : s.portAsk (s.portReads (coreCluster b.ci) (s.engineLines (coreCluster b.ci) b.part b.pid b.mode .read
      (((s.walkNow b.ci b.xid b.block).elems b.sent).map Prod.snd))) (engineRank b.ci 6) = none) :
    s.does (.loaderTileSend n) fun t => t.sub n = some { b with sent := b.sent + 1 } ∧ t.net.map Msg.body = s.net.map Msg.body ++
      b.receivers.map fun r => .tile n r.ci (s.walkRead (coreCluster b.ci) b.part b.pid b.mode (s.walkNow b.ci b.xid b.block).e
        ((s.walkNow b.ci b.xid b.block).elems b.sent)) := by
  generalize hw : s.walkNow b.ci b.xid b.block = w at *
  let v := s.walkRead (coreCluster b.ci) b.part b.pid b.mode w.e (w.elems b.sent)
  let s1 := (s.engineReads (coreCluster b.ci) (s.engineLines (coreCluster b.ci) b.part b.pid b.mode .read ((w.elems b.sent).map Prod.snd))).modSub n
    fun b => { b with sent := b.sent + 1 }
  obtain ⟨mem, hostMem, traces, taken, poison, farCopies, invals, nextId, hreads⟩ :=
    s.engineReads_stored (coreCluster b.ci) (s.engineLines (coreCluster b.ci) b.part b.pid b.mode .read ((w.elems b.sent).map Prod.snd))
  have hsub : s1.sub n = some { b with sent := b.sent + 1 } := by
    unfold s1
    rw [hreads]
    exact State.modSub_sub (f := fun b => { b with sent := b.sent + 1 }) h fun _ => rfl
  have hnet : s1.net = s.net := by
    unfold s1
    rw [hreads]
    rfl
  obtain ⟨hsubs, hsends⟩ := s1.sends_bodies (fun r : Receiver => MsgBody.tile n r.ci v) b.receivers
  refine ⟨b.receivers.foldl (fun s r => s.send s.now (.tile n r.ci v)) s1, ?_, ?_, ?_⟩
  · show execLoaderTileSend n s = _
    unfold execLoaderTileSend
    rw [h]
    dsimp only
    rw [hx]
    dsimp only
    rw [hw, if_neg (by simp [hactive, hcancelled, hended, hcredit, hsent, hstopped, hover]), hxlat]
    dsimp only
    rw [hfault]
    dsimp only
    rw [hport]
  · rw [← hsub]
    unfold State.sub
    rw [hsubs]
  · rw [hsends, hnet]

/-- The messages that bring a tile of a loader to a core. -/
def tileTo (n ci : Nat) (m : Msg) : Bool :=
  match m.body with
  | .tile k c _ => k == n && c == ci
  | _ => false

/-- A tile's first byte reaches its receiver: the tail's tag is EXPECTED, the ring moves on, and a credit brings the bytes (R208, R209). -/
theorem State.does_tileArrival {s : State} {n ci v : Nat} {m : Msg} {b : Sub} (h : s.net.find? (tileTo n ci) = some m) (hm : m.body = .tile n ci v)
    (hb : s.sub n = some b) : s.does (.tileFirstByteArrival n ci) fun t =>
      (t.ring ci b.ring).tail = ((s.ring ci b.ring).tail + 1) % (s.ring ci b.ring).count ∧ (∀ k ∈ t.net, k.id ≠ m.id) ∧ s.sameBytes t ∧
      ∃ c, t.credits = s.credits ++ [c] ∧ c.dst = ci ∧ c.tag = (s.ring ci b.ring).tailTag ∧ c.bytes = (s.ring ci b.ring).size ∧
        c.data = some ((s.ring ci b.ring).tile (s.ring ci b.ring).tail, v) := by
  let s0 : State := { s with net := s.net.filter fun x => x.id ≠ m.id }
  obtain ⟨s1, hs1⟩ : ∃ s1, s1 = s0.expectTag (coreCluster ci) (s.ring ci b.ring).tailTag (s.ring ci b.ring).size := ⟨_, rfl⟩
  obtain ⟨cs, cu, hframe⟩ : ∃ cs cu, s1 = { s0 with ctxs := cs, clus := cu } := by
    rw [hs1]
    exact State.putTag_frame ..
  have hbytes : s1.bytes = s.bytes := by
    rw [hs1]
    exact State.bytes_expectTag ..
  let c : Credit := { n := s1.nextId, ci := b.ci, xid := b.xid, dst := ci, tag := (s.ring ci b.ring).tailTag, bytes := (s.ring ci b.ring).size,
                      data := some ((s.ring ci b.ring).tile (s.ring ci b.ring).tail, v) }
  refine ⟨((s1.modRing ci b.ring fun r => { r with tail := r.after r.tail }).modSub n fun b =>
      { b with receivers := b.receivers.map fun q => if q.ci = ci then { q with begun := q.begun + 1 } else q }).addCredit
        b.ci b.xid ci (s.ring ci b.ring).tailTag (s.ring ci b.ring).size (some ((s.ring ci b.ring).tile (s.ring ci b.ring).tail, v)), ?runs, ?_, ?_, ?_,
    c, ?_, rfl, rfl, rfl, rfl⟩
  case runs =>
    have hexec : execTileFirstByteArrival n ci s = match s.net.find? (tileTo n ci) with
      | none => .next s
      | some m => match m.body, s.sub n with
        | .tile _ _ v, some b =>
          .next ((((({ s with net := s.net.filter fun x => x.id ≠ m.id } : State).expectTag (coreCluster ci) (s.ring ci b.ring).tailTag (s.ring ci b.ring).size).modRing ci b.ring
            fun r => { r with tail := r.after r.tail }).modSub n fun b =>
              { b with receivers := b.receivers.map fun q => if q.ci = ci then { q with begun := q.begun + 1 } else q }).addCredit
            b.ci b.xid ci (s.ring ci b.ring).tailTag (s.ring ci b.ring).size (some ((s.ring ci b.ring).tile (s.ring ci b.ring).tail, v)))
        | _, _ => .next { s with net := s.net.filter fun x => x.id ≠ m.id } := rfl
    show execTileFirstByteArrival n ci s = _
    rw [hexec, h]
    dsimp only
    rw [hm, hb, hs1]
  · have hring : (s1.modRing ci b.ring fun r => { r with tail := r.after r.tail }).ring ci b.ring = { s.ring ci b.ring with tail := (s.ring ci b.ring).after (s.ring ci b.ring).tail } := by
      rw [State.modRing_ring, if_pos ⟨rfl, rfl⟩, show s1.ring ci b.ring = s.ring ci b.ring by rw [hframe]; rfl]
    exact congrArg Ring.tail hring
  · intro k hk
    have hk' : k ∈ s0.net := by
      rw [hframe] at hk
      exact hk
    simpa using (List.mem_filter.mp hk').2
  · exact State.sameBytes_of_bytes ((State.bytes_addCredit ..).trans ((State.bytes_modSub ..).trans ((State.bytes_modRing ..).trans hbytes)))
  · have hcredits : s1.credits = s.credits := by rw [hframe]
    exact congrArg (fun l => l ++ [c]) hcredits

/-- A buffer-free signal leaves (R209, R360). -/
theorem State.does_bufferFree {s : State} {ci ring tag : Nat} {f : Nat × Nat × Nat × List Nat}
    (h : ((s.core ci).frees.find? fun f => f.1 == ring && f.2.1 == tag) = some f) (hrel : s.releasable (coreCluster ci) f.2.2.1 f.2.2.2 = true) :
    s.does (.bufferFreeSignal ci ring tag) fun t => (t.core ci).frees = (s.core ci).frees.erase f ∧ tagCons (t.tag (coreCluster ci) tag) = false ∧ s.sameBytes t := by
  let w := s.tag (coreCluster ci) tag
  let s0 := s.modCore ci fun k => { k with frees := k.frees.erase f }
  have hch := s0.tagChange_putTag (coreCluster ci) tag (tagRules (tagWaitBits w) (tagOvr w) (tagValid w) false (tagFull w) (tagExp w) (tagBal w)) []
  obtain ⟨s1, hs1⟩ : ∃ s1, s1 = s0.putTag (coreCluster ci) tag (tagRules (tagWaitBits w) (tagOvr w) (tagValid w) false (tagFull w) (tagExp w) (tagBal w)) [] := ⟨_, rfl⟩
  rw [← hs1] at hch
  have hcons := (congrArg TagView.cons hch.view).trans (tagView_tagRules_cons ..)
  refine ⟨?after, ?runs, ?_⟩
  case runs =>
    show execBufferFreeSignal ci ring tag s = _
    unfold execBufferFreeSignal
    rw [h]
    dsimp only
    rw [if_neg (by simp [hrel]), ← hs1]
  refine ⟨?_, ?_, ?_⟩
  · have hcore : s1.core ci = s0.core ci := congrArg (fun l => Tab.get ({} : CoreSt) l ci) hch.cores
    exact (congrArg CoreSt.frees hcore).trans (congrArg CoreSt.frees (State.modCore_self s ci fun k => { k with frees := k.frees.erase f }))
  · exact hcons
  · exact State.sameBytes_of_bytes hch.bytes

/-- A subscription's end reaches its loader (R209). -/
theorem State.does_unsubscribe {s : State} {id : Nat} {r : Req} (h : s.req id = some r) (hkind : r.kind = .unsub) (hstage : r.stage = .sent) :
    s.does (.unsubscribeAtLoader id) fun t => t.req id = none ∧
      ∀ b ∈ t.subs, b.ci = slotCore r.src → b.xid = BitVec.ofNat 32 r.data → b.ended = none → b.cancelled = true := by
  refine ⟨?after, ?runs, ?_⟩
  case runs =>
    show execUnsubscribeAtLoader id s = _
    unfold execUnsubscribeAtLoader
    rw [h]
    dsimp only
    rw [if_pos (by simp [hkind, hstage])]
  refine ⟨State.req_none_of (s.dropReq_none id), fun b hb hci hxid hended => ?_⟩
  obtain ⟨b0, -, hmap⟩ := List.mem_map.mp hb
  by_cases hhit : b0.ci = slotCore r.src ∧ b0.xid = BitVec.ofNat 32 r.data ∧ b0.ended = none
  · rw [← hmap, if_pos (by simpa using hhit)]
  · rw [if_neg (by simpa using hhit)] at hmap
    exact absurd ⟨hmap ▸ hci, hmap ▸ hxid, hmap ▸ hended⟩ hhit


/-! The storer (R210). -/

@[simp] theorem State.dropUnit_drains (s : State) (cl r : Nat) (w : EngineWork) : (s.dropUnit cl r w).drains = s.drains := rfl

/-- The storer takes the head tile: it writes the tile's elements to memory, or stops the drain where one of them faults (R210). -/
theorem State.does_storerTake {s : State} {n img : Nat} {d : Drain} {x : Xfer} {u : EngineLeft} (h : s.drain n = some d) (hx : s.xfer d.ci d.xid = some x)
    (hready : s.takeReady d = true) (himg : s.headReleased d = some img) (hu : s.unitOf (coreCluster d.ci) 2 (.take n d.prog) = some u) (hdone : u.done = true)
    (hxlat : s.xlatAsk (coreCluster d.ci) d.part d.pid x.sid (((s.walkNow d.ci d.xid d.block).elems d.prog).map fun p => p.2.toNat) = none) :
    let w := s.walkNow d.ci d.xid d.block
    let cl := coreCluster d.ci
    let es := w.elems d.prog
    (s.firstFault cl d.part d.pid d.mode (es.map fun p => (.write, p.2, w.e)) = none →
      let gs := es.map fun p => (s.enginePa cl d.part d.pid d.mode .write p.2, w.e, img / 2 ^ (8 * p.1) % 2 ^ (8 * w.e))
      s.portAsk (((linesOfPieces gs).map Prod.fst).filter fun l => decide (64 * l < hostBase)) (engineRank d.ci 1) = none →
      s.does (.storerTakeTile n) fun t => t.drain n = some { d with taken := true } ∧ ∀ a k, t.physRead a k = (s.sliceLines (makerEngine d.ci) gs).physRead a k) ∧
    (∀ c a, s.firstFault cl d.part d.pid d.mode (es.map fun p => (.write, p.2, w.e)) = some (c, a) → s.does (.storerTakeTile n) fun t =>
      t.drain n = some { d with active := false } ∧ s.sameBytes t ∧ ∃ y, t.xfer d.ci d.xid = some y ∧ y.result = some (1, c, a.toNat)) := by
  intro w cl es
  have hgo : ¬((!s.takeReady d || !(s.unitOf cl 2 (.take n d.prog)).any EngineLeft.done) = true) := by
    rw [hready, show s.unitOf cl 2 (.take n d.prog) = some u from hu]
    simp [hdone]
  constructor
  · intro hfault gs hport
    obtain ⟨mem, hostMem, traces, taken, poison, farCopies, invals, nextId, hstored⟩ := s.sliceLines_stored (makerEngine d.ci) gs
    refine ⟨((s.sliceLines (makerEngine d.ci) gs).dropUnit cl 2 (.take n d.prog)).modDrain n fun d => { d with taken := true }, ?_, ?_, fun a k => ?_⟩
    · show execStorerTakeTile n s = _
      unfold execStorerTakeTile
      rw [h]
      dsimp only
      rw [hx, himg]
      dsimp only
      rw [if_neg hgo, hxlat]
      dsimp only
      rw [hfault]
      dsimp only
      rw [hport]
    · refine State.modDrain_drain (f := fun d => { d with taken := true }) ?_ fun _ => rfl
      rw [hstored]
      exact h
    · exact (State.sameBytes_of_bytes ((State.bytes_modDrain ..).trans (State.bytes_dropUnit ..)) a k).1
  · intro c a hfault
    refine ⟨(((s.xlatDone d.part d.pid x.sid (es.map fun p => p.2.toNat)).dropUnit cl 2 (.take n d.prog)).modDrain n fun d => { d with active := false }).modXfer d.ci d.xid
        fun x => { x with result := some (1, c, a.toNat) }, ?_, ?_, ?_, { x with result := some (1, c, a.toNat) }, ?_, rfl⟩
    · show execStorerTakeTile n s = _
      unfold execStorerTakeTile
      rw [h]
      dsimp only
      rw [hx, himg]
      dsimp only
      rw [if_neg hgo, hxlat]
      dsimp only
      rw [hfault]
    · exact State.modDrain_drain (f := fun d => { d with active := false }) h fun _ => rfl
    · exact State.sameBytes_of_bytes ((State.bytes_modXfer ..).trans ((State.bytes_modDrain ..).trans ((State.bytes_dropUnit ..).trans (State.bytes_xlatDone ..))))
    · exact State.modXfer_xfer (f := fun x => { x with result := some (1, c, a.toNat) }) hx fun _ => rfl

/-- A tile of a drain is written: its buffer is EMPTY, and the ring moves on (R210). -/
theorem State.does_storerPerformed {s : State} {n : Nat} {d : Drain} (h : s.drain n = some d) (htaken : d.taken = true) :
    s.does (.storerTilePerformed n) fun t =>
      t.drain n = some { d with taken := false, prog := d.prog + 1, copies := d.copies.filter fun c => c.1 ≠ (s.ring d.ci d.ring).headTag } ∧
      (t.ring d.ci d.ring).head = ((s.ring d.ci d.ring).head + 1) % (s.ring d.ci d.ring).count ∧
      tagFull (t.tag (coreCluster d.ci) (s.ring d.ci d.ring).headTag) = false ∧ s.sameBytes t := by
  let hd := (s.ring d.ci d.ring).headTag
  let w := s.tag (coreCluster d.ci) hd
  have hch := s.tagChange_putTag (coreCluster d.ci) hd (emptied w (tagCons w) false) []
  rw [tagView_emptied] at hch
  obtain ⟨cs, cu, hframe⟩ := s.putTag_frame (coreCluster d.ci) hd (emptied w (tagCons w) false) []
  obtain ⟨s1, hs1⟩ : ∃ s1, s1 = s.putTag (coreCluster d.ci) hd (emptied w (tagCons w) false) [] := ⟨_, rfl⟩
  rw [← hs1] at hch hframe
  have hfull : tagFull (s1.tag (coreCluster d.ci) hd) = false := congrArg TagView.full hch.view
  let f (d : Drain) : Drain := { d with taken := false, prog := d.prog + 1, copies := d.copies.filter fun c => c.1 ≠ hd }
  let s2 := (s1.modRing d.ci d.ring fun r => { r with head := r.after r.head }).modDrain n f
  refine ⟨s2.modXfer d.ci d.xid fun x => { x with prog := x.prog + 1 }, ?_, ?_, ?_, hfull, ?_⟩
  · show execStorerTilePerformed n s = _
    unfold execStorerTilePerformed
    rw [h]
    dsimp only
    rw [if_neg (by simp [htaken]), ← hs1]
  · refine State.modDrain_drain (f := f) ?_ fun _ => rfl
    rw [hframe]
    exact h
  · have hring : (s1.modRing d.ci d.ring fun r => { r with head := r.after r.head }).ring d.ci d.ring =
        { s.ring d.ci d.ring with head := (s.ring d.ci d.ring).after (s.ring d.ci d.ring).head } := by
      rw [State.modRing_ring, if_pos ⟨rfl, rfl⟩, show s1.ring d.ci d.ring = s.ring d.ci d.ring by rw [hframe]; rfl]
    have hkeep : (s2.modXfer d.ci d.xid fun x => { x with prog := x.prog + 1 }).ring d.ci d.ring = s2.ring d.ci d.ring := by
      unfold State.ring State.modXfer
      rw [State.modCore_self]
    exact (congrArg Ring.head hkeep).trans (congrArg Ring.head hring)
  · exact State.sameBytes_of_bytes ((State.bytes_modXfer ..).trans ((State.bytes_modDrain ..).trans ((State.bytes_modRing ..).trans hch.bytes)))

/-! The stream engines (R230, R253), and the user-level interrupt (R238). -/

theorem State.modStream_seng (s : State) (ci e : Nat) (f : StreamEng → StreamEng) :
    Tab.get {} ((s.modStream ci e f).core ci).seng e = f (Tab.get {} (s.core ci).seng e) := by
  unfold State.modStream
  rw [State.modCore_self]
  exact Tab.get_set_self ..

theorem State.modStream_bytes (s : State) (ci e : Nat) (f : StreamEng → StreamEng) : (s.modStream ci e f).bytes = s.bytes := rfl

/-- An entry of a stream engine's pattern in the scratchpad is moved once its unit has been served. -/
theorem State.does_streamEntry {s : State} {ci e : Nat} {u : EngineLeft} {g : StreamEng} (hg : Tab.get {} (s.core ci).seng e = g) (hactive : g.active = true)
    (hfrozen : s.frozenPart g.part = false) (hsid : g.sid < savedBase) (hfault : g.fault = none) (hmoved : g.moved < patternCount g.n) (hspad : inSpad g.base = true)
    (hu : s.unitOf (coreCluster ci) (3 + 4 * (ci % 4) + e) (.entry ci e g.moved) = some u) (hdone : u.done = true) :
    (∀ p, g.out = false → u.pieces = [p] → s.does (.streamEngineEntry ci e) fun t => s.sameBytes t ∧
      Tab.get {} (t.core ci).seng e = { g with moved := g.moved + 1, buf := g.buf ++ [u.value p] }) ∧
    (g.out = true → s.does (.streamEngineEntry ci e) fun t => Tab.get {} (t.core ci).seng e = { g with moved := g.moved + 1, buf := g.buf.drop 1 } ∧ s.sameBytes t) := by
  have hgo : ¬((!g.active || s.frozenPart g.part || decide (savedBase ≤ g.sid) || g.fault.isSome || decide (patternCount g.n ≤ g.moved)) = true) := by
    simp [hactive, hfrozen, hsid, hfault, hmoved]
  let s1 := s.dropUnit (coreCluster ci) (3 + 4 * (ci % 4) + e) (.entry ci e g.moved)
  have hseng (f : StreamEng → StreamEng) : Tab.get {} ((s1.modStream ci e f).core ci).seng e = f g := by
    rw [State.modStream_seng, ← hg]
    rfl
  have hbytes (f : StreamEng → StreamEng) : s.sameBytes (s1.modStream ci e f) := State.sameBytes_of_bytes ((State.modStream_bytes ..).trans (State.bytes_dropUnit ..))
  refine ⟨fun p hout hp => ?_, fun hout => ?_⟩
  · refine ⟨s1.modStream ci e fun g' => { g' with moved := g'.moved + 1, buf := g.buf ++ [u.value p] }, ?_, hbytes _, hseng _⟩
    show execStreamEngineEntry ci e s = _
    unfold execStreamEngineEntry
    rw [hg]
    dsimp only
    rw [if_neg hgo, if_pos hspad, hu]
    dsimp only
    rw [if_neg (by simp [hdone]), if_neg (by simp [hout]), hp]
    rfl
  · refine ⟨s1.modStream ci e fun g' => { g' with moved := g'.moved + 1, buf := g.buf.drop 1 }, ?_, hseng _, hbytes _⟩
    show execStreamEngineEntry ci e s = _
    unfold execStreamEngineEntry
    rw [hg]
    dsimp only
    rw [if_neg hgo, if_pos hspad, hu]
    dsimp only
    rw [if_neg (by simp [hdone]), if_pos hout]

/-- A stream engine that has moved its pattern posts its completion (R230). -/
theorem State.does_streamComplete {s : State} {ci e : Nat} {g : StreamEng} (hg : Tab.get {} (s.core ci).seng e = g) (hactive : g.active = true)
    (hsid : g.sid < savedBase) (hwrites : g.writes = []) (hfault : g.fault = none) (hmoved : patternCount g.n ≤ g.moved) (hended : g.ended = false) :
    s.does (.streamEngineComplete ci e) fun t => (Tab.get {} (t.core ci).seng e).active = false ∧
      s.posts? t ci (slotTag g.sid) (wordOfInt ((e * 2 ^ 32 + slotTag g.sid * 2 ^ 8 + 9 : Nat) : Int)) (wordOfInt (g.moved : Nat)) := by
  rw [wordOfInt_natCast, wordOfInt_natCast]
  let s1 := s.postEntry ci (slotTag g.sid) (w64 (e * 2 ^ 32 + slotTag g.sid * 2 ^ 8 + 9)) (w64 g.moved)
  have hpost : (s1.core ci).inbox = (s.core ci).inbox ++ [{ tag := slotTag g.sid, w0 := w64 (e * 2 ^ 32 + slotTag g.sid * 2 ^ 8 + 9), w1 := w64 g.moved, half := false }] ∧
      (s1.core ci).reserved = (s.core ci).reserved - 1 := by
    unfold s1 State.postEntry
    rw [State.modCore_self]
    exact ⟨rfl, rfl⟩
  refine ⟨s1.modStream ci e fun g => { g with active := false }, ?_, ?_, ?_⟩
  · show execStreamEngineComplete ci e s = _
    unfold execStreamEngineComplete
    rw [hg]
    dsimp only
    rw [if_neg (by simp [hactive, hsid, hwrites, hmoved]), if_neg (by simp [hended]), hfault]
    simp only [Nat.zero_mul, Nat.add_zero]
    rfl
  · rw [State.modStream_seng]
  · unfold State.posts? State.modStream
    rw [State.modCore_self]
    exact hpost

/-- A user-level interrupt (R238). -/
theorem State.does_userInterrupt {s : State} {sid : Nat} {k : BitVec 32} {h : BitVec 56} {l : List (BitVec 32 × BitVec 56)} (hu : (s.ctx sid).uints = (k, h) :: l)
    (hready : (s.ctx sid).uintReady = true) (hact : (s.ctx sid).act = .running) (hfault : (s.ctx sid).fault.pending = false) (hsave : (s.ctx sid).heldForSave = false) :
    s.does (.userLevelInterrupt sid) fun t => (t.ctx sid).pc = h ∧ (t.ctx sid).ui = true ∧ (t.ctx sid).uepc = (s.ctx sid).pc.zeroExtend 64 ∧ (t.ctx sid).xid = k ∧
      (t.ctx sid).uints = l ∧ (s.ctx sid).sameX (t.ctx sid) ∧ s.sameBytes t := by
  let f (c : Ctx) : Ctx := { c with
    uepc := pcWord c.pc, xid := k, ui := true, pc := h, uints := l, uret := c.mret, mret := false, fenceSent := false, markers := [], pause := some (.redirect, s.redirectEnd sid false) }
  have hctx : (s.modCtx sid f).ctx sid = f (s.ctx sid) := State.modCtx_self s sid f
  refine ⟨s.modCtx sid f, ?_, ?_⟩
  · show execUserLevelInterrupt sid s = _
    unfold execUserLevelInterrupt
    dsimp only
    rw [hu]
    dsimp only
    rw [if_neg (by simp [hready, hact, hfault, hsave])]
  · dsimp only
    rw [hctx]
    exact ⟨rfl, rfl, rfl, rfl, rfl, fun _ => rfl, State.sameBytes_of_bytes rfl⟩

/-- Settles O51: tiles and credits, the storer, the stream engines and the interrupt, each by its own lemma. -/
theorem tilesAndStreamsMove : Obligations.TilesAndStreamsMove := by
  intro s
  refine ⟨fun n c h hdata hv ho hf he hhi hlo => ?_, fun n b x h hx ha hc hended hcredit hsent hstop hover hxlat hfault hport => ?_, fun n ci m v b h hm hb => ?_,
    fun ci ring tag f h hrel => State.does_bufferFree h hrel, fun id r h hk hs => State.does_unsubscribe h hk hs,
    fun n d x img u h hx hready himg hu hdone hxlat => State.does_storerTake h hx hready himg hu hdone hxlat, fun n d h ht => State.does_storerPerformed h ht,
    fun ci e u ha hfz hsid hfault hmoved hspad hu hdone => State.does_streamEntry rfl ha hfz hsid hfault hmoved hspad hu hdone,
    fun ci e ha hsid hw hfault hmoved hended => State.does_streamComplete rfl ha hsid hw hfault hmoved hended,
    fun sid k h l hu hready hact hfault hsave => State.does_userInterrupt hu hready hact hfault hsave⟩
  · exact State.does_tagCredit h hdata hv ho hf he hhi hlo
  · exact State.does_loaderTileSend h hx ha hc hended hcredit hsent hstop hover hxlat hfault hport
  · exact State.does_tileArrival h hm hb

end Sys2Proof.Machine
end


section
/-!
PROOFS. Transfers: their start, their rows, subscriptions and drains, and the entry at their end (R193, R206 to R211).
-/

namespace Sys2Proof.Machine

/-! A line of a piece (R272). -/

/-- Bytes written within a line under enables of theirs alone read as what was written. -/
theorem Memory.readN_writeMasked_within (m : Memory) (a v : Nat) {n o k : Nat} (h : o + k ≤ n) :
    (m.writeMasked a (v * 2 ^ (8 * o)) ((2 ^ k - 1) * 2 ^ o) n).readN (a + o) k = v % 2 ^ (8 * k) := by
  have hread : ∀ j < k, (m.writeMasked a (v * 2 ^ (8 * o)) ((2 ^ k - 1) * 2 ^ o) n).read (a + o + j) = BitVec.ofNat 8 (v >>> (8 * j)) := by
    intro j hj
    have hbit : ((2 ^ k - 1) * 2 ^ o).testBit (o + j) = true := by
      rw [Nat.testBit_mul_two_pow, Nat.add_sub_cancel_left, Nat.testBit_two_pow_sub_one]
      simp [hj]
    have hshift : (v * 2 ^ (8 * o)) >>> (8 * (o + j)) = v >>> (8 * j) := by
      rw [Nat.shiftRight_eq_div_pow, Nat.shiftRight_eq_div_pow, Nat.mul_add, pow_add, Nat.mul_comm v, Nat.mul_div_mul_left _ _ (by positivity)]
    rw [Memory.read_writeMasked, show a + o + j - a = o + j by omega, if_pos ⟨by omega, by omega, hbit⟩, hshift]
  have hreads : ∀ i ≤ k, (m.writeMasked a (v * 2 ^ (8 * o)) ((2 ^ k - 1) * 2 ^ o) n).readN (a + o) i = v % 2 ^ (8 * i) := by
    intro i
    induction i with
    | zero => simp [Memory.readN, Nat.mod_one]
    | succ i ih =>
      intro hi
      rw [Memory.readN, ih (by omega), hread i (by omega), BitVec.toNat_ofNat, Nat.shiftRight_eq_div_pow, show 8 * (i + 1) = 8 * i + 8 by ring, pow_add, Nat.mod_mul]
      ring
  exact hreads k le_rfl

/-- A piece that lies in one line makes one line's store. -/
theorem linesOfPieces_one {pa n : Nat} (v : Nat) (hn : n ≠ 0) (hline : lineOf pa = lineOf (pa + n - 1)) :
    linesOfPieces [(pa, n, v)] = [(lineOf pa, v % 2 ^ (8 * n) * 2 ^ (8 * (pa % 64)), (2 ^ n - 1) * 2 ^ (pa % 64))] := by
  unfold lineOf at hline ⊢
  have hcount : (pa + n - 1) / 64 + 1 - pa / 64 = 1 := by omega
  have hlo : Nat.max pa (64 * (pa / 64)) = pa := Nat.max_eq_left (by omega)
  have hhi : Nat.min (pa + n) (64 * (pa / 64) + 64) = pa + n := Nat.min_eq_left (by omega)
  have hsh : pa - 64 * (pa / 64) = pa % 64 := by omega
  unfold linesOfPieces
  simp only [List.flatMap_cons, List.flatMap_nil, List.append_nil, hcount, List.range_one, List.map_cons, List.map_nil, Nat.add_zero, List.eraseDups_cons,
    List.filter_nil, List.eraseDups_nil, List.foldl_cons, List.foldl_nil, hlo, hhi, hsh, Nat.add_sub_cancel_left, if_neg hn, Nat.sub_self, Nat.mul_zero, pow_zero,
    Nat.div_one, Nat.zero_and, Nat.zero_or, Nat.zero_add]

/-- A piece that lies in one line is in memory once the line has been stored. -/
theorem State.sliceLines_reads (s : State) (m : Maker) {pa n : Nat} (v : Nat) (hn : n ≠ 0) (hline : lineOf pa = lineOf (pa + n - 1)) (hhost : pa + n ≤ hostBase) :
    (s.sliceLines m [(pa, n, v)]).physRead pa n = v % 2 ^ (8 * n) := by
  unfold State.sliceLines
  rw [linesOfPieces_one v hn hline]
  rw [List.foldl_cons, List.foldl_nil, State.physRead_of_bytes (State.sliceStore_bytes ..)]
  unfold lineOf at hline ⊢
  unfold hostBase at hhost
  rw [if_neg (by unfold hostBase; dsimp only; omega)]
  unfold State.physWrite State.physRead hostBase
  dsimp only
  rw [if_pos (by omega), if_pos (by omega)]
  have hread := Memory.readN_writeMasked_within ((s.acceptWrite m (64 * (pa / 64)) 64 ((2 ^ n - 1) * 2 ^ (pa % 64))).mem) (64 * (pa / 64)) (v % 2 ^ (8 * n))
    (n := 64) (o := pa % 64) (k := n) (by omega)
  rw [show 64 * (pa / 64) + pa % 64 = pa by omega, Nat.mod_mod] at hread
  exact hread

/-! Rows of a copy (R206, R208). -/

theorem State.xfer_xid {s : State} {ci : Nat} {id : BitVec 32} {x : Xfer} (h : s.xfer ci id = some x) : x.xid = id := by simpa using List.find?_some h

theorem State.does_xcopyStart {s : State} {ci xid : Nat} {x : Xfer} (h : s.xfer ci (BitVec.ofNat 32 xid) = some x) (hkind : x.kind = .copy) (hheld : x.held = true)
    (hstop : x.stopped = false) (hrel : s.releasable (coreCluster ci) x.made x.taints = true) :
    s.does (.xcopyStart ci xid) fun t => t.xfer ci (BitVec.ofNat 32 xid) = some { x with held := false } ∧ s.sameBytes t := by
  refine ⟨s.modXfer ci (BitVec.ofNat 32 xid) fun x => { x with held := false }, ?_, State.modXfer_xfer (f := fun x => { x with held := false }) h fun _ => rfl,
    State.sameBytes_of_bytes (State.bytes_modXfer ..)⟩
  show execXcopyStart ci xid s = _
  unfold execXcopyStart
  dsimp only
  rw [h]
  dsimp only
  rw [if_pos (by simp [hkind, hheld, hstop, hrel])]

/-- A row that needs lines becomes a unit of the engine's requester (R206, R243). -/
theorem State.does_xcopyRow_begins {s : State} {ci xid : Nat} {x : Xfer} {b : CopyBlk} (h : s.xfer ci (BitVec.ofNat 32 xid) = some x)
    (hb : copyBlk (s.spadRead (coreCluster ci) x.block 64) = b) (hready : s.rowReady ci x b = true) (hfree : Tab.get [] (s.clu (coreCluster ci)).eleft 0 = [])
    (hxlat : s.xlatAsk (coreCluster ci) x.part x.pid x.sid ((b.globals x.prog).map fun g => g.2.1.toNat) = none)
    (hfault : s.firstFault (coreCluster ci) x.part x.pid x.mode (b.globals x.prog) = none)
    (hport : s.portAsk (s.portReads (coreCluster ci) (s.engineLines (coreCluster ci) x.part x.pid x.mode .read
      (((b.globals x.prog).filter fun g => g.1 == .read).map fun g => g.2.1))) (engineRank ci 0) = none)
    (hmore : (s.rowUnit ci x b).done = false) : s.does (.xcopyRow ci xid) fun t =>
      Tab.get [] (t.clu (coreCluster ci)).eleft 0 = [s.rowUnit ci x b] ∧ t.xfer ci (BitVec.ofNat 32 xid) = some x ∧ s.sameBytes t := by
  let rd := s.engineLines (coreCluster ci) x.part x.pid x.mode .read (((b.globals x.prog).filter fun g => g.1 == .read).map fun g => g.2.1)
  refine ⟨(s.engineReads (coreCluster ci) rd).setUnits (coreCluster ci) 0 [s.rowUnit ci x b], ?_, ?_, ?_,
    State.sameBytes_of_bytes ((State.bytes_setUnits ..).trans (State.bytes_engineReads ..))⟩
  · show execXcopyRow ci xid s = _
    unfold execXcopyRow
    rw [h]
    dsimp only
    rw [hb, show s.unitOf (coreCluster ci) 0 (.row ci x.xid.toNat x.prog) = none by unfold State.unitOf; rw [hfree]; rfl]
    dsimp only
    rw [if_pos (by rw [hready, hfree]; rfl)]
    unfold State.startRow
    dsimp only
    rw [hxlat]
    dsimp only
    rw [hfault]
    dsimp only
    rw [hport]
    dsimp only
    rw [if_neg (by simp [hmore])]
  · rw [State.setUnits_eleft, if_pos rfl]
  · obtain ⟨mem, hostMem, traces, taken, poison, farCopies, invals, nextId, hreads⟩ := s.engineReads_stored (coreCluster ci) rd
    rw [hreads]
    exact h

/-- A row whose access faults stops its transfer (R206, R211). -/
theorem State.does_xcopyRow_stops {s : State} {ci xid : Nat} {x : Xfer} {b : CopyBlk} {c : Nat} {a : Word} (h : s.xfer ci (BitVec.ofNat 32 xid) = some x)
    (hb : copyBlk (s.spadRead (coreCluster ci) x.block 64) = b) (hready : s.rowReady ci x b = true) (hfree : Tab.get [] (s.clu (coreCluster ci)).eleft 0 = [])
    (hxlat : s.xlatAsk (coreCluster ci) x.part x.pid x.sid ((b.globals x.prog).map fun g => g.2.1.toNat) = none)
    (hfault : s.firstFault (coreCluster ci) x.part x.pid x.mode (b.globals x.prog) = some (c, a)) (hprog : s.progFull ci x = false) :
    s.does (.xcopyRow ci xid) fun t =>
      t.xfer ci (BitVec.ofNat 32 xid) = some { x with result := some (1, c, a.toNat) } ∧ ∀ p n, t.physRead p n = s.physRead p n := by
  let s1 := (s.xlatDone x.part x.pid x.sid ((b.globals x.prog).map fun g => g.2.1.toNat)).writeProg ci x x.prog
  refine ⟨s1.modXfer ci x.xid fun x => { x with result := some (1, c, a.toNat) }, ?_, ?_, fun p n => rfl⟩
  · show execXcopyRow ci xid s = _
    unfold execXcopyRow
    rw [h]
    dsimp only
    rw [hb, show s.unitOf (coreCluster ci) 0 (.row ci x.xid.toNat x.prog) = none by unfold State.unitOf; rw [hfree]; rfl]
    dsimp only
    rw [if_pos (by rw [hready, hfree]; rfl)]
    unfold State.startRow
    dsimp only
    rw [hxlat]
    dsimp only
    rw [hfault]
    dsimp only
    rw [if_neg (by simp [hprog])]
  · have hid : s1.xfer ci x.xid = some x := by
      rw [State.xfer_xid h]
      exact h
    have hx := State.modXfer_xfer hid (f := fun x => { x with result := some (1, c, a.toNat) }) fun _ => rfl
    rwa [State.xfer_xid h] at hx ⊢

/-- A row is complete: PROG counts it, its unit is gone, and a copy that credits a tag sends its bytes (R206, R208). -/
def State.rowEnds (s t : State) (ci : Nat) (x : Xfer) (b : CopyBlk) (u : EngineLeft) : Prop :=
  t.xfer ci x.xid = some { x with prog := x.prog + 1 } ∧ (∀ v ∈ Tab.get [] (t.clu (coreCluster ci)).eleft 0, v.work ≠ u.work) ∧
    (∀ c a n, t.spadRead c a n = s.spadRead c a n) ∧ t.credits.length = s.credits.length + if b.tv = true ∧ (u.pieces.map EnginePiece.n).sum ≠ 0 then 1 else 0

/-- The places and values of a unit's pieces that go to memory. -/
def EngineLeft.stores (u : EngineLeft) : List (Nat × Nat × Nat) := u.pieces.filterMap fun p => if p.to_.isNone then some (p.pa, p.n, u.value p) else none

theorem State.endRow_ends {s : State} {ci : Nat} {x : Xfer} (b : CopyBlk) {u : EngineLeft} (h : s.xfer ci x.xid = some x)
    (hport : s.portAsk (((linesOfPieces u.stores).map Prod.fst).filter fun l => decide (64 * l < hostBase)) (engineRank ci 0) = none) :
    s.rowEnds (s.endRow ci x b u) ci x b u ∧ (s.endRow ci x b u).bytes = (s.sliceLines (makerEngine ci) u.stores).bytes := by
  obtain ⟨s0, hs0⟩ : ∃ s0, s0 = s.sliceLines (makerEngine ci) u.stores := ⟨_, rfl⟩
  let s1 := (s0.dropUnit (coreCluster ci) 0 u.work).modXfer ci x.xid fun x => { x with prog := x.prog + 1 }
  have hend : s.endRow ci x b u = if b.tv && decide ((u.pieces.map EnginePiece.n).sum ≠ 0) then
      s1.addCredit ci x.xid ci b.tag (u.pieces.map EnginePiece.n).sum none else s1 := by
    unfold State.endRow
    dsimp only
    rw [show (List.filterMap _ u.pieces) = u.stores from rfl, hport, ← hs0]
  obtain ⟨mem, hostMem, traces, taken, poison, farCopies, invals, nextId, hstored⟩ := s.sliceLines_stored (makerEngine ci) u.stores
  rw [← hs0] at hstored
  have hx : s1.xfer ci x.xid = some { x with prog := x.prog + 1 } := by
    refine State.modXfer_xfer (f := fun x => { x with prog := x.prog + 1 }) ?_ fun _ => rfl
    rw [hstored]
    exact h
  have hunits : ∀ v ∈ Tab.get [] (s1.clu (coreCluster ci)).eleft 0, v.work ≠ u.work := by
    intro v hv
    have hv' : v ∈ Tab.get [] ((s0.dropUnit (coreCluster ci) 0 u.work).clu (coreCluster ci)).eleft 0 := hv
    unfold State.dropUnit at hv'
    rw [State.setUnits_eleft, if_pos rfl] at hv'
    simpa using (List.mem_filter.mp hv').2
  have hbytes : s1.bytes = s0.bytes := (State.bytes_modXfer ..).trans (State.bytes_dropUnit ..)
  have hspad : ∀ c a n, s1.spadRead c a n = s.spadRead c a n := fun c a n => by
    rw [((State.sameBytes_of_bytes hbytes) a n).2 c, hstored]
    rfl
  have hcredits : s1.credits = s.credits := by
    show s0.credits = _
    rw [hstored]
  rw [← hs0, hend]
  by_cases hc : b.tv = true ∧ (u.pieces.map EnginePiece.n).sum ≠ 0
  · rw [if_pos (by simpa using hc)]
    refine ⟨⟨hx, hunits, hspad, ?_⟩, hbytes⟩
    rw [if_pos hc, ← hcredits]
    exact List.length_append
  · rw [if_neg (by simpa using hc)]
    refine ⟨⟨hx, hunits, hspad, ?_⟩, hbytes⟩
    rw [if_neg hc, hcredits, Nat.add_zero]

theorem State.exec_xcopyRow_done {s : State} {ci xid : Nat} {x : Xfer} {u : EngineLeft} (h : s.xfer ci (BitVec.ofNat 32 xid) = some x)
    (hu : s.unitOf (coreCluster ci) 0 (.row ci x.xid.toNat x.prog) = some u) (hdone : u.done = true) :
    exec (.xcopyRow ci xid) s = .next (s.endRow ci x (copyBlk (s.spadRead (coreCluster ci) x.block 64)) u) := by
  show execXcopyRow ci xid s = _
  unfold execXcopyRow
  rw [h]
  dsimp only
  rw [hu]
  dsimp only
  rw [if_pos hdone]

/-! The entry at a transfer's end, and the transfers that start at an engine (R205, R209 to R211). -/

theorem State.modRing_core (s : State) (c n : Nat) (f : Ring → Ring) (ci : Nat) : ∃ rg, (s.modRing c n f).core ci = { s.core ci with rg := rg } := by
  unfold State.modRing
  rw [State.modCore_core]
  split
  next h => exact ⟨_, by rw [h]⟩
  · exact ⟨_, rfl⟩

/-- A transfer that is over posts its entry and leaves its slot (R211). -/
theorem State.does_completionEntry {s : State} {ci xid st code det : Nat} {x : Xfer} (h : s.xfer ci (BitVec.ofNat 32 xid) = some x)
    (hend : s.xferEnd ci x = some (st, code, det)) (hprog : s.progFull ci x = false) :
    s.does (.engineCompletionEntry ci xid) fun t => t.xfer ci (BitVec.ofNat 32 xid) = none ∧
      s.posts? t ci (slotTag x.sid) (wordOfInt ((xid % 2 ^ 32 * 2 ^ 32 + code * 2 ^ 16 + slotTag x.sid * 2 ^ 8 + st * 2 ^ 4 + x.kind.code : Nat) : Int)) (wordOfInt (det : Nat)) := by
  rw [wordOfInt_natCast, wordOfInt_natCast]
  obtain ⟨s2, hs2⟩ : ∃ s2, s2 = (s.xferRings ci x).foldl (fun s c => s.modRing c x.ring fun r => { r with mode := 0 }) (s.writeProg ci x x.prog) := ⟨_, rfl⟩
  have hkeeps : (s2.core ci).inbox = (s.core ci).inbox ∧ (s2.core ci).reserved = (s.core ci).reserved := by
    rw [hs2]
    refine State.foldl_keeps (fun t => (t.core ci).inbox = (s.core ci).inbox ∧ (t.core ci).reserved = (s.core ci).reserved) (fun t c ht => ?_) _ ⟨rfl, rfl⟩
    obtain ⟨rg, hrg⟩ := t.modRing_core c x.ring (fun r => { r with mode := 0 }) ci
    rw [hrg]
    exact ht
  let w0 := w64 (xid % 2 ^ 32 * 2 ^ 32 + code * 2 ^ 16 + slotTag x.sid * 2 ^ 8 + st * 2 ^ 4 + x.kind.code)
  let id := BitVec.ofNat 32 xid
  let s3 := (s2.postEntry ci (slotTag x.sid) w0 (w64 det)).modCore ci fun k => { k with xfers := k.xfers.filter fun y => y.xid ≠ id }
  have hs3 : s3.core ci = { s2.core ci with
      reserved := (s2.core ci).reserved - 1, inbox := (s2.core ci).inbox ++ [{ tag := slotTag x.sid, w0 := w0, w1 := w64 det, half := false }]
      xfers := (s2.core ci).xfers.filter fun y => y.xid ≠ id } := by
    unfold s3 State.postEntry
    rw [State.modCore_self, State.modCore_self]
  have hends : ∀ t : State, t.core ci = s3.core ci → t.xfer ci id = none ∧ s.posts? t ci (slotTag x.sid) w0 (w64 det) := by
    intro t ht
    unfold State.xfer State.posts?
    rw [ht, hs3, ← hkeeps.1, ← hkeeps.2]
    exact ⟨List.find?_eq_none.mpr fun y hy => by simpa using (List.mem_filter.mp hy).2, rfl, rfl⟩
  refine ⟨?after, ?runs, ?_⟩
  case runs =>
    show execEngineCompletionEntry ci xid s = _
    unfold execEngineCompletionEntry
    dsimp only
    rw [h]
    dsimp only
    rw [hend]
    dsimp only
    rw [if_neg (by simp [hprog]), ← hs2]
  refine hends _ ?_
  split <;> rfl

theorem Nat.slot_of_code {ci xid : Nat} (h : xid < 2 ^ 32) : (ci * 2 ^ 32 + xid) / 2 ^ 32 = ci := by omega

theorem ofNat_of_code (ci xid : Nat) : BitVec.ofNat 32 (ci * 2 ^ 32 + xid) = BitVec.ofNat 32 xid := by
  apply BitVec.eq_of_toNat_eq
  rw [BitVec.toNat_ofNat, BitVec.toNat_ofNat]
  omega

/-- A subscription of its own core alone starts: its ring begins at PROG, and its loader has credit for every buffer (R208, R209). -/
theorem State.does_subscriptionSetup {s : State} {ci xid : Nat} {x : Xfer} {b : WalkBlk} (h : s.xfer ci (BitVec.ofNat 32 xid) = some x) (hlt : xid < 2 ^ 32)
    (hkind : x.kind = .sub) (hheld : x.held = true) (hrel : s.releasable (coreCluster ci) x.made x.taints = true) (hidle : s.ringIdle ci x.ring = true)
    (hb : walkBlk (s.spadRead (coreCluster ci) x.block 64) = b) (hmc : b.mc = false) :
    s.does (.subscriptionSetup (ci * 2 ^ 32 + xid)) fun t => t.xfer ci (BitVec.ofNat 32 xid) = some { x with held := false } ∧ (t.ring ci b.ring).mode = 1 ∧
      (t.ring ci b.ring).head = x.prog % (s.ring ci b.ring).count ∧ (t.ring ci b.ring).tail = x.prog % (s.ring ci b.ring).count ∧
      ∃ u : Sub, t.subs = s.subs ++ [u] ∧ u.ci = ci ∧ u.xid = BitVec.ofNat 32 xid ∧ u.ring = b.ring ∧ u.count = (s.ring ci b.ring).count ∧ u.sent = x.prog ∧ u.active = true ∧
        u.receivers = [{ ci := ci, begun := x.prog, got := x.prog, freed := x.prog }] ∧ u.credit = u.count := by
  let g (r : Ring) : Ring := { r with mode := 1, head := x.prog % r.count, tail := x.prog % r.count }
  let s1 := s.modXfer ci (BitVec.ofNat 32 xid) fun x => { x with held := false }
  let s2 := s1.modRing ci b.ring g
  let u : Sub := { n := s2.nextId, ci := ci, xid := BitVec.ofNat 32 xid, block := s.spadRead (coreCluster ci) x.block 64, ring := b.ring, count := (s.ring ci b.ring).count
                   receivers := [{ ci := ci, begun := x.prog, got := x.prog, freed := x.prog }], sent := x.prog, active := true, cancelled := false
                   pid := x.pid, part := x.part, mode := x.mode }
  have hrs : b.receivers ci = [ci] := by
    unfold WalkBlk.receivers
    rw [if_pos (by simp [hmc])]
  have hxfer : s2.xfer ci (BitVec.ofNat 32 xid) = s1.xfer ci (BitVec.ofNat 32 xid) := by
    obtain ⟨rg, hrg⟩ := s1.modRing_core ci b.ring g ci
    unfold State.xfer
    rw [hrg]
  have hkeep : s1.ring ci b.ring = s.ring ci b.ring := by
    unfold s1 State.modXfer State.ring
    rw [State.modCore_self]
  have hring : s2.ring ci b.ring = g (s.ring ci b.ring) := by rw [State.modRing_ring, if_pos ⟨rfl, rfl⟩, hkeep]
  have hcredit : u.credit = u.count := by
    unfold Sub.credit Sub.freed
    show (s.ring ci b.ring).count + Nat.min x.prog x.prog - x.prog = _
    rw [show Nat.min x.prog x.prog = x.prog from Nat.min_self _, Nat.add_sub_cancel]
  refine ⟨{ s2 with subs := s2.subs ++ [u], nextId := s2.nextId + 1 }, ?_, ?_, congrArg Ring.mode hring, congrArg Ring.head hring, congrArg Ring.tail hring,
    u, rfl, rfl, rfl, rfl, rfl, rfl, rfl, rfl, hcredit⟩
  · show execSubscriptionSetup (ci * 2 ^ 32 + xid) s = _
    unfold execSubscriptionSetup
    dsimp only
    rw [Nat.slot_of_code hlt, ofNat_of_code, h]
    dsimp only
    rw [if_neg (by simp [hkind, hheld, hrel]), hb, hrs, if_neg (by simp [hidle])]
    rfl
  · exact hxfer.trans (State.modXfer_xfer (f := fun x => { x with held := false }) h fun _ => rfl)

/-- A drain starts at its storer (R210). -/
theorem State.does_drainStart {s : State} {ci xid : Nat} {x : Xfer} (h : s.xfer ci (BitVec.ofNat 32 xid) = some x) (hlt : xid < 2 ^ 32)
    (hkind : x.kind = .drain) (hheld : x.held = true) (hrel : s.releasable (coreCluster ci) x.made x.taints = true) (hclear : s.engineClear ci x = true) :
    s.does (.drainStart (ci * 2 ^ 32 + xid)) fun t => t.xfer ci (BitVec.ofNat 32 xid) = some { x with held := false } ∧
      ∃ d : Drain, t.drains = s.drains ++ [d] ∧ d.ci = ci ∧ d.xid = BitVec.ofNat 32 xid ∧ d.ring = x.ring ∧ d.prog = x.prog ∧ d.taken = false ∧ d.active = true := by
  let d : Drain := { n := s.nextId, ci := ci, xid := BitVec.ofNat 32 xid, block := s.spadRead (coreCluster ci) x.block 64, ring := x.ring, prog := x.prog, taken := false
                     copies := x.copies, active := true, pid := x.pid, part := x.part, mode := x.mode }
  refine ⟨{ (s.modXfer ci (BitVec.ofNat 32 xid) fun x => { x with held := false }) with drains := s.drains ++ [d], nextId := s.nextId + 1 }, ?_, ?_,
    d, rfl, rfl, rfl, rfl, rfl, rfl, rfl⟩
  · show execDrainStart (ci * 2 ^ 32 + xid) s = _
    unfold execDrainStart
    dsimp only
    rw [Nat.slot_of_code hlt, ofNat_of_code, h]
    dsimp only
    rw [if_neg (by simp [hkind, hheld, hrel, hclear])]
  · exact State.modXfer_xfer (f := fun x => { x with held := false }) h fun _ => rfl

/-- Settles O50: a copy's start and rows, the entry at a transfer's end, and what starts at an engine. -/
theorem transfersMoveTheirBytes : Obligations.TransfersMoveTheirBytes := by
  intro s ci xid x h id cl
  have hid : x.xid = id := State.xfer_xid h
  have hx : s.xfer ci x.xid = some x := by
    rw [hid]
    exact h
  refine ⟨fun hk hh hst hrel => State.does_xcopyStart h hk hh hst hrel, ?_, fun st code det hend hprog => State.does_completionEntry h hend hprog,
    fun hlt hk hh hrel hidle => State.does_subscriptionSetup h hlt hk hh hrel hidle rfl, fun hlt hk hh hrel hclear => State.does_drainStart h hlt hk hh hrel hclear⟩
  intro b gs vas
  refine ⟨fun hready hfree hxlat => ⟨fun hfault hport hmore => State.does_xcopyRow_begins h rfl hready hfree hxlat hfault hport hmore,
    fun c a hfault hprog => State.does_xcopyRow_stops h rfl hready hfree hxlat hfault hprog⟩, fun u hu hwork hdone => ?_⟩
  intro ends
  have hends : ∀ t, s.rowEnds t ci x b u → ends t := fun t ⟨h1, h2, h3, h4⟩ => ⟨hid ▸ h1, h2, h3, h4⟩
  have hexec := State.exec_xcopyRow_done h hu hdone
  constructor
  · intro hto
    have hnone : u.stores = [] := List.filterMap_eq_nil_iff.mpr fun p hp => by simp [Option.isSome_iff_ne_none.mp (hto p hp)]
    obtain ⟨hrow, hbytes⟩ := State.endRow_ends (s := s) (ci := ci) b (u := u) hx (by rw [hnone]; rfl)
    refine ⟨s.endRow ci x b u, hexec, hends _ hrow, State.sameBytes_of_bytes (hbytes.trans ?_)⟩
    rw [hnone]
    rfl
  · intro p hp hto hhost hline hport hn
    have hone : u.stores = [(p.pa, p.n, u.value p)] := by
      unfold EngineLeft.stores
      rw [hp]
      simp [hto]
    have hlt : 64 * lineOf p.pa < hostBase := by
      unfold lineOf
      unfold hostBase at hhost ⊢
      omega
    have hlines : ((linesOfPieces u.stores).map Prod.fst).filter (fun l => decide (64 * l < hostBase)) = [lineOf p.pa] := by
      rw [hone, linesOfPieces_one _ hn hline]
      simp [hlt]
    obtain ⟨hrow, hbytes⟩ := State.endRow_ends (s := s) (ci := ci) b (u := u) hx (by rw [hlines]; exact hport)
    refine ⟨s.endRow ci x b u, hexec, hends _ hrow, ?_⟩
    rw [State.physRead_of_bytes hbytes, hone]
    exact State.sliceLines_reads s (makerEngine ci) (u.value p) hn hline hhost

end Sys2Proof.Machine
end


section
/-!
PROOFS. The key directory: notices, arrivals, withdrawals and the retries of pairings (R217, R224, R257, R258, R259, R265, R266).
-/

namespace Sys2Proof.Machine

/-! Messages that arrive, and those sent for them. -/

/-- Messages sent in the place of one that had come before. -/
theorem State.dropMsg_net {s t : State} {n : Nat} {ks : List Msg} (h : t.net = s.net ++ ks) (hk : ∀ k ∈ ks, k.id ≠ n) :
    (t.dropMsg n).net = (s.net.filter fun x => x.id ≠ n) ++ ks := by
  unfold State.dropMsg
  have hks : ks.filter (fun x => x.id ≠ n) = ks := List.filter_eq_self.mpr fun k hk' => by simpa using hk k hk'
  show t.net.filter _ = _
  rw [h, List.filter_append, hks]

/-- A call's answer leaves for its party (R258). -/
def State.answersCall (s t : State) (n dir : Nat) (c : Call) (code : Nat) : Prop :=
  ∃ k : Msg, t.net = (s.net.filter fun x => x.id ≠ n) ++ [k] ∧ k.at_ = s.now + noticeTime dir (slotCluster c.sid) ∧ k.body = .answer c.sid c.tok code

theorem State.answersCall_of {s t : State} {n : Nat} (hn : n < s.nextId) (hnet : t.net = s.net) (hid : t.nextId = s.nextId) (hnow : t.now = s.now) (dir : Nat) (c : Call)
    (code : Nat) : s.answersCall ((t.answerCall dir c code).dropMsg n) n dir c code := by
  refine ⟨{ id := t.nextId, at_ := t.now + noticeTime dir (slotCluster c.sid), body := .answer c.sid c.tok code }, State.dropMsg_net ?_ ?_, by rw [hnow], rfl⟩
  · show t.net ++ _ = _
    rw [hnet]
  · simp
    omega

@[simp] theorem State.modPost_self (s : State) (cl : Nat) (f : Post → Post) : (s.modPost cl f).post cl = f (s.post cl) := Tab.get_set_self ..

theorem State.modPost_entries {s : State} {cl : Nat} {f : Post → Post} (h : (f (s.post cl)).entries = (s.post cl).entries) :
    ((s.modPost cl f).post cl).entries = (s.post cl).entries := by
  rw [State.modPost_self]
  exact h

/-- An entry of a directory. -/
def State.dirEntry (s : State) (dir e : Nat) : Option DirEntry := Tab.get none (s.post dir).entries e

@[simp] theorem State.setEntry_dirEntry (s : State) (dir e : Nat) (x : Option DirEntry) : (s.setEntry dir e x).dirEntry dir e = x := by
  unfold State.setEntry State.dirEntry
  rw [State.modPost_self]
  exact Tab.get_set_self ..

theorem State.dirEntry_congr {s t : State} {dir e : Nat} (h : (t.post dir).entries = (s.post dir).entries) : t.dirEntry dir e = s.dirEntry dir e := by
  unfold State.dirEntry
  rw [h]

/-! Notices (R217, R258). -/

section Notice
variable {s : State} {n dir : Nat} {m : Msg} {c : Call} (hcame : s.came n = some m)
include hcame

theorem State.exec_meetNoticeArrival (hm : m.body = .notice dir c) {u : State} (hu : s.takeNotice dir c = some u) :
    exec (.meetNoticeArrival n) s = .next (u.dropMsg n) := by
  show execMeetNoticeArrival n s = _
  unfold execMeetNoticeArrival
  rw [hcame, Option.map_some, hm]
  dsimp only
  rw [hu]

theorem State.exec_rollArrival (hm : m.body = .arrival dir c) {u : State} (hu : s.takeArrival dir c = some u) : exec (.rollArrival n) s = .next (u.dropMsg n) := by
  show execRollArrival n s = _
  unfold execRollArrival
  rw [hcame, Option.map_some, hm]
  dsimp only
  rw [hu]

theorem State.exec_withdrawalArrival (hm : m.body = .withdrawal dir c) (hwaits : s.callWaits c.tok = false) {u : State} (hu : s.withdraw dir c.tok = some u) :
    exec (.withdrawalArrival n) s = .next ((u.answerCall dir c 1).dropMsg n) := by
  show execWithdrawalArrival n s = _
  unfold execWithdrawalArrival
  rw [hcame, Option.map_some, hm]
  dsimp only
  rw [if_neg (by simp [hwaits]), hu]

theorem State.exec_withdrawalArrival_none (hm : m.body = .withdrawal dir c) (hwaits : s.callWaits c.tok = false) (hu : s.withdraw dir c.tok = none) :
    exec (.withdrawalArrival n) s = .next (s.dropMsg n) := by
  show execWithdrawalArrival n s = _
  unfold execWithdrawalArrival
  rw [hcame, Option.map_some, hm]
  dsimp only
  rw [if_neg (by simp [hwaits]), hu]

theorem State.does_notice_answer (hn : n < s.nextId) (hm : m.body = .notice dir c) {code : Nat} (hu : s.takeNotice dir c = some (s.answerCall dir c code)) :
    s.does (.meetNoticeArrival n) fun t => s.answersCall t n dir c code :=
  ⟨_, State.exec_meetNoticeArrival hcame hm hu, State.answersCall_of hn rfl rfl rfl dir c code⟩

end Notice

theorem State.takeNotice_full {s : State} {dir : Nat} {c : Call} (h : s.probe dir c = none) : s.takeNotice dir c = some (s.answerCall dir c 2) := by
  unfold State.takeNotice
  rw [h]

theorem State.takeNotice_closing {s : State} {dir e : Nat} {c : Call} {x : Option DirEntry} (h : s.probe dir c = some (e, x)) (hc : s.closing c = true) :
    s.takeNotice dir c = some (s.answerCall dir c 3) := by
  unfold State.takeNotice
  rw [h]
  dsimp only
  rw [if_pos hc]

theorem State.takeNotice_new {s : State} {dir e : Nat} {c : Call} (h : s.probe dir c = some (e, none)) (hc : s.closing c = false) :
    s.takeNotice dir c = if c.zero then some (s.answerCall dir c 1) else some (s.setEntry dir e (some { part := c.part, pid := c.pid, key := c.key, body := .notice c })) := by
  unfold State.takeNotice
  rw [h]
  dsimp only
  rw [if_neg (by simp [hc])]

theorem State.takeNotice_roll {s : State} {dir e q op : Nat} {c : Call} {x : DirEntry} {l : List Call} (h : s.probe dir c = some (e, some x)) (hc : s.closing c = false)
    (hx : x.body = .roll q op l) : s.takeNotice dir c = some (s.answerCall dir c 4) := by
  unfold State.takeNotice
  rw [h]
  dsimp only
  rw [if_neg (by simp [hc]), hx]

theorem State.takeNotice_second {s : State} {dir e : Nat} {c a : Call} {x : DirEntry} (h : s.probe dir c = some (e, some x)) (hc : s.closing c = false)
    (hx : x.body = .notice a) (hroom : (s.post dir).pairs.length < 16) : s.takeNotice dir c = some (s.pair dir e a c) := by
  unfold State.takeNotice
  rw [h]
  dsimp only
  rw [if_neg (by simp [hc]), hx]
  dsimp only
  rw [if_neg (by omega)]

/-! Pairings (R257, R259, R260). -/

/-- The taint of a pairing, and the state that keeps it. -/
def State.pairing (s : State) (dir e : Nat) (a b : Call) : State := ((s.setEntry dir e none).newTaint false a.key [a, b]).1

theorem State.pairing_post (s : State) (dir e : Nat) (a b : Call) : (s.pairing dir e a b).post dir = (s.setEntry dir e none).post dir := rfl

theorem State.pairing_entry (s : State) (dir e : Nat) (a b : Call) : (s.pairing dir e a b).dirEntry dir e = none := s.setEntry_dirEntry dir e none

theorem State.pairing_pairs (s : State) (dir e : Nat) (a b : Call) : ((s.pairing dir e a b).post dir).pairs = (s.post dir).pairs := by
  rw [State.pairing_post]
  unfold State.setEntry
  rw [State.modPost_self]

theorem State.pairing_choosePlace (s : State) (dir e : Nat) (a b : Call) (part x y : Nat) : (s.pairing dir e a b).choosePlace part x y = s.choosePlace part x y := rfl

/-- The record of a pairing. -/
def State.pairOf (s : State) (a b : Call) : PairRec := { a := a, b := b, taint := s.nextId, at_ := s.now }

theorem State.pair_placed {s t : State} {dir e : Nat} {a b : Call} (h : (s.pairing dir e a b).placePair dir (s.pairOf a b) = some t) : s.pair dir e a b = t := by
  show (match (s.pairing dir e a b).placePair dir (s.pairOf a b) with
    | some s' => s'
    | none => _) = t
  rw [h]

theorem State.pair_waits {s : State} {dir e : Nat} {a b : Call} (h : (s.pairing dir e a b).placePair dir (s.pairOf a b) = none) :
    s.pair dir e a b = (s.pairing dir e a b).modPost dir fun o => { o with pairs := o.pairs ++ [s.pairOf a b] } := by
  show (match (s.pairing dir e a b).placePair dir (s.pairOf a b) with
    | some s' => s'
    | none => _) = _
  rw [h]
  rfl

/-- A pair meets at a place: both parties are ordered there. -/
def State.ordersPair (s t : State) (dir : Nat) (a b : Call) (place : Nat) (va vb : Option Nat) (pa pb taint : Nat) : Prop :=
  ∃ k h : Msg, t.net = s.net ++ [k, h] ∧ k.id = s.nextId ∧ h.id = s.nextId + 1 ∧ k.at_ = s.now + noticeTime dir (slotCluster a.sid) ∧
    h.at_ = s.now + noticeTime dir (slotCluster b.sid) ∧ k.body = .order a.sid a.tok place va pa taint ∧ h.body = .order b.sid b.tok place vb pb taint

theorem State.placePair_home {s : State} {dir : Nat} {p : PairRec} (h : slotCluster p.a.sid = slotCluster p.b.sid) :
    ∃ t, s.placePair dir p = some t ∧ t.posts = s.posts ∧
      s.ordersPair t dir p.a p.b (slotCluster p.a.sid) none none p.b.sid p.a.sid p.taint := by
  refine ⟨((s.orderTo dir p.a (slotCluster p.a.sid) none p.b.sid p.taint).orderTo dir p.b (slotCluster p.a.sid) none p.a.sid p.taint).taintPlace p.taint (slotCluster p.a.sid),
    if_pos h, rfl, { id := s.nextId, at_ := s.now + noticeTime dir (slotCluster p.a.sid), body := .order p.a.sid p.a.tok (slotCluster p.a.sid) none p.b.sid p.taint },
    { id := s.nextId + 1, at_ := s.now + noticeTime dir (slotCluster p.b.sid), body := .order p.b.sid p.b.tok (slotCluster p.a.sid) none p.a.sid p.taint }, ?_,
    rfl, rfl, rfl, rfl, rfl, rfl⟩
  exact List.append_assoc s.net [_] [_]

theorem State.placePair_apart {s : State} {dir cl : Nat} {p : PairRec} (h : slotCluster p.a.sid ≠ slotCluster p.b.sid)
    (hplace : s.choosePlace p.a.part (slotCluster p.a.sid) (slotCluster p.b.sid) = some cl) :
    ∃ t, s.placePair dir p = some t ∧ t.posts = s.posts ∧ (t.clu cl).vres = [0, 1] ∧
      s.ordersPair t dir p.a p.b cl (some (10 * cl + 8)) (some (10 * cl + 9)) (10 * cl + 9) (10 * cl + 8) p.taint := by
  let s1 := (s.modClu cl fun c => { c with vres := [0, 1] }).taintPlace p.taint cl
  have hclu : s1.clu cl = { s.clu cl with vres := [0, 1] } := State.modClu_self s cl fun c => { c with vres := [0, 1] }
  refine ⟨(s1.orderTo dir p.a cl (some (10 * cl + 8)) (10 * cl + 9) p.taint).orderTo dir p.b cl (some (10 * cl + 9)) (10 * cl + 8) p.taint, ?_, rfl,
    congrArg Cluster.vres hclu,
    { id := s.nextId, at_ := s.now + noticeTime dir (slotCluster p.a.sid), body := .order p.a.sid p.a.tok cl (some (10 * cl + 8)) (10 * cl + 9) p.taint },
    { id := s.nextId + 1, at_ := s.now + noticeTime dir (slotCluster p.b.sid), body := .order p.b.sid p.b.tok cl (some (10 * cl + 9)) (10 * cl + 8) p.taint }, ?_,
    rfl, rfl, rfl, rfl, rfl, rfl⟩
  · unfold State.placePair
    dsimp only
    rw [if_neg h, hplace]
    rfl
  · exact List.append_assoc s.net [_] [_]

theorem State.placePair_none {s : State} {dir : Nat} {p : PairRec} (h : slotCluster p.a.sid ≠ slotCluster p.b.sid)
    (hplace : s.choosePlace p.a.part (slotCluster p.a.sid) (slotCluster p.b.sid) = none) : s.placePair dir p = none := by
  unfold State.placePair
  dsimp only
  rw [if_neg h, hplace]
  rfl

/-- The orders of a pairing go out in the place of the notice that brought it about. -/
theorem State.ordersPair_dropMsg {s u t : State} {n dir place pa pb taint : Nat} {a b : Call} {va vb : Option Nat} (hn : n < u.nextId) (hnet : u.net = s.net)
    (hnow : u.now = s.now) (h : u.ordersPair t dir a b place va vb pa pb taint) : ∃ k h : Msg, (t.dropMsg n).net = (s.net.filter fun x => x.id ≠ n) ++ [k, h] ∧
      k.at_ = s.now + noticeTime dir (slotCluster a.sid) ∧ h.at_ = s.now + noticeTime dir (slotCluster b.sid) ∧
      k.body = .order a.sid a.tok place va pa taint ∧ h.body = .order b.sid b.tok place vb pb taint := by
  obtain ⟨k, h, ht, hk, hh, hka, hha, hkb, hhb⟩ := h
  refine ⟨k, h, State.dropMsg_net (by rw [ht, hnet]) ?_, by rw [hka, hnow], by rw [hha, hnow], hkb, hhb⟩
  intro x hx
  rcases List.mem_cons.mp hx with rfl | hx
  · omega
  · rw [List.mem_singleton.mp hx]
    omega

section Second
variable {s : State} {n dir e : Nat} {m : Msg} {a c : Call} (hcame : s.came n = some m) (hn : n < s.nextId) (hm : m.body = .notice dir c)
  (htake : s.takeNotice dir c = some (s.pair dir e a c))
include hcame hn hm htake

theorem State.does_pair_home (hsame : slotCluster a.sid = slotCluster c.sid) : s.does (.meetNoticeArrival n) fun t => t.dirEntry dir e = none ∧
    ∃ (k h : Msg) (i : Nat), t.net = (s.net.filter fun x => x.id ≠ n) ++ [k, h] ∧ k.at_ = s.now + noticeTime dir (slotCluster a.sid) ∧
      h.at_ = s.now + noticeTime dir (slotCluster c.sid) ∧ k.body = .order a.sid a.tok (slotCluster a.sid) none c.sid i ∧
      h.body = .order c.sid c.tok (slotCluster a.sid) none a.sid i := by
  obtain ⟨t, ht, hposts, horders⟩ := (s.pairing dir e a c).placePair_home (dir := dir) (p := s.pairOf a c) hsame
  obtain ⟨k, h, hnet, hk⟩ := State.ordersPair_dropMsg (s := s) (u := s.pairing dir e a c) (Nat.lt_succ_of_lt hn) rfl rfl horders
  have hexec := State.exec_meetNoticeArrival hcame hm htake
  rw [State.pair_placed ht] at hexec
  exact ⟨_, hexec, (State.dirEntry_congr (congrArg (fun l => (Tab.get ({} : Post) l dir).entries) hposts)).trans (s.pairing_entry dir e a c), k, h, s.nextId, hnet, hk⟩

theorem State.does_pair_apart {cl : Nat} (hne : slotCluster a.sid ≠ slotCluster c.sid)
    (hplace : s.choosePlace a.part (slotCluster a.sid) (slotCluster c.sid) = some cl) : s.does (.meetNoticeArrival n) fun t =>
      t.dirEntry dir e = none ∧ (t.clu cl).vres = [0, 1] ∧ ∃ (k h : Msg) (i : Nat), t.net = (s.net.filter fun x => x.id ≠ n) ++ [k, h] ∧
        k.at_ = s.now + noticeTime dir (slotCluster a.sid) ∧ h.at_ = s.now + noticeTime dir (slotCluster c.sid) ∧
        k.body = .order a.sid a.tok cl (some (10 * cl + 8)) (10 * cl + 9) i ∧ h.body = .order c.sid c.tok cl (some (10 * cl + 9)) (10 * cl + 8) i := by
  obtain ⟨t, ht, hposts, hvres, horders⟩ := (s.pairing dir e a c).placePair_apart (dir := dir) (p := s.pairOf a c) hne
    ((s.pairing_choosePlace dir e a c _ _ _).trans hplace)
  obtain ⟨k, h, hnet, hk⟩ := State.ordersPair_dropMsg (s := s) (u := s.pairing dir e a c) (Nat.lt_succ_of_lt hn) rfl rfl horders
  have hexec := State.exec_meetNoticeArrival hcame hm htake
  rw [State.pair_placed ht] at hexec
  exact ⟨_, hexec, (State.dirEntry_congr (congrArg (fun l => (Tab.get ({} : Post) l dir).entries) hposts)).trans (s.pairing_entry dir e a c), hvres, k, h, s.nextId, hnet, hk⟩

theorem State.does_pair_waits (hne : slotCluster a.sid ≠ slotCluster c.sid) (hplace : s.choosePlace a.part (slotCluster a.sid) (slotCluster c.sid) = none) :
    s.does (.meetNoticeArrival n) fun t => t.dirEntry dir e = none ∧ t.net = (s.net.filter fun x => x.id ≠ n) ∧
      ∃ p : PairRec, (t.post dir).pairs = (s.post dir).pairs ++ [p] ∧ p.a = a ∧ p.b = c ∧ p.at_ = s.now := by
  have hexec := State.exec_meetNoticeArrival hcame hm htake
  rw [State.pair_waits (State.placePair_none (p := s.pairOf a c) hne ((s.pairing_choosePlace dir e a c _ _ _).trans hplace))] at hexec
  have hpost := (s.pairing dir e a c).modPost_self dir fun o => { o with pairs := o.pairs ++ [s.pairOf a c] }
  have hentries : (((s.pairing dir e a c).modPost dir fun o => { o with pairs := o.pairs ++ [s.pairOf a c] }).post dir).entries =
      ((s.pairing dir e a c).post dir).entries := State.modPost_entries rfl
  refine ⟨_, hexec, (State.dirEntry_congr hentries).trans (s.pairing_entry dir e a c), rfl, s.pairOf a c, ?_, rfl, rfl, rfl⟩
  rw [← s.pairing_pairs dir e a c]
  exact congrArg Post.pairs hpost

end Second

/-! Arrivals of roll calls (R224, R266). -/

/-- An arrival added to those of a roll call (R266). -/
def State.rollAdds (s : State) (dir e : Nat) (c : Call) (l : List Call) : State :=
  let y : DirEntry := { part := c.part, pid := c.pid, key := c.key, body := .roll c.q c.op (l ++ [c]) }
  if c.q ≤ l.length + 1 then s.rollDone dir e y c.op (l ++ [c])
  else if c.zero then s.answerCall dir c 1
  else s.setEntry dir e (some y)

section Arrival
variable {s : State} {dir : Nat} {c : Call} (hroom : ((s.dropKept dir).post dir).arrivals < 1024)
include hroom

/-- The probe of a directory and the reset of a partition do not see the arrivals that are kept. -/
theorem State.dropKept_probe : (s.dropKept dir).probe dir c = s.probe dir c ∧ (s.dropKept dir).closing c = s.closing c := by
  refine ⟨?_, rfl⟩
  have hentries : ((s.dropKept dir).post dir).entries = (s.post dir).entries := State.modPost_entries rfl
  unfold State.probe
  dsimp only
  rw [hentries]
  rfl

theorem State.takeArrival_full (h : s.probe dir c = none) : s.takeArrival dir c = some ((s.dropKept dir).answerCall dir c 2) := by
  unfold State.takeArrival
  dsimp only
  rw [if_neg (by omega), (State.dropKept_probe hroom).1, h]

theorem State.takeArrival_closing {e : Nat} {x : Option DirEntry} (h : s.probe dir c = some (e, x)) (hc : s.closing c = true) :
    s.takeArrival dir c = some ((s.dropKept dir).answerCall dir c 3) := by
  unfold State.takeArrival
  dsimp only
  rw [if_neg (by omega), (State.dropKept_probe hroom).1, h]
  dsimp only
  rw [(State.dropKept_probe hroom).2, if_pos hc]

theorem State.takeArrival_notice {e : Nat} {x : DirEntry} {a : Call} (h : s.probe dir c = some (e, some x)) (hc : s.closing c = false) (hx : x.body = .notice a) :
    s.takeArrival dir c = some ((s.dropKept dir).answerCall dir c 4) := by
  unfold State.takeArrival
  dsimp only
  rw [if_neg (by omega), (State.dropKept_probe hroom).1, h]
  dsimp only
  rw [if_neg (by rw [(State.dropKept_probe hroom).2, hc]; simp), hx]

theorem State.takeArrival_other {e q op : Nat} {x : DirEntry} {l : List Call} (h : s.probe dir c = some (e, some x)) (hc : s.closing c = false)
    (hx : x.body = .roll q op l) (hne : q ≠ c.q ∨ op ≠ c.op) : s.takeArrival dir c = some ((s.dropKept dir).answerCall dir c 4) := by
  unfold State.takeArrival
  dsimp only
  rw [if_neg (by omega), (State.dropKept_probe hroom).1, h]
  dsimp only
  rw [if_neg (by rw [(State.dropKept_probe hroom).2, hc]; simp), hx]
  dsimp only
  rw [if_neg (by tauto)]

theorem State.takeArrival_adds {e : Nat} {x : Option DirEntry} {l : List Call} (h : s.probe dir c = some (e, x)) (hc : s.closing c = false)
    (hx : x = none ∧ l = [] ∨ x.map DirEntry.body = some (.roll c.q c.op l)) : s.takeArrival dir c = some ((s.dropKept dir).rollAdds dir e c l) := by
  unfold State.takeArrival
  dsimp only
  rw [if_neg (by omega), (State.dropKept_probe hroom).1, h]
  dsimp only
  rw [if_neg (by rw [(State.dropKept_probe hroom).2, hc]; simp)]
  rcases hx with ⟨rfl, rfl⟩ | hx
  · rfl
  · obtain ⟨y, rfl, hy⟩ := Option.map_eq_some_iff.mp hx
    dsimp only
    rw [hy]
    dsimp only
    rw [if_pos ⟨rfl, rfl⟩]
    rfl

end Arrival

/-- Messages sent to a list of parties, each later than the one before it by a cycle. -/
theorem State.sends_indexed {α : Type} (f : α → MsgBody) (d : α → Nat) (l : List α) (s : State) (i : Nat) :
    ∃ ks, ((l.zipIdx i).foldl (fun s j => s.send (s.now + j.2 + d j.1) (f j.1)) s).net = s.net ++ ks ∧ ks.length = l.length ∧ (∀ k ∈ ks, s.nextId ≤ k.id) ∧
      (∀ (j : Nat) (a : α), l[j]? = some a → ∃ k ∈ ks, k.at_ = s.now + (i + j) + d a ∧ k.body = f a) ∧
      ((l.zipIdx i).foldl (fun s j => s.send (s.now + j.2 + d j.1) (f j.1)) s).posts = s.posts := by
  induction l generalizing s i with
  | nil => exact ⟨[], by simp, rfl, by simp, by simp, rfl⟩
  | cons a l ih =>
    obtain ⟨ks, hnet, hlen, hids, hks, hposts⟩ := ih (s.send (s.now + i + d a) (f a)) (i + 1)
    let k0 : Msg := { id := s.nextId, at_ := s.now + i + d a, body := f a }
    refine ⟨k0 :: ks, hnet.trans (List.append_assoc s.net [k0] ks), by simp [hlen], fun k hk => ?_, fun j b hj => ?_, hposts⟩
    · rcases List.mem_cons.mp hk with rfl | hk
      · exact le_rfl
      · exact Nat.le_of_succ_le (hids k hk)
    · cases j with
      | zero =>
        obtain rfl : a = b := by simpa using hj
        exact ⟨k0, List.mem_cons_self, rfl, rfl⟩
      | succ j =>
        obtain ⟨k, hk, hat, hbody⟩ := hks j b (by simpa using hj)
        exact ⟨k, List.mem_cons_of_mem _ hk, by rw [hat]; show s.now + _ + _ = _; omega, hbody⟩

section Roll
variable {s : State} {n dir : Nat} {m : Msg} {c : Call} (hcame : s.came n = some m) (hn : n < s.nextId) (hm : m.body = .arrival dir c)
include hcame hn hm

theorem State.does_arrival_answer {code : Nat} (hu : s.takeArrival dir c = some ((s.dropKept dir).answerCall dir c code)) :
    s.does (.rollArrival n) fun t => s.answersCall t n dir c code :=
  ⟨_, State.exec_rollArrival hcame hm hu, State.answersCall_of hn rfl rfl rfl dir c code⟩

theorem State.does_arrival_zero {e : Nat} {l : List Call} (hu : s.takeArrival dir c = some ((s.dropKept dir).rollAdds dir e c l)) (hmore : l.length + 1 < c.q)
    (hzero : c.zero = true) : s.does (.rollArrival n) fun t => s.answersCall t n dir c 1 := by
  refine State.does_arrival_answer hcame hn hm ?_
  rw [hu]
  unfold State.rollAdds
  dsimp only
  rw [if_neg (by omega), if_pos hzero]

omit hn in
theorem State.does_arrival_stays {e : Nat} {l : List Call} (hu : s.takeArrival dir c = some ((s.dropKept dir).rollAdds dir e c l)) (hmore : l.length + 1 < c.q)
    (hzero : c.zero = false) : s.does (.rollArrival n) fun t => t.net = (s.net.filter fun x => x.id ≠ n) ∧
      t.dirEntry dir e = some { part := c.part, pid := c.pid, key := c.key, body := .roll c.q c.op (l ++ [c]) } := by
  refine ⟨_, State.exec_rollArrival hcame hm hu, ?_⟩
  unfold State.rollAdds
  dsimp only
  rw [if_neg (by omega), if_neg (by simp [hzero])]
  exact ⟨rfl, State.setEntry_dirEntry ..⟩

/-- The last arrival of a roll call releases its parties with the combined word, one a cycle (R266). -/
theorem State.does_arrival_last {e : Nat} {l : List Call} (hu : s.takeArrival dir c = some ((s.dropKept dir).rollAdds dir e c l)) (hlast : c.q ≤ l.length + 1) :
    s.does (.rollArrival n) fun t => t.dirEntry dir e = none ∧ t.net.length = (s.net.filter fun x => x.id ≠ n).length + l.length + 1 ∧
      ∃ i : Nat, ∀ (j : Nat) (a : Call), (l ++ [c])[j]? = some a → ∃ k : Msg, k ∈ t.net ∧ k.at_ = s.now + j + noticeTime dir (slotCluster a.sid) ∧
        k.body = .release a.sid a.tok (rollWord c.op ((l ++ [c]).map fun x => x.word)) i := by
  let y : DirEntry := { part := c.part, pid := c.pid, key := c.key, body := .roll c.q c.op (l ++ [c]) }
  let s1 := (((s.dropKept dir).setEntry dir e none).newTaint true y.key (l ++ [c])).1.modPost dir fun p => { p with kept := p.kept ++ [{ entry := y, taint := s.nextId }] }
  obtain ⟨ks, hnet, hlen, hids, hks, hposts⟩ := s1.sends_indexed (fun a : Call => MsgBody.release a.sid a.tok (rollWord c.op ((l ++ [c]).map Call.word)) s.nextId)
    (fun a => noticeTime dir (slotCluster a.sid)) (l ++ [c]) 0
  have hadds : (s.dropKept dir).rollAdds dir e c l = ((l ++ [c]).zipIdx 0).foldl (fun t j => t.send (t.now + j.2 + noticeTime dir (slotCluster j.1.sid))
      (.release j.1.sid j.1.tok (rollWord c.op ((l ++ [c]).map Call.word)) s.nextId)) s1 := by
    unfold State.rollAdds
    dsimp only
    rw [if_pos hlast]
    rfl
  have hpost : s1.dirEntry dir e = none := by
    exact (State.dirEntry_congr (State.modPost_entries rfl)).trans ((s.dropKept dir).setEntry_dirEntry dir e none)
  rw [hadds] at hu
  have hdrop := State.dropMsg_net (s := s) (n := n) hnet fun k hk => by
    have hle : s.nextId + 1 ≤ k.id := hids k hk
    omega
  refine ⟨_, State.exec_rollArrival hcame hm hu, ?_, ?_, s.nextId, fun j a hj => ?_⟩
  · exact (State.dirEntry_congr (congrArg (fun l => (Tab.get ({} : Post) l dir).entries) hposts)).trans hpost
  · rw [hdrop, List.length_append, hlen, List.length_append]
    rfl
  · obtain ⟨k, hk, hat, hbody⟩ := hks j a hj
    refine ⟨k, ?_, ?_, hbody⟩
    · rw [hdrop]
      exact List.mem_append_right _ hk
    · rw [hat, Nat.zero_add]
      rfl

end Roll

/-! Withdrawals (R217, R265). -/

/-- The one entry of a table for which a search succeeds is found, at its key. -/
theorem Tab.findSome_get {α β : Type} {t : Tab (Option α)} {e : Nat} {x : α} {y : β} {f : Nat × Option α → Option β} (h : Tab.get none t e = some x)
    (hf : f (e, some x) = some y) (hother : ∀ p ∈ t, p.1 ≠ e → f p = none) : t.findSome? f = some y := by
  induction t with
  | nil => cases h
  | cons p t ih =>
    by_cases hp : p.1 = e
    · have hx : p.2 = some x := by
        rw [← h]
        exact (if_pos hp).symm
      rw [List.findSome?_cons, show p = (e, some x) from Prod.ext hp hx, hf]
    · rw [List.findSome?_cons, hother p List.mem_cons_self hp]
      exact ih ((if_neg hp).symm.trans h) fun q hq => hother q (List.mem_cons_of_mem _ hq)

/-- The call of the one entry that holds it is withdrawn. -/
theorem State.withdraw_entry {s : State} {dir tok e : Nat} {x : DirEntry} {y : Option DirEntry} (hx : s.dirEntry dir e = some x)
    (hone : ∀ p ∈ (s.post dir).entries, p.1 ≠ e → (p.2.bind fun x => x.without tok) = none) (hy : x.without tok = some y) :
    s.withdraw dir tok = some (s.setEntry dir e y) := by
  unfold State.withdraw
  rw [Tab.findSome_get (y := (e, y)) hx (by rw [Option.bind_some, hy]; rfl) fun p hp hne => by rw [hone p hp hne]; rfl]
  rfl

theorem DirEntry.without_notice {x : DirEntry} {a : Call} (hx : x.body = .notice a) : x.without a.tok = some none := by
  unfold DirEntry.without
  rw [hx]
  exact if_pos rfl

theorem DirEntry.without_roll {x : DirEntry} {q op tok : Nat} {l : List Call} (hx : x.body = .roll q op l) (h : ∃ a ∈ l, a.tok = tok) :
    x.without tok = some (if (∀ a ∈ l, a.tok = tok) then none else some { x with body := .roll q op (l.filter fun a => a.tok != tok) }) := by
  have hany : (l.any fun c => c.tok == tok) = true := by simpa using h
  have hempty : (l.filter fun a => a.tok != tok).isEmpty = true ↔ ∀ a ∈ l, a.tok = tok := by simp [List.filter_eq_nil_iff]
  unfold DirEntry.without
  rw [hx]
  dsimp only
  rw [if_pos hany]
  by_cases hall : ∀ a ∈ l, a.tok = tok
  · rw [if_pos hall, if_pos (hempty.mpr hall)]
  · rw [if_neg hall, if_neg fun he => hall (hempty.mp he)]

/-- A withdrawal that finds its call takes it from its entry, and answers its party (R265). -/
theorem State.does_withdrawal {s : State} {n dir e : Nat} {m : Msg} {c : Call} {x : DirEntry} {y : Option DirEntry} (hcame : s.came n = some m) (hn : n < s.nextId)
    (hm : m.body = .withdrawal dir c) (hwaits : s.callWaits c.tok = false) (hx : s.dirEntry dir e = some x)
    (hone : ∀ p ∈ (s.post dir).entries, p.1 ≠ e → (p.2.bind fun x => x.without c.tok) = none) (hy : x.without c.tok = some y) :
    s.does (.withdrawalArrival n) fun t => s.answersCall t n dir c 1 ∧ t.dirEntry dir e = y :=
  ⟨_, State.exec_withdrawalArrival hcame hm hwaits (State.withdraw_entry hx hone hy), State.answersCall_of hn rfl rfl rfl dir c 1, State.setEntry_dirEntry s dir e y⟩

/-- A parked party's wait has ended: it withdraws its call (R217, R265). -/
theorem State.does_meetWithdrawal {s : State} {sid u : Nat} {p : Park} (hact : (s.ctx sid).act = .parked) (hpark : (s.ctx sid).park = some p) (hu : p.deadline = some u)
    (hdue : u ≤ s.now) (hw : p.withdrawn = false) (hsave : (s.ctx sid).heldForSave = false) (hvis : isVisitor sid = false) (hmeet : (s.ctx sid).meet = none) :
    s.does (.meetWithdrawal sid) fun t => (t.ctx sid).park = some { p with withdrawn := true } ∧
      ∃ (k : Msg) (b : Call), t.net = s.net ++ [k] ∧ k.at_ = s.now + noticeTime (slotCluster sid) (s.dirOf b) ∧ k.body = .withdrawal (s.dirOf b) b ∧ b.sid = sid ∧
        b.tok = p.tok ∧ b.key = p.key ∧ b.part = (s.ctx sid).part ∧ b.pid = (s.ctx sid).pid := by
  let b : Call := { sid := sid, tok := p.tok, part := (s.ctx sid).part, pid := (s.ctx sid).pid, key := p.key, q := p.quorum, op := p.op, word := p.word, zero := false }
  let s1 := s.modCtx sid fun c => { c with park := some { p with withdrawn := true } }
  have hctx : s1.ctx sid = { s.ctx sid with park := some { p with withdrawn := true } } := State.modCtx_self s sid fun c => { c with park := some { p with withdrawn := true } }
  refine ⟨s1.send (s.now + noticeTime (slotCluster sid) (s.dirOf b)) (.withdrawal (s.dirOf b) b), ?_, congrArg Ctx.park hctx,
    { id := s.nextId, at_ := s.now + noticeTime (slotCluster sid) (s.dirOf b), body := .withdrawal (s.dirOf b) b }, b, rfl, rfl, rfl, rfl, rfl, rfl, rfl, rfl⟩
  show execMeetWithdrawal sid s = _
  unfold execMeetWithdrawal
  dsimp only
  rw [hact, hpark]
  dsimp only
  rw [if_neg]
  rw [hu]
  simp [hw, hsave, hvis, hmeet, hdue]

/-! The retries of a pairing (R259). -/

section Retry
variable {s : State} {dir : Nat} {p : PairRec} (hpairs : (s.post dir).pairs = [p])
include hpairs

theorem State.does_pairRetry {cl : Nat} (hne : slotCluster p.a.sid ≠ slotCluster p.b.sid) (hsince : p.at_ < s.now) (hdue : (s.now - p.at_) % 64 = 0)
    (hplace : s.choosePlace p.a.part (slotCluster p.a.sid) (slotCluster p.b.sid) = some cl) : s.does (.pairRetry dir) fun t =>
      (t.post dir).pairs = [] ∧ (t.clu cl).vres = [0, 1] ∧ ∃ k h : Msg, t.net = s.net ++ [k, h] ∧ k.at_ = s.now + noticeTime dir (slotCluster p.a.sid) ∧
        h.at_ = s.now + noticeTime dir (slotCluster p.b.sid) ∧ k.body = .order p.a.sid p.a.tok cl (some (10 * cl + 8)) (10 * cl + 9) p.taint ∧
        h.body = .order p.b.sid p.b.tok cl (some (10 * cl + 9)) (10 * cl + 8) p.taint := by
  obtain ⟨t, ht, hposts, hvres, k, h, hnet, -, -, hk⟩ := State.placePair_apart (dir := dir) hne hplace
  have hpost : t.post dir = s.post dir := congrArg (fun l => Tab.get ({} : Post) l dir) hposts
  refine ⟨t.modPost dir fun o => { o with pairs := o.pairs.filter fun q => q.taint ≠ p.taint }, ?_, ?_, hvres, k, h, hnet, hk⟩
  · show execPairRetry dir s = _
    unfold execPairRetry
    rw [hpairs, List.foldl_cons, List.foldl_nil, if_pos ⟨hsince, hdue⟩, ht]
  · rw [State.modPost_self, hpost, hpairs]
    simp

theorem State.exec_pairRetry_between (h : (s.now - p.at_) % 64 ≠ 0) : exec (.pairRetry dir) s = .next s := by
  show execPairRetry dir s = _
  unfold execPairRetry
  rw [hpairs, List.foldl_cons, List.foldl_nil, if_neg fun hc => h hc.2]

end Retry

/-- What a notice does, by the entry that its key finds (R217, R257, R258). -/
theorem State.notice_answers {s : State} {n dir : Nat} {m : Msg} {c : Call} (hcame : s.came n = some m) (hn : n < s.nextId) (hm : m.body = .notice dir c) :
    (s.probe dir c = none → s.does (.meetNoticeArrival n) fun t => s.answersCall t n dir c 2) ∧
    (∀ (e : Nat) x, s.probe dir c = some (e, x) → s.closing c = true → s.does (.meetNoticeArrival n) fun t => s.answersCall t n dir c 3) ∧
    (∀ e : Nat, s.probe dir c = some (e, none) → s.closing c = false →
      (c.zero = true → s.does (.meetNoticeArrival n) fun t => s.answersCall t n dir c 1) ∧
      (c.zero = false → s.does (.meetNoticeArrival n) fun t => t.net = (s.net.filter fun x => x.id ≠ n) ∧
        t.dirEntry dir e = some { part := c.part, pid := c.pid, key := c.key, body := .notice c })) := by
  refine ⟨fun h => State.does_notice_answer hcame hn hm (State.takeNotice_full h), fun e x h hc => State.does_notice_answer hcame hn hm (State.takeNotice_closing h hc),
    fun e h hc => ?_⟩
  have htake := State.takeNotice_new h hc
  refine ⟨fun hz => State.does_notice_answer hcame hn hm (by rw [htake, if_pos hz]), fun hz => ?_⟩
  rw [if_neg (by simp [hz])] at htake
  exact ⟨_, State.exec_meetNoticeArrival hcame hm htake, rfl, State.setEntry_dirEntry ..⟩

/-- Settles O55: notices, arrivals and withdrawals by the entry they find, the party's own withdrawal, and the retries of a pairing. -/
theorem directoriesAnswerCalls : Obligations.DirectoriesAnswerCalls := by
  intro s n m dir c time left answers entry
  refine ⟨fun hcame hn => ⟨fun hm => ?_, fun hm hroom => ?_, fun hm hwaits => ?_⟩,
    fun sid p u hact hpark hu hdue hw hsave hvis hmeet => State.does_meetWithdrawal hact hpark hu hdue hw hsave hvis hmeet,
    fun p cl hpairs hne => ⟨fun hsince hdue hplace => State.does_pairRetry hpairs hne hsince hdue hplace, fun h => State.exec_pairRetry_between hpairs h⟩⟩
  · obtain ⟨hfull, hclosing, hnew⟩ := State.notice_answers hcame hn hm
    refine ⟨hfull, hclosing, hnew, fun e x h hc => ⟨fun q op l hx => State.does_notice_answer hcame hn hm (State.takeNotice_roll h hc hx), fun a hx hroom => ?_⟩⟩
    have htake := State.takeNotice_second h hc hx hroom
    exact ⟨fun hsame => State.does_pair_home hcame hn hm htake hsame, fun cl hne hplace => State.does_pair_apart hcame hn hm htake hne hplace,
      fun hne hplace => State.does_pair_waits hcame hn hm htake hne hplace⟩
  · refine ⟨fun h => State.does_arrival_answer hcame hn hm (State.takeArrival_full hroom h),
      fun e x h hc => State.does_arrival_answer hcame hn hm (State.takeArrival_closing hroom h hc),
      fun e x a h hc hx => State.does_arrival_answer hcame hn hm (State.takeArrival_notice hroom h hc hx),
      fun e x q op l h hc hx hne => State.does_arrival_answer hcame hn hm (State.takeArrival_other hroom h hc hx hne), fun e x l h hc hx => ?_⟩
    have htake := State.takeArrival_adds hroom h hc hx
    exact ⟨fun hmore hz => State.does_arrival_zero hcame hn hm htake hmore hz, fun hmore hz => State.does_arrival_stays hcame hm htake hmore hz,
      fun hlast => State.does_arrival_last hcame hn hm htake hlast⟩
  · refine ⟨fun h => ⟨s.dropMsg n, State.exec_withdrawalArrival_none hcame hm hwaits h, rfl, rfl⟩, fun e x hx hone => ⟨fun a hbody htok => ?_, fun q op l hbody htok => ?_⟩⟩
    · exact State.does_withdrawal hcame hn hm hwaits hx hone (by rw [← htok]; exact DirEntry.without_notice hbody)
    · exact State.does_withdrawal hcame hn hm hwaits hx hone (DirEntry.without_roll hbody htok)

end Sys2Proof.Machine
end
